-- ==== Sys2Proof/Word.lean ====
section
/-! DEFINITION. The word types of the Grilis G9 model: bytes, 32-bit registers (R4) and 64-bit counters,
and the NVMe status field in the STATUS format of R72. -/

namespace Sys2Proof

/-- One byte of payload or memory. -/
abbrev Byte := BitVec 8
/-- A register of the G9 (R4). -/
abbrev W32 := BitVec 32
/-- A LO/HI pair (R576). -/
abbrev W64 := BitVec 64
/-- A status in the STATUS format of R72: bits [10:8] the status code type, bits [7:0] the status code. -/
abbrev Status := BitVec 11
/-- A function number (R442): bit 8 the port, bits [7:0] 0 for the manager, 1 to 127 for a virtual function. -/
abbrev Fn := Nat

end Sys2Proof
end

