-- ==== Sys2Proof/Syntax.lean ====
section
/-! DEFINITION. The commands of the G9: one constructor of `Instr` per row of spec/opcode_table.json,
with the operands that come from outside the block (a host command's fields, a register value, what a
sensor, a NAND part or a host's memory answered). The table gives its rows no operand bits; the operands
are this model's (notes/assumptions/1.md). -/

namespace Sys2Proof

/-- The islands of R10, by name; `Island.code` is the table's code. -/
inductive Island where
  | aon | sec | host | ctrl | compute | engine | mem | media0 | media1 | media2 | media3
  deriving DecidableEq, Repr

/-- The two host ports (R441). -/
inductive Port where
  | a | b
  deriving DecidableEq, Repr

/-- Who accesses registers: the requesters of BAR2 (R576), which are the two manager functions and the management
harts, the security core at the digest port (R323), and a virtual function at its own BAR0 mailbox window (R482). -/
inductive Requester where
  | portA | portB
  | firmware (hart : Nat)
  | security
  | vf (fn : Fn)
  deriving DecidableEq, Repr

/-- Who submitted an NVMe command: the function, its submission queue (0 is the admin queue) and the
command identifier. -/
structure Who where
  fn  : Fn
  sq  : Nat
  cid : Nat
  deriving DecidableEq, Repr

/-- One run of host memory that answers reads while a command runs. An address in no run is not backed
by the host (R613): a read of it ends in a PCIe completion error. -/
structure HostRun where
  addr  : Nat
  bytes : List Byte
  deriving DecidableEq, Repr

/-- What host memory answers while a command runs. -/
abbrev HostView := List HostRun

/-- The unit classes of R96. -/
inductive UnitClass where
  | media | dma | cipher | digest | codec | lynx | hart | wbuf
  deriving DecidableEq, Repr

/-- The requester whose bridge request timed out, and what it was doing (R14, R16, R17). -/
inductive BridgeReq where
  | trailTask (flow stage cslot : Nat)
  | nvm (w : Who)
  | bar2Read (r : Requester) (offset width : Nat)
  | bar2Write (r : Requester)
  | firmware
  | flush (slot : Nat)
  deriving DecidableEq, Repr

/-- What wakes the G9 from HIBERNATE (R40). -/
inductive WakeCause where
  | link
  | mctp
  | setFeatures (w : Who) (save : Bool) (cdw11 : W32)
  deriving DecidableEq, Repr

/-- How the LDPC decoders answered one decode attempt (R169). -/
inductive DecodeResult where
  | decoded (iterations : Nat)
  | failed
  deriving DecidableEq, Repr

/-- What one DRAM or SRAM word read showed (R416). -/
inductive Syndrome where
  | good
  | corrected (bit : Nat)
  | poisoned
  | uncorrectable
  deriving DecidableEq, Repr

/-- What the background compare saw at one unit or attribute word (R363). -/
inductive CompareSeen where
  | equal
  | differsShadowGood
  | shadowBadParityGood
  | bothBadOtherCopyGood
  | bothBadNoCopy
  deriving DecidableEq, Repr

/-- The alarm sources of R299, in the order of SEA_ALARM_STATUS bits [0] to [5] (R306). -/
inductive AlarmCause where
  | voltage | clock | overtemp | fuse | dupMismatch | invMismatch
  deriving DecidableEq, Repr

/-- The rails of R532, in table order. -/
inductive Rail where
  | vddAon | vddSec | vddIo18 | vddSoc | vddCore | vddPcie | vddhPcie | vddqMem | vccqNf
  deriving DecidableEq, Repr

/-- The requesters of the digest register port (R323): 0 the security core, 1 to 4 the management
harts, 5 and 6 the manager functions of Port A and Port B. -/
inductive PortReq where
  | security | mgmt0 | mgmt1 | mgmt2 | mgmt3 | managerA | managerB
  deriving DecidableEq, Repr

/-- Whether the two comparators of a comparison compute it, or a fault makes one of them compute the opposite (R318). -/
inductive Comparators where
  | agree | aWrong | bWrong
  deriving DecidableEq, Repr

/-- The Opal methods of a Security Send that the manual gives an effect (R284 to R286). -/
inductive OpalMethod where
  | startSession
  | endSession
  | authenticate (authority : Nat) (credential : List Byte)
  | setCredential (authority : Nat) (credential : List Byte)
  | setRange (nsid range : Nat) (start length : Nat)
  | setLockEnabled (nsid range : Nat) (readEnabled writeEnabled : Bool)
  | setLocked (nsid range : Nat) (read write : Bool)
  | setAccess (nsid range : Nat) (authorities : List Nat)
  | setLockOnReset (nsid range : Nat) (on : Bool)
  | writeMbr (offset : Nat) (data : List Byte)
  | writeDataStore (offset : Nat) (data : List Byte)
  | blockSid (on : Bool)
  | psidRevert
  | readMbr (offset length : Nat)
  | readDataStore (offset length : Nat)
  | setMbrControl (enable done : Bool)
  | removeRange (nsid range : Nat)
  | setSingleUser (nsid range : Nat) (user : Option Nat)
  deriving DecidableEq, Repr

/-- One range of a Dataset Management command, in LBAs. -/
structure LbaRange where
  slba : Nat
  nlb  : Nat
  deriving DecidableEq, Repr

/-- The kinds of namespace of R452. -/
inductive NsKind where
  | nvm | kv | memory
  deriving DecidableEq, Repr

/-- The fields of a Namespace Management create that R455 and R456 use. Sizes are in LBAs
(in bytes for a memory namespace). -/
structure NsSpec where
  kind        : NsKind
  lbaSize     : Nat
  nsze        : Nat
  ncap        : Nat
  cmode       : Nat
  kvflags     : Nat
  recordWidth : Nat
  reserved    : Nat
  deriving DecidableEq, Repr

/-- The six reservation types of NVMe (R457). -/
inductive ResType where
  | writeExclusive | exclusiveAccess
  | writeExclusiveRegistrants | exclusiveAccessRegistrants
  | writeExclusiveAll | exclusiveAccessAll
  deriving DecidableEq, Repr

/-- Reservation Register actions. -/
inductive RegisterAction where
  | register | unregister | replace
  deriving DecidableEq, Repr

/-- Reservation Acquire actions (R458). -/
inductive AcquireAction where
  | acquire | preempt | preemptAndAbort
  deriving DecidableEq, Repr

/-- One memory range of a Memory Range Set (R453): a memory namespace, an offset and a length. -/
structure MemRange where
  nsid   : Nat
  offset : Nat
  length : Nat
  deriving DecidableEq, Repr

/-- One assignment entry of INSTANCE_CONFIG ASSIGN (R481). -/
structure AssignEntry where
  kind   : Nat
  action : Nat
  slot   : Nat
  deriving DecidableEq, Repr

/-- A share (R473). -/
structure Share where
  queuePairs : Nat
  weight     : Nat
  writeSlots : Nat
  clusters   : BitVec 8
  flows      : Nat
  deriving DecidableEq, Repr

/-- What the SEC-DED code of a matching-store entry showed when the dispatcher read it to fire its task (R82, R109):
`data` is an uncorrectable error in word 1, 2 or 3, `head` one in both copies of word 0. -/
inductive EntrySeen where
  | good | data | head
  deriving DecidableEq, Repr

/-- An entry of the Lynx array as the copy that searches holds it, where soft errors have changed it (R361, R364). -/
structure SoftEntry where
  index : Nat
  valid : Bool
  prio  : Nat
  value : Nat
  key   : List Byte
  deriving DecidableEq, Repr

/-- What the unit that ends a task or a search reports: nothing, an error of its own (a bus error, poisoned data, an
uncorrectable shadow word), or the entries that soft errors have changed in its copy of the Lynx array (R364). -/
inductive UnitSeen where
  | good
  | error (st : Status)
  | soft (entries : List SoftEntry)
  deriving DecidableEq, Repr

/-- The registers of a hart (R126, R127): the program counter, the integer registers x1 to x31, the floating-point registers, the
vector registers of VLEN 512 bits (64 bytes each), and fcsr, vl and vtype. A register not listed holds 0. -/
structure HartRegs where
  pc    : W64
  x     : List (Nat × W64)
  f     : List (Nat × W64)
  v     : List (Nat × List Byte)
  fcsr  : Nat
  vl    : Nat
  vtype : Nat
  deriving DecidableEq, Repr

/-- What a kernel did between two events of its hart: the lines (window address / 64) that it fetched and loaded from, its
stores in their order, the registers as it leaves them, and the cycles and instructions it took. The instruction set is
that of RVA23U64, which the spec names and does not give (R127). -/
structure KernelRun where
  regs    : HartRegs
  fetched : List Nat
  loaded  : List Nat
  stores  : List (Nat × List Byte)
  cycles  : Nat
  instret : Nat
  deriving DecidableEq, Repr

/-- The kinds of a hart's access (R123, R134). -/
inductive AccessKind where
  | load | store | atomic | fetch
  deriving DecidableEq, Repr

/-- What a kernel's instruction meets (R134, R135): an access to check against its windows, an illegal instruction, EBREAK, an
ECALL with its call number, or an uncorrectable memory error at an address. -/
inductive KernelTrap where
  | access (kind : AccessKind) (addr len : Nat)
  | illegal (word : W32)
  | ebreak
  | ecall (number : W64)
  | poisoned (addr : W64)
  deriving DecidableEq, Repr

/-- What a memory word holds when it is found uncorrectable, by the content codes of R426: the placement of buffers, pools
and tables in memory is the implementation's. A task's operand and a module's pool name the byte too, a module's pool and a
hart's caches the hart that read it or whose line it is. -/
inductive Held where
  | unallocated
  | mapSegment (segment : Nat)
  | journals
  | slot (slot : Nat)
  | task (flow stage cslot at_ : Nat)
  | localMemory
  | modulePool (module at_ : Nat) (hart : Option Nat)
  | digestContext (context : Nat)
  | lynxShadow (table index : Nat)
  | kvIndex (nsid : Nat)
  | hintTable (block : Nat)
  | firmware
  | staging (task : Option (Nat × Nat × Nat × Nat))
  | hartCache (hart line : Nat)
  | matchingStore (flow stage cslot : Nat) (head : Bool)
  | lynxAttribute (table index : Nat)
  deriving DecidableEq, Repr

/-- A write of a line at a requester port (R410): the bytes written, and what the line holds, for the merge of a part of a word
that finds it wrong (R417, R426). -/
structure MemWrite where
  offset : Nat
  bytes  : List Byte
  held   : Held
  deriving DecidableEq, Repr

/-- The commands and events of the G9, one constructor per row of spec/opcode_table.json, in its order. -/
inductive Instr where
  -- Islands, Data Paths and the Six Modes
  | bridgeTimeout (target source : Island) (req : BridgeReq)
  | setFeaturesMode (w : Who) (save : Bool) (cdw11 : W32)
  | getFeaturesMode (w : Who) (select : Nat)
  | modeTransitionDone
  | thermalSample (raw : List Int)
  | sprintTick (ilimN : Bool)
  | sprintLimit
  | ilimNAssert
  | hibernateEntryDone
  | wakeEvent (cause : WakeCause)
  | wakeReady
  -- Trails
  | trailSubmit (w : Who) (descLen : Nat) (slm : Option (Nat × Nat)) (addr : Nat) (hv : HostView)
  | trailAdmissionResume (w : Who)
  | trailQuery (w : Who) (trailId : W32) (wait : Bool)
  | trailQueryWaitExpiry (w : Who)
  | trailCancel (w : Who) (trailId : W32)
  | chunkIssue (flow : Nat) (hv : HostView)
  | trailEnd (flow : Nat) (seen : List Comparators)
  -- The dispatcher
  | creditGrant (flow stage cslot : Nat)
  | sinkGrant (flow cslot : Nat)
  | taskFire (flow stage cslot : Nat) (seen : EntrySeen)
  | unitTaskStart (cls : UnitClass) (unit : Nat)
  | taskComplete (flow stage cslot : Nat) (hv : HostView) (seen : UnitSeen)
  | engineWatchdogExpiry (cls : UnitClass) (unit : Nat)
  | orphanCheck
  | squirrelFill (hart : Nat)
  | hartTaskStart (hart : Nat)
  -- Compute harts and Urmer modules
  | exit (hart : Nat) (run : KernelRun)
  | kernelWritebackDone (hart : Nat) (lost : Option Nat)
  | fail (hart : Nat) (run : KernelRun)
  | budgetLeft (hart : Nat) (run : KernelRun)
  | lynxSearch (hart : Nat) (run : KernelRun)
  | lynxSearchReturn (hart : Nat) (seen : UnitSeen)
  | kernelTrailSubmit (hart : Nat) (run : KernelRun) (hv : HostView)
  | kernelFault (hart : Nat) (run : KernelRun) (trap : KernelTrap)
  | budgetExpiry (hart : Nat) (run : KernelRun)
  | hartStopTimeout (hart : Nat)
  | hartResetTimeout (hart : Nat)
  | moduleLoad (w : Who) (cdw10 cdw11 : W32) (received : List Byte)
  | enroll (w : Who) (cdw10 : W32) (data : List Byte)
  | moduleMeasureDone
  | moduleSignatureDone
  | moduleUnload (w : Who) (module : Nat) (force : Bool)
  | moduleRemove (module : Nat)
  | clusterEnWrite (r : Requester) (value : W32)
  -- Flash channels
  | channelTrainDone (channel : Nat) (pass : Bool)
  | targetTempPoll (channel : Nat) (temps : List Int)
  | channelRetrainDone (channel : Nat) (pass : Bool)
  | suspendDone (lun : Nat)
  | suspendBudgetExpiry (lun : Nat)
  | writeAgeExpiry (lun : Nat) (internalRead : Bool)
  | senseDone (lun : Nat)
  | codewordDecodeDone (lun cw : Nat) (res : DecodeResult)
  | ladderDeadlineExpiry (lun cw : Nat)
  | firstSenseDeadlineExpiry (lun : Nat)
  | programDone (lun : Nat) (ok : Bool)
  | eraseDone (lun : Nat) (ok : Bool)
  | lunReadyTimeout (lun : Nat)
  | ucalCommit (r : Requester) (island : Nat) (value : W32)
  | ucalCommitDone (island : Nat) (ok : Bool)
  | systemAreaMoveDone (copy : Nat)
  -- Translation
  | nvmWrite (w : Who) (nsid slba nlb : Nat)
  | writeZeroes (w : Who) (nsid slba nlb : Nat)
  | nvmRead (w : Who) (nsid slba nlb : Nat)
  | datasetManagement (w : Who) (nsid : Nat) (deallocate : Bool) (ranges : List LbaRange)
  | flush (w : Who) (nsid : Nat)
  | compare (w : Who) (nsid slba nlb : Nat) (data : Option (List Byte))
  | verify (w : Who) (nsid slba nlb : Nat)
  | writeAdmit
  | writeDataDone (w : Who) (data : Option (List Byte))
  | slotFlushStart (slot : Nat)
  | stripeCloseTimeout (band stripe : Nat)
  | badgerVictimSelect
  | epochBoundary
  | journalPageTimeout
  | mapSegmentTimeout (segment : Nat)
  | mapSegmentRebuildDone (segment : Nat)
  -- Redundancy
  | rebuildBandStart
  | dumpComplete
  | reshapeStart (r : Requester) (value : W32)
  | reshapeAbort (r : Requester) (value : W32)
  | reshapeRegionBegin
  -- Cipher engine and key store
  | getImportKey (w : Who)
  | importKeyExpiry (importId : Nat)
  | importKey (w : Who) (data : List Byte)
  | generate (w : Who) (slot use : Nat)
  | clear (w : Who) (slot use : Nat)
  | restore (w : Who)
  | slotStatus (w : Who)
  | opalSecuritySend (w : Who) (protocol : Nat) (method : OpalMethod)
  | opalSecurityReceive (w : Who) (protocol : Nat)
  | genkey (nsid range : Nat)
  | nonceLogWriteDone (slot : Nat)
  | alarm (cause : AlarmCause)
  -- Digest engine
  | claim (r : PortReq)
  | release (r : PortReq)
  | portOwnerTimeout
  | portStart (r : PortReq) (value : W32)
  | portData (r : PortReq) (word : W32)
  | portBlockAbsorbed
  | portFinish (r : PortReq) (value : W32) (seen : Comparators)
  | hmacLoad (r : Requester) (value : W32)
  | hmacLoadDone
  | hmacClear (r : Requester) (value : W32)
  | hmacReloadDone (slot : Nat)
  -- Lynx
  | define (r : Requester) (value : W32)
  | undefine (r : Requester) (value : W32)
  | lnxTblSelWrite (r : Requester) (value : W32)
  | lnxEntRead (r : Requester) (value : W32)
  | lnxEntWrite (r : Requester) (value : W32)
  | lnxEntDelete (r : Requester) (value : W32)
  | lynxCompareStep (table index : Nat) (seen : CompareSeen)
  | lynxLapComplete (durationUs : Nat)
  | lapTargetExceeded
  | lynxReloadDone
  -- DMA
  | arm (r : Requester) (channel : Nat) (value : W32)
  | dmaPause (r : Requester) (channel : Nat) (value : W32)
  | dmaResume (r : Requester) (channel : Nat) (value : W32)
  | dmaPauseDrained (channel moved : Nat) (hv : HostView)
  | dmaOwnerWrite (r : Requester) (channel : Nat) (value : W32)
  | dmaDescPtrWrite (r : Requester) (channel : Nat) (value : W32)
  | dmaDescriptorDone (channel : Nat) (hv : HostView)
  | dmaPaceResume (channel : Nat)
  | dmaBusError (channel code : Nat) (addr : W64) (moved : Nat) (hv : HostView)
  | descFetchError (failing : Option Nat) (lastGrant : Nat) (addr : W64)
  -- DRAM
  | dramTrainAttemptDone (channel : Nat) (pass : Bool)
  | dqsRecentre (channel sc : Nat)
  | zqCalibration (channel sc : Nat)
  | mr4Poll (channel : Nat) (rate : Nat) (overRange : Bool)
  | refresh (channel sc : Nat)
  | memRequest (port : Nat) (line : Nat) (write : Option MemWrite)
  | memReadDone (port line word : Nat) (seen : Syndrome) (held : Held) (latencyNs : Nat)
  | owlRead (group addr : Nat) (seen : Syndrome) (held : Held) (last : Bool)
  | pageRetireDone (page : Nat)
  | owlLapOverdue
  | eccInjectArm (r : Requester) (value : W32)
  -- Host ports and NVMe
  | portReset (port : Port)
  | perstAssert (port : Port)
  | perstDeassert (port : Port)
  | linkTrained (port : Port) (rate width credits : Nat)
  | pcieCompletionTimeout (req : BridgeReq)
  | doorbellWrite (fn : Fn) (qid : Nat) (isCq : Bool) (value : Nat)
  | commandFetch (fn : Fn) (sq cid : Nat)
  | controllerEnable (fn : Fn) (cc aqa : W32) (asq acq : W64)
  | controllerDisable (fn : Fn)
  | shutdownNotification (fn : Fn) (abrupt : Bool)
  | nvmSubsystemReset (by_ : Option Fn)
  | identify (w : Who) (cns nsid : Nat)
  | getLogPage (w : Who) (lid nsid offset bytes : Nat) (rae : Bool) (lsp uuid : Nat)
  | setFeatures (w : Who) (fid nsid : Nat) (save : Bool) (cdw11 : W32) (data : List Byte)
  | getFeatures (w : Who) (fid nsid select : Nat) (cdw11 : W32)
  | createIoQueue (w : Who) (isCq : Bool) (qid size base cqid vector prio : Nat) (contiguous ien : Bool)
  | deleteIoQueue (w : Who) (isCq : Bool) (qid : Nat)
  | abort (w : Who) (sq cid : Nat)
  | asynchronousEventRequest (w : Who)
  | formatNvm (w : Who) (nsid ses lbaSize : Nat)
  | sanitize (w : Who) (crypto : Bool)
  | firmwareImageDownload (w : Who) (offset : Nat) (data : List Byte)
  | firmwareCommitWrite (w : Who) (slot : Nat) (mldsaOk ecdsaOk : Bool)
  | firmwareCommitWritePending (w : Who) (slot : Nat) (mldsaOk ecdsaOk : Bool)
  | firmwareCommitPending (w : Who) (slot : Nat)
  | namespaceCreate (w : Who) (spec : NsSpec)
  | namespaceDelete (w : Who) (nsid : Nat)
  | namespaceResize (w : Who) (nsid nsze ncap : Nat)
  | namespaceAttachment (w : Who) (nsid : Nat) (attach : Bool) (controllers : List Nat)
  | reservationRegister (w : Who) (nsid : Nat) (action : RegisterAction) (crkey nrkey : W64) (iekey : Bool) (cptpl : Nat)
  | reservationAcquire (w : Who) (nsid : Nat) (action : AcquireAction) (type : ResType) (crkey prkey : W64)
  | reservationRelease (w : Who) (nsid : Nat) (clear : Bool) (type : ResType) (crkey : W64)
  | reservationReport (w : Who) (nsid : Nat)
  | kvStore (w : Who) (nsid : Nat) (key value : List Byte) (mustExist mustNotExist : Bool)
  | kvRetrieve (w : Who) (nsid : Nat) (key : List Byte) (bufferBytes : Nat)
  | kvDelete (w : Who) (nsid : Nat) (key : List Byte)
  | kvExist (w : Who) (nsid : Nat) (key : List Byte)
  | kvList (w : Who) (nsid : Nat) (key : List Byte)
  | loadProgram (w : Who) (cdw10 cdw11 : W32) (received : List Byte)
  | programActivationManagement (w : Who) (programId : Nat) (activate : Bool)
  | executeProgram (w : Who) (programId rangeSet : Nat) (args : List Byte)
  | memoryRangeSetManagement (w : Who) (create : Bool) (setId : Nat) (ranges : List MemRange)
  | memoryRead (w : Who) (nsid offset length : Nat)
  | memoryWrite (w : Who) (nsid offset : Nat) (data : Option (List Byte))
  | memoryCopy (w : Who) (nsid offset : Nat) (sources : List (Nat × LbaRange))
  | ledgerRead (w : Who) (seq count bufferBytes : Nat)
  | getShare (w : Who) (fn : Fn) (bytes : Nat)
  | setShare (w : Who) (fn : Fn) (bytes : Nat) (share : Share)
  | assign (w : Who) (fn : Fn) (bytes : Nat) (entries : List AssignEntry)
  | getStatus (w : Who) (fn : Fn) (bytes : Nat)
  | getMigrationKey (w : Who) (fn : Fn) (bytes : Nat)
  | migrationKeyExpiry (fn : Fn)
  | setMigrationTarget (w : Who) (fn : Fn) (record : List Byte)
  | migrateFreeze (w : Who) (fn : Fn)
  | thaw (w : Who) (fn : Fn)
  | migrateSave (w : Who) (fn : Fn) (bufferBytes : Nat)
  | migrateRestore (w : Who) (fn : Fn) (bytes : Nat) (blob : List Byte)
  | send (fn : Fn) (fromManager : Bool) (value : W32)
  | pop (fn : Fn) (fromManager : Bool) (value : W32)
  | functionLevelReset (fn : Fn)
  | flrAbortDeadline (fn : Fn)
  | flrComplete (fn : Fn)
  -- Sideband
  | readNvmeMiDataStructure (transport : Nat) (kind : Nat)
  | nvmSubsystemHealthStatusPoll (transport : Nat)
  | controllerHealthStatusPoll (transport : Nat) (controller : Nat)
  | configurationSet (transport : Nat) (smbusFrequency : Option Nat) (mtu : Option Nat)
  | configurationGet (transport : Nat) (mtu : Bool)
  | vpdRead (transport : Nat) (offset length : Nat)
  | vpdWrite (transport : Nat) (offset : Nat) (data : List Byte)
  | tunnelledAdminCommand (transport : Nat) (opcode : Nat) (arg : Nat)
  | basicManagementCommand
  | miResponseTimeout (transport : Nat)
  | smbusTimeout
  | spdmRequest (transport : Nat) (code : Nat) (nonce : List Byte)
  | ledgerGet (transport : Nat) (seq count : Nat)
  | certMldsa (transport : Nat)
  -- Boot, ledger, recovery
  | powerOn (portSplit : Bool)
  | bootHoldXspiRelease
  | trialConfirm
  | trialReadyTimeout
  | ledgerAppendDone (ok : Bool)
  | mgmtHartWatchdogExpiry
  | rootWatchdogExpiry
  | escalationBoundExpiry (level : Nat) (island : Island) (unit : Nat)
  | resetDone (level : Nat) (island : Island)
  -- Power
  | pfailNFall
  | pfailHoldExpiry
  | railDroop (rail : Rail)
  | resetNFall
  | resetNRiseReboot (portSplit : Bool)
  -- Health
  | tempHistoryTick
  | lifetimeWriteTimer
  | flushLifetime (r : Requester) (value : W32)
  | lifetimeWriteDone
  | configAreaWriteDone
  -- Registers
  | clrCounters (r : Requester) (offset : Nat) (value : W32)
  | lock (r : Requester) (offset : Nat) (value : W32)
  | bridgeErrClear (r : Requester) (value : W32)
  | dmaErrClear (r : Requester) (value : W32)
  | rleErrClear (r : Requester) (value : W32)
  | eccUeClear (r : Requester) (value : W32)
  | lnxErrClear (r : Requester) (value : W32)
  | topIrqCfgWrite (r : Requester) (port : Port) (value : W32)
  | bldEscLastRead (r : Requester) (width : Nat)
  | loRegisterRead (r : Requester) (offset width : Nat)
  | registerWrite (r : Requester) (offset width : Nat) (value : W64)
  -- Late rows of the table
  | flowControlCreditReturn (port : Port) (credits : Nat)
  | railsFall (rails : List Rail)
  | deallocationComplete (nsid range : Nat)
  | sanitizeComplete (nsid : Nat)
  | keepAlive (w : Who)
  | keepAliveTimerExpiry (fn : Fn)
  | msiXUnmask (port : Port) (fn : Fn) (vector : Nat)
  deriving DecidableEq, Repr

end Sys2Proof
end

