-- ==== Sys2Proof/Decode.lean ====
section
/-! DEFINITION. The command that a word of the opcode table's bits spells: spec/opcode_table.json gives no row any bits, so no
word spells one (notes/assumptions/1.md). -/

namespace Sys2Proof

/-- The command of a word: none, since the table has no bits. -/
def decodeTableWord (_nbits _w : Nat) : Option Instr := none

end Sys2Proof
end

