-- ==== Sys2Proof/Config.lean ====
section
/-! DEFINITION. What the manual leaves open: constants with no body, so that no proof can lean on a value
(notes/assumptions/6.md and 14.md to 16.md). Byte strings are given as functions of the byte index. -/

namespace Sys2Proof.Config

/-- Byte i of draw d of the random bit generator (R276). -/
opaque random : Nat → Nat → Byte

/-- The unique device secret (R502), 32 bytes. -/
opaque uds : Nat → Byte
/-- The digest of the boot ROM (R501) and of the fuse configuration (R502). -/
opaque romDigest : Nat → Byte
opaque fuseDigest : Nat → Byte

/-- ML-KEM-768 (FIPS 203): the encapsulation key of a secret, the ciphertext and shared secret of an encapsulation,
and decapsulation. -/
opaque mlkemKey : List Byte → Nat → Byte
opaque mlkemCipher : List Byte → List Byte → Nat → Byte
opaque mlkemShared : List Byte → List Byte → Nat → Byte
opaque mlkemDecap : List Byte → List Byte → Nat → Byte
/-- ECDH P-384: the public key of a secret and the shared secret with a public key. -/
opaque ecdhKey : List Byte → Nat → Byte
opaque ecdhShared : List Byte → List Byte → Nat → Byte
/-- ML-DSA-65 (FIPS 204) and ECDSA P-384: public keys, signatures and verification. -/
opaque mldsaKey : List Byte → Nat → Byte
opaque mldsaSign : List Byte → List Byte → Nat → Byte
opaque mldsaVerify : List Byte → List Byte → List Byte → Bool
opaque ecdsaSign : List Byte → List Byte → Nat → Byte
opaque ecdsaVerify : List Byte → List Byte → List Byte → Bool
/-- The secret keys of the DeviceID and Alias pairs, from a layer secret (R502). -/
opaque deviceSecret : List Byte → Nat → Byte
/-- The certificate chains of SPDM and CERT_MLDSA (R503, R521), and a response to another SPDM request. -/
opaque certificate : Nat → List Byte → List Byte
opaque spdmAnswer : Nat → List Byte → List Byte

/-- Factory offsets: temperature sensors (R537), NAND read levels by LUN and level (R171), their thermal offsets by
band and level (R171), DRAM seeds by index (R405). -/
opaque sensorFactory : Nat → BitVec 8
opaque levelFactory : Nat → Nat → BitVec 8
opaque levelThermal : Nat → Nat → BitVec 8
opaque levelLow : Nat → BitVec 8
opaque levelHigh : Nat → BitVec 8
opaque seedWindow : Nat → BitVec 8
/-- The retry offsets by entry and level, and the soft step, of the factory page; the soft step of the parameter page (R169,
R171, R175). -/
opaque retryOffset : Nat → Nat → BitVec 8
opaque softStep : BitVec 8
opaque parameterSoftStep : BitVec 8
/-- The device key-encryption key, derived from the unique device secret (R274, R502), and the key-encryption key that the credentials of a
range's authorities give (R274), neither of whose derivations the spec gives. -/
opaque deviceKek : Nat → Byte
opaque opalKek : List Byte → Nat → Byte
/-- Whether a glitch detector that has raised an alarm, voltage (true) or clock, still shows a glitch at a tick (R299, R302). -/
opaque glitchLasts : Bool → Nat → Bool
/-- The dump key, derived from the unique device secret (R281). -/
opaque dumpKey : Nat → BitVec 8
/-- The factory seed and its window of a channel's training step: ZQ, duty cycle, read DQ, write DQ (R161, R171). -/
opaque channelSeed : Nat → Nat → BitVec 8
opaque channelSeedLow : Nat → BitVec 8
opaque channelSeedHigh : Nat → BitVec 8
/-- The syndrome of a single wrong bit (R416), by bit. -/
opaque syndrome : Nat → BitVec 8
opaque seedFactory : Nat → BitVec 8
/-- The value that a training finds for a seed's parameter, by draw (R405). -/
opaque seedTrained : Nat → Nat → BitVec 8
/-- Byte i of a block-table page, by segment and JSEQ, of which R219 and R235 give no layout. -/
opaque blockPage : Nat → Nat → Nat → Byte
/-- Whether a page of a dump whose program was under way when the power was lost is readable, by draw and page (R256, R257). -/
opaque dumpPage : Nat → Nat → Bool
/-- The copies of a system area that a write which lost its power had finished, by draw (R176). -/
opaque copiesWritten : Nat → Nat
/-- The number that BLD_ESC_LAST gives an engine, by unit class (R530 names no numbering). -/
opaque unitCode : Nat → BitVec 8
/-- Spare rows and columns of an SRAM bank that fuses switched in (R425). -/
opaque sramFused : Nat → Nat

/-- The address of an output buffer in 64-byte units, as DATA_ADDR has it, and the address of the copy of a stage record, by flow
context and stage (R82, R95, R105): the placement of buffers and contexts is the implementation's. -/
opaque bufferUnit : Nat → BitVec 32
opaque stageRecord : Nat → Nat → BitVec 64
/-- The monitor return address that a kernel finds in ra (R126). -/
opaque monitorReturn : BitVec 64
/-- The program counter of a kernel at the moment an uncorrectable memory error stops it, by draw (R155). -/
opaque kernelPc : Nat → BitVec 64

/-- Bytes of data structures whose content other specifications give: Identify by CNS and NSID, log pages by identifier,
NVMe-MI structures, Opal discovery, the VPD. -/
opaque identify : Nat → Nat → Nat → Byte
opaque logPage : Nat → Nat → Byte
opaque miStructure : Nat → Nat → Byte
opaque opalDiscovery : Nat → Nat → Byte
/-- The credential an Opal authority has before one is set, and the PSID. -/
opaque opalDefault : Nat → Nat → Byte

/-- Byte i of the submission-queue entry of a command, by function, queue and identifier, where the model has no field of it
(R489, R494). -/
opaque sqEntry : Nat → Nat → Nat → Nat → Byte
/-- The value that a held Key Value Store finds in host memory once it is thawed on the target, by its function, queue and command
identifier (R490, R495). -/
opaque heldValue : Nat → Nat → Nat → Nat → Byte

/-- The status with which an operation fails when 16 ledger records already wait and the manual names no status (R516). -/
opaque appendFailStatus : Status
/-- What Number of Queues returns for a share of no queue pairs. -/
opaque noQueues : BitVec 32
/-- The lowest and the highest blob compatibility level that firmware of a level accepts (R491). -/
opaque compatMin : Nat → BitVec 16
opaque compatMax : Nat → BitVec 16
/-- The RECORD_SIZE of an Execute Program's Trail between the kernel's smallest and largest (R453 names none): how far above
the smallest. -/
opaque programRecord : Nat → Nat → Nat

end Sys2Proof.Config
end

