-- ==== Sys2Proof/Machine/Bits.lean ====
section
/-! DEFINITION. Bit fields, byte order and small list helpers. Every multi-byte field of the G9 is
little-endian (R4, and the record tables of the chapters). -/

namespace Sys2Proof.Machine

/-- Bits [hi:lo] of a number. -/
def bitsOf (w hi lo : Nat) : Nat := w / 2 ^ lo % 2 ^ (hi + 1 - lo)

/-- Bits [hi:lo] of a register. -/
def fld (w : W32) (hi lo : Nat) : Nat := bitsOf w.toNat hi lo

/-- Bit `i` of a register. -/
def bitAt (w : W32) (i : Nat) : Bool := w.getLsbD i

/-- A Boolean as a bit at position `i`. -/
def bitIf (b : Bool) (i : Nat) : Nat := if b then 2 ^ i else 0

/-- The register whose value is a number. -/
def w32 (n : Nat) : W32 := BitVec.ofNat 32 n

/-- The low half of a 64-bit count. -/
def loOf (n : Nat) : W32 := w32 n
/-- The high half of a 64-bit count. -/
def hiOf (n : Nat) : W32 := w32 (n / 2 ^ 32)

/-- `n` bytes of a number, least significant first. -/
def leBytes : Nat → Nat → List Byte
  | 0, _ => []
  | n + 1, v => BitVec.ofNat 8 v :: leBytes n (v / 256)

/-- The number whose little-endian bytes are given. -/
def ofLe : List Byte → Nat
  | [] => 0
  | b :: bs => b.toNat + 256 * ofLe bs

/-- `n` bytes of a number, most significant first. -/
def beBytes (n v : Nat) : List Byte := (leBytes n v).reverse

/-- The number whose big-endian bytes are given. -/
def ofBe (bs : List Byte) : Nat := ofLe bs.reverse

/-- `n` zero bytes. -/
def zeros (n : Nat) : List Byte := List.replicate n 0

/-- The first `n` bytes, zero-filled (R465 and the padding rules). -/
def padTo (n : Nat) (bs : List Byte) : List Byte := bs.take n ++ zeros (n - bs.length)

/-- `n` bytes from offset `o`; bytes past the end read 0. -/
def slice (bs : List Byte) (o n : Nat) : List Byte := padTo n (bs.drop o)

/-- The little-endian field of `n` bytes at offset `o`. -/
def leAt (bs : List Byte) (o n : Nat) : Nat := ofLe (slice bs o n)

/-- A two's complement field of `n` bits as an integer. -/
def signed (n v : Nat) : Int := if v % 2 ^ n < 2 ^ (n - 1) then (v % 2 ^ n : Nat) else ((v % 2 ^ n : Nat) : Int) - 2 ^ n

/-- An integer as a two's complement field of `n` bits. -/
def unsigned (n : Nat) (v : Int) : Nat := (v % (2 ^ n : Nat)).toNat

/-- Clamp an integer between two bounds. -/
def clampInt (v lo hi : Int) : Int := if v < lo then lo else if hi < v then hi else v

/-- A count that saturates. -/
def satAdd (limit a b : Nat) : Nat := Nat.min limit (a + b)

/-- Division rounded up. -/
def ceilDiv (a b : Nat) : Nat := if b = 0 then 0 else (a + b - 1) / b

/-- Overwrite bytes of a list from an offset; bytes past its end are dropped. -/
def patch (bs : List Byte) (o : Nat) (new : List Byte) : List Byte :=
  (bs.take o ++ new.take (bs.length - o)) ++ bs.drop (o + new.length)

/-- Bytewise exclusive or, as long as the shorter. -/
def xorBytes (a b : List Byte) : List Byte := List.zipWith (· ^^^ ·) a b

/-- Cut a list into pieces of `n`, by fuel. -/
def chunksFuel {α : Type} (n : Nat) : Nat → List α → List (List α)
  | 0, _ => []
  | k + 1, xs => if xs.isEmpty then [] else xs.take n :: chunksFuel n k (xs.drop n)

/-- Cut a list into pieces of `n`; the last may be shorter. -/
def chunksOf {α : Type} (n : Nat) (xs : List α) : List (List α) := chunksFuel n xs.length xs

/-- Run a change `n` times with the index, from 0. -/
def iterate {α : Type} (f : Nat → α → α) : Nat → α → α
  | 0, x => x
  | n + 1, x => f n (iterate f n x)

/-- Add an element to a list that holds no repeats. -/
def addOnce {α : Type} [DecidableEq α] (xs : List α) (x : α) : List α := if x ∈ xs then xs else xs ++ [x]

/-- The newest `n` elements of a list (a ring's content, oldest first). -/
def lastN {α : Type} (n : Nat) (xs : List α) : List α := xs.drop (xs.length - n)

/-- The largest of a list of integers, or a start value. -/
def maxInt (d : Int) (xs : List Int) : Int := xs.foldl (fun a b => if a < b then b else a) d

end Sys2Proof.Machine
end

