-- ==== Sys2Proof/Machine/Table.lean ====
section
/-! DEFINITION. Sparse tables and sparse byte memories: lists of (key, value) pairs in one canonical form
(keys strictly rising; a byte memory lists no 0). Everything the G9 holds in an array or in DRAM is kept in one
of the two, so that equal contents are equal data. -/

namespace Sys2Proof.Machine

/-- A sparse table: (key, value) pairs with strictly rising keys. -/
abbrev Tbl (α : Type) := List (Nat × α)

/-- The value at a key, if the table holds one. -/
def Tbl.find {α : Type} : Tbl α → Nat → Option α
  | [], _ => none
  | (k, v) :: t, key => if key = k then some v else Tbl.find t key

/-- The value at a key, or a default. -/
def Tbl.getD {α : Type} (t : Tbl α) (key : Nat) (d : α) : α := (Tbl.find t key).getD d

/-- Set the value at a key. -/
def Tbl.set {α : Type} : Tbl α → Nat → α → Tbl α
  | [], key, x => [(key, x)]
  | (k, v) :: t, key, x =>
    if key < k then (key, x) :: (k, v) :: t
    else if key = k then (key, x) :: t
    else (k, v) :: Tbl.set t key x

/-- Remove a key. -/
def Tbl.erase {α : Type} (t : Tbl α) (key : Nat) : Tbl α := t.filter fun e => e.1 ≠ key

/-- Set a key, or remove it where the new value is the one an unlisted key has. -/
def Tbl.put {α : Type} [DecidableEq α] (d : α) (t : Tbl α) (key : Nat) (x : α) : Tbl α :=
  if x = d then Tbl.erase t key else Tbl.set t key x

/-- Keep the entries that pass a test. -/
def Tbl.keep {α : Type} (t : Tbl α) (p : Nat → α → Bool) : Tbl α := t.filter fun e => p e.1 e.2

/-- Change every value, key by key. -/
def Tbl.mapVals {α : Type} (t : Tbl α) (f : Nat → α → α) : Tbl α := t.map fun e => (e.1, f e.1 e.2)

/-- Change the value at a key, where there is one. -/
def Tbl.modify {α : Type} (t : Tbl α) (key : Nat) (f : α → α) : Tbl α :=
  match Tbl.find t key with
  | some v => Tbl.set t key (f v)
  | none => t

/-- The keys rise strictly, all at or above a bound. -/
def Tbl.risingFrom {α : Type} : Nat → Tbl α → Bool
  | _, [] => true
  | b, (k, _) :: t => decide (b ≤ k) && Tbl.risingFrom (k + 1) t

/-- The canonical form of a table: strictly rising keys. -/
def Tbl.wf {α : Type} (t : Tbl α) : Bool := Tbl.risingFrom 0 t

/-- The lowest number below a bound that is not a key. -/
def Tbl.lowestFree {α : Type} (t : Tbl α) (start : Nat) : Nat → Option Nat
  | 0 => none
  | n + 1 => if (Tbl.find t start).isNone then some start else Tbl.lowestFree t (start + 1) n

/-- A sparse byte memory: (address, byte) cells with strictly rising addresses. A byte that nothing has written,
and a byte of a deallocated or erased place, reads as 0 and is not listed (notes/assumptions/5.md). -/
abbrev Mem := List Host.Cell

/-- What an unlisted address reads as. -/
def Mem.unlisted : Byte := 0

/-- One byte. -/
def Mem.read (m : Mem) (a : Nat) : Byte := Tbl.getD m a Mem.unlisted

/-- Write one byte, keeping the canonical form. -/
def Mem.write (m : Mem) (a : Nat) (b : Byte) : Mem := Tbl.put Mem.unlisted m a b

/-- `n` bytes from an address upward. -/
def Mem.readBytes (m : Mem) (a : Nat) : Nat → List Byte
  | 0 => []
  | n + 1 => Mem.read m a :: Mem.readBytes m (a + 1) n

/-- Write bytes from an address upward. -/
def Mem.writeBytes (m : Mem) (a : Nat) : List Byte → Mem
  | [] => m
  | b :: bs => Mem.writeBytes (Mem.write m a b) (a + 1) bs

/-- Set `n` bytes from an address upward to 0. -/
def Mem.clear (m : Mem) (a n : Nat) : Mem := m.filter fun c => c.1 < a || a + n ≤ c.1

/-- The canonical form of a byte memory: strictly rising addresses and no listed 0. -/
def Mem.wf (m : Mem) : Bool := Tbl.wf m && m.all fun c => c.2 ≠ Mem.unlisted

end Sys2Proof.Machine
end

