-- ==== Sys2Proof/Machine/State.lean ====
section
/-! DEFINITION. The state of the G9: plain data, every piece of state the spec names. Registers that software
writes, and the record registers hardware fills, are in one sparse register file by BAR2 offset (`Regs`);
everything else has a field of its own. The `reset` of each part is the state at power-on, before RESET_N rises
(the POWER_ON row then boots it); notes/assumptions/2.md to 4.md name the values the spec does not give. -/

namespace Sys2Proof.Machine

/-! ## Registers -/

/-- The BAR2 registers (R4, R589): `val` holds each register whose value differs from its reset value, by
offset; `count` the 64-bit event counts by the offset of their LO register; the latches hold what a HI register
returns to each requester (R576); `durable` the saved fields in the configuration area (R580). -/
structure Regs where
  val     : Tbl W32
  count   : Tbl Nat
  latchA  : Tbl W32
  latchB  : Tbl W32
  latchF  : Tbl W32
  durable : Tbl W32
  deriving DecidableEq, Repr

def Regs.reset : Regs := ⟨[], [], [], [], [], []⟩

/-! ## What leaves the G9 -/

/-- What the G9 answers on the sideband (R467 to R469, R521). -/
inductive SbAnswer where
  | data (bytes : List Byte)
  | invalidOpcode
  | invalidParameter
  | moreProcessing
  | internalError
  | basic (temp : Option Int) (functional : Bool)
  | measurements (blocks : List (List Byte))
  deriving DecidableEq, Repr

/-- One message or posted write that leaves the G9. Completions carry the status in the STATUS format; their
DNR and More bits follow from it (R470, R471). `bridgeError` reports a bridge error to the management harts' firmware (R16). -/
inductive Out where
  | completion (fn : Fn) (sq cid : Nat) (status : Status) (dw0 dw1 : W32)
  | readData (fn : Fn) (sq cid : Nat) (bytes : List Byte)
  | hostWrite (fn : Fn) (addr : Nat) (bytes : List Byte)
  | msix (fn : Fn) (vector : Nat)
  | sideband (transport : Nat) (answer : SbAnswer)
  | regData (r : Requester) (offset : Nat) (bytes : List Byte)
  | bridgeError (target : Island)
  deriving DecidableEq, Repr

/-! ## Islands, phases, escalation -/

/-- Where the G9 stands between power-off and running (R500, R514, R540, R543, R546). -/
inductive Phase where
  | off | booting | running | dumping | hold | bootHold | thermalShutdown
  deriving DecidableEq, Repr

/-- Why a dump or an L4 reset was started; it decides what follows the dump and the boot record's CAUSE (R518). -/
inductive DumpCause where
  | pfail | resetN | escalation | subsystemReset | thermalRestart
  deriving DecidableEq, Repr

/-- One reset, for the counting rules of R523: its level, island, unit and the AON time. -/
structure ResetEvent where
  level  : Nat
  island : Island
  unit   : Nat
  time   : Nat
  deriving DecidableEq, Repr

/-- A recovery under way (R523). -/
structure Recovery where
  level  : Nat
  island : Island
  unit   : Nat
  deriving DecidableEq, Repr

/-- Islands, bridges, time and the escalation ladder (R10 to R19, R523 to R530). -/
structure Sys where
  phase         : Phase
  ticks         : Nat
  rtcBase       : Nat
  down          : List Island
  gated         : List Island
  recovering    : List Recovery
  bridgeErrs    : List (Island × Nat)
  resets        : List ResetEvent
  escPending    : Bool
  dumpCause     : DumpCause
  portSplit     : Bool
  bootAlarms    : Nat
  shutdownTimes : List Nat
  escL4Times    : List (Nat × Nat)
  xspiHighZ     : Bool
  irqSeenA      : BitVec 10
  irqSeenB      : BitVec 10
  bootStep      : Nat
  deriving DecidableEq, Repr

def Sys.reset : Sys :=
  { phase := .off, ticks := 0, rtcBase := 0,
    down := [.sec, .host, .ctrl, .compute, .engine, .mem, .media0, .media1, .media2, .media3], gated := [], recovering := [], bridgeErrs := [],
    resets := [], escPending := false, dumpCause := .pfail, portSplit := false, bootAlarms := 0,
    shutdownTimes := [], escL4Times := [], xspiHighZ := false, irqSeenA := 0, irqSeenB := 0, bootStep := 0 }

/-! ## Modes, power and heat -/

/-- The six modes of R23. -/
inductive Mode where
  | balanced | sprint | steady | endure | ember | hibernate
  deriving DecidableEq, Repr

/-- A Set Features 0xC0 request that waits behind a transition (R28). -/
structure ModeReq where
  who  : Who
  mode : Mode
  deriving DecidableEq, Repr

/-- A transition of the effective mode (R31, R37): its target, the LAST_CAUSE it will report, its rank in the
table of R37 and the command that asked for it. -/
structure Transition where
  target : Mode
  cause  : Nat
  rank   : Nat
  who    : Option Who
  deriving DecidableEq, Repr

/-- A HIBERNATE entry under way (R542). -/
structure HibernateEntry where
  who      : Who
  previous : Mode
  deriving DecidableEq, Repr

/-- The mode controller and the always-on inputs (R27 to R42, R532 to R553). `k` and `t` are K and T of R535 and
`idleMs` the milliseconds toward the next unit of credit; temperatures are in steps of 0.25 °C. -/
structure Power where
  requested   : Mode
  effective   : Mode
  lastCause   : Nat
  transition  : Option Transition
  waiting     : List ModeReq
  emberAuto   : Bool
  writesStopped : Bool
  k           : Nat
  t           : Nat
  idleMs      : Nat
  hibEntry    : Option HibernateEntry
  beforeHib   : Mode
  waking      : Option WakeCause
  keptDoorbells : List (Fn × Nat × Bool × Nat)
  pfailN      : Bool
  ilimN       : Bool
  resetN      : Bool
  railsBad    : List Rail
  readings    : List Int
  untrimmed   : List Int
  tsensUser   : Tbl Int
  tsensSaved  : Tbl Int
  peak        : Option Int
  deriving DecidableEq, Repr

def Power.reset : Power :=
  { requested := .balanced, effective := .balanced, lastCause := 7, transition := none, waiting := [],
    emberAuto := false, writesStopped := false, k := 60000, t := 0, idleMs := 0, hibEntry := none,
    beforeHib := .balanced, waking := none, keptDoorbells := [], pfailN := true, ilimN := true, resetN := false,
    railsBad := [], readings := [], untrimmed := [], tsensUser := [], tsensSaved := [], peak := none }

/-! ## The board the G9 finds -/

/-- The population and part data that the G9 finds at boot (R158, R160, R403, R583, the factory page): not the
G9's to choose, so plain state that no command writes. `misfits` are the channels whose population or part differs from the
rest (R158), `dramMisfits` the DRAM channels whose devices meet no row of R403, `planes` the planes of a LUN (R159), `factoryCopies` the copies of the factory page on S0 to S3 and
`factoryDigest` the digest that the fuses hold of it (R175). -/
structure Board where
  channels     : Nat
  targets      : Nat
  luns         : Nat
  misfits      : List Nat
  planes       : Nat
  factoryCopies : List (List Byte)
  factoryDigest : List Byte
  toggle       : Bool
  blocksPerLun : Nat
  pagesPerBlock : Nat
  dramGibPerChannel : Nat
  dramWidth    : Nat
  dramRanks    : Nat
  dramMisfits  : List Nat
  tProgSlcUs   : Nat
  readThreshold : Nat
  ratedPe      : Nat
  levels       : Nat
  retryEntries : Nat
  fuseOk       : Bool
  deriving DecidableEq, Repr

/-- The SHA-384 digest of the empty page that `Board.reset` holds in each copy (notes/assumptions/3.md). -/
def emptyDigest : List Byte :=
  [0x38, 0xb0, 0x60, 0xa7, 0x51, 0xac, 0x96, 0x38, 0x4c, 0xd9, 0x32, 0x7e, 0xb1, 0xb1, 0xe3, 0x6a, 0x21, 0xfd, 0xb7, 0x11, 0x14,
   0xbe, 0x07, 0x43, 0x4c, 0x0c, 0xc7, 0xbf, 0x63, 0xf6, 0xe1, 0xda, 0x27, 0x4e, 0xde, 0xbf, 0xe7, 0x6f, 0x65, 0xfb, 0xd5, 0x1a,
   0xd2, 0xf1, 0x48, 0x98, 0xb9, 0x5b]

def Board.reset : Board :=
  { channels := 32, targets := 8, luns := 8, misfits := [], planes := 4, factoryCopies := [[], [], [], []],
    factoryDigest := emptyDigest, toggle := false, blocksPerLun := 4096, pagesPerBlock := 3072,
    dramGibPerChannel := 64, dramWidth := 4, dramRanks := 2, dramMisfits := [], tProgSlcUs := 350, readThreshold := 0x100000,
    ratedPe := 3000, levels := 15, retryEntries := 8, fuseOk := true }

/-! ## Host ports and controllers -/

/-- One PCIe port (R441 to R445, R607). `l12` says that its link stands in L1.2 (R23, R39); `credits` counts the posted writes
the host still accepts. -/
structure PortState where
  present  : Bool
  linkUp   : Bool
  l12      : Bool
  training : Bool
  rate     : Nat
  width    : Nat
  perstN   : Bool
  credits  : Nat
  stalled  : List Out
  deriving DecidableEq, Repr

def PortState.reset (present : Bool) : PortState :=
  { present := present, linkUp := false, l12 := false, training := false, rate := 0, width := 0, perstN := true, credits := 0,
    stalled := [] }

/-- One NVMe queue (R446). `head` and `tail` of a submission queue are the G9's and the host's, of a completion queue the
host's and the G9's; `phase` is the tag that the next completion entry takes. -/
structure Queue where
  qid    : Nat
  isCq   : Bool
  size   : Nat
  base   : Nat
  cqid   : Nat
  vector : Nat
  prio   : Nat
  ien    : Bool
  head   : Nat
  tail   : Nat
  phase  : Bool
  deriving DecidableEq, Repr

/-- A mailbox message (R483). -/
structure Msg where
  len      : Nat
  mismatch : Bool
  type     : Byte
  tag      : W32
  payload  : List Byte
  deriving DecidableEq, Repr

/-- One side's mailbox registers (R498). `high` is the highest TX word written since the last accepted SEND. -/
structure MbxSide where
  tx       : Tbl W32
  high     : Option Nat
  vector   : Nat
  refused  : Bool
  mismatch : Bool
  reason   : Nat
  decl     : Nat
  act      : Nat
  deriving DecidableEq, Repr

def MbxSide.reset : MbxSide :=
  { tx := [], high := none, vector := 0, refused := false, mismatch := false, reason := 0, decl := 0, act := 0 }

/-- What a freeze has come to (R489). -/
inductive Freeze where
  | none | freezing (w : Who) | frozen
  deriving DecidableEq, Repr

/-- Which command entered data into the write path (R194). A sink's `rest` is the number of LBAs after the written ones that it
deallocates: the rest of its slot (R50, R65). -/
inductive WriteKind where
  | nvm | zeroes | kv (key value : List Byte) | sink (flow cslot rest : Nat)
  deriving DecidableEq, Repr

/-- A write withdrawn from step 3 of R194 and held by a freeze (R489, R490). -/
structure HeldCmd where
  who  : Who
  nsid : Nat
  slba : Nat
  nlb  : Nat
  kind : WriteKind
  deriving DecidableEq, Repr

/-- A migration key pair this G9 made (R491). -/
structure MigKey where
  keyId  : Nat
  secret : List Byte
  deriving DecidableEq, Repr

/-- The migration target record a source keeps (R492). -/
structure MigTarget where
  keyId   : Nat
  mlkemEk : List Byte
  ecdhPub : List Byte
  deriving DecidableEq, Repr

/-- An event waiting for an Asynchronous Event Request (R466). -/
structure Aen where
  type : Nat
  info : Nat
  page : Nat
  deriving DecidableEq, Repr

/-- A command fetched and not completed, with the AON time of its fetch, and the class of an I/O command that is counted when it
completes: 0 NVM Read, 1 NVM Write, 2 Retrieve, 3 Store, 6 TRAIL_SUBMIT (R449, R557, R561). -/
structure Fetched where
  sq  : Nat
  cid : Nat
  at_ : Nat
  cls : Option Nat
  deriving DecidableEq, Repr

/-- An Error Information log entry (R447, R471). -/
structure ErrEntry where
  count  : Nat
  sq     : Nat
  cid    : Nat
  status : Status
  deriving DecidableEq, Repr

/-- A step of a function-level reset (R486): 1 begun, 2 deadline for running operations passed. -/
abbrev FlrStep := Nat

/-- One NVMe controller, with its instance's share, mailbox and migration state (R442 to R499). `unmasked` holds the
vectors whose mask bit the host cleared, `msixHeld` the pending bits, and `msixTable` the other dwords of the MSI-X
table, by dword number. `resLog` holds the reservation
notifications not yet read, by type and namespace. `arbSq` is the submission queue that arbitration served last, `arbRun` how
many commands it took from it in a row, `arbUsed` how many each weighted class has had in the round (R449). -/
structure Ctrl where
  cc         : W32
  rdy        : Bool
  cfs        : Bool
  shst       : Nat
  queues     : List Queue
  adminSq    : Queue
  adminCq    : Queue
  fetched    : List Fetched
  aers       : List Nat
  events     : List Aen
  reported   : List Aen
  features   : Tbl W32
  hostId     : List Byte
  keepAlive  : Bool
  errLog     : List ErrEntry
  share      : Share
  pendShare  : List (Who × Share)
  shareEpoch : Nat
  credits    : Nat
  budget     : Int
  mbxIn      : List Msg
  mbxOut     : List Msg
  mbxMgr     : MbxSide
  mbxInst    : MbxSide
  freeze     : Freeze
  restored   : Bool
  held       : List HeldCmd
  migKey     : Option MigKey
  migTarget  : Option MigTarget
  flr        : Option FlrStep
  flrCount   : Nat
  unmasked   : List Nat
  msixTable  : Tbl W32
  msixHeld   : List Nat
  resLog     : List (Nat × Nat)
  resCount   : Nat
  arbSq      : Nat
  arbRun     : Nat
  arbUsed    : List Nat
  deriving DecidableEq, Repr

/-- The manager's default share (R473). -/
def Share.manager : Share := ⟨64, 100, 32768, 0xFF, 4096⟩
/-- An instance's default share (R473). -/
def Share.virtual : Share := ⟨0, 100, 32768, 0xFF, 4096⟩

/-- A queue of the admin pair before the host sets AQA. -/
def Queue.admin : Queue :=
  { qid := 0, isCq := false, size := 0, base := 0, cqid := 0, vector := 0, prio := 0, ien := true, head := 0, tail := 0,
    phase := true }

/-- A controller at reset. -/
def Ctrl.reset (fn : Fn) : Ctrl :=
  { cc := 0, rdy := false, cfs := false, shst := 0, queues := [], adminSq := Queue.admin, adminCq := Queue.admin,
    fetched := [], aers := [], events := [], reported := [], features := [], hostId := [], keepAlive := false, errLog := [],
    share := if fn % 256 = 0 then Share.manager else Share.virtual, pendShare := [], shareEpoch := 0, credits := 0,
    budget := 0, mbxIn := [], mbxOut := [], mbxMgr := MbxSide.reset, mbxInst := MbxSide.reset, freeze := .none,
    restored := false, held := [], migKey := none, migTarget := none, flr := none, flrCount := 0, unmasked := [], msixTable := [],
    msixHeld := [], resLog := [], resCount := 0, arbSq := 0, arbRun := 0, arbUsed := [0, 0, 0] }

/-- Both ports, every controller (those not listed are as `Ctrl.reset`), and what has left the G9. `sanAction` is the action
of the last Sanitize: 0 none, 2 block erase, 4 cryptographic erase. -/
structure HostSide where
  portA   : PortState
  portB   : PortState
  ctrls   : Tbl Ctrl
  sent    : List Out
  rangeSetsA : Tbl (List MemRange)
  rangeSetsB : Tbl (List MemRange)
  nextImport : Nat
  nextMigKey : Nat
  sanAction  : Nat
  deriving DecidableEq, Repr

def HostSide.reset : HostSide :=
  { portA := PortState.reset true, portB := PortState.reset false, ctrls := [], sent := [], rangeSetsA := [],
    rangeSetsB := [], nextImport := 1, nextMigKey := 1, sanAction := 0 }

/-! ## Namespaces -/

/-- A registrant of a namespace's reservation (R457). -/
structure Registrant where
  hostId : List Byte
  key    : W64
  deriving DecidableEq, Repr

/-- The reservation state of a namespace (R457). -/
structure Reservation where
  registrants : List Registrant
  holder      : Option (List Byte)
  type        : ResType
  ptpl        : Bool
  generation  : Nat
  deriving DecidableEq, Repr

def Reservation.reset : Reservation :=
  { registrants := [], holder := none, type := .writeExclusive, ptpl := false, generation := 0 }

/-- A locking range (R284, R285); range 0 is the namespace global range, and `single` the User authority of one in Single User Mode. -/
structure Range where
  id           : Nat
  start        : Nat
  length       : Nat
  slot         : Nat
  readEnabled  : Bool
  writeEnabled : Bool
  readLocked   : Bool
  writeLocked  : Bool
  lockOnReset  : Bool
  authorities  : List Nat
  single       : Option Nat
  rekeying     : Bool
  deallocating : Bool
  deriving DecidableEq, Repr

/-- A Format NVM or a Sanitize under way on a namespace (R286, R451, R526): the controller that began it, the Format NVM to
complete, and what it does. -/
structure Erasing where
  by_      : Fn
  who      : Option Who
  sanitize : Bool
  crypto   : Bool
  lbaSize  : Nat
  deriving DecidableEq, Repr

/-- A run of bytes of an IU of a Key Value namespace: the IU's number in the namespace, the first byte and the length. -/
structure KvPiece where
  iu  : Nat
  off : Nat
  len : Nat
  deriving DecidableEq, Repr

/-- A Key Value pair and where its value lies in the namespace's IUs (R194, R368; notes/assumptions/52.md). -/
structure KvRec where
  key    : List Byte
  value  : List Byte
  pieces : List KvPiece
  deriving DecidableEq, Repr

/-- A namespace (R184, R190, R214, R367, R454 to R456). -/
structure Ns where
  kind        : NsKind
  lbaSize     : Nat
  nsze        : Nat
  ncap        : Nat
  base        : Nat
  cmode       : Nat
  recordWidth : Nat
  attached    : List Fn
  ranges      : List Range
  reservation : Reservation
  kvTable     : Option Nat
  kv          : List KvRec
  mem         : Mem
  erasing     : Option Erasing
  deriving DecidableEq, Repr

/-! ## The translation layer -/

/-- The states of a map entry (R187). -/
inductive MapState where
  | unmapped | media | buffer | bad
  deriving DecidableEq, Repr

/-- A map entry (R187): STATE, LENGTH and ADDR. -/
structure MapEntry where
  st   : MapState
  len  : Nat
  addr : Nat
  deriving DecidableEq, Repr

/-- The entry of an IU that nothing has written. -/
def MapEntry.unmapped : MapEntry := ⟨.unmapped, 0, 0⟩

/-- A slot of the write buffer (R193). `mem` holds the sectors the mask names, by byte offset in the IU; `key` is the key that its flush
took at its start (R279). -/
structure Slot where
  iu       : Nat
  nsid     : Nat
  mask     : BitVec 32
  mem      : Mem
  prev     : MapEntry
  fn       : Fn
  acked    : Bool
  flushing : Bool
  compress : Bool
  placed   : Option Nat
  programmed : Bool
  merging  : Bool
  key      : List Byte
  deriving DecidableEq, Repr

/-- A command waiting at step 3 of R194. -/
structure WaitingWrite where
  who  : Who
  kind : WriteKind
  nsid : Nat
  slba : Nat
  nlb  : Nat
  deriving DecidableEq, Repr

/-- An admitted command whose data is still arriving (R195); `pieces` is where a Key Value Store's value goes. -/
structure AdmittedWrite where
  who  : Who
  kind : WriteKind
  nsid : Nat
  slba : Nat
  nlb  : Nat
  pieces : List KvPiece
  deriving DecidableEq, Repr

/-- A stored IU at a data-space address: its ciphertext and, in its codeword metadata, its IU index and
placement sequence (R191, R240, R279). -/
structure Stored where
  iu    : Nat
  units : Nat
  bytes : List Byte
  seq   : Nat
  later : Bool
  deriving DecidableEq, Repr

/-- The kinds of band (R235). -/
inductive BandKind where
  | host | reloc | relocLater | map | reshape
  deriving DecidableEq, Repr

/-- The states of a band (R235). -/
inductive BandState where
  | opened | closed | erasePending
  deriving DecidableEq, Repr

/-- A band record (R235) with its fill pointer, its dead list (R248) and the marks of R201 and R209. `shut` says that an open
band takes no more data, `copied` counts the units that relocation has copied out of it, and `zeroed` holds the codewords that a rebuild
programmed as zeros, by stripe, column and slot (R248). -/
structure Band where
  geom     : Nat
  st       : BandState
  kind     : BandKind
  stripes  : Nat
  lost     : List Nat
  members  : List (Nat × Nat)
  fill     : Nat
  dead     : List (Nat × Nat)
  refresh  : Bool
  closedAt : Nat
  erasing  : List (Nat × Nat)
  shut     : Bool
  copied   : Nat
  zeroed   : List (Nat × Nat × Nat)
  deriving DecidableEq, Repr

/-- A block table entry (R206, R208) with its hint (R170). -/
structure Block where
  erases  : Nat
  reads   : Nat
  retired : Bool
  hint    : Nat
  inBand  : Bool
  deriving DecidableEq, Repr

/-- A block nothing has happened to. -/
def Block.fresh : Block := ⟨0, 0, false, 0, false⟩

/-- A map journal record (R217). -/
structure JournalRec where
  kind   : Nat
  target : Nat
  entry  : MapEntry
  erases : Nat
  seq    : Nat
  deriving DecidableEq, Repr

/-- A journal page on flash (R218): the full sequence number of its first record, and its records. -/
structure JournalPage where
  first : Nat
  recs  : List JournalRec
  deriving DecidableEq, Repr

/-- A page of a map segment (R216) or of a block-table segment (R219) that has been issued to a map band: the segment's number,
its data-space address, JSEQ, what it holds (the block table with the band records, R235), whether its program has succeeded, and when the
segment became dirty that it writes. -/
structure MapPage where
  done    : Bool
  since   : Nat
  block   : Bool
  segment : Nat
  addr    : Nat
  jseq    : Nat
  entries : Tbl MapEntry
  blocks  : Tbl Block
  bands   : Tbl Band
  deriving DecidableEq, Repr

/-- A copy under way (R202): the IU, its source entry, its destination once it is placed, and the victim. -/
structure Copy where
  iu     : Nat
  src    : MapEntry
  dst    : Option MapEntry
  victim : Nat
  deriving DecidableEq, Repr

/-- Whom a media read serves (R164); a reconstruction reads in the class of the read it serves (R243), and a system area is read
copy by copy (R170, R176). -/
inductive ReadClient where
  | host (w : Who)
  | trail (flow cslot : Nat)
  | copy (iu : Nat)
  | merge (slot : Nat)
  | rebuild
  | reshape
  | recon (cls id : Nat)
  | system (area copy : Nat)
  deriving DecidableEq, Repr

/-- Reads of the host that wait for media (R188, R196); a Memory Copy reads LBA ranges into a memory namespace (R452). -/
inductive ReadKind where
  | read | compare (data : List Byte) | verify
  | kv (key : List Byte) (bufferBytes : Nat)
  | memCopy (dst offset : Nat) (sources : List (Nat × LbaRange))
  deriving DecidableEq, Repr

/-- A read of LBAs under way for a host command or a Trail source task: the media reads it still waits for, and what
has failed. `second` says that a reset has had it issued again (R177, R346), `again` that the stored IUs whose decode failed are read
as erasures (R345). -/
structure ReadJob where
  client : ReadClient
  kind   : ReadKind
  nsid   : Nat
  slba   : Nat
  nlb    : Nat
  wait   : Nat
  failed : Option Status
  second : Bool
  again  : Bool
  deriving DecidableEq, Repr

/-- The translation layer, the write buffer, relocation and wear (R184 to R229). `capNow` is the cap of the running epoch in
bytes, where one is in force (R212), `freedEpoch` the units of 1 KiB that relocation has freed in it (R200). `mapPages` holds the pages of
the map bands, `blockDirty` the dirty block-table segments (R219), `segFirst` that segment
writing goes before relocation. `dying` holds the bands of a reshaped region that are erase pending (R259). -/
structure Ftl where
  map       : Tbl MapEntry
  slots     : Tbl Slot
  waiting   : List WaitingWrite
  admitted  : List AdmittedWrite
  reads     : List ReadJob
  stored    : Tbl Stored
  bands     : Tbl Band
  blocks    : Tbl Block
  copies    : List Copy
  victim    : Option Nat
  retiredCount : Nat
  spareStage : Nat
  readOnlyFloor : Bool
  spare0    : Nat
  capNow    : Option Nat
  freedEpoch : Nat
  placeSeq  : Nat
  jseq      : Nat
  journal   : List JournalRec
  journalOnFlash : List JournalPage
  dirty     : Tbl Nat
  blockDirty : Tbl Nat
  segRebuild : List Nat
  mapPages  : List MapPage
  segFirst  : Bool
  dying     : List (Nat × Band)
  freshReads : Nat
  deriving DecidableEq, Repr

/-- Nothing mapped, nothing buffered, no band. -/
def Ftl.reset : Ftl :=
  { map := [], slots := [], waiting := [], admitted := [], reads := [], stored := [], bands := [], blocks := [],
    copies := [], victim := none, retiredCount := 0, spareStage := 0, readOnlyFloor := false, spare0 := 0, capNow := none, freedEpoch := 0, placeSeq := 0, jseq := 0, journal := [],
    journalOnFlash := [], dirty := [], blockDirty := [], segRebuild := [], mapPages := [], segFirst := false, dying := [],
    freshReads := 0 }

/-! ## Media -/

/-- A flash channel (R161 to R163, R181). `rate` is the RATE code, `trained` says that its training has ended, well or not, and
`seeds` are the seeds of the training under way or last done. -/
structure Channel where
  online  : Bool
  trained : Bool
  seeds   : List Int
  rate    : Nat
  trying  : Option Nat
  trainedTemp : Option Int
  temp    : Option Int
  retrains : Nat
  retraining : Bool
  deriving DecidableEq, Repr

def Channel.reset : Channel :=
  { online := false, trained := false, seeds := [], rate := 0, trying := none, trainedTemp := none, temp := none, retrains := 0, retraining := false }

/-- Where the ladder stands at one codeword (R169): the step, the number of retry entries tried, the senses that the attempt under
way still waits for, and the hint entry that step 1 used. -/
structure CwState where
  cw   : Nat
  step : Nat
  tried : Nat
  senses : Nat
  hint : Nat
  deriving DecidableEq, Repr

/-- What a media command does: a read for a client, a further sense for a codeword of a ladder (R169), the program of a stripe member, of a page of a rebuild or of a new
band of a reshape, an erase (of a band's block, or of a block that no band holds any more), or the program of up to 4 pages of a copy of
the dump (R253). -/
inductive MediaOp where
  | read (client : ReadClient) (cws : List CwState)
  | resense (client : ReadClient) (w : CwState)
  | program (band stripe slot : Nat)
  | rebuild (band stripe slot : Nat)
  | reshape (slotIx stripe slot : Nat)
  | erase (band : Option Nat)
  | dump (copy : Nat) (pages : List Nat)
  deriving DecidableEq, Repr

/-- A command of a LUN queue (R164). `aged` is the exception of R164 for a command that has waited long. -/
structure MediaCmd where
  op    : MediaOp
  cls   : Nat
  block : Nat
  page  : Nat
  aged  : Bool
  deriving DecidableEq, Repr

/-- A LUN: its queue of at most 8 commands of each class, the commands that wait for room in it (R164), what it runs and what it
holds suspended (one command or one multi-plane group, R615), the read levels of its sense (R171), and what R241 counts. -/
structure Lun where
  failed    : Bool
  cause     : Nat
  queue     : List MediaCmd
  backlog   : List MediaCmd
  active    : List MediaCmd
  since     : Nat
  levels    : List Int
  suspended : List MediaCmd
  readsBegun : Nat
  budgetOver : Bool
  decoding  : List MediaCmd
  erasedPages : List (Nat × Nat)
  retiredAt : List Nat
  deriving DecidableEq, Repr

def Lun.reset : Lun :=
  { failed := false, cause := 0, queue := [], backlog := [], active := [], since := 0, levels := [], suspended := [],
    readsBegun := 0, budgetOver := false, decoding := [], erasedPages := [], retiredAt := [] }

/-- A copy of a system area (R174, R176): which of S0 to S3 it lies on, its sequence number, and whether its CRC-32C fits. -/
structure AreaCopy where
  home  : Nat
  seq   : Nat
  valid : Bool
  deriving DecidableEq, Repr

/-- A write to a system area that waits because writes are stopped (R166). -/
inductive SysWrite where
  | config | ledger | commit (island : Nat) | move (copy : Nat) | nonce (slot : Nat) | badBlocks
  deriving DecidableEq, Repr

/-- The media islands (R157 to R183). Read-level offsets are keyed by global LUN × 16 + level; `bands` holds each
target's thermal band, keyed by channel × 8 + target. `absent` holds the channels that the first initialisation after
manufacture found disabled (R162), `seedUser` the user offsets of the training seeds, keyed by channel × 4 + step (R171), and
`areas` the copies of each system area by its number. -/
structure Media where
  channels  : Tbl Channel
  luns      : Tbl Lun
  staged    : Tbl Int
  committed : Tbl Int
  committing : List Nat
  bands     : Tbl Nat
  systemLun : Tbl Nat
  moving    : List Nat
  factoryPage : Bool
  initialised : Bool
  absent    : List Nat
  seedUser  : Tbl Int
  areas     : Tbl (List AreaCopy)
  sysHeld   : List SysWrite
  deriving DecidableEq, Repr

/-- The numbers of the system areas that the G9 writes, in the order of R174. -/
def areaBadBlocks : Nat := 1
def areaConfig : Nat := 2
def areaNonce : Nat := 3
def areaLedger : Nat := 4
def areaLifetime : Nat := 5

/-- The copies of an area as it was written first, on some of S0 to S3. -/
def areaOn (homes : List Nat) : List AreaCopy := homes.map fun h => { home := h, seq := 0, valid := true }

/-- The four system areas start on S0 to S3: LUN 0 of target 0 on channels 0, 8, 16 and 24 (R174). -/
def Media.reset : Media :=
  { channels := [], luns := [], staged := [], committed := [], committing := [], bands := [],
    systemLun := [(0, 0), (1, 512), (2, 1024), (3, 1536)], moving := [], factoryPage := true, initialised := false,
    absent := [], seedUser := [], sysHeld := []
    areas := [(areaBadBlocks, areaOn [0, 1, 2, 3]), (areaConfig, areaOn [0, 1, 2, 3]), (areaNonce, areaOn [0, 1, 2, 3]),
              (areaLedger, areaOn [0, 2]), (areaLifetime, areaOn [1, 3])] }

/-! ## Redundancy -/

/-- A stripe-in-flight record (R251) with the slots and copies whose data its members hold. -/
structure Stripe where
  band       : Nat
  stripe     : Nat
  geom       : Nat
  st         : Nat
  kind       : BandKind
  seq        : Nat
  issued     : List Nat
  programmed : List Nat
  openedAt   : Nat
  deriving DecidableEq, Repr

/-- The states of a region (R235). -/
inductive RegionState where
  | empty | active | reshaping
  deriving DecidableEq, Repr

/-- A region descriptor (R235). -/
structure Region where
  st      : RegionState
  geom    : Nat
  newGeom : Nat
  dseq    : Nat
  cursor  : Nat
  deriving DecidableEq, Repr

/-- A bad-LBA log entry (R245). -/
structure BadEntry where
  slba  : Nat
  nsid  : Nat
  nlb   : Nat
  time  : Nat
  cause : Nat
  seq   : Nat
  deriving DecidableEq, Repr

/-- A rebuild under way (R248): the page it is at, and the columns of that page that are still being reconstructed. -/
structure Rebuild where
  band  : Nat
  slot  : Nat
  lun   : Nat
  block : Nat
  next  : Nat
  cols  : Nat
  deriving DecidableEq, Repr

/-- A reconstruction of a codeword under way (R242, R243): whose read it serves, the codeword, the erased slots of its column, the
slots whose codewords have been delivered and those that are being read. -/
structure Recon where
  id     : Nat
  client : ReadClient
  band   : Nat
  stripe : Nat
  slot   : Nat
  cw     : Nat
  gone   : List Nat
  got    : List Nat
  wait   : List Nat
  deriving DecidableEq, Repr

/-- Member pages of a new band that are written once more, into a fresh block: the band slot, the member slot, the next page and how many
there are (R261, R262). -/
structure Redo where
  slotIx : Nat
  slot   : Nat
  next   : Nat
  pages  : Nat
  deriving DecidableEq, Repr

/-- A reshape under way (R258 to R262): the region in progress, its new bands by slot, and the slot and the member page being written, in
the order of R252 within a stripe; what is written once more, the new stripe that a reset has read back, and whether the switch of the
region waits for its configuration write. -/
structure Reshape where
  active  : Bool
  refused : Bool
  reason  : Nat
  target  : Nat
  region  : Option Nat
  cursor  : Nat
  left    : List Nat
  newBands : Tbl Band
  slotIx  : Nat
  page    : Nat
  redo    : List Redo
  back    : Option (Nat × Nat)
  switching : Bool
  deriving DecidableEq, Repr

/-- How the writing of a copy of the dump stands (R253): whether the copy is written, the next page, pages whose program failed, and the
pages that have been programmed. -/
structure DumpRun where
  on   : Bool
  next : Nat
  back : List Nat
  done : List Nat
  deriving DecidableEq, Repr

/-- A dump image (R253); `trailer` says that the dump is complete. -/
structure DumpImage where
  seq      : Nat
  time     : Nat
  slots    : Tbl Slot
  journal  : List JournalRec
  stripes  : List Stripe
  placeSeq : Nat
  copyA    : DumpRun
  copyB    : DumpRun
  trailer  : Bool
  deriving DecidableEq, Repr

/-- The pages between header and trailer: the stripe-in-flight journal, the map journal tail, the slot directory and the slots. A part
without data takes no page (R253). -/
def DumpImage.parts (d : DumpImage) : Nat :=
  (d.stripes.length + 511) / 512 + (d.journal.length + 1019) / 1020 + (d.slots.length + 511) / 512 + d.slots.length

/-- PAGES: the pages of a copy, header and trailer included. -/
def DumpImage.pages (d : DumpImage) : Nat := d.parts + 2

/-- Redundancy: stripes, rebuild, reshape, the dump and the bad-LBA log (R230 to R271). `opened` is c of R237;
`formatted` says that the first format after manufacture has been, and `small` that the pool then held fewer than 12 LUNs (R231). -/
structure Str where
  seed       : W64
  formatted  : Bool
  small      : Bool
  recons     : List Recon
  reconSeq   : Nat
  opened     : Nat
  stripes    : List Stripe
  sseq       : Nat
  regions    : Tbl Region
  badLog     : List BadEntry
  badSeq     : Nat
  overflow   : Bool
  rebuild    : Option Rebuild
  degradedAtStart : Nat
  rebuilt    : Nat
  reshape    : Reshape
  dumpSeq    : Nat
  dump       : Option DumpImage
  lastRecovery : Nat
  cleanShutdown : Bool
  failedLuns : Nat
  warnDump   : Bool
  railsFell  : Bool
  warnRails  : Bool
  deriving DecidableEq, Repr

def Str.reset : Str :=
  { seed := 0, formatted := false, small := false, recons := [], reconSeq := 0, opened := 0, stripes := [], sseq := 0, regions := [], badLog := [], badSeq := 0, overflow := false,
    rebuild := none, degradedAtStart := 0, rebuilt := 0,
    reshape := { active := false, refused := false, reason := 0, target := 1, region := none, cursor := 0, left := [],
                 newBands := [], slotIx := 0, page := 0, redo := [], back := none, switching := false },
    dumpSeq := 0, dump := none, lastRecovery := 0, cleanShutdown := true, failedLuns := 0, warnDump := false,
    railsFell := false, warnRails := false }

/-! ## The key store and cipher engine -/

/-- The states of a key slot (R274). -/
inductive SlotState where
  | empty | loaded | erased | locked
  deriving DecidableEq, Repr

/-- A key-store slot (R274, R275): `key` is the content of the SRAM, `stored` the copy in the configuration area, wrapped with AES key
wrap under the key that the slot's binding names, and for a wrap slot its nonce state (R292, R293). -/
structure KeySlot where
  st        : SlotState
  use       : Nat
  credential : Bool
  owner     : Fn
  key       : List Byte
  stored    : Option (List Byte)
  epoch     : Nat
  next      : Nat
  reservedTo : Nat
  logTarget : Option Nat
  deriving DecidableEq, Repr

/-- A slot nobody uses. -/
def KeySlot.free : KeySlot :=
  { st := .empty, use := 0, credential := false, owner := 0, key := [], stored := none, epoch := 0, next := 0,
    reservedTo := 0, logTarget := none }

/-- A nonce reservation log record (R296): KIND 0 a reservation, 1 an epoch assigned, 2 the highest epoch, with SLOT 0xFFFF. -/
structure NonceRec where
  slot  : Nat
  kind  : Nat
  epoch : Nat
  reservedTo : Nat
  lseq  : Nat
  deriving DecidableEq, Repr

/-- A single-use import key pair (R277). -/
structure ImportKey where
  id     : Nat
  fn     : Fn
  secret : List Byte
  deriving DecidableEq, Repr

/-- A rekey that waits for the users of the old key (R286). -/
structure Rekey where
  nsid  : Nat
  range : Nat
  who   : Option Who
  deriving DecidableEq, Repr

/-- An Opal session of a manager function's ComID (R284). -/
structure Opal where
  session     : Bool
  authorities : List Nat
  credentials : Tbl (List Byte)
  mbr         : Mem
  dataStore   : Mem
  blockSid    : Bool
  response    : Nat
  mbrEnabled  : Bool
  mbrDone     : Bool
  out         : List Byte
  deriving DecidableEq, Repr

def Opal.reset : Opal :=
  { session := false, authorities := [], credentials := [], mbr := [], dataStore := [], blockSid := false, response := 0,
    mbrEnabled := false, mbrDone := false, out := [] }

/-- The key store, the pipelines and the alarms (R272 to R309). `draws` numbers the draws of the random bit
generator (R276). -/
structure Sea where
  xts        : Tbl KeySlot
  wrap       : Tbl KeySlot
  epochMax   : Nat
  nonceLog   : List NonceRec
  lseq       : Nat
  importKeys : List ImportKey
  alarms     : List AlarmCause
  alarmCount : Nat
  deviceKeys : Bool
  opalA      : Opal
  opalB      : Opal
  caches     : Tbl (List Nat)
  rekeys     : List Rekey
  glitches   : List AlarmCause
  draws      : Nat
  deriving DecidableEq, Repr

def Sea.reset : Sea :=
  { xts := [], wrap := [], epochMax := 0, nonceLog := [], lseq := 0, importKeys := [], alarms := [], alarmCount := 0,
    deviceKeys := false, opalA := Opal.reset, opalB := Opal.reset, caches := [], rekeys := [], glitches := [], draws := 0 }

/-! ## The digest engine -/

/-- The states of an HMAC slot (R333). -/
inductive HmacState where
  | empty | loaded | erased | loading
  deriving DecidableEq, Repr

/-- An HMAC slot (R320): the algorithm, the key whose two states the slot caches, and the kept wrapped blob. -/
structure HmacSlot where
  st      : HmacState
  alg     : Nat
  wrap    : Nat
  owner   : Option Fn
  key     : List Byte
  blob    : List Byte
  lastErr : Nat
  deriving DecidableEq, Repr

def HmacSlot.free : HmacSlot :=
  { st := .empty, alg := 0, wrap := 0, owner := none, key := [], blob := [], lastErr := 0 }

/-- A digest context (R313): the algorithm, the HMAC slot if any, and the message absorbed so far. -/
structure DigestCtx where
  alg   : Nat
  hmac  : Option Nat
  key   : List Byte
  msg   : List Byte
  dead  : Bool
  cleared : Bool
  deriving DecidableEq, Repr

/-- A load of an HMAC slot under way (R320). -/
structure HmacLoading where
  slot : Nat
  alg  : Nat
  wrap : Nat
  key  : List Byte
  blob : List Byte
  prior : HmacState
  deriving DecidableEq, Repr

/-- The digest engine and its register port (R310 to R334). Register contents of the port (EXPECT, DIGEST,
VERDICT, START, FINISH) are in `Regs`. -/
structure Dgs where
  ctxs    : Tbl DigestCtx
  hmac    : Tbl HmacSlot
  loading : Option HmacLoading
  owner   : Option PortReq
  claims  : List PortReq
  msgOn   : Bool
  msg     : List Byte
  alg     : Nat
  hmacSlot : Option Nat
  compare : Bool
  busy    : Bool
  done    : Bool
  dropped : Bool
  endStatus : Nat
  deriving DecidableEq, Repr

def Dgs.reset : Dgs :=
  { ctxs := [], hmac := [], loading := none, owner := none, claims := [], msgOn := false, msg := [], alg := 0,
    hmacSlot := none, compare := false, busy := false, done := false, dropped := false, endStatus := 0 }

/-! ## Lynx -/

/-- An entry (R351): VALID, PRIO, VALUE and the key. -/
structure LynxEntry where
  valid : Bool
  prio  : Nat
  value : Nat
  key   : List Byte
  hitAt : Nat
  deriving DecidableEq, Repr

/-- A table (R352). `entries` is its shadow copy by entry index (R361); its copies in the array hold the same but where `diffs` has a
copy's entry that a soft error has changed, and `shadowBad` lists the indices whose shadow word no code corrects (R351, R363, R364). -/
structure LynxTable where
  banks   : BitVec 16
  width   : Nat
  copies  : Nat
  owner   : Fn
  verify  : Bool
  kv      : Bool
  entries : Tbl LynxEntry
  faulted : Bool
  lost    : List Nat
  diffs   : List (Nat × SoftEntry)
  shadowBad : List Nat
  deriving DecidableEq, Repr

/-- The Lynx array (R351 to R375). -/
structure Lynx where
  tables     : Tbl LynxTable
  autoVerify : Bool
  restoring  : Bool
  lapStart   : Nat
  lapOver    : Bool
  deriving DecidableEq, Repr

def Lynx.reset : Lynx :=
  { tables := [], autoVerify := false, restoring := false, lapStart := 0, lapOver := false }

/-! ## DMA channels -/

/-- The owners of a DMA channel (R377). -/
inductive DmaOwner where
  | dispatch | firmware | managerA | managerB
  deriving DecidableEq, Repr

/-- A DMA descriptor (R379). -/
structure DmaDesc where
  src    : Nat
  dst    : Nat
  length : Nat
  op     : Nat
  srcSpace : Nat
  dstSpace : Nat
  fence  : Bool
  paramA : Nat
  paramB : Nat
  pace   : Nat
  func   : Fn
  next   : Nat
  deriving DecidableEq, Repr

/-- A DMA channel (R377 to R400). `declared` is the HEAD length of the running list, `sum` the LENGTH fields so
far and `moved` the bytes the list has moved. -/
structure DmaChan where
  owner    : DmaOwner
  pause    : Bool
  busy     : Bool
  paused   : Bool
  done     : Bool
  err      : Bool
  mismatch : Bool
  paceWait : Bool
  errCode  : Nat
  descDone : Nat
  ptr      : Nat
  ptrHi    : W32
  src      : Nat
  dst      : Nat
  remain   : Nat
  lenDecl  : Nat
  lenAct   : Nat
  desc     : Option DmaDesc
  declared : Option Nat
  sum      : Nat
  moved    : Nat
  held     : Bool
  deriving DecidableEq, Repr

def DmaChan.reset : DmaChan :=
  { owner := .dispatch, pause := false, busy := false, paused := false, done := false,
    err := false, mismatch := false, paceWait := false, errCode := 0, descDone := 0, ptr := 0, ptrHi := 0, src := 0,
    dst := 0, remain := 0, lenDecl := 0, lenAct := 0, desc := none, declared := none, sum := 0, moved := 0,
    held := false }

/-! ## Trails and the dispatcher -/

/-- The placements of a sink (R63). -/
inductive Placement where
  | direct | slotted | packed
  deriving DecidableEq, Repr

/-- A stage record (R53). -/
inductive Stage where
  | lbaSource (slotted : Bool) (nsid slba extent slotLbas : Nat)
  | hostSource (sgl : Bool) (addr length : Nat)
  | slmSource (range offset length : Nat)
  | xts (encrypt : Bool) (keySlot du tweak : Nat)
  | gcm (encrypt : Bool) (wrapSlot nonceSrc blobAddr : Nat) (blobSlm : Bool) (nonce : List Byte)
  | codec (encode : Bool) (width : Nat)
  | reshuffle (op unit streams element : Nat)
  | lynx (op table keyOffset keyLen : Nat)
  | digest (alg : Nat) (verify : Bool) (hmac : Option Nat) (resultAddr : Nat) (resultSlm : Bool)
  | program (module kernel budget : Nat) (args : List Byte)
  | hostSink (place : Placement) (addr capacity slotSize : Nat)
  | slmSink (place : Placement) (range addr capacity slotSize : Nat)
  | lbaSink (place : Placement) (nsid slba extent slotLbas : Nat)
  deriving DecidableEq, Repr

/-- A Trail descriptor (R51). -/
structure Trail where
  ordered    : Bool
  nsok       : Bool
  skip       : Bool
  statusSlm  : Bool
  tag        : W32
  total      : Nat
  recordSize : Nat
  limit      : Nat
  statusAddr : Nat
  stages     : List Stage
  deriving DecidableEq, Repr

/-- A failure a Trail has recorded (R73, R74). -/
structure Failure where
  chunk  : Nat
  stage  : Nat
  status : Status
  deriving DecidableEq, Repr

/-- A length mismatch (R70). -/
structure Mismatch where
  stage    : Nat
  declared : Nat
  actual   : Nat
  deriving DecidableEq, Repr

/-- A flow context (R45, R60, R71 to R78, R87, R89, R119). `unretired` holds the chunk slots in use with their
chunk numbers; `delivered` the delivered chunks at or above `lowWater`; `pools` the credits left at each
boundary; `chunks` the chunks the source will issue at most; `parked` the parked state tokens by stage, each with the chunk it is for; `keyReady` the stages whose
key-ready token stands; `ended` the order in which the Trail ended, and `gone` that it did so without a record (R76). -/
structure Flow where
  bound      : Bool
  generation : Nat
  owner      : Fn
  trail      : Trail
  issued     : Nat
  retired    : Nat
  lastIssued : Bool
  chunks     : Nat
  unretired  : List (Nat × Nat)
  delivered  : List Nat
  lowWater   : Nat
  pools      : List Nat
  parked     : Tbl (Nat × Nat)
  keyReady   : List Nat
  reserveUsed : Bool
  stopped    : Bool
  failure    : Option Failure
  failCount  : Nat
  cancelled  : Bool
  cancelers  : List Who
  queries    : List Who
  mismatch   : Option Mismatch
  skipped    : Nat
  firstSkipped : Option Nat
  bytes      : Nat
  gcmKey     : Option (List Byte)
  nonce      : Option (Nat × Nat)
  expected   : Tbl (List Byte)
  admittedAt : Nat
  ended      : Option Nat
  gone       : Bool
  endStatus  : Status
  execBy     : Option Who
  slotNonces : Tbl (List Byte)
  deriving DecidableEq, Repr

/-- A TRAIL_SUBMIT that waits in admission (R46, R293, R322, R106), with what its descriptor and blobs held. -/
structure WaitingTrail where
  who      : Who
  trail    : Trail
  blob     : Option (List Byte)
  expected : Tbl (List Byte)
  execBy   : Bool
  deriving DecidableEq, Repr

/-- A payload in an output buffer (R49, R95): its bytes, the SKIPPED mark (R75), the slot header's nonce and the
nonce of the sealed segment it still is (R64). -/
structure Payload where
  bytes  : List Byte
  sealed : Option (List Byte)
  deriving DecidableEq, Repr

/-- A task (R80, R82, R105). As a matching-store entry it also has its index and its tokens: `expect` and `arrived` are the
four bits of EXPECT and ARRIVED. `buf` is the input buffer, `out` the output buffer once it has fired. -/
structure Task where
  index    : Nat
  flow     : Nat
  gen      : Nat
  stage    : Nat
  cslot    : Nat
  chunk    : Nat
  expect   : BitVec 4
  arrived  : BitVec 4
  fromReserve : Bool
  discard  : Bool
  empty    : Bool
  skipped  : Bool
  buf      : Option Nat
  len      : Nat
  token    : Option Nat
  out      : Option Nat
  deriving DecidableEq, Repr

/-- A task on a unit (R94, R109), with the AON time at which the operation began, and for a cipher operation under DUPLICATE its second
pipeline (R297). -/
structure Running where
  cls   : UnitClass
  unit  : Nat
  task  : Task
  since : Nat
  pair  : Option Nat
  deriving DecidableEq, Repr

/-- A task in a unit's prefetch stage, with its descriptor and the first 4 KiB of its operand (R104). -/
structure Prefetch where
  cls  : UnitClass
  unit : Nat
  task : Task
  desc : List Byte
  operand : List Byte
  deriving DecidableEq, Repr

/-- The arbiter of one input queue or of the shared pool (R97, R475): the turns that each function took in the round that
runs, the function served last, and of each function the flow served last. -/
structure Arb where
  used     : Tbl Nat
  lastFn   : Option Fn
  lastFlow : Tbl Nat
  deriving DecidableEq, Repr

def Arb.reset : Arb := ⟨[], none, []⟩

/-- A unit in L1 reset or out of service. -/
structure UnitReset where
  cls  : UnitClass
  unit : Nat
  deriving DecidableEq, Repr

/-- The work of an NVM or Key Value command, or of a Trail's LBA source, at the cipher engine or the codec (R96, R272, R335): a data
transfer that holds its pipelines or its lane until a tick, or waits for them, and the keys that it uses. -/
structure Transfer where
  cls    : UnitClass
  units  : List Nat
  ticks  : Nat
  until_ : Nat
  keys   : List Nat
  deriving DecidableEq, Repr

/-- Trails, flow contexts, the matching store and the unit queues (R43 to R119). Output buffers 0 to 447 are
staging SRAM, 448 upward the spill pool (R95). `endCount` numbers the ends of Trails, for the choice of R77. -/
structure Disp where
  flows    : Tbl Flow
  waiting  : List WaitingTrail
  endCount : Nat
  entries  : List Task
  queues   : List (UnitClass × Nat × Task)
  prefetch : List Prefetch
  running  : List Running
  resetting : List UnitReset
  bufs     : Tbl Payload
  sourcesStopped : Bool
  suspects : List (Nat × Nat × Nat)
  arbs     : Tbl Arb
  transfers : List Transfer
  deriving DecidableEq, Repr

def Disp.reset : Disp :=
  { flows := [], waiting := [], endCount := 0, entries := [], queues := [], prefetch := [], running := [],
    resetting := [], bufs := [], sourcesStopped := false, suspects := [], arbs := [], transfers := [] }

/-! ## Compute harts and modules -/

/-- What a hart does with its task (R131, R133): `writeback` has the payload and the budget time that the task used in ticks,
`stopping` is a kernel whose task has failed with its budget and that the hart has yet to stop. -/
inductive HartPhase where
  | run | writeback (payload : List Byte) (used : Nat) | stopping
  deriving DecidableEq, Repr

/-- A 64-byte line that a cache holds (R120): its window address / 64, whose it is (the module of a code or constants line, the
hart of any other), and whether it is dirty. What it holds is the content of the window. -/
structure CacheLine where
  line  : Nat
  owner : Nat
  dirty : Bool
  deriving DecidableEq, Repr

/-- A kernel on a hart (R122 to R132): its task, budget, the monitor call it waits in, its task block, its registers and
counters, the lines of its output, scratch and stack windows that it has written (a line not listed reads as 0), and its
high-water mark. `calling` says that the call it waits in has been counted. -/
structure Kernel where
  task    : Task
  since   : Nat
  stalled : Nat
  budget  : Nat
  phase   : HartPhase
  search  : Option (Nat × List Byte)
  calling : Bool
  block   : List Byte
  regs    : HartRegs
  cycles  : Nat
  instret : Nat
  lines   : Tbl (List Byte)
  high    : Nat
  deriving DecidableEq, Repr

/-- A task in a Squirrel slot, with its descriptor and the first 4 KiB of its operand (R101). -/
structure SlotTask where
  task    : Task
  desc    : List Byte
  operand : List Byte
  deriving DecidableEq, Repr

/-- A compute hart with its Squirrel slot (R101) and its caches (R120). -/
structure Hart where
  squirrel : Option SlotTask
  kernel   : Option Kernel
  resetting : Bool
  icache   : List CacheLine
  dcache   : List CacheLine
  deriving DecidableEq, Repr

def Hart.reset : Hart := ⟨none, none, false, [], []⟩

/-- A kernel record (R140). -/
structure KernelRec where
  outRecords : Bool
  maySubmit  : Bool
  mayLynx    : Bool
  entry      : Nat
  outWindow  : Nat
  scratch    : Nat
  stack      : Nat
  budgetDefault : Nat
  budgetMax  : Nat
  recMin     : Nat
  recMax     : Nat
  name       : List Byte
  deriving DecidableEq, Repr

/-- The states of a module (R153). -/
inductive ModState where
  | loaded | unloading | damaged
  deriving DecidableEq, Repr

/-- A loaded module (R143, R147, R153). `removing` says that an unload of it has been accepted. -/
structure Module where
  st         : ModState
  removing   : Bool
  name       : List Byte
  kernels    : List KernelRec
  visibility : Nat
  visibleTo  : Fn
  authority  : Nat
  loader     : Fn
  measurement : List Byte
  version    : W64
  poolBytes  : Nat
  text       : List Byte
  rodata     : List Byte
  forced     : List Who
  deriving DecidableEq, Repr

/-- A MODULE_LOAD under way or waiting (R144, R460): a load of an image, or an enrolment, the bytes
that CDW10 declares and those that arrived. -/
structure Load where
  who        : Who
  enrol      : Bool
  declared   : Nat
  image      : List Byte
  visibility : Nat
  visibleTo  : Fn
  step       : Nat
  deriving DecidableEq, Repr

/-- A module authority (R142, R460). -/
structure Authority where
  mldsa   : List Byte
  ecdsa   : List Byte
  port    : Port
  loaders : List Nat
  deriving DecidableEq, Repr

/-- A fault-log entry (R155). -/
structure FaultEntry where
  trailId  : W32
  stage    : Nat
  cause    : Nat
  fn       : Fn
  chunk    : Nat
  module   : Nat
  kernel   : Nat
  hart     : Nat
  code     : W32
  pc       : W64
  addr     : W64
  runUs    : Nat
  deriving DecidableEq, Repr

/-- Compute harts, the L2 of each cluster, modules and their authorities (R120 to R156). -/
structure Hrt where
  harts       : Tbl Hart
  l2          : Tbl (List CacheLine)
  modules     : Tbl Module
  loads       : List Load
  authorities : Tbl Authority
  faults      : Tbl FaultEntry
  deriving DecidableEq, Repr

def Hrt.reset : Hrt := ⟨[], [], [], [], [], []⟩

/-! ## DRAM and memory protection -/

/-- A request a DRAM channel holds (R413, R415), with the moment of its acceptance and, for a read, what the line then holds. -/
structure MemReq where
  port  : Nat
  line  : Nat
  write : Option MemWrite
  since : Nat
  data  : List Byte
  deriving DecidableEq, Repr

/-- A DDR5 channel (R402 to R406, R430): `seedUser` are the user offsets that its last training took, `draw` the draw that numbers
what that training found. -/
structure DramChan where
  trained  : Bool
  selfRefresh : Bool
  attempts : Nat
  mr4Rate  : Nat
  mr4Hot   : Bool
  order    : Nat
  centred  : Nat
  calibrated : Nat
  refreshes : Nat
  seedUser : Tbl Int
  draw     : Nat
  deriving DecidableEq, Repr

def DramChan.reset : DramChan :=
  { trained := false, selfRefresh := false, attempts := 0, mr4Rate := 0, mr4Hot := false, order := 2, centred := 0,
    calibrated := 0, refreshes := 0, seedUser := [], draw := 0 }

/-- The states of a corrected-error log entry (R419). -/
inductive LogState where
  | counting | rewritten | hard | retired
  deriving DecidableEq, Repr

/-- A corrected-error log entry (R419, R437). -/
structure LogEntry where
  group : Nat
  addr  : Nat
  bit   : Nat
  count : Nat
  st    : LogState
  time  : Nat
  deriving DecidableEq, Repr

/-- The MEM island and memory protection (R402 to R440). `poison` lists the words, by (group, word address), that
are stored poisoned. `rows` has the open row of each bank and
`served` the line that each port's last read returned. -/
structure MemSide where
  dram      : Mem
  chans     : Tbl DramChan
  reads     : List MemReq
  writes    : List MemReq
  rows      : Tbl Nat
  served    : Tbl (List Byte)
  seedUser  : Tbl Int
  seedSaved : Tbl Int
  logs      : List LogEntry
  poison    : List (Nat × Nat)
  flips     : List (Nat × Nat × Nat)
  rewrites  : List (Nat × Nat)
  remap     : Tbl Nat
  retiring  : Tbl Nat
  repairs   : List (Nat × Nat)
  withheld  : List (Nat × Nat)
  fixes     : List (Nat × Nat × Bool)
  armed     : Bool
  injected  : Bool
  owlPaused : Bool
  owlOverdue : Bool
  owlLap    : Nat
  owlSramLap : Nat
  owlAt     : Nat
  owlLast   : Nat
  owlSram   : Nat
  noSpare   : Bool
  deriving DecidableEq, Repr

def MemSide.reset : MemSide :=
  { dram := [], chans := [], reads := [], writes := [], rows := [], served := [], seedUser := [], seedSaved := [], logs := [], poison := [], flips := [],
    rewrites := [], remap := [], retiring := [], repairs := [], withheld := [], fixes := [], armed := false,
    injected := false, owlPaused := false, owlOverdue := false, owlLap := 0, owlSramLap := 0, owlAt := 0, owlLast := 0,
    owlSram := 0, noSpare := false }

/-! ## Boot, ledger and firmware -/

/-- A component entry of a ledger record (R517). -/
structure Component where
  type    : Nat
  sub     : Nat
  fn      : Nat
  index   : Nat
  version : Nat
  measurement : List Byte
  deriving DecidableEq, Repr

/-- A ledger record (R517) without its signatures. -/
structure LedgerRec where
  kind   : Nat
  cause  : Nat
  seq    : Nat
  rtc    : Nat
  time   : Nat
  boots  : Nat
  comps  : List Component
  chain  : List Byte
  prev   : List Byte
  deriving DecidableEq, Repr

/-- The operation that waits for a ledger append (R516); an IMPORT's key is held in the security island until then (R277, R303). -/
inductive AppendFor where
  | nothing
  | complete (w : Who) (status : Status) (dw0 : W32)
  | moduleUsable
  | enrolled
  | loadKey (w : Who) (use slot : Nat) (key : List Byte)
  deriving DecidableEq, Repr

/-- A ledger append that was requested. -/
structure Append where
  kind  : Nat
  cause : Nat
  comps : List Component
  then_ : AppendFor
  deriving DecidableEq, Repr

/-- The slot selector (R504). -/
structure Selector where
  sseq    : Nat
  active  : Nat
  pending : Nat
  tries   : Nat
  failedA : Bool
  failedB : Bool
  deriving DecidableEq, Repr

/-- What a firmware image in a slot of the boot flash says and whether it passes the checks of R506: its header is in range, its
measurements match and its signatures verify (R505). -/
structure FwImage where
  version    : List Byte
  compat     : Nat
  svn        : Nat
  raiseSvn   : Bool
  revoke     : BitVec 4
  authority  : Nat
  length     : Nat
  headerOk   : Bool
  measureOk  : Bool
  mldsaOk    : Bool
  ecdsaOk    : Bool
  fslMeas    : List Byte
  fwMeas     : List Byte
  measurement : List Byte
  deriving DecidableEq, Repr

/-- A Firmware Commit whose slot is being written (R508, R509). -/
structure CommitJob where
  who    : Who
  action : Nat
  slot   : Nat
  image  : FwImage
  deriving DecidableEq, Repr

/-- Boot flash, fuses, ledger and the Timestamp feature (R500 to R522). `running` is the slot of the running image
(1 A, 2 B, 0 none), `selCopy` the copy that holds the governing selector and `selOther` what the other copy holds, `commits` the commits
under way in order, `timestamp` the value set and the AON time at which it was set. -/
structure Boot where
  running   : Nat
  image     : Option FwImage
  slotA     : Option FwImage
  slotB     : Option FwImage
  selector  : Selector
  selCopy   : Nat
  selOther  : Option Selector
  commits   : List CommitJob
  fuseSvn   : Nat
  revoked   : BitVec 4
  trial     : Bool
  cause     : Nat
  bootCount : Nat
  download  : List (Nat × List Byte)
  ledger    : List LedgerRec
  appends   : List Append
  appendFail : Bool
  copy0Ok   : Bool
  copy1Ok   : Bool
  nextSeq   : Nat
  timestamp : Option (Nat × Nat)
  deriving DecidableEq, Repr

/-- The image that slot A holds before the first Firmware Commit (notes/assumptions/4.md). -/
def FwImage.factory : FwImage :=
  { version := List.replicate 8 0x30, compat := 0, svn := 0, raiseSvn := false, revoke := 0, authority := 0,
    length := 0, headerOk := true, measureOk := true, mldsaOk := true, ecdsaOk := true,
    fslMeas := List.replicate 48 0, fwMeas := List.replicate 48 0, measurement := List.replicate 48 0 }

def Boot.reset : Boot :=
  { running := 0, image := none, slotA := some FwImage.factory, slotB := none,
    selector := { sseq := 0, active := 1, pending := 0, tries := 0, failedA := false, failedB := false },
    selCopy := 0, selOther := none, commits := [], fuseSvn := 0, revoked := 0, trial := false, cause := 0, bootCount := 0, download := [], ledger := [],
    appends := [], appendFail := false, copy0Ok := true, copy1Ok := true, nextSeq := 1, timestamp := none }

/-! ## Health, lifetime records and the sideband -/

/-- An event-log entry (R564). -/
structure Event where
  seq     : Nat
  time    : Nat
  type    : Nat
  sub     : Nat
  fn      : Nat
  detail0 : W32
  detail1 : Nat
  deriving DecidableEq, Repr

/-- A sideband request (R468, R521). -/
inductive SbCmd where
  | structure_ (kind : Nat)
  | subsystemHealth
  | controllerHealth (controller : Nat)
  | configSet (smbusKhz mtu : Option Nat)
  | configGet (mtu : Bool)
  | vpdRead (offset length : Nat)
  | vpdWrite (offset : Nat) (data : List Byte)
  | tunnel (opcode arg : Nat)
  | spdm (code : Nat) (nonce : List Byte)
  | ledgerGet (seq count : Nat)
  | certMldsa
  deriving DecidableEq, Repr

/-- A sideband request that a transport holds: the oldest of a transport is under way. `waited` says that More Processing
Required has been sent for it (R469). -/
structure SbReq where
  transport : Nat
  waited    : Bool
  cmd       : SbCmd
  deriving DecidableEq, Repr

/-- A write to the configuration area that is not yet durable (R176, R580), and what it completes. -/
inductive CfgWrite where
  | register (offset : Nat) (value : W32)
  | complete (w : Who) (status : Status) (dw0 : W32)
  | append (a : Append)
  | sensor (i : Nat) (offset : Int)
  | seed (key : Nat) (offset : Int)
  | cursor (region upto : Nat)
  | reshapeSwitch (region : Nat)
  | note
  deriving DecidableEq, Repr

/-- Health and lifetime records, the configuration area's queue and the sideband (R467 to R469, R554 to R569).
`summary` is the health summary as it was last read, whose changes
GEN of page 0xC0 counts. `life` holds every lifetime count: page 0xC1 at 0x1_0000 + offset, page 0xC2 at 0x2_0000 + offset, page 0xC3 at
0x3_0000 + offset, other device counts at 0x4_0000 upward and the SMART counts of function f at
0x10_0000 + 64 × f. -/
structure Health where
  life     : Tbl Nat
  lifeSaved : Tbl Nat
  writing  : Bool
  flushAgain : Bool
  sinceWrite : Nat
  copy0Ok  : Bool
  copy1Ok  : Bool
  events   : List Event
  eventsSaved : List Event
  eventSeq : Nat
  gens     : Tbl Nat
  cfg      : List CfgWrite
  sideband : List SbReq
  vpd      : Mem
  smbusKhz : Nat
  mtu      : Tbl Nat
  summary  : List Byte
  deriving DecidableEq, Repr

def Health.reset : Health :=
  { life := [], lifeSaved := [], writing := false, flushAgain := false, sinceWrite := 0, copy0Ok := false,
    copy1Ok := false, events := [], eventsSaved := [], eventSeq := 0, gens := [], cfg := [], sideband := [], vpd := [],
    smbusKhz := 100, mtu := [], summary := [] }

/-! ## The whole machine -/

/-- The state of the G9. `freeDraw` is the model's own counter of free values drawn (notes/assumptions/6.md); no
statement rests on it. `pending` is the queue of commands that wait, first in, first out. -/
structure State where
  regs   : Regs
  sys    : Sys
  power  : Power
  board  : Board
  host   : HostSide
  ns     : Tbl Ns
  ftl    : Ftl
  media  : Media
  str    : Str
  sea    : Sea
  dgs    : Dgs
  lynx   : Lynx
  dma    : Tbl DmaChan
  disp   : Disp
  hrt    : Hrt
  memory : MemSide
  boot   : Boot
  health : Health
  freeDraw : Nat
  pending : List Instr
  deriving DecidableEq, Repr

/-- Why a step can stop with a fault. -/
inductive Fault where
  /-- Not raised: the spec gives every event of the table an effect, and an access to an address that does not
  exist has one too (R574, R613). Safe. -/
  | none
  deriving DecidableEq, Repr

/-- Why a command is refused. -/
inductive Refusal where
  /-- Raised by an arm of `exec` whose command has no meaning yet. Safe: nothing can be proved of it. -/
  | notModelled (mnemonic : String)
  deriving DecidableEq, Repr

/-- The machine at reset: before RESET_N rises, every register at its reset value, nothing queued. -/
def State.reset : State :=
  { regs := Regs.reset, sys := Sys.reset, power := Power.reset, board := Board.reset, host := HostSide.reset, ns := [],
    ftl := Ftl.reset, media := Media.reset, str := Str.reset, sea := Sea.reset, dgs := Dgs.reset, lynx := Lynx.reset,
    dma := [], disp := Disp.reset, hrt := Hrt.reset, memory := MemSide.reset, boot := Boot.reset,
    health := Health.reset, freeDraw := 0, pending := [] }

end Sys2Proof.Machine
end

