-- ==== Sys2Proof/Machine/Operands.lean ====
section
/-! DEFINITION. The codes by which the manual names islands, modes, ports, functions and statuses, the register
offsets and reset values of BAR2 (R572, R581 to R589), and what the operands of a command say. -/

namespace Sys2Proof.Machine

/-! ## Islands (R10) -/

def islandCode : Island → Nat
  | .aon => 0 | .sec => 1 | .host => 2 | .ctrl => 3 | .compute => 4 | .engine => 5 | .mem => 6
  | .media0 => 7 | .media1 => 8 | .media2 => 9 | .media3 => 10

/-- MEDIA island n. -/
def mediaIsland : Nat → Island
  | 0 => .media0 | 1 => .media1 | 2 => .media2 | _ => .media3

/-- The number of a MEDIA island. -/
def mediaNumber : Island → Option Nat
  | .media0 => some 0 | .media1 => some 1 | .media2 => some 2 | .media3 => some 3 | _ => none

/-- Every island except AON. -/
def islandsButAon : List Island :=
  [.sec, .host, .ctrl, .compute, .engine, .mem, .media0, .media1, .media2, .media3]

/-- The islands an L2 reset may reset (R523). -/
def resettable : Island → Bool
  | .aon | .sec | .ctrl => false
  | _ => true

/-! ## Modes (R23, R27) -/

def modeCode : Mode → Nat
  | .balanced => 0 | .sprint => 1 | .steady => 2 | .endure => 3 | .ember => 4 | .hibernate => 5

def modeOf : Nat → Option Mode
  | 0 => some .balanced | 1 => some .sprint | 2 => some .steady | 3 => some .endure | 4 => some .ember
  | 5 => some .hibernate | _ => none

/-- AES pipelines in service (R23). -/
def modePipelines : Mode → Nat
  | .balanced => 6 | .sprint => 8 | .steady => 6 | .endure => 4 | .ember => 4 | .hibernate => 0
/-- Digest cores in service (R23). -/
def modeCores : Mode → Nat
  | .balanced => 16 | .sprint => 24 | .steady => 16 | .endure => 12 | .ember => 12 | .hibernate => 0
/-- Codec lanes in service (R23). -/
def modeLanes : Mode → Nat
  | .balanced => 6 | .sprint => 8 | .steady => 6 | .endure => 8 | .ember => 4 | .hibernate => 0
/-- Lynx banks searching at once (R23, R25). -/
def modeBanks : Mode → Nat
  | .ember => 4 | .hibernate => 0 | _ => 16

/-! ## Functions and ports (R441, R442) -/

def portOfFn (f : Fn) : Port := if f / 256 % 2 = 1 then .b else .a
def managerFn : Port → Fn
  | .a => 0 | .b => 256
/-- Bits [7:0] of a function number. -/
def fnIndex (f : Fn) : Nat := f % 256
def isManager (f : Fn) : Bool := f % 256 = 0
/-- A function number that names a function (R442). -/
def fnValid (f : Fn) : Bool := f < 512 && f % 256 ≤ 127
/-- The controller identifier of a function is its number plus 1 (R442). -/
def controllerId (f : Fn) : Nat := f + 1
/-- Every function of a port. -/
def fnsOf (p : Port) : List Fn := (List.range 128).map (· + managerFn p)

def requesterFn : Requester → Option Fn
  | .portA => some 0 | .portB => some 256 | .firmware _ | .security => none | .vf f => some f

def isFirmware : Requester → Bool
  | .firmware _ => true
  | _ => false

/-- The BAR2 requester that a requester of the digest port is, by the path of its accesses (R323). -/
def portRequester : PortReq → Requester
  | .security => .security
  | .mgmt0 => .firmware 0 | .mgmt1 => .firmware 1 | .mgmt2 => .firmware 2 | .mgmt3 => .firmware 3
  | .managerA => .portA | .managerB => .portB

/-- The requester of the digest port that a BAR2 requester is (R323). -/
def portReqOf : Requester → Option PortReq
  | .portA => some .managerA
  | .portB => some .managerB
  | .firmware 0 => some .mgmt0 | .firmware 1 => some .mgmt1 | .firmware 2 => some .mgmt2 | .firmware 3 => some .mgmt3
  | .firmware _ => none
  | .security => some .security
  | .vf _ => none

/-! ## Statuses (R72, R470, R471) -/

def status (sct sc : Nat) : Status := BitVec.ofNat 11 (256 * sct + sc)
/-- The status code type. -/
def sctOf (st : Status) : Nat := st.toNat / 256

def stOk : Status := status 0 0x00
def stInvalidOpcode : Status := status 0 0x01
def stInvalidField : Status := status 0 0x02
def stDataTransfer : Status := status 0 0x04
def stAbortRequested : Status := status 0 0x07
def stInvalidNs : Status := status 0 0x0B
def stWriteProtected : Status := status 0 0x20
def stLbaRange : Status := status 0 0x80
def stCapacity : Status := status 0 0x81
def stNotReady : Status := status 0 0x82
def stReservation : Status := status 0 0x83
def stInvalidQueue : Status := status 1 0x01
def stAbortLimit : Status := status 1 0x03
def stAerLimit : Status := status 1 0x05
def stNotSaveable : Status := status 1 0x0D
def stNsCapacity : Status := status 1 0x15
def stUnrecovered : Status := status 2 0x81
def stGuard : Status := status 2 0x82
def stAccessDenied : Status := status 2 0x86
def stTrailMalformed : Status := status 7 0xC0
def stLengthMismatch : Status := status 7 0xC1
def stTagFail : Status := status 7 0xC2
def stKeyExhausted : Status := status 7 0xC3
def stKeySlotEmpty : Status := status 7 0xC4
def stKeysErased : Status := status 7 0xC5
def stDecodeIllegal : Status := status 7 0xC6
def stDecodeDistance : Status := status 7 0xC7
def stDecodeOverrun : Status := status 7 0xC8
def stOwned : Status := status 7 0xC9
def stSearchParity : Status := status 7 0xCA
def stPoisoned : Status := status 7 0xCB
def stStripeLost : Status := status 7 0xCC
def stInstanceReset : Status := status 7 0xCD
def stEngineTimeout : Status := status 7 0xCE
def stProgramFault : Status := status 7 0xCF
def stProgramBudget : Status := status 7 0xD0
def stModeRefused : Status := status 7 0xD1
def stBusError : Status := status 7 0xD2
def stFrozen : Status := status 7 0xD3
def stModuleRejected : Status := status 7 0xD4
/-! Statuses that the NVMe base and command set specifications prescribe (R470; notes/assumptions/11.md). -/
def stCompareFailure : Status := status 2 0x85
def stNsIdUnavailable : Status := status 1 0x16
def stNsAlreadyAttached : Status := status 1 0x18
def stNsNotAttached : Status := status 1 0x1A
def stControllerList : Status := status 1 0x1C
def stInvalidQueueSize : Status := status 1 0x02
def stCqInvalid : Status := status 1 0x00
def stInvalidVector : Status := status 1 0x08
def stInvalidLogPage : Status := status 1 0x09
def stInvalidFormat : Status := status 1 0x0A
def stQueueDeletion : Status := status 1 0x0C
def stInvalidFwSlot : Status := status 1 0x06
def stKvKeyAbsent : Status := status 0 0x87
def stKvKeyExists : Status := status 0 0x89
def stKvKeySize : Status := status 0 0x86
def stKvValueSize : Status := status 0 0x85
def stSequence : Status := status 0 0x0C
def stSqDeleted : Status := status 0 0x08
def stSanitizeBusy : Status := status 0 0x1D

/-- The DNR bit of a completion (R470, R471). -/
def dnrOf (st : Status) : Bool :=
  !(st = stOk || st = stDataTransfer || st = stAbortRequested || st = stNotReady || st = stAbortLimit ||
    st = stKeysErased || st = stSearchParity || st = stInstanceReset || st = stEngineTimeout ||
    st = stProgramBudget || st = stModeRefused || st = stBusError || st = stFrozen)

/-- The More bit of a completion: set for every vendor status (R471). -/
def moreOf (st : Status) : Bool := sctOf st = 7

/-! ## Host memory (R613) -/

/-- `n` bytes of host memory at an address, where one run of the view backs them all. -/
def hvRead (hv : HostView) (a n : Nat) : Option (List Byte) :=
  match hv.find? fun r => decide (r.addr ≤ a) && decide (a + n ≤ r.addr + r.bytes.length) with
  | some r => some ((r.bytes.drop (a - r.addr)).take n)
  | none => if n = 0 then some [] else none

/-! ## Register offsets (R572 to R589) -/

def rTopId : Nat := 0x0
def rTopCtl : Nat := 0x4
def rTopScratch : Nat := 0x8
def rTopCaps : Nat := 0xC
def rTopIrqStatus : Nat := 0x10
def rTopIrqCfg (p : Port) : Nat := match p with | .a => 0x20 | .b => 0x24
def rBridgeErr : Nat := 0x40
def rBridgeErrCount : Nat := 0x44
def rRtcLo : Nat := 0x48
def rDspCtl : Nat := 0x100000
def rDspThresh : Nat := 0x100004
def rDspOccupancy : Nat := 0x100008
def rDspPeak : Nat := 0x10000C
def rDspFaults : Nat := 0x100010
def rDspEcc : Nat := 0x100014
def rDspQueue (n : Nat) : Nat := 0x100040 + 4 * n
def rDspStall (n : Nat) : Nat := 0x100100 + 8 * n
def rDspFlowSel : Nat := 0x100200
def rDspFlowInfo : Nat := 0x100204
def rTrlCtl : Nat := 0x200000
def rTrlStatus : Nat := 0x200004
def rTrlCount (n : Nat) : Nat := 0x200040 + 8 * n
def rHrtCtl : Nat := 0x400000
def rHrtClusterStatus (n : Nat) : Nat := 0x400040 + 4 * n
def rHrtCount (n : Nat) : Nat := 0x400080 + 8 * n
def rHrtFaultHead : Nat := 0x400100
def rHrtModuleSel : Nat := 0x400200
def rHrtModuleInfo : Nat := 0x400204
def rHrtPoolUsed : Nat := 0x400208
def rHrtModuleMeas (n : Nat) : Nat := 0x400240 + 4 * n
def rDmaGlbCtl : Nat := 0x600000
def rDmaErrStatus : Nat := 0x600004
def rDmaErrAddrLo : Nat := 0x600008
def rDmaErrAddrHi : Nat := 0x60000C
def rDmaPace (t : Nat) : Nat := 0x600020 + 4 * t
def rDmaCount (n : Nat) : Nat := 0x600080 + 8 * n
def rDmaChan (n : Nat) : Nat := 0x601000 + 0x40 * n
def rSeaCtl : Nat := 0x700000
def rSeaFaultCfg : Nat := 0x700004
def rSeaStatus : Nat := 0x700008
def rSeaAlarm : Nat := 0x70000C
def rSeaSlotSel : Nat := 0x700010
def rSeaSlotInfo : Nat := 0x700014
def rSeaNonceSel : Nat := 0x700020
def rSeaNonceEpoch : Nat := 0x700024
def rSeaNonceNext : Nat := 0x700028
def rSeaNonceRsv : Nat := 0x700030
def rSeaCount (n : Nat) : Nat := 0x700040 + 8 * n
def rDgsCtl : Nat := 0x780000
def rDgsStatus : Nat := 0x780004
def rDgsClaim : Nat := 0x780010
def rDgsPortStatus : Nat := 0x780014
def rDgsStart : Nat := 0x780018
def rDgsData : Nat := 0x78001C
def rDgsFinish : Nat := 0x780020
def rDgsExpect (n : Nat) : Nat := 0x780040 + 4 * n
def rDgsDigest (n : Nat) : Nat := 0x780080 + 4 * n
def rDgsVerdict : Nat := 0x7800C0
def rDgsHmacSel : Nat := 0x780100
def rDgsHmacLoad : Nat := 0x780104
def rDgsHmacInfo : Nat := 0x780108
def rDgsHmacBlob (n : Nat) : Nat := 0x780140 + 4 * n
def rDgsCount (n : Nat) : Nat := 0x780200 + 8 * n
def rRleCtl : Nat := 0x7C0000
def rRleStatus : Nat := 0x7C0004
def rRleErr : Nat := 0x7C0008
def rRleErrIn : Nat := 0x7C000C
def rRleErrOut : Nat := 0x7C0010
def rRleErrTrail : Nat := 0x7C0014
def rRleCount (n : Nat) : Nat := 0x7C0040 + 8 * n
def rLnxCtl : Nat := 0x800000
def rLnxLapCfg : Nat := 0x800004
def rLnxStatus : Nat := 0x800008
def rLnxLapLast : Nat := 0x80000C
def rLnxLapCur : Nat := 0x800010
def rLnxTblSel : Nat := 0x800020
def rLnxTblCfg : Nat := 0x800024
def rLnxTblBanks : Nat := 0x800028
def rLnxTblInfo : Nat := 0x80002C
def rLnxEntSel : Nat := 0x800030
def rLnxEntAttr : Nat := 0x800034
def rLnxEntCmd : Nat := 0x800038
def rLnxErr : Nat := 0x80003C
def rLnxEntKey (n : Nat) : Nat := 0x800040 + 4 * n
def rLnxCount (n : Nat) : Nat := 0x800080 + 8 * n
def rMemCtl : Nat := 0xC00000
def rMemChStatus (n : Nat) : Nat := 0xC00040 + 4 * n
def rMemSeedSel : Nat := 0xC00050
def rMemSeedView : Nat := 0xC00054
def rMemSeedUser : Nat := 0xC00058
def rMemPortCfg (n : Nat) : Nat := 0xC00080 + 4 * n
def rMemPortStat (n : Nat) : Nat := 0xC000C0 + 4 * n
def rMemCount (n : Nat) : Nat := 0xC00100 + 8 * n
def rEccCtl : Nat := 0xD00000
def rEccOwlCfg : Nat := 0xD00004
def rEccOwlStatus : Nat := 0xD00008
def rEccOwlLap : Nat := 0xD0000C
def rEccCe (g : Nat) : Nat := 0xD00100 + 4 * g
def rEccUe (g : Nat) : Nat := 0xD00200 + 4 * g
def rEccLogSel : Nat := 0xD00300
def rEccLogInfo : Nat := 0xD00304
def rEccLogAddrLo : Nat := 0xD00308
def rEccLogAddrHi : Nat := 0xD0030C
def rEccUeStatus : Nat := 0xD00310
def rEccUeAddrLo : Nat := 0xD00314
def rEccUeAddrHi : Nat := 0xD00318
def rEccRepair : Nat := 0xD00320
def rEccInject : Nat := 0xD00330
def rEccInjectLo : Nat := 0xD00334
def rEccInjectHi : Nat := 0xD00338
/-- B(n), the base of MEDIA island n's window. -/
def rMed (n : Nat) : Nat := 0xE00000 + 0x40000 * n
def rMedCtl (n : Nat) : Nat := rMed n
def rMedSuspend (n : Nat) : Nat := rMed n + 0x4
def rMedDeadline (n : Nat) : Nat := rMed n + 0x8
def rMedChStatus (n j : Nat) : Nat := rMed n + 0x40 + 4 * j
def rMedLadder (n k : Nat) : Nat := rMed n + 0x80 + 8 * k
def rMedCalSel (n : Nat) : Nat := rMed n + 0x100
def rMedCalView (n : Nat) : Nat := rMed n + 0x104
def rMedUcalData (n : Nat) : Nat := rMed n + 0x108
def rMedUcalCommit (n : Nat) : Nat := rMed n + 0x10C
def rFtlCtl : Nat := 0x1E00000
def rFtlThresh : Nat := 0x1E00004
def rFtlRdThresh : Nat := 0x1E00008
def rFtlRdFactory : Nat := 0x1E0000C
def rFtlSpare : Nat := 0x1E00010
def rFtlBuf : Nat := 0x1E00014
def rFtlBadger : Nat := 0x1E00018
def rFtlCount (n : Nat) : Nat := 0x1E00040 + 8 * n
def rFtlCkpt : Nat := 0x1E00080
def rStrCtl : Nat := 0x2000000
def rStrReshapeCtl : Nat := 0x2000004
def rStrReshapeStatus : Nat := 0x2000008
def rStrReshapeLeft : Nat := 0x200000C
def rStrRebuild : Nat := 0x2000010
def rStrLunSel : Nat := 0x2000020
def rStrLunStatus : Nat := 0x2000024
def rStrDump : Nat := 0x2000030
def rStrBadlog : Nat := 0x2000034
def rStrSeedLo : Nat := 0x2000038
def rStrCount (n : Nat) : Nat := 0x2000040 + 8 * n
def rVinCtl : Nat := 0x2100000
def rVinEpoch : Nat := 0x2100004
/-- M(f), the base of the manager side of the mailbox of function f. -/
def rMbx (f : Fn) : Nat := 0x2108000 + 0x100 * f
def rPwrCtl : Nat := 0x2400000
def rPwrMode : Nat := 0x2400004
def rPwrSprint : Nat := 0x2400008
def rPwrTemp : Nat := 0x240000C
def rPwrInputs : Nat := 0x2400010
def rPwrTsensSel : Nat := 0x2400020
def rPwrTsensView : Nat := 0x2400024
def rPwrTsensUser : Nat := 0x2400028
def rPwrCount (n : Nat) : Nat := 0x2400040 + 8 * n
def rTlmCtl : Nat := 0x2500000
def rTlmStatus : Nat := 0x2500004
def rTlmEventSeq : Nat := 0x2500008
def rBldBoot : Nat := 0x2600000
def rBldBootCount : Nat := 0x2600004
def rBldSeq : Nat := 0x2600008
def rBldLedger : Nat := 0x2600010
def rBldEscCount (n : Nat) : Nat := 0x2600020 + 4 * n
def rBldEscLast : Nat := 0x2600040
def rBldFw : Nat := 0x2600048
def rBldChain (n : Nat) : Nat := 0x2600080 + 4 * n

/-- The island that holds the block of an offset (R572). -/
def holdingIsland (off : Nat) : Option Island :=
  if off < 0x100000 then some .ctrl
  else if off < 0x400000 then some .engine
  else if off < 0x600000 then some .compute
  else if off < 0xC00000 then some .engine
  else if off < 0xE00000 then some .mem
  else if off < 0xF00000 then some (mediaIsland ((off - 0xE00000) / 0x40000))
  else if off < 0x1E00000 then none
  else if off < 0x2400000 then some .ctrl
  else if off < 0x2500000 then some .aon
  else if off < 0x2600000 then some .ctrl
  else if off < 0x3000000 then some .sec
  else none

/-- The reset value of the register at an offset inside a MEDIA window. -/
def resetMed (o : Nat) : Nat :=
  match o with
  | 0x0 => 0x100FF | 0x4 => 0x1E0A08 | 0x8 => 0x1932 | _ => 0

/-- The reset values of the registers (R581 to R589) that are not 0. -/
def resetNonZero : List (Nat × Nat) :=
  [(0x0, 0x9416B000), (0x100000, 0x10000), (0x100004, 0xE8E0), (0x400000, 0xFF),
   (0x600028, 0x3020), (0x60002C, 0x5038), (0x600030, 0x3020), (0x600034, 0x1810), (0x600040, 0xC08),
   (0x700004, 0x1A), (0x700008, 0x600), (0x780004, 0x10000000), (0x780014, 0xF000000), (0x780020, 0x4),
   (0x780104, 0x200001), (0x7C0004, 0x600), (0x800004, 0xA), (0x800008, 0x100000), (0x800024, 0x100),
   (0xC00000, 0x2), (0xC00080, 0x320), (0xC00084, 0x258), (0xC00088, 0x190), (0xC0008C, 0x3E8),
   (0xC00090, 0x12C), (0xC00094, 0x64), (0xC0009C, 0x3E8), (0xD00000, 0x1), (0xD00004, 0xE100005),
   (0xD00330, 0xFF00), (0x1E00004, 0x281405), (0x2000000, 0x1), (0x2000004, 0x1), (0x2100000, 0x1),
   (0x2400004, 0x3C7000), (0x2400008, 0xEA60), (0x2400010, 0xC00001FF)]

/-- The reset value of a register (R581 to R589); offsets that no rule defines read 0 (R574). -/
def resetValue (off : Nat) : W32 :=
  if 0xE00000 ≤ off ∧ off < 0xF00000 then w32 (resetMed ((off - 0xE00000) % 0x40000))
  else if 0x400040 ≤ off ∧ off < 0x400060 then 0x81000000#32
  else match resetNonZero.find? fun e => e.1 = off with
    | some e => w32 e.2
    | none => 0

/-- The island whose requests come in at a DRAM port (R410); port 6 is MEM's own scrubber. Which MEDIA island a request of port 3
comes from its code does not say: the model takes the first. DESIGN CHOICE (notes/assumptions/57.md). -/
def portIsland (port : Nat) : Island :=
  match port with
  | 0 => .host | 1 => .engine | 2 => .compute | 3 => .media0 | 5 => .engine | _ => .ctrl

/-- The three principal data paths (R20). -/
inductive DataPath where
  | pushdownRead | hostWrite | hostRead
  deriving DecidableEq, Repr

/-- The DRAM ports that a data path uses, by their codes of R410: the translation map is port 4, the Lynx shadow 5, the hart clusters 2,
the engines 1 and host DMA 0 (R20). A host read uses host DMA only for LBAs in the write buffer. -/
def DataPath.ports (p : DataPath) (buffered : Bool) : List Nat :=
  match p with
  | .pushdownRead => [4, 5, 2, 1]
  | .hostWrite => [0, 1, 4]
  | .hostRead => if buffered then [4, 0] else [4]

end Sys2Proof.Machine
end

