-- ==== Sys2Proof/Machine/Ops.lean ====
section
/-! DEFINITION. The named operations over the state that every meaning shares: changing one part of the state,
reading and writing registers and counts, what leaves the G9 (completions, messages, posted writes), events, ledger
appends, writes to the configuration area, and time. -/

namespace Sys2Proof.Machine

/-! ## Changing one part of the state -/

def State.onRegs (s : State) (f : Regs → Regs) : State := { s with regs := f s.regs }
def State.onSys (s : State) (f : Sys → Sys) : State := { s with sys := f s.sys }
def State.onPower (s : State) (f : Power → Power) : State := { s with power := f s.power }
def State.onHost (s : State) (f : HostSide → HostSide) : State := { s with host := f s.host }
def State.onNs (s : State) (f : Tbl Ns → Tbl Ns) : State := { s with ns := f s.ns }
def State.onFtl (s : State) (f : Ftl → Ftl) : State := { s with ftl := f s.ftl }
def State.onMedia (s : State) (f : Media → Media) : State := { s with media := f s.media }
def State.onStr (s : State) (f : Str → Str) : State := { s with str := f s.str }
def State.onSea (s : State) (f : Sea → Sea) : State := { s with sea := f s.sea }
def State.onDgs (s : State) (f : Dgs → Dgs) : State := { s with dgs := f s.dgs }
def State.onLynx (s : State) (f : Lynx → Lynx) : State := { s with lynx := f s.lynx }
def State.onDma (s : State) (f : Tbl DmaChan → Tbl DmaChan) : State := { s with dma := f s.dma }
def State.onDisp (s : State) (f : Disp → Disp) : State := { s with disp := f s.disp }
def State.onHrt (s : State) (f : Hrt → Hrt) : State := { s with hrt := f s.hrt }
def State.onMem (s : State) (f : MemSide → MemSide) : State := { s with memory := f s.memory }
def State.onBoot (s : State) (f : Boot → Boot) : State := { s with boot := f s.boot }
def State.onHealth (s : State) (f : Health → Health) : State := { s with health := f s.health }
/-- Advance the counter of free values by one (notes/assumptions/6.md). -/
def State.draw (s : State) : State := { s with freeDraw := s.freeDraw + 1 }

/-! ## Time (R586; notes/assumptions/7.md) -/

/-- AON ticks of 20 ns in a microsecond, a millisecond and a second. -/
def tUs : Nat := 50
def tMs : Nat := 50000
def tSec : Nat := 50000000

/-- The absolute AON time. -/
def State.now (s : State) : Nat := s.sys.ticks
/-- The AON real-time counter: ticks since the last power-on or L4 reset. -/
def State.rtc (s : State) : Nat := s.sys.ticks - s.sys.rtcBase
/-- Milliseconds on the NVMe Timestamp scale; 0 when never set (R517, R555). -/
def State.stamp (s : State) : Nat :=
  match s.boot.timestamp with
  | some (v, t) => v + (s.sys.ticks - t) / tMs
  | none => 0

/-! ## Islands -/

/-- An island that answers its bridges: not in reset and not power-gated (R15), and powered and past reset. -/
def State.up (s : State) (i : Island) : Bool := !(i ∈ s.sys.down) && !(i ∈ s.sys.gated)

/-- The island whose request at the first of some DRAM ports meets a bridge error at once, while MEM is in reset (R15, R20, R427). -/
def dramMiss (s : State) (ports : List Nat) : Option Island := if s.up .mem then none else ports.head?.map portIsland

/-- The G9 runs: booted, not dumping, not in a hold or shutdown. -/
def State.running (s : State) : Bool := s.sys.phase = .running

/-- A BAR2 access of a requester arrives at the bridge into CTRL: a manager function's comes over its link and the HOST
island, the management harts' own from inside (R573). -/
def State.hostReaches (s : State) (r : Requester) : Bool :=
  match r with
  | .portA => s.up .host && s.host.portA.present && s.host.portA.linkUp
  | .portB => s.up .host && s.host.portB.present && s.host.portB.linkUp
  | .vf _ => false
  | .firmware _ | .security => true

/-- The registers of the digest port, which are all of BAR2 that the security core reaches (R323, R330 to R332). -/
def digestPortReg (off : Nat) : Bool := decide (rDgsClaim ≤ off) && decide (off ≤ rDgsVerdict)

/-- The path of a requester to the bridge into a holding island: HOST for a manager function, and CTRL but for the security core,
whose path to the digest port is its own (R323, R573). -/
def State.bridgeReaches (s : State) (r : Requester) (off : Nat) : Bool :=
  s.hostReaches r && (if r = .security then digestPortReg off else s.up .ctrl)

/-- A BAR2 access of a requester reaches the register at an offset: it crosses HOST (for a manager function), CTRL and the
bridge into the holding island (R573, R574). An offset with no holding island is reserved space. -/
def State.barReaches (s : State) (r : Requester) (off : Nat) : Bool :=
  s.bridgeReaches r off &&
  (match holdingIsland off with
   | some i => s.up i
   | none => true)

/-! ## Registers and counts (R4, R580, R589) -/

/-- The stored value of a register. -/
def State.reg (s : State) (off : Nat) : W32 := s.regs.val.getD off (resetValue off)
/-- Store a register, keeping only values that differ from the reset value. -/
def State.setReg (s : State) (off : Nat) (v : W32) : State :=
  s.onRegs fun r => { r with val := Tbl.put (resetValue off) r.val off v }
/-- Replace the bits of a mask. -/
def State.setBits (s : State) (off : Nat) (m v : W32) : State := s.setReg off ((s.reg off &&& ~~~m) ||| (v &&& m))
/-- Bits [hi:lo] of a stored register. -/
def State.regFld (s : State) (off hi lo : Nat) : Nat := fld (s.reg off) hi lo
/-- One bit of a stored register. -/
def State.regBit (s : State) (off i : Nat) : Bool := bitAt (s.reg off) i

/-- A 64-bit event count, by the offset of its LO register. -/
def State.cnt (s : State) (off : Nat) : Nat := s.regs.count.getD off 0
/-- Add to a 64-bit event count, which wraps at 2^64 (notes/assumptions/12.md). -/
def State.addCnt (s : State) (off n : Nat) : State :=
  s.onRegs fun r => { r with count := Tbl.put 0 r.count off ((r.count.getD off 0 + n) % 2 ^ 64) }
/-- Add to a 32-bit count held in a register, saturating at 0xFFFF_FFFF. -/
def State.addReg (s : State) (off n : Nat) : State :=
  s.setReg off (w32 (satAdd 0xFFFFFFFF (s.reg off).toNat n))

/-! ## Lifetime counts (R559 to R561) -/

def lifeC1 (off : Nat) : Nat := 0x10000 + off
def lifeC2 (off : Nat) : Nat := 0x20000 + off
def lifeC3 (off : Nat) : Nat := 0x30000 + off
/-- Device counts outside the pages: 0 power cycles, 1 unsafe shutdowns, 2 media errors, 3 seconds powered,
4 and 5 seconds at the warning and critical temperature, 6 retired blocks, 7 failed LUNs. -/
def lifeDev (i : Nat) : Nat := 0x40000 + i
/-- SMART counts of a function: 0 bytes read, 1 bytes written, 2 read commands, 3 write commands, 4 busy minutes,
5 error log entries (R557). -/
def lifeSmart (f : Fn) (i : Nat) : Nat := 0x100000 + 64 * f + i

def State.life (s : State) (key : Nat) : Nat := s.health.life.getD key 0
/-- The vendor page whose content a lifetime count belongs to. -/
def lifePage (key : Nat) : Nat :=
  if key < 0x20000 then 0xC1 else if key < 0x30000 then 0xC2 else if key < 0x40000 then 0xC3 else 0
/-- Raise the generation of a vendor page (R555). -/
def State.bumpGen (s : State) (page : Nat) : State :=
  if page = 0 then s else s.onHealth fun h => { h with gens := h.gens.set page (h.gens.getD page 0 + 1) }
/-- Add to a lifetime count, which saturates (R561). -/
def State.addLife (s : State) (key n : Nat) : State :=
  (s.onHealth fun h => { h with life := Tbl.put 0 h.life key (satAdd (2 ^ 64 - 1) (h.life.getD key 0) n) }).bumpGen
    (lifePage key)
/-- Page 0xC1: class, and corrected or uncorrected (R559). -/
def lifeErr (cls : Nat) (uncorrected : Bool) : Nat := lifeC1 (32 + 24 * (cls - 1) + if uncorrected then 16 else 8)
/-- Page 0xC3, Events section: count i (R561). -/
def lifeEvent (i : Nat) : Nat := lifeC3 (0xA48 + 8 * i)

/-! ## The event log (R564) -/

/-- Append an event; the ring keeps the newest 256. -/
def State.logEvent (s : State) (type sub fn : Nat) (d0 : W32) (d1 : Nat) : State :=
  (s.onHealth fun h =>
    let e : Event := { seq := h.eventSeq + 1, time := s.stamp, type := type, sub := sub, fn := fn, detail0 := d0, detail1 := d1 }
    { h with events := lastN 256 (h.events ++ [e]), eventSeq := h.eventSeq + 1 }).bumpGen 0xC7

/-! ## The lifetime records (R565, R567) -/

/-- Write the lifetime records: at once, or after the write under way, or once WRITES_STOPPED clears. -/
def State.beginLife (s : State) : State :=
  s.onHealth fun h => if h.writing || s.power.writesStopped then { h with flushAgain := true } else { h with writing := true }

/-! ## Controllers and ports -/

def State.ctrl (s : State) (f : Fn) : Ctrl := s.host.ctrls.getD f (Ctrl.reset f)
def State.setCtrl (s : State) (f : Fn) (c : Ctrl) : State :=
  s.onHost fun h => { h with ctrls := Tbl.put (Ctrl.reset f) h.ctrls f c }
def State.onCtrl (s : State) (f : Fn) (g : Ctrl → Ctrl) : State := s.setCtrl f (g (s.ctrl f))

def State.port (s : State) : Port → PortState
  | .a => s.host.portA
  | .b => s.host.portB
def State.onPort (s : State) (p : Port) (g : PortState → PortState) : State :=
  s.onHost fun h => match p with
    | .a => { h with portA := g h.portA }
    | .b => { h with portB := g h.portB }

/-- A function that exists: its port is present (R441, R442). -/
def State.fnExists (s : State) (f : Fn) : Bool := fnValid f && (s.port (portOfFn f)).present

/-! ## Memory ranges (R454) -/

/-- A memory range: the contents and the size of a memory namespace (R454). -/
def State.slmRange (s : State) (range : Nat) : Option Ns :=
  match s.ns.find range with
  | some n => if n.kind = .memory then some n else none
  | none => none

/-- Some bytes of a memory range exist. -/
def State.slmFits (s : State) (range off len : Nat) : Bool :=
  match s.slmRange range with
  | some n => decide (off + len ≤ n.nsze)
  | none => false

def State.slmWrite (s : State) (range off : Nat) (bs : List Byte) : State :=
  s.onNs fun t => t.modify range fun n => { n with mem := Mem.writeBytes n.mem off bs }

/-! ## What leaves the G9 -/

/-- Issue one posted write of a port: it waits behind earlier ones while the host returns no flow-control credit, and
nothing is posted while the link is down (R444, R445). -/
def State.post (s : State) (p : Port) (o : Out) : State :=
  let ps := s.port p
  if ps.linkUp then
    if ps.credits = 0 ∨ ps.stalled ≠ [] then s.onPort p fun q => { q with stalled := q.stalled ++ [o] }
    else (s.onPort p fun q => { q with credits := q.credits - 1 }).onHost fun h => { h with sent := h.sent ++ [o] }
  else s

/-- An MSI-X message; a vector that the host has not unmasked holds it as its pending bit (R585). -/
def State.msix (s : State) (f : Fn) (v : Nat) : State :=
  if v ∉ (s.ctrl f).unmasked then s.onCtrl f fun c => { c with msixHeld := addOnce c.msixHeld v }
  else s.post (portOfFn f) (.msix f v)

/-- A sideband answer (R467 to R469). -/
def State.answer (s : State) (transport : Nat) (a : SbAnswer) : State :=
  s.onHost fun h => { h with sent := h.sent ++ [.sideband transport a] }

/-- The completion queue of a submission queue. -/
def cqOf (c : Ctrl) (sq : Nat) : Nat :=
  match c.queues.find? fun q => !q.isCq && decide (q.qid = sq) with
  | some q => q.cqid
  | none => 0

/-- The MSI-X vector of a completion queue (the admin queue has vector 0). -/
def cqVector (c : Ctrl) (cq : Nat) : Nat :=
  match c.queues.find? fun q => q.isCq && decide (q.qid = cq) with
  | some q => q.vector
  | none => 0

/-- Advance a queue's index by one entry. -/
def Queue.next (q : Queue) (i : Nat) : Nat := (i + 1) % (if q.size = 0 then 1 else q.size)
/-- Advance a completion queue by the entry just posted; its phase tag turns over as the queue wraps. -/
def Queue.posted (q : Queue) : Queue := { q with tail := q.next q.tail, phase := if q.next q.tail = 0 then !q.phase else q.phase }
/-- The completion queue with a number, where a queue is that one. -/
def bumpCq (cq : Nat) (q : Queue) : Queue := if q.isCq && decide (q.qid = cq) then q.posted else q
/-- A completion queue raises interrupts: the admin queue always does. -/
def cqInterrupts (c : Ctrl) (cq : Nat) : Bool := cq = 0 || c.queues.any fun q => q.isCq && decide (q.qid = cq) && q.ien

/-- The bin of a latency in microseconds (R561). -/
def latencyBin : Nat → Nat → Nat
  | 0, _ => 31
  | n + 1, us => if us < 2 ^ (31 - (n + 1)) then 31 - (n + 1) else latencyBin n us

/-- Count a latency of a class: 0 NVM Read, 1 NVM Write, 2 Retrieve, 3 Store, 4 admin, 5 Trail (R561). -/
def State.addLatency (s : State) (cls ticks : Nat) : State :=
  s.addLife (lifeC3 (0x20 + 256 * cls + 8 * latencyBin 31 (ticks / tUs))) 1

/-- Write an Error Information log entry; the log keeps 64 (R447, R471). -/
def State.logError (s : State) (w : Who) (st : Status) : State :=
  (s.onCtrl w.fn fun c =>
    let n := (match c.errLog.getLast? with | some e => e.count | none => 0) + 1
    { c with errLog := lastN 64 (c.errLog ++ [{ count := n, sq := w.sq, cid := w.cid, status := st }]) }).addLife (lifeSmart w.fn 5) 1

/-- Media and data integrity errors are counted by the status of the command (R557). -/
def isMediaError (st : Status) : Bool := st = stUnrecovered || st = stGuard || st = stPoisoned || st = stStripeLost

/-- The class that a write which a freeze held counts in. -/
def WriteKind.cls : WriteKind → Option Nat
  | .nvm => some 1 | .kv .. => some 3 | _ => none

/-- The outstanding command that a name stands for. -/
def State.fetchedCmd (s : State) (w : Who) : Option Fetched :=
  (s.ctrl w.fn).fetched.find? fun x => decide (x.sq = w.sq) && decide (x.cid = w.cid)

/-- Name the class of an I/O command that is fetched. -/
def State.asClass (s : State) (w : Who) (cls : Nat) : State :=
  s.onCtrl w.fn fun c => { c with fetched := c.fetched.map fun x => if x.sq = w.sq ∧ x.cid = w.cid then { x with cls := some cls } else x }

/-- A command completes: its latency counts from its fetch to now, and reads, writes and TRAIL_SUBMITs count for its function. A
TRAIL_SUBMIT counts among the reads and among the writes. DEDUCED (R557, R561; notes/assumptions/47.md). -/
def State.countCmd (s : State) (w : Who) : State :=
  match s.fetchedCmd w with
  | none => s
  | some x =>
    match if w.sq = 0 then some 4 else x.cls with
    | none => s
    | some 4 => s.addLatency 4 (s.now - x.at_)
    | some 6 => (s.addLife (lifeSmart w.fn 2) 1).addLife (lifeSmart w.fn 3) 1
    | some c => (s.addLatency c (s.now - x.at_)).addLife (lifeSmart w.fn (2 + c % 2)) 1

/-- The command leaves the function's outstanding commands, and with it its credit (R474). -/
def State.retireCmd (s : State) (w : Who) : State :=
  s.onCtrl w.fn fun c => { c with fetched := c.fetched.filter fun x => !(decide (x.sq = w.sq) && decide (x.cid = w.cid)) }

/-- The command is outstanding: fetched and not completed. -/
def State.outstanding (s : State) (w : Who) : Bool :=
  (s.ctrl w.fn).fetched.any fun x => decide (x.sq = w.sq) && decide (x.cid = w.cid)

/-- Post a completion of an outstanding command: the entry of the command's completion queue and its interrupt (R445, R470, R471, R474). -/
def State.complete (s : State) (w : Who) (st : Status) (dw0 dw1 : W32) : State :=
  if !s.outstanding w then s else
  let c := s.ctrl w.fn
  let cq := cqOf c w.sq
  let s1 := (s.countCmd w).retireCmd w
  let s2 := if moreOf st then s1.logError w st else s1
  let s3 := if isMediaError st then s2.addLife (lifeDev 2) 1 else s2
  let s4 := s3.onCtrl w.fn fun c =>
    if cq = 0 then { c with adminCq := c.adminCq.posted } else { c with queues := c.queues.map (bumpCq cq) }
  let s5 := s4.post (portOfFn w.fn) (.completion w.fn w.sq w.cid st dw0 dw1)
  if cqInterrupts c cq then s5.msix w.fn (cqVector c cq) else s5

/-- Complete an admin command. -/
def State.admin (s : State) (w : Who) (st : Status) (dw0 : W32) : State := s.complete w st dw0 0
/-- Complete an admin command with both dwords. -/
def State.admin2 (s : State) (w : Who) (st : Status) (dw0 dw1 : W32) : State :=
  s.complete w st dw0 dw1
/-- Complete an I/O command. -/
def State.io (s : State) (w : Who) (st : Status) (dw0 : W32) : State := s.complete w st dw0 0

/-- Return data to the host for a command, then complete it. -/
def State.dataOut (s : State) (w : Who) (bytes : List Byte) : State :=
  if bytes.isEmpty then s else s.post (portOfFn w.fn) (.readData w.fn w.sq w.cid bytes)

/-! ## Asynchronous events (R466) -/

/-- Completion dword 0 of an Asynchronous Event Request. -/
def aenDw0 (e : Aen) : W32 := w32 (e.page * 0x10000 + e.info * 0x100 + e.type)

/-- Report an event to a controller: complete its oldest Asynchronous Event Request, or keep the event until one
arrives. An event reported and not yet cleared is not reported again. -/
def State.raiseEvent (s : State) (f : Fn) (e : Aen) : State :=
  let c := s.ctrl f
  if e ∈ c.reported then s
  else match c.aers with
    | cid :: rest =>
      (s.onCtrl f fun c => { c with aers := rest, reported := c.reported ++ [e] }).admin ⟨f, 0, cid⟩ stOk (aenDw0 e)
    | [] => s.onCtrl f fun c => { c with events := addOnce c.events e }

/-- Report an event to both manager functions. -/
def State.raiseManagers (s : State) (e : Aen) : State := (s.raiseEvent 0 e).raiseEvent 256 e

/-- Automatic change of effective mode, key-store alarm and bad-LBA entries (R466), and the SMART event of R538. -/
def evMode : Aen := ⟨7, 0, 0xC7⟩
def evAlarm : Aen := ⟨7, 1, 0xC7⟩
def evBadLba : Aen := ⟨7, 2, 0xC4⟩
def evTemperature : Aen := ⟨1, 1, 2⟩
def evSpare : Aen := ⟨1, 2, 2⟩
def evReliability : Aen := ⟨1, 0, 2⟩
/-- The reservation log page is available (R457; NVMe). -/
def evReservation : Aen := ⟨6, 0, 0x80⟩

/-! ## The configuration area and the ledger -/

/-- A write to a system area begins: while writes are stopped it waits (R166). -/
def State.sysBegin (s : State) (w : SysWrite) : State :=
  if s.power.writesStopped then s.onMedia fun m => { m with sysHeld := if w ∈ m.sysHeld then m.sysHeld else m.sysHeld ++ [w] } else s

/-- A write to a system area waits. -/
def sysWaits (s : State) (w : SysWrite) : Bool := decide (w ∈ s.media.sysHeld)

/-- The copy that the G9 uses: the valid one with the highest sequence number (R176). -/
def areaNewest (cs : List AreaCopy) : Option Nat :=
  ((List.range cs.length).foldl (fun (a : Option (Nat × Nat)) i => match cs[i]? with
    | some c => if c.valid then (match a with | some x => if x.2 < c.seq then some (i, c.seq) else some x | none => some (i, c.seq)) else a
    | none => a) none).map (·.1)

/-- The highest sequence number of a valid copy. -/
def areaSeq (cs : List AreaCopy) : Nat := match areaNewest cs with | some i => (cs[i]?.map (·.seq)).getD 0 | none => 0

/-- The first so many copies of an area as a write leaves them, one at a time, each with the next sequence number and its own CRC-32C;
the copy that is being written is not valid (R176). -/
def writeCopies (cs : List AreaCopy) (n : Nat) : List AreaCopy :=
  cs.mapIdx fun i c => if i < n then { c with seq := areaSeq cs + 1, valid := true } else if i = n then { c with valid := false } else c

/-- Write every copy of an area. -/
def State.areaWrite (s : State) (area : Nat) : State :=
  s.onMedia fun m => { m with areas := m.areas.modify area fun cs => writeCopies cs cs.length }

/-- The power fails while an area is written, after some of its copies: whether the copy that the G9 reads from now on is a new one. -/
def State.areaTorn (s : State) (area : Nat) : State × Bool :=
  let cs := s.media.areas.getD area []
  let n := Config.copiesWritten s.freeDraw % (cs.length + 1)
  ((s.draw).onMedia fun m => { m with areas := m.areas.set area (writeCopies cs n) },
   match areaNewest (writeCopies cs n) with | some i => decide (i < n) | none => false)

/-- The copies that are not valid are written anew from the one that is. R176 does not say when: the model does it at boot, so that the
copy which stands is never the first that a write touches. DESIGN CHOICE (notes/assumptions/54.md). -/
def State.areaHeal (s : State) : State :=
  let heal := fun (cs : List AreaCopy) =>
    if cs.all (·.valid) then cs else cs.map fun c => { c with seq := areaSeq cs, valid := true }
  s.onMedia fun m => { m with areas := Tbl.mapVals m.areas fun _ cs => heal cs }

/-- A write that must reach the configuration area (R176, R580). -/
def State.cfgWrite (s : State) (c : CfgWrite) : State :=
  let s1 := s.onHealth fun h => { h with cfg := h.cfg ++ [c] }
  if s.health.cfg.isEmpty then s1.sysBegin .config else s1

/-- Room for one more append: 16 records may wait in the security island (R516). -/
def State.appendRoom (s : State) : Bool := !s.boot.appendFail || decide (s.boot.appends.length < 16)

/-- Request an append (R515). -/
def State.requestAppend (s : State) (a : Append) : State :=
  let s1 := s.onBoot fun b => { b with appends := b.appends ++ [a] }
  if s.boot.appends.isEmpty then s1.sysBegin .ledger else s1

/-- A ledger component without a measurement of its own: the measurement is over bytes 0x00 to 0x0F (R517). -/
def componentOf (type sub fn index : Nat) : Component :=
  { type := type, sub := sub, fn := fn, index := index, version := 0, measurement := [] }

end Sys2Proof.Machine
end

