-- ==== Sys2Proof/Machine/Flags.lean ====
section
/-! DEFINITION. The flags of the G9: the sources that TOP_IRQ_STATUS gathers and the messages they send
(R584, R585). -/

namespace Sys2Proof.Machine

/-- TOP_IRQ_STATUS (R584): each bit is the OR of its sources. -/
def irqStatus (s : State) : BitVec 10 :=
  BitVec.ofNat 10
    (bitIf (s.regBit rBridgeErr 31) 0 + bitIf (s.regBit rDspEcc 31) 1 + bitIf (s.regBit rDmaErrStatus 31) 2 +
     bitIf (s.regBit rRleErr 31) 3 + bitIf (s.regBit rLnxErr 31) 4 + bitIf (s.regBit rEccUeStatus 31) 5 +
     bitIf (!s.sea.alarms.isEmpty) 6 +
     bitIf (s.regBit (rMedUcalCommit 0) 30 || s.regBit (rMedUcalCommit 1) 30 || s.regBit (rMedUcalCommit 2) 30 ||
            s.regBit (rMedUcalCommit 3) 30) 7 +
     bitIf s.str.reshape.refused 8 + bitIf s.sys.escPending 9)

/-- The condition of R585 for a port, bit by bit. -/
def irqCond (s : State) (p : Port) : BitVec 10 :=
  let cfg := s.reg (rTopIrqCfg p)
  if bitAt cfg 31 then irqStatus s &&& BitVec.ofNat 10 (fld cfg 25 16) else 0

/-- Send one message for each bit whose condition has become true at a port. -/
def irqSend (s : State) (p : Port) (seen : BitVec 10) : State :=
  let rising := irqCond s p &&& ~~~seen
  let v := s.regFld (rTopIrqCfg p) 10 0
  iterate (fun i t => if rising.getLsbD i then t.msix (managerFn p) v else t) 10 s

/-- Send the messages that the flags' changes call for, and remember the conditions (R585). -/
def State.irq (s : State) : State :=
  let s1 := irqSend (irqSend s .a s.sys.irqSeenA) .b s.sys.irqSeenB
  s1.onSys fun y => { y with irqSeenA := irqCond s .a, irqSeenB := irqCond s .b }

/-! ## Bridge errors (R14 to R19) -/

/-- TOP_BRIDGE_ERR_STATUS and TOP_BRIDGE_ERR_COUNT take a bridge error (R19, R586). -/
def State.recordBridge (s : State) (target source : Island) : State :=
  let s1 := s.addReg rBridgeErrCount 1
  if s.regBit rBridgeErr 31 then s1.setReg rBridgeErr (s1.reg rBridgeErr ||| 0x40000000#32)
  else s1.setReg rBridgeErr (w32 (2 ^ 31 + islandCode target * 16 + islandCode source))

/-- Errors toward a target island within the last 1 ms (R18). -/
def bridgeRecent (s : State) (target : Island) : Nat :=
  (s.sys.bridgeErrs.filter fun e => e.1 = target && decide (s.now < e.2 + tMs)).length

/-- A bridge error is recorded and counted. -/
def State.noteBridge (s : State) (target source : Island) : State :=
  (((s.recordBridge target source).addLife (lifeErr 13 true) 1).onSys fun y =>
    { y with bridgeErrs := (y.bridgeErrs.filter fun e => decide (s.now < e.2 + tMs)) ++ [(target, s.now)] }).irq

/-- A bridge error of a firmware access is reported to firmware (R16). -/
def State.tellFirmware (s : State) (target : Island) : State :=
  s.onHost fun h => { h with sent := h.sent ++ [.bridgeError target] }

/-- A BAR2 access of a requester that its island, in reset or power-gated, does not take ends in a bridge error at once (R15,
R574); the third within 1 ms escalates at the next tick (R18). -/
def State.barMiss (s : State) (r : Requester) (off : Nat) : State :=
  match holdingIsland off with
  | some i =>
    if s.bridgeReaches r off ∧ !s.up i then
      let t := s.noteBridge i (if r = .security then .sec else .ctrl)
      if isFirmware r then t.tellFirmware i else t
    else s
  | none => s

end Sys2Proof.Machine
end

