-- ==== Sys2Proof/Machine/Aes.lean ====
section
/-! DEFINITION. AES-256 and the modes the cipher engine uses: XTS (R279, R283), GCM (R287 to R290) and key wrap
(R278, R287), from the standards that the manual names: FIPS 197, IEEE 1619, NIST SP 800-38D and SP 800-38F
(notes/assumptions/13.md). Blocks are lists of 16 bytes. -/

namespace Sys2Proof.Machine

/-! ## The field of AES -/

/-- Multiplication by x modulo x^8 + x^4 + x^3 + x + 1. -/
def aesDouble (b : Byte) : Byte := if b.getLsbD 7 then (b <<< 1) ^^^ 0x1B#8 else b <<< 1

/-- Multiplication in the field of AES, over the bits of the second factor. -/
def aesMulFuel : Nat → Byte → Byte → Byte
  | 0, _, _ => 0
  | n + 1, a, b => (if b.getLsbD 0 then a else 0) ^^^ aesMulFuel n (aesDouble a) (b >>> 1)
def aesMul (a b : Byte) : Byte := aesMulFuel 8 a b

/-- The inverse in the field (0 for 0): the power 254. -/
def aesInv (a : Byte) : Byte :=
  let a2 := aesMul a a
  let a4 := aesMul a2 a2
  let a8 := aesMul a4 a4
  let a16 := aesMul a8 a8
  let a32 := aesMul a16 a16
  let a64 := aesMul a32 a32
  let a128 := aesMul a64 a64
  aesMul a128 (aesMul a64 (aesMul a32 (aesMul a16 (aesMul a8 (aesMul a4 a2)))))

/-- The S-box and its inverse. -/
def aesSub (b : Byte) : Byte :=
  let i := aesInv b
  i ^^^ i.rotateLeft 1 ^^^ i.rotateLeft 2 ^^^ i.rotateLeft 3 ^^^ i.rotateLeft 4 ^^^ 0x63#8
def aesUnsub (b : Byte) : Byte :=
  aesInv (b.rotateLeft 1 ^^^ b.rotateLeft 3 ^^^ b.rotateLeft 6 ^^^ 0x05#8)

/-! ## The key schedule: 15 round keys from 32 bytes -/

/-- Round constant i, from 1. -/
def aesRcon : Nat → Byte
  | 0 => 0x8D
  | n + 1 => aesDouble (aesRcon n)

/-- The words of the schedule, newest first, `n` more. -/
def aesWords : Nat → Nat → List (List Byte) → List (List Byte)
  | 0, _, ws => ws
  | n + 1, i, ws =>
    let prev := ws.headD []
    let old := ws.getD 7 []
    let t := if i % 8 = 0 then xorBytes ((prev.rotateLeft 1).map aesSub) (aesRcon (i / 8) :: zeros 3)
      else if i % 8 = 4 then prev.map aesSub else prev
    aesWords n (i + 1) (xorBytes old t :: ws)

/-- The 15 round keys of a 32-byte key, in order. -/
def aesKeys (key : List Byte) : List (List Byte) :=
  chunksOf 16 ((aesWords 52 8 (chunksOf 4 (padTo 32 key)).reverse).reverse.flatten)

/-! ## The rounds -/

/-- ShiftRows: byte 4c + r of the state comes from column c + r. -/
def aesShift (b : List Byte) : List Byte := (List.range 16).map fun i => b.getD ((i + 4 * (i % 4)) % 16) 0
def aesUnshift (b : List Byte) : List Byte := (List.range 16).map fun i => b.getD ((i + 12 * (i % 4)) % 16) 0

def aesMixCol : List Byte → List Byte
  | [a, b, c, d] =>
    [aesMul 2 a ^^^ aesMul 3 b ^^^ c ^^^ d, a ^^^ aesMul 2 b ^^^ aesMul 3 c ^^^ d,
     a ^^^ b ^^^ aesMul 2 c ^^^ aesMul 3 d, aesMul 3 a ^^^ b ^^^ c ^^^ aesMul 2 d]
  | x => x
def aesUnmixCol : List Byte → List Byte
  | [a, b, c, d] =>
    [aesMul 14 a ^^^ aesMul 11 b ^^^ aesMul 13 c ^^^ aesMul 9 d, aesMul 9 a ^^^ aesMul 14 b ^^^ aesMul 11 c ^^^ aesMul 13 d,
     aesMul 13 a ^^^ aesMul 9 b ^^^ aesMul 14 c ^^^ aesMul 11 d, aesMul 11 a ^^^ aesMul 13 b ^^^ aesMul 9 c ^^^ aesMul 14 d]
  | x => x
def aesMix (b : List Byte) : List Byte := ((chunksOf 4 b).map aesMixCol).flatten
def aesUnmix (b : List Byte) : List Byte := ((chunksOf 4 b).map aesUnmixCol).flatten

/-- The rounds after the first key addition; the last has no MixColumns. -/
def aesRounds : List (List Byte) → List Byte → List Byte
  | [], b => b
  | [k], b => xorBytes (aesShift (b.map aesSub)) k
  | k :: ks, b => aesRounds ks (xorBytes (aesMix (aesShift (b.map aesSub))) k)
def aesUnrounds : List (List Byte) → List Byte → List Byte
  | [], b => b
  | [k], b => xorBytes ((aesUnshift b).map aesUnsub) k
  | k :: ks, b => aesUnrounds ks (aesUnmix (xorBytes ((aesUnshift b).map aesUnsub) k))

/-- Encrypt and decrypt one block under expanded keys. -/
def aesEnc (ks : List (List Byte)) (b : List Byte) : List Byte :=
  match ks with
  | [] => b
  | k :: rest => aesRounds rest (xorBytes b k)
def aesDec (ks : List (List Byte)) (b : List Byte) : List Byte :=
  match ks.reverse with
  | [] => b
  | k :: rest => aesUnrounds rest (xorBytes b k)

/-! ## XTS -/

/-- Multiply a tweak by the primitive element of GF(2^128) (IEEE 1619). -/
def xtsNext (t : List Byte) : List Byte :=
  let n := ofLe t
  let d := n * 2 % 2 ^ 128
  leBytes 16 (if n / 2 ^ 127 % 2 = 1 then d ^^^ 0x87 else d)

def xtsBlock (enc : Bool) (ks : List (List Byte)) (t b : List Byte) : List Byte :=
  xorBytes (if enc then aesEnc ks (xorBytes b t) else aesDec ks (xorBytes b t)) t

/-- The blocks of one data unit with ciphertext stealing; `fuel` covers the blocks. -/
def xtsBlocks (enc : Bool) (ks : List (List Byte)) : Nat → List Byte → List Byte → List Byte
  | 0, _, _ => []
  | n + 1, t, bs =>
    if bs.length ≤ 16 then xtsBlock enc ks t bs
    else if bs.length < 32 then
      let r := bs.length - 16
      let t1 := xtsNext t
      if enc then
        let c := xtsBlock true ks t (bs.take 16)
        xtsBlock true ks t1 (bs.drop 16 ++ c.drop r) ++ c.take r
      else
        let p := xtsBlock false ks t1 (bs.take 16)
        xtsBlock false ks t (bs.drop 16 ++ p.drop r) ++ p.take r
    else xtsBlock enc ks t (bs.take 16) ++ xtsBlocks enc ks n (xtsNext t) (bs.drop 16)

/-- One data unit under the two halves of a 64-byte key, with its 128-bit tweak (IEEE 1619). -/
def xtsUnit (enc : Bool) (key : List Byte) (tweak : Nat) (bs : List Byte) : List Byte :=
  let t := aesEnc (aesKeys (key.drop 32)) (leBytes 16 tweak)
  xtsBlocks enc (aesKeys (key.take 32)) (bs.length / 16 + 1) t bs

/-- A run of data units of `du` bytes with rising tweaks, modulo 2^128 (R279, R283). -/
def xtsRun (enc : Bool) (key : List Byte) (du tweak : Nat) (bs : List Byte) : List Byte :=
  ((chunksOf du bs).mapIdx fun i u => xtsUnit enc key ((tweak + i) % 2 ^ 128) u).flatten

/-! ## GCM -/

/-- One step of multiplication in the field of GHASH; the bits of the first factor go from the left. -/
def ghashStep (z v : Nat) (bit : Bool) : Nat × Nat :=
  (if bit then z ^^^ v else z, if v % 2 = 1 then (v / 2) ^^^ (0xE1 * 2 ^ 120) else v / 2)

/-- Multiplication in the field of GHASH. -/
def ghashMulFuel (x : Nat) : Nat → Nat → Nat → Nat
  | 0, z, _ => z
  | n + 1, z, v =>
    let (z1, v1) := ghashStep z v (x / 2 ^ n % 2 = 1)
    ghashMulFuel x n z1 v1
def ghashMul (x h : Nat) : Nat := ghashMulFuel x 128 0 h

def ghash (h : Nat) (blocks : List (List Byte)) : Nat :=
  blocks.foldl (fun y b => ghashMul (y ^^^ ofBe (padTo 16 b)) h) 0

/-- The keystream from a counter block upward, over the 32-bit counter. -/
def gcmCtr (ks : List (List Byte)) (nonce : List Byte) : Nat → List (List Byte) → List Byte
  | _, [] => []
  | c, b :: bs => xorBytes b (aesEnc ks (nonce ++ beBytes 4 (c % 2 ^ 32))) ++ gcmCtr ks nonce (c + 1) bs

/-- The 16-byte tag over additional data and ciphertext. -/
def gcmTag (ks : List (List Byte)) (nonce aad cipher : List Byte) : List Byte :=
  let h := ofBe (aesEnc ks (zeros 16))
  let s := ghash h (chunksOf 16 aad ++ chunksOf 16 cipher ++ [beBytes 8 (8 * aad.length) ++ beBytes 8 (8 * cipher.length)])
  xorBytes (beBytes 16 s) (aesEnc ks (nonce ++ [0, 0, 0, 1]))

/-- Ciphertext followed by the tag (R288, R289). -/
def gcmSeal (key nonce aad plain : List Byte) : List Byte :=
  let ks := aesKeys key
  let c := gcmCtr ks nonce 2 (chunksOf 16 plain)
  c ++ gcmTag ks nonce aad c

/-- The plaintext of a sealed segment, only when its tag matches (R290). -/
def gcmOpen (key nonce aad sealed : List Byte) : Option (List Byte) :=
  if sealed.length < 16 then none
  else
    let ks := aesKeys key
    let c := sealed.take (sealed.length - 16)
    if gcmTag ks nonce aad c = sealed.drop (sealed.length - 16) then some (gcmCtr ks nonce 2 (chunksOf 16 c)) else none

/-! ## Key wrap (NIST SP 800-38F, KW) -/

/-- One pass over the semiblocks, from step `t`. -/
def kwPass (ks : List (List Byte)) : Nat → List Byte → List (List Byte) → List Byte × List (List Byte)
  | _, a, [] => (a, [])
  | t, a, r :: rs =>
    let b := aesEnc ks (a ++ r)
    let (a1, rs1) := kwPass ks (t + 1) (xorBytes (b.take 8) (beBytes 8 t)) rs
    (a1, b.drop 8 :: rs1)
/-- One pass backward, over reversed semiblocks, from step `t`. -/
def kwUnpass (ks : List (List Byte)) : Nat → List Byte → List (List Byte) → List Byte × List (List Byte)
  | _, a, [] => (a, [])
  | t, a, r :: rs =>
    let b := aesDec ks (xorBytes a (beBytes 8 t) ++ r)
    let (a1, rs1) := kwUnpass ks (t - 1) (b.take 8) rs
    (a1, b.drop 8 :: rs1)

/-- The integrity value of KW. -/
def kwIv : List Byte := List.replicate 8 0xA6

def kwRounds (ks : List (List Byte)) (n : Nat) : Nat → List Byte × List (List Byte) → List Byte × List (List Byte)
  | 0, x => x
  | j + 1, x => kwRounds ks n j (kwPass ks ((6 - (j + 1)) * n + 1) x.1 x.2)
def kwUnrounds (ks : List (List Byte)) (n : Nat) : Nat → List Byte × List (List Byte) → List Byte × List (List Byte)
  | 0, x => x
  | j + 1, x => kwUnrounds ks n j (kwUnpass ks ((j + 1) * n) x.1 x.2)

/-- Wrap a key of whole semiblocks. -/
def kwWrap (kek plain : List Byte) : List Byte :=
  let rs := chunksOf 8 plain
  let (a, out) := kwRounds (aesKeys kek) rs.length 6 (kwIv, rs)
  a ++ out.flatten

/-- Unwrap, only when the integrity check passes. -/
def kwUnwrap (kek wrapped : List Byte) : Option (List Byte) :=
  let rs := chunksOf 8 (wrapped.drop 8)
  let (a, out) := kwUnrounds (aesKeys kek) rs.length 6 (wrapped.take 8, rs.reverse)
  if a = kwIv then some out.reverse.flatten else none

end Sys2Proof.Machine
end

