-- ==== Sys2Proof/Machine/Luns.lean ====
section
/-! DEFINITION. The pool of LUNs and their blocks, read levels, LUN queues with the arbitration between their commands, and the
withdrawal of reads (R157, R158, R164, R166, R167, R169, R171, R177, R206, R211, R231, R615). -/

namespace Sys2Proof.Machine

/-! ## The pool (R157, R158, R231) -/

/-- A channel is populated: the lowest of each island, the same number in each (R158), and not disabled at the first
initialisation after manufacture (R162). -/
def channelPopulated (s : State) (c : Nat) : Bool :=
  decide (c < 32) && decide (c % 8 < s.board.channels / 4) && !(c ∈ s.media.absent)

/-- A channel meets the conditions of R158 on the NAND population; the count of channels concerns every channel. -/
def channelFits (b : Board) (c : Nat) : Bool :=
  decide (b.channels ∈ [8, 16, 24, 32]) && decide (1 ≤ b.targets) && decide (b.targets ≤ 8) && decide (1 ≤ b.luns) && decide (b.luns ≤ 8) &&
  !(c ∈ b.misfits)

/-- The populated LUNs in ascending global LUN number: channel × 64 + target × 8 + LUN (R157). -/
def boardLuns (s : State) : List Nat :=
  ((List.range 32).filter (channelPopulated s)).flatMap fun c =>
    (List.range s.board.targets).flatMap fun t => (List.range s.board.luns).map fun l => c * 64 + t * 8 + l

def State.lun (s : State) (l : Nat) : Lun := s.media.luns.getD l Lun.reset
def State.setLun (s : State) (l : Nat) (x : Lun) : State :=
  s.onMedia fun m => { m with luns := Tbl.put Lun.reset m.luns l x }
def State.onLun (s : State) (l : Nat) (g : Lun → Lun) : State := s.setLun l (g (s.lun l))
def State.channel (s : State) (c : Nat) : Channel := s.media.channels.getD c Channel.reset
def State.onChannel (s : State) (c : Nat) (g : Channel → Channel) : State :=
  s.onMedia fun m => { m with channels := Tbl.put Channel.reset m.channels c (g (m.channels.getD c Channel.reset)) }

/-- The pool: every populated LUN that has not failed (R231). -/
def pool (s : State) : List Nat := (boardLuns s).filter fun l => !(s.lun l).failed

/-- The MEDIA island of a LUN. -/
def lunIsland (l : Nat) : Nat := l / 512

/-! ## Blocks (R206, R211) -/

/-- The size of a copy of each system area, in MiB (R174). -/
def areaMib (area : Nat) : Nat :=
  if area = areaBadBlocks then 4 else if area = areaConfig then 64 else if area = areaNonce then 16
  else if area = areaLedger then 1024 else if area = areaLifetime then 256 else 0
/-- The bytes of a block. -/
def blockBytes (b : Board) : Nat := 16384 * b.pagesPerBlock
/-- The LUNs of a dump set: every populated LUN on its channels (R174). -/
def setSize (b : Board) : Nat := b.channels / 2 * b.targets * b.luns
/-- The blocks of a LUN that the reserved areas take, the lowest ones: the factory page's, a copy of each system area, and the LUN's share
of the 640 MiB of its dump set. Where on a LUN the areas lie R174 does not say, nor what the LUNs other than S0 to S3 reserve: the model
reserves the room of a copy of each area on every LUN, since the copies of a failed system LUN move. DESIGN CHOICE
(notes/assumptions/20.md). -/
def Board.reservedBlocks (b : Board) : Nat :=
  1 + (([areaBadBlocks, areaConfig, areaNonce, areaLedger, areaLifetime].map fun a => ceilDiv (areaMib a * 2 ^ 20) (blockBytes b)).sum) +
    ceilDiv (ceilDiv (640 * 2 ^ 20) (setSize b)) (blockBytes b)
/-- Data-space blocks of a LUN: those past the reserved areas (R174; notes/assumptions/20.md). -/
def dataBlocks (b : Board) : Nat := b.blocksPerLun - b.reservedBlocks
/-- The global block number. -/
def blockNo (s : State) (lun block : Nat) : Nat := lun * s.board.blocksPerLun + block
/-- A block nothing has happened to, with the read count that recoveries gave every block (R210). -/
def freshBlock (s : State) : Block := { Block.fresh with reads := s.ftl.freshReads }
def State.block (s : State) (n : Nat) : Block := s.ftl.blocks.getD n (freshBlock s)
/-- Change a block table entry: its segment becomes dirty (R219; the model gives a block-table segment 2,720 entries,
notes/assumptions/53.md). -/
def State.onBlock (s : State) (n : Nat) (g : Block → Block) : State :=
  s.onFtl fun f =>
    { f with blocks := Tbl.put (freshBlock s) f.blocks n (g (f.blocks.getD n (freshBlock s))),
             blockDirty := if (f.blockDirty.find (n / 2720)).isSome then f.blockDirty else f.blockDirty.set (n / 2720) s.now }

/-- A block of a LUN that is still in the pool. -/
def blockInPool (s : State) (n : Nat) : Bool := !(s.lun (n / s.board.blocksPerLun)).failed
/-- G: good blocks of the data space. -/
def goodBlocks (s : State) : Nat :=
  (pool s).length * dataBlocks s.board - (s.ftl.blocks.filter fun e => e.2.retired && blockInPool s e.1).length
/-- Erased good blocks of the data space. -/
def freeBlocks (s : State) : Nat :=
  goodBlocks s - (s.ftl.blocks.filter fun e => e.2.inBand && !e.2.retired && blockInPool s e.1).length

/-- The free block of a LUN with the lowest erase count, and on a tie the lowest number (R206): a search over so many
blocks from one, with the best so far. -/
def pickBlockFuel (s : State) (lun : Nat) : Nat → Nat → Option (Nat × Nat) → Option (Nat × Nat)
  | 0, _, best => best
  | n + 1, b, best =>
    let k := s.block (blockNo s lun b)
    let best1 :=
      if k.inBand || k.retired then best
      else match best with
        | none => some (b, k.erases)
        | some x => if k.erases < x.2 then some (b, k.erases) else some x
    pickBlockFuel s lun n (b + 1) best1

def pickBlock (s : State) (lun : Nat) : Option Nat :=
  (pickBlockFuel s lun (dataBlocks s.board) s.board.reservedBlocks none).map (·.1)

/-- Free blocks of a LUN. -/
def lunFree (s : State) (lun : Nat) : Nat :=
  dataBlocks s.board -
    (s.ftl.blocks.filter fun e => decide (e.1 / s.board.blocksPerLun = lun) && (e.2.inBand || e.2.retired)).length

/-! ## Read levels (R169, R171, R175) -/

/-- The factory layer of a read level: only with the factory page. -/
def levelF (s : State) (lun level : Nat) : Int := if s.media.factoryPage then signed 8 (Config.levelFactory lun level).toNat else 0
def levelT (s : State) (lun level : Nat) : Int :=
  if s.media.factoryPage then signed 8 (Config.levelThermal (s.media.bands.getD (lun / 8) 0) level).toNat else 0

/-- Clamp a level to its window: ±127 steps without the factory page. -/
def levelClamp (s : State) (level : Nat) (v : Int) : Int :=
  if s.media.factoryPage then clampInt v (signed 8 (Config.levelLow level).toNat) (signed 8 (Config.levelHigh level).toNat)
  else clampInt v (-127) 127

/-- base of R171. -/
def levelBase (s : State) (lun level : Nat) : Int :=
  levelClamp s level (levelF s lun level + levelT s lun level + s.media.committed.getD (lun * 16 + level) 0)

/-- The retry offset of an entry: 0 for entry 0, and without the factory page. -/
def retryOffset (s : State) (h level : Nat) : Int :=
  if h = 0 ∨ !s.media.factoryPage then 0 else signed 8 (Config.retryOffset h level).toNat

/-- The soft step: without the factory page the parameter page gives it. -/
def softStep (s : State) : Int :=
  signed 8 (if s.media.factoryPage then Config.softStep else Config.parameterSoftStep).toNat

/-- The levels of a sense with a retry entry and a multiple of the soft step (R169, R171). -/
def senseLevels (s : State) (lun h : Nat) (soft : Int) : List Int :=
  (List.range s.board.levels).map fun v =>
    levelClamp s v (levelClamp s v (levelBase s lun v + retryOffset s h v) + soft * softStep s)

/-- The retry entries of step 2: the table without the hint's entry, at most 8 (R169). -/
def retryList (s : State) (hint : Nat) : List Nat := ((List.range (s.board.retryEntries + 1)).filter fun e => e ≠ hint).take 8

/-- The entry that the attempt of a codeword uses: the hint, or in step 2 an entry of the table. -/
def cwEntry (s : State) (w : CwState) : Nat := if w.step = 2 then (retryList s w.hint).getD (w.tried - 1) w.hint else w.hint

/-- The multiple of the soft step of the next sense of a codeword, by the senses that its attempt still waits for: ±1 in step 3,
±2 and ±3 in step 4. -/
def softMult (w : CwState) : Int :=
  if w.step = 3 then (if w.senses = 2 then -1 else 1)
  else if w.step = 4 then (if w.senses = 4 then -2 else if w.senses = 3 then 2 else if w.senses = 2 then -3 else 3)
  else 0

/-! ## LUN queues (R164, R166, R167, R615) -/

/-- A command senses a page. -/
def MediaCmd.isRead (c : MediaCmd) : Bool := match c.op with | .read .. => true | .resense .. => true | _ => false

/-- The class of a read's client (R164, R243). -/
def clientCls : ReadClient → Nat
  | .host _ => 1
  | .trail .. => 2
  | .recon cls _ => cls
  | _ => 3

/-- The arbiter's choice from a queue in arrival order: an aged write, host reads, aged internal reads, Trail reads,
internal reads, writes (R164). -/
def arbiter (q : List MediaCmd) (writes : Bool) : Option MediaCmd :=
  (q.find? fun c => writes && c.cls = 4 && c.aged).or <|
  (q.find? fun c => c.cls = 1).or <|
  (q.find? fun c => c.cls = 3 && c.aged).or <|
  (q.find? fun c => c.cls = 2).or <|
  (q.find? fun c => c.cls = 3).or <|
  q.find? fun c => writes && c.cls = 4

/-- Boot writes the stripes in flight of a dump again (R256 step 3). -/
def recoveringStripes (s : State) : Bool := s.sys.phase = .booting && decide (s.sys.bootStep = 11)

/-- Programs and erases may be issued: not above 150 °C, and not once a dump has begun (R166, R177, R539). -/
def writesAllowed (s : State) : Bool := !s.power.writesStopped && (s.sys.phase = .running || recoveringStripes s)

/-- A channel carries transfers: not while it retrains (R163). -/
def channelCarries (s : State) (c : Nat) : Bool := !(s.channel c).retraining

/-- The island of a LUN answers, its channel is in service, and the LUN has not failed. -/
def lunServes (s : State) (l : Nat) : Bool := !(s.lun l).failed && (s.channel (l / 64)).online && s.up (mediaIsland (lunIsland l))

def maxReads (s : State) (l : Nat) : Nat := s.regFld (rMedSuspend (lunIsland l)) 7 0

/-- A suspended operation resumes now: no read is queued, MAX_READS have begun, or READ_BUDGET has passed (R167). -/
def resumeDue (s : State) (l : Nat) (x : Lun) : Bool :=
  !(x.queue.any MediaCmd.isRead) || decide (maxReads s l ≤ x.readsBegun) || x.budgetOver

/-- Move waiting commands into the queue while their class has fewer than 8 entries there (R164). -/
def Lun.refill (x : Lun) : Lun :=
  x.backlog.foldl (fun y c =>
    if (y.queue.filter fun d => d.cls = c.cls).length < 8 then { y with queue := y.queue ++ [c], backlog := y.backlog.erase c } else y) x

/-- What kind of operation a command is, for a multi-plane group. -/
def MediaCmd.kind (c : MediaCmd) : Nat :=
  match c.op with
  | .read .. => 0 | .resense .. => 1 | .program .. => 2 | .rebuild .. => 3 | .reshape .. => 4 | .erase _ => 5 | .dump .. => 6

/-- The plane of a block. -/
def planeOf (s : State) (block : Nat) : Nat := block % (if s.board.planes = 0 then 1 else s.board.planes)

/-- A queued command can join a multi-plane operation with another: the same class, kind and page, and for reads the same hint,
since a sense has one set of levels (R159, R615; notes/assumptions/54.md). -/
def joins (s : State) (l : Nat) (c d : MediaCmd) : Bool :=
  d.cls = c.cls && d.kind = c.kind && d.page = c.page &&
  (c.kind ≠ 0 || (s.block (blockNo s l c.block)).hint = (s.block (blockNo s l d.block)).hint)

/-- A command with the queued commands that join it on other planes, up to 4 in all. -/
def planeGroup (s : State) (l : Nat) (q : List MediaCmd) (c : MediaCmd) : List MediaCmd :=
  q.foldl (fun g d =>
    if g.length < Nat.min 4 s.board.planes ∧ joins s l c d ∧ (g.all fun e => planeOf s e.block ≠ planeOf s d.block) then g ++ [d] else g) [c]

/-- A read whose sense begins: its codewords remember the hint of its block (R169). -/
def MediaCmd.withHint (s : State) (l : Nat) (c : MediaCmd) : MediaCmd :=
  match c.op with
  | .read cl cws => { c with op := .read cl (cws.map fun w => { w with hint := (s.block (blockNo s l c.block)).hint }) }
  | _ => c

/-- The read levels that a command sets, where it senses. -/
def levelsFor (s : State) (l : Nat) (c : MediaCmd) : List Int :=
  match c.op with
  | .read .. => senseLevels s l (s.block (blockNo s l c.block)).hint 0
  | .resense _ w => senseLevels s l (cwEntry s w) (softMult w)
  | _ => (s.lun l).levels

/-- The codewords of an island that soft decode holds: 2 decoders and a queue of 16 (R2, R169). -/
def softHeld (s : State) (n : Nat) : Nat :=
  ((s.media.luns.filter fun e => lunIsland e.1 = n).map fun e => (e.2.decoding.map fun c => match c.op with
    | .read _ cws => (cws.filter fun w => decide (3 ≤ w.step) && w.senses = 0).length
    | _ => 0).sum).sum

/-- A codeword's next sense may begin: the last one before soft decode needs room there. -/
def maySense (s : State) (l : Nat) (w : CwState) : Bool :=
  w.senses ≠ 0 && (decide (w.step < 3) || w.senses ≠ 1 || decide (softHeld s (lunIsland l) < 18))

/-- The next further sense that the ladders of a LUN wait for. A read that has begun goes on before the queue is looked at
(notes/assumptions/54.md). -/
def nextResense (s : State) (l : Nat) : Option MediaCmd :=
  (s.lun l).decoding.findSome? fun c => match c.op with
    | .read cl cws => (cws.find? (maySense s l)).map fun w => { c with op := .resense cl w }
    | _ => none

/-- The dump set of a LUN: 0 the even channels, 1 the odd (R174). -/
def setOf (l : Nat) : Nat := l / 64 % 2

/-- The pool LUNs of a dump set. -/
def setLuns (s : State) (k : Nat) : Nat := ((pool s).filter fun l => setOf l = k).length

/-! ## The dump at the LUNs (R253, R254) -/

/-- How the writing of a copy stands: copy 0 is A. -/
def DumpImage.run (d : DumpImage) (copy : Nat) : DumpRun := if copy = 0 then d.copyA else d.copyB
def DumpImage.onRun (d : DumpImage) (copy : Nat) (g : DumpRun → DumpRun) : DumpImage :=
  if copy = 0 then { d with copyA := g d.copyA } else { d with copyB := g d.copyB }
def State.onRun (s : State) (copy : Nat) (g : DumpRun → DumpRun) : State :=
  s.onStr fun t => { t with dump := t.dump.map fun d => d.onRun copy g }

/-- The pages of a copy that a LUN programs next, 4 planes at a time: those that failed elsewhere first, then in order; the trailer alone
and after every other page has been programmed. -/
def DumpImage.due (d : DumpImage) (copy : Nat) : List Nat :=
  let r := d.run copy
  let body := ((r.back.filter fun p => p ≠ d.pages - 1) ++ (List.range (Nat.min 4 (d.pages - 1 - r.next))).map (· + r.next)).take 4
  if !r.on then []
  else if !body.isEmpty then body
  else if d.pages - 1 ≤ r.done.length ∧ (r.next < d.pages ∨ d.pages - 1 ∈ r.back) then [d.pages - 1]
  else []

/-- A free LUN takes the next pages of the copy of its dump set. -/
def State.dumpNext (s : State) (l : Nat) : State :=
  match s.str.dump with
  | none => s
  | some d => match d.due (setOf l) with
    | [] => s
    | ps => (s.setLun l { s.lun l with active := [{ op := .dump (setOf l) ps, cls := 4, block := 0, page := 0, aged := false }],
                                       since := s.now }).onRun (setOf l) fun r =>
        { r with next := ps.foldl (fun n p => Nat.max n (p + 1)) r.next, back := r.back.filter fun p => !(p ∈ ps) }

/-- A copy is written in whole, or its set cannot write it any more. -/
def copyWritten (s : State) (copy : Nat) : Bool :=
  match s.str.dump with
  | none => true
  | some d => !(d.run copy).on || decide (d.pages ≤ (d.run copy).done.length) || !(pool s).any fun l => setOf l = copy && lunServes s l

/-- A command is an erase. -/
def MediaCmd.isErase (c : MediaCmd) : Bool := match c.op with | .erase _ => true | _ => false

/-- Another erase may run in the dump set of a LUN (R255). -/
def eraseRoom (s : State) (l : Nat) : Bool :=
  decide ((s.media.luns.filter fun e => setOf e.1 = setOf l && (e.2.active ++ e.2.suspended).any MediaCmd.isErase).length <
    Nat.max 1 (setLuns s (setOf l) / 8))

/-- The queued commands of a LUN that may begin. -/
def startable (s : State) (l : Nat) : List MediaCmd :=
  if eraseRoom s l then (s.lun l).queue else (s.lun l).queue.filter fun c => !c.isErase

/-- A LUN begins an operation from its queue. -/
def State.beginOp (s : State) (l : Nat) (g : List MediaCmd) (reads : Nat) : State :=
  let x := s.lun l
  s.setLun l { x with active := g.map (MediaCmd.withHint s l), since := s.now, levels := (g.head?.map (levelsFor s l)).getD x.levels,
                      queue := g.foldl List.erase x.queue, readsBegun := x.readsBegun + reads }.refill

/-- An idle LUN takes its next sense or command, or resumes what it holds suspended; during a dump, what it holds suspended and then the
next pages of the dump (R177, R253). -/
def State.lunNext (s : State) (l : Nat) : State :=
  let x := s.lun l
  if !x.active.isEmpty ∨ !lunServes s l then s
  else if s.sys.phase = .dumping ∧ x.suspended.isEmpty then s.dumpNext l
  else match nextResense s l with
    | some c => s.setLun l { x with active := [c], since := s.now, levels := levelsFor s l c }
    | none =>
      if !x.suspended.isEmpty then
        if resumeDue s l x then
          if x.decoding.isEmpty then
            s.setLun l { x with active := x.suspended, since := s.now, suspended := [], readsBegun := 0, budgetOver := false }
          else s
        else match arbiter x.queue false with
          | some c => let g := planeGroup s l x.queue c; s.beginOp l g g.length
          | none => s
      else match arbiter (startable s l) (writesAllowed s && channelCarries s (l / 64)) with
        | some c => s.beginOp l (planeGroup s l x.queue c) 0
        | none => s

/-- A command for a LUN: into its queue, or with a full class into the island's own (R164). -/
def State.enqueue (s : State) (l : Nat) (c : MediaCmd) : State :=
  (s.onLun l fun x => { x with backlog := x.backlog ++ [c] }.refill).lunNext l

/-! ## Withdrawal (R177) -/

/-- A media command reads for a client that passes a test. -/
def readsFor (p : ReadClient → Bool) (c : MediaCmd) : Bool := match c.op with | .read cl _ => p cl | _ => false

/-- Every LUN that holds an operation suspended looks whether it resumes. -/
def State.wakeAll (s : State) : State :=
  ((s.media.luns.filter fun e => !e.2.suspended.isEmpty).map (·.1)).foldl State.lunNext s

/-- Withdraw the reads of some clients, and their reconstructions: queued commands leave, ladders are abandoned, a sense under way ends
with nobody to deliver to (R177); a LUN that holds an operation suspended and no read any more resumes it (R167). -/
def State.withdraw (s : State) (p : ReadClient → Bool) : State :=
  let q := fun (c : ReadClient) => p c || match c with
    | .recon _ id => s.str.recons.any fun r => r.id = id && p r.client
    | _ => false
  (((s.onMedia fun m =>
    { m with luns := Tbl.mapVals m.luns fun _ x =>
        { x with queue := x.queue.filter fun c => !readsFor q c, backlog := x.backlog.filter fun c => !readsFor q c,
                 decoding := x.decoding.filter fun c => !readsFor q c }.refill }).onFtl
    fun f => { f with reads := f.reads.filter fun j => !p j.client }).onStr
    fun t => { t with recons := t.recons.filter fun r => !p r.client }).wakeAll

end Sys2Proof.Machine
end

