-- ==== Sys2Proof/Machine/DispOps.lean ====
section
/-! DEFINITION. Operations over flow contexts, the matching store, unit queues and output buffers (R45, R60, R74,
R80 to R110). -/

namespace Sys2Proof.Machine

/-! ## Flow contexts -/

def State.flow (s : State) (i : Nat) : Option Flow := s.disp.flows.find i
def State.onFlow (s : State) (i : Nat) (g : Flow → Flow) : State :=
  s.onDisp fun d => { d with flows := d.flows.modify i g }
/-- A flow context with a Trail bound to it. -/
def State.boundFlow (s : State) (i : Nat) : Option Flow :=
  match s.flow i with
  | some f => if f.bound then some f else none
  | none => none

/-- The Trail identifier (R45). -/
def trailId (i : Nat) (f : Flow) : W32 := w32 (i + f.generation * 4096)

/-- The effective CREDIT_LIMIT (R51, R60). -/
def Trail.credit (t : Trail) : Nat := if t.limit = 0 then 32 else t.limit
/-- The credits of each boundary pool (R89). -/
def Trail.window (t : Trail) : Nat := Nat.min (Trail.credit t) 32
def Trail.count (t : Trail) : Nat := t.stages.length
def Trail.stageAt (t : Trail) (i : Nat) : Option Stage := t.stages[i]?
/-- The index of the sink. -/
def Trail.sinkIx (t : Trail) : Nat := t.stages.length - 1

def Stage.isCipher : Stage → Bool
  | .xts .. => true | .gcm .. => true | _ => false
def Stage.isDigest : Stage → Bool
  | .digest .. => true | _ => false
def Stage.isProgram : Stage → Bool
  | .program .. => true | _ => false
def Stage.isGcmDecrypt : Stage → Bool
  | .gcm false .. => true | _ => false
def Stage.isGcmEncrypt : Stage → Bool
  | .gcm true .. => true | _ => false
def Stage.isSource : Stage → Bool
  | .lbaSource .. => true | .hostSource .. => true | .slmSource .. => true | _ => false
def Stage.isSink : Stage → Bool
  | .hostSink .. => true | .slmSink .. => true | .lbaSink .. => true | _ => false

/-- The sink delivers in order (R67). -/
def Trail.inOrder (t : Trail) : Bool := t.ordered || t.stages.any Stage.isGcmDecrypt

/-- A chained stage: a DIGEST stage, or a sink that delivers in order or packs (R61, R63, R86). -/
def Trail.chained (t : Trail) (i : Nat) : Bool :=
  match Trail.stageAt t i with
  | some (.digest ..) => true
  | some (.hostSink p ..) => Trail.inOrder t || decide (p = .packed)
  | some (.slmSink p ..) => Trail.inOrder t || decide (p = .packed)
  | some (.lbaSink p ..) => Trail.inOrder t || decide (p = .packed)
  | _ => false

/-- EXPECT of a stage (R86): bit 0 data, 1 key-ready, 2 credit, 3 state. -/
def Trail.expect (t : Trail) (i : Nat) : BitVec 4 :=
  match Trail.stageAt t i with
  | some st =>
    if Stage.isSource st then 4
    else if Stage.isCipher st then 7
    else if Trail.chained t i then 13
    else 5
  | none => 0

/-- KIND and OP of a stage (R53). -/
def Placement.op : Placement → Nat
  | .direct => 0 | .slotted => 1 | .packed => 2
def Stage.code : Stage → Nat × Nat
  | .lbaSource slotted .. => (0x01, if slotted then 1 else 0)
  | .hostSource sgl .. => (0x02, if sgl then 1 else 0)
  | .slmSource .. => (0x03, 0)
  | .xts enc .. => (0x10, if enc then 0 else 1)
  | .gcm enc .. => (0x10, if enc then 2 else 3)
  | .codec enc _ => (0x20, if enc then 0 else 1)
  | .reshuffle op .. => (0x30, op)
  | .lynx op .. => (0x40, op)
  | .digest alg .. => (0x50, alg)
  | .program .. => (0x60, 0)
  | .hostSink p .. => (0x70, p.op)
  | .slmSink p .. => (0x71, p.op)
  | .lbaSink p .. => (0x72, p.op)

/-- The unit class of a stage (R96). -/
def Stage.cls : Stage → UnitClass
  | .lbaSource .. => .media
  | .hostSource .. | .slmSource .. | .reshuffle .. | .hostSink .. | .slmSink .. => .dma
  | .xts .. | .gcm .. => .cipher
  | .codec .. => .codec
  | .lynx .. => .lynx
  | .digest .. => .digest
  | .program .. => .hart
  | .lbaSink .. => .wbuf

def clsCode : UnitClass → Nat
  | .media => 0 | .dma => 1 | .cipher => 2 | .digest => 3 | .codec => 4 | .lynx => 5 | .hart => 6 | .wbuf => 7

/-- The entries that Trail tasks may use in one input queue of a class (R96). -/
def queueRoom : UnitClass → Nat
  | .media => 256 | .dma => 128 | .cipher => 48 | .digest => 96 | .codec => 48 | .lynx => 24 | .hart => 32 | .wbuf => 128

/-- The source chunk size in bytes (R48). -/
def Trail.chunkBytes (t : Trail) : Nat :=
  if t.recordSize = 0 then 65536 else 8 * (8192 / t.recordSize) * t.recordSize

/-! ## Output buffers (R95) -/

def State.buf (s : State) (b : Nat) : Option Payload := s.disp.bufs.find b
def State.setBuf (s : State) (b : Nat) (p : Payload) : State := s.onDisp fun d => { d with bufs := d.bufs.set b p }
def State.freeBuf (s : State) (b : Option Nat) : State :=
  match b with
  | some n => s.onDisp fun d => { d with bufs := d.bufs.erase n }
  | none => s
/-- A withheld location of the staging SRAM (R425) takes a buffer out of use: it lies in the 131,072 bytes at the buffer's address,
which counts from the start of the SRAM. Where a buffer lies the spec does not say. DESIGN CHOICE (notes/assumptions/6.md and 50.md). -/
def bufWithheld (s : State) (n : Nat) : Bool :=
  s.memory.withheld.any fun r => decide (4 ≤ r.1) && decide (r.1 < 12) &&
    decide ((r.2 - 0x10000000000) / 131072 = (Config.bufferUnit n).toNat / 2048)
/-- The lowest free output buffer: staging SRAM first, then the spill pool. -/
def State.bufFree (s : State) : Option Nat :=
  (List.range 448).find? (fun n => (s.disp.bufs.find n).isNone && !bufWithheld s n) |>.orElse fun _ =>
    Tbl.lowestFree s.disp.bufs 448 16384
def State.allocBuf (s : State) : Option (Nat × State) :=
  match s.bufFree with
  | some n => some (n, s.setBuf n { bytes := [], sealed := none })
  | none => none

/-! ## Matching-store occupancy (R80, R107, R115) -/

def sharedUsed (s : State) : Nat := (s.disp.entries.filter fun e => !e.fromReserve).length
def sharedFree (s : State) : Nat :=
  61440 - sharedUsed s - (s.memory.withheld.filter fun r => decide (r.1 = 20)).length
/-- A source task some of whose reads wait for room in a LUN's queue keeps its entry in its island's input queue (R96, R164). -/
def readsWait (s : State) (t : Task) : Bool :=
  s.media.luns.any fun l => l.2.backlog.any fun c => match c.op with
    | .read (.trail f k) _ => decide (f = t.flow) && decide (k = t.cslot)
    | _ => false
/-- Entries that something other than a queued task holds: source tasks whose reads wait, and the NVM and Key Value writes that the
buffer has admitted and whose data has not arrived (R96; notes/assumptions/58.md). -/
def otherFill (s : State) (c : UnitClass) (p : Running → Bool) : Nat :=
  match c with
  | .media => (s.disp.running.filter fun r => decide (r.cls = .media) && p r && readsWait s r.task).length
  | .wbuf => (s.ftl.admitted.filter fun a => match a.kind with | .sink .. => false | _ => true).length
  | _ => 0
/-- Entries of the queue of a class, over its islands or clusters (R117): a task in a prefetch stage counts as queued (R104). -/
def queueFill (s : State) (c : UnitClass) : Nat :=
  (s.disp.queues.filter fun q => decide (q.1 = c)).length + (s.disp.prefetch.filter fun p => decide (p.cls = c)).length +
  otherFill s c fun _ => true
/-- Entries of one input queue; the classes that prefetch have one queue. -/
def queueFillOf (s : State) (c : UnitClass) (u : Nat) : Nat :=
  (s.disp.queues.filter fun q => decide (q.1 = c) && decide (q.2.1 = u)).length +
  (s.disp.prefetch.filter fun p => decide (p.cls = c) && decide (u = 0)).length + otherFill s c fun r => decide (r.unit = u)
/-- The fragments of a message of so many bytes, by offset and length: 131,072 bytes each but the last (R312). -/
def messageFragments (n : Nat) : List (Nat × Nat) :=
  (List.range ((n + 131071) / 131072)).map fun i => (131072 * i, Nat.min 131072 (n - 131072 * i))
/-- The fragment lists that the security core submits to measure so many bytes of an image, 32 fragments a list. R312 does not say how
a message of more than 32 fragments is given: the model takes as many lists as it needs. DESIGN CHOICE (notes/assumptions/35.md). -/
def imageJobs (n : Nat) : List (List (Nat × Nat)) :=
  (List.range ((n + 4194303) / 4194304)).map fun i => ((messageFragments n).drop (32 * i)).take 32
/-- The job queue of firmware at the digest engine: the lists of the load at step 3 of R144. The firmware of the management harts is not
of this model and submits none. -/
def digestJobs (s : State) : List (List (Nat × Nat)) :=
  match s.hrt.loads with
  | l :: _ => if l.step = 2 then imageJobs (leAt l.image 0x20 4) else []
  | [] => []
def unitClasses : List UnitClass := [.media, .dma, .cipher, .digest, .codec, .lynx, .hart, .wbuf]
/-- PEAK of a class's queue takes in a fill (R117). -/
def State.queuePeak (s : State) (c : UnitClass) (fill : Nat) : State :=
  if s.regFld (rDspQueue (clsCode c)) 22 12 < fill then s.setReg (rDspQueue (clsCode c)) (w32 (fill * 4096)) else s
/-- The engine work of an NVM or Key Value command takes one of the queue entries of a class that R96 reserves, and gives it
back when the work is done: in this model within the same step (notes/assumptions/50.md). -/
def State.nvmWork (s : State) (c : UnitClass) : State := s.queuePeak c (queueFill s c + 1)

/-- Bring the shared-pool stop, the peak occupancy and the queue peaks up to date (R107, R115, R117). -/
def State.poolUpdate (s : State) : State :=
  let used := sharedUsed s
  let stop := s.regFld rDspThresh 15 8 * 256
  let resume := s.regFld rDspThresh 7 0 * 256
  let s1 := s.onDisp fun d =>
    { d with sourcesStopped := if stop ≤ used then true else if used ≤ resume then false else d.sourcesStopped }
  let all := s.disp.entries.length
  let s2 := if (s1.reg rDspPeak).toNat < all then s1.setReg rDspPeak (w32 all) else s1
  unitClasses.foldl (fun t c => t.queuePeak c (queueFill t c)) s2

/-! ## Entries -/

def isEntry (flow stage cslot : Nat) (e : Task) : Bool :=
  decide (e.flow = flow) && decide (e.stage = stage) && decide (e.cslot = cslot)
def State.entry (s : State) (flow stage cslot : Nat) : Option Task := s.disp.entries.find? (isEntry flow stage cslot)
def State.dropEntry (s : State) (flow stage cslot : Nat) : State :=
  (match s.entry flow stage cslot with
   | some e =>
     (s.onDisp fun d => { d with entries := d.entries.filter fun x => !isEntry flow stage cslot x }).onFlow flow fun f =>
       if e.fromReserve then { f with reserveUsed := false } else f
   | none => s)
def State.onEntry (s : State) (flow stage cslot : Nat) (g : Task → Task) : State :=
  s.onDisp fun d => { d with entries := d.entries.map fun e => if isEntry flow stage cslot e then g e else e }

/-- READY (R82, R93). -/
def Task.ready (e : Task) : Bool := !e.discard && decide (e.arrived &&& e.expect = e.expect)

/-- The 32 bytes of a matching-store entry (R82). The address of a payload buffer in 64-byte units is the implementation's. -/
def Task.image (e : Task) : List Byte :=
  leBytes 2 (e.flow % 4096 + e.gen % 16 * 4096) ++ leBytes 1 e.stage ++ leBytes 1 e.cslot ++ leBytes 1 e.expect.toNat ++
  leBytes 1 e.arrived.toNat ++
  leBytes 1 (1 + bitIf (decide (e.arrived = e.expect)) 1 + bitIf e.fromReserve 2 + bitIf e.discard 3 + bitIf e.empty 4 +
    bitIf e.skipped 5) ++ zeros 1 ++ leBytes 8 e.chunk ++
  leBytes 4 (match e.buf with | some b => (Config.bufferUnit b).toNat | none => 0) ++ leBytes 4 e.len ++ leBytes 8 (e.token.getD 0)
/-- The words that the store keeps of an entry: its four words, with word 0 twice (R82). -/
def Task.words (e : Task) : List (List Byte) := e.image.take 8 :: chunksOf 8 e.image

/-- The index of a new entry: its flow's reserve at the end of the store, or the lowest free one of the shared pool that no
repair withholds (notes/assumptions/50.md). -/
def newIndex (s : State) (flow : Nat) (reserve : Bool) : Nat :=
  if reserve then 61440 + flow
  else
    let held := s.memory.withheld.filter fun r => decide (r.1 = 20)
    ((List.range (s.disp.entries.length + held.length + 1)).find? fun i =>
      (s.disp.entries.all fun e => decide (e.index ≠ i)) && (held.all fun r => decide (r.2 / 32 ≠ i))).getD 0

/-- The chunk in a chunk slot of a flow. -/
def Flow.chunkIn (f : Flow) (cslot : Nat) : Option Nat := (f.unretired.find? fun p => decide (p.1 = cslot)).map (·.2)
/-- The oldest unretired chunk. -/
def Flow.oldest (f : Flow) : Option Nat := (f.unretired.map (·.2)).min?

/-- The tag of a token (R84): its kind, the low 4 bits of the generation of its Trail, and the entry that it fills. -/
structure Tag where
  kind  : Nat
  gen   : Nat
  stage : Nat
  cslot : Nat
  flow  : Nat
  deriving DecidableEq, Repr

/-- The 32 bits of a tag. -/
def Tag.word (t : Tag) : W32 := w32 (t.kind * 2 ^ 30 + t.gen % 16 * 2 ^ 26 + t.stage * 2 ^ 22 + t.cslot * 2 ^ 12 + t.flow)
/-- The tag that a word spells. -/
def Tag.of (w : W32) : Tag := { kind := fld w 31 30, gen := fld w 29 26, stage := fld w 25 22, cslot := fld w 19 12, flow := fld w 11 0 }
/-- The bit of ARRIVED that a token sets. -/
def Tag.bit (t : Tag) : BitVec 4 := BitVec.ofNat 4 (2 ^ t.kind)
/-- The tag of the standing key-ready token of a stage of a Trail. -/
def keyTag (gen flow stage : Nat) : Tag := { kind := 1, gen := gen % 16, stage := stage, cslot := 0, flow := flow }
/-- The tag of the credit of a task's own entry. -/
def Task.creditTag (t : Task) : Tag := { kind := 2, gen := t.gen % 16, stage := t.stage, cslot := t.cslot, flow := t.flow }
/-- The tag of a token that a task sends: its data token to the next stage of its chunk, its state token to its own stage of the
chunk in a slot. -/
def Task.dataTag (t : Task) : Tag := { kind := 0, gen := t.gen % 16, stage := t.stage + 1, cslot := t.cslot, flow := t.flow }
def Task.stateTag (t : Task) (cslot : Nat) : Tag := { kind := 3, gen := t.gen % 16, stage := t.stage, cslot := cslot, flow := t.flow }

/-- A new entry for a stage of a chunk: EXPECT from the stage, the standing key-ready token, the immediate grant of a
memory sink, and a parked state token that is for this chunk (R86, R87, R91). -/
def newEntry (f : Flow) (index flow stage cslot chunk : Nat) (reserve : Bool) : Task :=
  let t := f.trail
  let key : BitVec 4 := if stage ∈ f.keyReady then (keyTag f.generation flow stage).bit else 0
  let grant : BitVec 4 := match Trail.stageAt t stage with
    | some (.hostSink ..) => 4
    | some (.slmSink ..) => 4
    | _ => 0
  let park := match f.parked.find stage with
    | some (k, v) => if k = chunk then some v else none
    | none => none
  let state : BitVec 4 := if park.isSome then 8 else 0
  { index := index, flow := flow, gen := f.generation, stage := stage, cslot := cslot, chunk := chunk, expect := Trail.expect t stage,
    arrived := key ||| grant ||| state, fromReserve := reserve, discard := f.stopped, empty := false, skipped := false,
    buf := none, len := 0, token := park, out := none }

/-- Create the entry, taking the parked token and the reserve it uses. -/
def State.addEntry (s : State) (flow stage cslot chunk : Nat) (reserve : Bool) : State :=
  match s.flow flow with
  | none => s
  | some f =>
    let e := newEntry f (newIndex s flow reserve) flow stage cslot chunk reserve
    ((s.onDisp fun d => { d with entries := d.entries ++ [e] }).onFlow flow fun f =>
      { f with reserveUsed := f.reserveUsed || reserve,
               parked := if e.token.isSome then f.parked.erase stage else f.parked }).poolUpdate

/-- Return a credit to the pool of a boundary (R89). -/
def State.returnCredit (s : State) (flow boundary : Nat) : State :=
  s.onFlow flow fun f => { f with pools := f.pools.mapIdx fun i n => if i = boundary then n + 1 else n }
def State.takeCredit (s : State) (flow boundary : Nat) : State :=
  s.onFlow flow fun f => { f with pools := f.pools.mapIdx fun i n => if i = boundary then n - 1 else n }

/-! ## Tokens (R84 to R87, R110) -/

/-- The tasks of a flow that run: on a unit or on a hart. -/
def runningOf (s : State) (flow : Nat) : List Task :=
  ((s.disp.running.filter fun r => decide (r.task.flow = flow)).map (·.task)) ++
  ((s.hrt.harts.filterMap fun h => h.2.kernel).map (·.task)).filter fun t => decide (t.flow = flow)

/-- A producer of a token for an entry is still running (R110). -/
def producerRuns (s : State) (e : Task) : Bool :=
  (runningOf s e.flow).any fun t =>
    (decide (t.stage + 1 = e.stage) && decide (t.chunk = e.chunk)) ||
    (decide (t.stage = e.stage) && decide (t.chunk + 1 = e.chunk) && e.expect.getLsbD 3)

/-- Free a discarded entry that no running task can send a token to (R110). -/
def State.freeDiscarded (s : State) (flow stage cslot : Nat) : State :=
  match s.entry flow stage cslot with
  | some e => if e.discard && !producerRuns s e then (s.dropEntry flow stage cslot).poolUpdate else s
  | none => s

/-- A token is stale: its flow context is unbound, or bound to a Trail of another generation (R109). -/
def staleTag (s : State) (t : Tag) : Bool :=
  match s.boundFlow t.flow with
  | some f => decide (f.generation % 16 ≠ t.gen)
  | none => true

/-- A stale token is discarded and counted in STALE_TOKENS, which saturates (R109, R116). -/
def State.countStale (s : State) : State :=
  s.setBits rDspFaults 0xFFFF0000#32 (w32 (satAdd 0xFFFF (s.regFld rDspFaults 31 16) 1 * 65536))

/-- A token fills the entry that its tag names: it sets its bit of ARRIVED and what it carries (R82, R84). -/
def State.arrive (s : State) (tag : Tag) (g : Task → Task) : State :=
  s.onEntry tag.flow tag.stage tag.cslot fun e => g { e with arrived := e.arrived ||| tag.bit }

/-- A credit or a sink grant arrives for a task (R89, R91). -/
def State.creditToken (s : State) (e : Task) : State := s.arrive e.creditTag id

/-- A data token fills the entry that its tag names. A stale token is discarded and counted; one for a discarded entry, or for
no entry, is dropped; the buffer of each is freed. A discarded entry goes once no other producer of a token for it runs (R109,
R110). -/
def State.dataToken (s : State) (tag : Tag) (buf : Option Nat) (len : Nat) (skipped : Bool) : State :=
  if staleTag s tag then (s.freeBuf buf).countStale
  else match s.entry tag.flow tag.stage tag.cslot with
  | none => s.freeBuf buf
  | some e =>
    if e.discard then (s.freeBuf buf).freeDiscarded tag.flow tag.stage tag.cslot
    else
      let s1 := if len = 0 then s.freeBuf buf else s
      s1.arrive tag fun e =>
        { e with buf := if len = 0 then none else buf, len := len, empty := decide (len = 0), skipped := skipped }

/-- The tag of the state token that a task sends to the next chunk at its stage: its chunk slot is that chunk's once it is issued. -/
def nextTag (s : State) (t : Task) : Tag :=
  t.stateTag (match s.flow t.flow with
    | some f => ((f.unretired.find? fun p => decide (p.2 = t.chunk + 1)).map (·.1)).getD 0
    | none => 0)

/-- The state token of a task fills the entry of the next chunk at its stage, or is parked in the flow context (R87); a stale one
is discarded and counted (R109). -/
def State.stateToken (s : State) (t : Task) (value : Nat) : State :=
  let tag := nextTag s t
  if staleTag s tag then s.countStale
  else match (s.entry tag.flow tag.stage tag.cslot).filter fun e => decide (e.chunk = t.chunk + 1) with
  | some e =>
    if e.discard then s.freeDiscarded tag.flow tag.stage tag.cslot
    else s.arrive tag fun e => { e with token := some value }
  | none => s.onFlow t.flow fun f => { f with parked := f.parked.set t.stage (t.chunk + 1, value) }

/-! ## Failure, discard and retirement (R73, R74, R100, R103, R110) -/

def freeTask (s : State) (t : Task) : State := (s.freeBuf t.buf).freeBuf t.out
def freeTasks (s : State) (ts : List Task) : State := ts.foldl freeTask s

/-- Discard every task of a flow that has not started: its entries, its queued and prefetched tasks and its Squirrel
slots. An entry whose producer still runs stays until the token arrives (R74, R103, R104, R110). -/
def State.discardFlow (s : State) (flow : Nat) : State :=
  let mine := fun (t : Task) => decide (t.flow = flow)
  let gone := s.disp.entries.filter fun e => mine e && !producerRuns s e
  let queued := (s.disp.queues.filter fun q => mine q.2.2).map (·.2.2)
  let fetched := (s.disp.prefetch.filter fun p => mine p.task).map (·.task)
  let squirrels := (s.hrt.harts.filterMap fun h => h.2.squirrel.map (·.task)).filter mine
  let held := s.disp.entries.filter fun e => mine e && producerRuns s e
  let s1 := freeTasks s (gone ++ queued ++ fetched ++ squirrels ++ held)
  let s2 := s1.onDisp fun d =>
    { d with
      entries := (d.entries.filter fun e => !mine e || producerRuns s e).map fun e =>
        if mine e then { e with discard := true, buf := none } else e
      queues := d.queues.filter fun q => !mine q.2.2
      prefetch := d.prefetch.filter fun p => !mine p.task }
  let s3 := s2.onHrt fun h =>
    { h with harts := h.harts.map fun x => (x.1, { x.2 with squirrel := x.2.squirrel.filter fun t => !mine t.task }) }
  let s4 := s3.onFlow flow fun f => { f with reserveUsed := held.any (·.fromReserve) }
  s4.poolUpdate

/-- The failure of R73 rule 1: the one with the lowest chunk sequence number. -/
def worse (old : Option Failure) (new : Failure) : Option Failure :=
  match old with
  | some o => if new.chunk < o.chunk then some new else some o
  | none => some new

/-- The media reads of a failed or cancelled Trail are withdrawn, and with them end its source tasks that wait for them: no data is
delivered (R177). -/
def State.stopSource (s : State) (flow : Nat) : State :=
  let mine := fun (r : Running) => decide (r.cls = .media) && decide (r.task.flow = flow)
  let s1 := freeTasks s ((s.disp.running.filter mine).map (·.task))
  (s1.onDisp fun d => { d with running := d.running.filter fun r => !mine r }).withdraw fun c => match c with
    | .trail f _ => f = flow
    | _ => false

/-- Record a failure of a Trail; its source stops and its unstarted tasks are discarded (R73, R74). -/
def State.failFlow (s : State) (flow chunk stage : Nat) (st : Status) : State :=
  let s1 := if isMediaError st then s.addLife (lifeDev 2) 1 else s
  ((s1.onFlow flow fun f =>
    { f with stopped := true, failCount := satAdd 0xFFFFFFFF f.failCount 1,
             failure := worse f.failure { chunk := chunk, stage := stage, status := st } }).stopSource flow).discardFlow flow

/-- A task fails: its buffers are freed and its Trail ends by R74. -/
def State.failTask (s : State) (t : Task) (st : Status) : State :=
  (freeTask s t).failFlow t.flow t.chunk t.stage st

/-- Record the first length mismatch of a Trail (R70). -/
def State.mismatch (s : State) (flow stage declared actual : Nat) : State :=
  s.onFlow flow fun f =>
    if f.mismatch.isSome then f else { f with mismatch := some { stage := stage, declared := declared, actual := actual } }

/-- Advance LOW_WATER over the delivered chunks that follow it (R72). -/
def lowWaterFuel : Nat → Nat → List Nat → Nat × List Nat
  | 0, w, ds => (w, ds)
  | n + 1, w, ds => if w ∈ ds then lowWaterFuel n (w + 1) (ds.filter fun d => d ≠ w) else (w, ds)

/-- A chunk retires when its sink task completes: its slot is free, D advances, and it counts as delivered
(R60, R73, R100). -/
def State.retireChunk (s : State) (t : Task) (bytes : Nat) : State :=
  s.onFlow t.flow fun f =>
    let ds := f.delivered ++ [t.chunk]
    let (w, rest) := lowWaterFuel ds.length f.lowWater ds
    { f with retired := f.retired + 1, unretired := f.unretired.filter fun p => p.1 ≠ t.cslot, bytes := f.bytes + bytes,
             lowWater := w, delivered := rest }

/-- Every task of a flow has ended: nothing of it waits, is queued or runs. -/
def flowDrained (s : State) (flow : Nat) : Bool :=
  (s.disp.entries.all fun e => !decide (e.flow = flow)) && (s.disp.queues.all fun q => !decide (q.2.2.flow = flow)) &&
  (s.disp.prefetch.all fun p => !decide (p.task.flow = flow)) && (runningOf s flow).isEmpty &&
  (s.hrt.harts.all fun h => match h.2.squirrel with | some t => !decide (t.task.flow = flow) | none => true)

/-- The Trail of a flow is over: its tasks have ended and its source issues no more (R71); only its results and its record are
still to be written. -/
def flowOver (s : State) (i : Nat) (f : Flow) : Bool :=
  flowDrained s i && (f.stopped || (f.lastIssued && decide (f.retired = f.issued)))

/-- Remove every trace of a Trail's tasks, running ones included (R76, R486, R524). -/
def State.purgeFlow (s : State) (flow : Nat) : State :=
  let s1 := s.discardFlow flow
  let mine := fun (t : Task) => decide (t.flow = flow)
  let s2 := freeTasks s1 (runningOf s1 flow)
  let s3 := (s2.onDisp fun d =>
    { d with entries := d.entries.filter fun e => !mine e, running := d.running.filter fun r => !mine r.task }).onFlow flow fun f =>
    { f with reserveUsed := false }
  (s3.onHrt fun h =>
    { h with harts := h.harts.map fun x =>
        (x.1, { x.2 with kernel := x.2.kernel.filter fun k => !mine k.task }) }).poolUpdate

/-! ## The dispatcher's choice between tasks (R97, R475) -/

/-- The next of some numbers after one, in ascending order, round to the lowest. -/
def nextAfter (last : Option Nat) (xs : List Nat) : Option Nat :=
  ((xs.filter fun x => last.all fun l => l < x).min?).orElse fun _ => xs.min?

/-- The function whose turn it is among those that wait: round robin over those with turns left in the round, over all where
none has any left (notes/assumptions/50.md). -/
def Arb.fnTurn (a : Arb) (weight : Fn → Nat) (fns : List Fn) : Option Fn :=
  let left := fns.filter fun f => decide (Tbl.getD a.used f 0 < weight f)
  nextAfter a.lastFn (if left.isEmpty then fns else left)

/-- The flow whose turn it is: of the flows of that function, round robin. -/
def Arb.flowTurn (a : Arb) (weight : Fn → Nat) (waiting : List (Fn × Nat)) : Option Nat :=
  match a.fnTurn weight (waiting.map (·.1)) with
  | some f => nextAfter (Tbl.find a.lastFlow f) ((waiting.filter fun w => w.1 = f).map (·.2))
  | none => none

/-- A flow of a function has its turn; a function that had none left opens the next round. -/
def Arb.serve (a : Arb) (weight : Fn → Nat) (f : Fn) (flow : Nat) : Arb :=
  let used := if Tbl.getD a.used f 0 < weight f then a.used else []
  { used := used.set f (Tbl.getD used f 0 + 1), lastFn := some f, lastFlow := a.lastFlow.set f flow }

/-- The arbiters: one for each input queue of a class, and one for the shared pool. -/
def queueArb (c : UnitClass) (queue : Nat) : Nat := clsCode c * 16 + queue
def poolArb : Nat := 128
def State.arb (s : State) (i : Nat) : Arb := Tbl.getD s.disp.arbs i Arb.reset
def State.served (s : State) (i : Nat) (f : Fn) (flow : Nat) : State :=
  s.onDisp fun d => { d with arbs := d.arbs.set i ((s.arb i).serve (fun x => (s.ctrl x).share.weight) f flow) }
/-- Among the tasks that compete, a flow has its turn, and of its tasks this one has the lowest chunk. -/
def isTurn (s : State) (i : Nat) (tasks : List (Fn × Task)) (e : Task) : Bool :=
  decide ((s.arb i).flowTurn (fun x => (s.ctrl x).share.weight) (tasks.map fun t => (t.1, t.2.flow)) = some e.flow) &&
  tasks.all fun t => decide (t.2.flow ≠ e.flow) || decide (e.chunk ≤ t.2.chunk)

/-- The flow contexts bound to Trails of a function. -/
def flowsOf (s : State) (f : Fn) : List Nat :=
  (s.disp.flows.filter fun e => e.2.bound && decide (e.2.owner = f)).map (·.1)

end Sys2Proof.Machine
end

