-- ==== Sys2Proof/Machine/Sha.lean ====
section
/-! DEFINITION. The hash functions of the digest engine (R310): SHA-256, SHA-384 and SHA-512 of FIPS 180-4,
SHA3-256, SHA3-384 and SHAKE256 of FIPS 202, HMAC of FIPS 198-1 and HKDF of RFC 5869, and the CRC-32C of record
headers (notes/assumptions/13.md). The constants of SHA-2 are the fraction bits of roots of primes, as FIPS 180-4
defines them, and are computed here from that definition. -/

namespace Sys2Proof.Machine

/-! ## Constants of SHA-2 -/

def isPrimeFuel (n : Nat) : Nat → Bool
  | 0 => true
  | k + 1 => (k + 1 < 2 || n % (k + 1) ≠ 0) && isPrimeFuel n k
def isPrime (n : Nat) : Bool := 2 ≤ n && isPrimeFuel n (n - 1)

/-- The first primes, below a bound that covers the 80 of SHA-512. -/
def primes (n : Nat) : List Nat := ((List.range 410).filter isPrime).take n

/-- The largest number whose p-th power is at most x, by bits from 2^k down. -/
def rootFuel (p x : Nat) : Nat → Nat → Nat
  | 0, r => r
  | k + 1, r => rootFuel p x k (if (r + 2 ^ k) ^ p ≤ x then r + 2 ^ k else r)

/-- The first `b` fraction bits of the p-th root of n. -/
def rootFrac (p b n : Nat) : Nat := rootFuel p (n * 2 ^ (p * b)) (b + 6) 0 % 2 ^ b

def sha256K : List (BitVec 32) := (primes 64).map fun q => BitVec.ofNat 32 (rootFrac 3 32 q)
def sha512K : List (BitVec 64) := (primes 80).map fun q => BitVec.ofNat 64 (rootFrac 3 64 q)
def sha256H : List (BitVec 32) := (primes 8).map fun q => BitVec.ofNat 32 (rootFrac 2 32 q)
def sha512H : List (BitVec 64) := (primes 8).map fun q => BitVec.ofNat 64 (rootFrac 2 64 q)
/-- The initial value of SHA-384: the ninth through sixteenth primes. -/
def sha384H : List (BitVec 64) := ((primes 16).drop 8).map fun q => BitVec.ofNat 64 (rootFrac 2 64 q)

/-! ## SHA-2 over words of `w` bits -/

/-- The rotation amounts of a SHA-2 function: Σ0, Σ1, σ0, σ1 (the last of each σ is a shift). -/
structure ShaRot where
  a0 : Nat
  a1 : Nat
  a2 : Nat
  b0 : Nat
  b1 : Nat
  b2 : Nat
  c0 : Nat
  c1 : Nat
  c2 : Nat
  d0 : Nat
  d1 : Nat
  d2 : Nat

def rot256 : ShaRot := ⟨2, 13, 22, 6, 11, 25, 7, 18, 3, 17, 19, 10⟩
def rot512 : ShaRot := ⟨28, 34, 39, 14, 18, 41, 1, 8, 7, 19, 61, 6⟩

/-- The message schedule, newest word first, `n` more words. -/
def shaSchedule {w : Nat} (r : ShaRot) : Nat → List (BitVec w) → List (BitVec w)
  | 0, ws => ws
  | n + 1, ws =>
    let x := ws.getD 14 0
    let y := ws.getD 1 0
    let s0 := x.rotateRight r.c0 ^^^ x.rotateRight r.c1 ^^^ (x >>> r.c2)
    let s1 := y.rotateRight r.d0 ^^^ y.rotateRight r.d1 ^^^ (y >>> r.d2)
    shaSchedule r n ((ws.getD 15 0 + s0 + ws.getD 6 0 + s1) :: ws)

/-- One round for each (constant, schedule word). -/
def shaRounds {w : Nat} (r : ShaRot) : List (BitVec w × BitVec w) → List (BitVec w) → List (BitVec w)
  | [], st => st
  | (k, x) :: rest, [a, b, c, d, e, f, g, h] =>
    let s1 := e.rotateRight r.b0 ^^^ e.rotateRight r.b1 ^^^ e.rotateRight r.b2
    let t1 := h + s1 + ((e &&& f) ^^^ (~~~e &&& g)) + k + x
    let s0 := a.rotateRight r.a0 ^^^ a.rotateRight r.a1 ^^^ a.rotateRight r.a2
    let t2 := s0 + ((a &&& b) ^^^ (a &&& c) ^^^ (b &&& c))
    shaRounds r rest [t1 + t2, a, b, c, d + t1, e, f, g]
  | _, st => st

/-- Absorb one block. -/
def shaBlock {w : Nat} (r : ShaRot) (ks : List (BitVec w)) (st : List (BitVec w)) (block : List Byte) : List (BitVec w) :=
  let ws := (chunksOf (w / 8) block).map fun b => BitVec.ofNat w (ofBe b)
  let sched := (shaSchedule r (ks.length - 16) ws.reverse).reverse
  List.zipWith (· + ·) st (shaRounds r (ks.zip sched) st)

/-- The padding of SHA-2 for a block of `b` bytes: a 1 bit, zeros and the length in bits. -/
def shaPad (b : Nat) (msg : List Byte) : List Byte :=
  let n := msg.length
  let z := (2 * b - 1 - b / 8 - n % b) % b
  msg ++ [0x80] ++ zeros z ++ beBytes (b / 8) (8 * n)

def shaRun {w : Nat} (r : ShaRot) (ks h : List (BitVec w)) (msg : List Byte) : List Byte :=
  let st := (chunksOf (2 * w) (shaPad (2 * w) msg)).foldl (shaBlock r ks) h
  (st.map fun x => beBytes (w / 8) x.toNat).flatten

def sha256 (msg : List Byte) : List Byte := shaRun rot256 sha256K sha256H msg
def sha512 (msg : List Byte) : List Byte := shaRun rot512 sha512K sha512H msg
def sha384 (msg : List Byte) : List Byte := (shaRun rot512 sha512K sha384H msg).take 48

/-! ## Keccak -/

/-- The lane at (x, y) of a state of 25 lanes. -/
def lane (a : List (BitVec 64)) (x y : Nat) : BitVec 64 := a.getD (x % 5 + 5 * (y % 5)) 0

def keccakTheta (a : List (BitVec 64)) : List (BitVec 64) :=
  let c := (List.range 5).map fun x => lane a x 0 ^^^ lane a x 1 ^^^ lane a x 2 ^^^ lane a x 3 ^^^ lane a x 4
  (List.range 25).map fun i => a.getD i 0 ^^^ c.getD ((i % 5 + 4) % 5) 0 ^^^ (c.getD ((i % 5 + 1) % 5) 0).rotateLeft 1

/-- The rotation offsets of ρ, from the walk of FIPS 202: step t visits (x, y) and rotates by (t+1)(t+2)/2. -/
def rhoWalk : Nat → Nat → Nat → Nat → List (Nat × Nat)
  | 0, _, _, _ => []
  | n + 1, t, x, y => (x + 5 * y, (t + 1) * (t + 2) / 2 % 64) :: rhoWalk n (t + 1) y ((2 * x + 3 * y) % 5)
def rhoOffset (i : Nat) : Nat :=
  match (rhoWalk 24 0 1 0).find? fun e => e.1 = i with
  | some e => e.2
  | none => 0

/-- ρ and π together. -/
def keccakRhoPi (a : List (BitVec 64)) : List (BitVec 64) :=
  (List.range 25).map fun i =>
    let x := i % 5
    let y := i / 5
    let src := (x + 3 * y) % 5 + 5 * x
    (a.getD src 0).rotateLeft (rhoOffset src)

def keccakChi (a : List (BitVec 64)) : List (BitVec 64) :=
  (List.range 25).map fun i => lane a (i % 5) (i / 5) ^^^ (~~~(lane a (i % 5 + 1) (i / 5)) &&& lane a (i % 5 + 2) (i / 5))

/-- The LFSR of ι after `t` steps: bit t of the constant stream (FIPS 202, Algorithm 5). -/
def iotaLfsr : Nat → Nat
  | 0 => 1
  | t + 1 => let r := iotaLfsr t * 2; if r / 256 = 1 then (r ^^^ 0x171) else r
def keccakRc (round : Nat) : BitVec 64 :=
  (List.range 7).foldl (fun c j => if iotaLfsr (7 * round + j) % 2 = 1 then c ||| ((1 : BitVec 64) <<< (2 ^ j - 1)) else c) 0

def keccakRounds : List Nat → List (BitVec 64) → List (BitVec 64)
  | [], a => a
  | r :: rs, a =>
    match keccakChi (keccakRhoPi (keccakTheta a)) with
    | [] => []
    | x :: xs => keccakRounds rs ((x ^^^ keccakRc r) :: xs)
def keccakF (a : List (BitVec 64)) : List (BitVec 64) := keccakRounds (List.range 24) a

/-- The padding of SHA-3 and SHAKE for a rate of `r` bytes and a domain byte. -/
def keccakPad (r : Nat) (domain : Byte) (msg : List Byte) : List Byte :=
  let z := r - 1 - msg.length % r
  if z = 0 then msg ++ [domain ^^^ 0x80] else msg ++ [domain] ++ zeros (z - 1) ++ [0x80]

def keccakAbsorb (a : List (BitVec 64)) (block : List Byte) : List (BitVec 64) :=
  let ws := (chunksOf 8 block).map fun b => BitVec.ofNat 64 (ofLe b)
  keccakF (a.mapIdx fun i x => x ^^^ ws.getD i 0)

/-- The first `n` bytes of output, for outputs within one rate. -/
def keccak (r : Nat) (domain : Byte) (n : Nat) (msg : List Byte) : List Byte :=
  let st := (chunksOf r (keccakPad r domain msg)).foldl keccakAbsorb (List.replicate 25 0)
  ((st.map fun x => leBytes 8 x.toNat).flatten).take n

def sha3_256 (msg : List Byte) : List Byte := keccak 136 0x06 32 msg
def sha3_384 (msg : List Byte) : List Byte := keccak 104 0x06 48 msg
def shake256_64 (msg : List Byte) : List Byte := keccak 136 0x1F 64 msg

/-! ## The algorithms of R310 by code -/

/-- Codes 1 to 6 are used; 6 has no HMAC. -/
def algValid (alg : Nat) : Bool := 1 ≤ alg && alg ≤ 6
def algHmac (alg : Nat) : Bool := 1 ≤ alg && alg ≤ 5
/-- The block (rate) in bytes. -/
def algBlock : Nat → Nat
  | 1 => 64 | 2 => 128 | 3 => 128 | 4 => 136 | 5 => 104 | 6 => 136 | _ => 64
/-- The output length in bytes. -/
def algOut : Nat → Nat
  | 1 => 32 | 2 => 48 | 3 => 64 | 4 => 32 | 5 => 48 | 6 => 64 | _ => 0
def hashOf : Nat → List Byte → List Byte
  | 1, m => sha256 m
  | 2, m => sha384 m
  | 3, m => sha512 m
  | 4, m => sha3_256 m
  | 5, m => sha3_384 m
  | 6, m => shake256_64 m
  | _, _ => []

/-- The key block of HMAC: a key longer than the block is hashed first (FIPS 198-1). -/
def hmacKey (alg : Nat) (key : List Byte) : List Byte :=
  padTo (algBlock alg) (if algBlock alg < key.length then hashOf alg key else key)
def hmac (alg : Nat) (key msg : List Byte) : List Byte :=
  let k := hmacKey alg key
  let pad := fun (b : Byte) => k.map (· ^^^ b)
  hashOf alg (pad 0x5C ++ hashOf alg (pad 0x36 ++ msg))

/-- HKDF-SHA-384 with an output of at most 48 bytes (R278, R493, R502). -/
def hkdf384 (salt ikm info : List Byte) (n : Nat) : List Byte :=
  (hmac 2 (hmac 2 salt ikm) (info ++ [1])).take n

/-! ## CRC-32C -/

def crcBits : Nat → Nat → Nat
  | 0, c => c
  | n + 1, c => crcBits n (if c % 2 = 1 then (c / 2) ^^^ 0x82F63B78 else c / 2)
def crc32c (bs : List Byte) : Nat :=
  (bs.foldl (fun c b => crcBits 8 (c ^^^ b.toNat)) 0xFFFFFFFF) ^^^ 0xFFFFFFFF

/-- The bytes of an ASCII string. -/
def ascii (t : String) : List Byte := t.toList.map fun c => BitVec.ofNat 8 c.toNat

end Sys2Proof.Machine
end

