-- ==== Sys2Proof/Machine/SeaOps.lean ====
section
/-! DEFINITION. Operations of the key store and of nonce custody (R274 to R303), and of the identities that come from
the unique device secret (R502). -/

namespace Sys2Proof.Machine

/-- The first n bytes of a byte string of Config. -/
def bytesOf (n : Nat) (f : Nat → Byte) : List Byte := (List.range n).map f

/-- Draw n random bytes (R276). -/
def State.random (s : State) (n : Nat) : List Byte × State :=
  (bytesOf n (Config.random s.sea.draws), s.onSea fun k => { k with draws := k.draws + 1 })

/-! ## DICE (R502) -/

def udsBytes : List Byte := bytesOf 32 Config.uds
/-- CDI_1 and CDI_2 of the running image. -/
def cdi1 (i : FwImage) : List Byte := hkdf384 udsBytes (i.fslMeas ++ bytesOf 48 Config.fuseDigest) [] 32
def cdi2 (i : FwImage) : List Byte := hkdf384 (cdi1 i) i.fwMeas [] 32
/-- The secret behind the Alias key pairs of the running firmware; empty before layer 2. -/
def State.aliasSecret (s : State) : List Byte :=
  match s.boot.image with
  | some i => bytesOf 32 (Config.deviceSecret (cdi2 i))
  | none => []
/-- The secret behind the DeviceID key pairs. -/
def deviceIdSecret : List Byte := bytesOf 32 (Config.deviceSecret udsBytes)
/-- A signature of the Alias ML-DSA-65 key. -/
def State.aliasSign (s : State) (msg : List Byte) : List Byte := bytesOf 3309 (Config.mldsaSign s.aliasSecret msg)
def State.aliasKey (s : State) : List Byte := bytesOf 1952 (Config.mldsaKey s.aliasSecret)

/-! ## Slots (R274) -/

def State.xts (s : State) (i : Nat) : KeySlot := s.sea.xts.getD i KeySlot.free
def State.wrapSlot (s : State) (i : Nat) : KeySlot := s.sea.wrap.getD i KeySlot.free
def State.setXts (s : State) (i : Nat) (k : KeySlot) : State :=
  s.onSea fun e => { e with xts := Tbl.put KeySlot.free e.xts i k }
def State.setWrap (s : State) (i : Nat) (k : KeySlot) : State :=
  s.onSea fun e => { e with wrap := Tbl.put KeySlot.free e.wrap i k }

/-- The slot that a use and a number name (R274): uses 3 and 4 are the ones F0h reaches. -/
def State.slotOf (s : State) (use i : Nat) : KeySlot := if use = 4 then s.wrapSlot i else s.xts i
def State.setSlot (s : State) (use i : Nat) (k : KeySlot) : State := if use = 4 then s.setWrap i k else s.setXts i k
def slotInRange (use i : Nat) : Bool := (use = 3 && i < 1024) || (use = 4 && i < 256)
def slotKeyLen (use : Nat) : Nat := if use = 4 then 32 else 64

/-! ## Stored copies (R274, R275) -/

def State.opal (s : State) : Port → Opal
  | .a => s.sea.opalA
  | .b => s.sea.opalB
def State.onOpal (s : State) (p : Port) (g : Opal → Opal) : State :=
  s.onSea fun e => match p with
    | .a => { e with opalA := g e.opalA }
    | .b => { e with opalB := g e.opalB }

/-- The credential of an authority. -/
def Opal.credential (o : Opal) (a : Nat) : List Byte := o.credentials.getD a (bytesOf 32 (Config.opalDefault a))

/-- The Shadow MBR and DataStore tables of a port (R284). They lie in a hidden part of the data space that reported capacity leaves out:
what Identify reports is not of this model. -/
def mbrBytes : Nat := 134217728
def dataStoreBytes : Nat := 10485760
/-- The range whose key a slot holds. -/
def slotRange (s : State) (i : Nat) : Option Range := (s.ns.flatMap fun e => e.2.ranges).find? fun r => decide (r.slot = i)
/-- The credentials of the authorities with access to the range of a slot: the Admins and those that the range lists. -/
def State.slotCreds (s : State) (i : Nat) : List Byte :=
  let o := s.opal (portOfFn (s.xts i).owner)
  match slotRange s i with
  | some r => (match r.single with | some u => [u] | none => List.range 4 ++ r.authorities).flatMap o.credential
  | none => []
/-- The key that wraps the stored copy of a slot: the device key-encryption key, or for a CREDENTIAL-bound slot the one that the
credentials give. -/
def State.slotKek (s : State) (use i : Nat) : List Byte :=
  if (s.slotOf use i).credential then bytesOf 32 (Config.opalKek (s.slotCreds i)) else bytesOf 32 Config.deviceKek
/-- A slot with its key loaded from its stored copy; a wrap slot keeps its epoch and counters. A copy that does not unwrap, of which the
spec says nothing, gives no key. DESIGN CHOICE (notes/assumptions/34.md). -/
def State.restored (s : State) (use i : Nat) : KeySlot :=
  let k := s.slotOf use i
  match k.stored with
  | some w => { k with st := .loaded, key := (kwUnwrap (s.slotKek use i) w).getD [] }
  | none => k
/-- What has changed credentials, access or the binding of slots since a state wraps the stored copies of CREDENTIAL-bound slots, and of
the slots it binds anew, again (R274, R275). -/
def State.rewrapped (t s : State) : State :=
  t.sea.xts.foldl (fun u e =>
    if e.2.credential || (s.xts e.1).credential then
      u.setXts e.1 { e.2 with stored := e.2.stored.map fun w => kwWrap (t.slotKek 1 e.1) ((kwUnwrap (s.slotKek 1 e.1) w).getD []) }
    else u) t

/-- A function may operate on the slots it owns, and a manager on its port's instances' slots (R277). -/
def mayOperate (f : Fn) (owner : Fn) : Bool :=
  f = owner || (isManager f && portOfFn f = portOfFn owner)

/-- F0h may name this slot for this use. -/
def State.slotAllowed (s : State) (f : Fn) (use i : Nat) : Bool :=
  slotInRange use i && decide ((s.slotOf use i).use = use) && mayOperate f (s.slotOf use i).owner

/-- The lowest free XTS slot (R280). -/
def State.freeXts (s : State) : Option Nat := Tbl.lowestFree s.sea.xts 0 1024

/-- An alarm source is active: the fuse check, the temperature, and a glitch detector that has raised an alarm since the last L4 reset
and still shows a glitch (R299, R302; notes/assumptions/17.md). -/
def alarmActive (s : State) : Bool :=
  !s.board.fuseOk || (s.power.untrimmed.any fun r => decide ((620 : Int) ≤ r)) ||
  s.sea.glitches.any fun a => Config.glitchLasts (decide (a = .voltage)) s.now

/-- The newest record of every slot of the log. -/
def newestRecords : List NonceRec → List NonceRec
  | [] => []
  | r :: rs => if rs.any fun x => x.slot = r.slot then newestRecords rs else r :: newestRecords rs

/-- Records with the next sequence numbers. -/
def Sea.numbered (e : Sea) (rs : List NonceRec) : List NonceRec := rs.mapIdx fun i r => { r with lseq := e.lseq + 1 + i }

/-- Append a record to the nonce reservation log. A log whose copies of 524,288 records are seven eighths full starts a new
generation: the newest record of every slot, then the highest epoch issued (R296). -/
def Sea.nonceRecord (e : Sea) (r : NonceRec) : Sea :=
  let log := e.nonceLog ++ e.numbered [r]
  let e1 := { e with nonceLog := log, lseq := e.lseq + 1 }
  if log.length < 458752 then e1
  else
    let fresh := e1.numbered (newestRecords (log.filter fun x => x.kind ≠ 2) ++
      [{ slot := 0xFFFF, kind := 2, epoch := e.epochMax, reservedTo := 0, lseq := 0 }])
    { e1 with nonceLog := fresh, lseq := e1.lseq + fresh.length }

/-- The image of a record, 32 bytes. -/
def NonceRec.bytes (r : NonceRec) : List Byte :=
  let h := leBytes 4 0x4E4F4E43 ++ leBytes 2 r.slot ++ leBytes 2 r.kind ++ leBytes 4 r.epoch ++ zeros 4 ++ leBytes 8 r.reservedTo ++
    leBytes 4 (r.lseq % 2 ^ 32)
  h ++ leBytes 4 (crc32c h)

/-- Load a key into a slot, DEVICE-bound; a wrap slot takes the next epoch (R277, R292). -/
def State.loadSlot (s : State) (use i : Nat) (key : List Byte) : State :=
  let k := s.slotOf use i
  if use = 4 then
    let e := s.sea.epochMax + 1
    ((s.setWrap i { k with st := .loaded, credential := false, key := key, stored := some (kwWrap (bytesOf 32 Config.deviceKek) key), epoch := e, next := 0,
                           reservedTo := 0, logTarget := none }).areaWrite areaNonce).onSea fun x =>
      { x with epochMax := e }.nonceRecord { slot := i, kind := 1, epoch := e, reservedTo := 0, lseq := 0 }
  else s.setXts i { k with st := .loaded, credential := false, key := key, stored := some (kwWrap (bytesOf 32 Config.deviceKek) key) }

/-- Zero a slot and its stored copy; it stays assigned (R277). -/
def KeySlot.cleared (k : KeySlot) : KeySlot := { KeySlot.free with use := k.use, owner := k.owner }

/-- No epoch is left for a wrap slot (R292). -/
def epochSpent (s : State) (use : Nat) : Bool := use = 4 && 0xFFFFFFFF ≤ s.sea.epochMax

/-- The ledger record of a key-slot operation (R277, R518). -/
def slotAppend (s : State) (cause use i : Nat) (then_ : AppendFor) : Append :=
  { kind := 4, cause := cause, comps := [componentOf 7 use (s.slotOf use i).owner i], then_ := then_ }

/-! ## Cipher stages that name a slot -/

/-- The stage names this slot (use 3: XTS; use 4: wrap). -/
def Stage.usesSlot (use i : Nat) : Stage → Bool
  | .xts _ k _ _ => use = 3 && k = i
  | .gcm _ w _ _ _ _ => use = 4 && w = i
  | _ => false

/-- Fail every unfired task that uses a slot with KEY_SLOT_EMPTY (R303, R481). -/
def State.failSlotUsers (s : State) (p : Stage → Bool) : State :=
  let hit := s.disp.entries.filter fun e => !e.discard &&
    match s.flow e.flow with
    | some f => match Trail.stageAt f.trail e.stage with
      | some st => p st
      | none => false
    | none => false
  hit.foldl (fun t e => if t.disp.entries.any (fun x => decide (x.flow = e.flow) && !x.discard)
    then t.failFlow e.flow e.chunk e.stage stKeySlotEmpty else t) s

/-- An HMAC slot is cleared under Trails that use it: their DIGEST stages fire no more tasks, and those unfired fail (R321). -/
def State.failHmacUsers (s : State) (slot : Nat) : State :=
  (s.onDgs fun d => { d with ctxs := Tbl.mapVals d.ctxs fun _ c => if c.hmac = some slot then { c with cleared := true } else c }).failSlotUsers
    fun st => match st with
      | .digest _ _ (some i) _ _ => decide (i = slot)
      | _ => false

/-! ## Nonces (R288, R292 to R295) -/

/-- The 12 bytes of a nonce: the epoch and the counter, each big-endian (R288). -/
def nonceBytes (epoch counter : Nat) : List Byte := beBytes 4 epoch ++ beBytes 8 (counter % 2 ^ 64)
/-- A nonce with k added to its counter (R59, R289). -/
def nonceAdd (nonce : List Byte) (k : Nat) : List Byte := nonce.take 4 ++ beBytes 8 ((ofBe (nonce.drop 4) + k) % 2 ^ 64)

/-- Counters of one block. -/
def nonceBlock : Nat := 2 ^ 20

/-- The run that a Trail of so many chunks needs would pass 2^64 − 2^20 (R295). -/
def nonceExhausted (k : KeySlot) (chunks : Nat) : Bool :=
  2 ^ 64 - 2 ^ 20 < k.next + ceilDiv chunks nonceBlock * nonceBlock

/-- Start a log write where fewer than 16 blocks are left, or a Trail waits for counters up to `need` (R293). -/
def State.nonceCheck (s : State) (slot need : Nat) : State :=
  let k := s.wrapSlot slot
  if k.logTarget.isNone ∧ (k.reservedTo - k.next < 16 * nonceBlock ∨ k.reservedTo < need) then
    (s.setWrap slot { k with logTarget := some (Nat.max (k.reservedTo + 64 * nonceBlock) need) }).sysBegin (.nonce slot)
  else s

/-- Reserve the run of a Trail: its first nonce, and NEXT moves past it (R59, R293). Needs the durable limit. -/
def State.nonceTake (s : State) (slot chunks : Nat) : State :=
  let k := s.wrapSlot slot
  let n := k.next + ceilDiv chunks nonceBlock * nonceBlock
  (s.setWrap slot { k with next := n }).nonceCheck slot 0

/-- The end of the run that a Trail of so many chunks needs. -/
def nonceNeed (k : KeySlot) (chunks : Nat) : Nat := k.next + ceilDiv chunks nonceBlock * nonceBlock

/-! ## Ranges (R279, R284, R285) -/

/-- The range that covers an LBA: the one further range that holds it, else the namespace global range. -/
def Ns.rangeOf (n : Ns) (lba : Nat) : Option Range :=
  match n.ranges.find? fun r => r.id ≠ 0 && decide (r.start ≤ lba) && decide (lba < r.start + r.length) with
  | some r => some r
  | none => n.ranges.find? fun r => decide (r.id = 0)

/-- The ranges that some LBAs meet. -/
def Ns.rangesOver (n : Ns) (slba nlb : Nat) : List Range :=
  let further := n.ranges.filter fun r => r.id ≠ 0 && decide (r.start < slba + nlb) && decide (slba < r.start + r.length)
  let covered := (further.map fun r => Nat.min (slba + nlb) (r.start + r.length) - Nat.max slba r.start).sum
  if covered < nlb then further ++ n.ranges.filter (fun r => decide (r.id = 0)) else further

/-- Why a read of some LBAs is refused: Access Denied for a locked range or LOCKED slot, KEYS_ERASED for an ERASED slot
(R285, R301). -/
def readBar (s : State) (n : Ns) (slba nlb : Nat) : Option Status :=
  let rs := n.rangesOver slba nlb
  if rs.any fun r => (r.readEnabled && r.readLocked) || decide ((s.xts r.slot).st = .locked) then some stAccessDenied
  else if rs.any fun r => decide ((s.xts r.slot).st = .erased) then some stKeysErased
  else none

/-- Some of the LBAs lie in a range whose slot an alarm has erased (R301). -/
def keysGone (s : State) (n : Ns) (slba nlb : Nat) : Bool := (n.rangesOver slba nlb).any fun r => decide ((s.xts r.slot).st = .erased)

/-- Why a write of some LBAs is refused (R285, R301). -/
def writeBar (s : State) (n : Ns) (slba nlb : Nat) : Option Status :=
  let rs := n.rangesOver slba nlb
  if rs.any fun r => (r.writeEnabled && r.writeLocked) || decide ((s.xts r.slot).st = .locked) then some stAccessDenied
  else if rs.any fun r => decide ((s.xts r.slot).st = .erased) then some stKeysErased
  else none

/-- A write must wait for a range whose deallocation runs, or whose key is about to change (R286). -/
def writeHeldByRange (n : Ns) (slba nlb : Nat) : Bool :=
  (n.rangesOver slba nlb).any fun r => r.deallocating || r.rekeying

end Sys2Proof.Machine
end

