-- ==== Sys2Proof/Machine/Transfers.lean ====
section
/-! DEFINITION. The pipelines and lanes in service, the data transfers of the NVM path on them, and the keys that the pipelines cache
(R32, R96, R272, R273, R297, R335). A transfer's data is handled at the step that begins it; what it holds, and until when, is kept
here (notes/assumptions/60.md). -/

namespace Sys2Proof.Machine

/-- How many units of a kind take new tasks: those that the effective mode has in service and that no transition in progress
takes out (R23, R32). -/
def inService (s : State) (count : Mode → Nat) : Nat :=
  match s.power.transition with
  | some t => if t.target = .hibernate then count s.power.effective else Nat.min (count s.power.effective) (count t.target)
  | none => count s.power.effective

/-- No mode change takes a unit out of service (R23, R32). -/
def staysIn (s : State) (cls : UnitClass) (unit : Nat) : Bool :=
  match cls with
  | .cipher => decide (unit < inService s modePipelines)
  | .digest => decide (unit < inService s modeCores)
  | .codec => decide (unit < inService s modeLanes)
  | _ => true

/-- A unit runs a task of a Trail. -/
def runsTask (s : State) (cls : UnitClass) (unit : Nat) : Bool :=
  s.disp.running.any fun r => decide (r.cls = cls) && (decide (r.unit = unit) || decide (r.pair = some unit))
/-- A unit is held by a transfer. -/
def runsTransfer (s : State) (cls : UnitClass) (unit : Nat) : Bool :=
  s.disp.transfers.any fun t => decide (t.cls = cls) && decide (unit ∈ t.units) && decide (s.now < t.until_)

/-- A unit runs one task at a time, but for the MEDIA islands and the write buffer; a DUPLICATE operation takes two (R297), and a
pipeline or lane runs one task or one transfer (R272, R335). -/
def unitIdle (s : State) (cls : UnitClass) (unit : Nat) : Bool :=
  cls = .media || cls = .wbuf || !(runsTask s cls unit || runsTransfer s cls unit)

/-! ## Key caches (R273) -/

/-- The number under which a pipeline caches the key of a slot: wrap slots come after the 1,024 XTS slots. -/
def cacheId (use slot : Nat) : Nat := if use = 4 then 1024 + slot else slot

/-- A pipeline's cache of 16 expanded slot keys: a miss loads the key over the private key bus. -/
def State.keyUse (s : State) (pipeline key : Nat) : State :=
  let old := s.sea.caches.getD pipeline []
  let s1 := if key ∈ old then s else s.addCnt (rSeaCount 4) 1
  s1.onSea fun e => { e with caches := e.caches.set pipeline ((key :: old.erase key).take 16) }

/-- Pipelines forget the expanded key of a slot whose key has changed. -/
def State.uncache (s : State) (use slot : Nat) : State :=
  s.onSea fun e => { e with caches := Tbl.mapVals e.caches fun _ c => c.filter fun k => k ≠ cacheId use slot }

/-- A pipeline unwraps a key under a wrap slot: the lowest one in service that is idle, or the lowest (R287, R320;
notes/assumptions/34.md). -/
def State.wrapUse (s : State) (slot : Nat) : State :=
  s.keyUse (((List.range 8).find? fun u => staysIn s .cipher u && unitIdle s .cipher u).getD 0) (cacheId 4 slot)

/-! ## Transfers (R96, R272, R335) -/

/-- The units that a transfer takes: two pipelines where the fault check of the class MEDIA is DUPLICATE (R297, R305). -/
def transferUnits (s : State) (cls : UnitClass) : Nat := if cls = .cipher ∧ s.regFld rSeaFaultCfg 1 0 = 1 then 2 else 1

/-- A transfer that waits takes its units, once so many are idle; each loads the keys that it has not cached. -/
def State.startTransfer (s : State) (t : Transfer) : State :=
  let free := (List.range 8).filter fun u => staysIn s t.cls u && unitIdle s t.cls u
  let us := free.take (transferUnits s t.cls)
  if free.length < transferUnits s t.cls then s
  else
    let s1 := s.onDisp fun d =>
      { d with transfers := d.transfers.erase t ++ [{ t with units := us, until_ := s.now + t.ticks }] }
    us.foldl (fun u p => t.keys.foldl (fun v k => v.keyUse p k) u) s1

/-- Transfers that have ended leave, and those that wait take what has come free, in order. -/
def State.startTransfers (s : State) : State :=
  let s1 := s.onDisp fun d => { d with transfers := d.transfers.filter fun t => t.units.isEmpty || decide (s.now < t.until_) }
  (s1.disp.transfers.filter fun t => t.units.isEmpty).foldl State.startTransfer s1

/-- The transfers of a class that wait: they hold the entries of the class's queue that R96 reserves for them. -/
def transfersWaiting (s : State) (cls : UnitClass) : Nat :=
  (s.disp.transfers.filter fun t => decide (t.cls = cls) && t.units.isEmpty).length

/-- A transfer of so many bytes begins at the engine of a class, at 512 bytes a tick of 20 ns; one that finds no idle unit waits in the
queue's reserved entries. -/
def State.transfer (s : State) (cls : UnitClass) (keys : List Nat) (bytes : Nat) : State :=
  let t : Transfer := { cls := cls, units := [], ticks := ceilDiv bytes 512, until_ := 0, keys := keys }
  let s1 := s.onDisp fun d => { d with transfers := d.transfers ++ [t] }
  (s1.queuePeak cls (queueFill s cls + Nat.min 16 (transfersWaiting s1 cls))).startTransfers

/-- A reset or an alarm ends the transfers of a class (R300, R346). -/
def State.endTransfers (s : State) (cls : UnitClass) : State :=
  s.onDisp fun d => { d with transfers := d.transfers.filter fun t => t.cls ≠ cls }

/-- An L1 reset of the codec is under way (R346). -/
def codecResets (s : State) : Bool := (⟨.codec, 0⟩ : UnitReset) ∈ s.disp.resetting

end Sys2Proof.Machine
end

