-- ==== Sys2Proof/Machine/Digest.lean ====
section
/-! DEFINITION. The digest engine's register port, the verdict word and the HMAC slots (R310 to R334). -/

namespace Sys2Proof.Machine

/-! ## The verdict word (R318) -/

def verdictMatch : W32 := 0x3CA5C35A#32
def verdictMismatch : W32 := 0xA55A5AA5#32
/-- What one comparator sets its half of the verdict word to (R318). -/
def comparatorHalf (eq : Bool) : BitVec 16 := if eq then 0xC35A#16 else 0x5AA5#16
/-- The verdict word of comparators A, in the low half, and B, complemented in the high half (R318). -/
def verdictWord (a b : Bool) : W32 := (~~~ comparatorHalf b) ++ comparatorHalf a
/-- The verdict word of a comparison, where a fault may have one comparator compute the opposite (R318). -/
def verdictOf (seen : Comparators) (eq : Bool) : W32 :=
  match seen with
  | .agree => verdictWord eq eq
  | .aWrong => verdictWord (!eq) eq
  | .bWrong => verdictWord eq (!eq)
/-- What a verdict word says: a match, a mismatch, or a fault for every other value (R318, R319). -/
def verdictRead (v : W32) : Option Bool :=
  if v = verdictMatch then some true else if v = verdictMismatch then some false else none
/-- The event of DGS_COUNT that a verdict counts in (R334). -/
def verdictEvent (v : W32) : Nat :=
  match verdictRead v with
  | some true => 2
  | some false => 3
  | none => 4
/-- Count a verdict; a fault counts in class 16 too (R559). -/
def State.countVerdict (s : State) (v : W32) : State :=
  let s1 := s.addCnt (rDgsCount (verdictEvent v)) 1
  if verdictRead v = none then s1.addLife (lifeErr 16 true) 1 else s1

/-! ## The register port (R323 to R326, R330 to R332) -/

/-- The path of a requester to the port. -/
def portReqReaches (s : State) (r : PortReq) : Bool := s.barReaches (portRequester r) rDgsClaim

/-- A port access that the ENGINE island does not take ends in a bridge error (R15). -/
def State.portMiss (s : State) (r : PortReq) : State := s.barMiss (portRequester r) rDgsClaim

/-- The function whose HMAC slots a requester may use: a manager function (R320, R325). -/
def portReqFn : PortReq → Option Fn
  | .managerA => some 0
  | .managerB => some 256
  | _ => none

/-- The OWNER and QUEUED code of a requester (R323). -/
def portReqCode : PortReq → Nat
  | .security => 0 | .mgmt0 => 1 | .mgmt1 => 2 | .mgmt2 => 3 | .mgmt3 => 4 | .managerA => 5 | .managerB => 6

/-- The port goes to the oldest queued claim, with no message begun. -/
def Dgs.pass (d : Dgs) : Dgs :=
  { d with owner := d.claims.head?, claims := d.claims.tail, msgOn := false, msg := [], busy := false }

/-- CLAIM (R323). -/
def execClaim (r : PortReq) (s : State) : Host.Outcome State Fault Refusal :=
  if portReqReaches s r then
    .next (s.onDgs fun d =>
      match d.owner with
      | none => { d with owner := some r, msgOn := false, msg := [], busy := false }
      | some o => if o = r then d else { d with claims := addOnce d.claims r })
  else .next (s.portMiss r)

/-- RELEASE by the owner (R323); from any other requester it is ignored. -/
def execRelease (r : PortReq) (s : State) : Host.Outcome State Fault Refusal :=
  if portReqReaches s r ∧ s.dgs.owner = some r then .next (s.onDgs Dgs.pass) else .next (s.portMiss r)

/-- The owner made no access for 100 ms (R324): its message ends with ENGINE_TIMEOUT and the port passes on. -/
def execPortOwnerTimeout (s : State) : Host.Outcome State Fault Refusal :=
  if s.dgs.owner.isSome then .next (s.onDgs fun d => { Dgs.pass d with endStatus := 0xCE, done := false }) else .next s

/-- The settings bits of DGS_PORT_START (R331). -/
def portStartMask : W32 := 0x3FF0F#32

/-- Why an HMAC message ends at its start: 0xC4 for a slot that is not the owner's (R325). For the owner's own slot R325 gives no end:
the model has 0xC4 for one that is empty, in a load or of another algorithm, and 0xC5 for an erased one. DESIGN CHOICE
(notes/assumptions/35.md). -/
def portHmacEnd (s : State) (r : PortReq) (slot alg : Nat) : Option Nat :=
  let h := s.dgs.hmac.getD slot HmacSlot.free
  if (portReqFn r).isSome ∧ h.owner = portReqFn r then
    match h.st with
    | .erased => some 0xC5
    | .loaded => if h.alg = alg then none else some 0xC4
    | _ => some 0xC4
  else some 0xC4

/-- Begin a message (R325 step 1). -/
def portBegin (s : State) (r : PortReq) (v : W32) : State :=
  let slot := fld v 15 8
  let alg := fld v 3 0
  let stop := if bitAt v 16 then portHmacEnd s r slot alg else none
  s.onDgs fun d =>
    { d with msgOn := stop.isNone, msg := [], alg := alg, hmacSlot := if bitAt v 16 then some slot else none,
             compare := bitAt v 17, busy := false, done := stop.isSome, dropped := false, endStatus := stop.getD 0 }

/-- DGS_PORT_START: the settings of the owner, and with GO a new message (R325, R331). -/
def execPortStart (r : PortReq) (value : W32) (s : State) : Host.Outcome State Fault Refusal :=
  if portReqReaches s r ∧ s.dgs.owner = some r then
    let s1 := s.setReg rDgsStart (value &&& portStartMask)
    if bitAt value 31 ∧ algValid (fld value 3 0) then .next (portBegin s1 r value) else .next s1
  else .next (s.portMiss r)

/-- DGS_PORT_DATA: a message word, or DROPPED while BUSY (R325 step 3). -/
def execPortData (r : PortReq) (word : W32) (s : State) : Host.Outcome State Fault Refusal :=
  if portReqReaches s r ∧ s.dgs.owner = some r ∧ s.dgs.msgOn ∧ !s.dgs.done then
    .next (s.onDgs fun d =>
      if d.busy then { d with dropped := true }
      else
        let m := d.msg ++ leBytes 4 word.toNat
        { d with msg := m, busy := decide (m.length % algBlock d.alg = 0) })
  else .next (s.portMiss r)

/-- The port block, if there is one, has been absorbed. -/
def State.absorbBlock (s : State) : State :=
  if s.dgs.busy then (s.onDgs fun d => { d with busy := false }).addCnt (rDgsCount 1) (algBlock s.dgs.alg) else s

/-- A core absorbs the port block (R325, R326). -/
def execPortBlockAbsorbed (s : State) : Host.Outcome State Fault Refusal :=
  if s.up .engine ∧ 0 < modeCores s.power.effective then .next s.absorbBlock else .next s

/-- Put the words of a digest in the DIGEST registers (R332). -/
def State.setDigest (s : State) (bytes : List Byte) : State :=
  iterate (fun n t => t.setReg (rDgsDigest n) (w32 (leAt bytes (4 * n) 4))) 16 s

/-- The expected value in the EXPECT registers. -/
def portExpect (s : State) (n : Nat) : List Byte :=
  ((List.range 16).flatMap fun i => leBytes 4 (s.reg (rDgsExpect i)).toNat).take n

/-- Finalise a port message (R325 step 4). Without COMPARE the verdict register keeps what it held, which R325 does not say. DESIGN
CHOICE (notes/assumptions/35.md). -/
def portEnd (s : State) (last : Nat) (seen : Comparators) : State :=
  let d := s.dgs
  let msg := if d.msg.isEmpty then [] else d.msg.take (d.msg.length - 4 + last)
  let out := match d.hmacSlot with
    | some i => hmac d.alg (d.hmac.getD i HmacSlot.free).key msg
    | none => hashOf d.alg msg
  let left := msg.length - (d.msg.length / algBlock d.alg - if d.busy then 1 else 0) * algBlock d.alg
  let s1 := (s.addCnt (rDgsCount 1) left).onDgs fun d => { d with msgOn := false, busy := false, done := true, endStatus := 0 }
  if d.dropped then (s1.setDigest []).setReg rDgsVerdict 0
  else
    let eq := decide (portExpect s (algOut d.alg) = out)
    let s2 := s1.setDigest out
    if d.compare then (s2.setReg rDgsVerdict (verdictOf seen eq)).countVerdict (verdictOf seen eq) else s2

/-- DGS_PORT_FINISH, with what the comparators do: LAST_BYTES, and with GO the end of the message; GO with 5 to 7 is ignored (R331). -/
def execPortFinish (r : PortReq) (value : W32) (seen : Comparators) (s : State) : Host.Outcome State Fault Refusal :=
  if portReqReaches s r ∧ s.dgs.owner = some r then
    let s1 := s.setReg rDgsFinish (w32 (fld value 2 0))
    if bitAt value 31 ∧ fld value 2 0 ≤ 4 ∧ s.dgs.msgOn then .next (portEnd s1 (fld value 2 0) seen) else .next s1
  else .next (s.portMiss r)

/-! ## HMAC slots (R320 to R322, R333) -/

def State.hmacSlot (s : State) (i : Nat) : HmacSlot := s.dgs.hmac.getD i HmacSlot.free
def State.setHmac (s : State) (i : Nat) (h : HmacSlot) : State :=
  s.onDgs fun d => { d with hmac := Tbl.put HmacSlot.free d.hmac i h }

/-- The selected slot of the load registers. -/
def hmacSel (s : State) : Nat := s.regFld rDgsHmacSel 7 0

/-- The load registers take a write but where the slot that it names is of another port's function (R333). -/
def hmacWritable (s : State) (r : Requester) (slot : Nat) : Bool :=
  match requesterFn r, (s.hmacSlot slot).owner with
  | some m, some f => portOfFn m = portOfFn f
  | _, _ => true

/-- A manager function may clear the slots assigned to functions of its own port (R320). -/
def hmacAllowed (s : State) (r : Requester) (slot : Nat) : Bool :=
  match requesterFn r, (s.hmacSlot slot).owner with
  | some m, some f => portOfFn m = portOfFn f
  | _, _ => false

/-- The blob in the BLOB registers. -/
def hmacBlob (s : State) (n : Nat) : List Byte :=
  ((List.range 34).flatMap fun i => leBytes 4 (s.reg (rDgsHmacBlob i)).toNat).take n

/-- What a load of a slot comes to: the key, or the low byte of the status it fails with (R321). A KEY_LEN in range
that is no multiple of 8, which KW cannot wrap, R321 does not name: the model fails it with 0xC2. DESIGN CHOICE
(notes/assumptions/35.md). -/
def hmacLoadCheck (s : State) (slot alg keyLen wrap : Nat) (blob : List Byte) : Except Nat (List Byte) :=
  let k := s.wrapSlot wrap
  if keyLen < 16 ∨ 128 < keyLen ∨ algBlock alg < keyLen then .error 0xC1
  else if k.use ≠ 4 ∨ some k.owner ≠ (s.hmacSlot slot).owner then .error 0xC4
  else match k.st with
    | .erased => .error 0xC5
    | .loaded =>
      if keyLen % 8 ≠ 0 then .error 0xC2
      else match kwUnwrap k.key blob with
        | some key => .ok key
        | none => .error 0xC2
    | _ => .error 0xC4

/-- DGS_HMAC_LOAD with GO (R320, R321); only a manager function loads. What GO does with an ALG outside 0x1 to 0x5, or while another
load is under way, the spec does not say: the model ignores it. DESIGN CHOICE (notes/assumptions/35.md). -/
def execHmacLoad (r : Requester) (value : W32) (s : State) : Host.Outcome State Fault Refusal :=
  if s.barReaches r rDgsHmacLoad then
    let slot := hmacSel s
    if hmacWritable s r slot then
      let s1 := s.setReg rDgsHmacLoad (value &&& 0xFFFF0F#32)
      let alg := fld value 3 0
      let keyLen := fld value 23 16
      let wrap := fld value 15 8
      let blob := hmacBlob s (keyLen + 8)
      let h := s.hmacSlot slot
      if bitAt value 31 ∧ (requesterFn r).isSome ∧ algHmac alg ∧ s.dgs.loading.isNone then
        match hmacLoadCheck s slot alg keyLen wrap blob with
        | .error e => .next (s1.setHmac slot { h with lastErr := e })
        | .ok key =>
          .next (((s1.setHmac slot { h with st := .loading }).wrapUse wrap).onDgs fun d =>
            { d with loading := some { slot := slot, alg := alg, wrap := wrap, key := key, blob := blob, prior := h.st } })
      else .next s1
    else .next s
  else .next (s.barMiss r rDgsHmacLoad)

/-- The HMAC loader finishes: the slot is LOADED, the blob is kept, and the ledger records it (R320). -/
def execHmacLoadDone (s : State) : Host.Outcome State Fault Refusal :=
  match s.dgs.loading with
  | some l =>
    let h := s.hmacSlot l.slot
    let s1 := s.setHmac l.slot { h with st := .loaded, alg := l.alg, wrap := l.wrap, key := l.key, blob := l.blob, lastErr := 0 }
    let s2 := s1.onDgs fun d => { d with loading := none }
    .next ((s2.cfgWrite .note).requestAppend
      { kind := 5, cause := 0, comps := [componentOf 8 0 (h.owner.getD 0xFFFF) l.slot], then_ := .nothing })
  | none => .next s

/-- DGS_HMAC_LOAD with CLEAR: the slot and its blob are zeroed; unfired DIGEST tasks that use it fail (R321). -/
def execHmacClear (r : Requester) (value : W32) (s : State) : Host.Outcome State Fault Refusal :=
  if s.barReaches r rDgsHmacLoad then
    let slot := hmacSel s
    if hmacWritable s r slot then
      let s1 := s.setReg rDgsHmacLoad (value &&& 0xFFFF0F#32)
      let h := s.hmacSlot slot
      if bitAt value 30 ∧ hmacAllowed s r slot then
        let s2 := s1.setHmac slot { HmacSlot.free with owner := h.owner }
        .next (((s2.failHmacUsers slot).cfgWrite .note).requestAppend
          { kind := 5, cause := 1, comps := [componentOf 8 0 (h.owner.getD 0xFFFF) slot], then_ := .nothing })
      else .next s1
    else .next s
  else .next (s.barMiss r rDgsHmacLoad)

/-- A slot that waits to be reloaded from its kept blob once its wrap slot is LOADED (R322). -/
def hmacReloadable (s : State) (i : Nat) : Bool :=
  let h := s.hmacSlot i
  (h.st = .erased || h.st = .loading) && !h.blob.isEmpty && decide ((s.wrapSlot h.wrap).st = .loaded) &&
  (match s.dgs.loading with | some l => decide (l.slot ≠ i) | none => true)

/-- The reload of a slot completes (R322). One whose blob the wrap slot does not unwrap any more, which R322 does not name, leaves the
slot ERASED with LAST_ERR 0xC2. DESIGN CHOICE (notes/assumptions/35.md). -/
def execHmacReloadDone (slot : Nat) (s : State) : Host.Outcome State Fault Refusal :=
  let h := s.hmacSlot slot
  if hmacReloadable s slot ∧ s.up .engine then
    .next ((s.wrapUse h.wrap).setHmac slot (match kwUnwrap (s.wrapSlot h.wrap).key h.blob with
      | some key => { h with st := .loaded, key := key }
      | none => { h with st := .erased, key := [], lastErr := 0xC2 }))
  else .next s

/-! ## Resets and alarms at the engine (R322, R327) -/

/-- An L1 reset of the engine or an L2 reset of ENGINE: loaded slots reload; a port message ends (R322, R327). -/
def State.digestReset (s : State) : State :=
  s.onDgs fun d =>
    let d1 := if d.msgOn then { Dgs.pass d with endStatus := 0xCE, done := false } else d
    { d1 with hmac := d1.hmac.mapVals fun _ h => if h.st = .loaded then { h with st := .loading, key := [] } else h }

/-- An L2 reset of ENGINE, at which DGS_PORT_STATUS takes its reset value too (R330, R580): the port is free, nobody waits, and no
message has ended. -/
def State.digestIslandReset (s : State) : State :=
  (s.digestReset).onDgs fun d => { d with owner := none, claims := [], done := false, dropped := false, endStatus := 0 }

/-- An alarm: every HMAC slot state and context of a keyed stage is zeroed; a keyed port message ends; a load fails
(R321, R322, R327). -/
def State.digestAlarm (s : State) : State :=
  s.onDgs fun d =>
    let keyed := d.msgOn && d.hmacSlot.isSome
    let d1 := { d with
      hmac := d.hmac.mapVals fun i h =>
        match d.loading with
        | some l =>
          if l.slot = i then
            { h with st := (if l.prior = .loaded then .erased else l.prior), key := [], lastErr := 0xC5 }
          else if h.st = .loaded ∨ h.st = .loading then { h with st := .erased, key := [] } else h
        | none => if h.st = .loaded ∨ h.st = .loading then { h with st := .erased, key := [] } else h
      loading := none
      ctxs := d.ctxs.mapVals fun _ c => if c.hmac.isSome then { c with key := [], msg := [], dead := true } else c }
    if keyed then { d1 with msgOn := false, msg := [], busy := false, done := true, endStatus := 0xC5 } else d1

end Sys2Proof.Machine
end

