-- ==== Sys2Proof/Machine/Codec.lean ====
section
/-! DEFINITION. The run-length codec (R336 to R345): the encoder, which is exact, and the decoder with its checks;
and the reshuffles of the DMA engine (R386 to R388). -/

namespace Sys2Proof.Machine

/-! ## The encoder (R337, R340) -/

/-- How many leading bytes two lists share. -/
def commonLen : List Byte → List Byte → Nat
  | a :: as, b :: bs => if a = b then commonLen as bs + 1 else 0
  | _, _ => 0

/-- The whole records that distance d reproduces from p onward (R340 step 1). -/
def repeatCount (input : List Byte) (w p d : Nat) : Nat := commonLen (input.drop (p - d * w)) (input.drop p) / w

/-- The best distance up to `d`: the largest count, and on a tie the smallest distance. -/
def bestRepeat (input : List Byte) (w p : Nat) : Nat → Nat × Nat
  | 0 => (0, 0)
  | d + 1 =>
    let best := bestRepeat input w p d
    let c := repeatCount input w p (d + 1)
    if best.2 < c then (d + 1, c) else best

/-- The length of the run of equal bytes a list begins with. -/
def runLen : List Byte → Nat
  | [] => 0
  | [_] => 1
  | a :: b :: rest => if a = b then runLen (b :: rest) + 1 else 1

/-- The literal tokens of a stretch: 128 bytes at a time (R340 step 2). -/
def literals (bs : List Byte) : List Byte :=
  ((chunksOf 128 bs).map fun c => BitVec.ofNat 8 (c.length - 1) :: c).flatten

/-- A run token. -/
def runToken (n : Nat) (v : Byte) : List Byte :=
  if n ≤ 66 then [BitVec.ofNat 8 (0x80 + (n - 3)), v] else 0xC0 :: leBytes 2 (n - 1) ++ [v]

/-- Encode the bytes of one record: runs of 3 or more, and literals for the bytes gathered before them. -/
def encodeRuns : Nat → List Byte → List Byte → List Byte
  | 0, lit, _ => literals lit
  | fuel + 1, lit, bs =>
    match bs with
    | [] => literals lit
    | b :: rest =>
      let n := runLen bs
      if 3 ≤ n then literals lit ++ runToken n b ++ encodeRuns fuel [] (bs.drop n)
      else encodeRuns fuel (lit ++ [b]) rest

/-- The token stream from position p (R340). -/
def encodeTokens (input : List Byte) (w : Nat) : Nat → Nat → List Byte
  | 0, _ => []
  | fuel + 1, p =>
    if input.length ≤ p then []
    else
      let (d, c) := if w ≠ 0 ∧ p % w = 0 then bestRepeat input w p (Nat.min 255 (p / w)) else (0, 0)
      if 1 ≤ c then
        (if c ≤ 31 then [BitVec.ofNat 8 (0xE0 + (c - 1)), BitVec.ofNat 8 d]
         else 0xFF :: BitVec.ofNat 8 d :: leBytes 2 (c - 1)) ++ encodeTokens input w fuel (p + c * w)
      else
        let n := if w = 0 then input.length - p else Nat.min w (input.length - p)
        encodeRuns n [] ((input.drop p).take n) ++ encodeTokens input w fuel (p + n)

/-- The block header (R336). -/
def blockHeader (kind w orig coded crc : Nat) : List Byte :=
  [BitVec.ofNat 8 (0x10 + kind), 0] ++ leBytes 2 w ++ leBytes 4 orig ++ leBytes 4 coded ++ leBytes 4 crc

/-- One codec block from at most 65,536 bytes: tokens when they are shorter, else stored (R337). -/
def encodeBlock (w : Nat) (payload : List Byte) : List Byte :=
  let input := payload.take 65536
  let stream := encodeTokens input w input.length 0
  if stream.length < input.length then blockHeader 0 w input.length stream.length (crc32c input) ++ stream
  else blockHeader 1 w input.length input.length (crc32c input) ++ input

/-- The block is stored. -/
def blockStored (block : List Byte) : Bool := (block.headD 0).toNat % 16 = 1

/-! ## The decoder (R339, R341 to R343) -/

/-- What a decode came to: bytes that passed the CRC, a shortfall with the bytes produced and ORIG_LEN, or a failure with
its status, stream offset and output position (R349). -/
inductive Decoded where
  | ok (bytes : List Byte)
  | short (bytes : List Byte) (orig : Nat)
  | fail (st : Status) (inOff outPos : Nat)
  deriving DecidableEq, Repr

/-- The offset that a header or CRC failure reports. -/
def noOffset : Nat := 0x1FFFF

/-- Copy n bytes from `dist` back, in ascending order (R339). -/
def copyBack (dist : Nat) : Nat → List Byte → List Byte
  | 0, out => out
  | n + 1, out => copyBack dist n (out ++ [out.getD (out.length - dist) 0])

/-- What one token does: bytes used and the new output, a failure, or cut off by the end of the stream. -/
inductive TokenStep where
  | go (used : Nat) (out : List Byte)
  | bad (st : Status)
  | cut
  deriving DecidableEq, Repr

/-- A record-repeat of n records (R339, R341): `dist` and `n` where their bytes are present. -/
def repeatStep (w orig : Nat) (out : List Byte) (dist n : Option Nat) (used : Nat) : TokenStep :=
  let p := out.length
  if w = 0 ∨ p % w ≠ 0 then .bad stDecodeIllegal
  else match dist with
    | some d =>
      if d = 0 then .bad stDecodeIllegal
      else if p < d * w then .bad stDecodeDistance
      else match n with
        | some k => if orig < p + k * w then .bad stDecodeOverrun else .go used (copyBack (d * w) (k * w) out)
        | none => .cut
    | none => match n with
      | some k => if orig < p + k * w then .bad stDecodeOverrun else .cut
      | none => .cut

/-- One token at the front of the stream that is left (R338, R341). -/
def tokenStep (w orig : Nat) (out : List Byte) (rest : List Byte) : TokenStep :=
  let p := out.length
  match rest with
  | [] => .cut
  | b :: more =>
    let v := b.toNat
    if p = orig then .bad stDecodeOverrun
    else if v < 0x80 then
      if orig < p + v + 1 then .bad stDecodeOverrun
      else if more.length < v + 1 then .cut else .go (v + 2) (out ++ more.take (v + 1))
    else if v < 0xC0 then
      let n := v - 0x80 + 3
      if orig < p + n then .bad stDecodeOverrun
      else match more with
        | x :: _ => .go 2 (out ++ List.replicate n x)
        | [] => .cut
    else if v = 0xC0 then
      match more with
      | l0 :: l1 :: tail =>
        let n := ofLe [l0, l1] + 1
        if orig < p + n then .bad stDecodeOverrun
        else match tail with
          | x :: _ => .go 4 (out ++ List.replicate n x)
          | [] => .cut
      | _ => .cut
    else if v < 0xE0 then .bad stDecodeIllegal
    else if v < 0xFF then
      repeatStep w orig out (more.head?.map (·.toNat)) (some (v - 0xE0 + 1)) 2
    else
      repeatStep w orig out (more.head?.map (·.toNat))
        (match more with | _ :: c0 :: c1 :: _ => some (ofLe [c0, c1] + 1) | _ => none) 4

/-- Run the tokens: the output, the offset of a cut-off token if any, or the failure. -/
def decodeTokens (w orig : Nat) : Nat → Nat → List Byte → List Byte → Except (Status × Nat × Nat) (List Byte × Option Nat)
  | 0, _, out, _ => .ok (out, none)
  | fuel + 1, off, out, rest =>
    if rest.isEmpty then .ok (out, none)
    else match tokenStep w orig out rest with
      | .bad st => .error (st, off, out.length)
      | .cut => .ok (out, some off)
      | .go used out' => decodeTokens w orig fuel (off + used) out' (rest.drop used)

/-- Decode a payload under a stage's RECORD_WIDTH (0 takes the header's) (R341 to R343). -/
def decodeBlock (stageWidth : Nat) (payload : List Byte) : Decoded :=
  let kind := (payload.headD 0).toNat % 16
  let w := leAt payload 2 2
  let orig := leAt payload 4 4
  let coded := leAt payload 8 4
  let bad : Bool := payload.length < 16 || (payload.headD 0).toNat / 16 ≠ 1 || 1 < kind || payload.getD 1 0 ≠ 0 || 4096 < w ||
    orig = 0 || 65536 < orig || coded = 0 || (kind = 1 && coded ≠ orig)
  if bad then .fail stDecodeIllegal noOffset 0
  else if stageWidth ≠ 0 ∧ stageWidth ≠ w then .fail stDecodeIllegal noOffset 0
  else
    let stream := (payload.drop 16).take coded
    let short := payload.length - 16 < coded
    match (if kind = 1 then .ok (stream, none) else decodeTokens w orig stream.length 0 [] stream) with
    | .error (st, off, p) => .fail st off p
    | .ok (out, cut) =>
      if out.length < orig then
        if short then .short out orig else .fail stDecodeIllegal (cut.getD coded) out.length
      else if crc32c out = leAt payload 12 4 then .ok out
      else .fail stGuard noOffset out.length

/-! ## Reshuffles (R386 to R388) -/

/-- G of R386. -/
def shuffleGroup (len unit : Nat) : Nat := 8 * (len / unit / 8)

/-- TRANSPOSE with a UNIT (R386). -/
def transpose (unit : Nat) (bs : List Byte) : List Byte :=
  let g := shuffleGroup bs.length unit
  let planes := (List.range (8 * unit)).map fun q =>
    (List.range (g / 8)).map fun m =>
      BitVec.ofNat 8 ((List.range 8).foldl (fun v k =>
        v + bitIf ((bs.getD ((8 * m + k) * unit + q / 8) 0).getLsbD (q % 8)) k) 0)
  planes.flatten ++ bs.drop (g * unit)

/-- UNTRANSPOSE with a UNIT (R387). -/
def untranspose (unit : Nat) (bs : List Byte) : List Byte :=
  let g := shuffleGroup bs.length unit
  let body := (List.range (g * unit)).map fun i =>
    let t := i / unit
    let j := i % unit
    BitVec.ofNat 8 ((List.range 8).foldl (fun v b =>
      v + bitIf ((bs.getD ((8 * j + b) * (g / 8) + t / 8) 0).getLsbD (t % 8)) b) 0)
  body ++ bs.drop (g * unit)

/-- INTERLEAVE with STREAMS and ELEMENT (R388). -/
def interleave (streams elem : Nat) (bs : List Byte) : List Byte :=
  let k := bs.length / (streams * elem)
  let body := (List.range (streams * k * elem)).map fun i =>
    let e := i % elem
    let q := i / elem
    bs.getD ((q % streams) * k * elem + (q / streams) * elem + e) 0
  body ++ bs.drop (streams * k * elem)

/-- DE-INTERLEAVE with STREAMS and ELEMENT (R388). -/
def deinterleave (streams elem : Nat) (bs : List Byte) : List Byte :=
  let k := bs.length / (streams * elem)
  let body := (List.range (streams * k * elem)).map fun i =>
    let e := i % elem
    let q := i / elem
    bs.getD (((q % k) * streams + q / k) * elem + e) 0
  body ++ bs.drop (streams * k * elem)

/-- The four operations by OP code (R53). -/
def reshuffle (op unit streams elem : Nat) (bs : List Byte) : List Byte :=
  match op with
  | 0 => transpose unit bs
  | 1 => untranspose unit bs
  | 2 => interleave streams elem bs
  | _ => deinterleave streams elem bs

end Sys2Proof.Machine
end

