-- ==== Sys2Proof/Machine/MemOps.lean ====
section
/-! DEFINITION. DRAM as memory protection sees it: which channel holds an address, and what a write does to poison, to wrong
bits, to a pending rewrite and to an armed injection (R402, R407, R409, R416, R417, R422, R440). -/

namespace Sys2Proof.Machine

/-- Installed DRAM in bytes (R403). -/
def dramBytes (b : Board) : Nat := 4 * b.dramGibPerChannel * 2 ^ 30

def State.dramChan (s : State) (c : Nat) : DramChan := s.memory.chans.getD c DramChan.reset
def State.onDramChan (s : State) (c : Nat) (g : DramChan → DramChan) : State :=
  s.onMem fun m => { m with chans := m.chans.set c (g (m.chans.getD c DramChan.reset)) }

/-- The density of a device in Gbit that the population gives (R403, R430). -/
def dramDensity (b : Board) : Nat := b.dramGibPerChannel * b.dramWidth / (8 * b.dramRanks)
/-- The population of a channel meets the conditions of R403. -/
def dramSupported (b : Board) (c : Nat) : Bool :=
  (b.dramWidth ∈ [4, 8, 16]) && (b.dramRanks ∈ [1, 2]) && (b.dramGibPerChannel ∈ [16, 32, 64]) && (dramDensity b ∈ [16, 32]) &&
  !(c ∈ b.dramMisfits)

/-- Where a line lies (R402, R407). -/
structure DramLoc where
  ch  : Nat
  sc  : Nat
  col : Nat
  bg  : Nat
  ba  : Nat
  rk  : Nat
  row : Nat
  deriving DecidableEq, Repr

/-- Cut a number into fields of so many bits from bit 0 up; what is left comes last. -/
def cutFields : List Nat → Nat → List Nat
  | [], x => [x]
  | w :: ws, x => x % 2 ^ w :: cutFields ws (x / 2 ^ w)

/-- The width of BG: 2 bits for x16 devices, else 3. -/
def bgBits (b : Board) : Nat := if b.dramWidth = 16 then 2 else 3

/-- The location of an INTERNAL DRAM address in an order: 0 LINE, 1 ROW, 2 HASH, 3 CHANNEL (R407). -/
def dramLoc (b : Board) (order a : Nat) : DramLoc :=
  let rk := b.dramRanks - 1
  let bg := bgBits b
  let quarter := b.dramGibPerChannel * 2 ^ 30
  let of (ws : List Nat) (x : Nat) : Nat → Nat := fun i => (cutFields ws x).getD i 0
  match order with
  | 1 =>
    let f := of [1, 2, 6, bg, 2, rk] (a / 64)
    { sc := f 0, ch := f 1, col := f 2, bg := f 3, ba := f 4, rk := f 5, row := f 6 }
  | 3 =>
    let f := of [1, 6, bg, 2, rk] (a % quarter / 64)
    { sc := f 0, ch := a / quarter, col := f 1, bg := f 2, ba := f 3, rk := f 4, row := f 5 }
  | _ =>
    let f := of [1, 2, bg, 2, 6, rk] (a / 64)
    let row := f 6
    if order = 2 then
      { sc := f 0, ch := f 1, bg := f 2 ^^^ row % 2 ^ bg, ba := f 3 ^^^ row / 2 ^ bg % 4, col := f 4, rk := f 5, row := row }
    else { sc := f 0, ch := f 1, bg := f 2, ba := f 3, col := f 4, rk := f 5, row := row }

/-- The location of an address in the order that the last training took (R408). -/
def State.locOf (s : State) (a : Nat) : DramLoc := dramLoc s.board (s.dramChan 0).order a
/-- The channel of an INTERNAL DRAM address. -/
def channelOfAddr (s : State) (a : Nat) : Nat := (s.locOf a).ch
/-- The number of a location's bank. -/
def DramLoc.bank (l : DramLoc) : Nat := (((l.ch * 2 + l.sc) * 2 + l.rk) * 8 + l.bg) * 4 + l.ba

/-- Where staging SRAM begins (R378), and the bytes of one of its 128 banks (R2). -/
def stagingBase : Nat := 0x10000000000
def stagingBank : Nat := 0x80000
/-- The memory group of an INTERNAL address: a DRAM channel, or 16 staging SRAM banks (R378, R418). -/
def groupOfAddr (s : State) (a : Nat) : Nat :=
  if stagingBase ≤ a then 4 + (a - stagingBase) / stagingBank / 16 else channelOfAddr s a

/-- Where the second copy of a byte of a SHADOW line lies: on the channel two further (R412). Which channel and which address is the
model's choice. DESIGN CHOICE (notes/assumptions/55.md). -/
def shadowTwin (s : State) (a : Nat) : Nat :=
  if (s.dramChan 0).order = 3 then
    let quarter := s.board.dramGibPerChannel * 2 ^ 30
    if a < 2 * quarter then a + 2 * quarter else a - 2 * quarter
  else if bitsOf a 8 8 = 0 then a + 256 else a - 256

/-- The address that a write of ECC_INJECT_ADDR names. -/
def injectAddr (s : State) : Nat := (s.reg rEccInjectLo).toNat + (s.reg rEccInjectHi).toNat * 2 ^ 32
/-- The bits that an injection flips. -/
def injectBits (s : State) : List Nat :=
  let b := s.regFld rEccInject 15 8
  s.regFld rEccInject 7 0 :: if b = 0xFF then [] else [b]

/-- A rewrite that waits for a word is done, by Owl or by a write: the entry becomes REWRITTEN with COUNT 0 (R422). -/
def MemSide.rewritten (m : MemSide) (g a : Nat) : MemSide :=
  if (g, a) ∈ m.rewrites then
    { m with rewrites := m.rewrites.erase (g, a),
             logs := m.logs.map fun l => if l.group = g ∧ l.addr = a ∧ l.st ≠ .hard ∧ l.st ≠ .retired then { l with st := .rewritten, count := 0 } else l }
  else m

/-- What a write does to the check bits of one word. A whole word replaces poison; part of a poisoned word leaves it
poisoned, with zero data (R416, R417). -/
def State.writeWord (s : State) (word : Nat) (whole : Bool) : State :=
  let a := 8 * word
  let g := groupOfAddr s a
  let hits := s.memory.flips.filter fun f => f.1 = g && f.2.1 = a
  let inject := s.memory.armed && s.regFld rEccInject 20 16 = g && injectAddr s / 8 = word
  s.onMem fun m =>
    let m1 := m.rewritten g a
    let m2 :=
      if whole then
        { m1 with poison := m1.poison.erase (g, a), flips := m1.flips.filter fun f => !(f.1 = g && f.2.1 = a) }
      else if (g, a) ∈ m1.poison then { m1 with dram := m1.dram.clear a 8 }
      else if hits.length ≤ 1 then { m1 with flips := m1.flips.filter fun f => !(f.1 = g && f.2.1 = a) }
      else m1
    if inject then { m2 with armed := false, injected := true, flips := m2.flips ++ (injectBits s).map fun b => (g, a, b) } else m2

/-- The words that some bytes touch. -/
def wordsOf (a n : Nat) : List Nat := if n = 0 then [] else (List.range ((a + n - 1) / 8 + 1 - a / 8)).map (· + a / 8)
/-- Some bytes cover a word whole. -/
def wholeWord (a n word : Nat) : Bool := decide (a ≤ 8 * word) && decide (8 * word + 8 ≤ a + n)

/-- Write bytes to DRAM. -/
def State.dramWrite (s : State) (a : Nat) (bs : List Byte) : State :=
  let s1 := s.onMem fun m => { m with dram := Mem.writeBytes m.dram a bs }
  if s.memory.poison.isEmpty ∧ s.memory.flips.isEmpty ∧ s.memory.rewrites.isEmpty ∧ !s.memory.armed then s1
  else (wordsOf a bs.length).foldl (fun t w => t.writeWord w (wholeWord a bs.length w)) s1

end Sys2Proof.Machine
end

