-- ==== Sys2Proof/Machine/Dma.lean ====
section
/-! DEFINITION. The DMA channels that firmware and manager functions drive (R376 to R401), and the reads and writes of
the three address spaces that Trail tasks share with them (R378). -/

namespace Sys2Proof.Machine

/-! ## Address spaces (R378, R454) -/

/-- Host memory after a write while a command runs: what the view backs, it then reads back. -/
def hvWrite (hv : HostView) (a : Nat) (bs : List Byte) : HostView :=
  hv.map fun r =>
    if r.addr ≤ a ∧ a + bs.length ≤ r.addr + r.bytes.length then { r with bytes := patch r.bytes (a - r.addr) bs } else r

/-- Read bytes of a space: 0 INTERNAL, 1 HOST, 2 SLM. -/
def dmaRead (s : State) (hv : HostView) (space a n : Nat) : Option (List Byte) :=
  match space with
  | 0 => if s.up .mem then some (Mem.readBytes s.memory.dram a n) else none
  | 1 => if s.up .host then hvRead hv a n else none
  | 2 => match s.slmRange (a / 2 ^ 32) with
    | some x => if s.up .mem ∧ a % 2 ^ 32 + n ≤ x.nsze then some (Mem.readBytes x.mem (a % 2 ^ 32) n) else none
    | none => none
  | _ => none

/-- Write bytes of a space; host writes are posted (R380). -/
def dmaWrite (s : State) (hv : HostView) (space : Nat) (f : Fn) (a : Nat) (bs : List Byte) : State × HostView :=
  if bs.isEmpty then (s, hv) else
  match space with
  | 0 => (s.dramWrite a bs, hv)
  | 1 => (s.post (portOfFn f) (.hostWrite f a bs), hvWrite hv a bs)
  | 2 => (s.slmWrite (a / 2 ^ 32) (a % 2 ^ 32) bs, hv)
  | _ => (s, hv)

/-! ## Channels -/

def State.chan (s : State) (n : Nat) : DmaChan := s.dma.getD n DmaChan.reset
def State.setChan (s : State) (n : Nat) (c : DmaChan) : State := s.onDma fun d => Tbl.put DmaChan.reset d n c
def State.onChan (s : State) (n : Nat) (g : DmaChan → DmaChan) : State := s.setChan n (g (s.chan n))

def dmaOwnerCode : DmaOwner → Nat
  | .dispatch => 0 | .firmware => 1 | .managerA => 2 | .managerB => 3
def dmaOwnerOf : Nat → DmaOwner
  | 1 => .firmware | 2 => .managerA | 3 => .managerB | _ => .dispatch
/-- The owner code a requester may set (R377). -/
def requesterOwner : Requester → DmaOwner
  | .portA => .managerA | .portB => .managerB | _ => .firmware

/-- The manager function that owns a channel. -/
def dmaManager : DmaOwner → Option Fn
  | .managerA => some 0
  | .managerB => some 256
  | _ => none

/-- The Trail task that runs on a channel. -/
def dmaTask (s : State) (n : Nat) : Option Running :=
  s.disp.running.find? fun r => decide (r.cls = .dma) && decide (r.unit = n)

/-- BUSY: a descriptor is in progress, or the task that a channel taken from the dispatcher still finishes (R377). -/
def dmaBusy (s : State) (n : Nat) : Bool := (s.chan n).busy || (dmaTask s n).isSome

/-! ## Errors (R390 to R393, R396) -/

/-- Record an error in the error registers: the first since they were cleared, else OVERFLOW (R396). -/
def State.dmaRecord (s : State) (code channel : Nat) (addr : W64) (stopAll : Bool) : State :=
  if s.regBit rDmaErrStatus 31 then
    s.setReg rDmaErrStatus (s.reg rDmaErrStatus ||| w32 (2 ^ 29 + bitIf stopAll 30))
  else
    ((s.setReg rDmaErrStatus (w32 (2 ^ 31 + bitIf stopAll 30 + code % 16 * 2 ^ 16 + channel % 64))).setReg
      rDmaErrAddrLo (loOf addr.toNat)).setReg rDmaErrAddrHi (hiOf addr.toNat)

/-- A channel stops with a code; DESC_DONE, the pointer and the addresses keep their values (R392). -/
def DmaChan.stop (c : DmaChan) (code : Nat) : DmaChan :=
  { c with busy := false, err := true, errCode := code, done := false, paceWait := false }

/-- The status a Trail task takes from an error code (R390). -/
def dmaStatus : Nat → Status
  | 4 => stTrailMalformed
  | 5 => stPoisoned
  | 6 => stEngineTimeout
  | _ => stBusError

/-- A channel of owner 1 to 3 stops on an error of its own. -/
def State.dmaFail (s : State) (n code : Nat) (addr : W64) : State :=
  (((s.onChan n fun c => c.stop code).dmaRecord code n addr false).addCnt (rDmaCount 4)
    (if 2 ≤ code ∧ code ≤ 5 then 1 else 0)).irq

/-! ## Descriptors (R378, R379) -/

/-- The descriptor that 32 bytes spell. -/
def dmaDescOf (b : List Byte) : DmaDesc :=
  let flags := leAt b 0x15 1
  { src := leAt b 0 8, dst := leAt b 8 8, length := leAt b 0x10 4, op := leAt b 0x14 1, srcSpace := flags % 4,
    dstSpace := flags / 4 % 4, fence := flags / 16 % 2 = 1, paramA := leAt b 0x16 1, paramB := leAt b 0x17 1,
    pace := leAt b 0x18 2 / 4096, func := leAt b 0x18 2 % 512, next := leAt b 0x1A 6 }

/-- The reserved bits of FLAGS and FUNC_PACE are 0. -/
def dmaReservedOk (b : List Byte) : Bool := leAt b 0x15 1 < 32 && leAt b 0x18 2 / 512 % 8 = 0

/-- A FUNC that a channel's owner may name for HOST space (R378). -/
def dmaFuncOk (s : State) (o : DmaOwner) (f : Fn) : Bool :=
  s.fnExists f && match dmaManager o with
    | some m => decide (portOfFn f = portOfFn m)
    | none => true

/-- An address and a length lie in their space, and the owner may use it (R378). -/
def dmaAddrOk (s : State) (o : DmaOwner) (space a len : Nat) (f : Fn) : Bool :=
  match space with
  | 0 => (dmaManager o).isNone &&
    (decide (a + len ≤ 0x4000000000) || (decide (0x10000000000 ≤ a) && decide (a + len ≤ 0x10004000000)))
  | 1 => decide (a + len ≤ 2 ^ 64) && dmaFuncOk s o f
  | 2 => s.slmFits (a / 2 ^ 32) (a % 2 ^ 32) len && match dmaManager o, s.slmRange (a / 2 ^ 32) with
    | some m, some x => x.attached.any fun g => decide (portOfFn g = portOfFn m)
    | some _, none => false
    | none, _ => true
  | _ => false

/-- The operation, its length and its parameters (R379). -/
def dmaOpOk (d : DmaDesc) : Bool :=
  match d.op with
  | 0 => decide (1 ≤ d.length) && decide (d.length ≤ 0x80000000) && d.paramA = 0 && d.paramB = 0
  | 1 | 2 => decide (1 ≤ d.length) && decide (d.length ≤ 131072) && decide (1 ≤ d.paramA) && decide (d.paramA ≤ 64) && d.paramB = 0
  | 3 | 4 => decide (1 ≤ d.length) && decide (d.length ≤ 131072) && decide (2 ≤ d.paramA) && decide (d.paramA ≤ 16) &&
    decide (1 ≤ d.paramB) && decide (d.paramB ≤ 8)
  | _ => false

/-- The paced targets (R385). -/
def dmaPaceOk (t : Nat) : Bool := t = 0 || t = 2 || t = 3 || t = 4 || t = 5 || t = 8

/-- HEAD: only LENGTH 0, DST 0 and no parameters. -/
def dmaHeadOk (d : DmaDesc) : Bool := d.length = 0 && d.dst = 0 && d.paramA = 0 && d.paramB = 0 && dmaPaceOk d.pace

/-- A data descriptor that the checks pass. -/
def dmaDataOk (s : State) (o : DmaOwner) (d : DmaDesc) : Bool :=
  dmaOpOk d && dmaPaceOk d.pace && dmaAddrOk s o d.srcSpace d.src d.length d.func &&
  dmaAddrOk s o d.dstSpace d.dst d.length d.func

/-- The descriptor at an address, in the space of the owner (R378). -/
def dmaFetch (s : State) (o : DmaOwner) (ptr : Nat) : Option (List Byte) :=
  if (dmaManager o).isSome then
    if dmaAddrOk s o 2 ptr 32 0 then dmaRead s [] 2 ptr 32 else none
  else if dmaAddrOk s o 0 ptr 32 0 then dmaRead s [] 0 ptr 32 else none

/-- The fill of a pace target. -/
def paceFill (s : State) (t : Nat) : Nat :=
  match t with
  | 2 => queueFill s .cipher
  | 3 => queueFill s .digest
  | 4 => queueFill s .codec
  | 5 => queueFill s .lynx
  | 8 => (digestJobs s).length
  | _ => 0

/-- The fill is at or above HIGH. -/
def paceHigh (s : State) (t : Nat) : Bool := t ≠ 0 && decide (s.regFld (rDmaPace t) 15 8 ≤ paceFill s t)
/-- The fill is at or below LOW. -/
def paceLow (s : State) (t : Nat) : Bool := t = 0 || decide (paceFill s t ≤ s.regFld (rDmaPace t) 7 0)

/-- The bytes of a descriptor that its list may still move (R389). -/
def DmaChan.clip (c : DmaChan) (len : Nat) : Nat :=
  match c.declared with
  | some d => Nat.min len (d - c.moved)
  | none => len

/-- Begin the data descriptor at `ptr`. -/
def DmaChan.begin_ (c : DmaChan) (ptr : Nat) (d : DmaDesc) (wait : Bool) : DmaChan :=
  { c with busy := true, ptr := ptr, src := d.src, dst := d.dst, remain := c.clip d.length, desc := some d,
           paceWait := wait, held := c.pause }

/-- The list ends at NEXT 0: DONE, and a HEAD's length is compared (R380, R389). -/
def DmaChan.finish (c : DmaChan) : DmaChan :=
  let c1 := { c with busy := false, done := true, desc := none, paceWait := false }
  match c.declared with
  | some d => if d = c.sum then c1 else { c1 with mismatch := true, lenDecl := d, lenAct := c.sum }
  | none => c1

/-- Count a completed descriptor. -/
def State.dmaCountDesc (s : State) (n : Nat) : State :=
  (s.onChan n fun c => { c with descDone := satAdd 0xFFFF c.descDone 1 }).addCnt (rDmaCount 2) 1

/-- Fetch, check and begin the data descriptor at an address. -/
def State.dmaData (s : State) (n ptr : Nat) : State :=
  let c := s.chan n
  match dmaFetch s c.owner ptr with
  | some b =>
    let d := dmaDescOf b
    if ptr % 32 = 0 ∧ dmaReservedOk b ∧ dmaDataOk s c.owner d then
      s.onChan n fun c => c.begin_ ptr d (paceHigh s d.pace)
    else (s.onChan n fun c => { c with ptr := ptr }).dmaFail n 4 (BitVec.ofNat 64 ptr)
  | none => (s.onChan n fun c => { c with ptr := ptr }).dmaFail n 4 (BitVec.ofNat 64 ptr)

/-- Follow NEXT. -/
def State.dmaNext (s : State) (n next : Nat) : State :=
  if next = 0 then s.onChan n DmaChan.finish else s.dmaData n next

/-- Start the list at DMA_DESC_PTR: a HEAD, if it comes first, declares the length (R380, R389). -/
def State.dmaStart (s : State) (n : Nat) : State :=
  let c := s.chan n
  match dmaFetch s c.owner c.ptr with
  | some b =>
    let d := dmaDescOf b
    if d.op = 0x0F then
      if c.ptr % 32 = 0 ∧ dmaReservedOk b ∧ dmaHeadOk d then
        ((s.onChan n fun c => { c with declared := some d.src, busy := true }).dmaCountDesc n).dmaNext n d.next
      else s.dmaFail n 4 (BitVec.ofNat 64 c.ptr)
    else s.dmaData n c.ptr
  | none => s.dmaFail n 4 (BitVec.ofNat 64 c.ptr)

/-! ## Moving data (R381, R386 to R388) -/

/-- A write at a space is acknowledged; posted host writes are never refused (R390). -/
def dmaWritable (s : State) (space a n : Nat) : Bool :=
  match space with
  | 0 => s.up .mem
  | 1 => true
  | 2 => s.up .mem && s.slmFits (a / 2 ^ 32) (a % 2 ^ 32) n
  | _ => false

/-- The island behind a space. -/
def dmaIsland (space : Nat) : Island := if space = 1 then .host else .mem

/-- A bridge error toward the island behind a space, where that is the cause of a failed access (R14, R16). -/
def State.dmaBridge (s : State) (space : Nat) : State :=
  if s.up (dmaIsland space) then s else s.noteBridge (dmaIsland space) .engine

/-- How a move ended: the state, the bytes left, and the error code that stopped it, 2 for a read and 3 for a write. -/
structure Moved where
  state : State
  view  : HostView
  left  : Nat
  code  : Option Nat

/-- A word of an INTERNAL range is poisoned: its data never moves on (R390, R426). -/
def dmaPoisoned (s : State) (space a n : Nat) : Bool :=
  space = 0 && s.memory.poison.any fun p => decide (p.1 < 12) && decide (a / 8 * 8 ≤ p.2) && decide (p.2 < a + n)

/-- One piece: read in full, then written. -/
def dmaPiece (s : State) (hv : HostView) (d : DmaDesc) (f : List Byte → List Byte) (a b n left : Nat) : Moved :=
  if dmaPoisoned s d.srcSpace a n then ⟨s, hv, left, some 5⟩
  else match dmaRead s hv d.srcSpace a n with
  | none => ⟨s.dmaBridge d.srcSpace, hv, left, some 2⟩
  | some bs =>
    let s1 := s.addCnt (rDmaCount 0) n
    if dmaWritable s1 d.dstSpace b n then
      let (s2, hv2) := dmaWrite s1 hv d.dstSpace d.func b (f bs)
      ⟨s2.addCnt (rDmaCount 1) n, hv2, left - n, none⟩
    else ⟨s1.dmaBridge d.dstSpace, hv, left, some 3⟩

/-- Copy pieces of up to 4 KiB in ascending order (R381). -/
def copyPieces (d : DmaDesc) : Nat → State → HostView → Nat → Nat → Nat → Moved
  | 0, s, hv, _, _, left => ⟨s, hv, left, none⟩
  | fuel + 1, s, hv, a, b, left =>
    if left = 0 then ⟨s, hv, 0, none⟩
    else
      let n := Nat.min 4096 left
      let m := dmaPiece s hv d id a b n left
      match m.code with
      | some _ => m
      | none => copyPieces d fuel m.state m.view (a + n) (b + n) m.left

/-- Move n bytes by a descriptor from an address to another: what is left when an access failed and the code of its error, with
the bytes read and written counted. A reshuffle reads its whole source first (R381). -/
def State.dmaMove (s : State) (hv : HostView) (d : DmaDesc) (a b n : Nat) : State × Nat × Option Nat :=
  let m := if d.op = 0 then copyPieces d (n / 4096 + 1) s hv a b n
    else if n = 0 then ⟨s, hv, 0, none⟩
    else dmaPiece s hv d (reshuffle (d.op - 1) d.paramA d.paramA d.paramB) a b n n
  (m.state, m.left, m.code)

/-- The channel has moved so many bytes of its descriptor. -/
def DmaChan.advance (c : DmaChan) (n : Nat) : DmaChan :=
  { c with src := c.src + n, dst := c.dst + n, moved := c.moved + n, remain := c.remain - n }

/-- Move the next n bytes of a channel's descriptor; an error stops the channel (R384, R390). The flag says that none did. -/
def State.dmaRun (s : State) (n : Nat) (d : DmaDesc) (hv : HostView) (k : Nat) : State × Bool :=
  let c := s.chan n
  let (s1, left, code) := s.dmaMove hv d c.src c.dst k
  let s2 := s1.onChan n fun c => c.advance (k - left)
  match code with
  | none => (s2, true)
  | some e => (s2.dmaFail n e (BitVec.ofNat 64 (if e = 3 then (s2.chan n).dst else (s2.chan n).src)), false)

/-- A descriptor completes and the channel follows NEXT, or sets DONE (R380). One that began while PAUSE was 1 reads nothing
(R383). -/
def execDmaDescriptorDone (channel : Nat) (hv : HostView) (s : State) : Host.Outcome State Fault Refusal :=
  let c := s.chan channel
  .next (match c.desc with
  | some d =>
    if s.up .engine ∧ c.busy ∧ !c.paused ∧ !c.held ∧ !c.paceWait then
      let (s1, ok) := s.dmaRun channel d hv c.remain
      if ok then ((s1.onChan channel fun c => { c with sum := c.sum + d.length }).dmaCountDesc channel).dmaNext channel d.next
      else s1
    else s
  | none => s)

/-! ## The channel registers (R377, R383, R384, R393, R398) -/

/-- ARM (R393). -/
def State.dmaArm (s : State) (n : Nat) : State :=
  let c := s.chan n
  if s.regBit rDmaErrStatus 30 ∨ dmaBusy s n ∨ c.pause then s
  else
    (s.onChan n fun c =>
      { c with err := false, errCode := 0, done := false, mismatch := false, descDone := 0,
               declared := none, sum := 0, moved := 0, held := false, desc := none }).dmaStart n

/-- Channels with an owner other than the dispatcher. -/
def dmaTaken (s : State) : Nat :=
  (s.dma.filter fun e => decide (e.2.owner ≠ .dispatch)).length

/-- The OWNER field of a write; a channel taken during a task finishes it first, and BUSY stays 1 until then (R377, R394). -/
def State.dmaOwner (s : State) (r : Requester) (n : Nat) (want : DmaOwner) : State :=
  let c := s.chan n
  let mine := requesterOwner r
  if s.regBit rDmaGlbCtl 31 then s
  else if c.owner = .dispatch ∧ want = mine ∧ dmaTaken s < 8 then s.setChan n { c with owner := mine }
  else if c.owner = mine ∧ want = .dispatch ∧ !c.busy ∧ !c.pause then s.setChan n { c with owner := .dispatch }
  else s

/-- The PAUSE bit of a write (R383, R384). -/
def State.dmaPauseBit (s : State) (n : Nat) (on : Bool) : State :=
  s.onChan n fun c =>
    if c.owner = .dispatch then c
    else if on then { c with pause := true }
    else { c with pause := false, paused := false, held := false }

/-- A requester may drive a channel: the owning manager function, or firmware (R377). -/
def dmaMayDrive (s : State) (r : Requester) (n : Nat) : Bool :=
  (s.chan n).owner ≠ .dispatch && (isFirmware r || decide ((s.chan n).owner = requesterOwner r))

/-- A write of DMA_CTL_n: OWNER when it claims, PAUSE, ARM, and OWNER when it returns the channel. -/
def State.dmaCtlWrite (s : State) (r : Requester) (n : Nat) (v : W32) : State :=
  if s.barReaches r (rDmaChan n) ∧ n < 64 then
    let want := dmaOwnerOf (fld v 29 28)
    let s1 := if want = .dispatch then s else s.dmaOwner r n want
    if dmaMayDrive s1 r n then
      let s2 := s1.dmaPauseBit n (bitAt v 30)
      let s3 := if bitAt v 31 then s2.dmaArm n else s2
      if want = .dispatch then s3.dmaOwner r n want else s3
    else s1
  else s.barMiss r (rDmaChan n)

/-- DMA_CTL_n with ARM 1. -/
def execArm (r : Requester) (channel : Nat) (value : W32) (s : State) : Host.Outcome State Fault Refusal :=
  if bitAt value 31 then .next (s.dmaCtlWrite r channel value) else .next s

/-- DMA_CTL_n with PAUSE 1. -/
def execDmaPause (r : Requester) (channel : Nat) (value : W32) (s : State) : Host.Outcome State Fault Refusal :=
  if bitAt value 30 then .next (s.dmaCtlWrite r channel value) else .next s

/-- DMA_CTL_n with PAUSE 0. -/
def execDmaResume (r : Requester) (channel : Nat) (value : W32) (s : State) : Host.Outcome State Fault Refusal :=
  if bitAt value 30 then .next s else .next (s.dmaCtlWrite r channel value)

/-- DMA_CTL_n with another OWNER. -/
def execDmaOwnerWrite (r : Requester) (channel : Nat) (value : W32) (s : State) : Host.Outcome State Fault Refusal :=
  if dmaOwnerOf (fld value 29 28) = (s.chan channel).owner then .next s else .next (s.dmaCtlWrite r channel value)

/-- PAUSED can be set with the descriptor where it stands: none runs, or it has issued no read. -/
def DmaChan.quiet (c : DmaChan) : Bool := !c.busy || c.held || c.paceWait

/-- The reads already issued complete: `moved` bytes of a COPY have gone, and PAUSED is set. A reshuffle pauses only at its end
(R383, R384), and a Trail task that a taken channel still runs ends first. -/
def execDmaPauseDrained (channel moved : Nat) (hv : HostView) (s : State) : Host.Outcome State Fault Refusal :=
  let c := s.chan channel
  .next (if s.up .engine ∧ c.pause ∧ !c.paused ∧ !c.err ∧ (dmaTask s channel).isNone then
    if c.quiet then if moved = 0 then s.onChan channel fun c => { c with paused := true } else s
    else match c.desc with
      | some d =>
        if d.op = 0 ∧ moved < c.remain then
          let (s1, ok) := s.dmaRun channel d hv moved
          if ok then s1.onChan channel fun c => { c with paused := true } else s1
        else s
      | none => s
  else s)

/-- The LO half of DMA_DESC_PTR: the pair takes effect, while BUSY and PAUSE are 0 (R400). -/
def execDmaDescPtrWrite (r : Requester) (channel : Nat) (value : W32) (s : State) : Host.Outcome State Fault Refusal :=
  if s.barReaches r (rDmaChan channel) ∧ channel < 64 ∧ dmaMayDrive s r channel ∧ !dmaBusy s channel ∧ !(s.chan channel).pause then
    .next (s.onChan channel fun c => { c with ptr := fld c.ptrHi 15 0 * 2 ^ 32 + value.toNat })
  else .next (s.barMiss r (rDmaChan channel))

/-! ## Pace (R385) -/

/-- The pace target of a Trail's memory source: the class of stage 1, where that is one. -/
def sourcePace (t : Trail) : Nat :=
  match Trail.stageAt t 1 with
  | some st => match st.cls with
    | .cipher => 2
    | .digest => 3
    | .codec => 4
    | .lynx => 5
    | _ => 0
  | none => 0

/-- What a channel is paced by: the target of the Trail task that it runs, if that is a source, or of its descriptor. -/
def paceTarget (s : State) (n : Nat) : Nat :=
  match dmaTask s n with
  | some r => match s.flow r.task.flow with
    | some f => if r.task.stage = 0 then sourcePace f.trail else 0
    | none => 0
  | none => match (s.chan n).desc with | some d => d.pace | none => 0

/-- Bytes that a channel has still to read: of its Trail task's chunk, or of its descriptor. -/
def paceLeft (s : State) (n : Nat) : Nat :=
  match dmaTask s n with
  | some r => match s.flow r.task.flow with | some f => Trail.chunkBytes f.trail | none => 0
  | none => (s.chan n).remain

/-- The channel's target has reached HIGH: it issues no further read. A transfer of one burst has issued its reads as it began. -/
def paceStops (s : State) (n : Nat) : Bool := decide (4096 < paceLeft s n) && paceHigh s (paceTarget s n)

/-- Fills have risen: the channels that run toward a target at HIGH wait (R385). -/
def State.paceHold (s : State) : State :=
  ((List.range 64).filter fun n => dmaBusy s n && !(s.chan n).paceWait && paceStops s n).foldl
    (fun t n => t.onChan n fun c => { c with paceWait := true }) s

/-- The pace target's fill has fallen to LOW (R385). -/
def execDmaPaceResume (channel : Nat) (s : State) : Host.Outcome State Fault Refusal :=
  .next (if (s.chan channel).paceWait ∧ dmaBusy s channel = true ∧ paceLow s (paceTarget s channel) then
    s.onChan channel fun c => { c with paceWait := false }
  else s)

/-! ## Trail tasks on a channel (R382, R390) -/

/-- The dispatcher arms a channel with a task's list: its status restarts, and a source whose target is at HIGH waits. -/
def State.dmaTaskBegins (s : State) (n : Nat) : State :=
  s.onChan n fun c => { c with err := false, errCode := 0, done := false, mismatch := false, descDone := 0,
                               paceWait := paceHigh s (paceTarget s n) }

/-- A task ends on its channel: DONE, unless it stopped on an error. -/
def State.dmaTaskEnds (s : State) (n : Nat) : State := s.onChan n fun c => { c with done := !c.err, paceWait := false }

/-! ## Errors that end a transfer -/

/-- A data read or write of a channel returns an error after `moved` bytes of the descriptor were issued; the bytes below
the failing address have landed (R390, R392; notes/assumptions/19.md). -/
def execDmaBusError (channel code : Nat) (addr : W64) (moved : Nat) (hv : HostView) (s : State) : Host.Outcome State Fault Refusal :=
  let c := s.chan channel
  if s.up .engine ∧ (code = 2 ∨ code = 3 ∨ code = 5) then
    match dmaTask s channel with
    | some t =>
      let s1 := (s.onDisp fun d => { d with running := d.running.filter fun x => !(decide (x.cls = .dma) && decide (x.unit = channel)) }).dmaFail
        channel code addr
      .next (s1.failTask t.task (dmaStatus code))
    | none =>
      match c.desc with
      | some d =>
        if c.busy ∧ !c.held ∧ !c.paceWait ∧ moved ≤ c.remain then
          let landed := Nat.min moved (addr.toNat - (if code = 3 then c.dst else c.src))
          let (s1, _) := s.dmaMove hv d c.src c.dst (if d.op = 0 then landed else 0)
          .next ((s1.onChan channel fun c => c.advance moved).dmaFail channel code addr)
        else .next s
      | none => .next s
  else .next s

/-- The code with which a DESC_FETCH error stops a channel: 1 for the failing one, 7 for the others (R391). -/
def fetchCode (failing : Option Nat) (n : Nat) : Nat := if failing = some n then 1 else 7

/-- Every Trail task on a DMA channel fails with a status. -/
def State.dmaFailTasks (s : State) (st : Status) : State :=
  let hit := s.disp.running.filter fun r => decide (r.cls = .dma)
  let s1 := s.onDisp fun d => { d with running := d.running.filter fun r => !decide (r.cls = .dma) }
  hit.foldl (fun t r => t.failTask r.task st) s1

/-- A descriptor fetch fails: every running or paused channel stops, and the DISPATCH channels are re-armed (R391). -/
def execDescFetchError (failing : Option Nat) (lastGrant : Nat) (addr : W64) (s : State) : Host.Outcome State Fault Refusal :=
  if s.up .engine then
    let s1 := s.onDma fun d => d.mapVals fun n c =>
      if c.owner ≠ .dispatch ∧ (c.busy ∨ c.paused) then { c.stop (fetchCode failing n) with paused := c.paused } else c
    .next ((((s1.dmaFailTasks stBusError).dmaRecord 1 lastGrant addr true).addCnt (rDmaCount 3) 1).irq)
  else .next s

/-- DMA_ERR_STATUS: VALID clears the three registers; OVERFLOW clears alone (R396). -/
def execDmaErrClear (r : Requester) (value : W32) (s : State) : Host.Outcome State Fault Refusal :=
  if s.barReaches r rDmaErrStatus then
    if bitAt value 31 then .next ((((s.setReg rDmaErrStatus 0).setReg rDmaErrAddrLo 0).setReg rDmaErrAddrHi 0).irq)
    else if bitAt value 29 then .next (s.setReg rDmaErrStatus (s.reg rDmaErrStatus &&& 0xDFFFFFFF#32))
    else .next s
  else .next (s.barMiss r rDmaErrStatus)

/-! ## Resets (R390, R394) -/

/-- An L1 reset of the DMA engine: running channels stop with code 8, or 6 for the one whose descriptor timed out; pointers
and OWNER are kept. -/
def State.dmaReset (s : State) (timedOut : Option Nat) : State :=
  s.onDma fun d => d.mapVals fun n c =>
    if c.busy then c.stop (if timedOut = some n then 6 else 8) else { c with paceWait := false }

/-- An L2 reset of ENGINE: the channels' registers reset; the ones that ran read code 8. -/
def State.dmaIslandReset (s : State) : State :=
  s.onDma fun d => Tbl.mapVals (d.filter fun e => e.2.busy) fun _ _ => { DmaChan.reset with err := true, errCode := 8 }

end Sys2Proof.Machine
end

