-- ==== Sys2Proof/Machine/ModuleOps.lean ====
section
/-! DEFINITION. Operations over Urmer modules and their authorities: the container, the queue of loads, which Trails name a
module, and the ledger records of modules (R138 to R148, R460, R518). -/

namespace Sys2Proof.Machine

/-! ## Modules (R143, R147) -/

def State.module (s : State) (m : Nat) : Option Module := s.hrt.modules.find m

/-- The stages of a Trail that name a module. -/
def Trail.namesModule (t : Trail) (m : Nat) : Bool :=
  t.stages.any fun x => match x with | .program k _ _ _ => k = m | _ => false

/-- The active Trails that name a module. -/
def moduleTrails (s : State) (m : Nat) : List Nat :=
  (s.disp.flows.filter fun e => e.2.bound && Trail.namesModule e.2.trail m).map (·.1)

/-- Pool bytes in use. -/
def poolUsed (s : State) : Nat := (s.hrt.modules.map fun e => e.2.poolBytes).sum

/-- Complete the forced unloads of a module that no active Trail names (R147). -/
def State.forcedDone (s : State) (m : Nat) : State :=
  match s.module m with
  | some x =>
    if (moduleTrails s m).isEmpty then
      x.forced.foldl (fun t w => t.admin w stOk 0)
        (s.onHrt fun h => { h with modules := h.modules.set m { x with forced := [] } })
    else s
  | none => s

/-- The same for every module. -/
def State.forcedAll (s : State) : State := (s.hrt.modules.map (·.1)).foldl State.forcedDone s

/-! ## The container (R139 to R141) -/

/-- Round up to a multiple of 4 KiB. -/
def roundPage (n : Nat) : Nat := ceilDiv n 4096 * 4096
def imageLength (img : List Byte) : Nat := leAt img 0x08 4
def sigOffset (img : List Byte) : Nat := leAt img 0x20 4
def imageAuthority (img : List Byte) : Nat := leAt img (sigOffset img) 2
def imageMeasurement (img : List Byte) : List Byte := slice img 0x40 48

/-- A kernel record. -/
def kernelOf (img : List Byte) (i : Nat) : KernelRec :=
  let o := leAt img 0x1C 4 + 64 * i
  let flags := leAt img (o + 2) 2
  { outRecords := bitsOf flags 0 0 = 1, maySubmit := bitsOf flags 1 1 = 1, mayLynx := bitsOf flags 2 2 = 1,
    entry := leAt img (o + 4) 4, outWindow := leAt img (o + 8) 4, scratch := leAt img (o + 0xC) 4,
    stack := leAt img (o + 0x10) 4, budgetDefault := leAt img (o + 0x14) 4, budgetMax := leAt img (o + 0x18) 4,
    recMin := leAt img (o + 0x1C) 2, recMax := leAt img (o + 0x1E) 2, name := slice img (o + 0x20) 32 }

/-- A name: ASCII, padded with 0 (R139, R140). -/
def nameOk : List Byte → Bool
  | [] => true
  | b :: bs => if b = 0 then bs.all fun c => c = 0 else decide (b.toNat < 128) && nameOk bs

/-- The default budget as R133 defines it. -/
def KernelRec.default (k : KernelRec) : Nat := if k.budgetDefault = 0 then 2000 else k.budgetDefault

/-- The fields of kernel record i are in range (R140). -/
def kernelOk (img : List Byte) (i : Nat) : Bool :=
  let o := leAt img 0x1C 4 + 64 * i
  let k := kernelOf img i
  leAt img o 2 = i && decide (leAt img (o + 2) 2 < 8) && k.entry % 2 = 0 && decide (k.entry < leAt img 0x10 4) &&
  k.outWindow % 4096 = 0 && decide (k.outWindow ≤ 131072) && k.scratch % 4096 = 0 && decide (k.scratch ≤ 1048576) &&
  k.stack % 4096 = 0 && decide (4096 ≤ k.stack) && decide (k.stack ≤ 262144) &&
  (k.budgetDefault = 0 || (decide (10 ≤ k.budgetDefault) && decide (k.budgetDefault ≤ 50000))) &&
  decide (10 ≤ k.budgetMax) && decide (k.budgetMax ≤ 50000) && decide (k.default ≤ k.budgetMax) &&
  decide (1 ≤ k.recMin) && decide (k.recMin ≤ k.recMax) && decide (k.recMax ≤ 4096) && nameOk k.name

/-- Text, read-only data and manifest: offset and length; an empty part takes no room. -/
def imageParts (img : List Byte) : List (Nat × Nat) :=
  [(leAt img 0x0C 4, leAt img 0x10 4), (leAt img 0x14 4, leAt img 0x18 4), (leAt img 0x1C 4, 64 * leAt img 0x06 2)].filter
    fun p => decide (p.2 ≠ 0)

/-- Two parts do not overlap. -/
def apart (p q : Nat × Nat) : Bool := decide (p.1 + p.2 ≤ q.1) || decide (q.1 + q.2 ≤ p.1)

/-- No two parts overlap. -/
def allApart : List (Nat × Nat) → Bool
  | [] => true
  | p :: ps => ps.all (apart p) && allApart ps

/-- The header fields are in range and the regions lie where R139 has them. Which reason an AUTHORITY above 31 or a nonzero
reserved byte of the signature block gets R145 does not say: the model takes them for fields of step 2. DEDUCED (notes/assumptions/22.md). -/
def headerOk (img : List Byte) : Bool :=
  let kc := leAt img 0x06 2
  let tl := leAt img 0x10 4
  let rl := leAt img 0x18 4
  let so := sigOffset img
  let parts := imageParts img
  decide (1 ≤ kc) && decide (kc ≤ 64) && imageLength img = so + 3412 && decide (imageLength img ≤ 24 * 2 ^ 20) &&
  decide (4096 ≤ tl) && decide (tl ≤ 4 * 2 ^ 20) && decide (rl ≤ 16 * 2 ^ 20) &&
  (parts.all fun p => decide (0x80 ≤ p.1) && decide (p.1 + p.2 ≤ so) && p.1 % 64 = 0) && allApart parts &&
  leAt img 0x24 4 = 0 && nameOk (slice img 0x30 16) && (slice img 0x70 16).all (fun b => b = 0) &&
  leAt img (so + 2) 2 = 0 && (slice img (so + 0xCF1) 3).all (fun b => b = 0) && decide (imageAuthority img < 32) &&
  (List.range kc).all (kernelOk img)

/-- The reason of step 2, 0 where the header and manifest pass (R145). -/
def headerReason (img : List Byte) : Nat :=
  if leAt img 0 4 ≠ 0x55524D31 ∨ leAt img 4 2 ≠ 1 then 1 else if !headerOk img then 2 else 0

/-- The message whose digest step 3 compares with MEASUREMENT (R141). -/
def imageMessage (img : List Byte) : List Byte := img.take 0x40 ++ zeros 48 ++ (img.take (sigOffset img)).drop 0x70
/-- The digest that the jobs of step 3 compute over the fragments of their lists. -/
def measureImage (img : List Byte) : List Byte :=
  let m := imageMessage img
  sha384 ((imageJobs m.length).flatMap fun j => j.flatMap fun f => slice m f.1 f.2)

/-- Pool bytes that an image takes: text and read-only data in whole 4 KiB pages (notes/assumptions/22.md). -/
def imagePool (img : List Byte) : Nat := roundPage (leAt img 0x10 4) + roundPage (leAt img 0x18 4)

/-- The authority lets a function load: enrolled by its port, with its bit in LOADERS (R142, R460). -/
def State.authorityFor (s : State) (a : Nat) (f : Fn) : Option Authority :=
  match s.hrt.authorities.find a with
  | some x => if x.port = portOfFn f ∧ fnIndex f ∈ x.loaders then some x else none
  | none => none

/-- The reason with which step 4 fails, 0 where it passes; then the module number and pool (R145). -/
def signatureReason (s : State) (l : Load) : Nat :=
  match s.authorityFor (imageAuthority l.image) l.who.fn with
  | none => 6
  | some a =>
    let so := sigOffset l.image
    let m := imageMeasurement l.image
    if !Config.mldsaVerify a.mldsa m (slice l.image (so + 4) 3309) then 4
    else if !Config.ecdsaVerify a.ecdsa m (slice l.image (so + 0xCF4) 96) then 5
    else if (Tbl.lowestFree s.hrt.modules 0 256).isNone then 7
    else if 4 * 2 ^ 30 < poolUsed s + imagePool l.image then 8
    else if !s.appendRoom then 9
    else 0

/-! ## Authorities (R142, R460) -/

/-- The function indices that LOADERS names. -/
def loadersOf (bs : List Byte) : List Nat := (List.range 128).filter fun i => bitsOf (leAt bs 0x008 16) i i = 1

/-- What the check of an enrolment refuses it with: the status and dwords 0 and 1. -/
def State.enrolRefused (s : State) (l : Load) : Option (Status × W32 × W32) :=
  let data := l.image
  let a := leAt data 0 2
  let ml := leAt data 2 2
  let el := leAt data 4 2
  let taken : Bool := match s.hrt.authorities.find a with | some x => decide (x.port ≠ portOfFn l.who.fn) | none => false
  if l.declared ≠ data.length then some (stLengthMismatch, w32 l.declared, w32 data.length)
  else if data.length ≠ 2080 then some (stLengthMismatch, w32 2080, w32 data.length)
  else if 32 ≤ a ∨ !((ml = 1952 ∧ el = 97) ∨ (ml = 0 ∧ el = 0)) ∨ taken ∨ leAt data 6 2 ≠ 0 ∨ !((slice data 0x819 7).all fun b => b = 0) then
    some (stInvalidField, 0, 0)
  else if !s.appendRoom then some (Config.appendFailStatus, 0, 0)
  else none

/-- An enrolment changes the authority; the change is kept in the configuration area and recorded in the ledger before the
command completes. -/
def State.enrol (s : State) (l : Load) : State :=
  let data := l.image
  let a := leAt data 0 2
  let ml := leAt data 2 2
  let mk := slice data 0x018 1952
  let ek := slice data 0x7B8 97
  let s1 := s.onHrt fun h =>
    { h with authorities := if ml = 0 then h.authorities.erase a
                            else h.authorities.set a { mldsa := mk, ecdsa := ek, port := portOfFn l.who.fn, loaders := loadersOf data } }
  s1.cfgWrite (.append
    { kind := 3, cause := if ml = 0 then 1 else 0, then_ := .enrolled,
      comps := [{ type := 6, sub := 0, fn := l.who.fn, index := a, version := 0,
                  measurement := sha384 (if ml = 0 then [] else mk ++ ek) }] })

/-! ## The queue of loads (R144, R145) -/

/-- The first load ends with a status. -/
def State.endLoad (s : State) (l : Load) (st : Status) (dw0 dw1 : W32) : State :=
  (s.onHrt fun h => { h with loads := h.loads.erase l }).admin2 l.who st dw0 dw1

/-- Begin the first load that waits: the length and step 2; a load that fails makes room for the next. -/
def State.loadNext (s : State) : Nat → State
  | 0 => s
  | n + 1 =>
    match s.hrt.loads with
    | [] => s
    | l :: rest =>
      if l.step ≠ 0 then s
      else if l.enrol then
        match s.enrolRefused l with
        | some (st, a, b) => (s.endLoad l st a b).loadNext n
        | none => (s.enrol l).onHrt fun h => { h with loads := { l with step := 4 } :: rest }
      else if imageLength l.image ≠ l.image.length then
        (s.endLoad l stLengthMismatch (w32 (imageLength l.image)) (w32 l.image.length)).loadNext n
      else if headerReason l.image ≠ 0 then
        (s.endLoad l stModuleRejected (w32 (headerReason l.image)) 0).loadNext n
      else s.onHrt fun h => { h with loads := { l with step := 2 } :: rest }

/-- Serve what waits. -/
def State.loadServe (s : State) : State := s.loadNext (s.hrt.loads.length + 1)

/-- The load under way ends, and the next begins. -/
def State.rejectLoad (s : State) (l : Load) (reason : Nat) : State := (s.endLoad l stModuleRejected (w32 reason) 0).loadServe

/-- The component of a module in a ledger record: FUNCTION is the function that the module serves (R517, R518). -/
def moduleComponent (m : Nat) (fn : Fn) (version : Nat) (measurement : List Byte) : Component :=
  { type := 5, sub := 0, fn := fn, index := m, version := version, measurement := measurement }

/-- Step 5: the append that a load waits for. Of what step 5 lists, the layout of R517 has fields for the measurement, the
module number, the version and the function that the module serves; the authority, the loading function and the visibility
have none, and the record does not hold them. DEDUCED (notes/assumptions/22.md). -/
def loadAppend (s : State) (l : Load) : Append :=
  { kind := 1, cause := 0, then_ := .moduleUsable,
    comps := [moduleComponent ((Tbl.lowestFree s.hrt.modules 0 256).getD 0) l.visibleTo (leAt l.image 0x28 8) (imageMeasurement l.image)] }

/-- Step 6: the module is usable and the completion posted. -/
def State.moduleUsable (s : State) (m : Nat) : State :=
  match s.hrt.loads with
  | [] => s
  | l :: _ =>
    if l.step ≠ 4 ∨ l.enrol then s
    else
      let img := l.image
      let x : Module :=
        { st := .loaded, removing := false, name := slice img 0x30 16, kernels := (List.range (leAt img 0x06 2)).map (kernelOf img), visibility := l.visibility,
          visibleTo := l.visibleTo, authority := imageAuthority img, loader := l.who.fn, measurement := imageMeasurement img,
          version := BitVec.ofNat 64 (leAt img 0x28 8), poolBytes := imagePool img,
          text := slice img (leAt img 0x0C 4) (leAt img 0x10 4), rodata := slice img (leAt img 0x14 4) (leAt img 0x18 4),
          forced := [] }
      ((s.onHrt fun h => { h with modules := h.modules.set m x }).endLoad l stOk (w32 m) 0).loadServe

/-- The enrolment under way is recorded: it completes, and the next MODULE_LOAD begins. -/
def State.enrolled (s : State) (st : Status) : State :=
  match s.hrt.loads with
  | [] => s
  | l :: _ => if l.step = 4 ∧ l.enrol then (s.endLoad l st 0 0).loadServe else s

/-- The ENROLL operation of MODULE_LOAD takes its place in the queue (R144): only a manager enrols. CDW10 declares the bytes; of
a longer transfer only the declared ones are used (R8). -/
def State.enroll (s : State) (w : Who) (cdw10 : W32) (data : List Byte) : State :=
  if !isManager w.fn ∨ cdw10.toNat = 0 ∨ 25165824 < cdw10.toNat then s.admin w stInvalidField 0
  else
    (s.onHrt fun h =>
      { h with loads := h.loads ++ [{ who := w, enrol := true, declared := cdw10.toNat, image := data, visibility := 0, visibleTo := w.fn, step := 0 }] }).loadServe

/-- The loads of a function end without completion, and with the one whose record is not yet written goes its record
(R145, R146). -/
def State.dropLoads (s : State) (f : Fn) : State :=
  let late := s.hrt.loads.any fun l => l.who.fn = f && l.step = 4 && !l.enrol
  let s1 := if late then s.onBoot fun b => { b with appends := b.appends.filter fun a => a.then_ ≠ .moduleUsable } else s
  (s1.onHrt fun h => { h with loads := h.loads.filter fun l => l.who.fn ≠ f || (l.enrol && l.step = 4) }).loadServe

end Sys2Proof.Machine
end

