-- ==== Sys2Proof/Machine/HartOps.lean ====
section
/-! DEFINITION. What harts and engine units are given and hold: the task descriptor, a kernel's windows, task block and
registers, the checks of its accesses, the caches, and the fault log (R101, R104, R105, R120 to R126, R131, R134, R135, R137,
R154, R155). -/

namespace Sys2Proof.Machine

/-! ## Tasks (R105) -/

/-- The stage of a task. -/
def State.taskStage (s : State) (t : Task) : Option Stage :=
  match s.boundFlow t.flow with
  | some f => Trail.stageAt f.trail t.stage
  | none => none

/-- The effective budget of R133. -/
def budgetOf (k : KernelRec) (us : Nat) : Nat := if us ≠ 0 then us else if k.budgetDefault ≠ 0 then k.budgetDefault else 2000

/-- The module, the kernel record and the budget of the stage that a PROGRAM task runs. -/
def State.taskProgram (s : State) (t : Task) : Option (Module × KernelRec × Nat) :=
  match s.taskStage t with
  | some (.program m k us _) => match s.module m with
    | some x => (x.kernels[k]?).map fun r => (x, r, us)
    | none => none
  | _ => none

/-- The kernel record that a PROGRAM task runs, and the budget of its stage. -/
def State.taskKernel (s : State) (t : Task) : Option (KernelRec × Nat) := (s.taskProgram t).map (·.2)

/-- The effective budget of a task in microseconds. -/
def State.taskBudget (s : State) (t : Task) : Nat := match s.taskKernel t with | some (r, us) => budgetOf r us | none => 2000

/-- The payload in a task's input buffer. -/
def taskInput (s : State) (t : Task) : Payload :=
  match t.buf with
  | some b => (s.buf b).getD { bytes := [], sealed := none }
  | none => { bytes := [], sealed := none }

/-- The chunk is the last of its Trail. -/
def Flow.isLast (f : Flow) (chunk : Nat) : Bool := decide (chunk + 1 = f.chunks) || (f.lastIssued && decide (chunk + 1 = f.issued))

/-- FIRST and LAST of TFLAGS. -/
def taskFlags (f : Flow) (t : Task) : Nat := bitIf (decide (t.chunk = 0)) 0 + bitIf (f.isLast t.chunk) 1

/-- The address of an output buffer in bytes; a task without one has address 0. -/
def bufferAddr (b : Option Nat) : Nat := match b with | some n => 64 * (Config.bufferUnit n).toNat | none => 0

/-- The fragment list that the dispatcher builds for a DIGEST task: one descriptor over the input payload, whose length never
passes 131,072 bytes; an empty chunk has none and reaches no core (R99, R312). -/
def digestFragments (t : Task) : List (Nat × Nat) := if t.len = 0 then [] else [(bufferAddr t.buf, t.len)]
/-- The message bytes of a task: the fragments of its list in order, each from its address in the input payload (R312). -/
def fragmentBytes (s : State) (t : Task) : List Byte :=
  (digestFragments t).flatMap fun f => slice (taskInput s t).bytes (f.1 - bufferAddr t.buf) f.2
/-- The bytes of a fragment list: 16 a descriptor, LAST at the last one (R312). -/
def fragmentList (fs : List (Nat × Nat)) : List Byte :=
  fs.zipIdx.flatMap fun e => leBytes 8 e.1.1 ++ leBytes 4 e.1.2 ++ leBytes 4 (if e.2 + 1 = fs.length then 1 else 0)

/-- The 64-byte task descriptor (R105). -/
def taskDescriptor (s : State) (t : Task) : List Byte :=
  match s.flow t.flow, s.taskStage t with
  | some f, some st =>
    leBytes 4 (trailId t.flow f).toNat ++ leBytes 1 t.stage ++ leBytes 1 st.code.1 ++ leBytes 1 st.code.2 ++
    leBytes 1 (taskFlags f t + bitIf t.token.isSome 2) ++ leBytes 8 t.chunk ++ leBytes 8 (bufferAddr t.buf) ++ leBytes 4 t.len ++
    leBytes 4 131072 ++ leBytes 8 (bufferAddr t.out) ++ leBytes 8 (t.token.getD 0) ++ leBytes 2 f.trail.recordSize ++
    leBytes 2 f.owner ++ leBytes 4 (if st.isProgram then s.taskBudget t else 0) ++
    leBytes 8 (Config.stageRecord t.flow t.stage).toNat
  | _, _ => zeros 64

/-- The first 4 KiB of a task's operand, or all of it where it is shorter (R101, R104). -/
def taskOperand (s : State) (t : Task) : List Byte := (taskInput s t).bytes.take 4096

/-! ## Windows (R123) -/

/-- The seven windows. -/
inductive Window where
  | code | constants | taskBlock | input | output | scratch | stack
  deriving DecidableEq, Repr

def Window.base : Window → Nat
  | .code => 0x100000000 | .constants => 0x200000000 | .taskBlock => 0x300000000 | .input => 0x400000000
  | .output => 0x500000000 | .scratch => 0x600000000 | .stack => 0x700000000

def Window.size (m : Module) (r : KernelRec) : Window → Nat
  | .code => roundPage m.text.length | .constants => roundPage m.rodata.length | .taskBlock => 4096 | .input => 131072
  | .output => r.outWindow | .scratch => r.scratch | .stack => r.stack

/-- A kernel may store to it. -/
def Window.writable : Window → Bool
  | .output => true | .scratch => true | .stack => true | _ => false

def Window.all : List Window := [.code, .constants, .taskBlock, .input, .output, .scratch, .stack]

/-- The window that an address lies in. -/
def windowAt (m : Module) (r : KernelRec) (addr : Nat) : Option Window :=
  Window.all.find? fun w => decide (w.base ≤ addr) && decide (addr < w.base + w.size m r)

/-- The cause with which an access fails the task: it must lie within one window, a store or an atomic in a writable one, a
fetch in the code window (R123, R127, R134, R137). -/
def accessCause (m : Module) (r : KernelRec) (kind : AccessKind) (addr len : Nat) : Option Nat :=
  match kind, windowAt m r addr with
  | .fetch, some .code => if addr + len ≤ Window.code.base + Window.code.size m r then none else some 3
  | .fetch, _ => some 3
  | _, none => some 1
  | k, some w =>
    if w.base + w.size m r < addr + len then some 1
    else if k = .load ∨ w.writable then none else some 2

/-! ## What a kernel's windows hold (R124, R125) -/

/-- The 128-byte task block. -/
def taskBlock (s : State) (t : Task) : List Byte :=
  match s.flow t.flow, s.taskStage t with
  | some f, some (.program _ k _ args) =>
    let r := s.taskKernel t
    leBytes 8 t.chunk ++ leBytes 4 t.len ++ leBytes 2 f.trail.recordSize ++ leBytes 1 (taskFlags f t) ++ zeros 1 ++
    leBytes 4 (match r with | some x => x.1.outWindow | none => 0) ++ leBytes 4 (match r with | some x => x.1.scratch | none => 0) ++
    leBytes 4 (s.taskBudget t) ++ leBytes 2 f.owner ++ leBytes 2 k ++ padTo 32 args ++ leBytes 4 (trailId t.flow f).toNat ++
    leBytes 1 t.stage ++ zeros 59
  | _, _ => zeros 128

/-- One byte of a kernel's windows: a line of the output, scratch or stack window that the task has not written reads as 0; so do
the bytes of code and constants past their lengths (notes/assumptions/51.md). -/
def kernelByte (s : State) (m : Module) (k : Kernel) (addr : Nat) : Byte :=
  let o := addr % 2 ^ 32
  match addr / 2 ^ 32 with
  | 1 => m.text.getD o 0
  | 2 => m.rodata.getD o 0
  | 3 => k.block.getD o 0
  | 4 => (taskInput s k.task).bytes.getD o 0
  | _ => (Tbl.getD k.lines (addr / 64) []).getD (addr % 64) 0

/-- Bytes that a kernel's windows hold, where it may read all of them. -/
def kernelRead (s : State) (m : Module) (r : KernelRec) (k : Kernel) (addr len : Nat) : Option (List Byte) :=
  if (accessCause m r .load addr len).isNone then some ((List.range len).map fun i => kernelByte s m k (addr + i)) else none

/-- A kernel writes one byte: its line counts as written from then on, and the high-water mark follows in the output window. -/
def Kernel.writeByte (k : Kernel) (addr : Nat) (b : Byte) : Kernel :=
  { k with lines := k.lines.set (addr / 64) (patch (Tbl.getD k.lines (addr / 64) (zeros 64)) (addr % 64) [b]),
           high := if addr / 2 ^ 32 = 5 then Nat.max k.high (addr % 2 ^ 32 + 1) else k.high }

/-- A store; one that its windows do not allow changes nothing. -/
def Kernel.store (m : Module) (r : KernelRec) (k : Kernel) (st : Nat × List Byte) : Kernel :=
  if st.2.isEmpty || (accessCause m r .store st.1 st.2.length).isSome then k
  else (st.2.zipIdx).foldl (fun k e => k.writeByte (st.1 + e.2) e.1) k

/-! ## Caches (R120, R131, R135, R137) -/

/-- A cache takes a line; the oldest leave where it is full. -/
def fillCache (room : Nat) (ls : List CacheLine) (l : CacheLine) : List CacheLine × List CacheLine :=
  let same := fun (x : CacheLine) => decide (x.line = l.line) && decide (x.owner = l.owner)
  let all := ls.filter (fun x => !same x) ++ [{ l with dirty := l.dirty || ls.any fun x => same x && x.dirty }]
  (all.drop (all.length - room), all.take (all.length - room))

def l1Lines : Nat := 1024
def l2Lines : Nat := 65536

def State.hart (s : State) (h : Nat) : Hart := s.hrt.harts.getD h Hart.reset
def State.setHart (s : State) (h : Nat) (x : Hart) : State := s.onHrt fun y => { y with harts := Tbl.put Hart.reset y.harts h x }
def State.onHart (s : State) (h : Nat) (g : Hart → Hart) : State := s.setHart h (g (s.hart h))
def State.onKernel (s : State) (h : Nat) (g : Kernel → Kernel) : State := s.onHart h fun x => { x with kernel := x.kernel.map g }

/-- The L2 of a cluster. -/
def State.l2 (s : State) (c : Nat) : List CacheLine := s.hrt.l2.getD c []
def State.setL2 (s : State) (c : Nat) (ls : List CacheLine) : State := s.onHrt fun y => { y with l2 := Tbl.put [] y.l2 c ls }

/-- A hart reaches a line: its instruction or data cache and its cluster's L2 hold it from then on. A dirty line that leaves the
data cache is dirty in the L2 (notes/assumptions/51.md). -/
def State.touchLine (s : State) (h : Nat) (code : Bool) (l : CacheLine) : State :=
  let x := s.hart h
  let (kept, out) := fillCache l1Lines (if code then x.icache else x.dcache) l
  let s1 := s.setHart h (if code then { x with icache := kept } else { x with dcache := kept })
  s1.setL2 (h / 8) ((List.filter CacheLine.dirty out ++ [{ l with dirty := false }]).foldl (fun ls y => (fillCache l2Lines ls y).1) (s.l2 (h / 8)))

/-- The line of a window address as a hart's kernel reaches it: code and constants are the module's, all else the hart's. -/
def lineOf (h m line : Nat) (dirty : Bool) : CacheLine := { line := line, owner := if line * 64 / 2 ^ 32 < 3 then m else h, dirty := dirty }

/-- A hart's line is dirty in its data cache or in the L2. -/
def lineDirty (s : State) (h line : Nat) : Bool :=
  let hit := fun (x : CacheLine) => decide (x.line = line) && decide (x.owner = h) && x.dirty && decide (3 ≤ line * 64 / 2 ^ 32)
  (s.hart h).dcache.any hit || (s.l2 (h / 8)).any hit

/-- Drop lines from a hart's caches and the L2 of its cluster. -/
def State.dropLines (s : State) (h : Nat) (p : CacheLine → Bool) : State :=
  (s.onHart h fun x => { x with icache := x.icache.filter fun l => !p l, dcache := x.dcache.filter fun l => !p l }).setL2 (h / 8)
    ((s.l2 (h / 8)).filter fun l => !p l)

/-- Every line of a hart's input, output, scratch and stack windows is invalidated (R131 step 2). -/
def State.invalidate (s : State) (h : Nat) : State :=
  s.dropLines h fun l => decide (l.owner = h) && decide (4 ≤ l.line * 64 / 2 ^ 32)

/-- The lines of a module leave every cache (R147). -/
def State.dropModuleLines (s : State) (m : Nat) : State :=
  let keep := fun (l : CacheLine) => !(decide (l.owner = m) && decide (l.line * 64 / 2 ^ 32 < 3))
  s.onHrt fun y =>
    { y with harts := Tbl.mapVals y.harts fun _ x => { x with icache := x.icache.filter keep, dcache := x.dcache.filter keep },
             l2 := Tbl.mapVals y.l2 fun _ ls => ls.filter keep }

/-! ## A kernel's start, its run and its end (R126, R127, R131) -/

/-- Every register at 0. -/
def hartClear : HartRegs := { pc := 0, x := [], f := [], v := [], fcsr := 0, vl := 0, vtype := 0 }

/-- An integer register; x0 reads 0. -/
def regX (g : HartRegs) (i : Nat) : W64 := if i = 0 then 0 else Tbl.getD g.x i 0

/-- The monitor return address (R126): where it lies the spec does not say. -/
def monitorReturn : W64 := Config.monitorReturn

/-- The registers at entry: a0 to a4 are x10 to x14, sp x2, gp x3 and ra x1. -/
def entryRegs (r : KernelRec) (len : Nat) : HartRegs :=
  let w := fun (n : Nat) => BitVec.ofNat 64 n
  { hartClear with
    pc := w (Window.code.base + r.entry),
    x := [(1, monitorReturn), (2, w (Window.stack.base + r.stack)), (3, w Window.constants.base), (10, w Window.taskBlock.base),
          (11, w Window.input.base), (12, w len), (13, w Window.output.base), (14, w r.outWindow)] }

/-- A kernel as its hart begins it. -/
def State.beginKernel (s : State) (t : Task) : Kernel :=
  { task := t, since := s.now, stalled := 0, budget := s.taskBudget t, phase := .run, search := none, calling := false,
    block := taskBlock s t,
    regs := match s.taskKernel t with | some x => entryRegs x.1 t.len | none => hartClear,
    cycles := 0, instret := 0, lines := [], high := 0 }

/-- The module number of a kernel. -/
def kernelModule (s : State) (k : Kernel) : Nat := match s.taskStage k.task with | some (.program m _ _ _) => m | _ => 0

/-- The lines that a store reaches. -/
def storeLines (st : Nat × List Byte) : List Nat :=
  (List.range ((st.1 + st.2.length - 1) / 64 + 1 - st.1 / 64)).map fun i => st.1 / 64 + i

/-- What a kernel did until the event that its hart reports: lines fetched and loaded, stores, registers and counters. Accesses
that its windows do not allow reach no cache and change nothing (R137). -/
def State.kernelRuns (s : State) (h : Nat) (run : KernelRun) : State :=
  match (s.hart h).kernel with
  | none => s
  | some k => match s.taskProgram k.task with
    | none => s.onKernel h fun k => { k with regs := run.regs, cycles := run.cycles, instret := run.instret }
    | some (m, r, _) =>
      let n := kernelModule s k
      let fetched := run.fetched.filter fun l => (accessCause m r .fetch (64 * l) 1).isNone
      let loaded := run.loaded.filter fun l => (accessCause m r .load (64 * l) 1).isNone
      let stores := run.stores.filter fun st => !st.2.isEmpty && (accessCause m r .store st.1 st.2.length).isNone
      let s1 := s.onKernel h fun k =>
        { stores.foldl (Kernel.store m r) k with regs := run.regs, cycles := run.cycles, instret := run.instret }
      let s2 := fetched.foldl (fun t l => t.touchLine h true (lineOf h n l false)) s1
      let s3 := loaded.foldl (fun t l => t.touchLine h false (lineOf h n l false)) s2
      (stores.flatMap storeLines).foldl (fun t l => t.touchLine h false (lineOf h n l true)) s3

/-- The hart has ended its task: its data-window lines are invalidated and its registers, which go with the kernel, cleared
(R131, R137). -/
def State.endKernel (s : State) (h : Nat) : State := (s.invalidate h).onHart h fun x => { x with kernel := none }

/-- A kernel's result registers; every other register is unchanged (R128). -/
def Kernel.results (k : Kernel) (a0 a1 : Option W64) : Kernel :=
  let put := fun (i : Nat) (v : Option W64) (x : List (Nat × W64)) => match v with | some w => Tbl.set x i w | none => x
  { k with regs := { k.regs with x := put 11 a1 (put 10 a0 k.regs.x) } }

/-! ## Failures of a kernel (R134, R135, R154, R155) -/

/-- Budget time used, in ticks: it stops at the retirement of EXIT. -/
def usedTicks (s : State) (k : Kernel) : Nat :=
  match k.phase with
  | .writeback _ used => used
  | _ => s.now - k.since - k.stalled

/-- Write a fault-log entry at NEXT and count it. -/
def State.logFault (s : State) (h : Nat) (k : Kernel) (cause : Nat) (code : W32) (pc addr : W64) : State :=
  let next := s.regFld rHrtFaultHead 5 0
  let total := satAdd 0xFFFF (s.regFld rHrtFaultHead 31 16) 1
  match s.flow k.task.flow, s.taskStage k.task with
  | some f, some (.program m kern _ _) =>
    let e : FaultEntry := { trailId := trailId k.task.flow f, stage := k.task.stage, cause := cause, fn := f.owner, chunk := k.task.chunk,
                            module := m, kernel := kern, hart := h, code := code, pc := pc, addr := addr, runUs := usedTicks s k / tUs }
    ((s.onHrt fun x => { x with faults := x.faults.set next e }).setReg rHrtFaultHead (w32 (total * 65536 + (next + 1) % 64))).bumpGen 0xC5
  | _, _ => s

/-- A kernel's task fails for a cause of R134: it is logged, PROGRAM_FAULT is counted, and the hart has ended the task. -/
def State.kernelFails (s : State) (h : Nat) (k : Kernel) (cause : Nat) (code : W32) (pc addr : W64) : State :=
  let s1 := (s.logFault h k cause code pc addr).endKernel h
  if cause = 10 then s1.failTask k.task stPoisoned else (s1.addCnt (rHrtCount 2) 1).failTask k.task stProgramFault

/-- A hart whose kernel the budget stopped has ended the task: its buffers and what waited for its token are freed. -/
def State.kernelStops (s : State) (h : Nat) (k : Kernel) : State := (freeTask (s.endKernel h) k.task).discardFlow k.task.flow

/-- A memory error reaches the kernel of a hart: its task fails with cause 10, at an instruction that the kernel alone knows; one
that its budget has stopped only ends (R135). -/
def State.kernelPoisoned (s : State) (h : Nat) (addr : Nat) : State :=
  match (s.hart h).kernel with
  | some k =>
    if k.phase = .stopping then s.kernelStops h k
    else s.draw.kernelFails h k 10 0 (match k.phase with | .run => Config.kernelPc s.freeDraw | _ => k.regs.pc) (BitVec.ofNat 64 addr)
  | none => s

end Sys2Proof.Machine
end

