-- ==== Sys2Proof/Machine/Lynx.lean ====
section
/-! DEFINITION. The Lynx associative search array (R351 to R375): searches, inserts, the tables and their registers,
the background compare and the hot index of Key Value namespaces. -/

namespace Sys2Proof.Machine

/-! ## Tables and copies (R352, R353) -/

def State.lynxTable (s : State) (t : Nat) : Option LynxTable := s.lynx.tables.find t
def State.onLynxTable (s : State) (t : Nat) (g : LynxTable → LynxTable) : State :=
  s.onLynx fun l => { l with tables := l.tables.modify t g }

/-- The number of banks of a set. -/
def bankCount (b : BitVec 16) : Nat := ((List.range 16).filter fun i => b.getLsbD i).length
/-- Key bytes of an entry. -/
def LynxTable.keyLen (t : LynxTable) : Nat := 8 * t.width
/-- Entry indices of a copy: b′ × E. -/
def LynxTable.capacity (t : LynxTable) : Nat := bankCount t.banks / t.copies * (16384 / t.width)

/-! ## Searching (R355, R356) -/

/-- The entries that match a key, in ascending index. -/
def LynxTable.hits (t : LynxTable) (key : List Byte) : List (Nat × LynxEntry) :=
  t.entries.filter fun e => e.2.valid && decide (e.2.key = key)

/-- The better of two matches: the higher PRIO, else the one found first. -/
def lynxBetter (a : Option (Nat × LynxEntry)) (b : Nat × LynxEntry) : Option (Nat × LynxEntry) :=
  match a with
  | none => some b
  | some x => if x.2.prio < b.2.prio ∨ (x.2.prio = b.2.prio ∧ b.1 < x.1) then some b else some x

/-- The winner. -/
def LynxTable.winner (t : LynxTable) (key : List Byte) : Option (Nat × LynxEntry) := (t.hits key).foldl lynxBetter none

/-- COUNT: matches at a PRIO, saturating at 255. -/
def LynxTable.countAt (t : LynxTable) (key : List Byte) (prio : Nat) : Nat :=
  Nat.min 255 ((t.hits key).filter fun e => decide (e.2.prio = prio)).length

/-- The result word of R356 as a number. -/
def LynxTable.result (t : LynxTable) (key : List Byte) (verified : Bool) : Nat :=
  match t.winner key with
  | none => 0
  | some (i, e) =>
    let n := t.countAt key e.prio
    2 ^ 62 + bitIf (decide (2 ≤ n)) 61 + bitIf verified 60 + e.prio % 8 * 2 ^ 57 + n * 2 ^ 48 + i % 2 ^ 18 * 2 ^ 24 +
      e.value % 2 ^ 24

/-- Post-match verification applies to searches of a table (R365). -/
def lynxVerifies (s : State) (t : LynxTable) : Bool := t.verify || t.kv || s.lynx.autoVerify

/-- Count a search by its result word: events 0, 1 and 2 (R375). -/
def State.countSearch (s : State) (w : Nat) : State :=
  let s1 := s.addCnt (rLnxCount 0) 1
  let s2 := if bitsOf w 62 62 = 1 then s1.addCnt (rLnxCount 1) 1 else s1
  if bitsOf w 61 61 = 1 then s2.addCnt (rLnxCount 2) 1 else s2

/-- Count verification mismatches: event 6 and class 10 (R364, R375, R559). -/
def State.countMismatches (s : State) (n : Nat) : State :=
  (s.addCnt (rLnxCount 6) n).addLife (lifeErr 10 false) n

/-- The entries of a copy that soft errors have changed. -/
def LynxTable.softIn (t : LynxTable) (copy : Nat) : List SoftEntry := (t.diffs.filter fun d => decide (d.1 = copy)).map (·.2)

/-- The table as a copy of it in the array holds it (R361). -/
def LynxTable.held (t : LynxTable) (copy : Nat) : LynxTable :=
  { t with entries := (t.softIn copy).foldl (fun es f =>
      if f.index < t.capacity then es.set f.index ⟨f.valid, f.prio, f.value, f.key, 0⟩ else es) t.entries }

/-- The 8 bytes of a unit of a bank (R351, R353, R354): unit r × WIDTH + i of the j-th bank of a copy is unit i of entry j × E + r; a bank
of no table holds nothing. -/
def arrayUnit (s : State) (bank unit : Nat) : List Byte :=
  match s.lynx.tables.find? fun e => e.2.banks.getLsbD bank with
  | none => zeros 8
  | some (_, t) =>
    let per := bankCount t.banks / t.copies
    let at_ := ((List.range bank).filter fun i => t.banks.getLsbD i).length
    match (t.held (at_ / per)).entries.find (at_ % per * (16384 / t.width) + unit / t.width) with
    | some e => slice e.key (8 * (unit % t.width)) 8
    | none => zeros 8
/-- The 8 parity bits of a unit, one a byte; which bits each covers R351 does not say. DESIGN CHOICE (notes/assumptions/50.md). -/
def unitParity (unit : List Byte) : BitVec 8 :=
  BitVec.ofNat 8 ((unit.mapIdx fun i b => ((List.range 8).filter fun k => b.getLsbD k).length % 2 * 2 ^ i).sum)
/-- The attribute word of an entry, as LNX_ENT_ATTR shows it (R351, R373). -/
def LynxEntry.attribute (e : LynxEntry) : W32 := w32 (bitIf e.valid 31 + e.prio % 8 * 2 ^ 24 + e.value % 2 ^ 24)

/-- An entry is written in every copy and in the shadow: it is what it should be again (R358, R373). -/
def LynxTable.put (t : LynxTable) (i : Nat) (e : LynxEntry) : LynxTable :=
  { t with entries := t.entries.set i e, diffs := t.diffs.filter fun d => d.2.index ≠ i, shadowBad := t.shadowBad.filter fun x => x ≠ i }
/-- An entry is deleted in every copy and in the shadow (R360). -/
def LynxTable.drop (t : LynxTable) (i : Nat) : LynxTable :=
  { t with entries := t.entries.erase i, diffs := t.diffs.filter fun d => d.2.index ≠ i, shadowBad := t.shadowBad.filter fun x => x ≠ i }
/-- An entry is rewritten from the shadow in every copy (R363, R364). -/
def LynxTable.rewrite (t : LynxTable) (i : Nat) : LynxTable := { t with diffs := t.diffs.filter fun d => d.2.index ≠ i }
/-- Every entry is invalidated (R352). -/
def LynxTable.cleared (t : LynxTable) : LynxTable := { t with entries := [], diffs := [], shadowBad := [] }

/-- The shadow holds a key at an index: what verification asks of a winner (R364). -/
def LynxTable.shadowHas (t : LynxTable) (i : Nat) (key : List Byte) : Bool := ((t.entries.find i).map (·.key)) = some key

/-- What a search comes to: its result word, or none for SEARCH_PARITY; the entries rewritten from the shadow; and the verification
mismatches it met. -/
structure Searched where
  word : Option Nat
  fixed : List Nat
  mismatches : Nat
  deriving DecidableEq, Repr

/-- A search of a copy, with its verification: after a mismatch the entry is rewritten from the shadow and the search repeated
once; a second mismatch, or a winner whose shadow word cannot be read, fails it (R355, R364, R365). -/
def LynxTable.search (t : LynxTable) (copy : Nat) (verifies : Bool) (key : List Byte) : Searched :=
  match (t.held copy).winner key with
  | none => ⟨some 0, [], 0⟩
  | some (i, _) =>
    if !verifies then ⟨some ((t.held copy).result key false), [], 0⟩
    else if i ∈ t.shadowBad then ⟨none, [], 0⟩
    else if t.shadowHas i key then ⟨some ((t.held copy).result key true), [], 0⟩
    else
      let a := (t.rewrite i).held copy
      match a.winner key with
      | none => ⟨some 0, [i], 1⟩
      | some (j, _) =>
        if j ∈ t.shadowBad then ⟨none, [i], 1⟩
        else if t.shadowHas j key then ⟨some (a.result key true), [i], 1⟩
        else ⟨none, [i, j], 2⟩

/-- The soft errors that a unit reports of its copy. -/
def softOf : UnitSeen → List SoftEntry
  | .soft es => es
  | _ => []
/-- Soft errors change entries of a copy, and last until something rewrites them (R364). -/
def State.lynxSoft (s : State) (table copy : Nat) (es : List SoftEntry) : State :=
  if es.isEmpty then s
  else s.onLynxTable table fun t =>
    { t with diffs := t.diffs.filter (fun d => !(decide (d.1 = copy) && es.any fun f => f.index = d.2.index)) ++ es.map fun f => (copy, f) }

/-- What a search leaves: entries rewritten, and the mismatches it met counted (R364, R375). -/
def State.afterSearch (s : State) (table : Nat) (r : Searched) : State :=
  let s1 := if r.mismatches = 0 then s else s.countMismatches r.mismatches
  if r.fixed.isEmpty then s1 else s1.onLynxTable table fun t => r.fixed.foldl LynxTable.rewrite t

/-- One search of a copy for a task or a call: counted by its result word, with the mismatches it met (R375). -/
def State.searchOnce (s : State) (table copy : Nat) (x : LynxTable) (key : List Byte) : State × Searched :=
  let r := x.search copy (lynxVerifies s x) key
  ((s.afterSearch table r).countSearch (r.word.getD 0), r)

/-! ## Inserting (R358) -/

/-- The lowest index from i that holds no valid entry, within so many indices. -/
def lynxFreeIndex (es : Tbl LynxEntry) (i : Nat) : Nat → Option Nat
  | 0 => none
  | n + 1 => match es.find i with
    | none => some i
    | some e => if e.valid then lynxFreeIndex es (i + 1) n else some i

/-- What an insert comes to. -/
inductive InsertOutcome where
  | made (index : Nat)
  | duplicate
  | full
  deriving DecidableEq, Repr

/-- The insert after its search, which found the key or not. -/
def LynxTable.insertOutcome (t : LynxTable) (found : Bool) : InsertOutcome :=
  if found then .duplicate
  else match lynxFreeIndex t.entries 0 t.capacity with
    | some i => .made i
    | none => .full

/-- Insert a key with PRIO 0 and a VALUE, counting events 3 and 4; the flag says that the table was full (R358, R375). -/
def State.lynxInsert (s : State) (table : Nat) (key : List Byte) (value : Nat) (found : Bool) : State × Bool :=
  match s.lynxTable table with
  | none => (s, false)
  | some t =>
    match t.insertOutcome found with
    | .duplicate => (s.addCnt (rLnxCount 4) 1, false)
    | .full => (s, true)
    | .made i =>
      ((s.onLynxTable table fun t =>
          t.put i ⟨true, 0, value % 2 ^ 24, key, s.now / tMs⟩).addCnt (rLnxCount 3) 1, false)

/-! ## The Key Value hot index (R367, R368) -/

/-- The entry key of a Key Value key: padded to 16 bytes, then its length, then 0. -/
def kvEntryKey (key : List Byte) : List Byte := padTo 16 key ++ [BitVec.ofNat 8 key.length] ++ zeros 15

/-- Search the hot index for a key; a verified hit renews the entry, and a failed verification counts as a miss. While the array is
reloaded there is no search, which R369 leaves to be read of a command already fetched: the hash index serves it. DEDUCED
(notes/assumptions/18.md). -/
def State.kvSearch (s : State) (table : Nat) (key : List Byte) : State × Bool :=
  match s.lynxTable table with
  | none => (s, false)
  | some t =>
    if s.lynx.restoring then (s, false)
    else
      let (s1, r) := (s.nvmWork .lynx).searchOnce table 0 t (kvEntryKey key)
      match r.word with
      | none => (s1, false)
      | some w =>
        if bitsOf w 62 62 = 0 then (s1, false)
        else (s1.onLynxTable table fun t =>
          { t with entries := t.entries.modify (bitsOf w 41 24) fun e => { e with hitAt := s.now / tMs } }, true)

/-- Delete the entry of a key, if there is one. -/
def State.kvIndexDelete (s : State) (table : Nat) (key : List Byte) : State :=
  s.onLynxTable table fun t => (t.hits (kvEntryKey key)).foldl (fun t e => t.drop e.1) t

/-- The entry that has gone longest without a hit. -/
def lynxColdest (es : Tbl LynxEntry) : Option Nat :=
  (es.foldl (fun (a : Option (Nat × Nat)) e => match a with
    | none => some (e.1, e.2.hitAt)
    | some x => if e.2.hitAt < x.2 then some (e.1, e.2.hitAt) else some x) none).map (·.1)

/-- Insert a key found through the hash index, deleting the coldest entry of a full table first. VALUE is the entry's
index (notes/assumptions/18.md). -/
def State.kvIndexInsert (s : State) (table : Nat) (key : List Byte) : State :=
  match s.lynxTable table with
  | none => s
  | some t =>
    let found := !(t.hits (kvEntryKey key)).isEmpty
    let s1 := match t.insertOutcome found, lynxColdest t.entries with
      | .full, some i => s.onLynxTable table fun t => t.drop i
      | _, _ => s
    let v := match (s1.lynxTable table).map fun t => t.insertOutcome found with
      | some (InsertOutcome.made i) => i
      | _ => 0
    (s1.lynxInsert table (kvEntryKey key) v found).1

/-! ## Table registers (R352, R372) -/

/-- The selected table. -/
def lynxSel (s : State) : Nat := s.regFld rLnxTblSel 3 0

/-- Load the staging registers with the selected table's definition, or their reset values. -/
def State.lynxStage (s : State) : State :=
  match s.lynxTable (lynxSel s) with
  | some t =>
    (s.setReg rLnxTblCfg (w32 (t.owner * 2 ^ 18 + bitIf t.kv 17 + bitIf t.verify 16 + t.copies * 256 + t.width / 2))).setReg
      rLnxTblBanks (w32 t.banks.toNat)
  | none => (s.setReg rLnxTblCfg (resetValue rLnxTblCfg)).setReg rLnxTblBanks 0

/-- The selected table is a KV table. -/
def lynxSelKv (s : State) : Bool := match s.lynxTable (lynxSel s) with | some t => t.kv | none => false

/-- The RW fields of LNX_TBL_CFG. -/
def lynxCfgMask : W32 := 0x7FD1F03#32

/-- Stage the fields of a write of LNX_TBL_CFG (ignored for a KV table). -/
def State.lynxStageCfg (s : State) (v : W32) : State :=
  if lynxSelKv s then s else s.setReg rLnxTblCfg (v &&& lynxCfgMask)

/-- An active Trail names a table. -/
def trailNamesTable (s : State) (t : Nat) : Bool :=
  s.disp.flows.any fun f => f.2.bound && f.2.trail.stages.any fun st => match st with
    | .lynx _ x _ _ => x = t
    | _ => false

/-- LNX_TBL_INFO REFUSED. -/
def State.lynxRefused (s : State) (b : Bool) : State := s.setReg rLnxTblInfo (w32 (bitIf b 29))

/-- The staged definition. -/
def lynxStaged (s : State) : LynxTable :=
  { banks := BitVec.ofNat 16 (s.regFld rLnxTblBanks 15 0), width := 2 ^ s.regFld rLnxTblCfg 1 0,
    copies := s.regFld rLnxTblCfg 12 8, owner := s.regFld rLnxTblCfg 26 18, verify := s.regBit rLnxTblCfg 16, kv := false,
    entries := [], faulted := false, lost := [], diffs := [], shadowBad := [] }

/-- What refuses a DEFINE or an UNDEFINE of a table by a manager function (R352). -/
def lynxHeld (s : State) (m : Fn) (t : Nat) : Bool :=
  trailNamesTable s t ||
  match s.lynxTable t with
  | some x => x.kv || decide (portOfFn x.owner ≠ portOfFn m)
  | none => false

/-- What refuses a DEFINE of a new definition (R352). -/
def lynxBadDefinition (s : State) (m : Fn) (t : Nat) (d : LynxTable) : Bool :=
  decide (d.banks = 0) || decide (s.regFld rLnxTblCfg 1 0 = 3) || !(d.copies ∈ [1, 2, 4, 8, 16]) ||
  decide (bankCount d.banks % d.copies ≠ 0) || decide (portOfFn d.owner ≠ portOfFn m) ||
  s.lynx.tables.any fun e => decide (e.1 ≠ t) && decide (e.2.banks &&& d.banks ≠ 0)

/-- LNX_TBL_CFG with DEFINE (R352, R372). -/
def execDefine (r : Requester) (value : W32) (s : State) : Host.Outcome State Fault Refusal :=
  match requesterFn r with
  | some m =>
    if s.barReaches r rLnxTblCfg ∧ bitAt value 31 then
      let s1 := s.lynxStageCfg value
      let t := lynxSel s1
      if lynxHeld s1 m t || lynxBadDefinition s1 m t (lynxStaged s1) then .next (s1.lynxRefused true)
      else .next (((s1.onLynx fun l => { l with tables := l.tables.set t (lynxStaged s1) }).lynxRefused false).lynxStage)
    else .next (s.barMiss r rLnxTblCfg)
  | none => .next s

/-- LNX_TBL_CFG with UNDEFINE and without DEFINE (R352, R372). -/
def execUndefine (r : Requester) (value : W32) (s : State) : Host.Outcome State Fault Refusal :=
  match requesterFn r with
  | some m =>
    if s.barReaches r rLnxTblCfg ∧ bitAt value 30 ∧ !bitAt value 31 then
      let s1 := s.lynxStageCfg value
      let t := lynxSel s1
      if lynxHeld s1 m t then .next (s1.lynxRefused true)
      else .next (((s1.onLynx fun l => { l with tables := l.tables.erase t }).lynxRefused false).lynxStage)
    else .next (s.barMiss r rLnxTblCfg)
  | none => .next s

/-- LNX_TBL_SEL (R372). -/
def execLnxTblSelWrite (r : Requester) (value : W32) (s : State) : Host.Outcome State Fault Refusal :=
  if s.barReaches r rLnxTblSel then .next ((s.setReg rLnxTblSel (w32 (fld value 3 0))).lynxStage) else .next (s.barMiss r rLnxTblSel)

/-! ## Entry registers (R360, R373) -/

/-- The table and index of an entry command, or the RESULT that ends it. -/
def lynxEntTarget (s : State) : Except Nat (LynxTable × Nat) :=
  match s.lynxTable (lynxSel s) with
  | none => .error 4
  | some t =>
    let i := s.regFld rLnxEntSel 17 0
    if t.kv then .error 3 else if t.capacity ≤ i then .error 1 else .ok (t, i)

/-- RESULT of LNX_ENT_CMD. -/
def State.lynxResult (s : State) (n : Nat) : State := s.setReg rLnxEntCmd (w32 n)

/-- A command bit is the only one of READ, WRITE and DELETE. -/
def lynxOnly (value : W32) (bit : Nat) : Bool := decide (fld value 31 29 = 2 ^ (bit - 29))

/-- The key in the KEY registers, for a table. -/
def lynxEntKey (s : State) (t : LynxTable) : List Byte :=
  ((List.range 8).flatMap fun n => leBytes 4 (s.reg (rLnxEntKey n)).toNat).take t.keyLen

/-- An index that a manager function writes or deletes is no longer lost; FAULTED clears with the last (R363). -/
def LynxTable.mend (t : LynxTable) (i : Nat) : LynxTable :=
  let left := t.lost.filter fun x => x ≠ i
  { t with lost := left, faulted := t.faulted && !left.isEmpty }

/-- LNX_ENT_CMD READ. -/
def execLnxEntRead (r : Requester) (value : W32) (s : State) : Host.Outcome State Fault Refusal :=
  if s.barReaches r rLnxEntCmd ∧ lynxOnly value 31 then
    match lynxEntTarget s with
    | .error e => .next (s.lynxResult e)
    | .ok (t, i) =>
      let e := t.entries.getD i ⟨false, 0, 0, [], 0⟩
      let s1 := s.setReg rLnxEntAttr e.attribute
      .next ((iterate (fun n x => x.setReg (rLnxEntKey n) (w32 (leAt e.key (4 * n) 4))) 8 s1).lynxResult 0)
  else .next (s.barMiss r rLnxEntCmd)

/-- LNX_ENT_CMD WRITE. -/
def execLnxEntWrite (r : Requester) (value : W32) (s : State) : Host.Outcome State Fault Refusal :=
  if s.barReaches r rLnxEntCmd ∧ lynxOnly value 30 then
    match lynxEntTarget s with
    | .error e => .next (s.lynxResult e)
    | .ok (t, i) =>
      let e : LynxEntry := ⟨s.regBit rLnxEntAttr 31, s.regFld rLnxEntAttr 26 24, s.regFld rLnxEntAttr 23 0, lynxEntKey s t, s.now / tMs⟩
      if e.valid && ((t.hits e.key).any fun x => decide (x.1 ≠ i)) then .next (s.lynxResult 2)
      else .next ((s.onLynxTable (lynxSel s) fun t => (t.mend i).put i e).lynxResult 0)
  else .next (s.barMiss r rLnxEntCmd)

/-- LNX_ENT_CMD DELETE. -/
def execLnxEntDelete (r : Requester) (value : W32) (s : State) : Host.Outcome State Fault Refusal :=
  if s.barReaches r rLnxEntCmd ∧ lynxOnly value 29 then
    match lynxEntTarget s with
    | .error e => .next (s.lynxResult e)
    | .ok (_, i) =>
      .next ((s.onLynxTable (lynxSel s) fun t => (t.mend i).drop i).lynxResult 0)
  else .next (s.barMiss r rLnxEntCmd)

/-! ## Checking the array (R362 to R366) -/

/-- The compare runs. -/
def lynxCompares (s : State) : Bool :=
  s.up .engine && s.up .mem && s.power.effective ≠ .hibernate && !s.lynx.restoring

/-- Record a lost entry in LNX_ERR_STATUS (R363, R374). -/
def State.lynxRecord (s : State) (table index : Nat) : State :=
  if s.regBit rLnxErr 31 then s.setReg rLnxErr (s.reg rLnxErr ||| 0x40000000#32)
  else s.setReg rLnxErr (w32 (2 ^ 31 + table % 16 * 2 ^ 18 + index % 2 ^ 18))

/-- An entry is lost (R363). -/
def State.lynxLose (s : State) (table index : Nat) : State :=
  let s1 := (s.onLynxTable table fun t =>
    { t.drop index with faulted := t.faulted || !t.kv, lost := if t.kv then t.lost else addOnce t.lost index }).addLife (lifeErr 10 true) 1
  match s.lynxTable table with
  | some t => if t.kv then s1 else (s1.lynxRecord table index).irq
  | none => s1

/-- The shadow takes an entry from the array, as the first copy holds it (R363). -/
def LynxTable.shadowTakes (t : LynxTable) (i : Nat) : LynxTable :=
  let t1 := { t with shadowBad := t.shadowBad.filter fun x => x ≠ i }
  match (t.softIn 0).find? fun f => decide (f.index = i) with
  | some f => t1.put i ⟨f.valid, f.prio, f.value, f.key, 0⟩
  | none => t1

/-- A difference that the compare resolves for an entry, or for a unit of a bank of no table (R362, R363). A unit that is taken from
another copy needs a table with two. -/
def State.lynxCompared (s : State) (table index copies : Nat) (seen : CompareSeen) : State :=
  let fixed := s.addLife (lifeErr 10 false) 1
  match seen with
  | .equal => s
  | .differsShadowGood => (fixed.onLynxTable table fun t => t.rewrite index).addCnt (rLnxCount 5) 1
  | .shadowBadParityGood => fixed.onLynxTable table fun t => t.shadowTakes index
  | .bothBadOtherCopyGood =>
    if copies ≤ 1 then s.lynxLose table index
    else (fixed.onLynxTable table fun t => (t.rewrite index).shadowTakes index).addCnt (rLnxCount 5) 1
  | .bothBadNoCopy => s.lynxLose table index

/-- Where no table has the number, the step is at a unit of a bank of no table, numbered through the 16 banks (R351, R362); nothing is
lost there. -/
def freeUnit (s : State) (index : Nat) : Bool :=
  decide (index < 16 * 16384) && s.lynx.tables.all fun e => !e.2.banks.getLsbD (index / 16384)

/-- The background compare at one unit or attribute word (R362, R363). -/
def execLynxCompareStep (table index : Nat) (seen : CompareSeen) (s : State) : Host.Outcome State Fault Refusal :=
  .next (if lynxCompares s then
    match s.lynxTable table with
    | none => if freeUnit s index then
        (match seen with
          | .differsShadowGood | .shadowBadParityGood => s.lynxCompared table index 1 seen
          | _ => s)
      else s
    | some t => if index < t.capacity then s.lynxCompared table index t.copies seen else s
  else s)

/-- LAP_TARGET in µs. -/
def lapTargetUs (s : State) : Nat := 1000 * s.regFld rLnxLapCfg 7 0

/-- A lap ends (R362, R365, R371). -/
def execLynxLapComplete (durationUs : Nat) (s : State) : Host.Outcome State Fault Refusal :=
  if lynxCompares s then
    let late := decide (lapTargetUs s < durationUs)
    .next ((s.setReg rLnxLapLast (w32 (Nat.min 0xFFFFFFFF durationUs))).onLynx fun l =>
      { l with lapStart := s.now, lapOver := false,
               autoVerify := if late then true
                             else if s.power.effective = .sprint then l.autoVerify else false })
  else .next s

/-- The lap in progress passes LAP_TARGET (R365). -/
def execLapTargetExceeded (s : State) : Host.Outcome State Fault Refusal :=
  if lynxCompares s then .next (s.onLynx fun l => { l with autoVerify := true, lapOver := true }) else .next s

/-- The array is the shadow's again, a new lap begins, and tasks may start (R366). -/
def State.lynxReloaded (s : State) : State :=
  s.onLynx fun l => { l with restoring := false, lapStart := s.now, lapOver := false,
                             tables := Tbl.mapVals l.tables fun _ t => { t with diffs := [] } }

/-- The marked lost index with the lowest table number and lowest index (R374). -/
def lowestLost (s : State) : Option (Nat × Nat) :=
  match s.lynx.tables.find? fun e => !e.2.lost.isEmpty with
  | some (t, x) => x.lost.min?.map fun i => (t, i)
  | none => none

/-- LNX_ERR_STATUS written with VALID or OVERFLOW 1 (R374). -/
def execLnxErrClear (r : Requester) (value : W32) (s : State) : Host.Outcome State Fault Refusal :=
  if s.barReaches r rLnxErr then
    if bitAt value 31 then
      let s1 := (s.setReg rLnxErr 0).irq
      match lowestLost s1 with
      | some (t, i) => .next ((s1.lynxRecord t i).irq)
      | none => .next s1
    else if bitAt value 30 then .next (s.setReg rLnxErr (s.reg rLnxErr &&& 0xBFFFFFFF#32))
    else .next s
  else .next (s.barMiss r rLnxErr)

/-- Auto-verify turns on as the effective mode becomes SPRINT (R365). -/
def State.sprintVerifies (s : State) (m : Mode) : State :=
  if m = .sprint then s.onLynx fun l => { l with autoVerify := true } else s

/-- The lowest copy of a table that runs no task; none while an INSERT holds every copy (R357, R358). -/
def freeCopy (s : State) (table copies : Nat) (inserts : Task → Bool) : Option Nat :=
  let busy := s.disp.running.filter fun r => decide (r.cls = .lynx) && decide (r.unit / 16 = table)
  if busy.any fun r => inserts r.task then none
  else (List.range copies).find? fun c => busy.all fun r => decide (r.unit % 16 ≠ c)

/-- A reload of the array begins: L1 of Lynx, L2 of ENGINE, and the wake from HIBERNATE (R366). -/
def State.lynxReload (s : State) : State := s.onLynx fun l => { l with restoring := true }

end Sys2Proof.Machine
end

