-- ==== Sys2Proof/Machine/FtlOps.lean ====
section
/-! DEFINITION. Operations of the translation layer and of redundancy that hold no media work: the
permutation table, data-space addresses, bands and blocks, free level and spare, the map and its journal, the bad-LBA log,
and the bytes that an IU reads as (R184 to R248). -/

namespace Sys2Proof.Machine

/-! ## Geometry and addresses (R230, R232, R233) -/

def geomD : Nat → Nat
  | 0 => 8 | 1 => 16 | _ => 32
def geomW (g : Nat) : Nat := geomD g + 2
/-- U: data units of a band. -/
def bandUnits (s : State) (g : Nat) : Nat := 16 * geomD g * s.board.pagesPerBlock
/-- Band slots of a region. -/
def regionSlots (s : State) (g : Nat) : Nat := Nat.min 4096 (2 ^ 26 / bandUnits s g)

/-- The write geometry (R234). -/
def writeGeom (s : State) : Nat := if s.str.reshape.active then s.str.reshape.target else s.regFld rStrCtl 1 0

def State.region (s : State) (r : Nat) : Region := s.str.regions.getD r ⟨.empty, 0, 0, 0, 0⟩
/-- Change the descriptor of a region: its sequence number rises by 1 (R235). -/
def State.setRegion (s : State) (r : Nat) (x : Region) : State :=
  s.onStr fun t => { t with regions := t.regions.set r { x with dseq := (s.region r).dseq + 1 } }
def State.band (s : State) (b : Nat) : Option Band := s.ftl.bands.find b

/-- The model's numbers of the new bands of the region under reshape, which R233 gives none until the switch: this plus the band slot
(notes/assumptions/53.md). -/
def firstNewBand : Nat := 2 ^ 31

/-- The block-table segment that holds the record of a band: that of its first member's block (R235; notes/assumptions/53.md). -/
def bandSegment (s : State) (x : Band) : Nat := match x.members with | m :: _ => blockNo s m.1 m.2 / 2720 | [] => 0

/-- A block-table segment becomes dirty (R219). -/
def State.blockSegDirty (s : State) (k : Nat) : State :=
  s.onFtl fun f => { f with blockDirty := if (f.blockDirty.find k).isSome then f.blockDirty else f.blockDirty.set k s.now }

/-- Change the record of a band: its segment of the block table becomes dirty (R219, R235). -/
def State.onBand (s : State) (b : Nat) (g : Band → Band) : State :=
  match s.band b with
  | some x => (s.onFtl fun f => { f with bands := f.bands.modify b g }).blockSegDirty (bandSegment s x)
  | none => s

/-- A band, or a new band of the region under reshape. -/
def State.anyBand (s : State) (b : Nat) : Option Band :=
  if firstNewBand ≤ b then s.str.reshape.newBands.find (b - firstNewBand) else s.band b
def State.onAnyBand (s : State) (b : Nat) (g : Band → Band) : State :=
  if firstNewBand ≤ b then
    s.onStr fun t => { t with reshape := { t.reshape with newBands := t.reshape.newBands.modify (b - firstNewBand) g } }
  else s.onBand b g
/-- Every band, with the new bands of the region under reshape. -/
def allBands (s : State) : List (Nat × Band) :=
  s.ftl.bands ++ s.str.reshape.newBands.map fun e => (firstNewBand + e.1, e.2)

/-- The number of the first map band (R234). Map bands lie in no region: the model numbers their units from band × 2^26
(notes/assumptions/53.md). -/
def firstMapBand : Nat := 0x40000000

/-- The first data-space address of a band of a region, or the first unit of a map band. -/
def bandBase (s : State) (g band : Nat) : Nat :=
  if firstMapBand ≤ band then band * 2 ^ 26 else band / 4096 * 2 ^ 26 + band % 4096 * bandUnits s g
/-- The band of a data-space address (R233), or of a unit of a map band. -/
def bandOf (s : State) (a : Nat) : Nat :=
  let r := a / 2 ^ 26
  if firstMapBand ≤ r then r else 4096 * r + a % 2 ^ 26 / bandUnits s (s.region r).geom

/-- A page of a band: the stripe, the data member and the slot of the q-th data page. -/
def pageStripe (g q : Nat) : Nat := q / geomD g
def pageSlot (g q : Nat) : Nat := (q / geomD g + 2 + q % geomD g) % geomW g
/-- The slots of P and Q of a stripe (R232). -/
def slotP (g j : Nat) : Nat := j % geomW g
def slotQ (g j : Nat) : Nat := (j + 1) % geomW g

/-- A run of units on one page: the band, the data page, its units and its codewords. -/
structure PagePart where
  band  : Nat
  page  : Nat
  cws   : List Nat
  deriving DecidableEq, Repr

/-- The pages and codewords that a stored IU occupies (R192). -/
def pageParts (s : State) (e : MapEntry) : List PagePart :=
  let b := bandOf s e.addr
  let g := match s.band b with | some x => x.geom | none => 0
  let off := e.addr - bandBase s g b
  let units := (List.range e.len).map (· + off)
  ((units.map (· / 16)).eraseDups).map fun q =>
    { band := b, page := q, cws := ((units.filter fun u => u / 16 = q).map fun u => u % 16 / 4).eraseDups }

/-! ## The permutation table (R236, R237) -/

/-- One step of xorshift64. -/
def xorshift (x : W64) : W64 :=
  let x1 := x ^^^ (x <<< 13)
  let x2 := x1 ^^^ (x1 >>> 7)
  x2 ^^^ (x2 <<< 17)

/-- Exchange two elements. -/
def swapAt (l : List Nat) (i j : Nat) : List Nat := (l.set i (l.getD j 0)).set j (l.getD i 0)

/-- The shuffle, from index i down to 1. -/
def shuffle : Nat → W64 → List Nat → List Nat
  | 0, _, l => l
  | i + 1, x, l =>
    let y := xorshift x
    shuffle i y (swapAt l (i + 1) (y.toNat % (i + 2)))

/-- A row of the permutation table over a pool. -/
def permRow (seed : W64) (p : List Nat) (r : Nat) : List Nat :=
  let x := seed ^^^ (0x9E3779B97F4A7C15#64 * BitVec.ofNat 64 (r + 1))
  shuffle (p.length - 1) (if x = 0 then 1 else x) p

/-- The member LUNs of the band that count c opens, for a geometry. -/
def permMembers (s : State) (p : List Nat) (g c : Nat) : List Nat :=
  let w := geomW g
  let groups := p.length / w
  if groups = 0 then [] else ((permRow s.str.seed p (c % 64)).drop (c / 64 % groups * w)).take w

/-- The blocks of some member LUNs; none when one has no free block. -/
def takeMembers (s : State) : List Nat → Option (List (Nat × Nat))
  | [] => some []
  | l :: ls => match pickBlock s l, takeMembers s ls with
    | some b, some rest => some ((l, b) :: rest)
    | _, _ => none

/-- Try counts from c until a combination yields a band: the count after it and its members (R237). -/
def findMembers (s : State) (p : List Nat) (g : Nat) : Nat → Nat → Option (Nat × List (Nat × Nat))
  | 0, _ => none
  | n + 1, c =>
    match takeMembers s (permMembers s p g c) with
    | some ms => if ms.isEmpty then none else some (c + 1, ms)
    | none => findMembers s p g n (c + 1)

/-- Mark the blocks of a new band. -/
def State.holdBlocks (s : State) (ms : List (Nat × Nat)) : State :=
  ms.foldl (fun t m => t.onBlock (blockNo t m.1 m.2) fun k => { k with inBand := true }) s

/-! ## Free level and spare (R200, R211, R212) -/

/-- The free level is below a threshold of FTL_FREE_THRESH, in units of 0.1 %. -/
def freeBelow (s : State) (t : Nat) : Bool := decide (freeBlocks s * 1000 < t * goodBlocks s)
def thGcStart (s : State) : Nat := s.regFld rFtlThresh 23 16
def thUrgent (s : State) : Nat := s.regFld rFtlThresh 15 8
def thFloor (s : State) : Nat := s.regFld rFtlThresh 7 0
/-- The free level is at FLOOR. -/
def atFloor (s : State) : Bool := decide (freeBlocks s * 1000 ≤ thFloor s * goodBlocks s)
/-- The free level in units of 0.1 %. -/
def freeLevel (s : State) : Nat := if goodBlocks s = 0 then 0 else freeBlocks s * 1000 / goodBlocks s

/-- IUs that some LBAs of a namespace need. -/
def iusFor (n : Ns) (lbas : Nat) : Nat := ceilDiv (lbas * n.lbaSize) 16384
/-- A thin namespace (R214). -/
def Ns.thin (n : Ns) : Bool := n.kind ≠ .memory && decide (n.ncap < n.nsze)
/-- The IUs of capacity that a namespace is owed: NCAP of a thin one, else all of it. -/
def owedIus (n : Ns) : Nat := if n.kind = .memory then 0 else if n.thin then iusFor n n.ncap else iusFor n n.nsze

/-- N, under a geometry: capacity and reservations with P and Q, FLOOR, and one open band of each of the five kinds. -/
def neededBlocks (s : State) (g : Nat) : Nat :=
  let units := 16 * (s.ns.map fun e => owedIus e.2).sum
  ceilDiv units (bandUnits s g) * geomW g + ceilDiv (thFloor s * goodBlocks s) 1000 + 5 * geomW g
/-- S, under a geometry; never below 0. -/
def spareUnder (s : State) (g : Nat) : Nat := goodBlocks s - neededBlocks s g
def spareBlocks (s : State) : Nat := spareUnder s (writeGeom s)
/-- What a Format NVM does to the drive: the first after manufacture takes S0, draws the seed of the permutation table from the
real-time counter, and finds out whether the pool is large enough; a later one ends the warning of a lost journal tail (R211, R231,
R236, R257). -/
def State.firstFormat (s : State) : State :=
  if s.str.formatted then s.onStr fun t => { t with warnDump := false }
  else (s.onStr fun t =>
    { t with formatted := true, small := decide ((pool s).length < 12), seed := BitVec.ofNat 64 s.rtc, opened := 0 }).onFtl fun f =>
    { f with spare0 := spareBlocks s }
/-- The pool was too small at the first format after manufacture, or is now while none has been (R231). -/
def poolSmall (s : State) : Bool := if s.str.formatted then s.str.small else decide ((pool s).length < 12)
/-- Available spare in percent (R211). While S0 is 0, before the first format, R211 gives no value: the model answers 100. DESIGN CHOICE
(notes/assumptions/58.md). -/
def availSpare (s : State) : Nat := if s.ftl.spare0 = 0 then 100 else Nat.min 100 (100 * spareBlocks s / s.ftl.spare0)

/-- The spare stage that follows from a stage and an available spare (R212). -/
def nextStage (cur a : Nat) : Nat :=
  if a < 1 ∨ (cur = 3 ∧ a < 2) then 3
  else if a < 5 ∨ (2 ≤ cur ∧ a < 6) then 2
  else if a < 10 ∨ (1 ≤ cur ∧ a < 11) then 1
  else 0

/-- READ_ONLY. -/
def readOnly (s : State) : Bool := s.ftl.spareStage = 3

/-- Raise a SMART / Health event to every enabled controller whose mask enables one of some critical warning bits (R212, R538). -/
def State.raiseSmart (s : State) (e : Aen) (bits : List Nat) : State :=
  s.host.ctrls.foldl (fun t c =>
    if c.2.rdy && bits.any fun b => bitAt (c.2.features.getD 0x0B 0) b then t.raiseEvent c.1 e else t) s

/-- The critical warning bits of a spare stage (R212). -/
def stageBits : Nat → List Nat
  | 0 => [] | 1 => [0] | 2 => [0, 2] | _ => [0, 2, 3]

/-- The task of a sink fails before it fires: its entry leaves. -/
def State.failSink (s : State) (e : Task) (st : Status) : State := (s.dropEntry e.flow e.stage e.cslot).failTask e st

/-- Fail every write that waits at step 3 of R194 (R222). -/
def State.failWaiting (s : State) (st : Status) : State :=
  let ws := s.ftl.waiting
  let s1 := s.onFtl fun f => { f with waiting := [] }
  ws.foldl (fun t w => match w.kind with
    | .sink flow cslot _ => match t.flow flow with
      | some f => match t.entry flow (Trail.sinkIx f.trail) cslot with
        | some e => t.failSink e st
        | none => t
      | none => t
    | _ => t.complete w.who st 0 0) s1

/-- A band of the write geometry can be opened above FLOOR (R212, R230, R237). -/
def bandOpens (s : State) : Bool :=
  let p := pool s
  let g := writeGeom s
  !atFloor s && decide (geomW g + 2 ≤ p.length) && (findMembers s p g (64 * (p.length / geomW g)) s.str.opened).isSome

/-- Bring the spare stage up to date: an entry raises the SMART event and the event log's type 4 (R212, R564). -/
def State.spareUpdate (s : State) : State :=
  let a := availSpare s
  let stay := s.ftl.readOnlyFloor && !(decide (2 ≤ a) && bandOpens s)
  let cur := s.ftl.spareStage
  let new := if stay then 3 else nextStage cur a
  let s1 := s.onFtl fun f => { f with spareStage := new, readOnlyFloor := stay }
  if new = cur then s1
  else
    let s2 := s1.logEvent 4 new 0xFFFF (w32 a) 0
    if cur < new then
      let s3 := s2.raiseSmart evSpare (stageBits new)
      if new = 3 then s3.failWaiting stWriteProtected else s3
    else s2

/-! ## Opening a band (R234, R237) -/

/-- The lowest band slot of a region that holds no band, within so many from one. -/
def freeSlotFuel (s : State) (r : Nat) : Nat → Nat → Option Nat
  | 0, _ => none
  | n + 1, k => if (s.ftl.bands.find (4096 * r + k)).isNone then some k else freeSlotFuel s r n (k + 1)

/-- The lowest-numbered ACTIVE region of a geometry with a free slot. -/
def activeSlot (s : State) (g : Nat) : Option (Nat × Nat) :=
  s.str.regions.findSome? fun e =>
    if e.2.st = .active ∧ e.2.geom = g then (freeSlotFuel s e.1 (regionSlots s g) 0).map fun k => (e.1, k) else none

/-- The lowest EMPTY region, within so many from one. -/
def emptyRegionFuel (s : State) : Nat → Nat → Option Nat
  | 0, _ => none
  | n + 1, r => if (s.region r).st = .empty then some r else emptyRegionFuel s n (r + 1)

/-- Where a host or relocation band opens: an EMPTY region takes the write geometry. -/
def State.bandSlot (s : State) (g : Nat) : Option (State × Nat) :=
  match activeSlot s g with
  | some (r, k) => some (s, 4096 * r + k)
  | none => match emptyRegionFuel s 16384 0 with
    | some r =>
      some ((s.setRegion r { st := .active, geom := g, newGeom := g, dseq := 0, cursor := 0 }).cfgWrite .note, 4096 * r)
    | none => none

/-- A band that has just been opened. -/
def newBand (g : Nat) (kind : BandKind) (ms : List (Nat × Nat)) : Band :=
  { geom := g, st := .opened, kind := kind, stripes := 0, lost := [], members := ms, fill := 0, dead := [], refresh := false,
    closedAt := 0, erasing := [], shut := false, copied := 0, zeroed := [] }

/-- The lowest band number from one on that no map band has, within so many. -/
def freeMapBand (s : State) : Nat → Nat → Nat
  | 0, b => b
  | n + 1, b => if (s.ftl.bands.find b).isSome then freeMapBand s n (b + 1) else b

/-- A band cannot be opened: the G9 enters READ_ONLY (R212, R237). -/
def State.noBand (s : State) : State := (s.onFtl fun f => { f with readOnlyFloor := true }).spareUpdate

/-- Where a band of a kind opens: a map band in no region (R234). -/
def State.slotFor (s : State) (kind : BandKind) (g : Nat) : Option (State × Nat) :=
  if kind = .map then some (s, freeMapBand s s.ftl.bands.length firstMapBand) else s.bandSlot g

/-- Open a band of a kind. A host band needs a free level above FLOOR, for which its data waits (R200). A geometry needs a pool of W + 2
LUNs (R230); where it has fewer, or no combination of the permutation table yields a band, the G9 enters READ_ONLY (R212, R237). -/
def State.openBand (s : State) (kind : BandKind) : State × Option Nat :=
  let g := writeGeom s
  let p := pool s
  if kind = .host ∧ atFloor s then (s, none)
  else if p.length < geomW g + 2 then (s.noBand, none)
  else match s.slotFor kind g with
    | none => (s.noBand, none)
    | some (s1, b) =>
      match findMembers s1 p g (64 * (p.length / geomW g)) s1.str.opened with
      | none => (s.noBand, none)
      | some (c, ms) =>
        ((((s1.holdBlocks ms).onStr fun t => { t with opened := c }).onFtl fun f =>
          { f with bands := f.bands.set b (newBand g kind ms) }).blockSegDirty (bandSegment s1 (newBand g kind ms)), some b)

/-! ## The map, its journal and its segments (R187, R216 to R219) -/

def State.entryOf (s : State) (iu : Nat) : MapEntry := s.ftl.map.getD iu MapEntry.unmapped

/-- The STATE code of a map entry. -/
def MapState.code : MapState → Nat
  | .unmapped => 0 | .media => 1 | .buffer => 2 | .bad => 3

/-- A map entry as its 48 bits (R187). -/
def MapEntry.word (e : MapEntry) : BitVec 48 := BitVec.ofNat 48 (e.st.code * 2 ^ 45 + e.len % 32 * 2 ^ 40 + e.addr % 2 ^ 40)
/-- A map entry as it lies in the map, at byte 6 × (global IU index). -/
def MapEntry.bytes (e : MapEntry) : List Byte := leBytes 6 e.word.toNat

/-- A journal record, 16 bytes (R217). -/
def JournalRec.bytes (r : JournalRec) : List Byte :=
  leBytes 5 r.target ++ leBytes 1 r.kind ++
  (if r.kind = 0 then r.entry.bytes else if r.kind = 1 then leBytes 6 (r.erases % 2 ^ 32) else zeros 6) ++ leBytes 4 (r.seq % 2 ^ 32)

/-- A journal page, 16 KiB (R218): its header with the CRC of the rest, and its records. -/
def JournalPage.bytes (p : JournalPage) : List Byte :=
  let head := leBytes 4 0x4D504A4E ++ zeros 4 ++ leBytes 8 p.first ++ leBytes 4 p.recs.length ++ zeros 40
  let body := padTo 16320 (p.recs.flatMap JournalRec.bytes)
  head ++ leBytes 4 (crc32c (head ++ body)) ++ body

/-- The page of some buffered records. -/
def journalPage (js : List JournalRec) : JournalPage := { first := (js.head?.map (·.seq)).getD 0, recs := js }

/-- The pages of some buffered records, 1,020 a page (R218). -/
def journalPages (js : List JournalRec) : List JournalPage :=
  (List.range (ceilDiv js.length 1020)).map fun i => journalPage ((js.drop (1020 * i)).take 1020)

/-- The bytes of journal that segments do not cover yet. -/
def journalBytes (f : Ftl) : Nat := 16384 * f.journalOnFlash.length + 16 * f.journal.length

/-- Segment writing takes precedence over relocation from 2 GiB of unwritten journal until it is below 1 GiB (R219). -/
def Ftl.precedence (f : Ftl) : Ftl :=
  { f with segFirst := if 2 ^ 31 ≤ journalBytes f then true else f.segFirst && decide (2 ^ 30 ≤ journalBytes f) }

/-- Write the buffered records as journal pages, if there are any (R218). -/
def Ftl.journalOut (f : Ftl) : Ftl :=
  if f.journal.isEmpty then f
  else { f with journal := [], journalOnFlash := f.journalOnFlash ++ journalPages f.journal }.precedence

/-- Write the buffered records now; not while writes are stopped (R166). -/
def State.journalFlush (s : State) : State := if s.power.writesStopped then s else s.onFtl Ftl.journalOut

/-- Append a journal record with the next sequence number; a full page of 1,020 records goes to flash, once writes are not stopped
(R166, R217, R218). -/
def State.journal (s : State) (kind target erases : Nat) (e : MapEntry) : State :=
  s.onFtl fun f =>
    let f1 := { f with journal := f.journal ++ [{ kind := kind, target := target, entry := e, erases := erases, seq := f.jseq + 1 }],
                       jseq := f.jseq + 1 }
    if f1.journal.length < 1020 ∨ s.power.writesStopped then Ftl.precedence f1 else Ftl.journalOut f1

/-- The newest programmed page of a map segment, or of a block-table segment: of two with the same JSEQ, the one written later. -/
def segmentPage (f : Ftl) (block : Bool) (segment : Nat) : Option MapPage :=
  (f.mapPages.filter fun p => p.done && p.block = block && p.segment = segment).foldl (fun a p => match a with
    | none => some p
    | some q => if q.jseq ≤ p.jseq then some p else some q) none

/-- A page of a map band is the newest programmed one of its segment. -/
def newestPage (f : Ftl) (p : MapPage) : Bool := p.done && segmentPage f p.block p.segment = some p

/-- A record is covered by the newest page of its segment (R219, R220). -/
def covered (f : Ftl) (r : JournalRec) : Bool :=
  match segmentPage f (r.kind ≠ 0) (r.target / 2720) with
  | some p => decide (r.seq ≤ p.jseq)
  | none => false

/-- Discard the journal pages whose records are all covered (R219). -/
def Ftl.journalTrim (f : Ftl) : Ftl := { f with journalOnFlash := f.journalOnFlash.filter fun p => !p.recs.all (covered f) }

/-- Write a map entry: journaled, and its segment becomes dirty. -/
def State.setMap (s : State) (iu : Nat) (e : MapEntry) : State :=
  ((s.onFtl fun f =>
    { f with map := Tbl.put MapEntry.unmapped f.map iu e,
             dirty := if (f.dirty.find (iu / 2720)).isSome then f.dirty else f.dirty.set (iu / 2720) s.now }).journal 0 iu 0 e)

/-! ## The bad-LBA log (R245, R246) -/

/-- The namespace and the LBAs of a global IU index. -/
def nsOfIu (s : State) (iu : Nat) : Option (Nat × Nat × Nat) :=
  s.ns.findSome? fun e =>
    let per := 16384 / (if e.2.lbaSize = 0 then 512 else e.2.lbaSize)
    if e.2.base ≤ iu ∧ iu < e.2.base + iusFor e.2 e.2.nsze then some (e.1, (iu - e.2.base) * per, per) else none

/-- Put a range in the log, merged with an adjoining entry of the same namespace and cause. -/
def badInsert (log : List BadEntry) (new : BadEntry) : List BadEntry × Bool :=
  match log.find? fun x => x.nsid = new.nsid ∧ x.cause = new.cause ∧
      (x.slba + x.nlb = new.slba ∨ new.slba + new.nlb = x.slba) with
  | some x =>
    (log.map fun y => if y = x then { y with slba := Nat.min y.slba new.slba, nlb := y.nlb + new.nlb } else y, true)
  | none => if log.length < 65536 then (log ++ [new], true) else (log, false)

/-- Enter a range; a full log sets OVERFLOW. The event of R466 goes to every controller attached to the namespace. -/
def State.badAdd (s : State) (nsid slba nlb cause : Nat) : State :=
  let new : BadEntry := { slba := slba, nsid := nsid, nlb := nlb, time := s.stamp, cause := cause, seq := s.str.badSeq }
  let (log, fits) := badInsert s.str.badLog new
  let s1 := (s.onStr fun t =>
    { t with badLog := log, badSeq := t.badSeq + 1, overflow := t.overflow || !fits }).bumpGen 0xC4
  let fns := if nsid = 0xFFFFFFFF then [0, 256] else match s.ns.find nsid with | some n => n.attached | none => []
  fns.foldl (fun t f => t.raiseEvent f evBadLba) s1

/-- What is left of an entry when a range leaves it. -/
def badCut (slba nlb nsid : Nat) (x : BadEntry) : List BadEntry :=
  if x.nsid ≠ nsid ∨ x.cause = 4 ∨ slba + nlb ≤ x.slba ∨ x.slba + x.nlb ≤ slba then [x]
  else
    (if x.slba < slba then [{ x with nlb := slba - x.slba }] else []) ++
    (if slba + nlb < x.slba + x.nlb then [{ x with slba := slba + nlb, nlb := x.slba + x.nlb - (slba + nlb) }] else [])

/-- The BAD IUs that the log does not list. -/
def badUnlisted (s : State) : List (Nat × Nat × Nat × Nat) :=
  s.ftl.map.filterMap fun e =>
    if e.2.st = .bad then
      match nsOfIu s e.1 with
      | some (nsid, slba, nlb) =>
        if s.str.badLog.any fun x => x.nsid = nsid && x.cause = e.2.addr && decide (x.slba ≤ slba) && decide (slba < x.slba + x.nlb)
        then none else some (nsid, slba, nlb, e.2.addr)
      | none => none
    else none

/-- List what OVERFLOW left out while there is room; OVERFLOW clears when every BAD IU is listed (R246). -/
def State.badRelist (s : State) : State :=
  if s.str.overflow then
    let s1 := (badUnlisted s).foldl (fun t x => t.badAdd x.1 x.2.1 x.2.2.1 x.2.2.2) (s.onStr fun t => { t with overflow := false })
    s1.onStr fun t => { t with overflow := !(badUnlisted s1).isEmpty }
  else s

/-- The log without a range. An entry that the range splits gives two; a full log lists the second no further (R245, R246). -/
def badWithout (log : List BadEntry) (slba nlb nsid : Nat) : List BadEntry × Bool :=
  let all := log.flatMap (badCut slba nlb nsid)
  if all.length ≤ 65536 then (all, true) else (log.flatMap fun x => (badCut slba nlb nsid x).take 1, false)

/-- Remove a range from the log, splitting entries; what a full log has no room for sets OVERFLOW. -/
def State.badRemove (s : State) (nsid slba nlb : Nat) : State :=
  let (log, fits) := badWithout s.str.badLog slba nlb nsid
  ((s.onStr fun t => { t with badLog := log, overflow := t.overflow || !fits }).bumpGen 0xC4).badRelist

/-- Set an IU to BAD with a cause, and list its LBAs (R188, R244). -/
def State.setBad (s : State) (iu cause : Nat) : State :=
  let s1 := s.setMap iu ⟨.bad, 0, cause⟩
  match nsOfIu s iu with
  | some (nsid, slba, nlb) => s1.badAdd nsid slba nlb cause
  | none => s1

/-- Replace an entry by a write or a deallocation: a BAD one leaves the log. -/
def State.replaceEntry (s : State) (iu : Nat) (e : MapEntry) : State :=
  let old := s.entryOf iu
  let s1 := s.setMap iu e
  if old.st = .bad ∧ e.st ≠ .bad then
    match nsOfIu s iu with
    | some (nsid, slba, nlb) => s1.badRemove nsid slba nlb
    | none => s1
  else s1

/-- The status of a BAD entry's cause (R188). -/
def badStatus (cause : Nat) : Status :=
  if cause = 1 then stStripeLost else if cause = 2 then stUnrecovered else stPoisoned

/-! ## The IUs of LBAs -/

/-- The global IU indices that some LBAs touch. -/
def iusOf (n : Ns) (slba nlb : Nat) : List Nat :=
  if nlb = 0 then []
  else
    let a := slba * n.lbaSize / 16384
    let b := ((slba + nlb) * n.lbaSize - 1) / 16384
    (List.range (b + 1 - a)).map fun i => n.base + a + i

/-- Some LBAs cover an IU whole. -/
def coversIu (n : Ns) (slba nlb iu : Nat) : Bool :=
  let lo := (iu - n.base) * 16384
  decide (slba * n.lbaSize ≤ lo) && decide (lo + 16384 ≤ (slba + nlb) * n.lbaSize)

/-- The status that a command covering only part of a BAD IU fails with: of the first such IU (R188, R194). -/
def partBad (s : State) (n : Ns) (slba nlb : Nat) : Option Status :=
  ((iusOf n slba nlb).find? fun iu => (s.entryOf iu).st = .bad && !coversIu n slba nlb iu).map fun iu =>
    badStatus (s.entryOf iu).addr

/-! ## The bytes of an IU (R188, R190, R191, R196, R279, R345) -/

/-- The XTS slot of the range that covers an IU. -/
def iuSlot (s : State) (iu : Nat) : Option Nat :=
  match nsOfIu s iu with
  | some (nsid, slba, _) => match s.ns.find nsid with
    | some n => (n.rangeOf slba).map fun r => r.slot
    | none => none
  | none => none
/-- The key of the range that covers an IU. -/
def iuKey (s : State) (iu : Nat) : List Byte :=
  match iuSlot s iu with
  | some k => (s.xts k).key
  | none => []

/-- The RECORD_WIDTH of an IU's namespace. -/
def iuWidth (s : State) (iu : Nat) : Nat :=
  match nsOfIu s iu with
  | some (nsid, _, _) => match s.ns.find nsid with | some n => n.recordWidth | none => 0
  | none => 0

/-- The stored form of 16,384 bytes of an IU under a key: its units and its ciphertext (R191, R279). -/
def storeIu (key : List Byte) (width iu : Nat) (compress : Bool) (bytes : List Byte) : Nat × List Byte :=
  let block := encodeBlock width bytes
  if compress ∧ block.length ≤ 15360 then
    let u := ceilDiv block.length 1024
    (u, xtsRun true key 1024 (iu * 16) (padTo (1024 * u) block))
  else (16, xtsRun true key 1024 (iu * 16) bytes)

/-- The block in a stored IU of LENGTH 1 to 15, without the fill of its last unit (R345). -/
def storedBlock (plain : List Byte) : List Byte := plain.take (16 + leAt plain 8 4)

/-- How the decode of a stored IU ends: with its bytes, at a check of R341, or with a block that is short or whose header is not that of
an IU of the namespace. -/
inductive IuDecode where
  | good (bytes : List Byte)
  | check (status : Status) (offset position : Nat)
  | header
  deriving DecidableEq, Repr

/-- A stored IU is decrypted, and decoded when it is a codec block: one of kind CODED, with ORIG_LEN 16,384 and the namespace's
RECORD_WIDTH (R188, R345). -/
def iuDecode (s : State) (x : Stored) : IuDecode :=
  let plain := xtsRun false (iuKey s x.iu) 1024 (x.iu * 16) x.bytes
  if x.units = 16 then .good plain
  else
    match decodeBlock (iuWidth s x.iu) (storedBlock plain) with
    | .ok out => if out.length = 16384 ∧ !blockStored plain ∧ leAt plain 2 2 = iuWidth s x.iu then .good out else .header
    | .short .. => .header
    | .fail st off p => .check st off p

/-- What a stored IU reads as. -/
def loadIu (s : State) (x : Stored) : Except Status (List Byte) :=
  match iuDecode s x with
  | .good bytes => .ok bytes
  | _ => .error stUnrecovered

/-- Record a decode failure in the RLE error registers and counts; NVM marks a stored IU, and the identifier is then 0 (R349, R350,
R559). -/
def State.rleFail (s : State) (nvm : Bool) (id : W32) (st : Status) (inOff outPos : Nat) : State :=
  let s1 := (s.addCnt (rRleCount (if st = stGuard then 5 else 4)) 1).addLife (lifeErr 14 true) 1
  if s1.regBit rRleErr 31 then s1.setBits rRleErr 0x40000000#32 0x40000000#32
  else (((s1.setReg rRleErr (w32 (2 ^ 31 + bitIf nvm 29 + st.toNat))).setReg rRleErrIn (w32 inOff)).setReg rRleErrOut (w32 outPos)).setReg
    rRleErrTrail id |>.irq

/-- The decode of what a map entry names is counted: its bytes, or its failure; a header that is only not the namespace's is no failure
of a check, and records none (R349, R350). -/
def State.decodeCounted (s : State) (e : MapEntry) : State :=
  match (s.ftl.stored.find e.addr).map (iuDecode s) with
  | some (.good bytes) => s.addCnt (rRleCount 3) bytes.length
  | some (.check st off p) => s.rleFail true 0 st off p
  | _ => s

/-- The engine work of a read from media: the cipher engine takes its units under the keys of their ranges, and the codec decodes what is
a codec block (R96, R272, R279, R309, R335). -/
def State.mediaWork (s : State) (es : List MapEntry) : State :=
  if es.isEmpty then s
  else
    let keys := (es.filterMap fun e => (s.ftl.stored.find e.addr).bind fun x => iuSlot s x.iu).eraseDups
    let bytes := 1024 * (es.map (·.len)).sum
    (es.filter fun e => decide (e.len < 16)).foldl (fun t e => (t.transfer .codec [] 16384).decodeCounted e)
      ((s.transfer .cipher keys bytes).addCnt (rSeaCount 0) bytes)

/-- The engine work of a flush: the codec encodes where compression applies, and the cipher engine takes the units to store (R190, R191,
R335, R350). A block that is not stored counts at its input only, which R350 leaves to be read. DEDUCED (notes/assumptions/36.md). -/
def State.storeWork (s : State) (x : Slot) (bytes : List Byte) (units : Nat) : State :=
  let s1 := if x.compress then
      let t := (s.transfer .codec [] 16384).addCnt (rRleCount 0) 16384
      if units < 16 then t.addCnt (rRleCount 1) (encodeBlock (iuWidth s x.iu) bytes).length else t
    else s
  (s1.transfer .cipher (iuSlot s x.iu).toList (1024 * units)).addCnt (rSeaCount 0) (1024 * units)

/-- The entries whose stored IU does not decode (R345). -/
def badDecodes (s : State) (es : List MapEntry) : List MapEntry :=
  es.filter fun e => match (s.ftl.stored.find e.addr).map (iuDecode s) with
    | none => false
    | some (.good _) => false
    | some _ => true

/-- Sectors of a slot over the bytes of its previous entry (R196). -/
def mergeSlot (x : Slot) (under : List Byte) : List Byte :=
  (chunksOf 512 under).mapIdx (fun i c => if x.mask.getLsbD i then Mem.readBytes x.mem (512 * i) 512 else c) |>.flatten

/-- A slot holds every sector wanted. -/
def Slot.holds (x : Slot) (want : BitVec 32) : Bool := want &&& ~~~x.mask = 0

/-- The sectors wanted of what a map entry names (R188, R196): the 16,384 bytes, of which only those count, or why they cannot be
read. A slot that holds every sector wanted is read alone (R21); its previous entry can be a slot that is still flushing, so many
deep. -/
def readEntryIn (s : State) : Nat → MapEntry → BitVec 32 → Except Status (List Byte)
  | depth, e, want => match e.st, depth with
    | .unmapped, _ => .ok (zeros 16384)
    | .bad, _ => .error (badStatus e.addr)
    | .media, _ => match s.ftl.stored.find e.addr with
      | some x => loadIu s x
      | none => .error stUnrecovered
    | .buffer, 0 => .error stUnrecovered
    | .buffer, n + 1 => match s.ftl.slots.find e.addr with
      | some x =>
        if x.holds want then .ok (mergeSlot x (zeros 16384))
        else match readEntryIn s n x.prev (want &&& ~~~x.mask) with
          | .ok under => .ok (mergeSlot x under)
          | .error st => .error st
      | none => .error stUnrecovered

/-- What a map entry reads as. -/
def readEntry (s : State) (e : MapEntry) : Except Status (List Byte) := readEntryIn s s.ftl.slots.length e (BitVec.allOnes 32)

/-- The entry on media that a read of some sectors of a map entry needs, if it needs one (R21, R196). -/
def mediaUnder (s : State) : Nat → MapEntry → BitVec 32 → Option MapEntry
  | depth, e, want => match e.st, depth with
    | .media, _ => some e
    | .buffer, n + 1 => match s.ftl.slots.find e.addr with
      | some x => if x.holds want then none else mediaUnder s n x.prev (want &&& ~~~x.mask)
      | none => none
    | _, _ => none

/-- The bytes of an IU that some LBAs cover: the offset in the IU and the length, and the offset in their data. -/
def iuSpan (n : Ns) (slba nlb iu : Nat) : Nat × Nat × Nat :=
  let lo := (iu - n.base) * 16384
  let a := Nat.max lo (slba * n.lbaSize)
  let b := Nat.min (lo + 16384) ((slba + nlb) * n.lbaSize)
  (a - lo, b - a, a - slba * n.lbaSize)

/-- The sector mask of a byte span. -/
def spanMask (off len : Nat) : BitVec 32 := BitVec.ofNat 32 (2 ^ (off / 512 + len / 512) - 2 ^ (off / 512))

/-- The sectors of an IU that some LBAs cover. -/
def sectorsOf (n : Ns) (slba nlb iu : Nat) : BitVec 32 := let (off, len, _) := iuSpan n slba nlb iu; spanMask off len

/-- The IUs that a read of some LBAs touches, each with the sectors it wants of it. -/
def needsOf (n : Ns) (slba nlb : Nat) : List (Nat × BitVec 32) := (iusOf n slba nlb).map fun iu => (iu, sectorsOf n slba nlb iu)

/-- The 16,384 bytes of an IU, of which those of the sectors wanted count, or why they cannot be read (R188, R196). -/
def iuBytes (s : State) (iu : Nat) (want : BitVec 32) : Except Status (List Byte) :=
  readEntryIn s s.ftl.slots.length (s.entryOf iu) want

/-- The bytes of some LBAs; the first IU that fails gives the status. -/
def lbaBytesOf (s : State) (n : Ns) (slba nlb : Nat) : List Nat → Except Status (List Byte)
  | [] => .ok []
  | iu :: rest =>
    match iuBytes s iu (sectorsOf n slba nlb iu), lbaBytesOf s n slba nlb rest with
    | .error st, _ => .error st
    | .ok _, .error st => .error st
    | .ok bs, .ok more =>
      let lo := (iu - n.base) * 16384
      let from_ := slba * n.lbaSize - lo
      let upto := Nat.min 16384 ((slba + nlb) * n.lbaSize - lo)
      .ok ((bs.take upto).drop from_ ++ more)

def lbaBytes (s : State) (n : Ns) (slba nlb : Nat) : Except Status (List Byte) := lbaBytesOf s n slba nlb (iusOf n slba nlb)

/-- The LBAs after the written ones that a write deallocates. -/
def WriteKind.rest : WriteKind → Nat
  | .sink _ _ rest => rest
  | _ => 0

/-! ## Key Value data (R194, R368; notes/assumptions/52.md) -/

/-- The first of some ranges of free bytes of an IU that values can take, so many bytes at most. -/
def kvFreeIn (used : List KvPiece) (iu : Nat) : Nat → Nat → Nat → Option KvPiece
  | 0, _, _ => none
  | n + 1, off, room =>
    if 16384 ≤ off then none
    else match (used.filter fun p => p.iu = iu && decide (p.off ≤ off) && decide (off < p.off + p.len)).head? with
      | some p => kvFreeIn used iu n (p.off + p.len) room
      | none =>
        let next := (used.filter fun p => p.iu = iu && decide (off < p.off)).foldl (fun a p => Nat.min a p.off) 16384
        some { iu := iu, off := off, len := Nat.min room (next - off) }

/-- Place so many bytes in the IUs of a Key Value namespace from one IU on, in the lowest free bytes. -/
def kvPlan (used : List KvPiece) (ius : Nat) : Nat → Nat → Nat → List KvPiece
  | 0, _, _ => []
  | n + 1, iu, room =>
    if room = 0 ∨ ius ≤ iu then []
    else match kvFreeIn used iu (used.length + 1) 0 room with
      | some p => p :: kvPlan (p :: used) ius n iu (room - p.len)
      | none => kvPlan used ius n (iu + 1) room

/-- Where a value goes: free bytes, with those that pairs, admitted values and BAD IUs hold left out; the bytes of the pair that it
replaces come last. -/
def kvPieces (s : State) (nsid : Nat) (n : Ns) (key : List Byte) (bytes : Nat) : List KvPiece :=
  let others := (n.kv.filter fun r => r.key ≠ key).flatMap (·.pieces) ++
    ((s.ftl.admitted.filter fun a => a.nsid = nsid).flatMap (·.pieces)) ++
    ((List.range (iusFor n n.nsze)).filter fun i => (s.entryOf (n.base + i)).st = .bad).map fun i => { iu := i, off := 0, len := 16384 }
  let old := (n.kv.filter fun r => r.key = key).flatMap (·.pieces)
  let ius := iusFor n n.nsze
  let fuel := ius + others.length + old.length + 1
  let first := kvPlan (others ++ old) ius fuel 0 bytes
  let left := bytes - (first.map (·.len)).sum
  first ++ kvPlan (others ++ first) ius fuel 0 left

/-- The global IU indices of some pieces. -/
def kvIus (n : Ns) (ps : List KvPiece) : List Nat := (ps.map fun p => n.base + p.iu).eraseDups

/-- The IUs that an admitted write touches. -/
def AdmittedWrite.ius (a : AdmittedWrite) (n : Ns) : List Nat :=
  match a.kind with
  | .kv .. => kvIus n a.pieces
  | _ => iusOf n a.slba (a.nlb + a.kind.rest)

/-- The sectors of an IU that some pieces lie in. -/
def kvSectors (n : Ns) (ps : List KvPiece) (iu : Nat) : BitVec 32 :=
  ((ps.filter fun p => n.base + p.iu = iu).map fun p => spanMask (p.off / 512 * 512) (ceilDiv (p.off + p.len) 512 * 512 - p.off / 512 * 512)).foldl
    (· ||| ·) 0

/-- Put the bytes of a value over an IU's bytes, piece by piece. -/
def kvOver (iu : Nat) : List KvPiece → List Byte → List Byte → List Byte
  | [], _, under => under
  | p :: ps, v, under =>
    kvOver iu ps (v.drop p.len) (if p.iu = iu then under.take p.off ++ v.take p.len ++ under.drop (p.off + p.len) else under)

/-- The 16,384 bytes that the pairs of a namespace give an IU. -/
def kvImage (n : Ns) (iu : Nat) : List Byte := n.kv.foldl (fun b r => kvOver iu r.pieces r.value b) (zeros 16384)

/-! ## Slots of the write buffer (R193) -/

def State.slot (s : State) (k : Nat) : Option Slot := s.ftl.slots.find k
def State.onSlot (s : State) (k : Nat) (g : Slot → Slot) : State :=
  s.onFtl fun f => { f with slots := f.slots.modify k g }
/-- Slots a function holds (R476). -/
def slotsHeld (s : State) (f : Fn) : Nat := (s.ftl.slots.filter fun e => decide (e.2.fn = f)).length

/-- The slot of an IU that is not yet flushing. -/
def openSlot (s : State) (iu : Nat) : Option Nat :=
  (s.ftl.slots.find? fun e => decide (e.2.iu = iu) && !e.2.flushing).map (·.1)

/-- PEAK of FTL_BUF_STATUS follows the slots in use (R227). -/
def State.bufPeak (s : State) : State :=
  let used := s.ftl.slots.length
  if s.regFld rFtlBuf 31 16 < used then s.setReg rFtlBuf (w32 (used * 2 ^ 16)) else s

/-! ## Space of thin namespaces (R214, R215) -/

/-- IUs of a namespace that hold data; a BAD one holds none. -/
def heldIus (s : State) (n : Ns) : Nat :=
  (s.ftl.map.filter fun e => e.2.st ≠ .bad && decide (n.base ≤ e.1) && decide (e.1 < n.base + iusFor n n.nsze)).length
/-- IUs beyond a reservation. -/
def beyond (n : Ns) (used : Nat) : Nat := used - iusFor n n.ncap
/-- IUs that S blocks hold, with P and Q. -/
def iusInBlocks (s : State) (blocks : Nat) : Nat :=
  blocks / geomW (writeGeom s) * (bandUnits s (writeGeom s) / 16)
/-- The part of S0 that a spare stage keeps back, in percent: the entry value of the stage below it, of READ_ONLY its own
(notes/assumptions/21.md). -/
def keptBack : Nat → Nat
  | 0 => 10 | 1 => 5 | _ => 1

/-- The unreserved pool, less what the current spare stage keeps back (R214). -/
def unreserved (s : State) : Nat :=
  iusInBlocks s (spareBlocks s - s.ftl.spare0 * keptBack s.ftl.spareStage / 100) -
    (s.ns.map fun e => if e.2.thin then beyond e.2 (heldIus s e.2) else 0).sum

/-- Valid stored IUs of a band: those the map or a waiting slot's previous entry names. -/
def bandStored (s : State) (b : Nat) : List (Nat × Stored) :=
  s.ftl.stored.filter fun e => decide (bandOf s e.1 = b)
def storedNamed (s : State) (a : Nat) (x : Stored) : Bool :=
  let e := s.entryOf x.iu
  (e.st = .media && e.addr = a) ||
  s.ftl.slots.any fun k => decide (k.2.iu = x.iu) && k.2.prev.st = .media && decide (k.2.prev.addr = a)
def bandValid (s : State) (b : Nat) : List (Nat × Stored) := (bandStored s b).filter fun e => storedNamed s e.1 e.2
/-- The pages of segments in a map band that are the newest of their segment, or are still being programmed. -/
def bandSegments (s : State) (b : Nat) : List MapPage :=
  s.ftl.mapPages.filter fun p => decide (bandOf s p.addr = b) && (!p.done || newestPage s.ftl p)
def validUnits (s : State) (b : Nat) : Nat := ((bandValid s b).map fun e => e.2.units).sum + 16 * (bandSegments s b).length

/-- A closed band holds invalid space. -/
def reclaimable (s : State) : Bool :=
  s.ftl.bands.any fun e => e.2.st = .closed && decide (validUnits s e.1 < bandUnits s e.2.geom)

/-- A write to a thin namespace that its reservation, the pool and relocation cannot serve: the IUs that take slots are those
that may take space (R194, R215). -/
def thinSpent (s : State) (n : Ns) (ius : List Nat) : Bool :=
  n.thin &&
    (let used := heldIus s n
     let new := (ius.filter fun iu => (s.entryOf iu).st = .unmapped || (s.entryOf iu).st = .bad).length
     decide (unreserved s < beyond n (used + new) - beyond n used) && !reclaimable s)

end Sys2Proof.Machine
end

