-- ==== Sys2Proof/Machine/Parity.lean ====
section
/-! DEFINITION. What the member pages of a stripe hold: the codewords with their metadata, P and Q, and the recovery of one or two
erased codewords of a column (R239, R240, R243). -/

namespace Sys2Proof.Machine

/-! ## GF(2^8) (R239) -/

/-- Multiply by g = 2 modulo x^8 + x^4 + x^3 + x^2 + 1. -/
def gdouble (x : Byte) : Byte := if x.getLsbD 7 then (x <<< 1) ^^^ 0x1D#8 else x <<< 1

/-- Multiply, by the lowest so many bits of the first factor. -/
def gmulBits : Nat → Byte → Byte → Byte
  | 0, _, _ => 0
  | n + 1, a, b => (if a.getLsbD 0 then b else 0) ^^^ gmulBits n (a >>> 1) (gdouble b)

def gmul (a b : Byte) : Byte := gmulBits 8 a b

/-- g^n. -/
def gpow : Nat → Byte
  | 0 => 1
  | n + 1 => gdouble (gpow n)

/-- The inverse of a nonzero element: its power 254. -/
def ginv (a : Byte) : Byte := (List.replicate 254 a).foldl gmul 1

/-! ## Codewords (R192, R233, R240) -/

/-- The stored IU that holds a unit of the data space, with its address. -/
def storedOver (s : State) (a : Nat) : Option (Nat × Stored) :=
  s.ftl.stored.find? fun e => decide (e.1 ≤ a) && decide (a < e.1 + e.2.units)

/-- The page of a map band that holds a unit. -/
def mapPageOver (s : State) (a : Nat) : Option MapPage :=
  s.ftl.mapPages.find? fun p => decide (p.addr ≤ a) && decide (a < p.addr + 16)

/-- The page image of a map segment, 16 KiB (R216). The bytes of a page of the block table no rule gives but for its band records (R235):
they are a free value (notes/assumptions/6.md). -/
def MapPage.bytes (p : MapPage) : List Byte :=
  if p.block then bytesOf 16384 (Config.blockPage p.segment p.jseq)
  else
    let head := leBytes 4 0x4D505347 ++ leBytes 4 p.segment ++ leBytes 8 p.jseq ++ zeros 44
    let body := (List.range 2720).flatMap fun i => (p.entries.getD (p.segment * 2720 + i) MapEntry.unmapped).bytes
    head ++ leBytes 4 (crc32c (head ++ body)) ++ body

/-- The 1,024 bytes of a unit: of a stored IU, or of a page of a map band; filler is 0. -/
def unitBytes (s : State) (a : Nat) : List Byte :=
  match storedOver s a, mapPageOver s a with
  | some e, _ => padTo 1024 (slice e.2.bytes ((a - e.1) * 1024) 1024)
  | none, some p => slice p.bytes ((a - p.addr) * 1024) 1024
  | none, none => zeros 1024

/-- START_k: the IU that begins at a unit, if one does. -/
def startEntry (s : State) (a : Nat) : List Byte :=
  match s.ftl.stored.find a with
  | some d => leBytes 5 d.iu ++ leBytes 6 d.seq ++ zeros 1
  | none => zeros 12

/-- The first unit of a codeword of a data member. -/
def cwUnit (s : State) (b g j m c : Nat) : Nat := bandBase s g b + (j * geomD g + m) * 16 + c * 4

/-- The metadata of a codeword, 64 bytes (R240). -/
def cwMetadata (s : State) (b g j m c : Nat) : List Byte :=
  let a := cwUnit s b g j m c
  let starts := (List.range 4).foldl (fun n k => if (s.ftl.stored.find (a + k)).isSome then n + 2 ^ k else n) 0
  leBytes 4 b ++ leBytes 4 j ++ leBytes 1 ((j + 2 + m) % geomW g) ++ leBytes 1 c ++ leBytes 1 starts ++ zeros 5 ++
  (List.range 4).flatMap fun k => startEntry s (a + k)

/-- The 4,160 protected bytes of a codeword of a data member (R239); those of filler are 0. -/
def dataCw (s : State) (b g j m c : Nat) : List Byte :=
  let a := cwUnit s b g j m c
  if (List.range 4).all fun k => (storedOver s (a + k)).isNone && (mapPageOver s (a + k)).isNone then zeros 4160
  else ((List.range 4).flatMap fun k => unitBytes s (a + k)) ++ cwMetadata s b g j m c

/-! ## P, Q and recovery (R239, R243) -/

/-- Add up codewords of n bytes. -/
def xorAll (n : Nat) (ds : List (List Byte)) : List Byte := ds.foldr xorBytes (zeros n)

/-- P of a column. -/
def parityP (n : Nat) (ds : List (List Byte)) : List Byte := xorAll n ds

/-- Q of a column: data member m is multiplied by g^m. -/
def parityQ (n : Nat) (ds : List (List Byte)) : List Byte := xorAll n (ds.mapIdx fun m d => d.map (gmul (gpow m)))

/-- The data codewords of a column. -/
def columnData (s : State) (b g j c : Nat) : List (List Byte) := (List.range (geomD g)).map fun m => dataCw s b g j m c

/-- A rebuild programmed zeros as a codeword (R248). -/
def zeroedCw (s : State) (b j p c : Nat) : Bool :=
  match s.band b with | some x => decide ((j, c, p) ∈ x.zeroed) | none => false

/-- What a codeword of a member slot holds: a data member's protected bytes, P or Q (R232, R239), or zeros (R248). -/
def memberCw (s : State) (b g j p c : Nat) : List Byte :=
  if zeroedCw s b j p c then zeros 4160
  else if p = slotP g j then parityP 4160 (columnData s b g j c)
  else if p = slotQ g j then parityQ 4160 (columnData s b g j c)
  else dataCw s b g j ((p + 2 * geomW g - (j % geomW g + 2)) % geomW g) c

/-- The data member m of a column from the others and P. -/
def recoverP (n : Nat) (ds : List (List Byte)) (m : Nat) (p : List Byte) : List Byte := xorBytes p (xorAll n (ds.set m (zeros n)))

/-- The data member m from the others and Q, where P is erased with it. -/
def recoverQ (n : Nat) (ds : List (List Byte)) (m : Nat) (q : List Byte) : List Byte :=
  (xorBytes q (parityQ n (ds.set m (zeros n)))).map (gmul (ginv (gpow m)))

/-- The data members m and k from the others, P and Q: what is recovered of member m. -/
def recoverPQ (n : Nat) (ds : List (List Byte)) (m k : Nat) (p q : List Byte) : List Byte :=
  let rest := (ds.set m (zeros n)).set k (zeros n)
  let dp := xorBytes p (xorAll n rest)
  let dq := xorBytes q (parityQ n rest)
  (xorBytes dq (dp.map (gmul (gpow k)))).map (gmul (ginv (gpow m ^^^ gpow k)))

/-- What the stripe parity unit computes for an erased slot of a column, from the codewords of the slots that are not erased (R243). -/
def recovered (s : State) (b g j p c : Nat) (gone : List Nat) : List Byte :=
  let ds := columnData s b g j c
  let m := (p + 2 * geomW g - (j % geomW g + 2)) % geomW g
  let other := (List.range (geomD g)).find? fun k => k ≠ m && decide ((j + 2 + k) % geomW g ∈ gone)
  if p = slotP g j ∨ p = slotQ g j then memberCw s b g j p c
  else match other with
    | some k => recoverPQ 4160 ds m k (memberCw s b g j (slotP g j) c) (memberCw s b g j (slotQ g j) c)
    | none =>
      if slotP g j ∈ gone then recoverQ 4160 ds m (memberCw s b g j (slotQ g j) c)
      else recoverP 4160 ds m (memberCw s b g j (slotP g j) c)

end Sys2Proof.Machine
end

