-- ==== Sys2Proof/Machine/MediaOps.lean ====
section
/-! DEFINITION. Operations at the media: reconstruction, stripes and their programs, flips, the
flush of slots and the copies of relocation, reads under way, rebuild, reshape and the failure of a LUN (R164 to R177,
R197 to R205, R232 to R263). -/

namespace Sys2Proof.Machine

/-! ## Senses and read disturb (R208, R209) -/

/-- The effective read threshold. -/
def readThreshold (s : State) : Nat :=
  let f := s.board.readThreshold
  let u := s.regFld rFtlRdThresh 23 0
  if u = 0 ∨ f ≤ u then f else Nat.max u (f / 16)

/-- The band and the slot of a block. -/
def bandOfBlock (s : State) (lun block : Nat) : Option (Nat × Nat) :=
  (allBands s).findSome? fun e => (e.2.members.findIdx? fun m => m = (lun, block)).map fun p => (e.1, p)

/-- A band becomes a refresh candidate. -/
def State.refreshBand (s : State) (lun block : Nat) : State :=
  match bandOfBlock s lun block with
  | some (b, _) => s.onAnyBand b fun x => { x with refresh := true }
  | none => s

/-- A sense of a block. -/
def State.sense (s : State) (lun block : Nat) : State :=
  let k := blockNo s lun block
  let s1 := s.onBlock k fun b => { b with reads := satAdd 0xFFFFFF b.reads 1 }
  if readThreshold s ≤ (s1.block k).reads then s1.refreshBand lun block else s1

/-! ## Columns and losses (R239, R242 to R244) -/

/-- The data member that a slot holds in a stripe, if it holds one. -/
def memberOf (g j p : Nat) : Option Nat :=
  let m := (p + 2 * geomW g - (j % geomW g + 2)) % geomW g
  if m < geomD g then some m else none

/-- The first data-space address of a codeword of a slot. -/
def cwAddr (s : State) (b g j p cw : Nat) : Option Nat :=
  (memberOf g j p).map fun m => bandBase s g b + (j * geomD g + m) * 16 + cw * 4

/-- The IUs that lose data with the codewords at an address. -/
def iusAt (s : State) (a : Nat) : List (Nat × Nat) :=
  (s.ftl.stored.filter fun e => decide (e.1 < a + 4) && decide (a < e.1 + e.2.units)).map fun e => (e.1, e.2.iu)

/-- Data at a stored address is lost: the IU becomes BAD with cause 1, or what a waiting slot keeps of it does. -/
def State.loseStored (s : State) (a iu : Nat) : State :=
  let s1 := if (s.entryOf iu).st = .media ∧ (s.entryOf iu).addr = a then s.setBad iu 1 else s
  s1.onFtl fun f =>
    { f with slots := f.slots.mapVals fun _ x =>
        if x.iu = iu ∧ x.prev.st = .media ∧ x.prev.addr = a then { x with prev := ⟨.bad, 0, 1⟩ } else x }

/-- The members that a reconstruction reads: D survivors, data and P first, Q only for a second erasure (R243). -/
def survivors (x : Band) (j : Nat) (gone : List Nat) : List Nat :=
  let q := slotQ x.geom j
  let order := ((List.range (geomW x.geom)).filter fun p => p ≠ q) ++ [q]
  (order.filter fun p => !(p ∈ gone)).take (geomD x.geom)

/-! ## Stripes: programs, flips and closes (R197, R202, R232, R251) -/

/-- The record of a stripe of a band; those of a new band of a reshape are kept apart by their KIND. -/
def State.stripe (s : State) (b j : Nat) : Option Stripe :=
  s.str.stripes.find? fun t => t.band = b && t.stripe = j && t.kind ≠ .reshape
def State.onStripe (s : State) (b j : Nat) (g : Stripe → Stripe) : State :=
  s.onStr fun t =>
    { t with stripes := t.stripes.map fun x => if x.band = b ∧ x.stripe = j ∧ x.kind ≠ .reshape then g x else x }

/-- The geometry of a band. -/
def geomOf (s : State) (b : Nat) : Nat := match s.band b with | some x => x.geom | none => 0

/-- A page of a stored IU has reported program success. -/
def partProgrammed (s : State) (q : PagePart) : Bool :=
  let g := geomOf s q.band
  match s.stripe q.band (pageStripe g q.page) with
  | some t => pageSlot g q.page ∈ t.programmed
  | none => true

/-- Every page of a stored IU has reported program success. -/
def allProgrammed (s : State) (a units : Nat) : Bool := (pageParts s ⟨.media, units, a⟩).all (partProgrammed s)

/-- A stripe that holds part of a stored IU is still in flight. -/
def inFlight (s : State) (a units : Nat) : Bool :=
  (pageParts s ⟨.media, units, a⟩).any fun q => (s.stripe q.band (pageStripe (geomOf s q.band) q.page)).isSome

/-- The map segment of one of some IUs is being rebuilt (R221). -/
def segBusy (s : State) (ius : List Nat) : Bool := !s.ftl.segRebuild.isEmpty && ius.any fun iu => iu / 2720 ∈ s.ftl.segRebuild

/-- Slots whose previous entry names a slot take what that slot has become (R193, R196). -/
def State.repoint (s : State) (k : Nat) (e : MapEntry) : State :=
  s.onFtl fun f => { f with slots := f.slots.mapVals fun _ x => if x.prev = ⟨.buffer, 0, k⟩ then { x with prev := e } else x }

/-- Flip a placed slot whose pages are all programmed (R197 step 4). -/
def State.flipSlot (s : State) (k : Nat) : State :=
  match s.slot k with
  | some x => match x.placed with
    | some a => match s.ftl.stored.find a with
      | some d =>
        if !x.programmed && allProgrammed s a d.units && !segBusy s [x.iu] then
          let s1 := (s.onSlot k fun x => { x with programmed := true }).repoint k ⟨.media, d.units, a⟩
          let s2 := if d.units < 16 then s1.addCnt (rFtlCount 5) 1 else s1
          if s2.entryOf x.iu = ⟨.buffer, 0, k⟩ then s2.setMap x.iu ⟨.media, d.units, a⟩ else s2
        else s
      | none => s
    | none => s
  | none => s

/-- Drop a copy whose entry has changed (R202, R228). -/
def State.dropCopy (s : State) (c : Copy) : State :=
  (s.addCnt (rFtlCount 3) 1).onFtl fun f => { f with copies := f.copies.erase c }

/-- Flip a placed copy whose pages are all programmed, or drop it (R202). -/
def State.flipCopy (s : State) (c : Copy) : State :=
  match c.dst with
  | some d =>
    if allProgrammed s d.addr d.len && !segBusy s [c.iu] then
      let s1 := s.onBand c.victim fun x => { x with copied := x.copied + d.len }
      if s1.entryOf c.iu = c.src then (s1.onFtl fun f => { f with copies := f.copies.erase c }).setMap c.iu d
      else (s1.dropCopy c).onFtl fun f => { f with stored := f.stored.erase d.addr }
    else s
  | none => s

/-- Pages of segments whose programs have all succeeded become the newest of their segments, and the journal that they cover is
discarded (R216, R219). -/
def State.flipSegments (s : State) : State :=
  s.onFtl fun f =>
    let ps := f.mapPages.map fun p => if !p.done && allProgrammed s p.addr 16 then { p with done := true } else p
    { f with mapPages := ps }.journalTrim.precedence

/-- A victim whose IUs have all moved is erased: its data leaves and every good member block gets an erase (R202). -/
def State.victimCheck (s : State) : State :=
  match s.ftl.victim with
  | none => s
  | some v =>
    if (s.ftl.copies.any fun c => c.victim = v) || !(bandValid s v).isEmpty || !(bandSegments s v).isEmpty then s
    else match s.band v with
      | none => s.onFtl fun f => { f with victim := none }
      | some x =>
        let doomed := x.members.filter fun m => !(s.block (blockNo s m.1 m.2)).retired && !(s.lun m.1).failed
        let s1 := s.onFtl fun f =>
          { f with victim := none, stored := f.stored.filter fun e => !decide (bandOf s e.1 = v),
                   mapPages := f.mapPages.filter fun p => !decide (bandOf s p.addr = v),
                   bands := if doomed.isEmpty then f.bands.erase v
                            else f.bands.set v { x with st := .erasePending, erasing := doomed } }
        let s2 := (if x.refresh then s1.addCnt (rFtlCount 4) 1 else s1).blockSegDirty (bandSegment s x)
        doomed.foldl (fun t m => t.enqueue m.1 { op := .erase (some v), cls := 4, block := m.2, page := 0, aged := false }) s2

/-- Free the slots whose stripes are all closed (R197 step 5). -/
def State.freeSlots (s : State) : State :=
  s.onFtl fun f =>
    { f with slots := f.slots.filter fun e =>
        match e.2.placed with
        | some a => !(e.2.programmed && !inFlight s a (match f.stored.find a with | some d => d.units | none => 0))
        | none => true }

/-- A band that takes no more data and has no stripe in flight is closed. -/
def State.closeBand (s : State) (b : Nat) : State :=
  s.onBand b fun x =>
    if x.st = .opened ∧ (x.shut ∨ bandUnits s x.geom ≤ x.fill) ∧ !(s.str.stripes.any fun y => y.band = b && y.kind ≠ .reshape) then
      { x with st := .closed, closedAt := s.now }
    else x

/-- A stripe closes once every member has reported success. -/
def State.closeStripe (s : State) (b j : Nat) : State :=
  match s.stripe b j, s.band b with
  | some t, some x =>
    if geomW x.geom ≤ t.programmed.length then
      let s1 := s.onStr fun r => { r with stripes := r.stripes.filter fun y => !(y.band = b && y.stripe = j && y.kind ≠ .reshape) }
      (((s1.onBand b fun x => { x with stripes := x.stripes + 1 }).closeBand b).freeSlots).victimCheck
    else s
  | _, _ => s

/-- A member of a stripe reports success, or is not needed: flips and the close follow. -/
def State.pageDone (s : State) (b j p : Nat) : State :=
  let s1 := s.onStripe b j fun t => { t with programmed := addOnce t.programmed p }
  let s2 := s1.ftl.slots.foldl (fun t e => t.flipSlot e.1) s1
  let s3 := (s2.ftl.copies.foldl (fun t c => t.flipCopy c) s2).flipSegments
  (s3.closeStripe b j).victimCheck

/-- Issue the program of a member; one on a LOST slot, a failed LUN or a retired block is not needed (R204). -/
def State.issueMember (s : State) (b j p : Nat) : State :=
  let s1 := s.onStripe b j fun t => { t with issued := addOnce t.issued p }
  match s1.band b with
  | some x => match x.members[p]? with
    | some m =>
      if p ∈ x.lost ∨ (s1.lun m.1).failed ∨ (s1.block (blockNo s1 m.1 m.2)).retired then s1.pageDone b j p
      else s1.enqueue m.1 { op := .program b j p, cls := 4, block := m.2, page := j, aged := false }
    | none => s1
  | none => s1

/-- Issue a data page; with the last of its stripe, P and Q follow (R252). -/
def State.issuePage (s : State) (b g q : Nat) : State :=
  let j := pageStripe g q
  let s1 := s.issueMember b j (pageSlot g q)
  if q % geomD g + 1 = geomD g then
    (((s1.onStripe b j fun t => { t with st := 2 }).issueMember b j (slotP g j)).issueMember b j (slotQ g j)).onStripe b j
      fun t => { t with st := 3 }
  else s1

/-- The units of stored IUs on the page that a slot holds in a stripe. -/
def unitsOnPage (s : State) (b j p : Nat) : Nat :=
  match memberOf (geomOf s b) j p with
  | some m =>
    let lo := bandBase s (geomOf s b) b + (j * geomD (geomOf s b) + m) * 16
    (s.ftl.stored.map fun e => Nat.min (lo + 16) (e.1 + e.2.units) - Nat.max lo e.1).sum
  | none => 0

/-- The units of a page that has been programmed count for host data or for relocation (R228). -/
def State.countProgram (s : State) (b j p : Nat) : State :=
  match s.band b with
  | some x => match x.kind with
    | .host => s.addCnt (rFtlCount 1) (unitsOnPage s b j p)
    | .reloc | .relocLater => s.addCnt (rFtlCount 2) (unitsOnPage s b j p)
    | _ => s
  | none => s

/-- The stripes that a run of units enters (R233). -/
def stripesOver (g lo hi : Nat) : List Nat :=
  let per := 16 * geomD g
  (List.range ((hi + per - 1) / per - lo / per)).map (· + lo / per)

/-- The stripe-in-flight journal has room for the stripes that a run of units opens (R251). -/
def stripeRoom (s : State) (b g lo hi : Nat) : Bool :=
  decide (s.str.stripes.length + ((stripesOver g lo hi).filter fun j => (s.stripe b j).isNone).length ≤ 16384)

/-- A stripe-in-flight record for each stripe that a run of units enters. -/
def State.openStripes (s : State) (b g lo hi : Nat) (kind : BandKind) : State :=
  (stripesOver g lo hi).foldl (fun t j =>
    if (t.stripe b j).isSome then t
    else t.onStr fun r =>
      { r with stripes := r.stripes ++ [{ band := b, stripe := j, geom := g, st := 1, kind := kind, seq := r.sseq,
                                           issued := [], programmed := [], openedAt := t.now }],
               sseq := r.sseq + 1 }) s

/-- Move the fill pointer of a band and issue the pages it has passed. -/
def State.fillTo (s : State) (b new : Nat) : State :=
  match s.band b with
  | none => s
  | some x =>
    if new ≤ x.fill then s
    else
      let s1 := (s.openStripes b x.geom x.fill new x.kind).onBand b fun y => { y with fill := new }
      ((List.range (new / 16 - x.fill / 16)).map (· + x.fill / 16)).foldl (fun t q => t.issuePage b x.geom q) s1

/-- Close a band with filler: to the end of the stripe it is in, or of the whole band (R197, R234, R241). -/
def State.fillStripe (s : State) (b : Nat) : State :=
  match s.band b with
  | some x => let per := 16 * geomD x.geom
    s.fillTo b (ceilDiv x.fill per * per)
  | none => s
def State.fillBand (s : State) (b : Nat) : State :=
  match s.band b with
  | some x => s.fillTo b (bandUnits s x.geom)
  | none => s
/-- An open band takes no more data: its open stripe is filled, and it is closed once its stripes are. -/
def State.shutBand (s : State) (b : Nat) : State :=
  match s.band b with
  | some x => if x.st = .opened then ((s.onBand b fun y => { y with shut := true }).fillStripe b).closeBand b else s
  | none => s

/-! ## Placement (R192, R197, R206, R234) -/

/-- The open band of a kind that takes data. -/
def openBandOf (s : State) (kind : BandKind) : Option (Nat × Band) :=
  s.ftl.bands.find? fun e => e.2.st = .opened && e.2.kind = kind && !e.2.shut && decide (e.2.fill < bandUnits s e.2.geom)

/-- Take units at the fill pointer of the open band of a kind; an IU that would cross the band's end goes to the next
band. No new stripe opens while the stripe-in-flight journal is full (R251). -/
def State.takeUnits (s : State) (kind : BandKind) (units : Nat) : Nat → State × Option Nat
  | 0 => (s, none)
  | fuel + 1 =>
    match openBandOf s kind with
    | some (b, x) =>
      let upto := Nat.min (bandUnits s x.geom) (x.fill + units)
      if !stripeRoom s b x.geom x.fill upto then (s, none)
      else if bandUnits s x.geom < x.fill + units then (s.fillBand b).takeUnits kind units fuel
      else (s.fillTo b (x.fill + units), some (bandBase s x.geom b + x.fill))
    | none =>
      if 16384 ≤ s.str.stripes.length then (s, none)
      else match s.openBand kind with
        | (s1, some b) => match s1.band b with
          | some x => (s1.fillTo b (x.fill + units), some (bandBase s1 x.geom b + x.fill))
          | none => (s1, none)
        | (s1, none) => (s1, none)

/-- Place the stored form of an IU in the open band of a kind. -/
def State.place (s : State) (kind : BandKind) (iu units : Nat) (bytes : List Byte) (later : Bool) : State × Option Nat :=
  let d : Stored := { iu := iu, units := units, bytes := bytes, seq := s.ftl.placeSeq, later := later }
  match s.takeUnits kind units 3 with
  | (s1, some a) => (s1.onFtl fun f => { f with stored := f.stored.set a d, placeSeq := (f.placeSeq + 1) % 2 ^ 48 }, some a)
  | (s1, none) => (s1, none)

/-- Compression applies to a flush (R190). -/
def compresses (s : State) (n : Ns) : Bool := n.cmode = 1 || (n.cmode = 2 && s.power.effective = .endure)

/-- The cause of the BAD entry under a slot, at most so many slots deep; data that could not be read is lost with cause 1. -/
def badUnder (s : State) : Nat → MapEntry → Nat
  | depth, e => match e.st, depth with
    | .bad, _ => e.addr
    | .buffer, n + 1 => match s.slot e.addr with | some x => badUnder s n x.prev | none => 1
    | _, _ => 1

/-- A flush cannot go through the engine now: its key is erased (R301), or the codec that it needs is in reset (R346). -/
def flushHeld (s : State) (x : Slot) (under : Option MapEntry) : Bool :=
  x.key.isEmpty || (codecResets s && (x.compress || under.any fun e => decide (e.len < 16)))

/-- Place a merged slot (R197 steps 2 and 3). When no band can be opened, or the engine cannot take it, the flush waits: the slot keeps
flushing. An IU whose missing sectors are lost becomes BAD; one whose stored form does not decode stays as it is, and its slot too
(R345; notes/assumptions/36.md). -/
def State.placeSlot (s : State) (k : Nat) : State :=
  match s.slot k with
  | none => s
  | some x =>
    let under := mediaUnder s s.ftl.slots.length ⟨.buffer, 0, k⟩ (BitVec.allOnes 32)
    if flushHeld s x under || !(badDecodes s under.toList).isEmpty then s.onSlot k fun y => { y with merging := false } else
    match readEntryIn s s.ftl.slots.length ⟨.buffer, 0, k⟩ (BitVec.allOnes 32) with
    | .error _ =>
      let cause := badUnder s s.ftl.slots.length x.prev
      let s1 := (s.onFtl fun f => { f with slots := f.slots.erase k }).repoint k ⟨.bad, 0, cause⟩
      if s.entryOf x.iu = ⟨.buffer, 0, k⟩ then s1.setBad x.iu cause else s1
    | .ok bytes =>
      let (units, stored) := storeIu x.key (iuWidth s x.iu) x.iu x.compress bytes
      match ((s.mediaWork under.toList).storeWork x bytes units).place .host x.iu units stored false with
      | (s1, some a) =>
        (s1.onSlot k fun y => { y with placed := some a, programmed := false, merging := false, flushing := true }).flipSlot k
      | (s1, none) => s1.onSlot k fun y => { y with merging := false }

/-- Place the copy of an IU once it has been read (R202, R207). -/
def State.placeCopy (s : State) (iu : Nat) : State :=
  match s.ftl.copies.find? fun c => c.iu = iu && c.dst.isNone with
  | none => s
  | some c =>
    if s.entryOf iu ≠ c.src then (s.dropCopy c).victimCheck
    else match s.ftl.stored.find c.src.addr with
      | none => s.dropCopy c
      | some d =>
        let kind := if d.later && s.power.effective = .endure then BandKind.relocLater else .reloc
        match s.place kind iu d.units d.bytes true with
        | (s1, some a) =>
          let c1 := { c with dst := some ⟨.media, d.units, a⟩ }
          (s1.onFtl fun f => { f with copies := f.copies.map fun y => if y = c then c1 else y }).flipCopy c1
        | (s1, none) => s1

/-- Copies that have been read and found no place look for one again: without a band, or with the stripe-in-flight journal full, they
wait (R202, R251). -/
def State.placeWaiting (s : State) : State :=
  (s.ftl.copies.filter fun c => c.dst.isNone && !(s.ftl.reads.any fun j => j.client = .copy c.iu)).foldl (fun t c => t.placeCopy c.iu) s

/-! ## Pages of segments (R216, R219, R234) -/

/-- The number that MAP_SEGMENT_TIMEOUT gives the first block-table segment (notes/assumptions/53.md). -/
def firstBlockSegment : Nat := 2 ^ 40

/-- When the segment became dirty that a write of it covers. -/
def dirtySince (s : State) (segment : Nat) : Nat :=
  if firstBlockSegment ≤ segment then s.ftl.blockDirty.getD (segment - firstBlockSegment) s.now else s.ftl.dirty.getD segment s.now

/-- What the page of a segment holds now: its map entries, or its block-table entries with the band records, and JSEQ. -/
def segmentNow (s : State) (segment addr : Nat) : MapPage :=
  if firstBlockSegment ≤ segment then
    let k := segment - firstBlockSegment
    { done := false, since := dirtySince s segment, block := true, segment := k, addr := addr, jseq := s.ftl.jseq, entries := [],
      blocks := s.ftl.blocks.filter fun e => e.1 / 2720 = k, bands := s.ftl.bands.filter fun e => bandSegment s e.2 = k }
  else
    { done := false, since := dirtySince s segment, block := false, segment := segment, addr := addr, jseq := s.ftl.jseq,
      entries := s.ftl.map.filter fun e => e.1 / 2720 = segment, blocks := [], bands := [] }

/-- The number of the segment that a page of a map band holds. -/
def MapPage.number (p : MapPage) : Nat := if p.block then firstBlockSegment + p.segment else p.segment

/-- Write a segment as one page of the open map band. It is dirty until the page has been programmed, as the page remembers (R229); what
changes from now on makes it dirty anew. -/
def State.writeSegment (s : State) (segment : Nat) : State :=
  match s.takeUnits .map 16 3 with
  | (s1, some a) =>
    (s1.onFtl fun f =>
      { f with mapPages := f.mapPages ++ [segmentNow s1 segment a],
               dirty := f.dirty.erase segment,
               blockDirty := if firstBlockSegment ≤ segment then f.blockDirty.erase (segment - firstBlockSegment) else f.blockDirty }).flipSegments
  | (s1, none) => s1

/-- A segment whose page could not be programmed is dirty since it first was (R219). -/
def State.segmentAgain (s : State) (p : MapPage) : State :=
  s.onFtl fun f =>
    if p.block then { f with blockDirty := f.blockDirty.set p.segment (Nat.min p.since (f.blockDirty.getD p.segment p.since)) }
    else { f with dirty := f.dirty.set p.segment (Nat.min p.since (f.dirty.getD p.segment p.since)) }

/-! ## Rekeying (R286) -/

/-- A read under way reads LBAs of a namespace. -/
def ReadJob.uses (j : ReadJob) (nsid : Nat) : Bool :=
  match j.kind with
  | .memCopy _ _ sources => sources.any fun x => x.1 = nsid
  | _ => j.nsid = nsid

/-- A command or Trail task that uses the key of a range is still under way. -/
def rangeUsed (s : State) (nsid : Nat) : Bool :=
  (s.ftl.reads.any fun j => j.uses nsid) || (s.ftl.admitted.any fun a => a.nsid = nsid) ||
  s.disp.running.any fun r => match s.flow r.task.flow with
    | some f => match Trail.stageAt f.trail r.task.stage with
      | some (.lbaSource _ n _ _ _) => n = nsid
      | some (.lbaSink _ n _ _ _) => n = nsid
      | _ => false
    | none => false

/-- The IUs of a range of a namespace. -/
def rangeIus (n : Ns) (rangeId : Nat) : List Nat :=
  match n.ranges.find? fun r => r.id = rangeId with
  | some r => if r.id = 0 then (List.range (iusFor n n.nsze)).map (· + n.base) else iusOf n r.start r.length
  | none => []

/-- Deallocate an IU: its entry becomes UNMAPPED, and a slot of it that is not yet flushing is given up (R188). -/
def State.deallocIu (s : State) (iu : Nat) : State :=
  (s.onFtl fun f => { f with slots := f.slots.filter fun e => !(decide (e.2.iu = iu) && !e.2.flushing) }).replaceEntry iu
    MapEntry.unmapped

/-- Deallocate IUs (R188, R286). Only mapped IUs need a change. -/
def State.unmapIus (s : State) (ius : List Nat) : State :=
  ((s.ftl.map.filter fun e => e.1 ∈ ius).map (·.1)).foldl State.deallocIu s

def State.onRange (s : State) (nsid rangeId : Nat) (g : Range → Range) : State :=
  s.onNs fun t => t.modify nsid fun n => { n with ranges := n.ranges.map fun r => if r.id = rangeId then g r else r }

/-- Give the slot of a range a new key; from now reads return zeros and writes wait for the deallocation. -/
def State.switchKey (s : State) (nsid rangeId : Nat) : State :=
  match s.ns.find nsid with
  | none => s
  | some n => match n.ranges.find? fun r => r.id = rangeId with
    | none => s
    | some r =>
      let (key, s1) := s.random 64
      let k := s1.xts r.slot
      let s2 := s1.setXts r.slot { k with st := .loaded, key := key, stored := some (kwWrap (s1.slotKek 1 r.slot) key) }
      (s2.unmapIus ((rangeIus n rangeId).filter fun iu => match n.rangeOf ((iu - n.base) * (16384 / n.lbaSize)) with
        | some x => x.id = rangeId
        | none => false)).onRange nsid rangeId fun x => { x with rekeying := false, deallocating := true }

/-- Switch every range whose users have all completed, and complete the command that asked for it once the stored copies are written
(R275, R286). -/
def State.rekeyAdvance (s : State) : State :=
  let due := s.sea.rekeys.filter fun r => !rangeUsed s r.nsid
  due.foldl (fun t r =>
    let t1 := (t.switchKey r.nsid r.range).onSea fun e => { e with rekeys := e.rekeys.erase r }
    match r.who with
    | some w => t1.cfgWrite (if t1.sea.rekeys.any fun x => x.who = some w then .note else .complete w stOk 0)
    | none => t1.cfgWrite .note) s

/-! ## Reads under way (R164, R188, R189, R196, R615) -/

/-- The map entries that a read of some sectors of IUs needs from media: MEDIA entries, and what slots keep that do not hold
every sector wanted (R21, R196). -/
def mediaEntries (s : State) (needs : List (Nat × BitVec 32)) : List MapEntry :=
  needs.filterMap fun x => mediaUnder s s.ftl.slots.length (s.entryOf x.1) x.2

/-- The IUs that the sources of a Memory Copy lie in, with the sectors wanted. -/
def copyNeeds (s : State) (sources : List (Nat × LbaRange)) : List (Nat × BitVec 32) :=
  sources.flatMap fun x => match s.ns.find x.1 with
    | some n => needsOf n x.2.slba x.2.nlb
    | none => []

/-- The bytes of the sources of a Memory Copy, in order; the first that fails gives the status. -/
def copyBytes (s : State) : List (Nat × LbaRange) → Except Status (List Byte)
  | [] => .ok []
  | x :: rest =>
    match s.ns.find x.1 with
    | none => .error stInvalidNs
    | some n => match lbaBytes s n x.2.slba x.2.nlb, copyBytes s rest with
      | .error st, _ => .error st
      | .ok _, .error st => .error st
      | .ok bs, .ok more => .ok (bs ++ more)

/-- The IUs that a read of the host waits for, with the sectors wanted. -/
def jobNeeds (s : State) (j : ReadJob) : List (Nat × BitVec 32) :=
  match j.kind with
  | .memCopy _ _ sources => copyNeeds s sources
  | .kv key _ => match s.ns.find j.nsid with
    | some n => let ps := (n.kv.filter fun r => r.key = key).flatMap (·.pieces)
      (kvIus n ps).map fun iu => (iu, kvSectors n ps iu)
    | none => []
  | _ => match s.ns.find j.nsid with
    | some n => needsOf n j.slba j.nlb
    | none => []

/-- The island that the data of a host read does not come through: ENGINE, where some of it comes from media, and MEM, where
some is in the write buffer (R20). -/
def pathDown (s : State) (j : ReadJob) : Option Island :=
  let needs := jobNeeds s j
  if !(mediaEntries s needs).isEmpty && !s.up .engine then some .engine
  else
    let ports := DataPath.hostRead.ports (needs.any fun x => (s.entryOf x.1).st = .buffer)
    if 0 ∈ ports ∧ (dramMiss s ports).isSome then some .mem else none

/-! ## Reconstruction (R168, R239, R242 to R244, R248) -/

/-- How a reconstruction stands: it reads, it has recovered the codeword, or the column is lost. -/
inductive ReconEnd where
  | reading | good | lost
  deriving DecidableEq, Repr

/-- Read the survivors that a reconstruction still lacks, or end it (R243): the column of a stripe that has lost three members, or
that is in the dead list, is lost (R244). A member whose program has not succeeded is taken from its origin (R252), and so is what a new
band has lost before the switch: the old layout holds it (R260). -/
def State.reconGo (s : State) (r : Recon) : State × Recon × ReconEnd :=
  match s.anyBand r.band with
  | none => (s, r, .lost)
  | some x =>
    let n := if (r.stripe, r.cw) ∈ x.dead then 3 else r.gone.length
    if n < 3 then
      let new := (survivors x r.stripe r.gone).filter fun q => !(q ∈ r.got) && !(q ∈ r.wait)
      let origin := fun q => match s.stripe r.band r.stripe with | some t => !(q ∈ t.programmed) | none => false
      let read := new.filter fun q => !origin q
      let r1 := { r with got := r.got ++ new.filter origin, wait := r.wait ++ read }
      let s1 := read.foldl (fun t q => match x.members[q]? with
        | some m => t.enqueue m.1 { op := .read (.recon (clientCls r.client) r.id) [⟨r.cw, 1, 0, 0, 0⟩], cls := clientCls r.client,
                                    block := m.2, page := r.stripe, aged := false }
        | none => t) s
      (s1, r1, if r1.wait.isEmpty then .good else .reading)
    else (s, r, if firstNewBand ≤ r.band then .good else .lost)

/-- The four units of a codeword become zeros in what is stored: the new layout holds zeros for what the old one has lost (R262). -/
def State.zeroUnits (s : State) (a : Nat) : State :=
  s.onFtl fun f =>
    { f with stored := f.stored.map fun e => (e.1,
        { e.2 with bytes := (chunksOf 1024 e.2.bytes).mapIdx (fun i c => if a ≤ e.1 + i ∧ e.1 + i < a + 4 then zeros c.length else c) |>.flatten }) }

/-- The counts of a reconstruction that has ended, and what a lost column loses (R244, R262, R271). -/
def State.reconCount (s : State) (r : Recon) (good : Bool) : State :=
  if good then
    if 2 < r.gone.length then s else (s.addCnt (rStrCount (r.gone.length - 1)) 1).addLife (lifeErr 2 false) 1
  else
    let lost := r.gone.filterMap fun q => cwAddr s r.band (geomOf s r.band) r.stripe q r.cw
    let s1 := (lost.flatMap (iusAt s)).foldl (fun t e => t.loseStored e.1 e.2) s
    let s2 := if r.client = .reshape then lost.foldl State.zeroUnits s1 else s1
    (s2.addCnt (rStrCount 2) 1).addLife (lifeErr 2 true) 1

/-- Begin to reconstruct a codeword for a client. What ends at once is counted here; the caller delivers it. -/
def State.reconStart (s : State) (client : ReadClient) (b j p cw : Nat) : State × ReconEnd :=
  let lost := match s.anyBand b with | some x => x.lost | none => []
  let r : Recon := { id := s.str.reconSeq, client := client, band := b, stripe := j, slot := p, cw := cw,
                     gone := (lost ++ [p]).eraseDups, got := [], wait := [] }
  let (s1, r1, e) := (s.onStr fun t => { t with reconSeq := t.reconSeq + 1 }).reconGo r
  match e with
  | .reading => (s1.onStr fun t => { t with recons := t.recons ++ [r1] }, .reading)
  | .good => (s1.reconCount r1 true, .good)
  | .lost => (s1.reconCount r1 false, .lost)

/-! ## The reads of a job (R15, R164, R196, R243) -/

/-- What a read of a client meets at an island in reset or gated: a host read has Data Transfer Error, a Trail's read BUS_ERROR
(R15, R16); the G9's own reads wait. -/
def downStatus : ReadClient → Option Status
  | .host _ => some stDataTransfer
  | .trail .. => some stBusError
  | _ => none

/-- Queue the reads of one map entry for a client: the codewords to wait for, and the loss that is already known. -/
def State.issueEntry (s : State) (client : ReadClient) (e : MapEntry) : State × Nat × Option Status :=
  (pageParts s e).foldl (fun (acc : State × Nat × Option Status) q =>
    let (t, n, bad) := acc
    match t.band q.band with
    | none => (t, n, some stUnrecovered)
    | some x =>
      let j := pageStripe x.geom q.page
      let p := pageSlot x.geom q.page
      match x.members[p]? with
      | none => (t, n, some stUnrecovered)
      | some m =>
        if p ∈ x.lost ∨ (t.lun m.1).failed then
          q.cws.foldl (fun (a : State × Nat × Option Status) cw =>
            match a.1.reconStart client q.band j p cw with
            | (u, .reading) => (u, a.2.1 + 1, a.2.2)
            | (u, .good) => (u, a.2.1, a.2.2)
            | (u, .lost) => (u, a.2.1, some stStripeLost)) (t, n, bad)
        else if !t.up (mediaIsland (lunIsland m.1)) && (downStatus client).isSome then
          (t.noteBridge (mediaIsland (lunIsland m.1)) .engine, n, downStatus client)
        else
          (t.enqueue m.1 { op := .read client (q.cws.map fun c => ⟨c, 1, 0, 0, 0⟩), cls := clientCls client, block := m.2, page := j, aged := false },
           n + q.cws.length, bad)) (s, 0, none)

/-- Queue the reads of some entries as one job. -/
def State.startJob (s : State) (job : ReadJob) (es : List MapEntry) : State :=
  let (s1, n, bad) := es.foldl (fun (acc : State × Nat × Option Status) e =>
    let (t, k, b) := acc.1.issueEntry job.client e
    (t, acc.2.1 + k, if acc.2.2.isSome then acc.2.2 else b)) (s, 0, none)
  s1.onFtl fun f => { f with reads := f.reads ++ [{ job with wait := n, failed := if job.failed.isSome then job.failed else bad }] }

/-- Read the stored IUs of some entries once more through redundancy, each codeword as an erasure, for a job of a client (R243, R345): the
codewords to wait for, and the loss that is already known. -/
def State.issueErased (s : State) (client : ReadClient) (es : List MapEntry) : State × Nat × Option Status :=
  (es.flatMap (pageParts s)).foldl (fun (acc : State × Nat × Option Status) q =>
    let j := pageStripe (geomOf s q.band) q.page
    let p := pageSlot (geomOf s q.band) q.page
    q.cws.foldl (fun (a : State × Nat × Option Status) cw =>
      match a.1.reconStart client q.band j p cw with
      | (u, .reading) => (u, a.2.1 + 1, a.2.2)
      | (u, .good) => (u, a.2.1, a.2.2)
      | (u, .lost) => (u, a.2.1, some stStripeLost)) acc) (s, 0, none)

/-- Put a job on its second read, of the stored IUs that did not decode (R345). -/
def State.readErased (s : State) (j : ReadJob) (es : List MapEntry) : State :=
  let (s1, n, bad) := s.issueErased j.client es
  s1.onFtl fun f => { f with reads := f.reads ++ [{ j with again := true, wait := n, failed := bad }] }

/-- The data of a Memory Copy is written to its memory namespace (R452). -/
def State.finishCopy (s : State) (w : Who) (dst offset : Nat) (sources : List (Nat × LbaRange)) : State :=
  match copyBytes s sources with
  | .error st => s.complete w st 0 0
  | .ok bs =>
    if s.slmFits dst offset bs.length then (s.slmWrite dst offset bs).complete w stOk 0 0 else s.complete w stInvalidNs 0 0

/-- Bytes read count for their function (R557). -/
def State.countRead (s : State) (f : Fn) (bytes : Nat) : State :=
  s.addLife (lifeSmart f 0) bytes

/-- The bytes of a value, from the IUs that its pieces lie in (R188, R279). -/
def kvBytes (s : State) (n : Ns) (ps : List KvPiece) : List Byte :=
  ps.flatMap fun p => match iuBytes s (n.base + p.iu) (spanMask p.off p.len) with
    | .ok bs => slice bs p.off p.len
    | .error _ => []

/-- The value of a Key Value Retrieve goes to the host once every IU that holds part of it can be read (R20, R368). -/
def State.finishKv (s : State) (w : Who) (n : Ns) (key : List Byte) (bufferBytes : Nat) (needs : List (Nat × BitVec 32)) : State :=
  match needs.findSome? fun x => match iuBytes s x.1 x.2 with | .error st => some st | .ok _ => none with
  | some st => s.complete w st 0 0
  | none => match n.kv.find? fun r => r.key = key with
    | none => s.complete w stKvKeyAbsent 0 0
    | some r =>
      let d := (kvBytes s n r.pieces).take bufferBytes
      ((s.dataOut w d).countRead w.fn d.length).io w stOk (w32 r.value.length)

/-- While the Shadow MBR of a port is enabled and not done, a host reads it in place of the first bytes of a namespace (R284; what TCG Opal
prescribes is PRESUMED, notes/assumptions/30.md). -/
def mbrOver (s : State) (f : Fn) (n : Ns) (slba : Nat) (bs : List Byte) : List Byte :=
  let o := s.opal (portOfFn f)
  let at_ := slba * n.lbaSize
  if o.mbrEnabled && !o.mbrDone && decide (at_ < mbrBytes) then
    Mem.readBytes o.mbr at_ (Nat.min bs.length (mbrBytes - at_)) ++ bs.drop (mbrBytes - at_)
  else bs

/-- The data of a host read is there, or cannot be read: the command completes (R188, R452). -/
def State.finishRead (s : State) (w : Who) (j : ReadJob) (n : Ns) : State :=
  match lbaBytes s n j.slba j.nlb, j.kind with
  | _, .memCopy dst offset sources => s.finishCopy w dst offset sources
  | _, .kv key room => s.finishKv w n key room (jobNeeds s j)
  | .error st, _ => s.complete w st 0 0
  | .ok bs, .read => ((s.dataOut w (mbrOver s w.fn n j.slba bs)).countRead w.fn bs.length).io w stOk 0
  | .ok bs, .compare d => s.complete w (if mbrOver s w.fn n j.slba bs = d then stOk else stCompareFailure) 0 0
  | .ok _, .verify => s.complete w stOk 0 0

/-- What a host read has read decodes, or is read once more as erasures (R345). -/
def State.decodeRead (s : State) (w : Who) (j : ReadJob) (n : Ns) : State :=
  let es := mediaEntries s (jobNeeds s j)
  let bad := badDecodes s es
  if j.again then (s.mediaWork bad).finishRead w j n
  else if bad.isEmpty then (s.mediaWork es).finishRead w j n
  else
    let (s1, k, st) := (s.mediaWork es).issueErased j.client bad
    if k ≠ 0 then s1.onFtl fun f => { f with reads := f.reads ++ [{ j with again := true, wait := k, failed := st }] }
    else match st with
      | some x => s1.complete w x 0 0
      | none => (s1.mediaWork bad).finishRead w j n

/-- A host read whose media reads are done completes. One that needs a codec in reset is issued again after the reset, and the second time
fails with Data Transfer Error (R346). -/
def State.finishHost (s : State) (w : Who) (j : ReadJob) : State :=
  match j.failed, pathDown s j, s.ns.find j.nsid with
  | some st, _, _ => s.complete w st 0 0
  | none, some i, _ => (s.noteBridge i .host).complete w stDataTransfer 0 0
  | none, none, none => s.complete w stInvalidNs 0 0
  | none, none, some n =>
    if codecResets s && (mediaEntries s (jobNeeds s j)).any fun e => decide (e.len < 16) then
      if j.second then s.complete w stDataTransfer 0 0
      else s.onFtl fun f => { f with reads := f.reads ++ [{ j with second := true }] }
    else s.decodeRead w j n

/-! ## The pages of a reshape (R252, R259, R261) -/

/-- The slot that is written as the i-th of a stripe: the data members, then P, then Q (R252). -/
def writeOrder (g j i : Nat) : Nat := if i < geomD g then (j + 2 + i) % geomW g else if i = geomD g then slotP g j else slotQ g j

/-- The member page at which a reshape stands, as band slot, stripe and member slot: one that is written once more, or the next of the
new band. -/
def reshapeAt (s : State) : Option (Nat × Nat × Nat) :=
  let h := s.str.reshape
  match h.redo with
  | r :: _ => some (r.slotIx, r.next, r.slot)
  | [] => (h.newBands.find h.slotIx).map fun x =>
    (h.slotIx, h.page / geomW x.geom, writeOrder x.geom (h.page / geomW x.geom) (h.page % geomW x.geom))

/-- The data member that is written as the i-th of a stripe changes STATE of its record (R251). -/
def reshapeState (g i : Nat) : Nat := if i + 1 < geomD g then 1 else if i < geomD g + 1 then 2 else 3

/-- The record of the stripe that a reshape writes: it opens with the first member, and remembers those issued (R251). -/
def State.reshapeRecord (s : State) (r : Nat) (x : Band) (j i : Nat) : State :=
  let b := 4096 * r + s.str.reshape.slotIx
  let p := writeOrder x.geom j i
  s.onStr fun t =>
    if t.stripes.any fun y => y.kind = .reshape then
      { t with stripes := t.stripes.map fun y =>
          if y.kind = .reshape then { y with st := reshapeState x.geom i, issued := addOnce y.issued p } else y }
    else
      { t with stripes := t.stripes ++ [{ band := b, stripe := j, geom := x.geom, st := reshapeState x.geom i, kind := .reshape,
                                           seq := t.sseq, issued := [p], programmed := [], openedAt := s.now }],
               sseq := t.sseq + 1 }

/-- A stripe of a reshape is in flight. -/
def reshapeStripeOpen (s : State) : Bool := s.str.stripes.any fun y => y.kind = .reshape

/-- Program the member page at which a reshape stands; one on a lost slot is left out. -/
def State.reshapeProgram (s : State) : State :=
  let h := s.str.reshape
  match reshapeAt s, h.region with
  | some (k, j, p), some r => match h.newBands.find k with
    | some x => match x.members[p]? with
      | some m =>
        if p ∈ x.lost then s
        else
          let s1 := if h.redo.isEmpty then s.reshapeRecord r x j (h.page % geomW x.geom) else s
          s1.enqueue m.1 { op := .reshape k j p, cls := 4, block := m.2, page := j, aged := false }
      | none => s
    | none => s
  | _, _ => s

/-! ## New stripes read back (R261) -/

/-- The new stripe from one on that has been written and is read back, where the reshape has one. -/
def nextBack (s : State) (k j : Nat) : Option (Nat × Nat) :=
  s.str.reshape.newBands.findSome? fun e =>
    if e.1 = k ∧ j < e.2.stripes then some (k, j) else if k < e.1 ∧ 0 < e.2.stripes then some (e.1, 0) else none

/-- Read the next new stripe back from where the check stands, or end it. -/
def State.reshapeCheck (s : State) : State :=
  match s.str.reshape.back.bind fun b => nextBack s b.1 b.2 with
  | none => s.onStr fun t => { t with reshape := { t.reshape with back := none } }
  | some (k, j) =>
    let s1 := s.onStr fun t => { t with reshape := { t.reshape with back := some (k, j) } }
    match s.str.reshape.newBands.find k with
    | none => s1
    | some x =>
      let ps := (List.range (geomW x.geom)).filter fun p => !(p ∈ x.lost)
      ps.foldl (fun t p => match x.members[p]? with
        | some m => t.enqueue m.1 { op := .read .reshape ((List.range 4).map fun c => ⟨c, 1, 0, 0, 0⟩), cls := 3, block := m.2, page := j,
                                    aged := false }
        | none => t) (s1.onFtl fun f => { f with reads := f.reads ++
          [{ client := .reshape, kind := .verify, nsid := 0, slba := 0, nlb := 0, wait := 4 * ps.length, failed := none, second := false, again := false }] })

/-- Erase blocks that no band holds any more. -/
def goodMembers (s : State) (ms : List (Nat × Nat)) : List (Nat × Nat) :=
  ms.filter fun m => !((s.block (blockNo s m.1 m.2)).retired || (s.lun m.1).failed)

def State.eraseBlocks (s : State) (ms : List (Nat × Nat)) : State :=
  (goodMembers s ms).foldl (fun t m => t.enqueue m.1 { op := .erase none, cls := 4, block := m.2, page := 0, aged := false }) s

/-- The blocks of a new band that it holds no more wait to be erased. -/
def State.reshapeDying (s : State) (k : Nat) (x : Band) (ms : List (Nat × Nat)) : State :=
  let good := goodMembers s ms
  if good.isEmpty then s
  else (s.onFtl fun f => { f with dying := f.dying ++ [(firstNewBand + k, { x with st := .erasePending, erasing := good })] }).eraseBlocks good

/-- A member block of a new band is replaced by a fresh block of its LUN, into which its pages are written once more; without a free block
there the slot waits for a rebuild (R261, R262; notes/assumptions/53.md). -/
def State.reshapeFresh (s : State) (k p pages : Nat) : State :=
  match s.str.reshape.newBands.find k with
  | none => s
  | some x => match x.members[p]? with
    | none => s
    | some m =>
      let s1 := s.reshapeDying k x [m]
      match pickBlock s1 m.1 with
      | some b =>
        (s1.holdBlocks [(m.1, b)]).onStr fun t =>
          { t with reshape := { t.reshape with
              newBands := t.reshape.newBands.modify k fun y => { y with members := y.members.set p (m.1, b) },
              redo := (if pages = 0 then [] else [⟨k, p, 0, pages⟩]) ++ t.reshape.redo.filter fun r => !(r.slotIx = k && r.slot = p) } }
      | none => s1.onStr fun t =>
          { t with reshape := { t.reshape with
              newBands := t.reshape.newBands.modify k fun y => { y with lost := addOnce y.lost p },
              redo := t.reshape.redo.filter fun r => !(r.slotIx = k && r.slot = p) } }

/-- A new stripe could not be read back: the blocks that hold it are replaced. A band that was closed is written anew in whole, the band in
progress from that stripe on. -/
def State.reshapeMismatch (s : State) (k j : Nat) : State :=
  match s.str.reshape.newBands.find k with
  | none => s
  | some x =>
    let ps := (List.range (geomW x.geom)).filter fun p => !(p ∈ x.lost)
    if x.st = .opened then
      (ps.foldl (fun t p => t.reshapeFresh k p j) s).onStr fun t =>
        { t with reshape := { t.reshape with page := j * geomW x.geom, back := none,
                                             newBands := t.reshape.newBands.modify k fun y => { y with stripes := j } } }
    else
      (ps.foldl (fun t p => t.reshapeFresh k p x.stripes) s).onStr fun t =>
        { t with reshape := { t.reshape with back := some (k + 1, 0) } }

/-- A new stripe has been read back: one whose data can be read matches the old layout, which no write changes (R260). -/
def State.reshapeRead (s : State) (failed : Bool) : State :=
  match s.str.reshape.back with
  | none => s.reshapeProgram
  | some (k, j) =>
    if failed then (s.reshapeMismatch k j).reshapeCheck
    else (s.onStr fun t => { t with reshape := { t.reshape with back := some (k, j + 1) } }).reshapeCheck

/-- What a flush merges has been read: it is placed, or what does not decode is read once more as erasures (R345). -/
def State.mergeRead (s : State) (j : ReadJob) (k : Nat) : State :=
  let bad := badDecodes s (mediaUnder s s.ftl.slots.length ⟨.buffer, 0, k⟩ (BitVec.allOnes 32)).toList
  if j.again || j.failed.isSome || bad.isEmpty then s.placeSlot k
  else
    let (s1, n, st) := s.issueErased j.client bad
    if n ≠ 0 then s1.onFtl fun f => { f with reads := f.reads ++ [{ j with again := true, wait := n, failed := st }] } else s1.placeSlot k

/-- A job whose reads are all done: the host command completes, the copy or the slot is placed; the job of a Trail source
stays until its task completes. -/
def State.finishJob (s : State) (j : ReadJob) : State :=
  if j.wait ≠ 0 then s
  else match j.client with
    | .host w => ((s.onFtl fun f => { f with reads := f.reads.erase j }).finishHost w j).rekeyAdvance
    | .trail .. => s
    | .copy iu =>
      let s1 := s.onFtl fun f => { f with reads := f.reads.erase j }
      if j.failed.isSome then
        ((s1.ftl.copies.filter fun c => c.iu = iu && c.dst.isNone).foldl State.dropCopy s1).victimCheck
      else s1.placeCopy iu
    | .merge k => (s.onFtl fun f => { f with reads := f.reads.erase j }).mergeRead j k
    | .reshape => (s.onFtl fun f => { f with reads := f.reads.erase j }).reshapeRead j.failed.isSome
    | _ => s.onFtl fun f => { f with reads := f.reads.erase j }

/-- Codewords of a client's job have been delivered or lost. -/
def State.jobPart (s : State) (client : ReadClient) (n : Nat) (bad : Option Status) : State :=
  match s.ftl.reads.find? fun j => j.client = client with
  | none => s
  | some j =>
    let j1 := { j with wait := j.wait - n, failed := if j.failed.isSome then j.failed else bad }
    (s.onFtl fun f => { f with reads := f.reads.map fun x => if x = j then j1 else x }).finishJob j1

/-! ## What reconstructions and reads deliver (R168, R242, R243, R248) -/

/-- A column of the page that a rebuild is at has been reconstructed, or its data is lost: then the column is dead, zeros take its
place and the band becomes a refresh candidate. After the last column the page is programmed (R248). -/
def State.rebuildCol (s : State) (cw : Nat) (good : Bool) : State :=
  match s.str.rebuild with
  | none => s
  | some r =>
    let s1 := if good then s else s.onAnyBand r.band fun x =>
      { x with dead := addOnce x.dead (r.next, cw), zeroed := x.zeroed ++ [(r.next, cw, r.slot)], refresh := true }
    let s2 := s1.onStr fun t => { t with rebuild := some { r with cols := r.cols - 1 } }
    if r.cols ≤ 1 then
      s2.enqueue r.lun { op := .rebuild r.band r.next r.slot, cls := 4, block := r.block, page := r.next, aged := false }
    else s2

/-- A codeword that a client waits for is there, or cannot be recovered. -/
def State.deliver (s : State) (client : ReadClient) (cw : Nat) (bad : Option Status) : State :=
  match client with
  | .rebuild => s.rebuildCol cw bad.isNone
  | _ => s.jobPart client 1 bad

/-- The same, delivered to the client when it ends at once. -/
def State.reconFor (s : State) (client : ReadClient) (b j p cw : Nat) : State :=
  match s.reconStart client b j p cw with
  | (s1, .reading) => s1
  | (s1, .good) => s1.deliver client cw none
  | (s1, .lost) => s1.deliver client cw (some stStripeLost)

/-- A survivor that a reconstruction reads has been delivered, or is an erasure of its column itself. -/
def State.reconPart (s : State) (id slot : Nat) (good : Bool) : State :=
  match s.str.recons.find? fun r => r.id = id with
  | none => s
  | some r =>
    let r0 := { r with wait := r.wait.filter fun q => q ≠ slot }
    let r1 := if good then { r0 with got := addOnce r0.got slot } else { r0 with gone := addOnce r0.gone slot }
    let (s1, r2, e) := s.reconGo r1
    let rest := fun (t : State) (xs : List Recon) => t.onStr fun u => { u with recons := (u.recons.filter fun x => x.id ≠ id) ++ xs }
    match e with
    | .reading => rest s1 [r2]
    | .good => ((rest s1 []).reconCount r2 true).deliver r.client r.cw none
    | .lost => ((rest s1 []).reconCount r2 false).deliver r.client r.cw (some stStripeLost)

/-! ## System areas (R164, R170, R176) -/

/-- The LUN that holds a copy of a system area. -/
def copyLun (s : State) (area copy : Nat) : Option Nat :=
  match (s.media.areas.getD area [])[copy]? with
  | some c => s.media.systemLun.find c.home
  | none => none

/-- Read a copy of a system area, with the class of internal reads; the model names the area's first page by the area's number as
block (notes/assumptions/54.md). -/
def State.systemRead (s : State) (area copy : Nat) : State :=
  match copyLun s area copy with
  | some l => s.enqueue l { op := .read (.system area copy) [⟨0, 1, 0, 0, 0⟩], cls := 3, block := area, page := 0, aged := false }
  | none => s

/-- Begin a job and finish it at once when it needs nothing from media. -/
def State.runJob (s : State) (job : ReadJob) (es : List MapEntry) : State :=
  let s1 := s.startJob job es
  match s1.ftl.reads.find? fun j => j.client = job.client with
  | some j => s1.finishJob j
  | none => s1

/-- Host reads that waited for a map segment, or for the codec, begin once they wait for none (R221, R346). -/
def State.startHeldReads (s : State) : State :=
  let held := s.ftl.reads.filter fun j => j.wait = 0 && match j.client with | .host _ => true | _ => false
  held.foldl (fun t j =>
    let needs := jobNeeds t j
    if segBusy t (needs.map (·.1)) || (j.second && codecResets t) then t
    else (t.onFtl fun f => { f with reads := f.reads.erase j }).runJob j (mediaEntries t needs)) s

/-! ## Codewords that a read is given, or loses (R168, R170, R242, R243) -/

/-- A codeword of a read has decoded. -/
def State.cwDelivered (s : State) (client : ReadClient) (lun block cw : Nat) : State :=
  match client with
  | .recon _ id => match bandOfBlock s lun block with
    | some (_, p) => s.reconPart id p true
    | none => s
  | .system _ _ => s
  | _ => s.deliver client cw none

/-- Codewords of a read become erasures of their columns: each is reconstructed for the client, one that a reconstruction reads is
one more erasure of its column, one of a system area is read from the next copy, and of a new stripe that is read back none is
reconstructed. -/
def State.erase (s : State) (client : ReadClient) (lun block page : Nat) (cws : List Nat) : State :=
  match client, bandOfBlock s lun block with
  | .system area copy, _ => s.systemRead area (copy + 1)
  | .recon _ id, some (_, p) => s.reconPart id p false
  | .recon .., none => s
  | _, none => s.jobPart client cws.length (some stUnrecovered)
  | _, some (b, p) =>
    if firstNewBand ≤ b then s.jobPart client cws.length (some stUnrecovered)
    else cws.foldl (fun t cw => t.reconFor client b page p cw) s

/-! ## The flush (R190, R197) -/

/-- A slot's flush has begun and waits for a band (R197). -/
def Slot.waitsBand (x : Slot) : Bool := x.flushing && x.placed.isNone && !x.merging

/-- Begin the flush of a slot, or go on with one that waited: merge with what its previous entry holds on media, else place at once.
The mode at the start of the flush decides on compression, and the key of the IU's range is taken then (R190, R279). -/
def State.flushSlot (s : State) (k : Nat) : State :=
  match s.slot k with
  | none => s
  | some x =>
    let c := match s.ns.find x.nsid with | some n => compresses s n | none => false
    let s1 := s.onSlot k fun y => { y with flushing := true, compress := if y.flushing then y.compress else c,
                                           key := if y.key.isEmpty then iuKey s x.iu else y.key }
    match mediaUnder s s.ftl.slots.length ⟨.buffer, 0, k⟩ (BitVec.allOnes 32) with
    | some e => (s1.onSlot k fun y => { y with merging := true }).runJob
        { client := .merge k, kind := .verify, nsid := x.nsid, slba := 0, nlb := 0, wait := 0, failed := none, second := false, again := false } [e]
    | none => s1.placeSlot k

/-! ## Retirement and failed LUNs (R198, R203, R204, R238, R241) -/

/-- The grown bad-block table is written, at once or when writes resume (R166, R176). -/
def State.badTableWrite (s : State) : State :=
  if s.power.writesStopped then s.sysBegin .badBlocks else s.areaWrite areaBadBlocks

/-- Retire a block: marked in the grown bad-block table, journaled and counted. -/
def State.retireBlock (s : State) (lun block : Nat) : State :=
  let k := blockNo s lun block
  if (s.block k).retired then s
  else
    (((((s.onBlock k fun b => { b with retired := true }).badTableWrite).journal 2 k 0 MapEntry.unmapped).addLife (lifeDev 6) 1).onFtl fun f =>
      { f with retiredCount := f.retiredCount + 1 }).onLun lun fun x =>
        { x with retiredAt := (x.retiredAt.filter fun t => decide (s.now < t + 60 * tSec)) ++ [s.now] }

/-- A stored IU has a page on a member slot of a band, one that has not been programmed or, where that does not matter, any. -/
def onMember (s : State) (a units b p : Nat) (any : Bool) : Bool :=
  (pageParts s ⟨.media, units, a⟩).any fun q =>
    q.band = b && pageSlot (geomOf s b) q.page = p && (any || !partProgrammed s q)

/-- A stored IU has a page in a stripe. -/
def inStripe (s : State) (a units b j : Nat) : Bool :=
  (pageParts s ⟨.media, units, a⟩).any fun q => q.band = b && pageStripe (geomOf s b) q.page = j

/-- The units of the stored IU at an address. -/
def unitsAt (s : State) (a : Nat) : Nat := match s.ftl.stored.find a with | some d => d.units | none => 0

/-- The programs of a block that have not begun leave the queue: a retired block is never programmed again (R204). -/
def State.dropPrograms (s : State) (lun block : Nat) : State :=
  let x := s.lun lun
  let hit := fun (c : MediaCmd) => c.block = block && c.kind = 2
  let s1 := s.setLun lun { x with queue := x.queue.filter fun c => !hit c, backlog := x.backlog.filter fun c => !hit c }.refill
  ((x.queue ++ x.backlog).filter hit).foldl (fun t c => match c.op with
    | .program b j p => t.pageDone b j p
    | _ => t) s1

/-- Copies that have flipped and lie in some stripes of a relocation band, which P and Q do not yet protect, are copied once more (R203). -/
def State.copyAgain (s : State) (b : Nat) (stripes : List Nat) : State :=
  let reloc : Bool := match s.band b with | some x => x.kind = .reloc || x.kind = .relocLater | none => false
  let es := if reloc then (bandStored s b).filter fun e => decide (s.entryOf e.2.iu = ⟨.media, e.2.units, e.1⟩) &&
      (stripes.any fun j => inStripe s e.1 e.2.units b j) && !(s.ftl.copies.any fun c => c.iu = e.2.iu) else []
  es.foldl (fun t e => (t.onFtl fun f => { f with copies := f.copies ++
      [{ iu := e.2.iu, src := ⟨.media, e.2.units, e.1⟩, dst := none, victim := f.victim.getD b }] }).runJob
    { client := .copy e.2.iu, kind := .verify, nsid := 0, slba := 0, nlb := 0, wait := 0, failed := none, second := false, again := false }
    [⟨.media, e.2.units, e.1⟩]) s

/-- What a member slot of a band that has failed was to hold is placed again, from slots, sources and segments, and the band takes no
more data. Of the copies, those with any page on the member move, and those of the stripes whose program there did not succeed (R198,
R203). -/
def State.placeAgain (s : State) (b p : Nat) (stripes : List Nat) : State :=
  let hitSlots := (s.ftl.slots.filter fun e => match e.2.placed with
    | some a => !e.2.programmed && onMember s a (unitsAt s a) b p false
    | none => false).map (·.1)
  let hitCopies := s.ftl.copies.filter fun c => match c.dst with
    | some d => onMember s d.addr d.len b p true || stripes.any fun j => inStripe s d.addr d.len b j
    | none => false
  let hitPages := s.ftl.mapPages.filter fun x => !x.done && onMember s x.addr 16 b p false
  let s1 := s.onFtl fun f =>
    { f with slots := f.slots.mapVals fun k x => if k ∈ hitSlots then { x with placed := none } else x,
             copies := f.copies.map fun c => if c ∈ hitCopies then { c with dst := none } else c,
             mapPages := f.mapPages.filter fun x => !(x ∈ hitPages) }
  let s2 := (hitPages.foldl State.segmentAgain s1).shutBand b
  let s3 := match s2.band b with
    | some x => match x.members[p]? with | some m => s2.dropPrograms m.1 m.2 | none => s2
    | none => s2
  let s4 := stripes.foldl (fun t j => t.pageDone b j p) (s3.copyAgain b stripes)
  let s5 := hitSlots.foldl State.placeSlot s4
  let s6 := hitCopies.foldl (fun t c => t.placeCopy c.iu) s5
  hitPages.foldl (fun t x => t.writeSegment x.number) s6

/-- The stripes in flight of a band whose program on a member slot has been issued and has not succeeded. -/
def unprogrammedStripes (s : State) (b p : Nat) : List Nat :=
  (s.str.stripes.filter fun t => t.band = b && t.kind ≠ .reshape && p ∈ t.issued && !(p ∈ t.programmed)).map (·.stripe)

/-- A block of a relocation band failed while it was a copy target (R203, R227). -/
def State.copyTargetFails (s : State) (b : Nat) : State :=
  match s.band b with
  | some x =>
    if x.kind = .reloc ∨ x.kind = .relocLater then
      s.setReg rFtlBadger (w32 (satAdd 0xFFFF ((s.reg rFtlBadger).toNat % 65536) 1))
    else s
  | none => s

/-- The degraded bands, new bands of a reshape among them (R241, R262). -/
def degradedBands (s : State) : List (Nat × Band) := (allBands s).filter fun e => !e.2.lost.isEmpty

/-! ## Reshape (R258 to R262) -/

/-- A stored IU of a region lies in the addresses that a slot of a geometry covers. -/
def slotNeeded (s : State) (r g k : Nat) : Bool :=
  s.ftl.stored.any fun e =>
    decide (e.1 / 2 ^ 26 = r) && decide (k * bandUnits s g < e.1 % 2 ^ 26 + e.2.units) &&
    decide (e.1 % 2 ^ 26 < (k + 1) * bandUnits s g) && storedNamed s e.1 e.2

/-- The next slot from k that needs a band, within so many. -/
def nextNeeded (s : State) (r g : Nat) : Nat → Nat → Option Nat
  | 0, _ => none
  | n + 1, k => if slotNeeded s r g k then some k else nextNeeded s r g n (k + 1)

/-- The map bands of another geometry than the target's (R258). -/
def otherMapBands (s : State) : List (Nat × Band) :=
  s.ftl.bands.filter fun e => decide (firstMapBand ≤ e.1) && decide (e.2.geom ≠ s.str.reshape.target) && e.2.st ≠ .erasePending

/-- After the last region, every map segment whose page lies in a band of another geometry is written anew; with none left, the reshape
ends (R258). -/
def State.reshapeMaps (s : State) : State :=
  let s1 := (((otherMapBands s).filter fun e => e.2.st = .opened && !e.2.shut).map (·.1)).foldl State.shutBand s
  let ps := (otherMapBands s1).flatMap fun e => bandSegments s1 e.1
  if ps.isEmpty then s1.onStr fun t => { t with reshape := { t.reshape with active := false } }
  else (ps.filter fun p => p.done && !(s1.ftl.mapPages.any fun q => !q.done && q.number = p.number)).foldl
    (fun t p => t.writeSegment p.number) s1

/-- The switch of a region to its new geometry, once its descriptor is written (R259 step 5): the old bands become erase pending. -/
def State.reshapeSwitch (s : State) (r : Nat) : State :=
  if s.str.reshape.region ≠ some r ∨ !s.str.reshape.switching then s
  else
    let old := s.ftl.bands.filter fun e => e.1 / 4096 = r && decide (e.1 < firstMapBand)
    let x := s.region r
    let s1 := (s.setRegion r { x with st := .active, geom := x.newGeom, cursor := 0 }).onFtl fun f =>
      { f with bands := s.str.reshape.newBands.foldl (fun t e => t.set (4096 * r + e.1) e.2)
                 (f.bands.filter fun e => !(e.1 / 4096 = r && decide (e.1 < firstMapBand))),
               dying := f.dying ++ (old.map fun e =>
                 (e.1, { e.2 with st := .erasePending, erasing := goodMembers s e.2.members })).filter fun e => !e.2.erasing.isEmpty }
    let s2 := s1.onStr fun t =>
      { t with reshape := { t.reshape with region := none, newBands := [], cursor := 0, left := t.reshape.left.tail, switching := false } }
    let s3 := (s.str.reshape.newBands.map fun e => bandSegment s e.2).foldl State.blockSegDirty s2
    let s4 := (s3.eraseBlocks (old.flatMap fun e => e.2.members)).spareUpdate
    if s4.str.reshape.left.isEmpty then s4.reshapeMaps else s4

/-- The stored units that lie on a data page of a new band, as they are addressed: reshape does not move them (R259 step 3, R260). -/
def pageSources (s : State) (r g k q : Nat) : List MapEntry :=
  let lo := 2 ^ 26 * r + k * bandUnits s g + q * 16
  (s.ftl.stored.filter fun e => decide (e.1 < lo + 16) && decide (lo < e.1 + e.2.units) && storedNamed s e.1 e.2).map fun e =>
    ⟨.media, Nat.min (lo + 16) (e.1 + e.2.units) - Nat.max lo e.1, Nat.max lo e.1⟩

/-- The index in the write order of a stripe of the next member from one on that is on no lost slot, within so many. -/
def nextMember (x : Band) (j : Nat) : Nat → Nat → Nat
  | 0, i => i
  | n + 1, i => if i < geomW x.geom ∧ writeOrder x.geom j i ∈ x.lost then nextMember x j n (i + 1) else i

/-- Write the member page at which a reshape stands: a data page is read from the old layout first (R259); a stripe opens only while the
stripe-in-flight journal has room (R251). -/
def State.reshapeIssue (s : State) : State :=
  match reshapeAt s, s.str.reshape.region with
  | some (k, j, p), some r =>
    if s.str.reshape.redo.isEmpty ∧ !reshapeStripeOpen s ∧ 16384 ≤ s.str.stripes.length then s
    else match s.str.reshape.newBands.find k with
      | some x => match memberOf x.geom j p with
        | some m => match pageSources s r x.geom k (j * geomD x.geom + m) with
          | [] => s.reshapeProgram
          | es => s.runJob
              { client := .reshape, kind := .verify, nsid := 0, slba := 0, nlb := 0, wait := 0, failed := none, second := false, again := false } es
        | none => s.reshapeProgram
      | none => s
  | _, _ => s

/-- CURSOR is written at each offset of the region that is a multiple of 2^20 units (R259 step 4). -/
def State.reshapeMark (s : State) (r from_ upto : Nat) : State :=
  if from_ / 2 ^ 20 < upto / 2 ^ 20 then s.cfgWrite (.cursor r (upto / 2 ^ 20 * 2 ^ 20)) else s

/-- Open the next new band of the region from slot k, or, when none is left, write the descriptor that switches the region (R259). -/
def State.reshapeOpen (s : State) (r k : Nat) : State :=
  let g := s.str.reshape.target
  match nextNeeded s r g (regionSlots s g - k) k with
  | none => (s.onStr fun t => { t with reshape := { t.reshape with switching := true } }).cfgWrite (.reshapeSwitch r)
  | some k1 =>
    let p := pool s
    if p.length < geomW g + 2 then s
    else match findMembers s p g (64 * (p.length / geomW g)) s.str.opened with
      | none => s.noBand
      | some (c, ms) =>
        (((s.reshapeMark r (k * bandUnits s g) (k1 * bandUnits s g)).holdBlocks ms).onStr fun t =>
          { t with opened := c,
                   reshape := { t.reshape with newBands := t.reshape.newBands.set k1 (newBand g .reshape ms), slotIx := k1, page := 0 } }).reshapeIssue

/-- Reshape pauses at its next checkpoint: a band is degraded, or the mode pauses it (R249, R262). -/
def reshapePaused (s : State) : Bool :=
  !(degradedBands s).isEmpty || s.power.effective = .ember || s.power.effective = .hibernate || s.power.hibEntry.isSome

/-- A stripe of the new band is written: its record leaves, and the next stripe or the next band follows, unless a pause begins at a
checkpoint. -/
def State.reshapeStripe (s : State) (r j : Nat) (x : Band) : State :=
  let h := s.str.reshape
  let per := 16 * geomD x.geom
  let lo := h.slotIx * bandUnits s x.geom + j * per
  let last := decide (s.board.pagesPerBlock ≤ j + 1)
  let s1 := s.onStr fun t =>
    { t with stripes := t.stripes.filter fun y => y.kind ≠ .reshape,
             reshape := { t.reshape with
               page := (j + 1) * geomW x.geom + nextMember x (j + 1) (geomW x.geom) 0,
               newBands := t.reshape.newBands.modify h.slotIx fun y =>
                 { y with stripes := j + 1, fill := (j + 1) * per, st := if last then .closed else y.st,
                          closedAt := if last then s.now else y.closedAt } } }
  let s2 := s1.reshapeMark r lo (lo + per)
  if lo / 2 ^ 20 < (lo + per) / 2 ^ 20 ∧ reshapePaused s then s2
  else if last then s2.reshapeOpen r (h.slotIx + 1)
  else s2.reshapeIssue

/-- The member page at which a reshape stands is programmed, or is left out with its lost slot: the next one follows. -/
def State.reshapePage (s : State) : State :=
  let h := s.str.reshape
  match h.redo, h.newBands.find h.slotIx, h.region with
  | r :: rest, _, _ =>
    let s1 := s.onStr fun t =>
      { t with reshape := { t.reshape with redo := if r.next + 1 < r.pages then { r with next := r.next + 1 } :: rest else rest } }
    let open_ := match h.newBands.find h.slotIx with | some x => decide (x.st = .opened) | none => false
    if s1.str.reshape.redo.isEmpty && !open_ then s1 else s1.reshapeIssue
  | [], some x, some r =>
    let g := geomW x.geom
    let j := h.page / g
    let i := nextMember x j g (h.page % g + 1)
    let s1 := s.onStr fun t =>
      { t with stripes := t.stripes.map fun y =>
          if y.kind = .reshape then { y with programmed := addOnce y.programmed (writeOrder x.geom j (h.page % g)) } else y }
    if i < g then (s1.onStr fun t => { t with reshape := { t.reshape with page := j * g + i } }).reshapeIssue
    else s1.reshapeStripe r j x
  | _, _, _ => s

/-- A page of a new band failed: the block is replaced (R261, R262). -/
def State.reshapeReplace (s : State) (k j p : Nat) : State :=
  match s.str.reshape.redo with
  | r :: _ => (s.reshapeFresh k p (if r.slotIx = k ∧ r.slot = p then r.pages else j)).reshapeIssue
  | [] => (s.reshapeFresh k p j).reshapeIssue

/-- A command writes a page of a reshape. -/
def isReshapeOp (c : MediaCmd) : Bool := match c.op with | .reshape .. => true | _ => false

/-- The page that a command has written is the one at which the reshape stands: not one of a block that a reset has replaced. -/
def reshapeCurrent (s : State) (lun : Nat) (c : MediaCmd) : Bool :=
  match c.op, reshapeAt s with
  | .reshape k j p, some (k1, j1, p1) => decide (k = k1 ∧ j = j1 ∧ p = p1) && s.str.reshape.back.isNone &&
    (match s.str.reshape.newBands.find k with | some x => decide (x.members[p]? = some (lun, c.block)) | none => false)
  | _, _ => false

/-! ## LUNs that fail (R176, R241) -/

/-- The system copies that a LUN holds start to move: their areas are read from copies elsewhere (R176). -/
def State.moveSystem (s : State) (l : Nat) : State :=
  let homes := (s.media.systemLun.filter fun e => e.2 = l).map (·.1)
  let s1 := homes.foldl (fun t k => t.sysBegin (.move k)) (s.onMedia fun m =>
    { m with moving := m.moving ++ homes.filter fun c => !(c ∈ m.moving) })
  (s1.media.areas.filter fun e => e.2.any fun c => c.home ∈ homes).foldl (fun t e =>
    match areaNewest (e.2.map fun c => { c with valid := c.valid && !(c.home ∈ homes) }) with
    | some i => t.systemRead e.1 i
    | none => t) s1

/-- A band whose blocks are all erased is gone; its member leaves the list of erases. What relocation frees with a victim is its units
less those that it copied (R200); a reshaped region's old bands leave as their blocks are erased (R259). -/
def State.eraseOfBand (s : State) (band : Option Nat) (lun block : Nat) : State :=
  let left := fun (x : Band) => x.erasing.filter fun m => m ≠ (lun, block)
  match band with
  | none => s.onFtl fun f =>
    { f with dying := (f.dying.map fun e => (e.1, { e.2 with erasing := left e.2 })).filter fun e => !e.2.erasing.isEmpty }
  | some b => match s.band b with
    | none => s
    | some x =>
      (s.blockSegDirty (bandSegment s x)).onFtl fun f =>
        if (left x).isEmpty then { f with bands := f.bands.erase b, freedEpoch := f.freedEpoch + (bandUnits s x.geom - x.copied) }
        else { f with bands := f.bands.set b { x with erasing := left x } }

/-- The member page at which a reshape stands lies on a slot that has failed: it is left out (R262). -/
def State.reshapeSkip (s : State) : State :=
  let kept := s.str.reshape.redo.filter fun r =>
    match s.str.reshape.newBands.find r.slotIx with
    | some x => !(r.slot ∈ x.lost)
    | none => false
  let s1 := s.onStr fun t => { t with reshape := { t.reshape with redo := kept } }
  match reshapeAt s1 with
  | some (k, _, p) => match s1.str.reshape.newBands.find k with
    | some x => if p ∈ x.lost ∧ x.st = .opened then s1.reshapePage else s1.reshapeIssue
    | none => s1
  | none => s1

/-- Pages of a dump whose program failed go to other LUNs of the set (R253, R263). -/
def State.dumpBack (s : State) (copy : Nat) (pages : List Nat) : State :=
  let s1 := s.onRun copy fun r => { r with back := r.back ++ pages }
  ((pool s1).filter fun l => setOf l = copy).foldl State.lunNext s1

/-- What a reshape has asked of the LUNs and has not begun leaves, and so do the record of its stripe and its configuration writes. -/
def State.reshapeStop (s : State) : State :=
  let s1 := (s.onMedia fun m =>
    { m with luns := Tbl.mapVals m.luns fun _ x =>
        { x with queue := x.queue.filter fun c => !isReshapeOp c, backlog := x.backlog.filter fun c => !isReshapeOp c }.refill }).withdraw
      fun c => c = .reshape
  (s1.onStr fun t => { t with stripes := t.stripes.filter fun y => y.kind ≠ .reshape }).onHealth fun h =>
    { h with cfg := h.cfg.map fun c => match c with | .cursor .. => .note | .reshapeSwitch _ => .note | _ => c }

/-- A rebuild stops: what it was reconstructing is dropped. -/
def State.rebuildStop (s : State) : State :=
  s.onStr fun t => { t with rebuild := none, recons := t.recons.filter fun r => r.client ≠ .rebuild }

/-- Boot ends (R500 step 12): the dump areas are erased, and CSTS.RDY becomes 1 where CC.EN is 1. A trial of the PENDING image begins
(R512). -/
def State.bootReady (s : State) : State :=
  let s1 := s.onStr fun t => { t with dump := none, cleanShutdown := false }
  let s2 := (s1.onSys fun y => { y with phase := .running, bootStep := 12 }).onBoot fun b =>
    { b with trial := decide (b.running = b.selector.pending) }
  (s2.host.ctrls.foldl (fun t e => t.onCtrl e.1 fun c => { c with rdy := c.cc.getLsbD 0 && !c.cfs }) s2).spareUpdate

/-- Boot goes on once every stripe that the dump recorded in flight has been closed (R256 steps 3 and 4). -/
def State.recoverDone (s : State) : State := if recoveringStripes s && s.str.stripes.isEmpty then s.bootReady else s

/-- A LUN fails (R241): its bands are degraded and closed, the permutation table is rebuilt, its reads go to redundancy,
what it was to hold is placed again. -/
def State.failLun (s : State) (l cause : Nat) : State :=
  let x := s.lun l
  if x.failed ∨ !(l ∈ boardLuns s) then s
  else
    let none_ := (degradedBands s).isEmpty
    let held := x.queue ++ x.backlog ++ x.active ++ x.suspended ++ x.decoding
    let hit := (allBands s).filterMap fun e => (e.2.members.findIdx? fun m => m.1 = l).map fun p => (e.1, p)
    let s1 := (s.setLun l { Lun.reset with failed := true, cause := cause }).onStr fun t =>
      { t with failedLuns := t.failedLuns + 1, opened := 0,
               degradedAtStart := if none_ then hit.length else t.degradedAtStart, rebuilt := if none_ then 0 else t.rebuilt,
               reshape := { t.reshape with newBands := t.reshape.newBands.mapVals fun _ y =>
                 match (y.members.findIdx? fun m => m.1 = l) with
                 | some p => { y with lost := addOnce y.lost p }
                 | none => y } }
    let s2 := (if s1.str.rebuild.any fun r => r.lun = l then s1.rebuildStop else s1).logEvent 5 cause 0xFFFF (w32 l) 0 |>.addLife (lifeDev 7) 1
    let old := hit.filter fun e => decide (e.1 < firstNewBand)
    let s3 := old.foldl (fun t e => t.onBand e.1 fun y => { y with lost := addOnce y.lost e.2 }) s2
    let s5 := old.foldl (fun t e => t.placeAgain e.1 e.2 (unprogrammedStripes t e.1 e.2)) s3
    let s6 := held.foldl (fun t c => match c.op with
      | .program b j p => t.pageDone b j p
      | .read cl cws => t.erase cl l c.block c.page (cws.map (·.cw))
      | .erase band => t.eraseOfBand band l c.block
      | .reshape .. => if reshapeCurrent s l c then t.reshapeSkip else t
      | .dump copy ps => t.dumpBack copy ps
      | _ => t) s5
    (((s6.moveSystem l).raiseSmart evReliability [2]).spareUpdate).recoverDone

/-- A block fails: it is retired, and more than 8 in 60 s fail the LUN (R204, R241). -/
def State.blockFails (s : State) (lun block : Nat) : State :=
  let s1 := s.retireBlock lun block
  if 8 < (s1.lun lun).retiredAt.length then s1.failLun lun 4 else s1.spareUpdate

/-- A channel goes offline: every LUN on it fails (R162). -/
def State.channelOffline (s : State) (c : Nat) : State :=
  let s1 := s.onChannel c fun x => { x with online := false, trained := true, rate := 0, trying := none, retraining := false }
  ((boardLuns s).filter fun l => l / 64 = c).foldl (fun t l => t.failLun l 1) s1

/-! ## Relocation (R201, R202) -/

/-- Begin to copy the valid IUs of a victim; the segments that a map band holds are written anew. -/
def State.beginVictim (s : State) (v : Nat) : State :=
  let live := (bandStored s v).filter fun e => (s.entryOf e.2.iu).st = .media && (s.entryOf e.2.iu).addr = e.1
  let s1 := s.onFtl fun f =>
    { f with victim := some v,
             copies := f.copies ++ live.map fun e => { iu := e.2.iu, src := ⟨.media, e.2.units, e.1⟩, dst := none, victim := v } }
  let s2 := live.foldl (fun t e => t.runJob
    { client := .copy e.2.iu, kind := .verify, nsid := 0, slba := 0, nlb := 0, wait := 0, failed := none, second := false, again := false }
    [⟨.media, e.2.units, e.1⟩]) s1
  ((bandSegments s v).foldl (fun t p => t.writeSegment (if p.block then firstBlockSegment + p.segment else p.segment)) s2).victimCheck

/-! ## Rebuild (R247, R248) -/

/-- A LUN holds a page of a reshape, or its data is being read. -/
def reshapeBusy (s : State) : Bool :=
  (s.media.luns.any fun e => (e.2.queue ++ e.2.backlog ++ e.2.active ++ e.2.suspended).any isReshapeOp) ||
  s.ftl.reads.any fun j => j.client = .reshape

/-- The number that a band has in the order of R247: a new band has that of its slot. -/
def bandRank (s : State) (b : Nat) : Nat :=
  if firstNewBand ≤ b then 4096 * s.str.reshape.region.getD 0 + (b - firstNewBand) else b

/-- The bands whose rebuild is due, in the order of R247; the new bands of a reshape that has paused are among them (R262). -/
def rebuildOrder (s : State) : List (Nat × Band) :=
  let ok := (degradedBands s).filter fun e =>
    if firstNewBand ≤ e.1 then !reshapeBusy s && !reshapeStripeOpen s && s.str.reshape.redo.isEmpty && s.str.reshape.back.isNone
    else e.2.st = .closed && s.ftl.victim ≠ some e.1 && (s.region (e.1 / 4096)).st ≠ .reshaping
  let new := ok.filter fun e => decide (firstNewBand ≤ e.1)
  let old := ok.filter fun e => decide (e.1 < firstNewBand)
  let all := new.foldl (fun l e =>
    (l.filter fun x => decide (bandRank s x.1 < bandRank s e.1)) ++ [e] ++ l.filter fun x => decide (bandRank s e.1 ≤ bandRank s x.1)) old
  (all.filter fun e => 2 ≤ e.2.lost.length) ++ all.filter fun e => e.2.lost.length < 2

/-- The replacement LUN: a pool LUN that is no member, with the most free blocks, else the lowest. -/
def replacementLun (s : State) (x : Band) : Option Nat :=
  (((pool s).filter fun l => !(x.members.any fun m => m.1 = l)).foldl (fun (a : Option (Nat × Nat)) l =>
    let n := lunFree s l
    match a with
    | none => if n = 0 then none else some (l, n)
    | some y => if y.2 < n then some (l, n) else some y) none).map (·.1)

/-- The last rebuilt page has succeeded: MEMBERS and LOST change in one step. -/
def State.rebuildEnd (s : State) (r : Rebuild) : State :=
  let s1 := (s.onAnyBand r.band fun x =>
    { x with members := x.members.set r.slot (r.lun, r.block), lost := x.lost.filter fun p => p ≠ r.slot }).onStr fun t =>
      { t with rebuild := none }
  let done := match s1.anyBand r.band with | some x => x.lost.isEmpty | none => true
  let s2 := if done then (s1.addCnt (rStrCount 3) 1).onStr fun t => { t with rebuilt := t.rebuilt + 1 } else s1
  if (degradedBands s2).isEmpty then s2.raiseSmart evReliability [2] else s2

/-- Reconstruct the columns of the next page of a rebuild, or end it. -/
def State.rebuildNext (s : State) (r : Rebuild) : State :=
  match s.anyBand r.band with
  | none => s.rebuildStop
  | some x =>
    if x.stripes ≤ r.next then s.rebuildEnd r
    else
      (List.range 4).foldl (fun t cw => t.reconFor .rebuild r.band r.next r.slot cw) (s.onStr fun t =>
        { t with rebuild := some { r with cols := 4 } })

/-- A rebuilt page succeeded. -/
def State.rebuildPage (s : State) (r : Rebuild) : State := s.rebuildNext { r with next := r.next + 1 }

/-! ## Programs and erases that end (R204, R206, R208, R248, R262) -/

/-- An erase succeeded: the erase count rises and is journaled, the read counter and the hint restart, the block is free. -/
def State.eraseOk (s : State) (lun block : Nat) (band : Option Nat) : State :=
  let k := blockNo s lun block
  let e := satAdd 0xFFFFFFFF (s.block k).erases 1
  let s1 := s.onBlock k fun b => { b with erases := e, reads := 0, hint := 0, inBand := false }
  ((s1.journal 1 k e MapEntry.unmapped).eraseOfBand band lun block).spareUpdate

/-- An erase failed: the block is retired. -/
def State.eraseFailed (s : State) (lun block : Nat) (band : Option Nat) : State :=
  (s.blockFails lun block).eraseOfBand band lun block

/-- A program or an erase of a LUN failed, or is treated as failed (R177, R198, R203, R204, R248, R262). -/
def State.writeFailed (s : State) (lun : Nat) (c : MediaCmd) : State :=
  match c.op with
  | .program b j p =>
    let s1 := (s.copyTargetFails b).blockFails lun c.block
    if (s1.lun lun).failed then s1.pageDone b j p else s1.placeAgain b p [j]
  | .rebuild .. => (s.blockFails lun c.block).rebuildStop
  | .reshape k j p =>
    let s1 := s.blockFails lun c.block
    if !reshapeCurrent s lun c then s1 else if (s1.lun lun).failed then s1.reshapeSkip else s1.reshapeReplace k j p
  | .erase band => s.eraseFailed lun c.block band
  | .dump copy ps => s.dumpBack copy ps
  | .read .. | .resense .. => s

/-! ## The dump's slots (R255) -/

/-- The online channels of a dump set. -/
def setChannels (s : State) (k : Nat) : List Nat := (List.range 32).filter fun c => c % 2 = k && (s.channel c).online
/-- The MT/s of a rate code (R181). -/
def rateMts : Nat → Nat
  | 1 => 800 | 2 => 1600 | 3 => 2400 | 4 => 3600 | _ => 0

/-- E × 18 ms of a dump set, in bytes: a channel carries 1 byte per transfer, and a program holds a LUN for tPROG_SLC. -/
def setBytes (s : State) (k : Nat) : Nat :=
  let ch := ((setChannels s k).map fun c => rateMts (s.channel c).rate * 18000).sum
  let n := setLuns s k
  Nat.min ch ((n - n / 8) * 65536 * 18000 / (if s.board.tProgSlcUs = 0 then 1 else s.board.tProgSlcUs))

/-- DUMP_SLOTS. -/
def dumpSlots (s : State) : Nat := Nat.min 32768 ((Nat.min (setBytes s 0) (setBytes s 1) - 6 * 2 ^ 20) / 16384)

end Sys2Proof.Machine
end

