-- ==== Sys2Proof/Machine/HostOps.lean ====
section
/-! DEFINITION. Operations at the host ports: when a command can be served, commands and Trails that end without a
completion, controller resets, function-level resets and port resets (R76, R199, R444, R448, R486 to R488). -/

namespace Sys2Proof.Machine

/-! ## When a command can be served (R448, R449) -/

/-- The command of a queue can be served: the G9 runs, HOST and CTRL answer, its controller is ready and in no reset, and
it is outstanding. -/
def State.ready (s : State) (w : Who) : Bool :=
  s.running && s.up .host && s.up .ctrl && s.fnExists w.fn && (s.ctrl w.fn).rdy && !(s.ctrl w.fn).cfs &&
  (s.ctrl w.fn).flr.isNone && s.outstanding w
/-- An admin command can be served: the admin queue is queue 0. -/
def State.adminReady (s : State) (w : Who) : Bool := s.ready w && decide (w.sq = 0)
/-- An I/O command can be served. -/
def State.ioReady (s : State) (w : Who) : Bool := s.ready w && decide (w.sq ≠ 0)

/-! ## Doorbells -/

/-- Take a doorbell value: a submission queue's tail, or a completion queue's head. -/
def State.ringDoorbell (s : State) (f : Fn) (qid : Nat) (isCq : Bool) (value : Nat) : State :=
  s.onCtrl f fun c =>
    if qid = 0 then (if isCq then { c with adminCq := { c.adminCq with head := value } } else { c with adminSq := { c.adminSq with tail := value } })
    else
      { c with queues := c.queues.map fun q =>
          if q.qid = qid ∧ q.isCq = isCq then (if isCq then { q with head := value } else { q with tail := value }) else q }

/-- The doorbells that were kept are served (R40, R369). -/
def State.ringKept (s : State) : State :=
  s.power.keptDoorbells.foldl (fun t d => t.ringDoorbell d.1 d.2.1 d.2.2.1 d.2.2.2) (s.onPower fun p => { p with keptDoorbells := [] })

/-! ## Work that leaves without a completion -/

/-- The slot that an admitted write took for an IU and that holds nothing yet. -/
def emptySlot (s : State) (iu : Nat) : Option (Nat × Slot) :=
  s.ftl.slots.find? fun e => e.2.iu = iu && !e.2.flushing && e.2.mask = 0

/-- Another admitted write still waits for data of an IU. -/
def iuAwaited (s : State) (iu : Nat) : Bool :=
  s.ftl.admitted.any fun a => match s.ns.find a.nsid with | some n => iu ∈ a.ius n | none => false

/-- Give a slot back that holds nothing: the entry of its IU is as before (R199). -/
def State.undoSlot (s : State) (iu : Nat) : State :=
  match emptySlot s iu with
  | some (k, x) =>
    if iuAwaited s iu then s
    else
      let s1 := s.onFtl fun f => { f with slots := f.slots.erase k }
      if s1.entryOf iu = ⟨.buffer, 0, k⟩ then
        if x.prev.st = .bad then s1.setBad iu x.prev.addr else s1.setMap iu x.prev
      else s1
  | none => s

/-- An admitted write whose data has not all arrived is discarded (R199). -/
def State.discardWrite (s : State) (a : AdmittedWrite) : State :=
  let s1 := s.onFtl fun f => { f with admitted := f.admitted.erase a }
  match s.ns.find a.nsid with
  | some n => (a.ius n).foldl State.undoSlot s1
  | none => s1

def WriteKind.isSink : WriteKind → Bool
  | .sink .. => true
  | _ => false
/-- The write of a chunk's sink task. -/
def WriteKind.isOf (flow cslot : Nat) : WriteKind → Bool
  | .sink f c _ => f = flow && c = cslot
  | _ => false
def WriteKind.isSinkOf (flow : Nat) : WriteKind → Bool
  | .sink f _ _ => f = flow
  | _ => false

/-- An NVM command is taken back from the media and from the write path. -/
def State.dropNvm (s : State) (w : Who) : State :=
  let s1 := s.withdraw fun c => c = .host w
  let s2 := (s1.ftl.admitted.filter fun a => a.who = w && !a.kind.isSink).foldl State.discardWrite s1
  s2.onFtl fun x => { x with waiting := x.waiting.filter fun y => !(y.who = w && !y.kind.isSink) }

/-- The outstanding commands of a function end without completions. -/
def State.dropCommands (s : State) (f : Fn) : State :=
  let s1 := s.withdraw fun c => match c with | .host w => w.fn = f | _ => false
  let s2 := (s1.ftl.admitted.filter fun a => a.who.fn = f && !a.kind.isSink).foldl State.discardWrite s1
  let s3 := s2.onFtl fun x => { x with waiting := x.waiting.filter fun w => !(w.who.fn = f && !w.kind.isSink) }
  let s4 := s3.onDisp fun d =>
    { d with
      waiting := d.waiting.filter fun w => w.who.fn ≠ f
      flows := Tbl.mapVals d.flows fun _ x =>
        { x with queries := x.queries.filter fun w => w.fn ≠ f, cancelers := x.cancelers.filter fun w => w.fn ≠ f } }
  let s5 := ((s4.dropLoads f).onHrt fun h =>
    { h with modules := Tbl.mapVals h.modules fun _ m => { m with forced := m.forced.filter fun w => w.fn ≠ f } }).onPower fun p =>
    { p with waiting := p.waiting.filter fun r => r.who.fn ≠ f }
  s5.onCtrl f fun c => { c with fetched := [], aers := [], events := [], reported := [] }

/-- Stop the kernels of a flow, with no fault recorded (R136); their lines are invalidated (R137). -/
def State.stopKernels (s : State) (flow : Nat) : State :=
  s.hrt.harts.foldl (fun t h => match h.2.kernel with
    | some k => if k.task.flow = flow then (freeTask t k.task).endKernel h.1 else t
    | none => t) s

/-- Zero what a flow context holds and unbind it without a status record (R76, R487). -/
def State.releaseFlow (s : State) (i : Nat) : State :=
  let s1 := ((s.stopKernels i).purgeFlow i).withdraw fun c => match c with | .trail f _ => f = i | _ => false
  let s2 := (s1.ftl.admitted.filter fun a => a.kind.isSinkOf i).foldl State.discardWrite s1
  let s3 := (s2.onFtl fun x => { x with waiting := x.waiting.filter fun w => !w.kind.isSinkOf i }).onDgs fun d =>
    { d with ctxs := d.ctxs.filter fun e => e.1 / 4 ≠ i }
  let n := s3.disp.endCount
  (s3.onFlow i fun f =>
    { f with bound := false, gone := true, ended := some n, gcmKey := none, keyReady := [], unretired := [], parked := [],
             queries := [], cancelers := [], slotNonces := [], expected := [] }).onDisp fun d => { d with endCount := n + 1 }

/-! ## Controllers (R448, R524) -/

/-- A controller is reset: nothing of it is outstanding, its queues are deleted, its Trails end without a record. -/
def State.resetController (s : State) (f : Fn) : State :=
  let s1 := (flowsOf s f).foldl State.releaseFlow (s.dropCommands f)
  s1.onCtrl f fun c =>
    { c with rdy := false, cfs := false, shst := 0, queues := [], adminSq := Queue.admin, adminCq := Queue.admin, features := [], hostId := [],
             keepAlive := false, arbSq := 0, arbRun := 0, arbUsed := [0, 0, 0] }

/-- What an L3 reset does to one controller (R496, R524): CSTS.CFS rises, nothing of it is outstanding, its mailbox and
migration state are cleared; links and MSI-X tables are kept. -/
def State.failController (s : State) (f : Fn) : State :=
  (s.dropCommands f).onCtrl f fun c =>
    { c with cfs := true, queues := [], adminSq := Queue.admin, adminCq := Queue.admin, mbxIn := [], mbxOut := [], freeze := .none, restored := false,
             held := [], migKey := none, migTarget := none }

/-! ## Function-level reset (R486 to R488) -/

/-- The function on whose behalf a posted write leaves. -/
def outFn : Out → Option Fn
  | .completion f .. => some f
  | .readData f .. => some f
  | .hostWrite f .. => some f
  | .msix f _ => some f
  | _ => none

/-- Discard the posted writes of a function that have not been issued. -/
def State.dropPosted (s : State) (f : Fn) : State :=
  s.onPort (portOfFn f) fun p => { p with stalled := p.stalled.filter fun o => outFn o ≠ some f }

/-- Steps 2 to 4 for one Trail of the function: its source stops, what has not started is discarded, its kernels stop and
its media reads are withdrawn. -/
def State.haltFlow (s : State) (i : Nat) : State :=
  let s1 := (((s.onFlow i fun f => { f with stopped := true }).stopKernels i).discardFlow i).withdraw fun c => match c with
    | .trail f _ => f = i
    | _ => false
  s1.onFtl fun x => { x with waiting := x.waiting.filter fun w => !w.kind.isSinkOf i }

/-- A MIGRATE_FREEZE of the function that is still under way ends without completion (R496). -/
def State.dropFreeze (s : State) (f : Fn) : State :=
  match (s.ctrl f).freeze with
  | .freezing w => (s.onCtrl f fun c => { c with freeze := .none, held := [] }).retireCmd w
  | _ => s

/-- An FLR begins. -/
def State.flrBegin (s : State) (f : Fn) : State :=
  if (s.ctrl f).flr.isSome then s
  else
    let s1 := (((s.dropFreeze f).onCtrl f fun c => { c with flr := some 1 }).dropPosted f).dropCommands f
    (flowsOf s1 f).foldl State.haltFlow s1

/-- The engine operations of the function that still run are aborted, and their outputs are freed (step 5). -/
def State.flrAbort (s : State) (f : Fn) : State :=
  let mine := fun (t : Task) => decide (t.flow ∈ flowsOf s f)
  let hit := (s.disp.running.filter fun r => mine r.task).map (·.task)
  let s1 := (freeTasks s hit).onDisp fun d =>
    { d with running := d.running.filter fun r => !mine r.task, entries := d.entries.filter fun e => !mine e,
             flows := Tbl.mapVals d.flows fun _ x => if x.bound && decide (x.owner = f) then { x with reserveUsed := false } else x }
  (s1.poolUpdate).onCtrl f fun c => { c with flr := some 2 }

/-- The FLR is complete: the controller is in its reset state (steps 7 and 8). -/
def State.flrEnd (s : State) (f : Fn) : State :=
  let s1 := (s.flrAbort f).resetController f
  s1.onCtrl f fun c =>
    { c with cc := 0, mbxIn := [], mbxOut := [], mbxInst := MbxSide.reset, freeze := .none, restored := false, held := [],
             migTarget := none, flr := none, flrCount := c.flrCount + 1, unmasked := [], msixTable := [], msixHeld := [] }

/-! ## Port resets (R444) -/

/-- A hot reset, a link-down event or a Secondary Bus Reset of a port: every virtual function begins an FLR, the manager's
controller is reset, and the port retrains. -/
def State.portReset (s : State) (p : Port) : State :=
  let m := managerFn p
  let s1 := (fnsOf p).foldl (fun t f => if f = m then t else t.flrBegin f) s
  let s2 := ((s1.dropPosted m).resetController m).onCtrl m fun c =>
    { c with cc := 0, unmasked := [], msixTable := [], msixHeld := [], freeze := .none, restored := false, held := [], migTarget := none }
  s2.onPort p fun q => { q with linkUp := false, l12 := false, training := q.present && q.perstN, rate := 0, width := 0, credits := 0, stalled := [] }

/-- Both links go down with HOST: no controller is enabled and nothing of a controller is outstanding. -/
def State.hostDown (s : State) : State :=
  let s1 := s.host.ctrls.foldl (fun t e => (t.dropCommands e.1).onCtrl e.1 fun c =>
    { c with cc := 0, rdy := false, cfs := false, shst := 0, queues := [], adminSq := Queue.admin, adminCq := Queue.admin, features := [], hostId := [],
             keepAlive := false, flr := none, unmasked := [], msixTable := [], msixHeld := [] }) s
  let down := fun (q : PortState) => { q with linkUp := false, l12 := false, training := false, rate := 0, width := 0, credits := 0, stalled := [] }
  (s1.onPort .a down).onPort .b down

end Sys2Proof.Machine
end

