-- ==== Sys2Proof/Machine/Ledger.lean ====
section
/-! DEFINITION. The records of the boot ledger: their bytes, their chain and their signatures (R517, R519). -/

namespace Sys2Proof.Machine

/-- Bytes 0x00 to 0x0F of a component entry. -/
def componentHead (c : Component) : List Byte :=
  leBytes 1 c.type ++ leBytes 1 c.sub ++ leBytes 2 c.fn ++ leBytes 4 c.index ++ leBytes 8 c.version

/-- The measurement of a component: of types 7 to 9 the digest of its first bytes. -/
def Component.measured (c : Component) : Component :=
  if 7 ≤ c.type ∧ c.type ≤ 9 then { c with measurement := sha384 (componentHead c) } else c

/-- A component entry, 64 bytes. -/
def componentBytes (c : Component) : List Byte := componentHead c ++ padTo 48 c.measurement

/-- S of a record. -/
def LedgerRec.signedLen (r : LedgerRec) : Nat := 0x88 + 64 * r.comps.length

/-- The signed bytes of a record. -/
def LedgerRec.signed (r : LedgerRec) : List Byte :=
  leBytes 4 0x4C444752 ++ leBytes 2 1 ++ leBytes 1 r.kind ++ leBytes 1 r.cause ++ leBytes 8 r.seq ++ leBytes 8 r.rtc ++
  leBytes 8 r.time ++ leBytes 4 r.boots ++ leBytes 2 r.comps.length ++ leBytes 2 (r.signedLen + 3408) ++
  padTo 48 r.chain ++ padTo 48 r.prev ++ r.comps.flatMap componentBytes

/-- A whole record, with its two signatures by the DeviceID keys. -/
def LedgerRec.bytes (r : LedgerRec) : List Byte :=
  let m := r.signed
  m ++ bytesOf 3309 (Config.mldsaSign deviceIdSecret m) ++ zeros 3 ++ bytesOf 96 (Config.ecdsaSign deviceIdSecret (sha384 m))

/-- CHAIN after a record (R519). -/
def chainAfter (start : List Byte) (cs : List Component) : List Byte :=
  cs.foldl (fun c m => sha384 (c ++ padTo 48 m.measurement)) start

/-- The record that an append writes. -/
def recordOf (s : State) (a : Append) : LedgerRec :=
  let comps := a.comps.map Component.measured
  let last := s.boot.ledger.getLast?
  let start := if a.kind = 0 then zeros 48 else match last with | some r => r.chain | none => zeros 48
  { kind := a.kind, cause := a.cause, seq := s.boot.nextSeq, rtc := s.rtc, time := s.stamp, boots := s.boot.bootCount,
    comps := comps, chain := chainAfter start comps, prev := match last with | some r => sha384 r.bytes | none => zeros 48 }

end Sys2Proof.Machine
end

