-- ==== Sys2Proof/Machine/ResetOps.lean ====
section
/-! DEFINITION. Resets and recovery as operations: the escalation ladder, the resets of an engine, a hart, an island, of
CTRL and of the whole G9, the dump, the cold reset, the start of boot and the rebuild of the map, alarms and thermal
shutdown (R13, R76, R88, R109, R253 to R257, R300, R500 to R514, R523 to R527, R540, R543). -/

namespace Sys2Proof.Machine

/-! ## Registers across resets (R7, R580) -/

/-- The saved fields of R580 that lie in a register of their own. -/
def savedFields : List (Nat × W32) :=
  [(rMedCtl 0, 0xFF#32), (rMedCtl 1, 0xFF#32), (rMedCtl 2, 0xFF#32), (rMedCtl 3, 0xFF#32), (rFtlRdThresh, 0xFFFFFF#32),
   (rStrCtl, 3#32), (rStrReshapeCtl, 3#32), (rMemCtl, 3#32)]

/-- A register after a reset that clears its window: its reset value with the saved fields applied. -/
def afterReset (r : Regs) (off : Nat) (mask : W32) : W32 :=
  (resetValue off &&& ~~~mask) ||| (r.durable.getD off (resetValue off) &&& mask)

/-- Clear the registers, counts and latches whose offset passes a test, and apply the saved fields. -/
def State.clearRegs (s : State) (p : Nat → Bool) : State :=
  let r := s.regs
  let s1 := s.onRegs fun r =>
    { r with val := r.val.filter fun e => !p e.1, count := r.count.filter fun e => !p e.1,
             latchA := r.latchA.filter fun e => !p e.1, latchB := r.latchB.filter fun e => !p e.1,
             latchF := r.latchF.filter fun e => !p e.1 }
  savedFields.foldl (fun t e => if p e.1 then t.setReg e.1 (afterReset r e.1 e.2) else t) s1

/-- The registers of the windows that an island holds. -/
def heldBy (i : Island) (off : Nat) : Bool := holdingIsland off = some i

/-! ## The escalation ladder (R523, R530) -/

/-- UNIT of BLD_ESC_LAST: the hart, 0xFF for a whole island, and for an engine the number of its class (Config). -/
def unitField (i : Island) (unit : Nat) : Nat :=
  if unit = 0xFF then 0xFF else if i = .compute then unit % 256 else (Config.unitCode unit).toNat

/-- Count an escalation and record it as the newest. -/
def State.recordEsc (s : State) (level : Nat) (i : Island) (unit cause : Nat) : State :=
  let last := w32 (2 ^ 31 + level * 2 ^ 28 + islandCode i * 2 ^ 24 + unitField i unit * 2 ^ 16 + cause * 2 ^ 8)
  let s1 := ((s.addReg (rBldEscCount level) 1).setReg rBldEscLast last)
  let s2 := (s1.addLife (lifeC3 (0x828 + 44 * level + 4 * islandCode i)) 1).addLife
    (lifeC3 (0x828 + 220 + 40 * level + 4 * (cause - 1))) 1
  if 2 ≤ level then
    ((s2.onSys fun y => { y with escPending := true }).logEvent 3 level 0xFFFF last 0).irq
  else s2

/-- Resets of one level, island and unit in a window of time before now. -/
def resetsWithin (s : State) (level : Nat) (i : Island) (unit window : Nat) : Nat :=
  (s.sys.resets.filter fun e => e.level = level && e.island = i && e.unit = unit && decide (s.now < e.time + window)).length

/-- Remember a reset, and that its recovery is under way; one of a lower level in the same island is dropped (R525). -/
def State.beginReset (s : State) (level : Nat) (i : Island) (unit : Nat) : State :=
  s.onSys fun y =>
    { y with resets := (y.resets.filter fun e => decide (s.now < e.time + 3600 * tSec)) ++ [⟨level, i, unit, s.now⟩],
             recovering := (y.recovering.filter fun r => !(decide (r.island = i) && decide (r.level < level))) ++ [⟨level, i, unit⟩] }

/-! ## What stops with a dump, an L4 reset or a loss of power -/

/-- Commands at the LUNs are gone; failed LUNs stay failed. -/
def State.clearLuns (s : State) : State :=
  s.onMedia fun m => { m with luns := (Tbl.mapVals m.luns fun _ x =>
    { Lun.reset with failed := x.failed, cause := x.cause, retiredAt := x.retiredAt }).filter fun e => e.2 ≠ Lun.reset }

/-- PFAIL_N falls: commands not yet issued are withdrawn and ladders abandoned, operations under way complete, and suspended ones
resume (R177). -/
def State.drainLuns (s : State) : State :=
  let s1 := (s.onMedia fun m =>
    { m with luns := Tbl.mapVals m.luns fun _ x => { x with queue := [], backlog := [], decoding := [] } }).onStr fun t =>
      { t with recons := [] }
  (s1.media.luns.map (·.1)).foldl State.lunNext s1

/-- Every Trail ends without a status record, its tasks and tokens go, and no engine runs (R76, R540, R543). -/
def State.stopEngines (s : State) : State :=
  let s1 := ((s.onDisp fun d =>
      { Disp.reset with
        endCount := d.endCount + 1
        flows := Tbl.mapVals d.flows fun _ f =>
          if f.bound then { f with bound := false, gone := true, ended := some d.endCount, gcmKey := none } else f }).onHrt fun h => { h with harts := [], loads := [] }).onDgs fun d => { d with ctxs := [] }
  (s1.onFtl fun f =>
    { f with reads := [], copies := [], victim := none, waiting := [] }).onDma fun d => Tbl.mapVals d fun _ c =>
      { c with busy := false, paceWait := false }

/-! ## The dump (R253 to R255, R448, R539) -/

/-- A slot is in use, a stripe is in flight, or journal records are not yet on flash (R218). -/
def dumpNeeded (s : State) : Bool := !s.ftl.slots.isEmpty || !s.str.stripes.isEmpty || !s.ftl.journal.isEmpty

/-- A dump set can take the dump: MEM answers, and a pool LUN of the set is on an online channel. -/
def setServes (s : State) (k : Nat) : Bool :=
  s.up .mem && s.up .engine && (pool s).any fun l => setOf l = k && (s.channel (l / 64)).online && s.up (mediaIsland (lunIsland l))

/-- What DRAM holds that the dump must save. `trailer` rises when the dump is complete. -/
def dumpImage (s : State) (a b : Bool) : DumpImage :=
  { seq := s.str.dumpSeq + 1, time := s.rtc, slots := s.ftl.slots, journal := s.ftl.journal, stripes := s.str.stripes,
    placeSeq := s.ftl.placeSeq, copyA := ⟨a, 0, [], []⟩, copyB := ⟨b, 0, [], []⟩, trailer := false }

/-- Take the image of what is in DRAM, as the dump that copies A and B begin to write; where neither is written, what is lost (R257). A
dump that has not been applied yet stays (R527). -/
def State.takeImage (s : State) (a b : Bool) : State :=
  if s.sys.phase = .booting then s
  else
    let clean := !dumpNeeded s
    s.onStr fun t =>
      { t with dump := if clean then none else some (dumpImage s a b), cleanShutdown := clean, railsFell := false,
               dumpSeq := if !clean && (a || b) then t.dumpSeq + 1 else t.dumpSeq }

/-- Everything the host and the engines do ends: no completion is created, links go down, media work that has not begun is
withdrawn, writes whose data has not arrived are discarded (R543 steps 3 to 5). -/
def State.stopAll (s : State) : State :=
  let s1 := s.ftl.admitted.foldl State.discardWrite s
  ((s1.stopEngines).hostDown).drainLuns

/-- Begin the dump, or, where nothing must be saved or neither set can take it, go on without. The result says whether a
dump is being written. -/
def State.dumpStart (s : State) (cause : DumpCause) : State × Bool :=
  let a := setServes s 0
  let b := setServes s 1
  let write := s.sys.phase ≠ .booting && dumpNeeded s && !s.power.writesStopped && (a || b)
  let s1 := if (!s.ftl.slots.isEmpty || !s.str.stripes.isEmpty) ∧ s.sys.phase ≠ .booting then s.addLife (lifeDev 1) 1 else s
  let s2 := s1.takeImage (write && a) (write && b)
  let s3 := s2.stopAll
  if write then
    let s4 := s3.onSys fun y =>
      { y with phase := .dumping, dumpCause := cause, down := addOnce (addOnce y.down .host) .compute, recovering := [] }
    ((boardLuns s4).foldl State.lunNext s4, true)
  else (s3.onSys fun y => { y with dumpCause := cause, recovering := [] }, false)

/-- DRAM enters or leaves self-refresh on every channel. -/
def State.dramSleep (s : State) (on : Bool) : State :=
  s.onMem fun m => { m with chans := Tbl.mapVals m.chans fun _ c => { c with selfRefresh := on } }

/-- Step 7 of R543: every island but AON is held in reset, and DRAM is in self-refresh. -/
def State.enterHold (s : State) : State :=
  (s.dramSleep true).onSys fun y => { y with phase := .hold, down := islandsButAon, gated := [] }

/-! ## The cold reset: what an L4 reset, a power-on and a loss of power leave (R275, R294, R496, R526, R535, R580) -/

/-- A namespace: memory namespaces lose their bytes, ranges lock that lock on reset, and a
reservation persists only where it is asked to. -/
def Ns.coldReset (n : Ns) : Ns :=
  { n with
    mem := [], erasing := n.erasing.map fun x => { x with who := none }
    ranges := n.ranges.map fun r =>
      { r with rekeying := n.erasing.any (·.crypto), readLocked := r.readLocked || r.lockOnReset, writeLocked := r.writeLocked || r.lockOnReset }
    reservation := if n.reservation.ptpl then n.reservation else Reservation.reset }

/-- The key switches of the cryptographic erases that are under way: they resume from their start (R526). -/
def eraseRekeys (t : Tbl Ns) : List Rekey :=
  t.flatMap fun e => if e.2.erasing.any (·.crypto) then e.2.ranges.map fun r => ⟨e.1, r.id, none⟩ else []

/-- The tables of hot indexes, emptied: they refill as keys are retrieved (R366, R368). -/
def kvTables (l : Lynx) : Tbl LynxTable :=
  Tbl.mapVals (l.tables.filter fun e => e.2.kv) fun _ t => { t with entries := [], faulted := false, lost := [], diffs := [], shadowBad := [] }

/-- A key-store slot before its stored copy is loaded. -/
def KeySlot.coldReset (k : KeySlot) : KeySlot := { k with st := .empty, key := [], logTarget := none }

/-- A controller keeps its share; FLR_COUNT counts since power-on. -/
def Ctrl.coldReset (fn : Fn) (c : Ctrl) (powerOn : Bool) : Ctrl :=
  { Ctrl.reset fn with share := c.share, flrCount := if powerOn then 0 else c.flrCount }

/-- The lifetime counts that the boot derives exactly (R566): power cycles, unsafe shutdowns, dumps, recoveries, boots and
the L4 escalations. -/
def lifeExact (key : Nat) : Bool :=
  key = lifeDev 0 || key = lifeDev 1 || key = lifeEvent 4 || key = lifeEvent 5 || key = lifeEvent 6 || key = lifeEvent 10 ||
  (decide (lifeC3 (0x828 + 44 * 4) ≤ key) && decide (key < lifeC3 (0x828 + 44 * 5))) ||
  (decide (lifeC3 (0x828 + 220 + 40 * 4) ≤ key) && decide (key < lifeC3 (0x828 + 420)))

/-- The lifetime records resume from the newest copy, but for the exact counts. -/
def Health.coldReset (h : Health) : Health :=
  let exact := h.life.filter fun e => lifeExact e.1
  { h with life := exact.foldl (fun t e => t.set e.1 e.2) (h.lifeSaved.filter fun e => !lifeExact e.1),
           events := h.eventsSaved, writing := false, flushAgain := false, sinceWrite := 0, cfg := [], sideband := [],
           smbusKhz := 100, mtu := [] }

/-- Repairs that waited for a reset of their island are applied, and locations without a spare are withheld (R425). -/
def State.applyFixes (s : State) (p : Nat → Bool) : State :=
  s.onMem fun m =>
    let now := m.fixes.filter fun x => p x.1
    { m with repairs := m.repairs ++ ((now.filter fun x => x.2.2).map fun x => (x.1, x.2.1)),
             withheld := m.withheld ++ ((now.filter fun x => !x.2.2).map fun x => (x.1, x.2.1)),
             fixes := m.fixes.filter fun x => !p x.1,
             logs := m.logs.map fun l => if now.any fun x => x.1 = l.group && x.2.1 = l.addr then { l with st := .retired } else l }

/-- Open bands take no more data in the stripe that they were in: filler closes it (R256 step 3). -/
def State.fillShort (s : State) : State :=
  s.onFtl fun f =>
    { f with bands := Tbl.mapVals f.bands fun _ x =>
        if x.st = .opened then { x with fill := ceilDiv x.fill (16 * geomD x.geom) * (16 * geomD x.geom) } else x }

/-- Every member of a stripe in flight that has not been programmed is written again from its origin, P and Q last (R252, R256 step 3). -/
def State.closeInFlight (s : State) : State :=
  s.str.stripes.foldl (fun t r =>
    ((List.range (geomW r.geom)).foldl (fun u i =>
      let p := writeOrder r.geom r.stripe i
      if p ∈ r.programmed then u else u.issueMember r.band r.stripe p) t).onStripe r.band r.stripe fun y => { y with st := 3 }) s

/-- A rebuild begins its band again in a fresh block; the block it was writing waits to be erased (R250). -/
def State.dropRebuild (s : State) : State :=
  match s.str.rebuild, s.str.rebuild.bind fun r => s.anyBand r.band with
  | some r, some x => (s.onFtl fun f =>
      { f with dying := f.dying ++ [(r.band, { x with st := .erasePending, erasing := goodMembers s [(r.lun, r.block)] })] }).rebuildStop
  | _, _ => s.rebuildStop

/-- A reset of a reshape (R261): the member blocks that hold a page of the stripe in progress, or pages that were being written once more,
are replaced, and the new stripes from CURSOR on are read back before it goes on. -/
def State.rewindReshape (s : State) : State :=
  let h := s.str.reshape
  match h.region with
  | none => s
  | some _ =>
    let w := geomW h.target
    let begun := (s.str.stripes.filter fun y => y.kind = .reshape).flatMap (·.issued)
    let s1 := s.reshapeStop
    let s2 := h.redo.foldl (fun t r => t.reshapeFresh r.slotIx r.slot r.pages) s1
    let s3 := begun.foldl (fun t p => t.reshapeFresh h.slotIx p (h.page / w)) s2
    s3.onStr fun t =>
      { t with reshape := { t.reshape with
          page := h.page / w * w, switching := false,
          back := some (h.cursor / bandUnits s h.target, h.cursor % bandUnits s h.target / (16 * geomD h.target)) } }

/-- REFUSED and REASON take their reset values (R266, R580). -/
def State.clearRefused (s : State) : State := s.onStr fun t => { t with reshape := { t.reshape with refused := false, reason := 0 } }

/-- What boot had written again of the stripes of a dump stands when the dump is applied once more. -/
def State.keepRecovered (s : State) : State :=
  if s.sys.bootStep = 11 then
    s.onStr fun t => { t with dump := t.dump.map fun d => { d with stripes := d.stripes.map fun r => match s.stripe r.band r.stripe with
      | some y => y
      | none => { r with programmed := List.range (geomW r.geom) } } }
  else s

/-- What a write to the configuration area makes durable (R580). -/
def State.cfgDurable (s : State) : CfgWrite → State
  | .register off v => s.onRegs fun r => { r with durable := Tbl.put (resetValue off) r.durable off v }
  | .sensor i v => s.onPower fun p => { p with tsensSaved := Tbl.put 0 p.tsensSaved i v }
  | .seed k v => s.onMem fun m => { m with seedSaved := Tbl.put 0 m.seedSaved k v }
  | .cursor r v =>
    if s.str.reshape.region = some r then
      (s.setRegion r { s.region r with cursor := v }).onStr fun t => { t with reshape := { t.reshape with cursor := v } }
    else s
  | .reshapeSwitch r => s.reshapeSwitch r
  | _ => s

/-- The oldest write to the configuration area, where it has begun. -/
def State.tearConfig (s : State) : State :=
  match s.health.cfg with
  | [] => s
  | c :: _ =>
    if sysWaits s .config then s
    else if (s.areaTorn areaConfig).2 then (s.areaTorn areaConfig).1.cfgDurable c else (s.areaTorn areaConfig).1

/-- The oldest ledger append, where it has begun. -/
def State.tearLedger (s : State) : State :=
  match s.boot.appends with
  | [] => s
  | a :: rest =>
    if sysWaits s .ledger then s
    else if (s.areaTorn areaLedger).2 then
      (s.areaTorn areaLedger).1.onBoot fun b =>
        { b with appends := rest, nextSeq := b.nextSeq + 1, ledger := lastN 65536 (b.ledger ++ [recordOf s a]) }
    else (s.areaTorn areaLedger).1

/-- A write of the lifetime records. -/
def State.tearLifetime (s : State) : State :=
  if s.health.writing ∧ !s.power.writesStopped then
    if (s.areaTorn areaLifetime).2 then
      (s.areaTorn areaLifetime).1.onHealth fun h => { h with lifeSaved := h.life, eventsSaved := h.events }
    else (s.areaTorn areaLifetime).1
  else s

/-- The nonce log record of a wrap slot, where it has begun. -/
def State.tearNonce (s : State) (slot : Nat) (k : KeySlot) : State :=
  match k.logTarget with
  | none => s
  | some r =>
    if sysWaits s (.nonce slot) then s
    else if (s.areaTorn areaNonce).2 then
      ((s.areaTorn areaNonce).1.setWrap slot { k with reservedTo := r, logTarget := none }).onSea fun x =>
        x.nonceRecord { slot := slot, kind := 0, epoch := k.epoch, reservedTo := r, lseq := 0 }
    else (s.areaTorn areaNonce).1

/-- The writes of system areas that end with the power: each area holds the old content or the new in whole, in the copy that the next
boot reads, since the copies are written one at a time (R176). -/
def State.tearAreas (s : State) : State :=
  let s1 := ((s.tearConfig).tearLedger).tearLifetime
  s1.sea.wrap.foldl (fun t e => t.tearNonce e.1 e.2) s1

/-- The state of a cold reset, before boot. -/
def State.coldReset (s : State) (powerOn : Bool) : State :=
  let s0 := ((((s.keepRecovered).tearAreas).dropRebuild).rewindReshape).clearRefused
  let esc := (List.range 5).map fun n => (rBldEscCount n, s.reg (rBldEscCount n))
  let s1 := s0.clearRegs fun _ => true
  let s2 := if powerOn then s1 else (s1.setReg (rBldEscCount 4) ((esc.map (·.2)).getD 4 0)).setReg rBldEscLast (s.reg rBldEscLast)
  let s3 := s2.applyFixes fun _ => true
  { s3 with
    sys := { s3.sys with
      down := [], gated := [], recovering := [], bridgeErrs := [], resets := [], rtcBase := s3.sys.ticks,
      escPending := !powerOn && s3.sys.escPending, bootAlarms := if powerOn then 0 else s3.sys.bootAlarms,
      shutdownTimes := if powerOn then [] else s3.sys.shutdownTimes, escL4Times := if powerOn then [] else s3.sys.escL4Times,
      xspiHighZ := false, irqSeenA := 0, irqSeenB := 0, bootStep := 0 }
    power := { Power.reset with pfailN := s3.power.pfailN, ilimN := s3.power.ilimN, resetN := s3.power.resetN,
                                railsBad := s3.power.railsBad, tsensUser := s3.power.tsensSaved, tsensSaved := s3.power.tsensSaved }
    host := { s3.host with
      portA := { PortState.reset true with perstN := s3.host.portA.perstN }
      portB := { PortState.reset s3.sys.portSplit with perstN := s3.host.portB.perstN }
      ctrls := Tbl.keep (Tbl.mapVals s3.host.ctrls fun f c => Ctrl.coldReset f c powerOn) fun f c => c ≠ Ctrl.reset f
      rangeSetsA := [], rangeSetsB := [] }
    ns := Tbl.mapVals s3.ns fun _ n => Ns.coldReset n
    ftl := { s3.ftl with map := [], slots := [], waiting := [], admitted := [], reads := [], copies := [], victim := none,
                         capNow := none, freedEpoch := 0, journal := [], dirty := [], blockDirty := [], segRebuild := [], segFirst := false,
                         mapPages := s3.ftl.mapPages.filter (·.done) }
    media := { (State.clearLuns s3).media with channels := [], staged := s3.media.committed, committing := [], bands := [], sysHeld := [] }
    str := { s3.str with stripes := [], recons := [] }
    sea := { s3.sea with xts := Tbl.mapVals s3.sea.xts fun _ k => KeySlot.coldReset k,
                         wrap := Tbl.mapVals s3.sea.wrap fun _ k => KeySlot.coldReset k, importKeys := [], alarms := [], alarmCount := 0, glitches := [],
                         deviceKeys := false, caches := [], rekeys := eraseRekeys s3.ns,
                         opalA := { s3.sea.opalA with session := false, authorities := [], response := 0, blockSid := false, mbrDone := false, out := [] },
                         opalB := { s3.sea.opalB with session := false, authorities := [], response := 0, blockSid := false, mbrDone := false, out := [] } }
    dgs := { Dgs.reset with hmac := Tbl.mapVals s3.dgs.hmac fun _ h =>
      { h with st := if h.blob.isEmpty then .empty else .loading, key := [], lastErr := 0 } }
    lynx := { Lynx.reset with tables := kvTables s3.lynx, lapStart := s.now }, dma := [], disp := Disp.reset
    hrt := { Hrt.reset with authorities := s3.hrt.authorities }
    memory := { MemSide.reset with seedUser := s3.memory.seedSaved, seedSaved := s3.memory.seedSaved, remap := s3.memory.remap, repairs := s3.memory.repairs,
                                   withheld := s3.memory.withheld, noSpare := s3.memory.noSpare }
    boot := { s3.boot with running := 0, image := none, trial := false, download := [], commits := [],
                           appends := s3.boot.appends.filter fun a => a.kind = 6, appendFail := false, timestamp := none }
    health := Health.coldReset s3.health }

/-! ## Boot (R500, R506, R510 to R514) -/

/-- An image is valid (R506). -/
def imageValid (b : Boot) (i : FwImage) : Bool :=
  i.headerOk && i.measureOk && i.mldsaOk && i.ecdsaOk && !b.revoked.getLsbD i.authority && decide (i.authority < 4) &&
  decide (b.fuseSvn ≤ i.svn)

/-- The image in a slot: 1 is A, 2 is B. -/
def Boot.slotImage (b : Boot) (n : Nat) : Option FwImage := if n = 1 then b.slotA else if n = 2 then b.slotB else none
def Selector.failed (x : Selector) (n : Nat) : Bool := if n = 1 then x.failedA else x.failedB
/-- A slot that the boot ROM may run. -/
def Boot.usable (b : Boot) (n : Nat) : Bool :=
  !b.selector.failed n && match b.slotImage n with | some i => imageValid b i | none => false

/-- Write the selector: the copy that does not hold the higher SSEQ takes it (R504, R508). -/
def Boot.select (b : Boot) (g : Selector → Selector) : Boot := 
  { b with selector := { g b.selector with sseq := b.selector.sseq + 1 }, selCopy := 1 - b.selCopy, selOther := some b.selector }

/-- The first candidate, before FAILED and validity (R510, R512). -/
def Boot.first (b : Boot) : Nat :=
  if b.selector.pending ≠ 0 ∧ b.selector.tries < 2 then b.selector.pending else b.selector.active

/-- The slot that boots, and the selector that the choice leaves (R510 to R512). -/
def Boot.choose (b : Boot) : Boot × Option Nat :=
  let b1 := if b.selector.pending ≠ 0 ∧ 2 ≤ b.selector.tries then b.select fun x => { x with pending := 0 } else b
  let c := b1.first
  if b1.usable c then (b1, some c)
  else
    let b2 := if c = b1.selector.pending then b1.select fun x => { x with pending := 0 } else b1
    if b2.usable (3 - c) then (b2, some (3 - c)) else (b2, none)

/-- Boot hold (R514): only AON, the boot ROM and HOST run, and the key store is empty. -/
def State.enterBootHold (s : State) : State :=
  let s1 := s.onSys fun y =>
    { y with phase := .bootHold, down := [.ctrl, .compute, .engine, .mem, .media0, .media1, .media2, .media3], bootStep := 0 }
  let s2 := s1.onSea fun e => { e with deviceKeys := false, xts := Tbl.mapVals e.xts fun _ k => KeySlot.coldReset k,
                                       wrap := Tbl.mapVals e.wrap fun _ k => KeySlot.coldReset k }
  (fnsOf .a ++ fnsOf .b).foldl (fun t f => t.onCtrl f fun c => { c with rdy := false, cfs := true }) s2

/-- The security core loads the key store from its stored copies (R275, R294): DEVICE-bound slots become LOADED,
CREDENTIAL-bound ones LOCKED, and NEXT becomes the durable limit. -/
def State.loadStored (s : State) : State :=
  let load := fun (use i : Nat) (k : KeySlot) =>
    if k.stored.isNone then k else if k.credential then { k with st := .locked, key := [] } else s.restored use i
  let s1 := s.onSea fun e =>
    { e with deviceKeys := true, xts := Tbl.mapVals e.xts fun i k => load 1 i k,
             wrap := Tbl.mapVals e.wrap fun i k => { load 4 i k with next := k.reservedTo } }
  s1.onDgs fun d =>
    { d with hmac := Tbl.mapVals d.hmac fun _ h =>
        if h.st = .loading ∧ (s1.wrapSlot h.wrap).st = .empty then { HmacSlot.free with owner := h.owner } else h }

/-! ## What an alarm erases and reports (R299, R300) -/

def alarmBit : AlarmCause → Nat
  | .voltage => 0 | .clock => 1 | .overtemp => 2 | .fuse => 3 | .dupMismatch => 4 | .invMismatch => 5
/-- SEA_ALARM_STATUS bits [5:0]. -/
def alarmBits (s : State) : Nat := (s.sea.alarms.map fun a => 2 ^ alarmBit a).sum

/-- Zero a slot: one with a stored copy becomes ERASED (R300). -/
def KeySlot.erased (k : KeySlot) : KeySlot :=
  { k with key := [], st := if k.stored.isSome then .erased else .empty }

/-- The first effect of an alarm: every key in the key store, every cached key and every key in the digest engine is erased,
and the cause is recorded and counted (R299, R300). -/
def State.eraseKeys (s : State) (a : AlarmCause) : State :=
  (s.onSea fun e =>
    { e with xts := Tbl.mapVals e.xts fun _ k => KeySlot.erased k, wrap := Tbl.mapVals e.wrap fun _ k => KeySlot.erased k,
             caches := [], alarms := addOnce e.alarms a, alarmCount := satAdd 0xFF e.alarmCount 1,
             glitches := if a = .voltage ∨ a = .clock then addOnce e.glitches a else e.glitches }).digestAlarm

/-- An alarm is reported: the fault-log event, the managers' Asynchronous Event Requests, the ledger record and the interrupt (R300). -/
def State.alarmReport (s : State) : State :=
  let s1 := s.logEvent 2 0 0xFFFF (w32 (alarmBits s)) 0
  ((s1.raiseManagers evAlarm).requestAppend
    { kind := 6, cause := 0, comps := [{ componentOf 9 0 0xFFFF (alarmBits s1) with version := 0 }], then_ := .nothing }).irq

/-- Boot from step 1 to the loaded first-stage loader, with the CAUSE that the boot record will carry. A fuse block that fails its check
raises an alarm and ends in boot hold (R299, R514). -/
def State.bootStart (s : State) (cause : Nat) : State :=
  let s1 := s.onSys fun y => { y with phase := .booting, bootStep := 2, down := [], gated := [] }
  let train := fun (q : PortState) => { q with training := q.present && q.perstN }
  let s2 := (s1.onPort .a train).onPort .b train
  if !s.board.fuseOk then ((s2.eraseKeys .fuse).alarmReport).enterBootHold
  else
    let (b, slot) := s2.boot.choose
    match slot with
    | none => (s2.onBoot fun _ => b).enterBootHold
    | some n =>
      let s3 := s2.onBoot fun _ =>
        { b with running := n, image := b.slotImage n, cause := if n = s2.boot.first then cause else 4 }
      (s3.loadStored).onSys fun y => { y with bootStep := 5 }

/-- The components of a boot record (R518): ROM, fuse configuration, FSL and main firmware; after an L3 restart the main
firmware alone. -/
def bootComponents (b : Boot) (cause : Nat) : List Component :=
  match b.image with
  | none => []
  | some i =>
    let v := ofLe i.version
    let fw : Component := { type := 3, sub := b.running, fn := 0xFFFF, index := 0, version := v, measurement := i.fwMeas }
    if cause = 3 then [fw]
    else
      [{ type := 1, sub := 0, fn := 0xFFFF, index := 0, version := 0, measurement := bytesOf 48 Config.romDigest },
       { type := 4, sub := 0, fn := 0xFFFF, index := 0, version := b.fuseSvn, measurement := bytesOf 48 Config.fuseDigest },
       { type := 2, sub := b.running, fn := 0xFFFF, index := 0, version := v, measurement := i.fslMeas }, fw]

/-- CH_EN of a channel. -/
def channelEnabled (s : State) (c : Nat) : Bool := (s.reg (rMedCtl (c / 8))).getLsbD (c % 8)

/-- The seeds of a channel's training steps: the factory value plus the bounded user offset (R161, R171). -/
def channelSeeds (s : State) (c : Nat) : List Int :=
  (List.range 4).map fun i =>
    clampInt (signed 8 (Config.channelSeed c i).toNat + clampInt (s.media.seedUser.getD (c * 4 + i) 0) (-32) 31)
      (signed 8 (Config.channelSeedLow i).toNat) (signed 8 (Config.channelSeedHigh i).toNat)

/-- A populated channel at media initialisation: an enabled one trains from the highest rate, and one that breaks a condition on
the population fails its training; a disabled one goes offline (R158, R161, R162). -/
def State.channelStart (s : State) (c : Nat) : State :=
  if channelEnabled s c ∧ channelFits s.board c then
    s.onChannel c fun x =>
      { x with online := false, trained := false, seeds := channelSeeds s c, rate := 0, trying := some 4, retraining := false, retrains := 0 }
  else s.channelOffline c

/-- A copy of the factory page has the digest that the fuses hold (R175). -/
def factoryOk (b : Board) : Bool := b.factoryCopies.any fun p => sha384 p = b.factoryDigest

/-- Media initialisation of some channels (R161): the factory page is the first copy with a fitting digest, and the first
initialisation after manufacture takes the disabled channels as unpopulated (R162, R175). -/
def State.mediaStart (s : State) (p : Nat → Bool) : State :=
  let s1 := s.onMedia fun m =>
    { m with factoryPage := factoryOk s.board, initialised := true,
             absent := if m.initialised then m.absent else (List.range 32).filter fun c => !channelEnabled s c }
  ((List.range 32).filter fun c => p c && channelPopulated s1 c).foldl State.channelStart s1

/-! ## The map after a power-on or an L4 reset (R210, R220, R256, R257) -/

/-- Apply journal records to a map. -/
def replay (m : Tbl MapEntry) (js : List JournalRec) : Tbl MapEntry :=
  js.foldl (fun t j => if j.kind = 0 then Tbl.put MapEntry.unmapped t j.target j.entry else t) m

/-- Apply journal records to the block table: an erase sets the erase count and clears the read counter, a retirement marks the
block (R208, R217, R220). -/
def replayBlocks (fresh : Block) (m : Tbl Block) (js : List JournalRec) : Tbl Block :=
  js.foldl (fun t j =>
    if j.kind = 1 then Tbl.put fresh t j.target { t.getD j.target fresh with erases := j.erases, reads := 0 }
    else if j.kind = 2 then Tbl.put fresh t j.target { t.getD j.target fresh with retired := true }
    else t) m

/-- The journal records on flash that no segment covers, in sequence order (R220 step 2). -/
def openRecords (f : Ftl) : List JournalRec := (f.journalOnFlash.flatMap (·.recs)).filter fun r => !covered f r

/-- The newest pages of every map segment and block-table segment (R220 step 1). -/
def savedMap (f : Ftl) : Tbl MapEntry :=
  (f.mapPages.filter fun p => !p.block && newestPage f p).foldl (fun t p => p.entries.foldl (fun u e => u.set e.1 e.2) t) []
def savedBlocks (f : Ftl) : Tbl Block :=
  (f.mapPages.filter fun p => p.block && newestPage f p).foldl (fun t p => p.blocks.foldl (fun u e => u.set e.1 e.2) t) []

/-- The block table after a power-on or an L4 reset: the saved counters, the journal, no hints (R170, R210), and the blocks that the band
records name (R235). -/
def State.rebuildBlocks (s : State) (tail : List JournalRec) : State :=
  let fresh := freshBlock s
  let held := (s.ftl.bands.flatMap fun e => e.2.members) ++ (s.ftl.dying.flatMap fun e => e.2.erasing) ++
    s.str.reshape.newBands.flatMap fun e => e.2.members
  let t1 := (replayBlocks fresh (savedBlocks s.ftl) (openRecords s.ftl ++ tail)).mapVals fun _ b => { b with hint := 0, inBand := false }
  let t2 := held.foldl (fun t m => Tbl.put fresh t (blockNo s m.1 m.2) { t.getD (blockNo s m.1 m.2) fresh with inBand := true })
    (t1.filter fun e => e.2 ≠ fresh)
  s.onFtl fun f => { f with blocks := t2 }

/-- The segments that some records change are dirty (R219). -/
def State.recordsDirty (s : State) (js : List JournalRec) : State :=
  js.foldl (fun t j =>
    let k := j.target / 2720
    if j.kind = 0 then t.onFtl fun f => { f with dirty := if (f.dirty.find k).isSome then f.dirty else f.dirty.set k t.now }
    else t.blockSegDirty k) s

/-- A recovery other than from an intact dump adds 65,536 to each read counter (R210). -/
def State.agedReads (s : State) : State :=
  (s.ftl.blocks.map fun e => e.1 / 2720).foldl State.blockSegDirty (s.onFtl fun f =>
    { f with freshReads := satAdd 0xFFFFFF f.freshReads 65536,
             blocks := Tbl.mapVals f.blocks fun _ b => { b with reads := satAdd 0xFFFFFF b.reads 65536 } })

/-- A page of a copy of the dump is readable: one that was programmed, and of those whose program was under way when the power was lost,
which no rule tells, those that the model leaves free (R256; notes/assumptions/6.md). -/
def copyReadable (r : DumpRun) (draw page copy : Nat) : Bool :=
  decide (page ∈ r.done) || (r.on && decide (page < r.next) && !(page ∈ r.back) && Config.dumpPage draw (2 * page + copy))

/-- A page of the dump is readable in at least one copy (R256). -/
def pageReadable (d : DumpImage) (draw page : Nat) : Bool := copyReadable d.copyA draw page 0 || copyReadable d.copyB draw page 1

/-- The first page of the map journal tail, of the slot directory and of the slots (R253). -/
def DumpImage.tailAt (d : DumpImage) : Nat := 1 + ceilDiv d.stripes.length 512
def DumpImage.dirAt (d : DumpImage) : Nat := d.tailAt + ceilDiv d.journal.length 1020
def DumpImage.slotAt (d : DumpImage) : Nat := d.dirAt + ceilDiv d.slots.length 512

/-- The slots of a dump whose directory entry and page can be read, or cannot. -/
def DumpImage.slotsIn (d : DumpImage) (draw : Nat) (readable : Bool) : Tbl Slot :=
  (d.slots.zipIdx.filter fun e => (pageReadable d draw (d.dirAt + e.2 / 512) && pageReadable d draw (d.slotAt + e.2)) == readable).map (·.1)

/-- The journal records of a dump whose page can be read, or cannot. -/
def DumpImage.recordsIn (d : DumpImage) (draw : Nat) (readable : Bool) : List JournalRec :=
  (d.journal.zipIdx.filter fun e => pageReadable d draw (d.tailAt + e.2 / 1020) == readable).map (·.1)

/-- The records of a lost journal tail that a scan of the bands brings back: those that name data on media (R257). -/
def scanned (js : List JournalRec) : List JournalRec := js.filter fun j => j.kind = 0 && j.entry.st = .media

/-- The slot of a dump that holds the newest data of its IU and has not flipped. -/
def newestSlot (ks : Tbl Slot) (k : Nat) (x : Slot) : Bool :=
  !x.programmed && !(ks.any fun e => e.2.iu = x.iu && e.2.prev = ⟨.buffer, 0, k⟩)

/-- What a slot whose page is lost has become: the IU is on media, or what it replaced stands where it held no acknowledged data, or its
acknowledged data is lost with cause 2 (R257). -/
def slotFate (s : State) (x : Slot) : MapEntry :=
  match x.placed with
  | some a => if unitsAt s a ≠ 0 ∧ allProgrammed s a (unitsAt s a) then ⟨.media, unitsAt s a, a⟩ else if x.mask = 0 then x.prev else ⟨.bad, 0, 2⟩
  | none => if x.mask = 0 then x.prev else ⟨.bad, 0, 2⟩

/-- An IU takes what a slot of it has become. -/
def State.loseSlot (s : State) (x : Slot) : State :=
  let e := slotFate s x
  if e.st = .bad ∧ x.mask ≠ 0 then s.setBad x.iu 2 else s.setMap x.iu e

/-- A restored slot: its flush goes on, or begins again. -/
def Slot.restored (x : Slot) : Slot := { x with merging := false, key := [] }

/-- Stored data that stands after a recovery: what has been programmed, what a restored slot writes again, and what relocation wrote, whose
sources stand (R252, R256). -/
def standing (s : State) (a : Nat) (x : Stored) : Bool :=
  allProgrammed s a x.units || (s.ftl.slots.any fun e => e.2.placed = some a) ||
  match s.band (bandOf s a) with | some b => b.kind = .reloc || b.kind = .relocLater | none => false

/-- Apply the dump (R220 step 3, R256, R257): the journal tail, the slots and their BUFFER entries, what is lost with pages that no copy
holds, and the stripes in flight. A lost page of the stripe-in-flight journal changes nothing here: the stripes of an open band that are
not closed are those that it recorded, and reading them tells which members are programmed. -/
def State.applyDump (s : State) (d : DumpImage) : State :=
  let draw := s.freeDraw
  let intact := (List.range d.pages).all (pageReadable d draw)
  let tail := d.recordsIn draw true
  let gone := d.recordsIn draw false
  let kept := d.slotsIn draw true
  let lost := d.slotsIn draw false
  let s1 := ((((s.draw).rebuildBlocks tail).recordsDirty tail).onFtl fun f =>
    { f with map := replay f.map tail, journal := tail, slots := Tbl.mapVals kept fun _ x => Slot.restored x, placeSeq := d.placeSeq }).onStr fun t =>
      { t with stripes := d.stripes.filter fun r => r.kind ≠ .reshape && decide (r.programmed.length < geomW r.geom) }
  let s2 := if gone.isEmpty then s1
    else
      let u := (scanned gone).foldl (fun t j => t.setMap j.target j.entry) s1
      let v := (kept.filter fun e => newestSlot d.slots e.1 e.2).foldl (fun t e => t.setMap e.2.iu ⟨.buffer, 0, e.1⟩) u
      (v.badAdd 0xFFFFFFFF (match gone.head? with | some j => j.seq | none => 0) (satAdd 0xFFFFFFFF gone.length 0) 4).onStr fun t =>
        { t with warnDump := true }
  let s3 := lost.foldl (fun t e =>
    if (if gone.isEmpty then decide (t.entryOf e.2.iu = ⟨.buffer, 0, e.1⟩) else newestSlot d.slots e.1 e.2) then t.loseSlot e.2 else t) s2
  let s4 := lost.foldl (fun t e => t.repoint e.1 (slotFate t e.2)) s3
  let stale := s4.ftl.map.filter fun e => e.2.st = .buffer && (s4.ftl.slots.find e.2.addr).isNone
  let s5 := stale.foldl (fun t e => t.setBad e.1 2) s4
  let s6 := (s5.onFtl fun f => { f with stored := f.stored.filter fun e => standing s5 e.1 e.2 }).onStr fun t =>
    { t with lastRecovery := if intact then 1 else 2, warnRails := if intact then false else t.warnRails || t.railsFell, railsFell := false }
  let s7 := s6.ftl.slots.foldl (fun t e => t.flipSlot e.1) s6.fillShort
  let s8 := (s7.logEvent 7 (if intact then 1 else 2) 0xFFFF 0 d.seq).addLife (lifeEvent (if intact then 5 else 6)) 1
  if intact then s8 else (s8.addCnt (rStrCount 5) 1).agedReads

/-- Rebuild the map from its segments and the journal, then apply the dump (R220). -/
def State.rebuildMap (s : State) : State :=
  let s0 := (s.onFtl fun f => { f with map := replay (savedMap f) (openRecords f) }).recordsDirty (openRecords s.ftl)
  match s.str.dump with
  | none =>
    let s1 := s0.rebuildBlocks []
    if s.str.cleanShutdown then s1.onStr fun t => { t with lastRecovery := 0 }
    else s1.agedReads.onStr fun t => { t with lastRecovery := 2 }
  | some d => s0.applyDump d

/-- Erases that had not been done are queued again. -/
def State.requeueErases (s : State) : State :=
  let s1 := s.ftl.bands.foldl (fun t e => e.2.erasing.foldl (fun u m =>
    u.enqueue m.1 { op := .erase (some e.1), cls := 4, block := m.2, page := 0, aged := false }) t) s
  s.ftl.dying.foldl (fun t e => t.eraseBlocks e.2.erasing) s1

/-- The last steps of boot (R500 steps 10 to 12): the map is rebuilt and the dump applied; once the stripes that it recorded in flight are
closed, boot ends. -/
def State.bootFinish (s : State) : State :=
  let s1 := ((s.rebuildMap).onSys fun y => { y with bootStep := 11 }).bufPeak
  let s2 := (((s1.onHealth fun h => { h with copy0Ok := true, copy1Ok := true }).areaHeal).requeueErases).closeInFlight
  let s3 := ((s2.ftl.bands.filter fun e => e.2.st = .opened).map (·.1)).foldl State.closeBand s2
  (s3.freeSlots).recoverDone

/-! ## L4 (R513, R523) -/

/-- The CAUSE of the boot that follows a dump (R518, R541, R546). -/
def dumpBootCause : DumpCause → Nat
  | .escalation => 1 | .thermalRestart => 1 | .subsystemReset => 2 | _ => 0

/-- Three L4 resets by escalation within 1 h under one confirmed slot mark it FAILED (R513). -/
def State.countL4 (s : State) : State :=
  let kept := s.sys.escL4Times.filter fun e => decide (s.now < e.2 + 3600 * tSec)
  let times := if s.boot.running = s.boot.selector.active ∧ s.boot.running ≠ 0 then kept ++ [(s.boot.running, s.now)] else kept
  if 3 ≤ (times.filter fun e => decide (e.1 = s.boot.running)).length ∧ s.boot.running = s.boot.selector.active then
    (s.onSys fun y => { y with escL4Times := times.filter fun e => decide (e.1 ≠ s.boot.running) }).onBoot fun b =>
      b.select fun x => if b.running = 1 then { x with failedA := true } else { x with failedB := true }
  else s.onSys fun y => { y with escL4Times := times }

/-- A trial that an L3 or L4 reset interrupts, or that has not reached CSTS.RDY, adds a failed try (R512). -/
def State.failTrial (s : State) : State :=
  if s.boot.trial then s.onBoot fun b => { b.select (fun x => { x with tries := Nat.min 2 (x.tries + 1) }) with trial := false } else s

/-- What follows a dump, or takes its place: the hold of R546 and R606, or an internal cold reset and boot. -/
def State.afterDump (s : State) : State :=
  match s.sys.dumpCause with
  | .pfail => s.enterHold
  | .resetN => s.enterHold
  | c => (s.coldReset false).bootStart (dumpBootCause c)

/-- An L4 reset. While a dump is under way, or the G9 is not up, it does nothing of its own (R525). -/
def State.l4Reset (s : State) (i : Island) (cause : Nat) (dc : DumpCause) : State :=
  if s.sys.phase = .running ∨ s.sys.phase = .booting then
    let s1 := s.recordEsc 4 i 0xFF cause
    let s2 := (if dc = .escalation then s1.countL4 else s1).failTrial
    match s2.dumpStart dc with
    | (s3, true) => s3
    | (s3, false) => s3.afterDump
  else s

/-! ## L3 (R42, R148, R496, R524, R526) -/

/-- The control registers whose LOCK an L3 reset clears: every block's but PWR's (R578). -/
def lockRegs : List Nat :=
  [rTopCtl, rDspCtl, rTrlCtl, rHrtCtl, rDmaGlbCtl, rSeaCtl, rDgsCtl, rRleCtl, rLnxCtl, rMemCtl, rEccCtl, rMedCtl 0, rMedCtl 1, rMedCtl 2,
   rMedCtl 3, rFtlCtl, rStrCtl, rVinCtl, rTlmCtl]

/-- Clear every LOCK but PWR's. -/
def State.clearLocks (s : State) : State := lockRegs.foldl (fun t c => if t.regBit c 31 then t.setReg c (t.reg c &&& 0x7FFFFFFF#32) else t) s

/-- An L3 reset: CTRL and firmware restart, every Trail ends without a record, every controller sets CSTS.CFS. -/
def State.l3Reset (s : State) (i : Island) (cause : Nat) : State :=
  if s.sys.phase ≠ .running ∨ .ctrl ∈ s.sys.down then s
  else if 2 ≤ resetsWithin s 3 .ctrl 0xFF (3600 * tSec) then s.l4Reset .ctrl 6 .escalation
  else
    let s1 := ((s.recordEsc 3 i 0xFF cause).beginReset 3 .ctrl 0xFF).failTrial
    let s2 := (s1.disp.flows.filter fun e => e.2.bound).foldl (fun t e => t.releaseFlow e.1) s1
    let s3 := (fnsOf .a ++ (if s2.host.portB.present then fnsOf .b else [])).foldl State.failController s2
    let s4 := ((s3.clearRegs (heldBy .ctrl)).clearLocks).withdraw fun c => match c with | .copy _ => true | _ => false
    let s5 := (s4.onFtl fun f => { f with copies := [], victim := none }).onHrt fun h =>
      { h with modules := [], loads := [], faults := [], l2 := [],
               harts := Tbl.mapVals h.harts fun _ x => { x with icache := [], dcache := [] } }
    let s6 := ((if s4.hrt.faults.isEmpty then s5 else s5.bumpGen 0xC5).onBoot fun b => { b with download := [], commits := [] }).onSea fun e =>
      { e with opalA := { e.opalA with session := false, authorities := [] }, opalB := { e.opalB with session := false, authorities := [] } }
    let s7 := s6.onPower fun p =>
      { p with requested := .balanced, effective := .balanced, lastCause := 7, transition := none, waiting := [],
               emberAuto := false, hibEntry := none }
    let s8 := (s7.onMem fun m => { m with owlLap := 0, owlSramLap := 0, owlAt := 0 }).onLynx fun l => { l with lapStart := s7.now, lapOver := false }
    ((((s8.rewindReshape).clearRefused).bufPeak)).onSys fun y => { y with down := addOnce y.down .ctrl }

/-! ## L2 (R13, R18, R109, R177, R303, R322, R366, R427) -/

/-- Fail the running tasks that pass a test, with the status that the reset's cause gives (R76). -/
def State.failRunning (s : State) (p : Running → Bool) (st : Status) : State :=
  let hit := s.disp.running.filter p
  let s1 := s.onDisp fun d => { d with running := d.running.filter fun r => !p r }
  hit.foldl (fun t r => t.failTask r.task st) s1

/-- Every Trail with a GCM stage fails with KEYS_ERASED: its sealed-data key is zeroed (R303). -/
def cipherStages (f : Flow) (p : Stage → Bool) : List Nat :=
  (List.range f.trail.stages.length).filter fun i => match Trail.stageAt f.trail i with | some x => p x | none => false

/-- Record KEYS_ERASED against a Trail that holds a cipher key: each unfired entry and running task of a cipher stage fails,
or, where there is none, the lowest-numbered such stage for the lowest unretired chunk (R88). -/
def State.eraseFlow (s : State) (i : Nat) (p : Stage → Bool) : State :=
  match s.boundFlow i with
  | none => s
  | some f =>
    let stages := cipherStages f p
    match stages with
    | [] => s
    | first :: _ =>
      let unfired := s.disp.entries.filter fun e => e.flow = i && e.stage ∈ stages && !e.discard
      let running := (s.disp.running.filter fun r => r.task.flow = i && r.task.stage ∈ stages).map (·.task)
      let s1 := (s.onFlow i fun f => { f with gcmKey := none, keyReady := [] }).onDisp fun d =>
        { d with running := d.running.filter fun r => !(r.task.flow = i && r.task.stage ∈ stages) }
      let hits := unfired ++ running
      if hits.isEmpty then s1.failFlow i (match f.oldest with | some k => k | none => f.issued) first stKeysErased
      else (freeTasks s1 running).onFlow i (fun f =>
        { f with stopped := true, failCount := satAdd 0xFFFFFFFF f.failCount hits.length,
                 failure := hits.foldl (fun a t => worse a { chunk := t.chunk, stage := t.stage, status := stKeysErased }) f.failure })
        |>.discardFlow i

/-- What an ENGINE reset does besides (R303, R322, R366, R394): sealed-data keys are zeroed, loaded HMAC slots and Lynx banks
reload, channels stop. -/
def State.engineIslandReset (s : State) (st : Status) : State :=
  let s1 := (s.disp.flows.map (·.1)).foldl (fun t i => t.eraseFlow i fun x => x.isGcmDecrypt || x.isGcmEncrypt) s
  let s2 := s1.failRunning (fun r => r.cls ≠ .media) st
  ((((s2.onSea fun e => { e with caches := [] }).digestIslandReset).lynxReload).dmaIslandReset).onDisp fun d =>
    { d with resetting := [], transfers := [] }

/-- A kernel is stopped by a reset: its task fails (R76). -/
def State.abortKernel (s : State) (h : Nat) (st : Status) : State :=
  match (s.hart h).kernel with
  | some k =>
    let s1 := s.endKernel h
    if k.phase = .stopping then (freeTask s1 k.task).discardFlow k.task.flow else s1.failTask k.task st
  | none => s

/-- A COMPUTE reset: every kernel's task fails; Squirrel slots and ready queues keep their tasks, and the caches are empty. HRT_FAULT_HEAD
takes its reset value with the island (R580); whether the entries of the fault log go with it the spec does not say (R562 names L3,
L4 and power-on): the model keeps them. DESIGN CHOICE (notes/assumptions/58.md). -/
def State.computeIslandReset (s : State) (st : Status) : State :=
  let s1 := (s.hrt.harts.map (·.1)).foldl (fun t h => t.abortKernel h st) s
  s1.onHrt fun x => { x with harts := Tbl.mapVals x.harts fun _ y => { y with resetting := false, icache := [], dcache := [] }, l2 := [] }

/-- A MEM reset: every channel goes to self-refresh and DRAM keeps its contents (R427). -/
def State.memIslandReset (s : State) : State :=
  s.onMem fun m => { m with reads := [], writes := [], rows := [], served := [], rewrites := [], armed := false, injected := false,
                            owlLap := 0, owlSramLap := 0, owlAt := 0, owlOverdue := false,
                            chans := Tbl.mapVals m.chans fun _ c => { c with selfRefresh := true } }

/-- A host read under way at a MEDIA island is reissued once after the reset; the second time it fails with Data Transfer
Error (R177). -/
def State.reissue (s : State) (w : Who) : State :=
  match s.ftl.reads.find? fun j => j.client = .host w with
  | none => s
  | some j =>
    if j.second then
      (s.withdraw fun c => c = .host w).complete w stDataTransfer 0 0
    else s.onFtl fun f => { f with reads := f.reads.map fun x => if x = j then { x with second := true } else x }

/-- The host commands that read at a LUN. -/
def hostReaders (x : Lun) : List Who :=
  ((x.queue ++ x.backlog ++ x.active ++ x.decoding).filterMap fun c => match c.op with
    | .read (.host w) _ => some w
    | _ => none).eraseDups

/-- A LUN through the reset of its island: reads under way go back to the queue, a program or an erase under way counts as
failed. -/
def State.resetLun (s : State) (l : Nat) : State :=
  let x := s.lun l
  let fresh := (x.decoding ++ x.active).filterMap fun c => match c.op with
    | .read cl cws => some { c with op := .read cl (cws.map fun w => ⟨w.cw, 1, 0, 0, 0⟩), aged := false }
    | _ => none
  let writes := (x.active ++ x.suspended).filter fun c => !c.isRead
  let s1 := s.setLun l { x with queue := [], backlog := fresh ++ x.queue ++ x.backlog, active := [], suspended := [], decoding := [],
                                readsBegun := 0, budgetOver := false }.refill
  writes.foldl (fun t c => t.writeFailed l c) s1

/-- Read-level offsets: those of an island from one table, the others from another (R173). -/
def ofIsland (n : Nat) (from_ others : Tbl Int) : Tbl Int :=
  (from_.filter fun e => e.1 / 8192 = n).foldl (fun t e => t.set e.1 e.2) (others.filter fun e => e.1 / 8192 ≠ n)

/-- A MEDIA reset: Trail read tasks fail, host reads are reissued once, its channels train again (R161, R177). -/
def State.mediaIslandReset (s : State) (n : Nat) (st : Status) : State :=
  let luns := (s.media.luns.filter fun e => e.1 / 512 = n).map (·.1)
  let reads := (luns.flatMap fun l => (s.lun l).queue ++ (s.lun l).backlog ++ (s.lun l).active ++ (s.lun l).decoding).filterMap fun c => match c.op with
    | .read (.trail f k) _ => some (f, k)
    | _ => none
  let s1 := s.failRunning (fun r => r.cls = .media && (r.unit = n || (r.task.flow, r.task.cslot) ∈ reads)) st
  let s2 := s1.withdraw fun c => match c with | .trail f k => (f, k) ∈ reads | _ => false
  let s3 := (luns.flatMap fun l => hostReaders (s2.lun l)).eraseDups.foldl State.reissue s2
  let s4 := luns.foldl State.resetLun s3
  (s4.onMedia fun m =>
    { m with committing := m.committing.filter fun c => c ≠ n, staged := ofIsland n m.committed m.staged }).mediaStart fun c => c / 8 = n

/-- A HOST reset: both links go down, which resets every function (R444). -/
def State.hostIslandReset (s : State) : State :=
  let s1 := s.portReset .a
  if s1.host.portB.present then s1.portReset .b else s1

/-- The memory groups whose banks an island holds (R418). -/
def groupOf (i : Island) (g : Nat) : Bool :=
  match i with
  | .engine => (decide (4 ≤ g) && decide (g < 12)) || decide (g = 20) || decide (g = 21)
  | .compute => decide (12 ≤ g) && decide (g < 20)
  | _ => false

/-- What the reset of one island does to its own state. -/
def State.islandEffect (s : State) (i : Island) (st : Status) : State :=
  match i with
  | .engine => s.engineIslandReset st
  | .compute => s.computeIslandReset st
  | .mem => s.memIslandReset
  | .host => s.hostIslandReset
  | .media0 => s.mediaIslandReset 0 st
  | .media1 => s.mediaIslandReset 1 st
  | .media2 => s.mediaIslandReset 2 st
  | .media3 => s.mediaIslandReset 3 st
  | _ => s

/-- The status of the tasks that a reset aborts (R76): BUS_ERROR where bridge errors led to it, else ENGINE_TIMEOUT. -/
def abortStatus (cause : Nat) : Status := if cause = 3 then stBusError else stEngineTimeout

/-- An island reset. Where the island does not reset alone, the next level acts (R18, R523); an island already in reset
stays so. -/
def State.l2Reset (s : State) (i : Island) (unit cause : Nat) : State :=
  if s.sys.phase ≠ .running then s
  else if i = .aon ∨ i = .sec then s.l4Reset i cause .escalation
  else if i = .ctrl then s.l3Reset i cause
  else if i ∈ s.sys.down then s
  else if 2 ≤ resetsWithin s 2 i 0xFF (60 * tSec) then s.l3Reset i 6
  else
    let s1 := (s.recordEsc 2 i unit cause).beginReset 2 i 0xFF
    let s2 := (s1.clearRegs (heldBy i)).islandEffect i (abortStatus cause)
    ((s2.applyFixes (groupOf i)).onSys fun y => { y with down := addOnce y.down i, irqSeenA := y.irqSeenA, irqSeenB := y.irqSeenB }).irq

/-! ## L1 (R76, R109, R303, R322, R327, R346, R366, R394) -/

/-- An engine: the classes whose units an L1 reset resets together. -/
def isEngine : UnitClass → Bool
  | .dma | .cipher | .digest | .codec | .lynx => true
  | _ => false

/-- The engine's own part of an L1 reset. `timedOut` is the DMA channel whose operation timed out. -/
def State.engineEffect (s : State) (cls : UnitClass) (timedOut : Option Nat) : State :=
  match cls with
  | .cipher => (s.onSea fun e => { e with caches := [] }).endTransfers .cipher
  | .codec => s.endTransfers .codec
  | .digest => s.digestReset
  | .lynx => s.lynxReload
  | .dma => s.dmaReset timedOut
  | _ => s

/-- An L1 reset of an engine: its running tasks fail, its queued and prefetched tasks keep their places. The fourth within
1 s resets the island. -/
def State.l1Reset (s : State) (cls : UnitClass) (cause : Nat) (timedOut : Option Nat) : State :=
  if 3 ≤ resetsWithin s 1 .engine (clsCode cls) tSec then s.l2Reset .engine (clsCode cls) 6
  else
    let s1 := (s.recordEsc 1 .engine (clsCode cls) cause).beginReset 1 .engine (clsCode cls)
    let s2 := (s1.failRunning (fun r => r.cls = cls) (abortStatus cause)).engineEffect cls timedOut
    s2.onDisp fun d => { d with resetting := addOnce d.resetting ⟨cls, 0⟩ }

/-- An L1 reset of a hart (R133): the fourth within 1 s resets COMPUTE. -/
def State.l1Hart (s : State) (h cause : Nat) : State :=
  if 3 ≤ resetsWithin s 1 .compute h tSec then s.l2Reset .compute h 6
  else
    let s1 := (s.recordEsc 1 .compute h cause).beginReset 1 .compute h
    s1.onHrt fun x => { x with harts := x.harts.set h { x.harts.getD h Hart.reset with resetting := true } }

/-- A reset of a hart does not complete: COMPUTE is reset, and every aborted task fails with BUS_ERROR (R133). -/
def State.hartResetFails (s : State) (h : Nat) : State :=
  let s1 := s.onSys fun y => { y with recovering := y.recovering.filter fun r => r ≠ ⟨1, .compute, h⟩ }
  ((s1.hrt.harts.map (·.1)).foldl (fun t h => t.abortKernel h stBusError) s1).l2Reset .compute h 5

/-! ## Alarms and thermal shutdown (R88, R299 to R303, R322, R514, R527, R540) -/

/-- Host reads under way need a media key: they fail with KEYS_ERASED (R300 step 4). -/
def State.failReads (s : State) : State :=
  let ws := s.ftl.reads.filterMap fun j => match j.client with | .host w => some w | _ => none
  ws.foldl (fun t w => (t.withdraw fun c => c = .host w).complete w stKeysErased 0 0) s

/-- The hottest trimmed reading, in steps of 0.25 °C; none before the first sample. -/
def hottest (s : State) : Option Int := match s.power.readings with | [] => none | r :: rs => some (maxInt r rs)
/-- A temperature in the encoding of PWR_TEMP: (°C + 64) × 4 (R550). -/
def tempCode (t : Int) : Nat := (clampInt (t + 256) 0 1023).toNat
/-- The first sensor with the hottest reading. -/
def hotSensor (s : State) : Nat := (s.power.readings.findIdx? fun r => some r = hottest s).getD 0
/-- PWR_TEMP (R550). -/
def pwrTemp (s : State) : W32 :=
  match hottest s with
  | none => 0
  | some t => w32 (hotSensor s * 2 ^ 28 + (match s.power.peak with | some p => tempCode p | none => 0) * 2 ^ 16 + tempCode t)

/-- Thermal shutdown (R540): both links go down, Trails end without a record, the islands are held in reset, and DRAM keeps
its contents. A dump under way is abandoned (R548). -/
def State.thermalShutdown (s : State) : State :=
  let times := (s.sys.shutdownTimes.filter fun t => decide (s.now < t + 3600 * tSec)) ++ [s.now]
  let s1 := (((s.addCnt (rPwrCount 4) 1).addLife (lifeEvent 3) 1).logEvent 6 2 0xFFFF (pwrTemp s) 0).stopAll
  (s1.dramSleep true).onSys fun y =>
    { y with phase := .thermalShutdown, shutdownTimes := times, recovering := [],
             down := [.host, .ctrl, .compute, .engine, .mem, .media0, .media1, .media2, .media3], gated := [] }

/-- The pipelines and what begins a flush forget their keys: transfers end, and a slot takes its key again once it is back (R300, R301). -/
def State.forgetKeys (s : State) : State :=
  (s.endTransfers .cipher).onFtl fun f => { f with slots := Tbl.mapVals f.slots fun _ x => { x with key := [] } }

/-- The command of an IMPORT that an append completes. -/
def Append.importer (a : Append) : Option Who := match a.then_ with | .loadKey w .. => some w | _ => none
/-- The command of an IMPORT whose stored copy is written. -/
def CfgWrite.importer : CfgWrite → Option Who
  | .append a => a.importer
  | _ => none

/-- An alarm during an IMPORT: it fails with KEYS_ERASED, its slot stays as it is, and nothing of it is appended (R303). -/
def State.failImports (s : State) : State :=
  let ws := s.health.cfg.filterMap CfgWrite.importer ++ s.boot.appends.filterMap Append.importer
  let s1 := (s.onHealth fun h => { h with cfg := h.cfg.filter fun c => c.importer.isNone }).onBoot fun b =>
    { b with appends := b.appends.filter fun a => a.importer.isNone }
  ws.foldl (fun t w => t.admin w stKeysErased 0) s1

/-- An alarm: every key is erased, what used a key fails, the alarm is reported and its ledger record requested. Before
CSTS.RDY at boot, boot restarts, and the third such alarm leads to boot hold. -/
def State.alarm (s : State) (a : AlarmCause) : State :=
  let s1 := ((s.eraseKeys a).forgetKeys).failImports
  let s2 := (s1.disp.flows.map (·.1)).foldl (fun t i => t.eraseFlow i Stage.isCipher) s1
  let s5 := (s2.failReads).alarmReport
  let s6 :=
    if s5.sys.phase = .booting then
      let t := s5.onSys fun y => { y with bootAlarms := y.bootAlarms + 1 }
      if 3 ≤ t.sys.bootAlarms then t.enterBootHold else t.bootStart t.boot.cause
    else s5
  if a = .overtemp ∧ (s6.sys.phase = .running ∨ s6.sys.phase = .booting ∨ s6.sys.phase = .dumping) then s6.thermalShutdown else s6

end Sys2Proof.Machine
end

