-- ==== Sys2Proof/Machine/WriteOps.lean ====
section
/-! DEFINITION. Operations of NVM commands and of the write path: what a command checks before it runs, the admission of
writes, the slots they take, their data, and the passage of time (R188, R193 to R197, R200, R212, R215, R457, R474 to
R477, R586). -/

namespace Sys2Proof.Machine

/-! ## Checks of an NVM command (R285, R301, R452, R457, R470) -/

/-- A reservation keeps a host from reading, or from writing, a namespace (R457; the NVMe base rules). -/
def Reservation.bars (r : Reservation) (host : List Byte) (write : Bool) : Bool :=
  let registered := r.registrants.any fun x => x.hostId = host
  match r.holder with
  | none => false
  | some h =>
    match r.type with
    | .writeExclusive => write && h ≠ host
    | .exclusiveAccess => h ≠ host
    | .writeExclusiveRegistrants | .writeExclusiveAll => write && !registered
    | .exclusiveAccessRegistrants | .exclusiveAccessAll => !registered

/-- The namespace is attached to the function; of a kind; not busy with a format that another controller began. -/
def State.nsGate (s : State) (f : Fn) (nsid : Nat) (kind : NsKind) : Except Status Ns :=
  match s.ns.find nsid with
  | none => .error stInvalidNs
  | some n =>
    if f ∉ n.attached then .error stInvalidNs
    else if n.kind ≠ kind then .error stInvalidOpcode
    else if n.erasing.any fun x => x.by_ ≠ f then .error stNotReady
    else .ok n

/-- The reservation of a namespace turns a function away. -/
def State.reserved (s : State) (f : Fn) (n : Ns) (write : Bool) : Bool := n.reservation.bars (s.ctrl f).hostId write

/-- The checks of a command on LBAs up to its range's key: namespace, MDTS where it applies, LBA range, reservation, Opal
locks and erased keys. -/
def State.nvmGate (s : State) (f : Fn) (nsid slba nlb : Nat) (write mdts : Bool) : Except Status Ns :=
  match s.nsGate f nsid .nvm with
  | .error st => .error st
  | .ok n =>
    if mdts ∧ 2 ^ 21 < nlb * n.lbaSize then .error stInvalidField
    else if n.nsze < slba + nlb then .error stLbaRange
    else if s.reserved f n write then .error stReservation
    else match (if write then writeBar s n slba nlb else readBar s n slba nlb) with
      | some st => .error st
      | none => .ok n

/-! ## Slots (R193, R196) -/

/-- The IUs that a deallocation of LBAs covers in part and that hold data: their LBAs are set to zeros in a slot (R65). -/
def zeroIus (s : State) (n : Ns) (slba nlb : Nat) : List Nat :=
  (iusOf n slba nlb).filter fun iu => !coversIu n slba nlb iu && (s.entryOf iu).st ≠ .unmapped

/-- Where the value of a Key Value Store goes. -/
def WaitingWrite.pieces (s : State) (n : Ns) (w : WaitingWrite) : List KvPiece :=
  match w.kind with
  | .kv key value => kvPieces s w.nsid n key value.length
  | _ => []

/-- The IUs that a waiting write needs slots for: a sink's zeros in part of an IU take one as its data does, a Key Value Store's are
those that its value goes to, and the whole IUs of a Write Zeroes take none. -/
def slotIus (s : State) (n : Ns) (w : WaitingWrite) : List Nat :=
  match w.kind with
  | .kv .. => kvIus n (w.pieces s n)
  | .zeroes => (iusOf n w.slba w.nlb).filter fun iu => !coversIu n w.slba w.nlb iu
  | .sink _ _ rest =>
    let data := iusOf n w.slba w.nlb
    data ++ (zeroIus s n (w.slba + w.nlb) rest).filter fun iu => iu ∉ data
  | .nvm => iusOf n w.slba w.nlb

/-- What fails a write at once, after its gate: part of a BAD IU, READ_ONLY, and a thin namespace without space
(R188, R194 steps 1 and 2). -/
def State.writeFails (s : State) (n : Ns) (w : WaitingWrite) : Option Status :=
  match partBad s n w.slba (w.nlb + w.kind.rest) with
  | some st => some st
  | none =>
    if readOnly s then some stWriteProtected
    else if thinSpent s n (slotIus s n w) then some stCapacity
    else none

/-- New slots that some IUs need. -/
def newSlots (s : State) (ius : List Nat) : Nat := (ius.filter fun iu => (openSlot s iu).isNone).length

/-- Take a slot for an IU that has none that is not yet flushing: the map names it, and the slot keeps the entry that it replaces,
which can be a slot still flushing (R193, R196). -/
def State.takeSlot (s : State) (nsid : Nat) (f : Fn) (iu : Nat) : State :=
  match openSlot s iu, Tbl.lowestFree s.ftl.slots 0 32768 with
  | none, some k =>
    let e := s.entryOf iu
    let x : Slot := { iu := iu, nsid := nsid, mask := 0, mem := [], prev := e, fn := f, acked := false, flushing := false,
                      compress := false, placed := none, programmed := false, merging := false, key := [] }
    (s.onFtl fun t => { t with slots := t.slots.set k x }).replaceEntry iu ⟨.buffer, 0, k⟩
  | _, _ => s

/-- Write bytes into the open slot of an IU. -/
def State.fillSlot (s : State) (iu off : Nat) (bytes : List Byte) : State :=
  match openSlot s iu with
  | some k => s.onSlot k fun x =>
      { x with mem := Mem.writeBytes (x.mem.clear off bytes.length) off bytes, mask := x.mask ||| spanMask off bytes.length,
               acked := true }
  | none => s

/-- Enter the data of some LBAs into the slots of their IUs. -/
def State.writeIus (s : State) (f : Fn) (nsid : Nat) (n : Ns) (slba nlb : Nat) (data : List Byte) (ius : List Nat) : State :=
  ius.foldl (fun t iu =>
    let (off, len, d) := iuSpan n slba nlb iu
    (t.takeSlot nsid f iu).fillSlot iu off (slice data d len)) s

/-! ## Admission (R194, R200, R212, R222, R255, R286, R476, R539) -/

/-- Bytes that a waiting write is charged. -/
def chargedBytes (s : State) (n : Ns) (w : WaitingWrite) : Nat :=
  match w.kind with
  | .kv _ v => v.length
  | .zeroes => ((slotIus s n w).map fun iu => (iuSpan n w.slba w.nlb iu).2.1).sum
  | .sink _ _ rest =>
    w.nlb * n.lbaSize + ((zeroIus s n (w.slba + w.nlb) rest).map fun iu => (iuSpan n (w.slba + w.nlb) rest iu).2.1).sum
  | .nvm => w.nlb * n.lbaSize

/-- The first waiting write that step 3 admits. A write that its own function holds back (its share, its budget) or that its
range or its map segment holds back lets other functions pass; one that lacks free slots lets pass only writes that need none. -/
def pickWrite (s : State) : List WaitingWrite → List Fn → Bool → Option (WaitingWrite × Ns)
  | [], _, _ => none
  | w :: ws, blocked, noSlots =>
    match s.ns.find w.nsid with
    | none => pickWrite s ws blocked noSlots
    | some n =>
      let ius := slotIus s n w
      let k := newSlots s ius
      let c := s.ctrl w.who.fn
      let own := decide (c.share.writeSlots < slotsHeld s w.who.fn + k) || (s.ftl.capNow.isSome && decide (c.budget ≤ 0)) ||
        writeHeldByRange n w.slba (w.nlb + w.kind.rest) || segBusy s (ius ++ iusOf n w.slba (w.nlb + w.kind.rest))
      if w.who.fn ∈ blocked then pickWrite s ws blocked noSlots
      else if own then pickWrite s ws (w.who.fn :: blocked) noSlots
      else if !w.kind.isSink ∧ queueRoom .wbuf ≤ queueFill s .wbuf then pickWrite s ws (w.who.fn :: blocked) noSlots
      else if k ≠ 0 ∧ (noSlots ∨ 32768 < s.ftl.slots.length + k) then pickWrite s ws (w.who.fn :: blocked) true
      else some (w, n)

/-- Step 3 admits at all: the free level is above FLOOR, writes are not stopped, and the dump could take more slots. -/
def admitsWrites (s : State) : Bool :=
  s.running && s.up .ctrl && s.up .mem && !s.power.writesStopped && !atFloor s && decide (s.ftl.slots.length < dumpSlots s)

/-- Charge a write against its function's budget. -/
def State.charge (s : State) (f : Fn) (bytes : Nat) : State :=
  if s.ftl.capNow.isSome then s.onCtrl f fun c => { c with budget := c.budget - bytes } else s

/-- Admit one write: its slots are taken and the map names them; a Write Zeroes is done at once; a sink gets its credit.
Bytes that fill no whole unit of event 0 count rounded up for each command, which R228 does not say. DESIGN CHOICE
(notes/assumptions/58.md). -/
def State.admitWrite (s : State) (w : WaitingWrite) (n : Ns) : State :=
  let ius := slotIus s n w
  let s1 := (s.onFtl fun f => { f with waiting := f.waiting.erase w }).charge w.who.fn (chargedBytes s n w)
  let s2 := (ius.foldl (fun t iu => t.takeSlot w.nsid w.who.fn iu) s1).bufPeak
  let s3 := s2.addCnt (rFtlCount 0) (ceilDiv (chargedBytes s n w) 1024)
  let a : AdmittedWrite := { who := w.who, kind := w.kind, nsid := w.nsid, slba := w.slba, nlb := w.nlb, pieces := w.pieces s n }
  match w.kind with
  | .zeroes =>
    let s4 := s3.writeIus w.who.fn w.nsid n w.slba w.nlb [] ius
    ((s4.unmapIus ((iusOf n w.slba w.nlb).filter fun iu => coversIu n w.slba w.nlb iu)).io w.who stOk 0).rekeyAdvance
  | .sink flow cslot _ =>
    let s4 := s3.onFtl fun f => { f with admitted := f.admitted ++ [a] }
    match s4.flow flow with
    | some f => match s4.entry flow (Trail.sinkIx f.trail) cslot with
      | some e => s4.creditToken e
      | none => s4
    | none => s4
  | _ => s3.onFtl fun f => { f with admitted := f.admitted ++ [a] }

/-- SMART counts of a write (R557). -/
def State.countWrite (s : State) (f : Fn) (bytes : Nat) : State := s.addLife (lifeSmart f 1) bytes

/-- The data of an admitted write is in the buffer. -/
def State.writeArrived (s : State) (a : AdmittedWrite) (n : Ns) (data : List Byte) : State :=
  (s.writeIus a.who.fn a.nsid n a.slba a.nlb data (iusOf n a.slba a.nlb)).onFtl fun f => { f with admitted := f.admitted.erase a }

/-- Store a Key Value pair: the hash index is authoritative, and an entry of the hot index stays valid (R368). -/
def Ns.kvPut (n : Ns) (r : KvRec) : Ns := { n with kv := (n.kv.filter fun e => e.key ≠ r.key) ++ [r] }

/-- The IUs that pairs no longer hold any byte of are deallocated. -/
def State.kvFreed (s : State) (n : Ns) (before : List Nat) : State :=
  s.unmapIus (before.filter fun iu => !(iu ∈ kvIus n (n.kv.flatMap (·.pieces))))

/-- The value of an admitted Key Value Store is in the buffer: its sectors, with what other pairs hold of them, are in the slots of its
IUs, and the pair stands (R194, R368). -/
def State.kvArrived (s : State) (a : AdmittedWrite) (n : Ns) (key value : List Byte) : State :=
  let n1 := n.kvPut { key := key, value := value, pieces := a.pieces }
  let old := kvIus n ((n.kv.filter fun r => r.key = key).flatMap (·.pieces))
  let s1 := (s.onFtl fun f => { f with admitted := f.admitted.erase a }).onNs fun t => t.set a.nsid n1
  let s2 := (kvIus n a.pieces).foldl (fun t iu =>
    let image := kvImage n1 (iu - n.base)
    let mask := kvSectors n a.pieces iu
    (List.range 32).foldl (fun u i =>
      if mask.getLsbD i then u.fillSlot iu (512 * i) (slice image (512 * i) 512) else u) (t.takeSlot a.nsid a.who.fn iu)) s1
  s2.kvFreed n1 old

/-! ## Time (R420, R421, R477, R586; notes/assumptions/7.md) -/

/-- Owl stands still: in HIBERNATE, during a dump, and while MEM does not answer (R421). -/
def owlStopped (s : State) : Bool := s.power.effective = .hibernate || !s.running || !s.up .mem

/-- So many 20-ns ticks pass: laps and pace waits run, and writes that wait behind no read drain to DRAM (R401, R413, R421). -/
def State.passTime (s : State) (n : Nat) : State :=
  let paced := s.dma.any fun e => e.2.paceWait && dmaBusy s e.1
  let s1 := if paced then s.addCnt (rDmaCount 5) (32 * n) else s
  let lap := if owlStopped s then 0 else n
  let idle := s.memory.reads.isEmpty
  (s1.onMem fun m => { m with owlLap := m.owlLap + lap, owlSramLap := m.owlSramLap + lap,
                              writes := if idle then [] else m.writes,
                              rows := if idle then m.writes.foldl (fun r w => r.set (s.locOf (64 * w.line)).bank (s.locOf (64 * w.line)).row) m.rows
                                      else m.rows }).onSys fun y => { y with ticks := y.ticks + n }

/-! ## The arbitration epoch (R474 to R478, R200, R212) -/

/-- An active function: CC.EN is 1 and it has an I/O submission queue. -/
def Ctrl.active (c : Ctrl) : Bool := bitAt c.cc 0 && c.queues.any fun q => !q.isCq

/-- The active functions of a port, with their weights. -/
def activeFns (s : State) (p : Port) : List (Fn × Nat) :=
  (s.host.ctrls.filter fun e => decide (portOfFn e.1 = p) && e.2.active).map fun e => (e.1, e.2.share.weight)

/-- The credits of an active function. -/
def creditsFor (active sum weight : Nat) : Nat := 16 + (16384 - 16 * active) * weight / (if sum = 0 then 1 else sum)

/-- Recompute the credits of a port. -/
def State.portCredits (s : State) (p : Port) : State :=
  let fs := activeFns s p
  let sum := (fs.map (·.2)).sum
  let s1 := (s.host.ctrls.filter fun e => portOfFn e.1 = p).foldl (fun t e => t.onCtrl e.1 fun c => { c with credits := 0 }) s
  fs.foldl (fun t e => t.onCtrl e.1 fun c => { c with credits := creditsFor fs.length sum e.2 }) s1

/-- The cap of an epoch in bytes: that of the spare stage, and below URGENT what relocation freed in the last epoch. -/
def epochCap (s : State) : Option Nat :=
  let stage := if s.ftl.spareStage = 1 then some 8000000 else if s.ftl.spareStage = 2 then some 1000000 else none
  let urgent := if freeBelow s (thUrgent s) then some (s.ftl.freedEpoch * 1024) else none
  match stage, urgent with
  | some a, some b => some (Nat.min a b)
  | some a, none => some a
  | none, b => b

/-- Give the functions with waiting writes their part of a cap; a debt is paid first, and a rest does not carry over. -/
def State.epochBudgets (s : State) : State :=
  let cap := epochCap s
  let fns := (s.ftl.waiting.map fun w => w.who.fn).eraseDups
  let sum := (fns.map fun f => (s.ctrl f).share.weight).sum
  let s1 := s.onFtl fun f => { f with capNow := cap, freedEpoch := 0 }
  s1.host.ctrls.foldl (fun t e => t.onCtrl e.1 fun c =>
    match cap with
    | none => { c with budget := 0 }
    | some b =>
      let part : Int := if e.1 ∈ fns then ((b * c.share.weight / (if sum = 0 then 1 else sum) : Nat) : Int) else 0
      { c with budget := (if c.budget < 0 then c.budget else 0) + part }) s1

/-- Shares that wait for the boundary take effect, and their commands complete with the epoch (R478). -/
def State.applyShares (s : State) : State :=
  s.host.ctrls.foldl (fun t e =>
    match e.2.pendShare.getLast? with
    | none => t
    | some x =>
      let t1 := (t.onCtrl e.1 fun c => { c with share := x.2, pendShare := [], shareEpoch := (t.reg rVinEpoch).toNat }).cfgWrite .note
      e.2.pendShare.foldl (fun u p => u.admin p.1 stOk (t.reg rVinEpoch)) t1) s

end Sys2Proof.Machine
end

