-- ==== Sys2Proof/Machine/Ftl.lean ====
section
/-! DEFINITION. The meanings of the NVM I/O commands and of the events of the write path, relocation and the map
(R188 to R222, R452, R477). -/

namespace Sys2Proof.Machine

/-! ## NVM commands (R188, R194, R452) -/

/-- A write that has passed its checks waits at step 3. -/
def State.enterWrite (s : State) (w : Who) (kind : WriteKind) (nsid slba nlb : Nat) : State :=
  s.onFtl fun f => { f with waiting := f.waiting ++ [{ who := w, kind := kind, nsid := nsid, slba := slba, nlb := nlb }] }

/-- A write or a Write Zeroes: its checks, then the admission rule. -/
def State.submitWrite (s : State) (w : Who) (kind : WriteKind) (nsid slba nlb : Nat) (mdts : Bool) : State :=
  match s.nvmGate w.fn nsid slba nlb true mdts with
  | .error st => s.io w st 0
  | .ok n => match s.writeFails n { who := w, kind := kind, nsid := nsid, slba := slba, nlb := nlb } with
    | some st => s.io w st 0
    | none => s.enterWrite w kind nsid slba nlb

def execNvmWrite (w : Who) (nsid slba nlb : Nat) (s : State) : Host.Outcome State Fault Refusal :=
  .next (if s.ioReady w then (s.asClass w 1).submitWrite w .nvm nsid slba nlb true else s)

def execWriteZeroes (w : Who) (nsid slba nlb : Nat) (s : State) : Host.Outcome State Fault Refusal :=
  .next (if s.ioReady w then s.submitWrite w .zeroes nsid slba nlb false else s)

/-- A command whose access to MEM meets its bridge error while the island is in reset: the map lookup and the buffer lie there
(R15, R16, R20, R427). -/
def State.memMissed (s : State) (w : Who) (source : Island) : State := (s.noteBridge .mem source).io w stDataTransfer 0

/-- A read of some LBAs begins: its media reads are queued, and it ends at once when it needs none. While the map segment
of one of its IUs is rebuilt, it waits (R221). -/
def State.submitRead (s : State) (w : Who) (kind : ReadKind) (nsid slba nlb : Nat) (mdts : Bool) : State :=
  match s.nvmGate w.fn nsid slba nlb false mdts with
  | .error st => s.io w st 0
  | .ok n =>
    let ius := iusOf n slba nlb
    match dramMiss s (DataPath.hostRead.ports false) with
    | some i => s.memMissed w i
    | none =>
      let job : ReadJob := { client := .host w, kind := kind, nsid := nsid, slba := slba, nlb := nlb, wait := 0, failed := none,
                             second := false, again := false }
      if segBusy s ius then s.onFtl fun f => { f with reads := f.reads ++ [job] }
      else s.runJob job (mediaEntries s (needsOf n slba nlb))

def execNvmRead (w : Who) (nsid slba nlb : Nat) (s : State) : Host.Outcome State Fault Refusal :=
  .next (if s.ioReady w then (s.asClass w 0).submitRead w .read nsid slba nlb true else s)

/-- A Compare; host data that could not be read ends it with Data Transfer Error (R445). -/
def execCompare (w : Who) (nsid slba nlb : Nat) (data : Option (List Byte)) (s : State) : Host.Outcome State Fault Refusal :=
  .next (if s.ioReady w then
    match data with
    | some d => s.submitRead w (.compare d) nsid slba nlb true
    | none => s.io w stDataTransfer 0
  else s)

def execVerify (w : Who) (nsid slba nlb : Nat) (s : State) : Host.Outcome State Fault Refusal :=
  .next (if s.ioReady w then s.submitRead w .verify nsid slba nlb false else s)

/-- Why a range of a deallocation fails: outside the namespace, a write lock, or part of a BAD IU (R188, R285). -/
def rangeFails (s : State) (n : Ns) (r : LbaRange) : Option Status :=
  if n.nsze < r.slba + r.nlb then some stLbaRange
  else if (n.rangesOver r.slba r.nlb).any fun x => x.writeEnabled && x.writeLocked then some stAccessDenied
  else partBad s n r.slba r.nlb

/-- The IUs that a range covers whole. -/
def wholeIus (n : Ns) (r : LbaRange) : List Nat := (iusOf n r.slba r.nlb).filter fun iu => coversIu n r.slba r.nlb iu

/-- A Dataset Management: every range is checked before any changes (R188). -/
def execDatasetManagement (w : Who) (nsid : Nat) (deallocate : Bool) (ranges : List LbaRange) (s : State) :
    Host.Outcome State Fault Refusal :=
  .next (if s.ioReady w then
    match s.nsGate w.fn nsid .nvm with
    | .error st => s.io w st 0
    | .ok n =>
      if s.reserved w.fn n true then s.io w stReservation 0
      else if !deallocate then s.io w stOk 0
      else match ranges.findSome? (rangeFails s n) with
        | some st => s.io w st 0
        | none => (ranges.foldl (fun t r => t.unmapIus (wholeIus n r)) s).io w stOk 0
  else s)

/-- Flush completes at once: there is no volatile write cache (R452). -/
def execFlush (w : Who) (nsid : Nat) (s : State) : Host.Outcome State Fault Refusal :=
  .next (if s.ioReady w then
    if nsid = 0xFFFFFFFF then s.io w stOk 0
    else match s.ns.find nsid with
      | some n => s.io w (if w.fn ∈ n.attached then stOk else stInvalidNs) 0
      | none => s.io w stInvalidNs 0
  else s)

/-! ## The write path (R194 to R197) -/

/-- Step 3 of R194 admits the first waiting write that it can. -/
def execWriteAdmit (s : State) : Host.Outcome State Fault Refusal :=
  .next (if admitsWrites s then
    match pickWrite s s.ftl.waiting [] false with
    | some (w, n) => s.admitWrite w n
    | none => s
  else s)

/-- The last data byte of a write is in the buffer, or its host data could not be read; the completion follows (R195). -/
def execWriteDataDone (w : Who) (data : Option (List Byte)) (s : State) : Host.Outcome State Fault Refusal :=
  .next (if !(s.running && s.up .host) then s
  else match s.ftl.admitted.find? fun a => a.who = w && !a.kind.isSink with
    | none => s
    | some a => match dramMiss s (DataPath.hostWrite.ports true), data, s.ns.find a.nsid with
      | some i, _, _ => ((s.discardWrite a).memMissed w i).rekeyAdvance
      | none, some d, some n => match a.kind with
        | .kv key value =>
          ((((s.kvArrived a n key value).countWrite w.fn value.length).io w stOk 0).bufPeak).rekeyAdvance
        | _ => ((((s.writeArrived a n d).countWrite w.fn (a.nlb * n.lbaSize)).io w stOk 0).bufPeak).rekeyAdvance
      | none, _, _ => ((s.discardWrite a).io w stDataTransfer 0).rekeyAdvance)

/-- The key of a slot's range is in the key store (R301). -/
def slotKeyed (s : State) (x : Slot) : Bool := !(iuKey s x.iu).isEmpty

/-- The flush of a slot begins, at the latest 1 ms after its first acknowledgement (R197). -/
def execSlotFlushStart (slot : Nat) (s : State) : Host.Outcome State Fault Refusal :=
  .next (match s.slot slot with
    | some x =>
      if s.running ∧ s.up .ctrl ∧ s.up .engine ∧ s.up .mem ∧ !s.power.writesStopped ∧ x.acked ∧ (!x.flushing ∨ x.waitsBand) ∧ slotKeyed s x ∧
          !iuAwaited s x.iu then s.flushSlot slot
      else s
    | none => s)

/-- Flush the whole write buffer, close every open stripe, and write the journal's tail (R448, R542). -/
def State.flushAll (s : State) : State :=
  let ks := (s.ftl.slots.filter fun e => e.2.acked && (!e.2.flushing || e.2.waitsBand) && slotKeyed s e.2 && !iuAwaited s e.2.iu).map (·.1)
  let s1 := ks.foldl State.flushSlot s
  let s2 := ((s1.ftl.bands.filter fun e => e.2.st = .opened).map (·.1)).foldl State.fillStripe s1
  s2.journalFlush

/-- The limit of an open stripe has passed: filler takes its unfilled members (R197, R207). -/
def execStripeCloseTimeout (band stripe : Nat) (s : State) : Host.Outcome State Fault Refusal :=
  .next (match s.stripe band stripe, s.band band with
    | some t, some x =>
      if s.running ∧ s.up .ctrl ∧ !s.power.writesStopped ∧ t.st = 1 ∧ x.fill / (16 * geomD x.geom) = stripe ∧
          x.fill % (16 * geomD x.geom) ≠ 0 then s.fillStripe band
      else s
    | _, _ => s)

/-! ## Relocation (R200, R201) -/

/-- A member slot of a band is on a retired block. -/
def retiredSlot (s : State) (x : Band) (p : Nat) : Bool :=
  match x.members[p]? with | some m => (s.block (blockNo s m.1 m.2)).retired | none => false

/-- A band holds a block retired with valid data in its other blocks. -/
def holdsRetired (s : State) (b : Nat) (x : Band) : Bool :=
  (List.range x.members.length).any (retiredSlot s x) &&
  ((bandValid s b).map (fun e => (⟨.media, e.2.units, e.1⟩ : MapEntry)) ++
    (bandSegments s b).map (fun p => (⟨.media, 16, p.addr⟩ : MapEntry))).any fun e =>
    (pageParts s e).any fun q => !retiredSlot s x (pageSlot x.geom q.page)

/-- Closed bands that may be victims: not in a region under reshape (R260). -/
def victims (s : State) : List (Nat × Band) :=
  s.ftl.bands.filter fun e => e.2.st = .closed && (s.region (e.1 / 4096)).st ≠ .reshaping

/-- Greedy: the band with the fewest valid units, the lowest number on a tie. -/
def greedyBand (s : State) : List (Nat × Band) → Option (Nat × Nat) → Option (Nat × Nat)
  | [], best => best
  | e :: es, best =>
    let v := validUnits s e.1
    greedyBand s es (match best with
      | none => some (e.1, v)
      | some x => if v < x.2 then some (e.1, v) else some x)

/-- (1 − u) × a / (1 + u) of a band as a fraction. -/
def benefit (s : State) (e : Nat × Band) : Nat × Nat :=
  let units := bandUnits s e.2.geom
  let v := validUnits s e.1
  ((units - v) * ((s.now - e.2.closedAt) / tSec), units + v)

/-- Cost-benefit: the band with the highest benefit, the lowest number on a tie. -/
def benefitBand (s : State) : List (Nat × Band) → Option (Nat × Nat × Nat) → Option (Nat × Nat × Nat)
  | [], best => best
  | e :: es, best =>
    let v := benefit s e
    benefitBand s es (match best with
      | none => some (e.1, v.1, v.2)
      | some x => if x.2.1 * v.2 < v.1 * x.2.2 then some (e.1, v.1, v.2) else some x)

/-- Badger's choice: a refresh candidate, a band with a retired block, else by the selection of the mode; below GC_START
only (R200, R201). -/
def chooseVictim (s : State) : Option Nat :=
  let vs := victims s
  match vs.find? fun e => e.2.refresh with
  | some e => some e.1
  | none =>
    if !freeBelow s (thGcStart s) then none
    else match vs.find? fun e => holdsRetired s e.1 e.2 with
      | some e => some e.1
      | none =>
        if s.power.effective = .endure then (benefitBand s vs none).map (·.1) else (greedyBand s vs none).map (·.1)

/-- Badger takes its next victim, or copies that found no place go on; segment writing goes first while it has precedence (R202, R219). -/
def execBadgerVictimSelect (s : State) : Host.Outcome State Fault Refusal :=
  .next (if s.running ∧ s.up .ctrl ∧ s.up .mem ∧ s.up .engine ∧ !s.power.writesStopped ∧ !s.ftl.segFirst then
    if s.ftl.victim.isSome then s.placeWaiting
    else match chooseVictim s with
    | some v => (match s.str.rebuild with
        | some r => if r.band = v then s.dropRebuild.eraseBlocks [(r.lun, r.block)] else s
        | none => s).beginVictim v
    | none => s
  else s)

/-! ## The map's journal and segments (R218 to R221) -/

/-- A journal page is written 1 ms after its first record. -/
def execJournalPageTimeout (s : State) : Host.Outcome State Fault Refusal :=
  .next (if s.running then s.journalFlush else s)

/-- A segment of the map, or of the block table, is dirty. -/
def segmentDirty (s : State) (segment : Nat) : Bool :=
  if firstBlockSegment ≤ segment then (s.ftl.blockDirty.find (segment - firstBlockSegment)).isSome else (s.ftl.dirty.find segment).isSome

/-- A dirty segment of the map or of the block table is written to the open map band (R216, R219, R234). -/
def execMapSegmentTimeout (segment : Nat) (s : State) : Host.Outcome State Fault Refusal :=
  .next (if s.running ∧ s.up .mem ∧ !s.power.writesStopped ∧ segmentDirty s segment ∧ segment ∉ s.ftl.segRebuild then s.writeSegment segment
  else s)

/-- The rebuild of a map segment ends: what waited for its IUs goes on (R221). -/
def execMapSegmentRebuildDone (segment : Nat) (s : State) : Host.Outcome State Fault Refusal :=
  .next (if segment ∈ s.ftl.segRebuild then
    let s1 := s.onFtl fun f => { f with segRebuild := f.segRebuild.erase segment }
    let s2 := s1.ftl.slots.foldl (fun t e => t.flipSlot e.1) s1
    let s3 := s2.ftl.copies.foldl (fun t c => t.flipCopy c) s2
    (s3.freeSlots.victimCheck).startHeldReads
  else s)

end Sys2Proof.Machine
end

