-- ==== Sys2Proof/Machine/RegOps.lean ====
section
/-! DEFINITION. What a write of a register does: which fields are RW or RWL, what locks them, which writes the manual has the
G9 ignore, what CLR_COUNTERS and LOCK do, and the write-one-to-clear fields (R6, R7, R577 to R580 and the field tables). -/

namespace Sys2Proof.Machine

/-! ## Locks (R578, R579) -/

/-- The control register, with the lock bit, of the block of an offset. -/
def lockReg (off : Nat) : Option Nat :=
  if off < 0x100000 then some rTopCtl else if off < 0x200000 then some rDspCtl else if off < 0x400000 then some rTrlCtl
  else if off < 0x600000 then some rHrtCtl else if off < 0x700000 then some rDmaGlbCtl else if off < 0x780000 then some rSeaCtl
  else if off < 0x7C0000 then some rDgsCtl else if off < 0x800000 then some rRleCtl else if off < 0xC00000 then some rLnxCtl
  else if off < 0xD00000 then some rMemCtl else if off < 0xE00000 then some rEccCtl
  else if off < 0xF00000 then some (rMedCtl ((off - 0xE00000) / 0x40000))
  else if off < 0x1E00000 then none
  else if off < 0x2000000 then some rFtlCtl else if off < 0x2100000 then some rStrCtl else if off < 0x2400000 then some rVinCtl
  else if off < 0x2500000 then some rPwrCtl else if off < 0x2600000 then some rTlmCtl else none

/-- The block of an offset is locked. -/
def State.locked (s : State) (off : Nat) : Bool := match lockReg off with | some c => s.regBit c 31 | none => false

/-- The offset is a block's control register. -/
def isCtl (off : Nat) : Bool := lockReg off = some off

/-! ## Writable fields -/

/-- The RW fields of the registers outside MEDIA windows. -/
def rwFields : List (Nat × Nat) :=
  [(rTopScratch, 0xFFFFFFFF), (rDspFlowSel, 0xFFF), (rHrtModuleSel, 0xFF), (rStrLunSel, 0x7FF), (rSeaSlotSel, 0x83FF),
   (rSeaNonceSel, 0xFF), (rDgsStart, 0x3FF0F), (rDgsFinish, 0x7), (rDgsHmacSel, 0xFF), (rDgsHmacLoad, 0xFFFF0F),
   (rLnxTblSel, 0xF), (rLnxTblCfg, 0x7FD1F03), (rLnxTblBanks, 0xFFFF), (rLnxEntSel, 0x3FFFF), (rLnxEntAttr, 0x87FFFFFF),
   (rMemSeedSel, 0x3F7), (rEccLogSel, 0x1F1F), (rEccInject, 0x1FFFFF), (rEccInjectLo, 0xFFFFFFFF), (rEccInjectHi, 0xFFFFFFFF),
   (rPwrTsensSel, 0xF)]

/-- The RWL fields of the registers outside MEDIA windows. -/
def rwlFields : List (Nat × Nat) :=
  [(rTopIrqCfg .a, 0x83FF07FF), (rTopIrqCfg .b, 0x83FF07FF), (rDspCtl, 0x10000), (rDspThresh, 0xFFFF), (rHrtCtl, 0xFF),
   (rDmaPace 2, 0xFFFF), (rDmaPace 3, 0xFFFF), (rDmaPace 4, 0xFFFF), (rDmaPace 5, 0xFFFF), (rDmaPace 8, 0xFFFF),
   (rSeaFaultCfg, 0x3F), (rLnxLapCfg, 0xFF), (rMemCtl, 3), (rEccCtl, 1), (rEccOwlCfg, 0xFFFF00FF), (rFtlThresh, 0xFFFFFF),
   (rFtlRdThresh, 0xFFFFFF), (rStrCtl, 3), (rStrReshapeCtl, 3), (rVinCtl, 1)]

/-- The mask of a list of fields at an offset. -/
def maskAt (fs : List (Nat × Nat)) (off : Nat) : Nat := match fs.find? fun e => e.1 = off with | some e => e.2 | none => 0

/-- RW bits of a register. -/
def rwMask (off : Nat) : W32 :=
  if 0xE00000 ≤ off ∧ off < 0xF00000 then (if (off - 0xE00000) % 0x40000 = 0x100 then 0x1FFF#32 else 0)
  else if (rDgsExpect 0 ≤ off ∧ off < rDgsExpect 16) ∨ (rDgsHmacBlob 0 ≤ off ∧ off < rDgsHmacBlob 34) ∨
      (rLnxEntKey 0 ≤ off ∧ off < rLnxEntKey 8) then 0xFFFFFFFF#32
  else w32 (maskAt rwFields off)

/-- RWL bits of a register. -/
def rwlMask (off : Nat) : W32 :=
  if 0xE00000 ≤ off ∧ off < 0xF00000 then
    match (off - 0xE00000) % 0x40000 with
    | 0x0 => 0x100FF#32
    | 0x4 => 0xFFFFFF#32
    | 0x8 => 0xFFFF#32
    | _ => 0
  else if rMemPortCfg 0 ≤ off ∧ off < rMemPortCfg 8 then 0x3FF#32
  else w32 (maskAt rwlFields off)

/-- HIGH of a pace target is at most its depth less the entries reserved for NVM (R385, R397). -/
def paceRoom (off : Nat) : Nat :=
  if off = rDmaPace 2 ∨ off = rDmaPace 4 then 48 else if off = rDmaPace 3 then 96 else if off = rDmaPace 5 then 24 else 16

/-- The G9 takes the RWL fields of this write (R114, R179, R180, R224, R370, R397, R432, R585). -/
def writeTaken (s : State) (off : Nat) (v : W32) : Bool :=
  if 0xE00000 ≤ off ∧ off < 0xF00000 then
    match (off - 0xE00000) % 0x40000 with
    | 0x4 => decide (0 < fld v 23 16) && decide (10 ≤ fld v 15 8) && decide (0 < fld v 7 0)
    | 0x8 => decide (10 ≤ fld v 15 8) && decide (fld v 15 8 ≤ 50) && decide (5 ≤ fld v 7 0) && decide (fld v 7 0 ≤ 50)
    | _ => true
  else if off = rDspThresh then decide (fld v 7 0 < fld v 15 8) && decide (fld v 15 8 ≤ 240)
  else if off = rFtlThresh then decide (5 ≤ fld v 7 0) && decide (fld v 7 0 < fld v 15 8) && decide (fld v 15 8 < fld v 23 16) &&
    decide (fld v 23 16 ≤ 200)
  else if off = rLnxLapCfg then decide (0 < fld v 7 0)
  else if rDmaPace 0 ≤ off ∧ off < rDmaPace 9 then decide (fld v 7 0 < fld v 15 8) && decide (fld v 15 8 ≤ paceRoom off)
  else if rMemPortCfg 0 ≤ off ∧ off < rMemPortCfg 8 then
    decide (off ≠ rMemPortCfg 5) && decide (off ≠ rMemPortCfg 6) && decide (100 ≤ fld v 9 0) && decide (fld v 9 0 ≤ 1000)
  else if off = rTopIrqCfg .b then s.sys.portSplit
  else if off = rStrCtl ∨ off = rStrReshapeCtl then decide (fld v 1 0 ≠ 3)
  else true

/-- The RWL value that a write asks for: fields that the manual keeps where their own value is refused keep it (R305, R434). -/
def writeValue (s : State) (off : Nat) (v : W32) : W32 :=
  let old := s.reg off
  let keep := fun (x : W32) (m : W32) => (x &&& ~~~m) ||| (old &&& m)
  if off = rSeaFaultCfg then
    let v1 := if fld v 5 4 = 3 then keep v 0x30#32 else v
    let v2 := if fld v 3 2 = 3 then keep v1 0xC#32 else v1
    if fld v 1 0 = 3 then keep v2 0x3#32 else v2
  else if off = rEccOwlCfg then
    let v1 := if fld v 31 16 = 0 then keep v 0xFFFF0000#32 else v
    if fld v 7 0 = 0 ∨ 20 < fld v 7 0 then keep v1 0xFF#32 else v1
  else v


/-- A saved field that was written goes to the configuration area (R580). -/
def State.saveField (s : State) (off : Nat) : State :=
  match savedFields.find? fun e => e.1 = off with
  | some _ => s.cfgWrite (.register off (s.reg off))
  | none => s

/-- Apply the RW and RWL fields of a write. -/
def State.writeFields (s : State) (off : Nat) (v : W32) : State :=
  let s1 := if rwMask off = 0 then s else s.setBits off (rwMask off) v
  if rwlMask off = 0 ∨ s.locked off ∨ !writeTaken s off v then s1
  else (s1.setBits off (rwlMask off) (writeValue s off v)).saveField off

/-! ## CLR_COUNTERS and LOCK (R7, R113, R223, R304, R429, R434, R549) -/

/-- Clear the 64-bit counts of a window. -/
def State.clearCounts (s : State) (lo hi : Nat) : State :=
  s.onRegs fun r => { r with count := r.count.filter fun e => !(decide (lo ≤ e.1) && decide (e.1 < hi)) }
/-- Return registers to their reset values. -/
def State.resetRegs (s : State) (offs : List Nat) : State := offs.foldl (fun t o => t.setReg o (resetValue o)) s

/-- The CLR_COUNTERS bit of a control register. -/
def clrBit (ctl : Nat) : Option Nat :=
  if ctl = rTopCtl ∨ ctl = rDspCtl ∨ ctl = rTrlCtl ∨ ctl = rDmaGlbCtl ∨ ctl = rSeaCtl ∨ ctl = rDgsCtl ∨ ctl = rRleCtl ∨
      ctl = rLnxCtl ∨ ctl = rFtlCtl then some 0
  else if ctl = rHrtCtl ∨ ctl = rStrCtl ∨ ctl = rMemCtl ∨ ctl = rEccCtl ∨ ctl = rPwrCtl then some 8
  else none

/-- What CLR_COUNTERS of a block clears. -/
def State.clrBlock (s : State) (ctl : Nat) : State :=
  if ctl = rTopCtl then s.resetRegs [rBridgeErrCount]
  else if ctl = rDspCtl then
    (s.resetRegs ([rDspPeak, rDspFaults] ++ (List.range 8).map rDspQueue)).clearCounts 0x100000 0x200000
  else if ctl = rTrlCtl then s.clearCounts 0x200000 0x400000
  else if ctl = rHrtCtl then (s.setReg rHrtFaultHead (s.reg rHrtFaultHead &&& 0x3F#32)).clearCounts 0x400000 0x600000
  else if ctl = rDmaGlbCtl then s.clearCounts 0x600000 0x700000
  else if ctl = rSeaCtl then s.clearCounts 0x700000 0x780000
  else if ctl = rDgsCtl then s.clearCounts 0x780000 0x7C0000
  else if ctl = rRleCtl then s.clearCounts 0x7C0000 0x800000
  else if ctl = rLnxCtl then s.clearCounts 0x800000 0xC00000
  else if ctl = rMemCtl then (s.resetRegs ((List.range 8).map rMemPortStat)).clearCounts 0xC00000 0xD00000
  else if ctl = rEccCtl then s.resetRegs ((List.range 22).map rEccCe ++ (List.range 22).map rEccUe)
  else if ctl = rFtlCtl then (s.setReg rFtlBuf (w32 (s.ftl.slots.length * 2 ^ 16))).clearCounts 0x1E00000 0x2000000
  else if ctl = rStrCtl then s.clearCounts 0x2000000 0x2100000
  else if ctl = rPwrCtl then (s.onPower fun p => { p with peak := none }).clearCounts 0x2400000 0x2500000
  else s

/-- A write of a control register: its RW and RWL fields, CLR_COUNTERS, then LOCK. -/
def State.ctlWrite (s : State) (ctl : Nat) (v : W32) : State :=
  let s1 := s.writeFields ctl v
  let s2 := match clrBit ctl with | some b => if bitAt v b then s1.clrBlock ctl else s1 | none => s1
  if bitAt v 31 then s2.setReg ctl (s2.reg ctl ||| 0x80000000#32) else s2

/-! ## Fields with a place of their own (R173, R183, R431, R552) -/

/-- The staging-table key that MED_CAL_SEL of island n selects: global LUN × 16 + level. -/
def calKey (s : State) (n : Nat) : Nat := (n * 512 + s.regFld (rMedCalSel n) 8 0) * 16 + s.regFld (rMedCalSel n) 12 9
def calLevel (s : State) (n : Nat) : Nat := s.regFld (rMedCalSel n) 12 9

/-- A write of MED_UCAL_DATA. -/
def State.stageOffset (s : State) (n : Nat) (v : W32) : State :=
  if s.locked (rMed n) ∨ n ∈ s.media.committing ∨ s.board.levels ≤ calLevel s n then s
  else s.onMedia fun m => { m with staged := Tbl.put 0 m.staged (calKey s n) (signed 6 (fld v 5 0)) }

/-- A seed is selected: parameter 0 to 4, lane 0 to 4, and VREF_CA has lane 0 only (R405). -/
def seedValid (s : State) : Bool :=
  let p := s.regFld rMemSeedSel 6 4
  let l := s.regFld rMemSeedSel 2 0
  decide (p ≤ 4) && decide (l ≤ 4) && (decide (p ≠ 4) || decide (l = 0))
def seedKey (s : State) : Nat := s.regFld rMemSeedSel 9 0

/-- A write of MEM_SEED_USER. -/
def State.seedWrite (s : State) (v : W32) : State :=
  if s.locked rMemCtl ∨ !seedValid s then s
  else (s.onMem fun m => { m with seedUser := Tbl.put 0 m.seedUser (seedKey s) (signed 5 (fld v 4 0)) }).cfgWrite
    (.seed (seedKey s) (signed 5 (fld v 4 0)))

/-- A write of PWR_TSENS_USER. -/
def State.sensorWrite (s : State) (v : W32) : State :=
  if s.locked rPwrCtl then s
  else (s.onPower fun p => { p with tsensUser := Tbl.put 0 p.tsensUser (s.regFld rPwrTsensSel 3 0) (signed 4 (fld v 3 0)) }).bumpGen 0xC6 |>.cfgWrite
    (.sensor (s.regFld rPwrTsensSel 3 0) (signed 4 (fld v 3 0)))

/-! ## Write-one-to-clear fields -/

/-- Clear the written ones of a register that holds its own bits. -/
def State.clearOnes (s : State) (off : Nat) (m v : W32) : State := s.setReg off (s.reg off &&& ~~~(v &&& m))

/-- The write-one-to-clear fields that have no row of their own: the OVERFLOW bits, DSP_ECC_STATUS UE_VALID, MED_UCAL_COMMIT
FAIL, STR_RESHAPE_STATUS REFUSED, SEA_ALARM_STATUS and LNX_TBL_INFO REFUSED. -/
def State.writeClears (s : State) (off : Nat) (v : W32) : State :=
  if off = rBridgeErr ∨ off = rRleErr ∨ off = rLnxErr ∨ off = rEccUeStatus then s.clearOnes off 0x40000000#32 v
  else if off = rDmaErrStatus then s.clearOnes off 0x20000000#32 v
  else if off = rDspEcc then s.clearOnes off 0x80000000#32 v
  else if off = rLnxTblInfo then s.clearOnes off 0x20000000#32 v
  else if 0xE00000 ≤ off ∧ off < 0xF00000 ∧ (off - 0xE00000) % 0x40000 = 0x10C then s.clearOnes off 0x40000000#32 v
  else if off = rStrReshapeStatus then
    if bitAt v 30 then s.onStr fun t => { t with reshape := { t.reshape with refused := false } } else s
  else if off = rSeaAlarm then s.onSea fun e => { e with alarms := e.alarms.filter fun a => !bitAt v (alarmBit a) }
  else s

/-! ## Mailbox registers (R482, R498) -/

/-- The instance and the register of a mailbox window that a requester reaches: a manager its own port's instances, an
instance its own side, firmware none (R482). -/
def mailboxOf (s : State) (r : Requester) (off : Nat) : Option (Fn × Bool × Nat) :=
  match r with
  | .vf f => if 0x7000 ≤ off ∧ off < 0x708C ∧ !isManager f then some (f, false, off - 0x7000) else none
  | .firmware _ | .security => none
  | _ =>
    let f := (off - 0x2108000) / 0x100
    if 0x2108000 ≤ off ∧ off < rMbx 512 ∧ fnValid f ∧ !isManager f ∧ some (managerFn (portOfFn f)) = requesterFn r ∧ s.fnExists f then
      some (f, true, (off - 0x2108000) % 0x100)
    else none

/-- One side of a mailbox. -/
def Ctrl.side (c : Ctrl) (manager : Bool) : MbxSide := if manager then c.mbxMgr else c.mbxInst
def Ctrl.onSide (c : Ctrl) (manager : Bool) (g : MbxSide → MbxSide) : Ctrl :=
  if manager then { c with mbxMgr := g c.mbxMgr } else { c with mbxInst := g c.mbxInst }

/-- The vector field of a side. An instance has vectors 0 to 63; what a larger number leaves in its VECTOR the spec does not say, and the
model keeps the number modulo 64. DESIGN CHOICE (notes/assumptions/56.md). -/
def sideVector (manager : Bool) (v : W32) : Nat := if manager then fld v 10 0 else fld v 10 0 % 64

/-- A write of a mailbox register, but for SEND and POP. -/
def State.mailboxWrite (s : State) (f : Fn) (manager : Bool) (o : Nat) (v : W32) : State :=
  s.onCtrl f fun c => c.onSide manager fun m =>
    if o < 0x40 ∧ o % 4 = 0 then
      { m with tx := Tbl.put 0 m.tx (o / 4) v, high := some (match m.high with | some h => Nat.max h (o / 4) | none => o / 4) }
    else if o = 0x80 then { m with vector := sideVector manager v }
    else if o = 0x84 then
      { m with refused := m.refused && !bitAt v 31, mismatch := m.mismatch && !bitAt v 30 }
    else m

end Sys2Proof.Machine
end

