-- ==== Sys2Proof/Machine/Redundancy.lean ====
section
/-! DEFINITION. The meanings of the commands and events of rebuild, reshape and the end of the dump (R247 to R262). -/

namespace Sys2Proof.Machine

/-- Redundancy work runs: the G9 runs, CTRL, MEM and ENGINE answer, and writes are not stopped (R539). -/
def redundancyRuns (s : State) : Bool :=
  s.running && s.up .ctrl && s.up .mem && s.up .engine && !s.power.writesStopped && s.power.effective ≠ .hibernate &&
  s.power.hibEntry.isNone

/-- Rebuild takes its next band and a replacement block (R247, R248). -/
def execRebuildBandStart (s : State) : Host.Outcome State Fault Refusal :=
  .next (if redundancyRuns s ∧ s.str.rebuild.isNone then
    match rebuildOrder s with
    | [] => s
    | (b, x) :: _ => match x.lost.head?, replacementLun s x with
      | some p, some l => match pickBlock s l with
        | some k => (s.holdBlocks [(l, k)]).rebuildNext { band := b, slot := p, lun := l, block := k, next := 0, cols := 0 }
        | none => s
      | _, _ => s
  else s)

/-- Every copy is written, its trailer last: the dump stands, and what caused it goes on (R254, R448, R543). -/
def execDumpComplete (s : State) : Host.Outcome State Fault Refusal :=
  .next (if s.sys.phase = .dumping ∧ copyWritten s 0 ∧ copyWritten s 1 then
    let s1 := s.onStr fun t => { t with dump := t.dump.map fun d => { d with trailer := true } }
    ((s1.addCnt (rStrCount 4) 1).addLife (lifeEvent 4) 1).afterDump
  else s)

/-- The regions that a reshape to a geometry has to convert, ascending. -/
def reshapeLeft (s : State) (g : Nat) : List Nat :=
  (s.str.regions.filter fun e => e.2.st = .active && decide (e.2.geom ≠ g)).map (·.1)

/-- Why a START is refused: 2 the pool, 1 the spare (R258). -/
def reshapeRefusal (s : State) (g : Nat) : Option Nat :=
  if (pool s).length < geomW g + 2 then some 2
  else if 100 * spareUnder s g < 10 * s.ftl.spare0 then some 1
  else none

/-- Begin a reshape, or refuse it. -/
def State.reshapeBegin (s : State) (g : Nat) : State :=
  let left := reshapeLeft s g
  if left.isEmpty then s.onStr fun t => { t with reshape := { t.reshape with refused := false } }
  else match reshapeRefusal s g with
    | some why => (s.onStr fun t => { t with reshape := { t.reshape with refused := true, reason := why } }).irq
    | none => (s.onStr fun t =>
        { t with reshape := { active := true, refused := false, reason := 0, target := g, region := none, cursor := 0, left := left,
                              newBands := [], slotIx := 0, page := 0, redo := [], back := none, switching := false } }).irq

/-- A write of STR_RESHAPE_CTL with START: ignored whole when TARGET is 3, or while a reshape is active (R258, R265). -/
def execReshapeStart (r : Requester) (value : W32) (s : State) : Host.Outcome State Fault Refusal :=
  .next (if !s.barReaches r rStrReshapeCtl ∨ fld value 1 0 = 3 ∨ s.str.reshape.active ∨ !bitAt value 31 then s
  else
    let s1 := s.writeFields rStrReshapeCtl value
    s1.reshapeBegin (s1.regFld rStrReshapeCtl 1 0))

/-- A write of STR_RESHAPE_CTL with ABORT: the region in progress keeps its old geometry, its new bands are erased, and
ACTIVE clears (R262). -/
def execReshapeAbort (r : Requester) (value : W32) (s : State) : Host.Outcome State Fault Refusal :=
  .next (if !s.barReaches r rStrReshapeCtl ∨ fld value 1 0 = 3 ∨ !bitAt value 30 then s
  else if !s.str.reshape.active then s.writeFields rStrReshapeCtl value
  else
    let h := s.str.reshape
    let s2 := s.reshapeStop.onStr fun t =>
      { t with reshape := { t.reshape with active := false, region := none, cursor := 0, left := [], newBands := [], slotIx := 0, page := 0,
                                           redo := [], back := none, switching := false } }
    let s3 := match h.region with
      | some g => (s2.setRegion g { s2.region g with st := .active, newGeom := (s2.region g).geom, cursor := 0 }).cfgWrite .note
      | none => s2
    s3.eraseBlocks (h.newBands.flatMap fun e => e.2.members))

/-- The free level exceeds URGENT by the blocks of one new band (R259 step 2). -/
def reshapeRoom (s : State) : Bool :=
  decide (thUrgent s * goodBlocks s < (freeBlocks s - geomW s.str.reshape.target) * 1000)

/-- No stripe of a region's bands is in flight: what the new layout copies is on media. -/
def regionSettled (s : State) (r : Nat) : Bool := !(s.str.stripes.any fun t => t.kind ≠ .reshape && decide (t.band / 4096 = r))

/-- The reshape stands at a checkpoint and pauses there (R249, R262): after so many stripes of its band. -/
def reshapeHalts (s : State) (x : Band) (stripes : Nat) : Bool :=
  reshapePaused s && (s.str.reshape.slotIx * bandUnits s x.geom + stripes * (16 * geomD x.geom)) % 2 ^ 20 = 0

/-- Go on with the region in progress: what a reset left is read back and put right first (R261), then the open new band, or the next one;
the first band waits for room (R259 step 2), and while a band is degraded (R263). -/
def State.reshapeResume (s : State) (r : Nat) : State :=
  let h := s.str.reshape
  if h.back.isSome then s.reshapeCheck
  else if !h.redo.isEmpty ∨ reshapeStripeOpen s then s.reshapeSkip
  else match h.newBands.find h.slotIx with
    | some x =>
      let j := h.page / geomW x.geom
      if reshapeHalts s x (if x.st = .opened then j else s.board.pagesPerBlock) then s
      else if x.st = .opened then
        (s.onStr fun t => { t with reshape := { t.reshape with page := j * geomW x.geom + nextMember x j (geomW x.geom) 0 } }).reshapeIssue
      else s.reshapeOpen r (h.slotIx + 1)
    | none => if reshapePaused s ∨ !reshapeRoom s ∨ !regionSettled s r then s else s.reshapeOpen r 0

/-- Step 1 of R259: the region is RESHAPING, and its open bands are closed with filler. -/
def State.reshapeRegion (s : State) (r : Nat) : State :=
  let s1 := s.setRegion r { s.region r with st := .reshaping, newGeom := s.str.reshape.target, cursor := 0 }
  let open_ := (s1.ftl.bands.filter fun e => e.1 / 4096 = r && e.2.st = .opened).map (·.1)
  ((open_.foldl State.shutBand s1).onStr fun t =>
    { t with reshape := { t.reshape with region := some r, cursor := 0, newBands := [], slotIx := 0, page := 0, redo := [], back := none,
                                         switching := false } }).cfgWrite .note

/-- Reshape takes its next region, or goes on with the one in progress; after the last region the map segments follow (R258, R259,
R261). -/
def execReshapeRegionBegin (s : State) : Host.Outcome State Fault Refusal :=
  .next (if !redundancyRuns s ∨ !s.str.reshape.active ∨ reshapeBusy s ∨ s.str.reshape.switching then s
  else match s.str.reshape.region, s.str.reshape.left with
    | some r, _ => s.reshapeResume r
    | none, r :: _ => if s.ftl.victim.any fun v => v / 4096 = r then s else (s.reshapeRegion r).reshapeResume r
    | none, [] => s.reshapeMaps)

end Sys2Proof.Machine
end

