-- ==== Sys2Proof/Machine/Power.lean ====
section
/-! DEFINITION. The meanings of the mode commands and of the events of power, heat, the lifetime records and the
configuration area (R23 to R42, R176, R532 to R553, R560, R565 to R568, R606). Temperatures are in steps of 0.25 °C. -/

namespace Sys2Proof.Machine

/-! ## The lifetime records (R565, R567, R568) -/

def execLifetimeWriteTimer (s : State) : Host.Outcome State Fault Refusal := .next (if s.running then s.beginLife else s)

/-- A write of TLM_CTL with FLUSH. -/
def execFlushLifetime (r : Requester) (value : W32) (s : State) : Host.Outcome State Fault Refusal :=
  .next (if s.barReaches r rTlmCtl then
    let s1 := s.ctlWrite rTlmCtl value
    if bitAt value 0 then s1.beginLife else s1
  else s)

/-- Both copies are written. -/
def execLifetimeWriteDone (s : State) : Host.Outcome State Fault Refusal :=
  .next (if s.running && s.health.writing && !s.power.writesStopped then
    (s.areaWrite areaLifetime).onHealth fun h =>
      { h with lifeSaved := h.life, eventsSaved := h.events, writing := h.flushAgain, flushAgain := false, sinceWrite := 0,
               copy0Ok := true, copy1Ok := true }
  else s)

/-! ## The configuration area (R176, R516, R580) -/

/-- An append that the configuration area was waited for; without room the operation fails (R516). -/
def State.appendOrFail (s : State) (a : Append) : State :=
  if s.appendRoom then s.requestAppend a
  else match a.then_ with
    | .complete w _ _ => s.admin w Config.appendFailStatus 0
    | .enrolled => s.enrolled Config.appendFailStatus
    | .loadKey w .. => s.admin w Config.appendFailStatus 0
    | _ => s

/-- The oldest write to the configuration area is durable, and what waited for it goes on. -/
def execConfigAreaWriteDone (s : State) : Host.Outcome State Fault Refusal :=
  .next (match s.health.cfg with
    | [] => s
    | c :: rest =>
      if s.running && s.up .ctrl && !sysWaits s .config then
        let s0 := (s.areaWrite areaConfig).onHealth fun h => { h with cfg := rest }
        let s1 := if rest.isEmpty then s0 else s0.sysBegin .config
        let s2 := s1.cfgDurable c
        match c with
        | .complete w st dw0 => s2.admin w st dw0
        | .append a => s2.appendOrFail a
        | .sensor .. | .seed .. => s2.bumpGen 0xC6
        | .register .. | .note | .cursor .. | .reshapeSwitch _ => s2
      else s)

/-! ## Transitions (R28 to R38) -/

/-- SPRINT cannot be entered (R29). -/
def sprintRefused (s : State) : Bool :=
  decide (s.power.k < 1000) || (match hottest s with | some t => decide ((472 : Int) ≤ t) | none => false) || !s.power.ilimN ||
  (s.power.effective = .ember && s.power.emberAuto)

/-- An I/O command of a controller is outstanding: fetched and not completed, or rung into a submission queue and not yet
fetched. -/
def ioPending (c : Ctrl) : Bool :=
  (c.fetched.any fun x => x.sq ≠ 0) || c.queues.any fun q => !q.isCq && decide (q.head ≠ q.tail)

/-- HIBERNATE cannot be entered: an I/O command is outstanding or a flow context is active (R29). -/
def hibernateRefused (s : State) : Bool := (s.host.ctrls.any fun e => ioPending e.2) || s.disp.flows.any fun e => e.2.bound

/-- HIBERNATE entry begins: fetching stops, the buffer is flushed and a lifetime write begins (R542). -/
def State.hibernateBegin (s : State) (w : Who) : State :=
  let s1 := s.onPower fun p =>
    { p with hibEntry := some ⟨w, p.requested⟩, beforeHib := p.requested, requested := .hibernate,
             transition := some { target := .hibernate, cause := 0, rank := 7, who := some w } }
  s1.flushAll.beginLife

/-- Serve one request: refused, done at once, or the start of a transition. Whether a request for the mode that is already effective
runs a transition R28 does not say: the model completes it at once. DESIGN CHOICE (notes/assumptions/58.md). -/
def State.serveMode (s : State) (w : Who) (m : Mode) : State :=
  if m = .sprint ∧ sprintRefused s then s.admin w stModeRefused 0
  else if m = .hibernate then (if hibernateRefused s then s.admin w stModeRefused 0 else s.hibernateBegin w)
  else if (s.power.effective = .ember ∧ s.power.emberAuto) ∨ s.power.effective = m then
    (s.onPower fun p => { p with requested := m }).admin w stOk 0
  else s.onPower fun p => { p with requested := m, transition := some { target := m, cause := 0, rank := 7, who := some w } }

/-- Serve the waiting requests until one of them starts a transition. -/
def serveWaiting : List ModeReq → State → State
  | [], s => s.onPower fun p => { p with waiting := [] }
  | r :: rs, s =>
    if s.power.transition.isSome then s.onPower fun p => { p with waiting := r :: rs }
    else serveWaiting rs (s.serveMode r.who r.mode)

/-- The ports through which a wake event comes leave L1.2: a link that left it, or that brought the Set Features. -/
def wakePort (cause : WakeCause) (p : Port) : Bool :=
  match cause with
  | .link => true
  | .mctp => false
  | .setFeatures w _ _ => portOfFn w.fn = p

/-- The G9 begins to wake from HIBERNATE (R40). -/
def State.wakeBy (s : State) (cause : WakeCause) : State :=
  let leave := fun (p : Port) (q : PortState) => { q with l12 := q.l12 && !wakePort cause p }
  (((s.onPower fun p => { p with waking := some cause }).onPort .a (leave .a)).onPort .b (leave .b)).lynxReload

/-- Set Features 0xC0 (R27, R28). -/
def State.modeRequest (s : State) (w : Who) (save : Bool) (cdw11 : W32) : State :=
  if !isManager w.fn then s.admin w stInvalidField 0
  else if save then s.admin w stNotSaveable 0
  else if fld cdw11 31 3 ≠ 0 then s.admin w stInvalidField 0
  else match modeOf (fld cdw11 2 0) with
    | none => s.admin w stInvalidField 0
    | some m =>
      if s.power.transition.isSome ∨ s.power.waiting ≠ [] then
        s.onPower fun p => { p with waiting := p.waiting ++ [⟨w, m⟩] }
      else s.serveMode w m

/-- Set Features 0xC0 of a command that can be served: in HIBERNATE that of a manager function wakes the G9, which serves it
once it is ready (R40). -/
def State.modeCommand (s : State) (w : Who) (save : Bool) (cdw11 : W32) : State :=
  if s.power.effective ≠ .hibernate then s.modeRequest w save cdw11
  else if isManager w.fn ∧ s.power.waking.isNone then s.wakeBy (.setFeatures w save cdw11)
  else s

def execSetFeaturesMode (w : Who) (save : Bool) (cdw11 : W32) (s : State) : Host.Outcome State Fault Refusal :=
  .next (if s.adminReady w then s.modeCommand w save cdw11 else s)

/-- SPRINT_CREDIT. -/
def sprintCredit (s : State) : Nat := s.power.k / 1000
/-- Completion dword 0 of Get Features 0xC0 (R27). -/
def modeDw0 (s : State) (requested effective : Nat) : W32 :=
  w32 (sprintCredit s * 2 ^ 16 + s.power.lastCause * 2 ^ 12 + effective * 2 ^ 4 + requested)

/-- Get Features 0xC0, by Select (R27, R464). -/
def execGetFeaturesMode (w : Who) (select : Nat) (s : State) : Host.Outcome State Fault Refusal :=
  .next (if !s.adminReady w then s
  else if !isManager w.fn then s.admin w stInvalidField 0
  else match select with
    | 0 | 2 => s.admin w stOk (modeDw0 s (modeCode s.power.requested) (modeCode s.power.effective))
    | 1 => s.admin w stOk (modeDw0 s 0 0)
    | 3 => s.admin w stOk 4
    | _ => s.admin w stInvalidField 0)

/-- Abandon the transition in progress (R37): its command, which R29 has accepted, ends with success (a mode change fails
no command, R32), but with MODE_REFUSED where it asked for HIBERNATE (R542). DEDUCED (notes/assumptions/46.md). -/
def State.abandonTransition (s : State) : State :=
  match s.power.transition with
  | none => s
  | some t =>
    let s1 := s.onPower fun p =>
      { p with transition := none, hibEntry := none,
               requested := match p.hibEntry with | some h => h.previous | none => p.requested }
    match t.who with
    | some w => s1.admin w (if t.target = .hibernate then stModeRefused else stOk) 0
    | none => s1

/-- An automatic change begins, unless one of the same or a higher rank is in progress (R37). -/
def State.autoChange (s : State) (m : Mode) (cause rank : Nat) : State :=
  match s.power.transition with
  | some t =>
    if t.rank ≤ rank then s
    else s.abandonTransition.onPower fun p => { p with transition := some { target := m, cause := cause, rank := rank, who := none } }
  | none => s.onPower fun p => { p with transition := some { target := m, cause := cause, rank := rank, who := none } }

/-- SPRINT ends: BALANCED is both requested and the target (R35). -/
def State.endSprint (s : State) (cause rank : Nat) : State :=
  let s1 := s.autoChange .balanced cause rank
  match s1.power.transition with
  | some t => if t.cause = cause then s1.onPower fun p => { p with requested := .balanced } else s1
  | none => s1

/-- Report an automatic change of effective mode (R38, R466, R561, R564). -/
def State.reportChange (s : State) (cause : Nat) (old new : Mode) : State :=
  if 1 ≤ cause ∧ cause ≤ 5 then
    ((s.logEvent 1 cause 0xFFFF (w32 (modeCode old * 16 + modeCode new)) 0).addLife (lifeEvent 0) 1).raiseManagers evMode
  else s

/-- Counts of entering and leaving SPRINT and of automatic EMBER entries (R553, R561). -/
def State.countChange (s : State) (cause : Nat) (old new : Mode) : State :=
  let s1 := if new = .sprint ∧ old ≠ .sprint then s.addLife (lifeC3 (0x9F0 + 56)) 1 else s
  let s2 := if old = .sprint ∧ 1 ≤ cause ∧ cause ≤ 3 then s1.addLife (lifeC3 (0x9F0 + 56 + 8 * cause)) 1 else s1
  if cause = 4 then s2.addCnt (rPwrCount 2) 1 else s2

/-- A transition ends: EFFECTIVE, LAST_CAUSE, the completion, and then the requests that waited. -/
def execModeTransitionDone (s : State) : Host.Outcome State Fault Refusal :=
  .next (match s.power.transition with
    | none => s
    | some t =>
      if t.target = .hibernate ∨ !s.running then s
      else
        let old := s.power.effective
        let s1 := s.onPower fun p => { p with transition := none, effective := t.target, lastCause := t.cause, emberAuto := decide (t.cause = 4) }
        let s2 := ((s1.sprintVerifies t.target).countChange t.cause old t.target).reportChange t.cause old t.target
        let s3 := match t.who with | some w => s2.admin w stOk 0 | none => s2
        serveWaiting s3.power.waiting s3)

/-! ## SPRINT and ILIM_N (R35, R535, R536) -/

/-- The SPRINT accounting of one millisecond. -/
def sprintMs (p : Power) : Power :=
  if p.effective = .sprint ∧ p.transition.isNone then { p with k := p.k - 1, t := Nat.min 60000 (p.t + 1) }
  else if p.idleMs + 1 < 9 then { p with t := 0, idleMs := p.idleMs + 1 }
  else { p with t := 0, idleMs := 0, k := Nat.min 60000 (p.k + 1) }

def execSprintTick (ilimN : Bool) (s : State) : Host.Outcome State Fault Refusal :=
  .next (if s.sys.phase = .off then s
  else
    let s1 := s.onPower fun p => { sprintMs p with ilimN := ilimN }
    if s.power.effective = .sprint ∧ s.power.transition.isNone then (s1.addCnt (rPwrCount 0) 1).addLife (lifeC3 (0x9F0 + 48)) 1 else s1)

def execSprintLimit (s : State) : Host.Outcome State Fault Refusal :=
  .next (if s.running ∧ s.power.effective = .sprint ∧ s.power.transition.isNone ∧ (60000 ≤ s.power.t ∨ s.power.k = 0) then
    s.endSprint 1 5
  else s)

/-- A transition into SPRINT is in progress. -/
def enteringSprint (s : State) : Bool := match s.power.transition with | some t => t.target = .sprint | none => false

def execIlimNAssert (s : State) : Host.Outcome State Fault Refusal :=
  .next (if s.sys.phase = .off then s
  else
    let s1 := ((s.onPower fun p => { p with ilimN := false }).addCnt (rPwrCount 1) 1).addLife (lifeEvent 1) 1
    if s.running ∧ (s.power.effective = .sprint ∨ enteringSprint s) then s1.endSprint 3 3 else s1)

/-! ## Junction temperature (R34, R537 to R541) -/

/-- The factory offset of a sensor, and its trim. -/
def sensorF (i : Nat) : Int := signed 8 (Config.sensorFactory i).toNat
def sensorTrim (s : State) (i : Nat) : Int :=
  clampInt (sensorF i + s.power.tsensUser.getD i 0) (sensorF i - 6) (sensorF i + 6)

/-- Automatic EMBER ends at 115 °C: a lower-rank change in progress, such as a HIBERNATE entry, is abandoned, and the effective
mode becomes the requested mode, with SPRINT replaced by BALANCED (R34, R37). A requested EMBER goes on as the host's. -/
def State.leaveEmber (s : State) : State :=
  let s1 := s.abandonTransition
  let m := if s1.power.requested = .sprint then Mode.balanced else s1.power.requested
  if m = .ember then
    let s2 := s1.onPower fun p => { p with emberAuto := false }
    serveWaiting s2.power.waiting s2
  else (s1.onPower fun p => { p with requested := m }).autoChange m 5 6

/-- The mode changes that the hottest sample calls for (R34, R35, R37). -/
def State.thermalModes (s : State) (t : Int) : State :=
  if s.power.effective = .hibernate then s
  else if 472 ≤ t ∧ s.power.effective = .sprint ∧ s.power.transition.all (fun x => decide (3 < x.rank)) then s.endSprint 2 3
  else if 500 ≤ t ∧ (s.power.effective ≠ .ember ∨ s.power.transition.any fun x =>
      decide (x.target ≠ .ember) && !(s.power.emberAuto && decide (x.target = .hibernate))) then s.autoChange .ember 4 4
  else if t ≤ 460 ∧ s.power.emberAuto ∧ s.power.effective = .ember ∧ s.power.transition.all (fun x => decide (6 < x.rank)) then
    s.leaveEmber
  else s

/-- WRITES_STOPPED rises above 150 °C and falls at 145 °C; then the LUNs and the lifetime write go on (R166, R538, R539). -/
def State.thermalWrites (s : State) (t : Int) : State :=
  if 600 < t ∧ !s.power.writesStopped then
    (((s.onPower fun p => { p with writesStopped := true }).addCnt (rPwrCount 3) 1).addLife (lifeEvent 2) 1).logEvent 6 0 0xFFFF (pwrTemp s) 0
  else if t ≤ 580 ∧ s.power.writesStopped then
    let s0 := if sysWaits s .badBlocks then s.areaWrite areaBadBlocks else s
    let s1 := ((s0.onPower fun p => { p with writesStopped := false }).onMedia fun m => { m with sysHeld := [] }).logEvent 6 1 0xFFFF (pwrTemp s) 0
    let s2 := if s1.health.flushAgain && !s1.health.writing then s1.onHealth fun h => { h with writing := true, flushAgain := false } else s1
    (s2.media.luns.map (·.1)).foldl State.lunNext s2
  else s

/-- The 1 ms samples are taken: readings, the peak, and the critical warning at 125 °C. -/
def State.takeSample (s : State) (raw : List Int) : State :=
  let trimmed := raw.mapIdx fun i r => r + sensorTrim s i
  let hot := match trimmed with | [] => 0 | r :: rs => maxInt r rs
  let s1 := s.onPower fun p =>
    { p with readings := trimmed, untrimmed := raw.mapIdx fun i r => r + sensorF i,
             peak := some (match p.peak with | some x => if x < hot then hot else x | none => hot) }
  let cool : Bool := match hottest s with | some x => decide (x < 500) | none => true
  if (500 : Int) ≤ hot ∧ cool = true then s1.raiseSmart evTemperature [1] else s1

/-- The islands that a dump needs come out of reset (R541, R544). -/
def State.wakeForDump (s : State) : State :=
  (s.dramSleep false).onSys fun y => { y with down := y.down.filter fun i => i = .host || i = .compute || i = .ctrl }

/-- The restart after a thermal shutdown: an L4 reset with its dump (R541). -/
def State.thermalRestart (s : State) : State :=
  let s1 := ((s.logEvent 6 3 0xFFFF (pwrTemp s) 0).onPower fun p => { p with writesStopped := false }).wakeForDump
  match s1.failTrial.dumpStart .thermalRestart with
  | (s2, true) => s2
  | (s2, false) => s2.afterDump

def execThermalSample (raw : List Int) (s : State) : Host.Outcome State Fault Refusal :=
  .next (if raw.length ≠ 16 ∨ s.sys.phase = .off then s
  else
    let s1 := s.takeSample raw
    let t := match hottest s1 with | some x => x | none => 0
    let over_ := s1.power.untrimmed.any fun r => decide ((620 : Int) ≤ r)
    if over_ ∧ (s.sys.phase = .running ∨ s.sys.phase = .booting ∨ s.sys.phase = .dumping) then s1.alarm .overtemp
    else if s.running then (s1.thermalWrites t).thermalModes t
    else if s.sys.phase = .thermalShutdown ∧ t ≤ 460 ∧ s.power.pfailN ∧ s.sys.shutdownTimes.length < 3 then s1.thermalRestart
    else s1)

/-! ## HIBERNATE (R39 to R41, R542) -/

/-- Every island that HIBERNATE gates. -/
def hibernateGated : List Island := [.compute, .engine, .media0, .media1, .media2, .media3]

/-- A link that is up goes to L1.2 (R39). -/
def enterL12 (q : PortState) : PortState := { q with l12 := q.linkUp }

/-- Entry is complete: nothing is buffered or in flight, the lifetime write and the checkpoints are done. A digest core that absorbs
a port block completes it first (R32, R327). -/
def execHibernateEntryDone (s : State) : Host.Outcome State Fault Refusal :=
  .next (match s.power.hibEntry with
    | none => s
    | some h =>
      if s.running ∧ s.ftl.slots.isEmpty ∧ s.str.stripes.isEmpty ∧ !s.health.writing ∧ s.str.rebuild.isNone ∧ !reshapeBusy s then
        let s1 := (s.absorbBlock).onSys fun y => { y with gated := hibernateGated }
        let s2 := (s1.dramSleep true).onMem fun m => { m with rows := [] }
        let s3 := s2.journalFlush
        let s4 := (s3.onPower fun p =>
          { p with effective := .hibernate, emberAuto := false, lastCause := 0, transition := none, hibEntry := none }).admin h.who stOk 0
        (s4.onPort .a enterL12).onPort .b enterL12
      else s)

/-- A wake event. A Set Features 0xC0 that wakes the G9 is served once it is ready. -/
def execWakeEvent (cause : WakeCause) (s : State) : Host.Outcome State Fault Refusal :=
  .next (if s.running ∧ s.power.effective = .hibernate ∧ s.power.waking.isNone then
    match cause with
    | .setFeatures w _ _ =>
      if isManager w.fn ∧ w.sq = 0 ∧ s.fnExists w.fn then
        (s.wakeBy cause).onCtrl w.fn fun c => { c with fetched := c.fetched ++ [⟨0, w.cid, s.now, none⟩] }
      else s
    | _ => s.wakeBy cause
  else s)

/-- The banks are reloaded from the shadow; the tasks and the doorbells that waited go on (R366, R369). On a wake the reload lies inside the
wake and ends with it. -/
def execLynxReloadDone (s : State) : Host.Outcome State Fault Refusal :=
  .next (if s.lynx.restoring ∧ s.up .engine ∧ s.up .mem ∧ s.power.effective ≠ .hibernate then (s.lynxReloaded).ringKept else s)

/-- The G9 is ready: islands are back, Lynx has been reloaded from its shadow (R366), REQUESTED is the mode from before, kept doorbells are
served, then the mode requests that waited at the entry (R28, notes/assumptions/46.md), and the Set Features that woke it. -/
def execWakeReady (s : State) : Host.Outcome State Fault Refusal :=
  .next (match s.power.waking with
    | none => s
    | some cause =>
      let s1 := (s.onSys fun y => { y with gated := [] }).dramSleep false
      let s1 := (s1.onPort .a fun q => { q with l12 := false }).onPort .b fun q => { q with l12 := false }
      let m := if s.power.beforeHib = .sprint then Mode.balanced else s.power.beforeHib
      let hot := match hottest s with | some t => decide ((500 : Int) ≤ t) | none => false
      let s2 := (s1.lynxReloaded).onPower fun p =>
        { p with requested := m, effective := if hot then .ember else m, emberAuto := hot && decide (m ≠ .ember), lastCause := 6, waking := none }
      let s3 := s2.ringKept
      let s4 := (s3.media.luns.map (·.1)).foldl State.lunNext s3
      let s5 := serveWaiting s4.power.waiting s4
      match cause with
      | .setFeatures w save cdw11 => s5.modeRequest w save cdw11
      | _ => s5)

/-! ## Power loss, RESET_N and the hold (R534, R543 to R547, R606) -/

/-- What a fall of PFAIL_N starts: the transition is abandoned, LAST_CAUSE is 8 (R37, R544), the dump runs, or the hold begins at once. -/
def State.powerFail (s : State) (dc : DumpCause) : State :=
  let s0 := (s.onPower fun p =>
    { p with lastCause := 8, transition := none, hibEntry := none, waking := none }).onMem fun m => { m with retiring := [] }
  let s1 := if s.sys.phase = .thermalShutdown then
      (match hottest s0 with
       | some t => if t ≤ 600 then (s0.onPower fun p => { p with writesStopped := false }).wakeForDump else s0
       | none => s0.wakeForDump)
    else s0
  match s1.dumpStart dc with
  | (s2, true) => s2.addCnt (rPwrCount 5) 1
  | (s2, false) => s2.afterDump

/-- Phases in which a fall of PFAIL_N starts a dump or the hold. -/
def failsPower (s : State) : Bool := s.sys.phase = .running || s.sys.phase = .booting || s.sys.phase = .thermalShutdown

/-- A fall of PFAIL_N, or a droop that acts as one: the dump, or the hold that follows the dump under way (R534, R543). -/
def State.pfailSeen (s : State) : State :=
  if failsPower s then s.powerFail .pfail
  else if s.sys.phase = .dumping then s.onSys fun y => { y with dumpCause := if y.dumpCause = .resetN then .resetN else .pfail }
  else s

def execPfailNFall (s : State) : Host.Outcome State Fault Refusal :=
  .next (if s.sys.phase = .off then s else (s.onPower fun p => { p with pfailN := false }).pfailSeen)

/-- Boot from the hold, when PFAIL_N and RESET_N are high and every rail is within tolerance. -/
def State.holdBoot (s : State) : State :=
  if s.sys.phase = .hold ∧ s.power.pfailN ∧ s.power.resetN ∧ s.power.railsBad.isEmpty then
    ((s.coldReset true).addLife (lifeDev 0) 1).bootStart 0
  else s

def execPfailHoldExpiry (s : State) : Host.Outcome State Fault Refusal :=
  .next (if s.sys.phase = .hold then (s.onPower fun p => { p with pfailN := true, railsBad := [] }).holdBoot else s)

/-- The table index of a rail. -/
def railIndex : Rail → Nat
  | .vddAon => 0 | .vddSec => 1 | .vddIo18 => 2 | .vddSoc => 3 | .vddCore => 4 | .vddPcie => 5 | .vddhPcie => 6 | .vddqMem => 7
  | .vccqNf => 8

/-- A rail below its tolerance while PFAIL_N is high: counted, and it acts as a fall of PFAIL_N. -/
def execRailDroop (rail : Rail) (s : State) : Host.Outcome State Fault Refusal :=
  .next (if s.sys.phase = .off ∨ !s.power.pfailN then s
  else (((s.onPower fun p => { p with railsBad := addOnce p.railsBad rail }).addCnt (rPwrCount 6) 1).addLife
    (lifeC3 (0x9CC + 4 * railIndex rail)) 1).pfailSeen)

/-- A fall of RESET_N once boot has begun. -/
def execResetNFall (s : State) : Host.Outcome State Fault Refusal :=
  .next (if s.sys.phase = .off ∨ !s.power.resetN then s
  else
    let s1 := s.onPower fun p => { p with resetN := false }
    if failsPower s then s1.powerFail .resetN
    else if s.sys.phase = .dumping then s1.onSys fun y => { y with dumpCause := .resetN }
    else s1)

/-- RESET_N has been high for 10 ms after the dump: the straps are sampled, and the G9 boots. -/
def execResetNRiseReboot (portSplit : Bool) (s : State) : Host.Outcome State Fault Refusal :=
  .next (if s.sys.phase = .hold ∧ !s.power.resetN then
    ((s.onPower fun p => { p with resetN := true }).onSys fun y => { y with portSplit := portSplit }).holdBoot
  else s)

/-- The rails leave tolerance while PFAIL_N is low: power is lost, and a dump that was not complete is not intact. -/
def execRailsFall (rails : List Rail) (s : State) : Host.Outcome State Fault Refusal :=
  .next (if s.sys.phase = .dumping ∨ s.sys.phase = .hold then
    let s1 := rails.foldl (fun t r => t.addLife (lifeC3 (0x9CC + 4 * railIndex r)) 1) s
    let s2 := s1.onHealth fun h =>
      { h with lifeSaved := rails.foldl (fun t r => t.set (lifeC3 (0x9CC + 4 * railIndex r)) (h.life.getD (lifeC3 (0x9CC + 4 * railIndex r)) 0)) h.lifeSaved }
    let s3 := if s.sys.phase = .dumping then s2.onStr fun t => { t with railsFell := true } else s2
    (s3.onSys fun y => { y with phase := .off, down := islandsButAon, gated := [] }).onPower fun p =>
      { p with railsBad := rails.foldl (fun a r => addOnce a r) p.railsBad }
  else s)

/-! ## The temperature history (R557, R560) -/

/-- A lifetime count takes a value. -/
def State.setLife (s : State) (key v : Nat) : State :=
  (s.onHealth fun h => { h with life := Tbl.put 0 h.life key v }).bumpGen (lifePage key)

/-- The bin of a reading. -/
def tempBin (t : Int) : Nat := (clampInt ((t + 160) / 20) 0 39).toNat

/-- One second of one block: its bin, the extremes (the lowest is held plus 1; 0 says none yet) and the hot seconds. -/
def State.tempSecond (s : State) (i : Nat) (t : Int) : State :=
  let base := lifeC2 (32 + 176 * i)
  let s1 := s.addLife (base + 8 + 4 * tempBin t) 1
  let s2 := if s1.life base < tempCode t then s1.setLife base (tempCode t) else s1
  let low := s2.life (base + 2)
  let s3 := if low = 0 ∨ tempCode t < low - 1 then s2.setLife (base + 2) (tempCode t + 1) else s2
  let s4 := if 500 ≤ t then s3.addLife (base + 0xA8) 1 else s3
  if 600 < t then s4.addLife (base + 0xAC) 1 else s4

/-- A controller with an I/O command outstanding is busy in this minute (R557). -/
def State.busySecond (s : State) : State :=
  let s1 := s.host.ctrls.foldl (fun t e => if e.2.fetched.any fun x => x.sq ≠ 0 then t.setLife (lifeSmart e.1 6) 1 else t) s
  if s1.life (lifeDev 3) % 60 = 0 then
    s1.host.ctrls.foldl (fun t e => (t.addLife (lifeSmart e.1 4) (t.life (lifeSmart e.1 6))).setLife (lifeSmart e.1 6)
      (if e.2.fetched.any fun x => x.sq ≠ 0 then 1 else 0)) s1
  else s1

/-- The once-per-second tick. -/
def execTempHistoryTick (s : State) : Host.Outcome State Fault Refusal :=
  .next (if s.sys.phase = .off ∨ !s.power.resetN then s
  else
    let s1 := (List.range s.power.readings.length).foldl (fun t i => t.tempSecond i (s.power.readings.getD i 0)) s
    let s2 := (if s.power.railsBad.isEmpty then s1.addLife (lifeDev 3) 1 else s1).onHealth fun h => { h with sinceWrite := Nat.min 0xFFFF (h.sinceWrite + 1) }
    let s3 := match hottest s with
      | some t =>
        let a := s2.tempSecond 16 t
        let b := if 500 ≤ t then a.addLife (lifeDev 4) 1 else a
        if 600 ≤ t then b.addLife (lifeDev 5) 1 else b
      | none => s2
    (if s.running then s3.addLife (lifeC3 (0x9F0 + 8 * modeCode s.power.effective)) 1 else s3).busySecond)

end Sys2Proof.Machine
end

