-- ==== Sys2Proof/Machine/Modules.lean ====
section
/-! DEFINITION. The meanings of the module commands and events (R138, R142 to R149, R459, R460). -/

namespace Sys2Proof.Machine

/-- The visibility that a load asks for, where it may: an instance's load is visible to it alone, a manager names whom
(R143, R459). -/
def loadVisibility (s : State) (f : Fn) (cdw11 : W32) : Option (Nat × Fn) :=
  let v := fld cdw11 9 8
  let i := fld cdw11 24 16
  if cdw11.toNat &&& 0xFE00FCF0 ≠ 0 then none
  else if !isManager f then (if v = 0 ∧ i = 0 then some (1, f) else none)
  else if v = 1 then (if s.fnExists i ∧ portOfFn i = portOfFn f ∧ !isManager i then some (1, i) else none)
  else if v = 3 ∨ i ≠ 0 then none
  else some (v, f)

/-- MODULE_LOAD. Its OPERATION is LOAD, or ENROLL (R459): any other is refused. -/
def State.moduleLoad (s : State) (w : Who) (cdw10 cdw11 : W32) (received : List Byte) : State :=
  if cdw10.toNat = 0 ∨ 25165824 < cdw10.toNat ∨ 1 < fld cdw11 3 0 then s.admin w stInvalidField 0
  else if fld cdw11 3 0 = 1 then s.enroll w cdw10 received
  else match loadVisibility s w.fn cdw11 with
    | none => s.admin w stInvalidField 0
    | some (v, f) =>
      (s.onHrt fun h =>
        { h with loads := h.loads ++ [{ who := w, enrol := false, declared := cdw10.toNat, image := received.take cdw10.toNat, visibility := v, visibleTo := f, step := 0 }] }).loadServe

def execModuleLoad (w : Who) (cdw10 cdw11 : W32) (received : List Byte) (s : State) : Host.Outcome State Fault Refusal :=
  if s.adminReady w then .next (s.moduleLoad w cdw10 cdw11 received) else .next s

def execEnroll (w : Who) (cdw10 : W32) (data : List Byte) (s : State) : Host.Outcome State Fault Refusal :=
  if s.adminReady w then .next (s.enroll w cdw10 data) else .next s

/-- Step 3: the recomputed measurement is compared with MEASUREMENT. -/
def execModuleMeasureDone (s : State) : Host.Outcome State Fault Refusal :=
  match s.hrt.loads with
  | [] => .next s
  | l :: rest =>
    if l.step ≠ 2 ∨ !s.running then .next s
    else if measureImage l.image ≠ imageMeasurement l.image then .next (s.rejectLoad l 3)
    else .next (s.onHrt fun h => { h with loads := { l with step := 3 } :: rest })

/-- Steps 4 and 5: both signatures must verify under an authority that lets the loading function load; the ledger record
is then requested. -/
def execModuleSignatureDone (s : State) : Host.Outcome State Fault Refusal :=
  match s.hrt.loads with
  | [] => .next s
  | l :: rest =>
    if l.step ≠ 3 ∨ !s.running then .next s
    else
      let r := signatureReason s l
      if r ≠ 0 then .next (s.rejectLoad l r)
      else .next ((s.requestAppend (loadAppend s l)).onHrt fun h => { h with loads := { l with step := 4 } :: rest })

/-- TRAIL_CANCEL of a Trail, with no completion of its own (R78, R147). A Trail that is over already is left as it is. -/
def State.cancelFlow (s : State) (i : Nat) : State :=
  match s.flow i with
  | some f =>
    if flowOver s i f then s
    else ((s.onFlow i fun f => { f with stopped := true, cancelled := true }).stopSource i).discardFlow i
  | none => s

/-- MODULE_UNLOAD (R147). -/
def execModuleUnload (w : Who) (module : Nat) (force : Bool) (s : State) : Host.Outcome State Fault Refusal :=
  if !s.adminReady w then .next s
  else match s.module module with
    | none => .next (s.admin w stInvalidField 0)
    | some x =>
      if !(w.fn = x.loader ∨ w.fn = managerFn (portOfFn x.loader)) then .next (s.admin w stInvalidField 0)
      else
        let x1 : Module := { x with st := .unloading, removing := true }
        if force then
          let s1 := s.onHrt fun h => { h with modules := h.modules.set module { x1 with forced := x1.forced ++ [w] } }
          .next (((moduleTrails s1 module).foldl State.cancelFlow s1).forcedDone module)
        else .next ((s.onHrt fun h => { h with modules := h.modules.set module x1 }).admin w stOk 0)

/-- The module is removed: its lines leave every cache, its pool space and its number are free, and the removal is recorded. A
module that became DAMAGED after its unload was accepted is removed too (R135, R147). -/
def execModuleRemove (module : Nat) (s : State) : Host.Outcome State Fault Refusal :=
  match s.module module with
  | none => .next s
  | some x =>
    if x.removing ∧ (moduleTrails s module).isEmpty ∧ x.forced = [] ∧ s.running ∧ s.appendRoom then
      .next (((s.dropModuleLines module).onHrt fun h => { h with modules := h.modules.erase module }).requestAppend
        { kind := 2, cause := 0, then_ := .nothing,
          comps := [moduleComponent module x.visibleTo x.version.toNat x.measurement] })
    else .next s

/-- A write of HRT_CTL CLUSTER_EN takes clusters into or out of service; with LOCK set it does nothing (R7, R149). -/
def execClusterEnWrite (r : Requester) (value : W32) (s : State) : Host.Outcome State Fault Refusal :=
  if s.barReaches r rHrtCtl then .next (s.ctlWrite rHrtCtl value) else .next (s.barMiss r rHrtCtl)

end Sys2Proof.Machine
end

