-- ==== Sys2Proof/Machine/TrailOps.lean ====
section
/-! DEFINITION. Trail descriptors and admission: what the bytes of a descriptor say, the checks of R58 in their order, the
waits of admission, and the binding of a flow context (R43 to R59, R130, R139, R354, R613). -/

namespace Sys2Proof.Machine

/-! ## Stage records (R52, R53, R311) -/

/-- Every byte of a stage record outside KIND, OP and the named fields is 0. -/
def onlyNamed (rec : List Byte) (named : List (Nat × Nat)) : Bool :=
  (List.range 64).all fun i => i < 2 || (named.any fun f => decide (f.1 ≤ i) && decide (i < f.1 + f.2)) || rec.getD i 0 = 0

def placementOf : Nat → Placement
  | 0 => .direct | 1 => .slotted | _ => .packed

/-- A memory sink's SLOT_SIZE. -/
def slotSizeOk (n : Nat) : Bool := n % 4096 = 0 && 4096 ≤ n && n ≤ 135168

/-- A stage when a test of its record passes. -/
def stageIf (ok : Bool) (st : Stage) : Option Stage := if ok then some st else none

/-- The stage that a record spells; none for an unknown KIND or OP, a field out of range or a nonzero reserved byte. -/
def stageOf (rec : List Byte) : Option Stage :=
  let at_ := fun o n => leAt rec o n
  let op := at_ 1 1
  match at_ 0 1 with
  | 0x01 =>
    if op = 0 then stageIf (onlyNamed rec [(4, 4), (8, 8), (0x10, 8)]) (.lbaSource false (at_ 4 4) (at_ 8 8) (at_ 0x10 8) 0)
    else stageIf (op = 1 && onlyNamed rec [(4, 4), (8, 8), (0x10, 8), (0x18, 4)] && 1 ≤ at_ 0x18 4 && at_ 0x18 4 ≤ 32)
      (.lbaSource true (at_ 4 4) (at_ 8 8) (at_ 0x10 8) (at_ 0x18 4))
  | 0x02 => stageIf (op ≤ 1 && onlyNamed rec [(8, 8), (0x10, 8)]) (.hostSource (op = 1) (at_ 8 8) (at_ 0x10 8))
  | 0x03 => stageIf (op = 0 && onlyNamed rec [(4, 4), (8, 8), (0x10, 8)]) (.slmSource (at_ 4 4) (at_ 8 8) (at_ 0x10 8))
  | 0x10 =>
    if op ≤ 1 then
      stageIf (onlyNamed rec [(4, 2), (6, 1), (8, 8)] && at_ 6 1 ≤ 1)
        (.xts (op = 0) (at_ 4 2) (if at_ 6 1 = 0 then 512 else 4096) (at_ 8 8))
    else
      let field := op = 3 && at_ 6 1 = 0
      stageIf (op ≤ 3 &&
          onlyNamed rec ([(4, 2), (8, 8), (0x10, 2), (0x12, 1)] ++ (if op = 3 then [(6, 1)] else []) ++ (if field then [(0x14, 12)] else [])) &&
          at_ 6 1 ≤ 1 && at_ 0x10 2 = 40 && at_ 0x12 1 ≤ 1)
        (.gcm (op = 2) (at_ 4 2) (at_ 6 1) (at_ 8 8) (at_ 0x12 1 = 1) (slice rec 0x14 12))
  | 0x20 => stageIf (op ≤ 1 && onlyNamed rec [(4, 2)] && at_ 4 2 ≤ 4096) (.codec (op = 0) (at_ 4 2))
  | 0x30 =>
    if op ≤ 1 then stageIf (onlyNamed rec [(4, 1)] && 1 ≤ at_ 4 1 && at_ 4 1 ≤ 64) (.reshuffle op (at_ 4 1) 0 0)
    else stageIf (op ≤ 3 && onlyNamed rec [(5, 1), (6, 1)] && 2 ≤ at_ 5 1 && at_ 5 1 ≤ 16 && 1 ≤ at_ 6 1 && at_ 6 1 ≤ 8)
      (.reshuffle op 0 (at_ 5 1) (at_ 6 1))
  | 0x40 =>
    stageIf (op ≤ 3 && onlyNamed rec [(4, 2), (6, 2), (8, 1)] && (at_ 8 1 = 8 || at_ 8 1 = 16 || at_ 8 1 = 32))
      (.lynx op (at_ 4 2) (at_ 6 2) (at_ 8 1))
  | 0x50 =>
    let alg := op % 16
    let slot := at_ 4 2
    stageIf (onlyNamed rec [(4, 2), (8, 8), (0x10, 1)] && algValid alg && op / 16 % 8 = 0 && (algHmac alg || slot = 0xFFFF) &&
        at_ 8 8 % 8 = 0 && at_ 0x10 1 ≤ 1)
      (.digest alg (128 ≤ op) (if slot = 0xFFFF then none else some slot) (at_ 8 8) (at_ 0x10 1 = 1))
  | 0x60 =>
    stageIf (op = 0 && onlyNamed rec [(4, 2), (6, 2), (8, 4), (0x20, 32)]) (.program (at_ 4 2) (at_ 6 2) (at_ 8 4) (slice rec 0x20 32))
  | 0x70 =>
    stageIf (op ≤ 2 && onlyNamed rec ([(8, 8), (0x10, 8)] ++ (if op = 1 then [(0x18, 4)] else [])) && (op ≠ 1 || slotSizeOk (at_ 0x18 4)))
      (.hostSink (placementOf op) (at_ 8 8) (at_ 0x10 8) (at_ 0x18 4))
  | 0x71 =>
    stageIf (op ≤ 2 && onlyNamed rec ([(4, 4), (8, 8), (0x10, 8)] ++ (if op = 1 then [(0x18, 4)] else [])) &&
        (op ≠ 1 || slotSizeOk (at_ 0x18 4)))
      (.slmSink (placementOf op) (at_ 4 4) (at_ 8 8) (at_ 0x10 8) (at_ 0x18 4))
  | 0x72 =>
    stageIf (op ≤ 2 && onlyNamed rec ([(4, 4), (8, 8), (0x10, 8)] ++ (if op = 1 then [(0x18, 4)] else [])) &&
        (op ≠ 1 || (1 ≤ at_ 0x18 4 && at_ 0x18 4 ≤ 32)))
      (.lbaSink (placementOf op) (at_ 4 4) (at_ 8 8) (at_ 0x10 8) (at_ 0x18 4))
  | _ => none

def Stage.isLynx : Stage → Bool
  | .lynx .. => true | _ => false
def Stage.isInsert : Stage → Bool
  | .lynx 3 .. => true | _ => false
def Stage.isGcm (st : Stage) : Bool := st.isGcmEncrypt || st.isGcmDecrypt

/-- The stages of R55: they may change a payload's length. -/
def Stage.changesLength : Stage → Bool
  | .gcm .. => true
  | .codec .. => true
  | .lynx op _ _ _ => op ≠ 3
  | .program .. => true
  | _ => false

/-! ## Address runs (R613) -/

/-- A run in subsystem local memory passes the end of its range; a range that is no memory namespace is left to the row of
R58 that names it. -/
def slmRunBad (s : State) (range off len : Nat) : Bool :=
  match s.slmRange range with
  | some n => decide (n.nsze < off + len)
  | none => false

/-- A run at a 64-bit address: in host memory, or with the range in bits [63:32] and the offset in [31:0]. -/
def runBad (s : State) (slm : Bool) (addr len : Nat) : Bool :=
  if slm then slmRunBad s (addr / 2 ^ 32) (addr % 2 ^ 32) len else decide (2 ^ 64 < addr + len)

def stageRunBad (s : State) : Stage → Bool
  | .hostSource sgl addr len => !sgl && runBad s false addr len
  | .slmSource range off len => slmRunBad s range off len
  | .hostSink _ addr cap _ => runBad s false addr cap
  | .slmSink _ range addr cap _ => slmRunBad s range addr cap
  | .gcm _ _ _ blob slm _ => runBad s slm blob 40
  | .digest alg verify _ addr slm => runBad s slm addr (if verify then 68 else algOut alg)
  | _ => false

/-! ## The descriptor (R51, R54) -/

/-- The Trail that a descriptor spells, once its stage records are known. -/
def trailOf (desc : List Byte) (stages : List Stage) : Trail :=
  let flags := leAt desc 3 1
  { ordered := flags % 2 = 1, nsok := flags / 2 % 2 = 1, skip := flags / 4 % 2 = 1, statusSlm := flags / 8 % 2 = 1,
    tag := w32 (leAt desc 4 4), total := leAt desc 8 8, recordSize := leAt desc 0x10 2, limit := leAt desc 0x12 2,
    statusAddr := leAt desc 0x18 8, stages := stages }

def descStages (desc : List Byte) : List (Option Stage) := ((chunksOf 64 desc).drop 1).map stageOf

/-- The source is an LBA source in SLOTTED placement. -/
def slottedSource : List (Option Stage) → Bool
  | some (.lbaSource true ..) :: _ => true
  | _ => false

/-- A header field breaks R51 or R613; a kernel's Trail keeps its status record in local memory (R130).
KIND 01h and OP 1 in the first stage record are a SLOTTED LBA source, whose TOTAL_LENGTH is 0 (R51). -/
def headerBad (s : State) (kernel : Bool) (desc : List Byte) : Bool :=
  let t := trailOf desc []
  let n := leAt desc 2 1
  leAt desc 0 2 ≠ 1 || n < 2 || 16 < n || 16 ≤ leAt desc 3 1 || 4096 < t.recordSize || 256 < t.limit || t.statusAddr % 64 ≠ 0 ||
  leAt desc 0x14 4 ≠ 0 || leAt desc 0x20 32 ≠ 0 || runBad s t.statusSlm t.statusAddr 128 ||
  (leAt desc 0x40 2 = 0x0101 && t.total ≠ 0) || (kernel && !t.statusSlm)



/-- A module that a function may name: loaded, visible to it, and with a cluster in service in its hart share (R138, R143, R149). -/
def moduleSeen (s : State) (f : Fn) (m : Nat) : Option Module :=
  match s.module m with
  | some x =>
    let vis : Bool := match x.visibility with
      | 0 => f = managerFn (portOfFn x.visibleTo) && portOfFn f = portOfFn x.visibleTo
      | 1 => f = x.visibleTo
      | _ => portOfFn f = portOfFn x.visibleTo
    if x.st = .loaded ∧ vis = true ∧ (s.ctrl f).share.clusters &&& BitVec.ofNat 8 (s.regFld rHrtCtl 7 0) ≠ 0 then some x else none
  | none => none

/-- A PROGRAM stage out of the range that its kernel record gives (R140). -/
def programBad (s : State) (f : Fn) (rs : Nat) : Stage → Bool
  | .program m k us _ => match moduleSeen s f m with
    | some x => match x.kernels[k]? with
      | some r => (us ≠ 0 && (us < 10 || r.budgetMax < us)) || rs < r.recMin || r.recMax < rs
      | none => false
    | none => false
  | _ => false

/-- How many stages before a place pass a test. -/
def countBefore (stages : List (Option Stage)) (i : Nat) (p : Stage → Bool) : Nat :=
  ((stages.take i).filter fun x => match x with | some st => p st | none => false).length

/-- A stage breaks R52 to R54, R130, R140, R289 or R613 at its place. -/
def stageBad (s : State) (f : Fn) (kernel : Bool) (rs : Nat) (stages : List (Option Stage)) (i : Nat) : Bool :=
  match stages[i]? with
  | some (some st) =>
    let last := i + 1 = stages.length
    (if i = 0 then !st.isSource else st.isSource) || (if last then !st.isSink else st.isSink) || stageRunBad s st ||
    (st.isGcm && 1 ≤ countBefore stages i Stage.isGcm) || (st.isDigest && 4 ≤ countBefore stages i Stage.isDigest) ||
    ((st.isLynx || st.isProgram) && rs = 0) || (st.isInsert && 1 ≤ countBefore stages i Stage.isGcmDecrypt) ||
    programBad s f rs st ||
    (match st with
     | .lynx _ _ o n => decide (rs < o + n)
     | .reshuffle op u _ _ => op ≤ 1 && rs ≠ 0 && rs % u ≠ 0
     | .gcm false _ 1 _ _ _ => !slottedSource stages
     | .hostSource .. => kernel
     | .hostSink .. => kernel
     | .program .. => kernel
     | _ => false)
  | _ => true

/-- The first position that breaks the general row of R58: 0xFF for the header, else a stage index. -/
def firstMalformed (s : State) (f : Fn) (kernel : Bool) (desc : List Byte) : Option Nat :=
  if headerBad s kernel desc then some 0xFF
  else
    let stages := descStages desc
    (List.range stages.length).find? fun i => stageBad s f kernel (leAt desc 0x10 2) stages i

/-- The placement row of R58. -/
def placementBad (t : Trail) : Bool :=
  let place := match Trail.stageAt t (Trail.sinkIx t) with
    | some (.hostSink p ..) => p
    | some (.slmSink p ..) => p
    | some (.lbaSink p ..) => p
    | _ => .direct
  (place = .direct && t.stages.any Stage.changesLength) || (place = .packed && !Trail.inOrder t)

/-! ## The source's chunks (R48, R70, R283) -/

/-- The source chunk size; for a SLOTTED source the largest payload of a slot. -/
def sourceChunk (s : State) (t : Trail) : Nat :=
  match Trail.stageAt t 0 with
  | some (.lbaSource true nsid _ _ slotLbas) => match s.ns.find nsid with
    | some n => slotLbas * n.lbaSize - 32
    | none => 0
  | _ => Trail.chunkBytes t

/-- The bytes that the source stage names, where it declares a length of its own beside TOTAL_LENGTH. -/
def sourceActual (s : State) (t : Trail) : Option Nat :=
  match Trail.stageAt t 0 with
  | some (.lbaSource false nsid _ extent _) => match s.ns.find nsid with
    | some n => some (extent * n.lbaSize)
    | none => some 0
  | some (.hostSource false _ len) => some len
  | some (.slmSource _ _ len) => some len
  | _ => none

/-- The bytes the source produces at most: the shorter of the two lengths. -/
def sourceBytes (s : State) (t : Trail) : Nat := match sourceActual s t with | some n => Nat.min t.total n | none => t.total

/-- The chunks the source issues at most. -/
def chunkCount (s : State) (t : Trail) : Nat :=
  match Trail.stageAt t 0 with
  | some (.lbaSource true _ _ extent slotLbas) => if slotLbas = 0 then 0 else extent / slotLbas
  | _ => ceilDiv (sourceBytes s t) (Trail.chunkBytes t)

/-! ## SGLs (R382, R613) -/

/-- One step of an SGL walk that ends once it has reached so many bytes of data: descriptors left in the segment at an address,
and the data collected before and after. A Data Block that passes 2^64 - 1, like a descriptor of another type, is malformed as
the walk reaches it (R382, R613). -/
def sglWalk (hv : HostView) (upto : Nat) : Nat → Nat → Nat → List (Nat × Nat) → Except Status (List (Nat × Nat))
  | 0, _, _, acc => .ok acc
  | fuel + 1, a, left, acc =>
    if left < 16 then .ok acc
    else match hvRead hv a 16 with
      | none => .error stBusError
      | some d =>
        match leAt d 15 1 / 16 with
        | 0 =>
          if 2 ^ 64 < leAt d 0 8 + leAt d 8 4 then .error stTrailMalformed
          else
            let acc1 := acc ++ [(leAt d 0 8, leAt d 8 4)]
            if (acc1.map (·.2)).sum < upto then sglWalk hv upto fuel (a + 16) (left - 16) acc1 else .ok acc1
        | 2 => sglWalk hv upto fuel (leAt d 0 8) (leAt d 8 4) acc
        | 3 => sglWalk hv upto fuel (leAt d 0 8) (leAt d 8 4) acc
        | _ => .error stTrailMalformed

/-- The data blocks of an SGL whose first segment lies at an address, as far as the walk goes to reach so many bytes: at most as
many descriptors as the host memory seen can hold. -/
def sglBlocks (hv : HostView) (a len upto : Nat) : Except Status (List (Nat × Nat)) :=
  if upto = 0 then .ok [] else sglWalk hv upto ((hv.map fun r => r.bytes.length).sum / 16 + 1) a len []

/-! ## The rows of R58 from NSID on -/

def attachedAs (s : State) (f : Fn) (kind : NsKind) (nsid : Nat) : Bool :=
  match s.ns.find nsid with
  | some n => n.kind = kind && decide (f ∈ n.attached)
  | none => false

/-- The NSID row: namespaces and ranges attached to the submitting controller. -/
def namesBad (s : State) (f : Fn) (t : Trail) : Bool :=
  (t.statusSlm && !attachedAs s f .memory (t.statusAddr / 2 ^ 32)) ||
  t.stages.any fun st => match st with
    | .lbaSource _ nsid _ _ _ => !attachedAs s f .nvm nsid
    | .lbaSink _ nsid _ _ _ => !attachedAs s f .nvm nsid
    | .slmSource range _ _ => !attachedAs s f .memory range
    | .slmSink _ range _ _ _ => !attachedAs s f .memory range
    | .digest _ _ _ addr true => !attachedAs s f .memory (addr / 2 ^ 32)
    | _ => false

/-- The extent row. -/
def extentBad (s : State) (t : Trail) : Bool :=
  let past := fun nsid slba extent => match s.ns.find nsid with | some n => decide (n.nsze < slba + extent) | none => true
  t.stages.any fun st => match st with
    | .lbaSource slotted nsid slba extent slot => past nsid slba extent || (slotted && extent % slot ≠ 0)
    | .lbaSink p nsid slba extent slot => past nsid slba extent || (p = .slotted && extent % slot ≠ 0)
    | _ => false

/-- The module row. -/
def moduleBad (s : State) (f : Fn) (t : Trail) : Bool :=
  t.stages.any fun st => match st with
    | .program m k _ _ => match moduleSeen s f m with
      | some x => decide (x.kernels.length ≤ k)
      | none => true
    | _ => false

/-- A Lynx table that a function may name. -/
def tableOf (s : State) (f : Fn) (t : Nat) : Option LynxTable :=
  match s.lynxTable t with
  | some x => if x.owner = f ∧ !x.kv then some x else none
  | none => none

/-- The state of an HMAC slot as its function sees it; another function's slot is as an empty one. -/
def hmacSeen (s : State) (f : Fn) (i : Nat) : HmacState := if (s.hmacSlot i).owner = some f then (s.hmacSlot i).st else .empty
/-- The state of a key slot that a cipher stage may name. -/
def xtsSeen (s : State) (f : Fn) (i : Nat) : SlotState :=
  if (s.xts i).use = 3 ∧ (s.xts i).owner = f then (s.xts i).st else .empty
def wrapSeen (s : State) (f : Fn) (i : Nat) : SlotState :=
  if (s.wrapSlot i).use = 4 ∧ (s.wrapSlot i).owner = f then (s.wrapSlot i).st else .empty

/-- The table row at a stage. A slot in its first load has no algorithm yet: what a Trail that names it reports R317 does not say, and
the model has the wrong algorithm. DESIGN CHOICE (notes/assumptions/35.md). -/
def tableBad (s : State) (f : Fn) : Stage → Bool
  | .lynx _ t _ n => match tableOf s f t with
    | some x => n ≠ x.keyLen
    | none => true
  | .digest alg _ (some i) _ _ => hmacSeen s f i ≠ .empty && (s.hmacSlot i).alg ≠ alg
  | _ => false

/-- A stage names a slot in one of some states. -/
def slotIn (s : State) (f : Fn) (erased : Bool) : Stage → Bool
  | .xts _ k _ _ => if erased then xtsSeen s f k = .erased else xtsSeen s f k = .empty || xtsSeen s f k = .locked
  | .gcm _ w _ _ _ _ => if erased then wrapSeen s f w = .erased else wrapSeen s f w = .empty || wrapSeen s f w = .locked
  | .digest _ _ (some i) _ _ => if erased then hmacSeen s f i = .erased else hmacSeen s f i = .empty
  | _ => false

/-- A failed admission: the status and both completion dwords. -/
structure Refused where
  st  : Status
  dw0 : W32
  dw1 : W32
  deriving DecidableEq, Repr

def malformedAt (i : Nat) : Refused := ⟨stTrailMalformed, w32 i, 0⟩
def refusedWith (st : Status) : Refused := ⟨st, 0, 0⟩

/-- The rows of R58 from NSID to the ERASED slots, which depend on the state alone. -/
def admissionState (s : State) (f : Fn) (t : Trail) : Option Refused :=
  if namesBad s f t then some (refusedWith stInvalidNs)
  else if extentBad s t then some (refusedWith stLbaRange)
  else if moduleBad s f t then some (refusedWith stModuleRejected)
  else match (List.range t.stages.length).find? fun i => (Trail.stageAt t i).any (tableBad s f) with
    | some i => some (malformedAt i)
    | none =>
      if t.stages.any (slotIn s f false) then some (refusedWith stKeySlotEmpty)
      else if t.stages.any (slotIn s f true) then some (refusedWith stKeysErased)
      else none

/-- The GCM stage of a Trail: its index, direction, wrap slot, nonce source, blob and nonce. -/
def Trail.gcm (t : Trail) : Option (Nat × Bool × Nat × Nat × Nat × Bool × List Byte) :=
  (List.range t.stages.length).findSome? fun i => match Trail.stageAt t i with
    | some (.gcm enc w src blob slm nonce) => some (i, enc, w, src, blob, slm, nonce)
    | _ => none

/-- Bytes at a 64-bit address of host memory, or of an attached range of local memory. -/
def readAt (s : State) (f : Fn) (hv : HostView) (slm : Bool) (addr n : Nat) : Option (List Byte) :=
  if slm then (if attachedAs s f .memory (addr / 2 ^ 32) then dmaRead s hv 2 addr n else none) else dmaRead s hv 1 addr n

/-- The key blob of the GCM stage, where there is one: unreadable is the inner none. -/
def blobOf (s : State) (f : Fn) (hv : HostView) (t : Trail) : Option (Option (List Byte)) :=
  (Trail.gcm t).map fun g => readAt s f hv g.2.2.2.2.2.1 g.2.2.2.2.1 40

/-- The expected digests of the DIGEST stages with VERIFY, by stage (R316). -/
def expectedOf (s : State) (f : Fn) (hv : HostView) (t : Trail) : List (Nat × Option (List Byte)) :=
  (List.range t.stages.length).filterMap fun i => match Trail.stageAt t i with
    | some (.digest alg true _ addr slm) => some (i, readAt s f hv slm addr (algOut alg))
    | _ => none

/-- The sealed-data key: the blob unwrapped under the key of WRAP_SLOT (R287). -/
def sealedKey (s : State) (t : Trail) (blob : Option (List Byte)) : Option (List Byte) :=
  match Trail.gcm t, blob with
  | some g, some b => kwUnwrap (s.wrapSlot g.2.2.1).key b
  | _, _ => none

/-- The last rows of R58: the unwrap, the nonce run, and the counters of a NONCE field. -/
def admissionKeys (s : State) (t : Trail) (blob : Option (List Byte)) : Option Refused :=
  match Trail.gcm t with
  | none => none
  | some (i, enc, w, src, _, _, nonce) =>
    let k := chunkCount s t
    if (sealedKey s t blob).isNone then some (refusedWith stTagFail)
    else if enc ∧ nonceExhausted (s.wrapSlot w) k then some (refusedWith stKeyExhausted)
    else if !enc ∧ src = 0 ∧ 0 < k ∧ 2 ^ 64 ≤ ofBe (nonce.drop 4) + k - 1 then some (malformedAt i)
    else none

/-! ## Reading and checking a descriptor -/

/-- What admission has read and found in order. -/
structure Checked where
  trail    : Trail
  blob     : Option (List Byte)
  expected : Tbl (List Byte)
  deriving DecidableEq, Repr

/-- Rows 1, 3 and 4 on the bytes of a descriptor of declared length `len`. -/
def checkDescriptor (s : State) (f : Fn) (kernel : Bool) (len : Nat) (desc : List Byte) : Except Refused Trail :=
  let want := 64 * (1 + leAt desc 2 1)
  if len ≠ want then .error ⟨stLengthMismatch, w32 len, w32 want⟩
  else match firstMalformed s f kernel desc with
    | some i => .error (malformedAt i)
    | none =>
      let t := trailOf desc ((descStages desc).filterMap id)
      if placementBad t then .error (malformedAt (Trail.sinkIx t)) else .ok t

/-- The rows of R58 on a Trail and the memory it names. -/
def checkTrail (s : State) (f : Fn) (hv : HostView) (t : Trail) : Except Refused Checked :=
  match admissionState s f t with
  | some r => .error r
  | none =>
    let blob := blobOf s f hv t
    let ex := expectedOf s f hv t
    if blob = some none ∨ ex.any (fun e => e.2.isNone) then .error (refusedWith stBusError)
    else
      let b := blob.bind id
      match admissionKeys s t b with
      | some r => .error r
      | none => .ok { trail := t, blob := b, expected := ex.map fun e => (e.1, e.2.getD []) }

/-- The bytes of a submitted descriptor: the header says how long it is. A descriptor in local memory lies in a range that
is attached to the function. -/
def readDescriptor (s : State) (f : Fn) (len : Nat) (slm : Option (Nat × Nat)) (addr : Nat) (hv : HostView) :
    Except Refused (List Byte) :=
  let get := fun n => match slm with
    | some (off, range) =>
      if s.slmFits range off n then dmaRead s hv 2 (range * 2 ^ 32 + off) n else none
    | none => dmaRead s hv 1 addr n
  let aligned : Bool := match slm with | some (off, _) => decide (off % 64 = 0) | none => decide (addr % 64 = 0)
  let away : Bool := match slm with | some (_, range) => !attachedAs s f .memory range | none => false
  if away then .error (refusedWith stInvalidNs)
  else match get 64 with
    | none => .error (refusedWith stBusError)
    | some head =>
      let want := 64 * (1 + leAt head 2 1)
      if len ≠ want then .error ⟨stLengthMismatch, w32 len, w32 want⟩
      else match get want with
        | none => .error (refusedWith stBusError)
        | some d => if aligned then .ok d else .error (malformedAt 0xFF)

/-- Admission of a submitted descriptor, up to its waits. -/
def checkSubmit (s : State) (f : Fn) (len : Nat) (slm : Option (Nat × Nat)) (addr : Nat) (hv : HostView) : Except Refused Checked :=
  match readDescriptor s f len slm addr hv with
  | .error r => .error r
  | .ok d => match checkDescriptor s f false len d with
    | .error r => .error r
    | .ok t => checkTrail s f hv t

/-! ## The waits of admission (R46, R106, R293, R322) -/

/-- A flow context to bind: the lowest that was never bound, else the one whose Trail ended longest ago (R77). -/
def freeFlow (s : State) : Option Nat :=
  match Tbl.lowestFree s.disp.flows 0 4096 with
  | some i => some i
  | none =>
    let unbound := s.disp.flows.filter fun e => !e.2.bound
    (unbound.foldl (fun (best : Option (Nat × Nat)) e =>
      let at_ := e.2.ended.getD 0
      match best with
      | some b => if at_ < b.2 then some (e.1, at_) else best
      | none => some (e.1, at_)) none).map (·.1)

/-- No flow context can be bound for a function now: none is free, its share is used up, or the shared pool has stopped
sources. -/
def contextWait (s : State) (f : Fn) : Bool :=
  (freeFlow s).isNone || decide ((s.ctrl f).share.flows ≤ (flowsOf s f).length) || s.disp.sourcesStopped

/-- A named HMAC slot is being reloaded. -/
def hmacWait (s : State) (t : Trail) : Bool :=
  t.stages.any fun st => match st with
    | .digest _ _ (some i) _ _ => (s.hmacSlot i).st = .loading
    | _ => false

/-- The wrap slot and the counter its durable limit must reach, for a GCM ENCRYPT Trail. -/
def nonceWant (s : State) (t : Trail) : Option (Nat × Nat) :=
  match Trail.gcm t with
  | some (_, true, w, _, _, _, _) => some (w, nonceNeed (s.wrapSlot w) (chunkCount s t))
  | _ => none
def nonceWait (s : State) (t : Trail) : Bool :=
  match nonceWant s t with
  | some (w, need) => decide ((s.wrapSlot w).reservedTo < need)
  | none => false

/-- The Trail waits in admission. -/
def admissionWait (s : State) (f : Fn) (t : Trail) : Bool := contextWait s f || hmacWait s t || nonceWait s t

/-- Start the nonce reservation write that a Trail waits for. -/
def State.startNonceWrite (s : State) (t : Trail) : State :=
  match nonceWant s t with
  | some (w, need) => s.nonceCheck w need
  | none => s

/-! ## Binding a flow context (R44, R45, R59, R87, R89) -/

/-- The indices of the DIGEST stages, in order. -/
def digestStages (t : Trail) : List Nat :=
  (List.range t.stages.length).filter fun i => match Trail.stageAt t i with | some st => st.isDigest | none => false

/-- The HMAC slot of a DIGEST task's stage has been cleared since the Trail was admitted (R321). -/
def hmacCleared (s : State) (f : Flow) (e : Task) : Bool :=
  match (digestStages f.trail).findIdx? (· = e.stage) with
  | some d => match s.dgs.ctxs.find (4 * e.flow + d) with | some c => c.cleared | none => false
  | none => false

/-- The initial digest contexts of a flow (R313). -/
def State.openContexts (s : State) (flow : Nat) (t : Trail) : State :=
  (digestStages t).zipIdx.foldl (fun u e =>
    match Trail.stageAt t e.1 with
    | some (.digest alg _ h _ _) =>
      let key := match h with | some i => (u.hmacSlot i).key | none => []
      u.onDgs fun d => { d with ctxs := d.ctxs.set (4 * flow + e.2) { alg := alg, hmac := h, key := key, msg := [], dead := false, cleared := false } }
    | _ => u) s

/-- The initial state tokens: 0 at a sink, the context handle at a DIGEST stage. -/
def firstTokens (flow : Nat) (t : Trail) : Tbl (Nat × Nat) :=
  ((List.range t.stages.length).filter fun i => Trail.chained t i).map fun i =>
    (i, (0, match (digestStages t).findIdx? (· = i) with | some d => 4 * flow + d | none => 0))

/-- The source is an NVMe SGL: its length shows as the walk goes. -/
def Trail.sglSource (t : Trail) : Bool := match Trail.stageAt t 0 with | some (.hostSource true ..) => true | _ => false

/-- The flow context of an admitted Trail. -/
def newFlow (s : State) (gen : Nat) (f : Fn) (flow : Nat) (c : Checked) (execBy : Option Who) : Flow :=
  let t := c.trail
  let n := chunkCount s t
  let lengths : Option Mismatch := match sourceActual s t with
    | some a => if a = t.total then none else some { stage := 0, declared := t.total, actual := a }
    | none => none
  { bound := true, generation := gen, owner := f, trail := t, issued := 0, retired := 0, lastIssued := decide (n = 0) && !Trail.sglSource t,
    chunks := n, unretired := [], delivered := [], lowWater := 0,
    pools := List.replicate (Trail.count t - 2) (Trail.window t), parked := firstTokens flow t,
    keyReady := (List.range t.stages.length).filter (fun i => match Trail.stageAt t i with | some st => st.isCipher | none => false),
    reserveUsed := false, stopped := false, failure := none, failCount := 0, cancelled := false, cancelers := [], queries := [],
    mismatch := lengths, skipped := 0, firstSkipped := none, bytes := 0, gcmKey := sealedKey s t c.blob,
    nonce := match nonceWant s t with | some (w, _) => some ((s.wrapSlot w).epoch, (s.wrapSlot w).next) | none => none,
    expected := c.expected, admittedAt := s.now, ended := none, gone := false, endStatus := stOk, execBy := execBy, slotNonces := [] }

/-- Bind a Trail to the free context: its generation rises, its nonces are reserved, its contexts are set, and a pipeline has unwrapped its
key blob (R287). -/
def State.bindTrail (s : State) (f : Fn) (c : Checked) (execBy : Option Who) : State × W32 :=
  match freeFlow s with
  | none => (s, 0)
  | some i =>
    let gen := ((match s.flow i with | some x => x.generation | none => 0) + 1) % 2 ^ 20
    let x := newFlow s gen f i c execBy
    let s1 := (s.onDisp fun d => { d with flows := d.flows.set i x }).openContexts i c.trail
    let s2 := match nonceWant s c.trail with
      | some (w, _) => s1.nonceTake w (chunkCount s c.trail)
      | none => s1
    let s3 := match Trail.gcm c.trail, c.blob with
      | some g, some _ => s2.wrapUse g.2.2.1
      | _, _ => s2
    (s3.addCnt (rTrlCount 0) 1, trailId i x)

/-- Count a failed admission (R309, R588). -/
def State.countRefused (s : State) (r : Refused) : State :=
  let s1 := s.addCnt (rTrlCount 1) 1
  if r.st = stKeyExhausted then s1.addCnt (rSeaCount 5) 1 else s1

/-- A checked Trail is bound and its command completes, or it waits in admission. An Execute Program completes when its Trail
ends (R453). -/
def State.admitTrail (s : State) (w : Who) (c : Checked) (exec : Bool) : State :=
  if admissionWait s w.fn c.trail then
    (s.onDisp fun d =>
      { d with waiting := d.waiting ++ [{ who := w, trail := c.trail, blob := c.blob, expected := c.expected, execBy := exec }] }).startNonceWrite
      c.trail
  else if exec then (s.bindTrail w.fn c (some w)).1
  else
    let (s1, id) := s.bindTrail w.fn c none
    s1.io w stOk id

/-- Admission ends in a failure. -/
def State.refuseTrail (s : State) (w : Who) (r : Refused) : State := (s.countRefused r).complete w r.st r.dw0 r.dw1

end Sys2Proof.Machine
end

