-- ==== Sys2Proof/Machine/Trails.lean ====
section
/-! DEFINITION. The meanings of the Trail commands and events: submission, query, cancellation, the issue of chunks, and the
end of a Trail with its status record (R44 to R47, R59 to R61, R71 to R79, R462, R463). -/

namespace Sys2Proof.Machine

/-! ## Submission (R44, R46) -/

def execTrailSubmit (w : Who) (descLen : Nat) (slm : Option (Nat × Nat)) (addr : Nat) (hv : HostView) (s : State) :
    Host.Outcome State Fault Refusal :=
  .next (if s.ioReady w ∧ s.up .engine then
    let s := s.asClass w 6
    match checkSubmit s w.fn descLen slm addr hv with
    | .error r => s.refuseTrail w r
    | .ok c => s.admitTrail w c false
  else s)

/-- What admission had read of a waiting Trail. -/
def WaitingTrail.checked (x : WaitingTrail) : Checked := { trail := x.trail, blob := x.blob, expected := x.expected }

/-- A waiting TRAIL_SUBMIT goes on once nothing makes it wait; the checks that depend on the state are made again. -/
def execTrailAdmissionResume (w : Who) (s : State) : Host.Outcome State Fault Refusal :=
  .next (match s.disp.waiting.find? fun x => x.who = w with
    | some x =>
      if s.ioReady w ∧ s.up .engine then
        let s1 := s.onDisp fun d => { d with waiting := d.waiting.erase x }
        match admissionState s w.fn x.trail, admissionKeys s x.trail x.blob with
        | some r, _ => s1.refuseTrail w r
        | none, some r => s1.refuseTrail w r
        | none, none =>
          if admissionWait s w.fn x.trail then s.startNonceWrite x.trail else s1.admitTrail w x.checked x.execBy
      else s
    | none => s)

/-! ## Query (R77, R462, R463) -/

/-- The flow that a Trail identifier names for a function: its own Trail, of this generation, and not ended by a reset. -/
def namedFlow (s : State) (f : Fn) (id : W32) : Option (Nat × Flow) :=
  match s.flow (id.toNat % 4096) with
  | some x => if trailId (id.toNat % 4096) x = id ∧ x.owner = f ∧ !x.gone then some (id.toNat % 4096, x) else none
  | none => none

/-- A status in the format of R72. -/
def statusWord (st : Status) : Nat := st.toNat

/-- The 32-byte query record. -/
def queryRecord (i : Nat) (x : Flow) : List Byte :=
  leBytes 4 (trailId i x).toNat ++ [if x.bound then 0 else 1, 0] ++ leBytes 2 (if x.bound then 0 else statusWord x.endStatus) ++
  leBytes 8 x.lowWater ++ leBytes 8 x.issued ++ zeros 8

/-- Complete a TRAIL_QUERY with the state of the Trail now. -/
def State.answerQuery (s : State) (w : Who) (i : Nat) (x : Flow) : State :=
  (s.dataOut w (queryRecord i x)).io w stOk (if x.bound then 0 else 1)

/-- TRAIL_QUERYs that wait at a port. -/
def queriesAt (s : State) (p : Port) : Nat :=
  (s.disp.flows.map fun e => (e.2.queries.filter fun w => portOfFn w.fn = p).length).sum

def execTrailQuery (w : Who) (trailId : W32) (wait : Bool) (s : State) : Host.Outcome State Fault Refusal :=
  .next (if s.ioReady w then
    match namedFlow s w.fn trailId with
    | none => s.io w stInvalidField 0
    | some (i, x) =>
      if x.bound ∧ wait ∧ queriesAt s (portOfFn w.fn) < 256 then s.onFlow i fun f => { f with queries := f.queries ++ [w] }
      else s.answerQuery w i x
  else s)

/-- The 10 s limit of a waiting query. -/
def execTrailQueryWaitExpiry (w : Who) (s : State) : Host.Outcome State Fault Refusal :=
  .next (match s.disp.flows.find? fun e => w ∈ e.2.queries with
    | some (i, x) =>
      if s.ioReady w then (s.onFlow i fun f => { f with queries := f.queries.erase w }).answerQuery w i x else s
    | none => s)

/-! ## Cancellation (R78) -/

def execTrailCancel (w : Who) (trailId : W32) (s : State) : Host.Outcome State Fault Refusal :=
  .next (if s.ioReady w then
    match namedFlow s w.fn trailId with
    | none => s.io w stInvalidField 0
    | some (i, x) =>
      if x.bound then (s.cancelFlow i).onFlow i fun f => { f with cancelers := f.cancelers ++ [w] }
      else s.io w stOk 1
  else s)

/-! ## The source (R60, R61, R81, R106, R107) -/

/-- The lowest free chunk slot. -/
def Flow.freeSlot (f : Flow) : Option Nat := (List.range 256).find? fun c => f.unretired.all fun p => decide (p.1 ≠ c)

/-- The source may issue its next chunk. -/
def mayIssue (s : State) (f : Flow) : Bool :=
  !f.stopped && !f.lastIssued && decide (f.issued - f.retired < Trail.credit f.trail) && !s.disp.sourcesStopped &&
  decide (0 < sharedFree s) && (Trail.count f.trail = 2 || decide (0 < f.pools.headD 0)) && (s.ctrl f.owner).flr.isNone

/-- The length of an SGL source when its walk shows that the data ends before the next chunk; a walk that fails fails the task
of that chunk instead (R70, R382). -/
def sglEnd (f : Flow) (hv : HostView) : Option Nat :=
  match Trail.stageAt f.trail 0 with
  | some (.hostSource true a len) =>
    let o := f.issued * Trail.chunkBytes f.trail
    match sglBlocks hv a len (if f.trail.total ≤ o then 2 ^ 64 else o + 1) with
    | .ok blocks =>
      let total := (blocks.map (·.2)).sum
      if total ≤ o ∨ f.trail.total ≤ o then some total else none
    | .error _ => none
  | _ => none

/-- The source ends without a further chunk; the lengths are compared (R70). -/
def State.sourceEnds (s : State) (flow : Nat) (f : Flow) (total : Nat) : State :=
  let s1 := s.onFlow flow fun f => { f with lastIssued := true }
  if total = f.trail.total then s1 else s1.mismatch flow 0 f.trail.total total

def execChunkIssue (flow : Nat) (hv : HostView) (s : State) : Host.Outcome State Fault Refusal :=
  .next (match s.boundFlow flow with
    | some f => match f.freeSlot with
      | some c =>
        if s.running ∧ s.up .engine ∧ mayIssue s f = true then
          match sglEnd f hv with
          | some total => s.sourceEnds flow f total
          | none =>
            (s.onFlow flow fun f =>
              { f with issued := f.issued + 1, unretired := f.unretired ++ [(c, f.issued)],
                       lastIssued := decide (f.chunks ≤ f.issued + 1) }).addEntry flow 0 c f.issued false
        else s
      | none => s
    | none => s)

/-! ## The end of a Trail (R71 to R73, R315, R316) -/

/-- The digest of a context. -/
def DigestCtx.out (c : DigestCtx) : List Byte := if c.hmac.isSome then Sys2Proof.Machine.hmac c.alg c.key c.msg else hashOf c.alg c.msg

/-- The DIGEST stages that an alarm has left unable to finalise, but for a stage whose failure is recorded (R322). -/
def deadStages (s : State) (i : Nat) (f : Flow) : List Nat :=
  ((digestStages f.trail).zipIdx.filter fun e => (match s.dgs.ctxs.find (4 * i + e.2) with
    | some c => c.dead
    | none => false) && f.failure.all fun x => decide (x.stage ≠ e.1)).map (·.1)

/-- The failure that the record reports, if any: a stage that cannot be finalised failed for the last chunk (R73 rule 1). -/
def endFailure (s : State) (i : Nat) (f : Flow) : Option Failure :=
  match (deadStages s i f).head? with
  | some st => worse f.failure { chunk := f.issued - 1, stage := st, status := stKeysErased }
  | none => f.failure

/-- STATUS and STAGE (R73). -/
def endStatusOf (f : Flow) (fail : Option Failure) : Status × Nat :=
  match fail with
  | some x => (x.status, x.stage)
  | none =>
    if f.cancelled then (stAbortRequested, 0xFF)
    else match f.mismatch with
      | some m => (stLengthMismatch, m.stage)
      | none => (stOk, 0xFF)

/-- The window map: the delivered chunks from LOW_WATER on. -/
def windowMap (f : Flow) : Nat := ((List.range 256).map fun k => bitIf (decide (f.lowWater + k ∈ f.delivered)) k).sum

/-- The status record. -/
def statusRecord (s : State) (i : Nat) (f : Flow) (fail : Option Failure) : List Byte :=
  let (st, stage) := endStatusOf f fail
  let flags := bitIf f.cancelled 0 + bitIf (decide (0 < f.skipped)) 1 + bitIf f.mismatch.isSome 2 + bitIf f.nonce.isSome 3
  leBytes 4 f.trail.tag.toNat ++ leBytes 4 (trailId i f).toNat ++ leBytes 2 (statusWord st) ++ leBytes 1 stage ++ leBytes 1 flags ++
  leBytes 4 (satAdd 0xFFFFFFFF f.failCount (deadStages s i f).length) ++ leBytes 8 (match fail with | some x => x.chunk | none => 0) ++
  leBytes 8 f.lowWater ++ leBytes 32 (windowMap f) ++ leBytes 8 f.bytes ++
  leBytes 8 (match f.mismatch with | some m => m.declared | none => 0) ++
  leBytes 8 (match f.mismatch with | some m => m.actual | none => 0) ++ leBytes 8 f.issued ++
  (match f.nonce with | some (e, c) => nonceBytes e c | none => zeros 12) ++ leBytes 4 f.skipped ++
  leBytes 8 (match f.firstSkipped with | some k => k | none => 2 ^ 64 - 1) ++ leBytes 8 ((s.now - f.admittedAt) / tUs)

/-- Write at a 64-bit address of host memory (posted) or of local memory. What the write of a status record or of a DIGEST
result to local memory meets while MEM is in reset R71 does not say: the model writes it all the same. DEDUCED (notes/assumptions/27.md). -/
def State.writeAt (s : State) (f : Fn) (slm : Bool) (addr : Nat) (bs : List Byte) : State :=
  (dmaWrite s [] (if slm then 2 else 1) f addr bs).1

/-- Write the result of one DIGEST stage: the digest, or with VERIFY the verdict word at RESULT_ADDR + 64. What the comparators do is
listed by the ordinal of the stage among the DIGEST stages. -/
def State.writeDigest (s : State) (i : Nat) (f : Flow) (seen : List Comparators) (e : Nat × Nat) : State :=
  match Trail.stageAt f.trail e.1, s.dgs.ctxs.find (4 * i + e.2) with
  | some (.digest _ verify _ addr slm), some c =>
    if verify then
      let eq := decide (c.out = f.expected.getD e.1 [])
      let v := verdictOf (seen.getD e.2 .agree) eq
      (s.countVerdict v).writeAt f.owner slm (addr + 64) (leBytes 4 v.toNat)
    else s.writeAt f.owner slm addr c.out
  | _, _ => s

/-- The port can issue a posted write now (R445). -/
def canPost (s : State) (p : Port) : Bool :=
  let q := s.port p
  !q.linkUp || (decide (0 < q.credits) && q.stalled.isEmpty)

/-- The Trail writes to host memory as it ends. -/
def endsAtHost (f : Flow) : Bool :=
  (!f.trail.statusSlm && f.execBy.isNone) || f.trail.stages.any fun st => match st with | .digest _ _ _ _ false => true | _ => false

/-- Every task has ended, and the source issues no more. -/
def mayEnd (s : State) (i : Nat) (f : Flow) : Bool :=
  flowOver s i f && (s.ctrl f.owner).flr.isNone &&
  (!endsAtHost f || canPost s (portOfFn f.owner))

/-- What a flow holds elsewhere is given back: waiting and admitted sink writes, media reads, digest contexts. -/
def State.freeFlowParts (s : State) (i : Nat) : State :=
  let s1 := s.withdraw fun c => match c with | .trail f _ => f = i | _ => false
  let s2 := (s1.ftl.admitted.filter fun a => a.kind.isSinkOf i).foldl State.discardWrite s1
  (s2.onFtl fun x => { x with waiting := x.waiting.filter fun w => !w.kind.isSinkOf i }).onDgs fun d =>
    { d with ctxs := d.ctxs.filter fun e => e.1 / 4 ≠ i }

/-- Count the status record (R588). -/
def State.countRecord (s : State) (st : Status) (cancelled : Bool) : State :=
  let s1 := s.addCnt (rTrlCount (if st = stOk then 2 else 3)) 1
  if cancelled then s1.addCnt (rTrlCount 4) 1 else s1

/-- Complete what waits for the Trail: its queries, its cancellations, with bit 0 set where the Trail was over before them
(R78), and the Execute Program that runs it. -/
def State.answerEnd (s : State) (i : Nat) (f : Flow) (st : Status) : State :=
  let s1 := f.queries.foldl (fun t w => t.answerQuery w i { f with bound := false, endStatus := st }) s
  let s2 := f.cancelers.foldl (fun t w => t.io w stOk (if f.cancelled then 0 else 1)) s1
  match f.execBy with
  | some w => s2.io w st (w32 (Nat.min f.bytes 0xFFFFFFFF))
  | none => s2

/-- R71: digests, the status record, the waiting commands, and the release of the flow context. The Trail of an Execute
Program has no STATUS_ADDR and writes no record (R453). -/
def State.endTrail (s : State) (i : Nat) (f : Flow) (seen : List Comparators) : State :=
  let fail := endFailure s i f
  let (st, _) := endStatusOf f fail
  let s1 := if st = stOk then (digestStages f.trail).zipIdx.foldl (fun t e => t.writeDigest i f seen e) s else s
  let s2 := if f.execBy.isSome then s1
    else (s1.writeAt f.owner f.trail.statusSlm f.trail.statusAddr (statusRecord s i f fail)).countRecord st f.cancelled
  let s3 := (s2.addLatency 5 (s.now - f.admittedAt)).answerEnd i f st
  let n := s3.disp.endCount
  let s4 := ((s3.freeFlowParts i).onFlow i fun f =>
    { f with bound := false, ended := some n, endStatus := st, gcmKey := none, keyReady := [], parked := [], unretired := [],
             queries := [], cancelers := [], expected := [], slotNonces := [], execBy := none }).onDisp fun d => { d with endCount := n + 1 }
  s4.forcedAll.rekeyAdvance

def execTrailEnd (flow : Nat) (seen : List Comparators) (s : State) : Host.Outcome State Fault Refusal :=
  .next (match s.boundFlow flow with
    | some f => if s.running ∧ s.up .engine ∧ mayEnd s flow f = true then s.endTrail flow f seen else s
    | none => s)

end Sys2Proof.Machine
end

