-- ==== Sys2Proof/Machine/TaskOps.lean ====
section
/-! DEFINITION. What the units do to a task: the reads of sources, the engines' stages, and the placement of sinks
(R48 to R50, R55, R63 to R67, R70, R75, R99, R283, R289, R290, R314, R337, R343, R357, R358, R382, R615). -/

namespace Sys2Proof.Machine

/-! ## Publishing an output (R49, R85, R100) -/

/-- The unit publishes an output payload: it is cut at 131,072 bytes, the input buffer is freed, and the data token goes on. -/
def State.emit (s : State) (t : Task) (p : Payload) (skipped : Bool) : State :=
  let full := p.bytes.length
  let kept := p.bytes.take 131072
  let s1 := if 131072 < full then s.mismatch t.flow t.stage 131072 full else s
  let s2 := s1.freeBuf t.buf
  let s3 := match t.out with
    | some b => if kept.isEmpty then s2 else s2.setBuf b { p with bytes := kept }
    | none => s2
  s3.dataToken t.dataTag t.out kept.length skipped

/-- A task passes its input on unchanged, in its own buffer. -/
def State.passOn (s : State) (t : Task) : State := s.dataToken t.dataTag t.buf t.len t.skipped

/-! ## Sources (R48, R65, R70, R75, R382) -/

/-- The bytes of chunk k within the source: its offset and its length. -/
def chunkSpan (s : State) (t : Trail) (k : Nat) : Nat × Nat :=
  let c := Trail.chunkBytes t
  (k * c, Nat.min c (sourceBytes s t - k * c))

/-- The LBAs that chunk k of an LBA source needs first: those of its bytes, or the first LBA of its slot. -/
def sourceLbas (s : State) (t : Trail) (n : Ns) (k : Nat) : Nat × Nat :=
  match Trail.stageAt t 0 with
  | some (.lbaSource true _ slba _ slot) => (slba + k * slot, 1)
  | some (.lbaSource false _ slba _ _) =>
    let (o, len) := chunkSpan s t k
    let first := o / n.lbaSize
    (slba + first, ceilDiv (o + len) n.lbaSize - first)
  | _ => (0, 0)

/-- The MEDIA island that a source task is queued in (R615). -/
def sourceIsland (s : State) (t : Trail) (k : Nat) : Nat :=
  match Trail.stageAt t 0 with
  | some (.lbaSource _ nsid _ _ _) => match s.ns.find nsid with
    | some n =>
      let iu := (iusOf n (sourceLbas s t n k).1 1).headD 0
      let e := s.entryOf iu
      match e.st, (pageParts s e).head? with
      | .media, some q => match s.band q.band with
        | some x => match x.members[pageSlot x.geom q.page]? with
          | some m => lunIsland m.1
          | none => iu % 4
        | none => iu % 4
      | _, _ => iu % 4
    | none => 0
  | _ => 0

/-- What a slot header says: the payload's length and nonce, an empty slot, or no valid header. -/
inductive SlotSeen where
  | payload (len : Nat) (nonce : List Byte)
  | blank
  | bad
  deriving DecidableEq, Repr

def slotSeen (room : Nat) (hdr : List Byte) : SlotSeen :=
  if hdr.all (· = 0) then .blank
  else if leAt hdr 0 4 = 0x7A1E5107 ∧ leAt hdr 0x1C 4 = crc32c (hdr.take 28) ∧ leAt hdr 4 4 ≤ room then
    .payload (leAt hdr 4 4) (slice hdr 0x10 12)
  else .bad

/-- The part of some data blocks that covers bytes o to o + n of their concatenation. -/
def sglPart : List (Nat × Nat) → Nat → Nat → List (Nat × Nat)
  | [], _, _ => []
  | (a, len) :: bs, o, n =>
    if n = 0 then []
    else if len ≤ o then sglPart bs (o - len) n
    else
      let k := Nat.min n (len - o)
      (a + o, k) :: sglPart bs 0 (n - k)

/-- Read runs of host memory. -/
def readRuns (hv : HostView) : List (Nat × Nat) → Option (List Byte)
  | [] => some []
  | (a, n) :: rs => match hvRead hv a n, readRuns hv rs with
    | some b, some more => some (b ++ more)
    | _, _ => none

/-- The source has no chunk after this one. -/
def State.lastChunk (s : State) (flow : Nat) : State := s.onFlow flow fun f => { f with lastIssued := true }

/-- Count what a Trail task on a DMA channel moved, as one descriptor (R382, R401). -/
def State.countDma (s : State) (n : Nat) : State := ((s.addCnt (rDmaCount 0) n).addCnt (rDmaCount 1) n).addCnt (rDmaCount 2) 1

/-- A Trail task on a DMA channel fails with an error code (R390, R396). -/
def State.dmaTaskFail (s : State) (t : Task) (channel code addr : Nat) : State :=
  (s.dmaFail channel code (BitVec.ofNat 64 addr)).failTask t (dmaStatus code)

/-- A source's chunk is read; one past the source's end is an empty chunk. -/
def State.sourceData (s : State) (t : Task) (bs : List Byte) : State := (s.countDma bs.length).emit t { bytes := bs, sealed := none } false

/-- A memory source's task. -/
def State.runMemorySource (s : State) (f : Flow) (t : Task) (channel : Nat) (hv : HostView) (st : Stage) : State :=
  let (o, n) := chunkSpan s f.trail t.chunk
  match st with
  | .slmSource range off _ =>
    if s.slmFits range (off + o) n then match dmaRead s hv 2 (range * 2 ^ 32 + (off + o)) n with
      | some bs => s.sourceData t bs
      | none => (s.dmaBridge 2).dmaTaskFail t channel 2 (off + o)
    else s.dmaTaskFail t channel 4 (off + o)
  | .hostSource false a _ => match dmaRead s hv 1 (a + o) n with
    | some bs => s.sourceData t bs
    | none => (s.dmaBridge 1).dmaTaskFail t channel 2 (a + o)
  | .hostSource true a len =>
    match sglBlocks hv a len (if f.trail.total ≤ o + n then 2 ^ 64 else o + n) with
    | .error e => s.dmaTaskFail t channel (if e = stTrailMalformed then 4 else 2) a
    | .ok blocks =>
      let total := (blocks.map (·.2)).sum
      let part := sglPart blocks o (Nat.min n (total - o))
      match (if s.up .host then readRuns hv part else none) with
      | none => (s.dmaBridge 1).dmaTaskFail t channel 2 a
      | some bs =>
        let over_ := decide (f.trail.total ≤ o + n) || decide (total < o + n)
        let s1 := if total ≠ f.trail.total ∧ over_ = true then s.mismatch t.flow 0 f.trail.total total else s
        (if over_ then s1.lastChunk t.flow else s1).sourceData t bs
  | _ => s

/-- A read of an LBA source failed: with SKIP_UNREADABLE an unreadable chunk becomes an empty one (R75). -/
def State.sourceUnread (s : State) (f : Flow) (t : Task) (st : Status) : State :=
  if f.trail.skip ∧ (st = stUnrecovered ∨ st = stStripeLost) then
    (s.onFlow t.flow fun f =>
      { f with skipped := satAdd 0xFFFFFFFF f.skipped 1,
               firstSkipped := match f.firstSkipped with | some k => some (Nat.min k t.chunk) | none => some t.chunk }).emit t
      { bytes := [], sealed := none } true
  else s.failTask t st

/-- The read job of a Trail source's task. -/
def sourceJob (s : State) (t : Task) : Option ReadJob := s.ftl.reads.find? fun j => j.client = .trail t.flow t.cslot

/-- Begin the reads of some LBAs for a source task. -/
def State.readSource (s : State) (t : Task) (n : Ns) (nsid slba from_ nlb : Nat) : State :=
  s.startJob { client := .trail t.flow t.cslot, kind := .verify, nsid := nsid, slba := slba, nlb := nlb, wait := 0, failed := none, second := false, again := false }
    (mediaEntries s (needsOf n from_ (slba + nlb - from_)))

/-- The entries on media that a source's read has read: after a second read those that it read as erasures. -/
def sourceEntries (s : State) (n : Ns) (j : ReadJob) : List MapEntry :=
  let es := mediaEntries s (needsOf n j.slba j.nlb)
  if j.again then badDecodes s es else es

/-- An LBA source's task on its island: its reads are done. A range whose key an alarm has erased gives nothing (R300, R301), and what does
not decode is read once more as erasures (R345). A SLOTTED source then reads the LBAs that the header declares, once no map segment of
them is being rebuilt (R221); the flag says that the task goes on. -/
def State.runLbaSource (s : State) (f : Flow) (t : Task) (slotted : Bool) (nsid slot : Nat) : State × Bool :=
  match sourceJob s t, s.ns.find nsid with
  | some j, some n =>
    let es := sourceEntries s n j
    let s1 := (s.onFtl fun x => { x with reads := x.reads.erase j }).mediaWork es
    match j.failed, lbaBytes s n j.slba j.nlb with
    | some st, _ => (s1.sourceUnread f t st, false)
    | none, .error st =>
      if keysGone s n j.slba j.nlb then (s1.failTask t stKeysErased, false)
      else if j.again ∨ (badDecodes s es).isEmpty then (s1.sourceUnread f t st, false)
      else (s1.readErased j (badDecodes s es), true)
    | none, .ok bs =>
      let s2 := s1.addLife (lifeSmart f.owner 0) bs.length
      if keysGone s n j.slba j.nlb then (s1.failTask t stKeysErased, false) else
      if slotted then
        match slotSeen (slot * n.lbaSize - 32) (bs.take 32) with
        | .blank => (s2.emit t { bytes := [], sealed := none } false, false)
        | .bad => (s2.failTask t stTrailMalformed, false)
        | .payload len nonce =>
          let need := ceilDiv (32 + len) n.lbaSize
          if j.nlb < need then
            if segBusy s (iusOf n j.slba need) then (s, true) else (s1.readSource t n nsid j.slba (j.slba + 1) need, true)
          else
            let s3 := s2.onFlow t.flow fun f => { f with slotNonces := f.slotNonces.set t.chunk nonce }
            (s3.emit t { bytes := (bs.drop 32).take len, sealed := none } false, false)
      else
        let (o, len) := chunkSpan s f.trail t.chunk
        (s2.emit t { bytes := (bs.drop (o % n.lbaSize)).take len, sealed := none } false, false)
  | some j, none => ((s.onFtl fun x => { x with reads := x.reads.erase j }).failTask t stInvalidNs, false)
  | none, _ => (s.failTask t stBusError, false)

/-! ## Engine stages -/

/-- An XTS stage (R283). -/
def State.runXts (s : State) (f : Flow) (t : Task) (enc : Bool) (slot du tweak : Nat) : State :=
  let bs := (taskInput s t).bytes
  let k := s.xts slot
  if k.st ≠ .loaded then s.failTask t stKeySlotEmpty
  else if 0 < bs.length % du ∧ bs.length % du < 16 then s.failTask t stTrailMalformed
  else
    let first := tweak + t.chunk * ceilDiv (sourceChunk s f.trail) du
    (s.addCnt (rSeaCount 0) bs.length).emit t { bytes := xtsRun enc k.key du first bs, sealed := none } false

/-- A segment fails its tag (R290, R309, R559). -/
def State.tagFail (s : State) (t : Task) : State := ((s.addCnt (rSeaCount 2) 1).addLife (lifeErr 15 true) 1).failTask t stTagFail

/-- A GCM stage (R59, R289, R290). -/
def State.runGcm (s : State) (f : Flow) (t : Task) (enc : Bool) (src : Nat) (nonce : List Byte) : State :=
  let bs := (taskInput s t).bytes
  match f.gcmKey with
  | none => s.failTask t stKeysErased
  | some key =>
    let plain := bs.take 131056
    let s1 := s.addCnt (rSeaCount 1) (if enc then plain.length else bs.length)
    if enc then
      let s2 := if plain.length < bs.length then s1.mismatch t.flow t.stage 131056 bs.length else s1
      let n := match f.nonce with | some (e, c) => nonceAdd (nonceBytes e c) t.chunk | none => zeros 12
      s2.emit t { bytes := gcmSeal key n [] plain, sealed := some n } false
    else
      let n := if src = 0 then nonceAdd nonce t.chunk else f.slotNonces.getD t.chunk (zeros 12)
      match gcmOpen key n [] bs with
      | some plain => s1.emit t { bytes := plain, sealed := none } false
      | none => s1.tagFail t

/-- A codec stage (R337, R341 to R343, R350). A block with fewer than CODED_LEN stream bytes whose tokens all the same reach ORIG_LEN
is no shortfall of R343; that it still shows as a mismatch, of 16 + CODED_LEN and the payload's length, follows from R8 and the
close of R343. DEDUCED (notes/assumptions/36.md). -/
def State.runCodec (s : State) (f : Flow) (t : Task) (encode : Bool) (width : Nat) : State :=
  let bs := (taskInput s t).bytes
  if encode then
    let s1 := if 65536 < bs.length then s.mismatch t.flow t.stage 65536 bs.length else s
    let block := encodeBlock width (bs.take 65536)
    let s2 := (s1.addCnt (rRleCount 0) (Nat.min bs.length 65536)).addCnt (rRleCount 1) block.length
    (if blockStored block then s2.addCnt (rRleCount 2) 1 else s2).emit t { bytes := block, sealed := none } false
  else
    let coded := leAt bs 8 4
    let s1 := if 16 + coded < bs.length then s.mismatch t.flow t.stage (16 + coded) bs.length else s
    match decodeBlock width bs with
    | .ok out =>
      let s2 := if bs.length < 16 + coded then s1.mismatch t.flow t.stage (16 + coded) bs.length else s1
      (s2.addCnt (rRleCount 3) out.length).emit t { bytes := out, sealed := none } false
    | .short out orig =>
      ((s1.mismatch t.flow t.stage orig out.length).addCnt (rRleCount 3) out.length).emit t { bytes := out, sealed := none } false
    | .fail st i p =>
      ((if i = noOffset ∧ p = 0 then s else s1).rleFail false (trailId t.flow f) st i p).failTask t st

/-- The whole records of a payload, and what is left. -/
def recordsOf (rs : Nat) (bs : List Byte) : List (List Byte) × List Byte :=
  let n := if rs = 0 then 0 else bs.length / rs
  (chunksOf rs (bs.take (n * rs)), bs.drop (n * rs))

/-- What a MATCH task keeps of a record: 0 keeps hits, 1 keeps misses, 2 annotates. -/
def keptRecord (op w : Nat) (r : List Byte) : List Byte :=
  if op = 2 then leBytes 8 w ++ r else if bitsOf w 62 62 = 1 ↔ op = 0 then r else []

/-- A MATCH task over records on a copy; no output where a search ends in SEARCH_PARITY. -/
def State.matchRecords (s : State) (table copy op keyOff keyLen : Nat) (out : List Byte) :
    List (List Byte) → State × Option (List Byte)
  | [] => (s, some out)
  | r :: rs =>
    match s.lynxTable table with
    | none => (s, none)
    | some x =>
      let (s1, a) := s.searchOnce table copy x (slice r keyOff keyLen)
      match a.word with
      | none => (s1, none)
      | some w => s1.matchRecords table copy op keyOff keyLen (out ++ keptRecord op w r) rs

/-- How an INSERT task ends: every record taken, a full table, or a search that ended in SEARCH_PARITY. -/
inductive InsertEnd where
  | done | full | parity
  deriving DecidableEq, Repr

/-- An INSERT task over records, in record order; the search that an insert begins with meets the soft errors of the array
(R358, R359, R364). -/
def State.insertRecords (s : State) (table copy keyOff keyLen value : Nat) :
    List (List Byte) → State × InsertEnd
  | [] => (s, .done)
  | r :: rs =>
    match s.lynxTable table with
    | none => (s, .done)
    | some x =>
      let a := x.search copy (lynxVerifies s x) (slice r keyOff keyLen)
      let s1 := s.afterSearch table a
      match a.word with
      | none => (s1, .parity)
      | some w =>
        let (s2, full) := s1.lynxInsert table (slice r keyOff keyLen) value (bitsOf w 62 62 = 1)
        if full then (s2, .full) else s2.insertRecords table copy keyOff keyLen value rs

/-- A Lynx stage (R53, R356 to R359, R363, R364). -/
def State.runLynx (s : State) (f : Flow) (t : Task) (unit op table keyOff keyLen : Nat) (soft : List SoftEntry) : State :=
  let p := taskInput s t
  let s := s.lynxSoft table (unit % 16) soft
  match s.lynxTable table with
  | none => s.failTask t stTrailMalformed
  | some x =>
    let (recs, rest) := recordsOf f.trail.recordSize p.bytes
    if op = 3 then
      let (s1, ending) := s.insertRecords table (unit % 16) keyOff keyLen (t.chunk % 2 ^ 24) recs
      match ending with
      | .done => s1.emit t p false
      | .full => s1.failTask t stCapacity
      | .parity => s1.failTask t stSearchParity
    else if x.faulted then s.failTask t stSearchParity
    else
      let (s1, kept) := s.matchRecords table (unit % 16) op keyOff x.keyLen [] recs
      match kept with
      | some out => s1.emit t { bytes := out ++ (if op = 2 then rest else []), sealed := none } false
      | none => s1.failTask t stSearchParity

/-- A DIGEST stage (R314, R322). -/
def State.runDigest (s : State) (f : Flow) (t : Task) : State :=
  let bs := fragmentBytes s t
  let h := t.token.getD 0
  let c := h % 2 ^ 14
  match s.dgs.ctxs.find c with
  | none => s.failTask t stPoisoned
  | some x =>
    if x.dead then s.failTask t stKeysErased
    else if x.msg.length % 2 ^ 48 ≠ h / 2 ^ 16 then s.failTask t stPoisoned
    else
      let s1 := (s.onDgs fun d => { d with ctxs := d.ctxs.set c { x with msg := x.msg ++ bs } }).addCnt (rDgsCount 0) bs.length
      let next := (h / 2 ^ 16 + bs.length) % 2 ^ 48 * 2 ^ 16 + c
      (s1.passOn t).stateToken t (if f.bound then next else 0)

/-! ## Sinks (R63 to R67, R70) -/

/-- Where a sink puts a chunk: the byte offset, the payload bytes it keeps, and the first mismatch. -/
structure SinkPlan where
  start : Nat
  keep  : Nat
  miss  : Option (Nat × Nat)
  deriving DecidableEq, Repr

/-- The plan for a chunk of a length, with a limit, the size of a slot and the state token's offset. -/
def sinkPlan (place : Placement) (limit slot chunkSize chunk len offset : Nat) : SinkPlan :=
  match place with
  | .slotted =>
    let kept := Nat.min len (slot - 32)
    let over1 := if kept < len then some (slot - 32, len) else none
    if limit < (chunk + 1) * slot then
      { start := chunk * slot, keep := 0, miss := over1.or (some (limit, (chunk + 1) * slot)) }
    else { start := chunk * slot, keep := kept, miss := over1 }
  | p =>
    let start := if p = .direct then chunk * chunkSize else offset
    { start := start, keep := Nat.min len (limit - start), miss := if limit < start + len then some (limit, start + len) else none }

/-- The slot header (R64). -/
def slotHeader (len chunk : Nat) (nonce : List Byte) : List Byte :=
  let h := leBytes 4 0x7A1E5107 ++ leBytes 4 len ++ leBytes 8 chunk ++ padTo 12 nonce
  h ++ leBytes 4 (crc32c h)

/-- What a sink writes for a plan. -/
def sinkBytes (place : Placement) (p : SinkPlan) (pay : Payload) (chunk : Nat) : List Byte :=
  if p.keep = 0 then []
  else if place = .slotted then slotHeader p.keep chunk (pay.sealed.getD (zeros 12)) ++ pay.bytes.take p.keep
  else pay.bytes.take p.keep

/-- A sink's task ends: a mismatch is recorded, the chunk retires, and the state token goes on to the next chunk. -/
def State.sinkDone (s : State) (f : Flow) (t : Task) (keep : Nat) (miss : Option (Nat × Nat)) : State :=
  let s1 := match miss with
    | some (d, a) => s.mismatch t.flow t.stage d a
    | none => s
  let s2 := (s1.freeBuf t.buf).retireChunk t keep
  if Trail.chained f.trail t.stage then s2.stateToken t (t.token.getD 0 + keep) else s2

/-- The LBAs that some bytes of a namespace from an LBA on meet. -/
def lbasOver (n : Ns) (slba start len : Nat) : Nat × Nat :=
  let first := start / n.lbaSize
  (slba + first, ceilDiv (start + len) n.lbaSize - first)

/-- The plan of an LBA sink's task. -/
def lbaPlan (s : State) (f : Flow) (n : Ns) (t : Task) (place : Placement) (extent slot : Nat) : SinkPlan :=
  sinkPlan place (extent * n.lbaSize) (slot * n.lbaSize) (sourceChunk s f.trail) t.chunk t.len (t.token.getD 0)

/-- The LBAs that an LBA sink's task writes. -/
def lbaTarget (n : Ns) (place : Placement) (slba : Nat) (p : SinkPlan) : Nat × Nat :=
  lbasOver n slba p.start (if place = .slotted then 32 + p.keep else p.keep)

/-- What an LBA sink's task writes and deallocates: the first LBA, the LBAs of its payload, and those after them in its slot.
An empty chunk deallocates its whole slot (R50, R65); where that slot does not lie wholly within EXTENT, R70 has a SLOTTED sink
write nothing, and the model deallocates nothing and records no mismatch. DEDUCED (notes/assumptions/27.md). -/
def lbaExtent (n : Ns) (t : Task) (place : Placement) (slba extent slot : Nat) (p : SinkPlan) : Nat × Nat × Nat :=
  let first := slba + t.chunk * slot
  if t.empty then (first, 0, if place = .slotted ∧ (t.chunk + 1) * slot ≤ extent then slot else 0)
  else if p.keep = 0 then (first, 0, 0)
  else
    let (a, k) := lbaTarget n place slba p
    (a, k, if place = .slotted then first + slot - (a + k) else 0)

/-- Make the LBAs of an admitted write's rest read as zeros: whole IUs are deallocated, and the LBAs of others are set to 0 in
the slots that the admission took (R50, R65, R188). -/
def State.zeroLbas (s : State) (n : Ns) (slba nlb : Nat) : State :=
  (iusOf n slba nlb).foldl (fun u iu =>
    if coversIu n slba nlb iu then (if (u.entryOf iu).st = .unmapped then u else u.deallocIu iu)
    else
      let (off, len, _) := iuSpan n slba nlb iu
      u.fillSlot iu off (zeros len)) s

/-- A memory sink's task (R614). -/
def State.runMemorySink (s : State) (f : Flow) (t : Task) (channel : Nat) (st : Stage) : State :=
  let pay := taskInput s t
  match st with
  | .hostSink place addr cap slot =>
    let p := sinkPlan place cap slot (sourceChunk s f.trail) t.chunk t.len (t.token.getD 0)
    let bs := sinkBytes place p pay t.chunk
    let s1 := if bs.isEmpty then s else s.post (portOfFn f.owner) (.hostWrite f.owner (addr + p.start) bs)
    (s1.countDma bs.length).sinkDone f t p.keep p.miss
  | .slmSink place range addr cap slot =>
    let p := sinkPlan place cap slot (sourceChunk s f.trail) t.chunk t.len (t.token.getD 0)
    let bs := sinkBytes place p pay t.chunk
    if !s.up .mem then (s.dmaBridge 2).dmaTaskFail t channel 3 (addr + p.start)
    else if s.slmFits range (addr + p.start) bs.length then
      ((s.slmWrite range (addr + p.start) bs).countDma bs.length).sinkDone f t p.keep p.miss
    else s.dmaTaskFail t channel 4 (addr + p.start)
  | _ => s

/-- What one LBA holds; an LBA that cannot be read counts as zeros. -/
def oldLba (s : State) (n : Ns) (lba : Nat) : List Byte :=
  match lbaBytes s n lba 1 with | .ok x => x | .error _ => zeros n.lbaSize

/-- The bytes that an admitted sink write puts in its LBAs: a SLOTTED slot is filled up with zeros, the edges of other data
keep what their own LBAs hold. -/
def sinkLbaBytes (s : State) (n : Ns) (a : AdmittedWrite) (place : Placement) (slba : Nat) (p : SinkPlan) (bs : List Byte) : List Byte :=
  if place = .slotted then padTo (a.nlb * n.lbaSize) bs
  else
    let into := p.start - (a.slba - slba) * n.lbaSize
    let head := if into = 0 then [] else (oldLba s n a.slba).take into
    let past := (into + bs.length) % n.lbaSize
    let tail := if past = 0 then [] else (oldLba s n (a.slba + a.nlb - 1)).drop past
    head ++ bs ++ tail

/-- The admitted write of a sink's task. -/
def sinkWrite (s : State) (t : Task) : Option AdmittedWrite := s.ftl.admitted.find? fun a => a.kind.isOf t.flow t.cslot

/-- An LBA write sink's task: while MEM is in reset it meets a bridge error (R15, R16, R50, R65, R66, R99, R614). -/
def State.runLbaSink (s : State) (f : Flow) (t : Task) (place : Placement) (nsid slba extent slot : Nat) : State :=
  match s.ns.find nsid with
  | none => s.failTask t stInvalidNs
  | some n =>
    let p := lbaPlan s f n t place extent slot
    let miss := if t.empty then none else p.miss
    match sinkWrite s t with
    | some a =>
      if !s.up .mem then (s.noteBridge .mem .engine).failTask t stBusError
      else
        let bs := sinkBytes place p (taskInput s t) t.chunk
        let s1 := s.writeArrived a n (if a.nlb = 0 then [] else sinkLbaBytes s n a place slba p bs)
        let s2 := (s1.addLife (lifeSmart f.owner 1) (a.nlb * n.lbaSize)).zeroLbas n (a.slba + a.nlb) a.kind.rest
        (s2.bufPeak).sinkDone f t (if t.empty then 0 else p.keep) miss
    | none =>
      let (a, _, rest) := lbaExtent n t place slba extent slot p
      if rest = 0 then s.sinkDone f t 0 miss
      else if !s.up .mem then (s.noteBridge .mem .engine).failTask t stBusError
      else
        let s1 := ((zeroIus s n a rest).foldl (fun u iu => u.takeSlot nsid f.owner iu) s).zeroLbas n a rest
        (s1.bufPeak).sinkDone f t 0 miss

/-- The slots that the empty task of a SLOTTED sink lacks for the IUs that it deallocates in part and that hold data: it ends once
the buffer has them (R50, R65, R99; notes/assumptions/27.md). -/
def sinkLacks (s : State) (f : Flow) (t : Task) (place : Placement) (nsid slba extent slot : Nat) : Bool :=
  match s.ns.find nsid with
  | some n =>
    let (a, _, rest) := lbaExtent n t place slba extent slot (lbaPlan s f n t place extent slot)
    t.empty && decide (32768 < s.ftl.slots.length + newSlots s (zeroIus s n a rest))
  | none => false

/-! ## Empty chunks (R50, R99) -/

/-- A ready task with an empty payload completes without a unit. -/
def State.emptyTask (s : State) (f : Flow) (t : Task) (st : Stage) : State :=
  if st.isSink then s.sinkDone f t 0 none
  else if st.isGcmDecrypt ∧ !t.skipped then s.tagFail t
  else
    let s1 := s.dataToken t.dataTag none 0 t.skipped
    if st.isDigest then s1.stateToken t (t.token.getD 0) else s1

end Sys2Proof.Machine
end

