-- ==== Sys2Proof/Machine/Host.lean ====
section
/-! DEFINITION. The meanings of what happens at the host ports: resets and links, doorbells and fetching, controller enable
and shutdown, flow control, function-level resets, queues, aborts, event requests, features, Format NVM and Sanitize
(R441 to R451, R470 to R472, R486, R585, R607). What the NVMe base specification prescribes beyond the manual is PRESUMED
(notes/assumptions/11.md). -/

namespace Sys2Proof.Machine

/-! ## Ports and links (R441, R444, R607) -/

/-- The ports work: HOST is out of reset, with boot under way or done. -/
def portsLive (s : State) : Bool := (s.sys.phase = .running || s.sys.phase = .booting) && s.up .host

/-- A port reset, and what waited for the commands and Trails that it ends. -/
def State.resetPort (s : State) (p : Port) : State := (s.portReset p).forcedAll.rekeyAdvance

def execPortReset (port : Port) (s : State) : Host.Outcome State Fault Refusal :=
  .next (if portsLive s ∧ (s.port port).present then s.resetPort port else s)

/-- PERST_N has been low for 1 µs. -/
def execPerstAssert (port : Port) (s : State) : Host.Outcome State Fault Refusal :=
  .next (
    let s1 := s.onPort port fun q => { q with perstN := false }
    if portsLive s ∧ (s.port port).present then s1.resetPort port else s1)

/-- PERST_N rises: the port begins link training, at once or at step 3 of boot. -/
def execPerstDeassert (port : Port) (s : State) : Host.Outcome State Fault Refusal :=
  .next (s.onPort port fun q => { q with perstN := true, training := q.training || (portsLive s && q.present && !q.linkUp) })

/-- A rate and a width that a link can train at. -/
def linkFits (s : State) (rate width : Nat) : Bool :=
  (rate = 16 || rate = 32 || rate = 64) && (width = 1 || width = 2 || width = 4 || width = 8 || (width = 16 && !s.sys.portSplit))

/-- Training ends. `credits` is how many posted writes the host accepts before it returns more. -/
def execLinkTrained (port : Port) (rate width credits : Nat) (s : State) : Host.Outcome State Fault Refusal :=
  .next (if portsLive s ∧ (s.port port).training ∧ linkFits s rate width then
    s.onPort port fun q => { q with linkUp := true, l12 := false, training := false, rate := rate, width := width, credits := credits }
  else s)

/-- Send the posted writes that wait, in order, while credits last. -/
def drainPosted : Nat → List Out → List Out × List Out
  | _, [] => ([], [])
  | 0, os => ([], os)
  | n + 1, o :: os => (o :: (drainPosted n os).1, (drainPosted n os).2)

/-- The host returns flow-control credits: what waited goes out (R445). -/
def execFlowControlCreditReturn (port : Port) (credits : Nat) (s : State) : Host.Outcome State Fault Refusal :=
  .next (if portsLive s ∧ (s.port port).linkUp then
    let q := s.port port
    let (out, rest) := drainPosted (q.credits + credits) q.stalled
    (s.onPort port fun q => { q with credits := q.credits + credits - out.length, stalled := rest }).onHost fun h =>
      { h with sent := h.sent ++ out }
  else s)

/-- A read of host memory received no completion (R445): a DMA operation ends with code 2, another task with BUS_ERROR, an
NVM command with Data Transfer Error. -/
def State.completionTimeout (s : State) (req : BridgeReq) : State :=
  match req with
  | .trailTask flow stage cslot =>
    match s.disp.running.find? fun r => isEntry flow stage cslot r.task with
    | some r =>
      let s1 := s.onDisp fun d => { d with running := d.running.erase r }
      if r.cls = .dma then s1.dmaTaskFail r.task r.unit 2 0 else s1.failTask r.task stBusError
    | none => s
  | .nvm w => ((s.dropNvm w).complete w stDataTransfer 0 0).rekeyAdvance
  | _ => s

/-- The function for which a bridge request ran. -/
def reqFn (s : State) : BridgeReq → Fn
  | .trailTask flow _ _ => match s.flow flow with | some f => f.owner | none => 0
  | .nvm w => w.fn
  | _ => 0

def execPcieCompletionTimeout (req : BridgeReq) (s : State) : Host.Outcome State Fault Refusal :=
  .next (if s.running then (s.addLife (lifeErr (if portOfFn (reqFn s req) = .a then 11 else 12) true) 1).completionTimeout req else s)

/-- A write unmasks an MSI-X vector: a message held as its pending bit is sent (R585). -/
def execMsiXUnmask (port : Port) (fn : Fn) (vector : Nat) (s : State) : Host.Outcome State Fault Refusal :=
  .next (if portsLive s ∧ s.fnExists fn ∧ portOfFn fn = port ∧ vector < (if isManager fn then 2048 else 64) then
    let held := decide (vector ∈ (s.ctrl fn).msixHeld)
    let s1 := s.onCtrl fn fun c => { c with unmasked := addOnce c.unmasked vector, msixHeld := c.msixHeld.filter fun v => v ≠ vector }
    if held then s1.post port (.msix fn vector) else s1
  else s)

/-! ## Doorbells and fetching (R449, R474, R479, R542) -/

/-- A controller whose registers the host reaches. -/
def reachable (s : State) (f : Fn) : Bool :=
  s.running && s.up .host && s.fnExists f && (s.port (portOfFn f)).linkUp && (s.ctrl f).flr.isNone

/-- The queue that a doorbell names. -/
def doorbellQueue (c : Ctrl) (qid : Nat) (isCq : Bool) : Option Queue :=
  if qid = 0 then some (if isCq then c.adminCq else c.adminSq) else c.queues.find? fun q => decide (q.qid = qid) && q.isCq = isCq

/-- A doorbell write. During HIBERNATE entry it abandons the entry; in HIBERNATE, during the wake and while Lynx is reloaded it is kept
(R40, R369). -/
def State.doorbell (s : State) (f : Fn) (qid : Nat) (isCq : Bool) (value : Nat) : State :=
  match doorbellQueue (s.ctrl f) qid isCq with
  | none => s.raiseEvent f ⟨0, 0, 1⟩
  | some q =>
    if q.size ≤ value then s.raiseEvent f ⟨0, 1, 1⟩
    else if s.power.effective = .hibernate then
      let s1 := s.onPower fun p => { p with keptDoorbells := p.keptDoorbells ++ [(f, qid, isCq, value)] }
      if s.power.waking.isNone then s1.wakeBy .link else s1
    else if s.lynx.restoring then s.onPower fun p => { p with keptDoorbells := p.keptDoorbells ++ [(f, qid, isCq, value)] }
    else
      let s1 := if s.power.hibEntry.isSome ∧ qid ≠ 0 then serveWaiting s.abandonTransition.power.waiting s.abandonTransition else s
      s1.ringDoorbell f qid isCq value

def execDoorbellWrite (fn : Fn) (qid : Nat) (isCq : Bool) (value : Nat) (s : State) : Host.Outcome State Fault Refusal :=
  .next (if reachable s fn ∧ (s.ctrl fn).rdy then s.doorbell fn qid isCq value else s)

/-- Fetching from a queue stops while a TRAIL_SUBMIT of it waits in admission or a write of it at step 3 of R194. -/
def fetchStopped (s : State) (f : Fn) (sq : Nat) : Bool :=
  (s.disp.waiting.any fun x => decide (x.who.fn = f) && decide (x.who.sq = sq)) ||
  s.ftl.waiting.any fun x => !x.kind.isSink && decide (x.who.fn = f) && decide (x.who.sq = sq)

/-- I/O commands of a function that are outstanding. -/
def ioOutstanding (c : Ctrl) : Nat := (c.fetched.filter fun x => decide (x.sq ≠ 0)).length

/-- A submission queue has an entry that the G9 may fetch. -/
def fetchOpen (s : State) (f : Fn) (sq : Nat) : Bool :=
  let c := s.ctrl f
  (match doorbellQueue c sq false with | some q => decide (q.head ≠ q.tail) | none => false) &&
  (sq = 0 || decide (ioOutstanding c < c.credits)) && !fetchStopped s f sq

/-- The submission queues of a controller that have an entry to fetch, by number, the admin queue first. -/
def openSqs (s : State) (f : Fn) : List Nat :=
  (0 :: (((s.ctrl f).queues.filter fun q => !q.isCq).map (·.qid)).mergeSort).filter (fetchOpen s f)

/-- The commands that arbitration takes from one queue in a row: the Arbitration Burst of the Arbitration feature, none for no limit
(R449; NVMe base: PRESUMED, notes/assumptions/11.md). -/
def arbBurst (c : Ctrl) : Option Nat := let n := fld (c.features.getD 0x01 0) 2 0; if n = 7 then none else some (2 ^ n)

/-- Round robin over some queues: the next one after the queue served last, or that one again within its burst. -/
def rrTurn (c : Ctrl) (qs : List Nat) (sq : Nat) : Bool :=
  decide ((qs.find? fun q => decide (c.arbSq < q)).or qs.head? = some sq) ||
  (decide (sq = c.arbSq) && decide (sq ∈ qs) && (match arbBurst c with | some b => decide (c.arbRun < b) | none => true))

/-- CC.AMS selects weighted round robin with an urgent class. -/
def weighted (c : Ctrl) : Bool := fld c.cc 13 11 = 1

/-- The priority of a queue: 0 urgent, 1 high, 2 medium, 3 low; the admin queue goes before them all. -/
def sqPrio (c : Ctrl) (sq : Nat) : Nat := match c.queues.find? fun q => !q.isCq && decide (q.qid = sq) with | some q => q.prio | none => 0

/-- The commands that a class below urgent may have in a round: its weight, 0's based. -/
def arbWeight (c : Ctrl) (prio : Nat) : Nat := let v := c.features.getD 0x01 0; fld v (39 - 8 * prio) (32 - 8 * prio) + 1
/-- A class has a turn left in the round. -/
def turnLeft (c : Ctrl) (prio : Nat) : Bool := decide (c.arbUsed.getD (prio - 1) 0 < arbWeight c prio)
/-- Every class that has an entry to fetch has had its turns: the next fetch begins a round. -/
def roundOver (c : Ctrl) (qs : List Nat) : Bool := qs.all fun q => !turnLeft c (sqPrio c q)

/-- The queues among which round robin chooses: all of them, or of the classes the highest with an entry, where the three weighted
ones take turns by their weights. -/
def arbGroup (s : State) (f : Fn) (sq : Nat) : List Nat :=
  let c := s.ctrl f
  let qs := openSqs s f
  if !weighted c then qs
  else if 0 ∈ qs then [0]
  else
    let urgent := qs.filter fun q => decide (sqPrio c q = 0)
    if !urgent.isEmpty then urgent
    else if roundOver c qs || turnLeft c (sqPrio c sq) then qs.filter fun q => decide (sqPrio c q = sqPrio c sq)
    else []

/-- Arbitration takes this queue next (R449). -/
def fetchTurn (s : State) (f : Fn) (sq : Nat) : Bool := rrTurn (s.ctrl f) (arbGroup s f sq) sq

/-- The G9 may fetch an entry of this queue. -/
def mayFetch (s : State) (f : Fn) (sq cid : Nat) : Bool :=
  let c := s.ctrl f
  reachable s f && s.up .ctrl && c.rdy && !c.cfs && c.shst = 0 && c.freeze = .none && s.power.hibEntry.isNone &&
  s.power.effective ≠ .hibernate && !s.outstanding ⟨f, sq, cid⟩ && fetchTurn s f sq

/-- Take the entry at the head of a submission queue. -/
def fetchFrom (c : Ctrl) (sq : Nat) : Ctrl :=
  if sq = 0 then { c with adminSq := { c.adminSq with head := c.adminSq.next c.adminSq.head } }
  else { c with queues := c.queues.map fun q => if !q.isCq ∧ q.qid = sq then { q with head := q.next q.head } else q }

/-- Arbitration has served a queue. -/
def arbServed (s : State) (f : Fn) (sq : Nat) : Ctrl :=
  let c := s.ctrl f
  let p := sqPrio c sq
  let used := if sq = 0 ∨ p = 0 then c.arbUsed
    else
      let old := if roundOver c (openSqs s f) then [0, 0, 0] else c.arbUsed
      old.set (p - 1) (old.getD (p - 1) 0 + 1)
  { c with arbSq := sq, arbRun := if sq = c.arbSq then c.arbRun + 1 else 1, arbUsed := used }

def execCommandFetch (fn : Fn) (sq cid : Nat) (s : State) : Host.Outcome State Fault Refusal :=
  .next (if mayFetch s fn sq cid then
    let s1 := s.onCtrl fn fun _ =>
      let d := fetchFrom (arbServed s fn sq) sq
      { d with fetched := d.fetched ++ [⟨sq, cid, s.now, none⟩] }
    if sq = 0 then s1 else s1.onHealth fun h => { h with life := h.life.set (lifeSmart fn 6) 1 }
  else s)

/-! ## Controllers (R447, R448, R451, R489) -/

/-- CC.EN goes from 0 to 1: CSTS.RDY is 1. A frozen instance ignores writes to its controller registers. The reserved bits of CC,
[31:24] and [3:1] by the NVMe base specification, stay 0 (R5; notes/assumptions/11.md). -/
def execControllerEnable (fn : Fn) (cc aqa : W32) (asq acq : W64) (s : State) : Host.Outcome State Fault Refusal :=
  .next (if reachable s fn ∧ s.up .ctrl ∧ (s.ctrl fn).freeze = .none ∧ bitAt cc 0 ∧ !bitAt (s.ctrl fn).cc 0 then
    s.onCtrl fn fun c =>
      { c with cc := cc &&& 0x00FFFFF1#32, rdy := true, cfs := false, shst := 0,
               adminSq := { Queue.admin with size := fld aqa 11 0 + 1, base := (asq &&& ~~~0xFFF#64).toNat },
               adminCq := { Queue.admin with isCq := true, size := fld aqa 27 16 + 1, base := (acq &&& ~~~0xFFF#64).toNat } }
  else s)

/-- CC.EN goes from 1 to 0. -/
def execControllerDisable (fn : Fn) (s : State) : Host.Outcome State Fault Refusal :=
  .next (if reachable s fn ∧ (s.ctrl fn).freeze = .none ∧ bitAt (s.ctrl fn).cc 0 then
    ((s.resetController fn).onCtrl fn fun c => { c with cc := c.cc &&& 0xFFFFFFFE#32 }).forcedAll.rekeyAdvance
  else s)

/-- Nothing is left of what a shutdown flushes. -/
def flushedOut (s : State) : Bool := s.ftl.slots.isEmpty && s.str.stripes.isEmpty

/-- CC.SHN: a manager function flushes the whole write buffer and closes every open stripe; the
lifetime records are written, and CSTS.SHST is 1 until the flush is done, then 2 (R448, R565). A virtual function's controller only quiesces. -/
def execShutdownNotification (fn : Fn) (abrupt : Bool) (s : State) : Host.Outcome State Fault Refusal :=
  .next (if reachable s fn ∧ (s.ctrl fn).freeze = .none ∧ bitAt (s.ctrl fn).cc 0 then
    let s1 := s.onCtrl fn fun c => { c with cc := (c.cc &&& 0xFFFF3FFF#32) ||| (if abrupt then 0x8000#32 else 0x4000#32), shst := 2 }
    if isManager fn then
      let s2 := s1.flushAll.beginLife
      if flushedOut s2 then s2 else s2.onCtrl fn fun c => { c with shst := 1 }
    else s1
  else s)

/-- NVM Subsystem Reset, by NSSR of a manager function or by the sideband: an L4 reset. -/
def execNvmSubsystemReset (by_ : Option Fn) (s : State) : Host.Outcome State Fault Refusal :=
  .next (
    let may : Bool := match by_ with | some f => isManager f && reachable s f | none => true
    if may then s.l4Reset .aon 9 .subsystemReset else s)

def execKeepAlive (w : Who) (s : State) : Host.Outcome State Fault Refusal := .next (if s.adminReady w then s.admin w stOk 0 else s)

/-- The Keep Alive Timer runs out: the controller stops with CSTS.CFS and nothing of it is outstanding. The timer of an instance
that a freeze holds stands still. -/
def execKeepAliveTimerExpiry (fn : Fn) (s : State) : Host.Outcome State Fault Refusal :=
  .next (if reachable s fn ∧ (s.ctrl fn).rdy ∧ (s.ctrl fn).keepAlive ∧ (s.ctrl fn).freeze = .none then
    (((flowsOf s fn).foldl State.releaseFlow (s.dropCommands fn)).onCtrl fn fun c => { c with cfs := true, keepAlive := false }).forcedAll.rekeyAdvance
  else s)

/-! ## Function-level resets (R486, R487) -/

def execFunctionLevelReset (fn : Fn) (s : State) : Host.Outcome State Fault Refusal :=
  .next (if s.running ∧ s.up .host ∧ s.fnExists fn then (s.flrBegin fn).forcedAll else s)

/-- 2 ms into the reset: the engine operations that still run are aborted. -/
def execFlrAbortDeadline (fn : Fn) (s : State) : Host.Outcome State Fault Refusal :=
  .next (if s.running ∧ (s.ctrl fn).flr = some 1 then s.flrAbort fn else s)

def execFlrComplete (fn : Fn) (s : State) : Host.Outcome State Fault Refusal :=
  .next (if s.running ∧ (s.ctrl fn).flr.isSome then (s.flrEnd fn).forcedAll.rekeyAdvance else s)

/-! ## Queues (R446, R447) -/

/-- I/O queue pairs a function has created: its submission queues. -/
def queuePairs (c : Ctrl) : Nat := (c.queues.filter fun q => !q.isCq).length
def hasQueue (c : Ctrl) (isCq : Bool) (qid : Nat) : Bool := c.queues.any fun q => q.isCq = isCq && decide (q.qid = qid)

/-- Why a Create I/O Queue fails. -/
def queueRefused (c : Ctrl) (f : Fn) (isCq : Bool) (qid size base cqid vector : Nat) (contiguous : Bool) : Option Status :=
  let made := (c.queues.filter fun q => q.isCq = isCq).length
  if qid = 0 ∨ 65535 < qid ∨ hasQueue c isCq qid ∨ c.share.queuePairs ≤ made ∨ c.share.queuePairs < qid then some stInvalidQueue
  else if size < 2 ∨ 65536 < size then some stInvalidQueueSize
  else if !contiguous ∨ base % 4096 ≠ 0 then some stInvalidField
  else if isCq ∧ (if isManager f then 2048 else 64) ≤ vector then some stInvalidVector
  else if !isCq ∧ !hasQueue c true cqid then some stCqInvalid
  else none

def execCreateIoQueue (w : Who) (isCq : Bool) (qid size base cqid vector prio : Nat) (contiguous ien : Bool) (s : State) :
    Host.Outcome State Fault Refusal :=
  .next (if s.adminReady w then
    match queueRefused (s.ctrl w.fn) w.fn isCq qid size base cqid vector contiguous with
    | some st => s.admin w st 0
    | none =>
      let q : Queue := { qid := qid, isCq := isCq, size := size, base := base, cqid := if isCq then 0 else cqid,
                         vector := if isCq then vector else 0, prio := if isCq then 0 else prio % 4, ien := ien, head := 0, tail := 0,
                         phase := true }
      (s.onCtrl w.fn fun c => { c with queues := c.queues ++ [q] }).admin w stOk 0
  else s)

/-- The command of a deleted submission queue is aborted. -/
def State.abortOf (s : State) (w : Who) : State :=
  let s1 := (s.dropNvm w).onDisp fun d =>
    { d with waiting := d.waiting.filter fun x => x.who ≠ w,
             flows := Tbl.mapVals d.flows fun _ x =>
               { x with queries := x.queries.filter fun q => q ≠ w, cancelers := x.cancelers.filter fun q => q ≠ w } }
  s1.complete w stSqDeleted 0 0

def execDeleteIoQueue (w : Who) (isCq : Bool) (qid : Nat) (s : State) : Host.Outcome State Fault Refusal :=
  .next (if s.adminReady w then
    let c := s.ctrl w.fn
    if qid = 0 ∨ !hasQueue c isCq qid then s.admin w stInvalidQueue 0
    else if isCq ∧ c.queues.any (fun q => !q.isCq && decide (q.cqid = qid)) then s.admin w stQueueDeletion 0
    else
      let mine := if isCq then [] else (c.fetched.filter fun x => x.sq = qid).map fun x => (⟨w.fn, x.sq, x.cid⟩ : Who)
      let s1 := mine.foldl State.abortOf s
      ((s1.onCtrl w.fn fun c => { c with queues := c.queues.filter fun q => !(q.isCq = isCq && decide (q.qid = qid)) }).admin w stOk 0).rekeyAdvance
  else s)

/-! ## Aborts and event requests (R447, R450, R466) -/

/-- A TRAIL_SUBMIT that waits in admission, or a TRAIL_QUERY that waits, is ended by the Abort that names it. -/
def State.abortCommand (s : State) (x : Who) : State × Bool :=
  if s.disp.waiting.any fun t => t.who = x && !t.execBy then
    ((s.onDisp fun d => { d with waiting := d.waiting.filter fun t => t.who ≠ x }).io x stAbortRequested 0, true)
  else if s.disp.flows.any fun e => x ∈ e.2.queries then
    ((s.onDisp fun d => { d with flows := Tbl.mapVals d.flows fun _ f => { f with queries := f.queries.filter fun q => q ≠ x } }).io x
      stAbortRequested 0, true)
  else (s, false)

def execAbort (w : Who) (sq cid : Nat) (s : State) : Host.Outcome State Fault Refusal :=
  .next (if s.adminReady w then
    let (s1, done) := s.abortCommand ⟨w.fn, sq, cid⟩
    s1.admin w stOk (if done then 0 else 1)
  else s)

def execAsynchronousEventRequest (w : Who) (s : State) : Host.Outcome State Fault Refusal :=
  .next (if s.adminReady w then
    let c := s.ctrl w.fn
    if 16 ≤ c.aers.length then s.admin w stAerLimit 0
    else match c.events with
      | e :: rest => (s.onCtrl w.fn fun c => { c with events := rest, reported := c.reported ++ [e] }).admin w stOk (aenDw0 e)
      | [] => s.onCtrl w.fn fun c => { c with aers := c.aers ++ [w.cid] }
  else s)

/-! ## Features (R446, R451, R464) -/

/-- Features without data or effect of their own: Arbitration, Temperature Threshold, Interrupt Coalescing, Interrupt Vector
Configuration, Asynchronous Event Configuration. -/
def plainFeature (fid : Nat) : Bool := fid = 0x01 || fid = 0x04 || fid = 0x08 || fid = 0x09 || fid = 0x0B

/-- Every feature of R451. -/
def knownFeature (fid : Nat) : Bool :=
  plainFeature fid || fid = 0x02 || fid = 0x07 || fid = 0x0E || fid = 0x0F || fid = 0x81 || fid = 0x82 || fid = 0x83

/-- Where a feature of a namespace is kept in a controller. -/
def maskKey (nsid : Nat) : Nat := 0x8200000000 + nsid

/-- Number of Queues: the function's share, both counts 0's based. -/
def queuesDw0 (c : Ctrl) : W32 :=
  if c.share.queuePairs = 0 then Config.noQueues else w32 ((c.share.queuePairs - 1) * 65537)

def attachedTo (s : State) (f : Fn) (nsid : Nat) : Bool := match s.ns.find nsid with | some n => decide (f ∈ n.attached) | none => false

/-- Set Features for a standard feature. -/
def State.setFeature (s : State) (w : Who) (fid nsid : Nat) (cdw11 : W32) (data : List Byte) : State :=
  let keep := fun (t : State) => t.onCtrl w.fn fun c => { c with features := c.features.set fid cdw11 }
  if plainFeature fid then (keep s).admin w stOk 0
  else match fid with
    | 0x02 => if fld cdw11 4 0 = 0 then (keep s).admin w stOk 0 else s.admin w stInvalidField 0
    | 0x07 =>
      if fld cdw11 15 0 = 0xFFFF ∨ fld cdw11 31 16 = 0xFFFF then s.admin w stInvalidField 0 else s.admin w stOk (queuesDw0 (s.ctrl w.fn))
    | 0x0E =>
      if data.length < 8 then s.admin w stInvalidField 0
      else (s.onBoot fun b => { b with timestamp := some (leAt data 0 6, s.now) }).admin w stOk 0
    | 0x0F => ((keep s).onCtrl w.fn fun c => { c with keepAlive := cdw11 ≠ 0 }).admin w stOk 0
    | 0x81 =>
      if !bitAt cdw11 0 ∨ data.length < 16 then s.admin w stInvalidField 0
      else if (s.ctrl w.fn).hostId ≠ [] ∧ (s.ctrl w.fn).hostId ≠ data.take 16 then s.admin w stSequence 0
      else (s.onCtrl w.fn fun c => { c with hostId := data.take 16 }).admin w stOk 0
    | 0x82 =>
      if attachedTo s w.fn nsid then (s.onCtrl w.fn fun c => { c with features := c.features.set (maskKey nsid) cdw11 }).admin w stOk 0
      else s.admin w stInvalidNs 0
    | 0x83 =>
      if attachedTo s w.fn nsid then
        (s.onNs fun t => t.modify nsid fun n => { n with reservation := { n.reservation with ptpl := bitAt cdw11 0 } }).cfgWrite
          (.complete w stOk 0)
      else s.admin w stInvalidNs 0
    | _ => s.admin w stInvalidField 0

def execSetFeatures (w : Who) (fid nsid : Nat) (save : Bool) (cdw11 : W32) (data : List Byte) (s : State) :
    Host.Outcome State Fault Refusal :=
  .next (if s.adminReady w then
    if fid = 0xC0 then s.modeCommand w save cdw11
    else if !knownFeature fid then s.admin w stInvalidField 0
    else if save then s.admin w stNotSaveable 0
    else s.setFeature w fid nsid cdw11 data
  else s)

/-- What a feature holds before it is set: the warning threshold of the composite temperature, 398 K, for the over-temperature
threshold. -/
def featureDefault (fid : Nat) (cdw11 : W32) : W32 := if fid = 0x04 ∧ fld cdw11 21 16 = 0 then 398#32 else 0

/-- The Timestamp data structure: milliseconds, and the origin, 1 when a host set it. -/
def timestampData (s : State) : List Byte :=
  leBytes 6 (s.stamp % 2 ^ 48) ++ [if s.boot.timestamp.isSome then 2 else 0, 0]

/-- Get Features for a standard feature. -/
def State.getFeature (s : State) (w : Who) (fid nsid select : Nat) (cdw11 : W32) : State :=
  let c := s.ctrl w.fn
  if fid = 0x82 ∨ fid = 0x83 then
    if !attachedTo s w.fn nsid then s.admin w stInvalidNs 0
    else if select = 3 then s.admin w stOk 6
    else if select ≠ 0 then s.admin w stOk 0
    else if fid = 0x82 then s.admin w stOk (c.features.getD (maskKey nsid) 0)
    else s.admin w stOk (w32 (bitIf (match s.ns.find nsid with | some n => n.reservation.ptpl | none => false) 0))
  else if select = 3 then s.admin w stOk 4
  else if fid = 0x07 then s.admin w stOk (queuesDw0 c)
  else if fid = 0x0E then (s.dataOut w (if select = 0 then timestampData s else zeros 8)).admin w stOk 0
  else if fid = 0x81 then (s.dataOut w (if select = 0 then padTo 16 c.hostId else zeros 16)).admin w stOk 1
  else s.admin w stOk (if select = 0 then c.features.getD fid (featureDefault fid cdw11) else featureDefault fid cdw11)

def execGetFeatures (w : Who) (fid nsid select : Nat) (cdw11 : W32) (s : State) : Host.Outcome State Fault Refusal :=
  if fid = 0xC0 then execGetFeaturesMode w select s
  else .next (if s.adminReady w then
    if !knownFeature fid ∨ 3 < select then s.admin w stInvalidField 0 else s.getFeature w fid nsid select cdw11
  else s)

/-! ## Format NVM and Sanitize (R213, R286, R451, R472, R526) -/

/-- Begin to erase a namespace: a cryptographic erase asks for new keys of its ranges. -/
def State.beginErase (s : State) (nsid : Nat) (x : Erasing) : State :=
  let s1 := s.onNs fun t => t.modify nsid fun n => { n with erasing := some x }
  if x.crypto then
    match s.ns.find nsid with
    | some n => n.ranges.foldl (fun t r =>
        (t.onRange nsid r.id fun r => { r with rekeying := true }).onSea fun e => { e with rekeys := e.rekeys ++ [⟨nsid, r.id, none⟩] }) s1
    | none => s1
  else s1

def execFormatNvm (w : Who) (nsid ses lbaSize : Nat) (s : State) : Host.Outcome State Fault Refusal :=
  .next (if s.adminReady w then
    match s.ns.find nsid with
    | none => s.admin w stInvalidNs 0
    | some n =>
      if w.fn ∉ n.attached then s.admin w stInvalidNs 0
      else if n.erasing.isSome then s.admin w stNotReady 0
      else if s.reserved w.fn n true then s.admin w stReservation 0
      else if 2 < ses then s.admin w stInvalidField 0
      else if n.kind = .nvm ∧ lbaSize ≠ 512 ∧ lbaSize ≠ 4096 then s.admin w stInvalidFormat 0
      else
        (s.firstFormat.beginErase nsid { by_ := w.fn, who := some w, sanitize := false, crypto := decide (ses = 2),
                                         lbaSize := if n.kind = .nvm then lbaSize else n.lbaSize }).rekeyAdvance
  else s)

def execSanitize (w : Who) (crypto : Bool) (s : State) : Host.Outcome State Fault Refusal :=
  .next (if s.adminReady w then
    if !isManager w.fn then s.admin w stInvalidOpcode 0
    else if s.ns.any fun e => e.2.erasing.isSome then s.admin w stSanitizeBusy 0
    else
      let s1 := s.ns.foldl (fun t e => t.beginErase e.1 { by_ := w.fn, who := none, sanitize := true, crypto := crypto, lbaSize := e.2.lbaSize }) s
      ((s1.onHost fun h => { h with sanAction := if crypto then 4 else 2 }).admin w stOk 0).rekeyAdvance
  else s)

/-- What the erased namespace is: nothing stored, and its new LBA format over the same bytes. -/
def Ns.erased (n : Ns) (x : Erasing) : Ns :=
  let scale := fun k => if x.lbaSize = 0 then k else k * n.lbaSize / x.lbaSize
  { n with nsze := scale n.nsze, ncap := scale n.ncap, lbaSize := x.lbaSize, kv := [], mem := [], erasing := none,
           ranges := n.ranges.map fun r => { r with start := scale r.start, length := scale r.length } }

/-- The erase of a namespace ends once the keys it replaces are switched: its IUs are deallocated. -/
def execSanitizeComplete (nsid : Nat) (s : State) : Host.Outcome State Fault Refusal :=
  .next (if s.running ∧ s.up .ctrl then
    let s1 := s.rekeyAdvance
    match s1.ns.find nsid with
    | some n => match n.erasing with
      | some x =>
        if x.crypto ∧ n.ranges.any (·.rekeying) then s1
        else
          let s2 := s1.unmapIus (if n.kind = .memory then [] else iusOf n 0 n.nsze)
          let s3 := s2.onNs fun t => t.modify nsid fun m => m.erased x
          let s4 := match n.kvTable with
            | some t => s3.onLynxTable t LynxTable.cleared
            | none => s3
          match x.who with
          | some w => s4.admin w stOk 0
          | none => s4
      | none => s1
    | none => s1
  else s)

end Sys2Proof.Machine
end

