-- ==== Sys2Proof/Machine/Security.lean ====
section
/-! DEFINITION. The meanings of the key-store commands and events, of Opal locking and of the alarm (R275 to R278, R284 to
R286, R292, R293, R299 to R303). What TCG Opal itself prescribes is PRESUMED (notes/assumptions/30.md). -/

namespace Sys2Proof.Machine

/-! ## Security Protocol F0h (R277, R278) -/

def importKeyBytes (secret : List Byte) (id : Nat) : List Byte :=
  leBytes 4 id ++ bytesOf 1184 (Config.mlkemKey secret) ++ bytesOf 97 (Config.ecdhKey secret)

/-- GET_IMPORT_KEY: a single-use key pair, signed by the alias key. -/
def execGetImportKey (w : Who) (s : State) : Host.Outcome State Fault Refusal :=
  .next (if s.adminReady w then
    let id := s.host.nextImport % 2 ^ 32
    let (secret, s0) := s.random 64
    let s1 := s0.onHost fun h => { h with nextImport := h.nextImport + 1 }
    let body := importKeyBytes secret id
    ((s1.onSea fun e => { e with importKeys := e.importKeys ++ [⟨id, w.fn, secret⟩] }).dataOut w (body ++ s1.aliasSign body)).admin w stOk 0
  else s)

/-- 60 s have passed. -/
def execImportKeyExpiry (importId : Nat) (s : State) : Host.Outcome State Fault Refusal :=
  .next (s.onSea fun e => { e with importKeys := e.importKeys.filter fun k => k.id ≠ importId })

/-- A slot operation is durable in the configuration area, then in the ledger, and then completes (R275, R277). -/
def State.slotDone (s : State) (w : Who) (cause use slot : Nat) : State :=
  s.cfgWrite (.append (slotAppend s cause use slot (.complete w stOk 0)))

/-- The key that an import record carries, under the secret of its import key pair. -/
def importedKey (secret data : List Byte) (keyLen : Nat) : Option (List Byte) :=
  let ikm := bytesOf 32 (Config.mlkemDecap secret (slice data 8 1088)) ++ bytesOf 48 (Config.ecdhShared secret (slice data 0x448 97))
  let info : List Byte := [0x47, 0x39, 0x20, 0x6B, 0x65, 0x79, 0x20, 0x69, 0x6D, 0x70, 0x6F, 0x72, 0x74]
  kwUnwrap (hkdf384 (slice data 4 4) ikm info 32) (slice data 0x4B0 (keyLen + 8))

/-- A use 3 key may not have two equal halves. -/
def halvesEqual (use : Nat) (key : List Byte) : Bool := use = 3 && key.take 32 = key.drop 32

/-- The fields of an import record that must be 0. -/
def importReservedOk (data : List Byte) (keyLen : Nat) : Bool :=
  (slice data 0x4A9 7).all (· = 0) && (data.drop (0x4B0 + keyLen + 8)).all (· = 0)

/-- IMPORT. The import key is used up once the record names it; the slot takes the key as the command completes, so that an alarm before
that leaves it unchanged (R303). -/
def State.importSlot (s : State) (w : Who) (data : List Byte) : State :=
  let slot := leAt data 0 2
  let use := leAt data 2 1
  let len := leAt data 3 1
  if data.length ≠ 1272 then s.admin2 w stLengthMismatch (w32 1272) (w32 data.length)
  else if !s.slotAllowed w.fn use slot ∨ len ≠ slotKeyLen use ∨ !importReservedOk data len then s.admin w stInvalidField 0
  else match s.sea.importKeys.find? fun k => k.id = leAt data 4 4 && k.fn = w.fn with
    | none => s.admin w stInvalidField 0
    | some k =>
      let s1 := s.onSea fun e => { e with importKeys := e.importKeys.filter fun x => x ≠ k }
      match importedKey k.secret data len with
      | none => s1.admin w stTagFail 0
      | some key =>
        if halvesEqual use key then s1.admin w stInvalidField 0
        else if epochSpent s1 use then s1.admin w stKeyExhausted 0
        else if !s1.appendRoom then s1.admin w Config.appendFailStatus 0
        else s1.cfgWrite (.append (slotAppend s1 1 use slot (.loadKey w use slot key)))

def execImportKey (w : Who) (data : List Byte) (s : State) : Host.Outcome State Fault Refusal :=
  .next (if s.adminReady w then s.importSlot w data else s)

def execGenerate (w : Who) (slot use : Nat) (s : State) : Host.Outcome State Fault Refusal :=
  .next (if s.adminReady w then
    if !s.slotAllowed w.fn use slot then s.admin w stInvalidField 0
    else if epochSpent s use then s.admin w stKeyExhausted 0
    else if !s.appendRoom then s.admin w Config.appendFailStatus 0
    else
      let (key, s1) := s.random (slotKeyLen use)
      ((s1.loadSlot use slot key).uncache use slot).slotDone w 2 use slot
  else s)

/-- CLEAR: slot and stored copy are zeroed, and unfired tasks that use the slot fail (R303). -/
def execClear (w : Who) (slot use : Nat) (s : State) : Host.Outcome State Fault Refusal :=
  .next (if s.adminReady w then
    if !s.slotAllowed w.fn use slot then s.admin w stInvalidField 0
    else if !s.appendRoom then s.admin w Config.appendFailStatus 0
    else (((s.setSlot use slot (s.slotOf use slot).cleared).uncache use slot).failSlotUsers (Stage.usesSlot use slot)).slotDone w 3 use slot
  else s)

/-- The ERASED, DEVICE-bound slots of a port: uses and numbers. -/
def erasedKeySlots (s : State) (p : Port) : List (Nat × Nat) :=
  let pick := fun (t : Tbl KeySlot) => t.filter fun e => e.2.st = .erased && !e.2.credential && portOfFn e.2.owner = p
  ((pick s.sea.xts).map fun e => (e.2.use, e.1)) ++ ((pick s.sea.wrap).map fun e => (4, e.1))

/-- The records of a RESTORE, 32 slots in each; the last completes the command. -/
def restoreAppends (s : State) (w : Who) (slots : List (Nat × Nat)) : List Append :=
  let groups := chunksOf 32 slots
  groups.zipIdx.map fun g =>
    { kind := 4, cause := 4, comps := g.1.map (fun x => componentOf 7 x.1 (s.slotOf x.1 x.2).owner x.2),
      then_ := if g.2 + 1 = groups.length then .complete w stOk 0 else .nothing }

def execRestore (w : Who) (s : State) : Host.Outcome State Fault Refusal :=
  .next (if s.adminReady w then
    if !isManager w.fn then s.admin w stInvalidField 0
    else if alarmActive s then s.admin w stKeysErased 0
    else if !s.appendRoom then s.admin w Config.appendFailStatus 0
    else match erasedKeySlots s (portOfFn w.fn) with
      | [] => s.admin w stOk 0
      | slots =>
        let s1 := slots.foldl (fun t x => t.setSlot x.1 x.2 (t.restored x.1 x.2)) s
        (restoreAppends s1 w slots).foldl (fun t a => t.cfgWrite (.append a)) s1
  else s)

def slotStateCode : SlotState → Nat
  | .empty => 0 | .loaded => 1 | .erased => 2 | .locked => 3

/-- The slots that a function owns, as SLOT_STATUS returns them. -/
def slotStatus (s : State) (f : Fn) : List Byte :=
  let one := fun (e : Nat × KeySlot) => leBytes 4 (e.1 + slotStateCode e.2.st * 2 ^ 16 + e.2.use * 2 ^ 18)
  let mine := fun (t : Tbl KeySlot) => t.filter fun e => e.2.use ≠ 0 && decide (e.2.owner = f)
  ((mine s.sea.xts).flatMap one) ++ ((mine s.sea.wrap).flatMap one)

def execSlotStatus (w : Who) (s : State) : Host.Outcome State Fault Refusal :=
  .next (if s.adminReady w then (s.dataOut w (slotStatus s w.fn)).admin w stOk 0 else s)

/-! ## Nonce custody (R293) -/

/-- The log record that a slot waits for is programmed in every copy. -/
def execNonceLogWriteDone (slot : Nat) (s : State) : Host.Outcome State Fault Refusal :=
  .next (match (s.wrapSlot slot).logTarget with
    | some t =>
      if s.running ∧ !sysWaits s (.nonce slot) then
        let k := s.wrapSlot slot
        let s1 := ((s.setWrap slot { k with reservedTo := t, logTarget := none }).areaWrite areaNonce).onSea fun e =>
          e.nonceRecord { slot := slot, kind := 0, epoch := k.epoch, reservedTo := t, lseq := 0 }
        s1.nonceCheck slot 0
      else s
    | none => s)

/-! ## Opal (R284, R285) -/

/-- Method status codes. -/
def opalOk : Nat := 0
def opalNotAuthorized : Nat := 1
def opalBusy : Nat := 3
def opalNoSpace : Nat := 7
def opalInvalid : Nat := 0x0C

/-- Authorities: 0 to 3 Admins, 4 to 35 Users, 36 PSID, 37 SID. -/
def opalAuthorities : Nat := 38

/-- An Admin authority of the Locking SP is authenticated in the session. -/
def Opal.admin (o : Opal) : Bool := o.session && o.authorities.any fun a => decide (a < 4)

/-- An authority has access to a range: an Admin, or one that the range lists; its User alone in Single User Mode (R284). -/
def Range.admits (r : Range) (a : Nat) : Bool :=
  match r.single with
  | some u => decide (a = u)
  | none => decide (a < 4) || decide (a ∈ r.authorities)
/-- An authority with access to a range is authenticated. -/
def Opal.mayLock (o : Opal) (r : Range) : Bool := o.session && o.authorities.any r.admits

/-- The namespace and range that a method of a port names: its keys belong to the port's manager function. -/
def State.opalRange (s : State) (p : Port) (nsid range : Nat) : Option (Ns × Range) :=
  match s.ns.find nsid with
  | some n => match n.ranges.find? fun r => r.id = range with
    | some r => if portOfFn (s.xts r.slot).owner = p then some (n, r) else none
    | none => none
  | none => none

/-- Load the CREDENTIAL-bound slots of the ranges that an authority has access to, LOCKED ones and those that an alarm has erased (R285,
R302). -/
def State.unlockFor (s : State) (p : Port) (a : Nat) : State :=
  (s.ns.flatMap fun e => e.2.ranges).foldl (fun t r =>
    let k := t.xts r.slot
    if portOfFn k.owner = p ∧ k.credential ∧ (k.st = .locked ∨ k.st = .erased) ∧ r.admits a then t.setXts r.slot (t.restored 1 r.slot) else t) s

/-- A further range lies at multiples of the IU, inside its namespace, and meets no other further range. -/
def rangeFits (n : Ns) (id start length : Nat) : Bool :=
  1 ≤ id && id ≤ 64 && start * n.lbaSize % 16384 = 0 && length * n.lbaSize % 16384 = 0 && decide (start + length ≤ n.nsze) &&
  n.ranges.all fun r => r.id = 0 || r.id = id || decide (start + length ≤ r.start) || decide (r.start + r.length ≤ start)

/-- Set RangeStart and RangeLength; a new range takes an XTS slot with a key of its own. -/
def State.opalSetRange (s : State) (p : Port) (nsid id start length : Nat) : State × Nat :=
  match s.opalRange p nsid 0 with
  | none => (s, opalInvalid)
  | some (n, _) =>
    if !rangeFits n id start length then (s, opalInvalid)
    else if n.ranges.any fun r => r.id = id then
      (s.onRange nsid id fun r => { r with start := start, length := length }, opalOk)
    else match s.freeXts with
      | none => (s, opalNoSpace)
      | some k =>
        let (key, s1) := s.random 64
        let x : KeySlot := { KeySlot.free with
          st := .loaded, use := 2, owner := managerFn p, key := key, stored := some (kwWrap (bytesOf 32 Config.deviceKek) key) }
        let s2 := s1.setXts k x
        let r : Range := { id := id, start := start, length := length, slot := k, readEnabled := false, writeEnabled := false,
                           readLocked := false, writeLocked := false, lockOnReset := true, authorities := [], single := none,
                           rekeying := false, deallocating := false }
        (s2.onNs fun t => t.modify nsid fun n => { n with ranges := n.ranges ++ [r] }, opalOk)

/-- Ask for a new key of a range (R286). -/
def State.askRekey (s : State) (nsid range : Nat) (w : Option Who) : State :=
  (s.onRange nsid range fun r => { r with rekeying := true }).onSea fun e => { e with rekeys := e.rekeys ++ [⟨nsid, range, w⟩] }

/-- A further range goes: its XTS slot is free again, and its LBAs are the namespace global range's. -/
def State.opalRemove (s : State) (nsid id slot : Nat) : State :=
  (((s.setXts slot KeySlot.free).uncache 1 slot).onNs fun t => t.modify nsid fun n =>
    { n with ranges := n.ranges.filter fun r => r.id ≠ id }).onSea fun e =>
      { e with rekeys := e.rekeys.filter fun r => !(decide (r.nsid = nsid) && decide (r.range = id)) }

/-- PSID Revert: credentials, tables and further ranges go, and every namespace of the port takes a new key. -/
def State.opalRevert (s : State) (p : Port) : State :=
  let mine := s.ns.filter fun e => (e.2.ranges.find? fun r => r.id = 0).any fun r => portOfFn (s.xts r.slot).owner = p
  let s1 := mine.foldl (fun t e =>
    let t1 := (e.2.ranges.filter fun r => r.id ≠ 0).foldl (fun u r => u.opalRemove e.1 r.id r.slot) t
    let t2 := (e.2.ranges.filter fun r => r.id = 0).foldl (fun u r => u.setXts r.slot { u.xts r.slot with credential := false }) t1
    t2.onNs fun x => x.modify e.1 fun n =>
      { n with ranges := n.ranges.map fun r =>
          { r with readEnabled := false, writeEnabled := false, readLocked := false, writeLocked := false, authorities := [],
                   single := none } }) (s.onOpal p fun _ => Opal.reset)
  (mine.foldl (fun t e => t.askRekey e.1 0 none) (s1.rewrapped s)).rekeyAdvance

/-- A table write stays inside its table. -/
def tableWrite (m : Mem) (limit offset : Nat) (data : List Byte) : Option Mem :=
  if offset + data.length ≤ limit then some ((m.clear offset data.length).writeBytes offset data) else none

/-- A table read stays inside its table; what it returns is the method's response (R284). -/
def State.tableRead (s : State) (p : Port) (m : Mem) (limit offset length : Nat) : State × Nat :=
  if offset + length ≤ limit then (s.onOpal p fun o => { o with out := Mem.readBytes m offset length }, opalOk) else (s, opalInvalid)

/-- The range that a method names, for an authority that may; else the method's status. -/
def State.opalOn (s : State) (p : Port) (nsid id : Nat) (may : Range → Bool) : Except Nat Range :=
  match s.opalRange p nsid id with
  | none => .error opalInvalid
  | some (_, r) => if may r then .ok r else .error opalNotAuthorized

/-- The effect of a method, and its status. -/
def State.opalMethod (s : State) (p : Port) (m : OpalMethod) : State × Nat :=
  let o := s.opal p
  match m with
  | .startSession => if o.session then (s, opalBusy) else (s.onOpal p fun o => { o with session := true, authorities := [] }, opalOk)
  | .endSession => if o.session then (s.onOpal p fun o => { o with session := false, authorities := [] }, opalOk) else (s, opalInvalid)
  | .authenticate a c =>
    if !o.session ∨ opalAuthorities ≤ a ∨ (a = 37 ∧ o.blockSid) ∨ o.credential a ≠ c then (s, opalNotAuthorized)
    else ((s.onOpal p fun o => { o with authorities := addOnce o.authorities a }).unlockFor p a, opalOk)
  | .setCredential a c =>
    if opalAuthorities ≤ a ∨ a = 36 then (s, opalInvalid)
    else if o.session ∧ (o.admin ∨ a ∈ o.authorities) then
      ((s.onOpal p fun o => { o with credentials := o.credentials.set a c }).rewrapped s, opalOk)
    else (s, opalNotAuthorized)
  | .setRange nsid id start length => if o.admin then s.opalSetRange p nsid id start length else (s, opalNotAuthorized)
  | .setLockEnabled nsid id re we =>
    match s.opalOn p nsid id (fun _ => o.admin) with
    | .error e => (s, e)
    | .ok r => (((s.onRange nsid id fun r => { r with readEnabled := re, writeEnabled := we }).setXts r.slot
        { s.xts r.slot with credential := re || we }).rewrapped s, opalOk)
  | .setLocked nsid id rd wr =>
    match s.opalOn p nsid id o.mayLock with
    | .error e => (s, e)
    | .ok _ => (s.onRange nsid id fun r => { r with readLocked := rd, writeLocked := wr }, opalOk)
  | .setAccess nsid id as =>
    match s.opalOn p nsid id (fun _ => o.admin) with
    | .error e => (s, e)
    | .ok _ => ((s.onRange nsid id fun r => { r with authorities := as }).rewrapped s, opalOk)
  | .setSingleUser nsid id user =>
    match s.opalOn p nsid id (fun _ => o.admin) with
    | .error e => (s, e)
    | .ok _ => ((s.onRange nsid id fun r => { r with single := user }).rewrapped s, opalOk)
  | .setLockOnReset nsid id on =>
    match s.opalOn p nsid id o.mayLock with
    | .error e => (s, e)
    | .ok _ => (s.onRange nsid id fun r => { r with lockOnReset := on }, opalOk)
  | .removeRange nsid id =>
    match (if id = 0 then .error opalInvalid else s.opalOn p nsid id fun _ => o.admin) with
    | .error e => (s, e)
    | .ok r => (s.opalRemove nsid id r.slot, opalOk)
  | .writeMbr off data =>
    if !o.admin then (s, opalNotAuthorized)
    else match tableWrite o.mbr mbrBytes off data with
      | some t => (s.onOpal p fun o => { o with mbr := t }, opalOk)
      | none => (s, opalInvalid)
  | .writeDataStore off data =>
    if !o.admin then (s, opalNotAuthorized)
    else match tableWrite o.dataStore dataStoreBytes off data with
      | some t => (s.onOpal p fun o => { o with dataStore := t }, opalOk)
      | none => (s, opalInvalid)
  | .readMbr off len => if o.session then s.tableRead p o.mbr mbrBytes off len else (s, opalNotAuthorized)
  | .readDataStore off len => if o.admin then s.tableRead p o.dataStore dataStoreBytes off len else (s, opalNotAuthorized)
  | .setMbrControl enable done =>
    if o.admin then (s.onOpal p fun o => { o with mbrEnabled := enable, mbrDone := done }, opalOk) else (s, opalNotAuthorized)
  | .blockSid on => (s.onOpal p fun o => { o with blockSid := on }, opalOk)
  | .psidRevert => if o.session ∧ 36 ∈ o.authorities then (s.opalRevert p, opalOk) else (s, opalNotAuthorized)

/-- Block SID travels under protocol 02h, every other method under 01h. -/
def opalProtocol : OpalMethod → Nat
  | .blockSid _ => 2
  | _ => 1

/-- The method changes what the configuration area keeps: the command completes once that is written (R174, R275). -/
def opalKept : OpalMethod → Bool
  | .startSession | .endSession | .authenticate .. | .blockSid _ | .readMbr .. | .readDataStore .. => false
  | _ => true

/-- The ComID of a port: sessions are those of its ComID, one at a time (R284). -/
def comIdOf : Port → Nat
  | .a => 0x1000
  | .b => 0x1001

def execOpalSecuritySend (w : Who) (protocol : Nat) (method : OpalMethod) (s : State) : Host.Outcome State Fault Refusal :=
  .next (if s.adminReady w then
    if !isManager w.fn ∨ protocol ≠ opalProtocol method then s.admin w stInvalidField 0
    else
      let p := portOfFn w.fn
      let (s1, r) := (s.onOpal p fun o => { o with out := [] }).opalMethod p method
      let s2 := s1.onOpal p fun o => { o with response := r }
      if r = opalOk ∧ opalKept method then s2.cfgWrite (.complete w stOk 0) else s2.admin w stOk 0
  else s)

/-- What protocol 01h returns: the ComID, the status of the last method, and the bytes that it read. -/
def opalResponse (s : State) (p : Port) : List Byte :=
  leBytes 2 (comIdOf p) ++ leBytes 1 (s.opal p).response ++ (s.opal p).out

/-- Security Receive: the supported protocols, the response of the last method, and what protocol 02h returns. -/
def execOpalSecurityReceive (w : Who) (protocol : Nat) (s : State) : Host.Outcome State Fault Refusal :=
  .next (if s.adminReady w then
    if 2 < protocol ∨ (protocol ≠ 0 ∧ !isManager w.fn) then s.admin w stInvalidField 0
    else
      let data := if protocol = 1 then opalResponse s (portOfFn w.fn) else bytesOf 512 (Config.opalDiscovery protocol)
      (s.dataOut w data).admin w stOk 0
  else s)

/-- GenKey on a range, by an authority with access to it: the key is switched once every user of the old one has completed. -/
def execGenkey (nsid range : Nat) (s : State) : Host.Outcome State Fault Refusal :=
  .next (match s.ns.find nsid with
    | some n => match n.ranges.find? fun r => r.id = range with
      | some r =>
        if s.running ∧ s.up .ctrl ∧ (s.opal (portOfFn (s.xts r.slot).owner)).mayLock r = true ∧ !r.rekeying then
          (s.askRekey nsid range none).rekeyAdvance
        else s
      | none => s
    | none => s)

/-- The background deallocation of a range is complete. -/
def execDeallocationComplete (nsid range : Nat) (s : State) : Host.Outcome State Fault Refusal :=
  .next (if s.running then s.onRange nsid range fun r => { r with deallocating := false } else s)

/-! ## The alarm (R299, R300) -/

/-- A fault check found a mismatch: it is counted (R309). -/
def State.countMismatch (s : State) (a : AlarmCause) : State :=
  match a with
  | .dupMismatch | .invMismatch => s.addCnt (rSeaCount 3) 1
  | _ => s

/-- The setting of a fault check: 0 OFF, 1 DUPLICATE, 2 INVERSE (R297, R305); some class has it. -/
def checkSet (s : State) (k : Nat) : Bool := (List.range 3).any fun c => decide (s.regFld rSeaFaultCfg (2 * c + 1) (2 * c) = k)

/-- The source of an alarm is there: a mismatch needs a class with the check that finds it. -/
def alarmCan (s : State) : AlarmCause → Bool
  | .dupMismatch => checkSet s 1
  | .invMismatch => checkSet s 2
  | _ => true

def execAlarm (cause : AlarmCause) (s : State) : Host.Outcome State Fault Refusal :=
  .next (if s.sys.phase = .off ∨ s.sys.phase = .hold ∨ alarmCan s cause = false then s else (s.countMismatch cause).alarm cause)

end Sys2Proof.Machine
end

