-- ==== Sys2Proof/Machine/Boot.lean ====
section
/-! DEFINITION. The meanings of the events of boot, the ledger, firmware update and the escalation ladder (R14 to R19,
R500 to R527). -/

namespace Sys2Proof.Machine

/-! ## The ledger (R515 to R519) -/

/-- Step 9 of boot, and an L3 restart: the boot record is requested. After an L3 restart it comes behind what waits (R515); after a cold
start it is the first record of its boot, so what an alarm requested before it comes behind it (R519). -/
def State.bootAppend (s : State) (cause : Nat) : State :=
  (s.onBoot fun b =>
    { b with bootCount := b.bootCount + 1, cause := cause,
             appends := let a : Append := { kind := 0, cause := cause, comps := bootComponents b cause, then_ := .nothing }
                        if cause = 3 then b.appends ++ [a] else a :: b.appends }).addLife (lifeEvent 10) 1

/-- What waits for an append goes on (R516). -/
def State.afterAppend (s : State) (a : Append) : State :=
  match a.then_ with
  | .nothing => if a.kind = 0 ∧ s.sys.phase = .booting then s.bootFinish else s
  | .complete w st dw0 => s.admin w st dw0
  | .moduleUsable => s.moduleUsable (match a.comps.head? with | some c => c.index | none => 0)
  | .enrolled => s.enrolled stOk
  | .loadKey w use slot key => ((s.loadSlot use slot key).uncache use slot).admin w stOk 0

/-- The oldest append completes, or fails and its record waits (R515, R516). -/
def execLedgerAppendDone (ok : Bool) (s : State) : Host.Outcome State Fault Refusal :=
  match s.boot.appends with
  | [] => .next s
  | a :: rest =>
    if !(s.sys.phase = .running ∨ s.sys.phase = .booting) ∨ sysWaits s .ledger then .next s
    else if !ok then .next ((s.onBoot fun b => { b with appendFail := true }).sysBegin .ledger)
    else
      let r := recordOf s a
      let s1 := (s.areaWrite areaLedger).onBoot fun b =>
        { b with appends := rest, appendFail := false, nextSeq := b.nextSeq + 1, ledger := lastN 65536 (b.ledger ++ [r]) }
      .next ((if rest.isEmpty then s1 else s1.sysBegin .ledger).afterAppend a)

/-! ## Power-on, boot hold and trials (R500, R512, R514) -/

/-- RESET_N rises after power-up: the strap is sampled and the G9 boots; a low PFAIL_N leads to the hold (R500, R546, R605). -/
def execPowerOn (portSplit : Bool) (s : State) : Host.Outcome State Fault Refusal :=
  if s.sys.phase = .off ∨ s.sys.phase = .bootHold ∨ s.sys.phase = .thermalShutdown ∨ s.sys.phase = .hold then
    let s0 := if s.sys.phase = .thermalShutdown then s.takeImage false false else s
    let s1 := (s0.onPower fun p => { p with resetN := true, railsBad := [] }).onSys fun y => { y with portSplit := portSplit }
    let s2 := (s1.coldReset true).addLife (lifeDev 0) 1
    if s2.power.pfailN then .next (s2.bootStart 0) else .next s2.enterHold
  else .next s

/-- 10 ms into boot hold, the xSPI outputs go to high impedance (R514). -/
def execBootHoldXspiRelease (s : State) : Host.Outcome State Fault Refusal :=
  if s.sys.phase = .bootHold then .next (s.onSys fun y => { y with xspiHighZ := true }) else .next s

/-- The image of the trial is confirmed: ACTIVE is its slot, and its security version and revocations apply (R505, R506,
R512). -/
def confirmTrial (b : Boot) : Boot :=
  let b1 := { b.select (fun x => { x with active := b.running, pending := 0, tries := 0 }) with trial := false }
  match b.image with
  | some i =>
    { b1 with fuseSvn := if i.raiseSvn then Nat.max b.fuseSvn i.svn else b.fuseSvn,
              revoked := b.revoked ||| (if i.revoke.getLsbD i.authority then i.revoke &&& ~~~(1#4 <<< i.authority) else i.revoke) }
  | none => b1

def execTrialConfirm (s : State) : Host.Outcome State Fault Refusal :=
  if s.boot.trial ∧ s.running then .next (s.onBoot confirmTrial) else .next s

/-- The PENDING image has not reached CSTS.RDY within 8 s: TRIES rises (R512). -/
def execTrialReadyTimeout (s : State) : Host.Outcome State Fault Refusal :=
  if s.sys.phase = .booting ∧ s.boot.running ≠ 0 ∧ s.boot.running = s.boot.selector.pending then
    .next (s.onBoot fun b => b.select fun x => { x with tries := Nat.min 2 (x.tries + 1) })
  else .next s

/-! ## Firmware update (R507 to R509) -/

/-- Firmware Image Download: whole 4 KiB pages of the 12 MiB buffer. -/
def execFirmwareImageDownload (w : Who) (offset : Nat) (data : List Byte) (s : State) : Host.Outcome State Fault Refusal :=
  if !s.adminReady w then .next s
  else if !isManager w.fn then .next (s.admin w stInvalidOpcode 0)
  else if offset % 4096 ≠ 0 ∨ data.length % 4096 ≠ 0 ∨ 12 * 2 ^ 20 < offset + data.length then .next (s.admin w stInvalidField 0)
  else
    let pages := chunksOf 4096 data
    .next ((s.onBoot fun b =>
      { b with download := (List.range pages.length).foldl (fun t i => Tbl.set t (offset / 4096 + i) (pages.getD i [])) b.download }).admin w stOk 0)

/-- The bytes that were downloaded, from offset 0. -/
def Boot.staged (b : Boot) : List Byte :=
  (List.range (b.download.foldl (fun n e => Nat.max n (e.1 + 1)) 0)).flatMap fun i => (Tbl.find b.download i).getD (zeros 4096)

/-- The header of an image is in range, and the signature block's reserved bytes are 0 (R141, R505). -/
def fwHeaderOk (bs : List Byte) : Bool :=
  let at_ := leAt bs
  let so := at_ 0x28 4
  at_ 0 4 = 0x475A4657 && at_ 4 2 = 1 && at_ 8 4 = so + 3412 && decide (at_ 8 4 ≤ 12 * 2 ^ 20) && decide (at_ 0xC 1 < 64) &&
  decide (at_ 0xD 1 < 2) && decide (at_ 0xE 1 < 16) && at_ 0xF 1 = 0 && (slice bs 0x10 8).all (fun b => decide (b.toNat < 128)) &&
  at_ 0x18 4 % 4096 = 0 && decide (256 ≤ at_ 0x18 4) && decide (4096 ≤ at_ 0x1C 4) && decide (at_ 0x1C 4 ≤ 2 ^ 20) &&
  at_ 0x20 4 % 4096 = 0 && decide (at_ 0x18 4 + at_ 0x1C 4 ≤ at_ 0x20 4) && decide (65536 ≤ at_ 0x24 4) && decide (at_ 0x24 4 ≤ 11 * 2 ^ 20) &&
  decide (at_ 0x20 4 + at_ 0x24 4 ≤ so) && at_ 0x2C 4 = 0 && (slice bs 0xC0 64).all (fun b => b = 0) && at_ (so + 2) 2 = 0 &&
  (slice bs (so + 0xCF1) 3).all (fun b => b = 0)

/-- The three digests of an image are those of its header (R505). -/
def fwMeasured (bs : List Byte) : Bool :=
  sha384 (slice bs (leAt bs 0x18 4) (leAt bs 0x1C 4)) = slice bs 0x30 48 && sha384 (slice bs (leAt bs 0x20 4) (leAt bs 0x24 4)) = slice bs 0x60 48 &&
  sha384 (bs.take 0x90 ++ zeros 48 ++ (bs.take (leAt bs 0x28 4)).drop 0xC0) = slice bs 0x90 48

/-- An image as its bytes say it. The firmware authorities' public keys stand in the boot ROM and not in the manual, so the two verdicts
on its signatures are given with it (notes/assumptions/24.md). -/
def FwImage.read (bs : List Byte) (mldsaOk ecdsaOk : Bool) : FwImage :=
  { version := slice bs 0x10 8, compat := leAt bs 6 2, svn := leAt bs 0xC 1, raiseSvn := leAt bs 0xD 1 % 2 = 1,
    revoke := BitVec.ofNat 4 (leAt bs 0xE 1), authority := leAt bs (leAt bs 0x28 4) 2, length := leAt bs 8 4, headerOk := fwHeaderOk bs,
    measureOk := fwMeasured bs, mldsaOk := mldsaOk, ecdsaOk := ecdsaOk, fslMeas := slice bs 0x30 48, fwMeas := slice bs 0x60 48,
    measurement := slice bs 0x90 48 }

/-- The downloaded pages are those of an image of this length. -/
def downloadFits (b : Boot) (length : Nat) : Bool := b.download.map (·.1) = List.range (ceilDiv length 4096)

/-- Why a staged image is refused, 0 where it is valid (R506, R508). -/
def stagedReason (b : Boot) (i : FwImage) : Nat :=
  if !i.headerOk then 1
  else if !downloadFits b i.length then 7
  else if !i.measureOk then 2 else if !i.mldsaOk then 3 else if !i.ecdsaOk then 4
  else if 4 ≤ i.authority ∨ b.revoked.getLsbD i.authority then 5
  else if i.svn < b.fuseSvn then 6 else 0

/-- Change what a slot holds; none while it is being written, and after a write that was cut off (R509). -/
def Boot.setSlot (b : Boot) (slot : Nat) (i : Option FwImage) : Boot := if slot = 1 then { b with slotA := i } else { b with slotB := i }

/-- The slot that a commit names; slot 0 leaves the choice to the G9, which takes the one that is not running
(notes/assumptions/11.md). -/
def commitSlot (b : Boot) (slot : Nat) : Nat := if slot = 0 then (if b.running = 1 then 2 else 1) else slot

/-- The ledger record of a commit. -/
def commitAppend (w : Who) (action slot : Nat) (i : FwImage) : Append :=
  { kind := 7, cause := action, then_ := .complete w stOk 0,
    comps := [{ type := 10, sub := slot, fn := w.fn, index := 0, version := ofLe i.version, measurement := i.measurement }] }

/-- A commit that writes the staged image into a slot: it is checked, and the slot is being written until COMMIT has ended. -/
def State.commitWrite (s : State) (w : Who) (slot0 : Nat) (i : FwImage) (action : Nat) : State :=
  let slot := commitSlot s.boot slot0
  let clear := fun (t : State) => t.onBoot fun b => { b with download := [] }
  if !isManager w.fn then s.admin w stInvalidOpcode 0
  else if slot ≠ 1 ∧ slot ≠ 2 then s.admin w stInvalidFwSlot 0
  else if slot = s.boot.running then s.admin w stInvalidField 0
  else if stagedReason s.boot i ≠ 0 then (clear s).admin w stInvalidField (w32 (stagedReason s.boot i))
  else if !s.appendRoom then s.admin w Config.appendFailStatus 0
  else (clear s).onBoot fun b =>
    { b.setSlot slot none with commits := b.commits ++ [{ who := w, action := action, slot := slot, image := i }] }

/-- The oldest commit's slot has been written and read back: the selector is written and the ledger record requested (R508). -/
def State.commitStep (s : State) : State :=
  match s.boot.commits with
  | [] => s
  | c :: rest =>
    if s.running ∧ s.up .ctrl then
      ((s.onBoot fun b => ({ b.setSlot c.slot (some c.image) with commits := rest }).select fun x =>
        let y := if c.slot = 1 then { x with failedA := false } else { x with failedB := false }
        if c.action = 1 then { y with pending := c.slot, tries := 0 } else y).requestAppend
          (commitAppend c.who c.action c.slot c.image)).addLife (lifeEvent 11) 1
    else s

def execFirmwareCommitWrite (w : Who) (slot : Nat) (mldsaOk ecdsaOk : Bool) (s : State) : Host.Outcome State Fault Refusal :=
  if s.adminReady w then .next (s.commitWrite w slot (FwImage.read s.boot.staged mldsaOk ecdsaOk) 0) else .next s

def execFirmwareCommitWritePending (w : Who) (slot : Nat) (mldsaOk ecdsaOk : Bool) (s : State) : Host.Outcome State Fault Refusal :=
  if s.adminReady w then .next (s.commitWrite w slot (FwImage.read s.boot.staged mldsaOk ecdsaOk) 1) else .next s

/-- Firmware Commit CA 010: PENDING is set to a slot that holds a valid image. -/
def execFirmwareCommitPending (w : Who) (slot0 : Nat) (s : State) : Host.Outcome State Fault Refusal :=
  let slot := commitSlot s.boot slot0
  if !s.adminReady w then .next s
  else if !isManager w.fn then .next (s.admin w stInvalidOpcode 0)
  else if slot ≠ 1 ∧ slot ≠ 2 then .next (s.admin w stInvalidFwSlot 0)
  else if slot = s.boot.running then .next (s.admin w stInvalidField 0)
  else match s.boot.slotImage slot with
    | none => .next (s.admin w stInvalidField 0)
    | some i =>
      if !imageValid s.boot i then .next (s.admin w stInvalidField 0)
      else if !s.appendRoom then .next (s.admin w Config.appendFailStatus 0)
      else .next (((s.onBoot fun b => { b.select (fun x => { x with pending := slot, tries := 0 }) with download := [] }).requestAppend
        (commitAppend w 2 slot i)).addLife (lifeEvent 11) 1)

/-! ## The ladder's own events (R523, R525) -/

/-- The management-hart watchdog of 250 ms. -/
def execMgmtHartWatchdogExpiry (s : State) : Host.Outcome State Fault Refusal := .next (s.l3Reset .ctrl 7)

/-- The root watchdog of 1 s. -/
def execRootWatchdogExpiry (s : State) : Host.Outcome State Fault Refusal := .next (s.l4Reset .aon 8 .escalation)

/-- The recovery that a level, an island and a unit name is under way. -/
def recovering (s : State) (level : Nat) (i : Island) (unit : Nat) : Bool := ⟨level, i, unit⟩ ∈ s.sys.recovering

/-- A recovery that did not complete within its bound triggers the next level. -/
def execEscalationBoundExpiry (level : Nat) (island : Island) (unit : Nat) (s : State) : Host.Outcome State Fault Refusal :=
  if !recovering s level island unit then .next s
  else
    let s1 := s.onSys fun y => { y with recovering := y.recovering.erase ⟨level, island, unit⟩ }
    match level with
    | 1 => .next (if island = .compute then s1.hartResetFails unit else s1.l2Reset island unit 5)
    | 2 => .next (s1.l3Reset island 5)
    | 3 => .next (s1.l4Reset island 5 .escalation)
    | _ => .next s

/-- An engine or a hart leaves its L1 reset; reads that waited for the codec are issued again (R346). -/
def State.unitBack (s : State) (i : Island) (unit : Nat) : State :=
  if i = .compute then s.onHrt fun x => { x with harts := Tbl.modify x.harts unit fun h => { h with resetting := false } }
  else (s.onDisp fun d => { d with resetting := d.resetting.filter fun u => clsCode u.cls ≠ unit }).startHeldReads

/-- An island leaves its L2 reset; DRAM leaves self-refresh with MEM. -/
def State.islandBack (s : State) (i : Island) : State :=
  let s1 := s.onSys fun y => { y with down := y.down.filter fun x => x ≠ i }
  if i = .mem then s1.dramSleep false else s1

/-- CTRL and firmware are back: the boot record of CAUSE 3, a write of the lifetime records, and for a PENDING image a new trial (R512,
R523, R565). -/
def State.ctrlBack (s : State) : State :=
  ((((s.onSys fun y => { y with down := y.down.filter fun x => x ≠ .ctrl }).bootAppend 3).beginLife)).onBoot fun b =>
    { b with trial := decide (b.running ≠ 0 ∧ b.running = b.selector.pending) }

/-- A recovery of level L1, L2 or L3 completes within its bound. -/
def execResetDone (level : Nat) (island : Island) (s : State) : Host.Outcome State Fault Refusal :=
  match s.sys.recovering.find? fun r => r.level = level ∧ r.island = island with
  | none => .next s
  | some r =>
    let s1 := s.onSys fun y => { y with recovering := y.recovering.erase r }
    match level with
    | 1 => .next ((s1.unitBack island r.unit).irq)
    | 2 => .next ((s1.islandBack island).irq)
    | 3 => .next ((s1.ctrlBack).irq)
    | _ => .next s

/-! ## Bridge errors (R14 to R19) -/

/-- What the requester of a bridge request that ended in an error sees (R16, R17). Reads under way for it are withdrawn, since no
requester has both an error and a response (R14); a slot whose IU has a newer slot keeps flushing and its flush begins anew (R193). -/
def State.bridgeAnswer (s : State) (target : Island) : BridgeReq → State
  | .trailTask flow stage cslot =>
    match s.disp.running.find? fun r => isEntry flow stage cslot r.task with
    | some r => ((s.onDisp fun d => { d with running := d.running.filter fun x => x ≠ r }).withdraw fun c =>
        c = .trail flow cslot && r.cls = .media).failTask r.task stBusError
    | none =>
      match s.hrt.harts.find? fun h => match h.2.kernel with | some k => isEntry flow stage cslot k.task | none => false with
      | some h => s.abortKernel h.1 stBusError
      | none => s
  | .nvm w => (s.dropNvm w).complete w stDataTransfer 0 0
  | .bar2Read r offset width => s.onHost fun h => { h with sent := h.sent ++ [.regData r offset (List.replicate width 0xFF)] }
  | .bar2Write _ => s
  | .firmware => s.tellFirmware target
  | .flush k => match s.slot k with
    | some x =>
      if x.placed.isNone then
        (s.withdraw fun c => c = .merge k).onSlot k fun y => { y with flushing := (openSlot s x.iu).isSome, merging := false }
      else s
    | none => s

/-- The third bridge error toward an island within 1 ms resets it (R18). R18 gives no count for the errors toward AON and SEC that
escalate to L4: the model takes the same three within 1 ms. DEDUCED (notes/assumptions/25.md). -/
def State.bridgeEscalate (s : State) (target : Island) : State :=
  if 3 ≤ bridgeRecent s target then
    (s.onSys fun y => { y with bridgeErrs := y.bridgeErrs.filter fun e => e.1 ≠ target }).l2Reset target 0xFF 3 |>.irq
  else s

/-- A bridge request ends with an error: it is recorded, the requester sees it, and the third toward one island within 1 ms
escalates (R16, R18, R19). -/
def State.bridgeError (s : State) (target source : Island) (req : BridgeReq) : State :=
  ((s.noteBridge target source).bridgeAnswer target req).bridgeEscalate target

def execBridgeTimeout (target source : Island) (req : BridgeReq) (s : State) : Host.Outcome State Fault Refusal :=
  if s.running then .next (s.bridgeError target source req) else .next s

end Sys2Proof.Machine
end

