-- ==== Sys2Proof/Machine/Media.lean ====
section
/-! DEFINITION. The meanings of the events of the flash channels and the LUNs (R161 to R183, R197, R198, R206, R241, R248). -/

namespace Sys2Proof.Machine

/-! ## Channels (R161 to R163, R172) -/

/-- Every LUN of a channel looks for work. -/
def State.wakeLuns (s : State) (c : Nat) : State := ((boardLuns s).filter fun l => l / 64 = c).foldl State.lunNext s

/-- The media are initialised: boot goes on to its record (R500 steps 8 and 9). -/
def State.mediaReady (s : State) : State :=
  if s.sys.phase = .booting ∧ s.sys.bootStep = 8 ∧ (s.media.channels.all fun e => e.2.trying.isNone) then
    (s.onSys fun y => { y with bootStep := 9 }).bootAppend s.boot.cause
  else s

/-- Training at one rate ends: the channel is online, tries the next lower rate, or goes offline. -/
def execChannelTrainDone (channel : Nat) (pass : Bool) (s : State) : Host.Outcome State Fault Refusal :=
  let x := s.channel channel
  match x.trying with
  | none => .next s
  | some r =>
    if !s.up (mediaIsland (channel / 8)) then .next s
    else if pass then
      .next (((s.onChannel channel fun x =>
        { x with online := true, trained := true, rate := r, trying := none, trainedTemp := x.temp, retraining := false,
                 retrains := if x.retraining then satAdd 0xFF x.retrains 1 else x.retrains }).wakeLuns channel).mediaReady)
    else if 1 < r then .next (s.onChannel channel fun x => { x with trying := some (r - 1) })
    else .next ((s.channelOffline channel).mediaReady)

/-- The thermal band of a temperature. -/
def bandOfTemp (t : Int) : Nat := (clampInt ((t + 40) / 10) 0 15).toNat

/-- The band after a reading: it changes only 2 °C past a boundary (R172). -/
def nextBand (old : Option Nat) (t : Int) : Nat :=
  match old with
  | none => bandOfTemp t
  | some b =>
    let lo : Int := 10 * (b : Int) - 40
    if lo + 12 ≤ t ∨ t ≤ lo - 2 then bandOfTemp t else b

/-- The 1 s poll of the targets of a channel; 20 °C from its last training, the channel retrains. A channel that trained before any
poll counts as trained at the temperature of its first poll, which R163 does not say. DESIGN CHOICE (notes/assumptions/58.md). -/
def execTargetTempPoll (channel : Nat) (temps : List Int) (s : State) : Host.Outcome State Fault Refusal :=
  let x := s.channel channel
  match temps with
  | [] => .next s
  | t0 :: rest =>
    if !x.online ∨ !s.up (mediaIsland (channel / 8)) ∨ 8 < temps.length then .next s
    else
      let hot := maxInt t0 rest
      let s1 := s.onMedia fun m =>
        { m with bands := (List.range temps.length).foldl (fun b i =>
            b.set (channel * 8 + i) (nextBand (m.bands.find (channel * 8 + i)) (temps.getD i t0))) m.bands }
      .next ((if s1.media.bands = s.media.bands then s1 else s1.bumpGen 0xC6).onChannel channel fun c =>
        let base := c.trainedTemp.getD hot
        { c with temp := some hot, trainedTemp := some base,
                 retraining := c.retraining || decide (20 ≤ (hot - base).natAbs) })

/-- A retraining ends; a failure drops the channel to the next lower rate, or takes it offline. -/
def execChannelRetrainDone (channel : Nat) (pass : Bool) (s : State) : Host.Outcome State Fault Refusal :=
  let x := s.channel channel
  if !x.retraining ∨ x.trying.isSome ∨ !s.up (mediaIsland (channel / 8)) then .next s
  else if pass then
    .next ((s.onChannel channel fun x =>
      { x with retraining := false, trainedTemp := x.temp, retrains := satAdd 0xFF x.retrains 1 }).wakeLuns channel)
  else if 1 < x.rate then .next (s.onChannel channel fun x => { x with trying := some (x.rate - 1) })
  else .next (s.channelOffline channel)

/-! ## Suspend, resume and age (R164, R167) -/

/-- The running program or erase of a LUN has run for MIN_RUN since it started or was last resumed (R167). -/
def ranEnough (s : State) (lun : Nat) : Bool :=
  decide ((s.lun lun).since + s.regFld (rMedSuspend (lunIsland lun)) 15 8 * (10 * tUs) ≤ s.now)

/-- A host read or a Trail read is at the head of a LUN's arbitration. -/
def readDue (x : Lun) : Bool :=
  match arbiter x.queue true with | some c => decide (c.cls = 1) || decide (c.cls = 2) | none => false

/-- A program or an erase has suspended for a host or Trail read. -/
def execSuspendDone (lun : Nat) (s : State) : Host.Outcome State Fault Refusal :=
  let x := s.lun lun
  if !x.active.isEmpty ∧ !(x.active.any MediaCmd.isRead) ∧ x.suspended.isEmpty ∧ readDue x ∧ ranEnough s lun ∧
      s.regBit (rMedCtl (lunIsland lun)) 16 ∧ lunServes s lun ∧ s.running then
    .next ((s.setLun lun { x with suspended := x.active, active := [], readsBegun := 0, budgetOver := false }).lunNext lun)
  else .next s

/-- READ_BUDGET has passed: no further read begins before the resume. -/
def execSuspendBudgetExpiry (lun : Nat) (s : State) : Host.Outcome State Fault Refusal :=
  if !(s.lun lun).suspended.isEmpty then .next ((s.onLun lun fun x => { x with budgetOver := true }).lunNext lun) else .next s

/-- Let the oldest command of a class pass those before it. -/
def ageFirst (cls : Nat) : List MediaCmd → List MediaCmd
  | [] => []
  | c :: cs => if c.cls = cls ∧ !c.aged then { c with aged := true } :: cs else c :: ageFirst cls cs

/-- A write has waited 2 ms, or an internal read 10 ms. -/
def execWriteAgeExpiry (lun : Nat) (internalRead : Bool) (s : State) : Host.Outcome State Fault Refusal :=
  .next ((s.onLun lun fun x => { x with queue := ageFirst (if internalRead then 3 else 4) x.queue }).lunNext lun)

/-! ## Senses and the decode ladder (R168 to R170, R242, R615) -/

/-- Somebody waits for the data of a client's reads. -/
def clientWaits (s : State) (c : ReadClient) : Bool :=
  match c with
  | .recon _ id => s.str.recons.any fun r => r.id = id
  | .system .. => true
  | _ => s.ftl.reads.any fun j => j.client = c

/-- A sense has ended: a read's codewords go to the decoders, and one further sense of a codeword is done. -/
def Lun.sensed (s : State) (x : Lun) (c : MediaCmd) : Lun :=
  match c.op with
  | .read cl _ => if clientWaits s cl then { x with decoding := x.decoding ++ [c] } else x
  | .resense cl w =>
    { x with decoding := x.decoding.map fun d => match d.op with
        | .read cl1 cws =>
          if cl1 = cl ∧ d.block = c.block ∧ d.page = c.page then
            { d with op := .read cl1 (cws.map fun v => if v = w then { v with senses := v.senses - 1 } else v) }
          else d
        | _ => d }
  | _ => x

/-- The senses of a LUN complete: their codewords go to the decoders, and the LUN takes its next command. -/
def execSenseDone (lun : Nat) (s : State) : Host.Outcome State Fault Refusal :=
  let x := s.lun lun
  if x.active.isEmpty ∨ !(x.active.all MediaCmd.isRead) then .next s
  else
    let s1 := s.setLun lun (x.active.foldl (Lun.sensed s) { x with active := [] })
    .next ((x.active.foldl (fun t c => t.sense lun c.block) s1).lunNext lun)

/-- The command of a LUN whose ladder holds a codeword, its client and its state; one whose attempt has every sense, or any. -/
def ladderAt (x : Lun) (cw : Nat) (ready : Bool) : Option (MediaCmd × ReadClient × CwState) :=
  x.decoding.findSome? fun c => match c.op with
    | .read cl cws => (cws.find? fun w => decide (w.cw = cw) && (!ready || decide (w.senses = 0))).map fun w => (c, cl, w)
    | _ => none

/-- Change the state of a codeword of a command, or end it; a command without codewords leaves. -/
def MediaCmd.withCw (c : MediaCmd) (cw : Nat) (new : Option CwState) : List MediaCmd :=
  match c.op with
  | .read cl cws =>
    let rest := cws.flatMap fun w => if w.cw = cw then new.toList else [w]
    if rest.isEmpty then [] else [{ c with op := .read cl rest }]
  | _ => [c]

/-- The same in the LUN; the LUN may go on, and with it, when a soft decoder becomes free, every LUN of the island. -/
def State.setCw (s : State) (lun : Nat) (c : MediaCmd) (w : CwState) (new : Option CwState) : State :=
  let s1 := (s.onLun lun fun x => { x with decoding := x.decoding.flatMap fun y => if y = c then y.withCw w.cw new else [y] }).lunNext lun
  if 3 ≤ w.step then
    ((s1.media.luns.map (·.1)).filter fun l => lunIsland l = lunIsland lun).foldl State.lunNext s1
  else s1

/-- The bins of a decode in the lifetime records and MED_LADDER (R170, R182, R561). -/
def State.countDecode (s : State) (lun step iterations : Nat) : State :=
  let bin := if step ≤ 2 then iterations - 1 else 20 + (iterations - 1)
  let s1 := ((s.addCnt (rMedLadder (lunIsland lun) (step - 1)) 1).addLife (lifeC3 (0x620 + 8 * bin)) 1).addLife
    (lifeC3 (0x620 + 8 * (60 + (step - 1)))) 1
  if 2 ≤ step then s1.addLife (lifeErr 1 false) 1 else s1

/-- A codeword decoded: the hint, the refresh candidate, and the delivery. -/
def State.cwDecoded (s : State) (lun : Nat) (c : MediaCmd) (cl : ReadClient) (w : CwState) (iterations : Nat) : State :=
  let s1 := (s.countDecode lun w.step iterations).onLun lun fun x => { x with erasedPages := [] }
  let s2 := if w.step = 2 then s1.onBlock (blockNo s lun c.block) fun b => { b with hint := cwEntry s w } else s1
  let s3 := if 3 ≤ w.step then s2.refreshBand lun c.block else s2
  (s3.setCw lun c w none).cwDelivered cl lun c.block w.cw

/-- A codeword ends as an erasure; 16 in a row from distinct pages fail the LUN (R170, R241, R243). -/
def State.cwErased (s : State) (lun : Nat) (c : MediaCmd) (cl : ReadClient) (w : CwState) : State :=
  let s1 := ((s.addCnt (rMedLadder (lunIsland lun) 4) 1).addLife (lifeC3 (0x620 + 8 * 64)) 1).addLife (lifeErr 1 true) 1
  let s2 := (s1.onLun lun fun x => { x with erasedPages := addOnce x.erasedPages (c.block, c.page) }).setCw lun c w none
  let s3 := s2.erase cl lun c.block c.page [w.cw]
  if 16 ≤ (s3.lun lun).erasedPages.length then s3.failLun lun 3 else s3

/-- What a codeword does after a failed attempt, of which step 2 has so many: the next attempt and the senses that it waits for, or
nothing more (R169). -/
def CwState.next (w : CwState) (retries : Nat) : Option CwState :=
  if w.step ≤ 2 ∧ w.tried < retries then some { w with step := 2, tried := w.tried + 1, senses := 1 }
  else if w.step ≤ 2 then some { w with step := 3, tried := 0, senses := 2 }
  else if w.step = 3 then some { w with step := 4, tried := 0, senses := 4 }
  else none

/-- A decode attempt failed: the next attempt of the ladder with its senses, or the erasure. -/
def State.cwFailed (s : State) (lun : Nat) (c : MediaCmd) (cl : ReadClient) (w : CwState) : State :=
  match w.next (retryList s w.hint).length with
  | some v => s.setCw lun c w (some v)
  | none => s.cwErased lun c cl w

/-- The iterations a decoder of a step can have run (R169). -/
def iterationsOk (step n : Nat) : Bool := decide (1 ≤ n) && decide (n ≤ if step ≤ 2 then 20 else 40)

/-- A codeword has been transferred and a decode attempt completes; a channel that retrains transfers nothing (R163). -/
def execCodewordDecodeDone (lun cw : Nat) (res : DecodeResult) (s : State) : Host.Outcome State Fault Refusal :=
  match ladderAt (s.lun lun) cw true with
  | none => .next s
  | some (c, cl, w) =>
    if !channelCarries s (lun / 64) then .next s
    else match res with
      | .decoded n => if iterationsOk w.step n then .next (s.cwDecoded lun c cl w n) else .next s
      | .failed => .next (s.cwFailed lun c cl w)

/-- LADDER_DEADLINE has passed since the first sense of a codeword. -/
def execLadderDeadlineExpiry (lun cw : Nat) (s : State) : Host.Outcome State Fault Refusal :=
  match ladderAt (s.lun lun) cw false with
  | none => .next s
  | some (c, cl, w) => .next (s.cwErased lun c cl w)

/-- The stripe of a command's page has lost no member. -/
def wholeStripe (s : State) (lun : Nat) (c : MediaCmd) : Bool :=
  match bandOfBlock s lun c.block with
  | some (b, _) => match s.band b with | some x => x.lost.isEmpty | none => false
  | none => false

/-- A read of a host command or of a Trail, not one of a reconstruction. -/
def MediaCmd.direct (c : MediaCmd) : Bool := match c.op with | .read (.host _) _ => true | .read (.trail ..) _ => true | _ => false

/-- FIRST_SENSE_DEADLINE has passed for the oldest waiting host or Trail read whose stripe is whole: it is read through redundancy. -/
def execFirstSenseDeadlineExpiry (lun : Nat) (s : State) : Host.Outcome State Fault Refusal :=
  match (s.lun lun).queue.find? fun c => c.direct && wholeStripe s lun c with
  | none => .next s
  | some c => match c.op with
    | .read cl cws =>
      let s1 := (s.onLun lun fun x => { x with queue := x.queue.erase c }.refill).lunNext lun
      let s2 := (s1.addCnt (rMedLadder (lunIsland lun) 5) 1).addLife (lifeErr 17 false) 1
      .next (s2.erase cl lun c.block c.page (cws.map (·.cw)))
    | _ => .next s

/-! ## Programs, erases and LUNs that do not answer (R197, R198, R206, R241) -/

/-- The LUN's oldest active program ends. -/
def execProgramDone (lun : Nat) (ok : Bool) (s : State) : Host.Outcome State Fault Refusal :=
  match (s.lun lun).active with
  | [] => .next s
  | c :: rest =>
    let s1 := s.onLun lun fun x => { x with active := rest }
    match c.op with
    | .program b j p =>
      .next ((((if ok then (s1.countProgram b j p).pageDone b j p else s1.writeFailed lun c).placeWaiting).lunNext lun).recoverDone)
    | .rebuild .. =>
      .next ((if ok then (match s1.str.rebuild with | some r => s1.rebuildPage r | none => s1) else s1.writeFailed lun c).lunNext lun)
    | .reshape .. =>
      .next ((if !ok then s1.writeFailed lun c else if reshapeCurrent s lun c then s1.reshapePage else s1).lunNext lun)
    | .dump copy ps =>
      .next ((if ok then s1.onRun copy fun r => { r with done := r.done ++ ps } else s1.writeFailed lun c).lunNext lun)
    | _ => .next s

/-- The LUN's oldest active erase ends; another LUN of its dump set may begin one (R255). -/
def execEraseDone (lun : Nat) (ok : Bool) (s : State) : Host.Outcome State Fault Refusal :=
  match (s.lun lun).active with
  | [] => .next s
  | c :: rest =>
    let s1 := s.onLun lun fun x => { x with active := rest }
    match c.op with
    | .erase band =>
      let s2 := ((if ok then s1.eraseOk lun c.block band else s1.eraseFailed lun c.block band).placeWaiting).lunNext lun
      .next (((s2.media.luns.filter fun e => e.2.queue.any MediaCmd.isErase).map (·.1)).foldl State.lunNext s2)
    | _ => .next s

/-- A LUN returns no ready status. -/
def execLunReadyTimeout (lun : Nat) (s : State) : Host.Outcome State Fault Refusal :=
  if (s.lun lun).active.isEmpty then .next s else .next (s.failLun lun 2)

/-! ## User read levels (R173, R183) -/

/-- A write of MED_UCAL_COMMIT with COMMIT begins to write the staging table; FAIL of the same write is cleared. -/
def execUcalCommit (r : Requester) (island : Nat) (value : W32) (s : State) : Host.Outcome State Fault Refusal :=
  if 4 ≤ island then .next s
  else if !s.barReaches r (rMedUcalCommit island) then .next (s.barMiss r (rMedUcalCommit island))
  else
    let s1 := (s.writeClears (rMedUcalCommit island) value).irq
    if bitAt value 0 ∧ !s1.locked (rMed island) then .next ((s1.onMedia fun m => { m with committing := addOnce m.committing island }).sysBegin (.commit island))
    else .next s1

/-- The commit ends: senses from now on use the new offsets, or FAIL is set. -/
def execUcalCommitDone (island : Nat) (ok : Bool) (s : State) : Host.Outcome State Fault Refusal :=
  if !(island ∈ s.media.committing) ∨ sysWaits s (.commit island) then .next s
  else
    let s1 := s.onMedia fun m => { m with committing := m.committing.filter fun c => c ≠ island }
    if ok then .next ((s1.onMedia fun m => { m with committed := ofIsland island m.staged m.committed }).areaWrite areaConfig |>.bumpGen 0xC6)
    else .next ((s1.setBits (rMedUcalCommit island) 0x40000000#32 0x40000000#32).irq)

/-! ## System areas (R176) -/

/-- The LUNs that may take the copies of a failed system LUN, in order: LUN 0 of target 0 on the next channels of its island,
then of the next islands. -/
def systemCandidates (s : State) (l : Nat) : List Nat :=
  let c := l / 64
  let near := (List.range 7).map fun i => c / 8 * 8 + (c % 8 + i + 1) % 8
  let far := (List.range 3).flatMap fun k => (List.range 8).map fun j => (c / 8 + k + 1) % 4 * 8 + j
  ((near ++ far).map (· * 64)).filter fun x => channelPopulated s (x / 64) && !(s.lun x).failed

/-- The copies held on a failed system LUN have moved. -/
def execSystemAreaMoveDone (copy : Nat) (s : State) : Host.Outcome State Fault Refusal :=
  if !(copy ∈ s.media.moving) ∨ sysWaits s (.move copy) then .next s
  else match systemCandidates s (s.media.systemLun.getD copy 0) with
    | [] => .next s
    | l :: _ => .next (s.onMedia fun m => { m with moving := m.moving.filter fun c => c ≠ copy, systemLun := m.systemLun.set copy l })

end Sys2Proof.Machine
end

