-- ==== Sys2Proof/Machine/Dram.lean ====
section
/-! DEFINITION. The meanings of the events of DRAM and of memory protection (R402 to R440). -/

namespace Sys2Proof.Machine

/-! ## Training and upkeep (R404, R406) -/

/-- Firmware is loaded and media initialisation starts (R500 steps 7 and 8). -/
def State.dramReady (s : State) : State :=
  if (List.range 4).all fun c => (s.dramChan c).trained then
    ((s.onSys fun y => { y with bootStep := 8 }).mediaStart fun _ => true).mediaReady
  else s

/-- Every controller reports CFS (R404). -/
def State.failAll (s : State) : State := (fnsOf .a ++ fnsOf .b).foldl (fun t f => t.onCtrl f fun c => { c with rdy := false, cfs := true }) s

/-- A training attempt of a channel ends; on a population that R403 does not list every attempt fails. -/
def execDramTrainAttemptDone (channel : Nat) (pass : Bool) (s : State) : Host.Outcome State Fault Refusal :=
  let x := s.dramChan channel
  let good := pass && dramSupported s.board channel
  if channel < 4 ∧ s.sys.phase = .booting ∧ s.sys.bootStep = 5 ∧ !x.trained ∧ x.attempts < 3 then
    let s1 := s.draw.onDramChan channel fun c =>
      { c with attempts := c.attempts + 1, trained := good, order := if good then s.regFld rMemCtl 1 0 else c.order,
               seedUser := if good then s.memory.seedUser else c.seedUser, draw := if good then s.freeDraw else c.draw }
    if good then .next (s1.bumpGen 0xC6).dramReady
    else if x.attempts = 2 then .next ((s1.failAll).addLife (lifeEvent 7) 1)
    else .next s1
  else .next s

/-- A channel serves: trained, awake, MEM up. -/
def dramServes (s : State) (c : Nat) : Bool := decide (c < 4) && s.up .mem && (s.dramChan c).trained && !(s.dramChan c).selfRefresh

/-- Re-centre the DQS timing of a sub-channel. -/
def execDqsRecentre (channel sc : Nat) (s : State) : Host.Outcome State Fault Refusal :=
  .next (if dramServes s channel && decide (sc < 2) then s.onDramChan channel fun c => { c with centred := c.centred + 1 } else s)

/-- Run ZQ calibration on a sub-channel. -/
def execZqCalibration (channel sc : Nat) (s : State) : Host.Outcome State Fault Refusal :=
  .next (if dramServes s channel && decide (sc < 2) then s.onDramChan channel fun c => { c with calibrated := c.calibrated + 1 } else s)

/-- The open rows of one bank of every bank group of a sub-channel close: the bank address of a same-bank refresh. -/
def State.closeRows (s : State) (channel sc ba : Nat) : State :=
  s.onMem fun m => { m with rows := m.rows.filter fun r => !(decide (r.1 / 128 = channel * 2 + sc) && decide (r.1 % 4 = ba)) }

/-- A same-bank refresh of a sub-channel. Which bank is refreshed next, and that its rows close, is the model's choice: the banks in
turn. DESIGN CHOICE (notes/assumptions/57.md). -/
def execRefresh (channel sc : Nat) (s : State) : Host.Outcome State Fault Refusal :=
  .next (if dramServes s channel && decide (sc < 2) then
    (s.closeRows channel sc ((s.dramChan channel).refreshes % 4)).onDramChan channel fun c => { c with refreshes := c.refreshes + 1 }
  else s)

/-- A device is above its rated range: critical warning bit [1]. -/
def dramHot (s : State) : Bool := s.memory.chans.any fun e => e.2.mr4Hot

/-- Read MR4 of every device of a channel: the hottest device's rate, and whether one is above its range. -/
def execMr4Poll (channel rate : Nat) (overRange : Bool) (s : State) : Host.Outcome State Fault Refusal :=
  .next (if dramServes s channel then
    let s1 := s.onDramChan channel fun c => { c with mr4Rate := rate % 8, mr4Hot := overRange }
    if dramHot s1 && !dramHot s then s1.raiseSmart evTemperature [1] else s1
  else s)

/-! ## Requests (R413, R415, R417) -/

/-- The lines that a channel's queues hold. -/
def heldLines (s : State) (q : List MemReq) (c : Nat) : Nat := (q.filter fun r => channelOfAddr s (64 * r.line) = c).length

/-- Words of a line that some bytes of it cover in part. -/
def partWords (offset n : Nat) : Nat := ((wordsOf offset n).filter fun w => !wholeWord offset n w).length

/-- The write queue holds every word of a line. -/
def wholeLineQueued (s : State) (line : Nat) : Bool :=
  (List.range 64).all fun i => s.memory.writes.any fun r => r.line = line && match r.write with
    | some w => decide (w.offset ≤ i) && decide (i < w.offset + w.bytes.length)
    | none => false

/-- A channel issues a line: its bank's row is open. -/
def State.openRow (s : State) (line : Nat) : State :=
  let l := s.locOf (64 * line)
  s.onMem fun m => { m with rows := m.rows.set l.bank l.row }

/-- Writes drain to 16 lines once 48 are held, or whole while no read waits (R413). -/
def State.drainWrites (s : State) (c : Nat) : State :=
  let mine := s.memory.writes.filter fun r => decide (channelOfAddr s (64 * r.line) = c)
  let kept := if heldLines s s.memory.reads c = 0 then [] else if 48 ≤ mine.length then lastN 16 mine else mine
  let gone := mine.take (mine.length - kept.length)
  (gone.foldl (fun t r => t.openRow r.line) s).onMem fun m =>
    { m with writes := (m.writes.filter fun r => decide (channelOfAddr s (64 * r.line) ≠ c)) ++ kept }

/-! ## Urgency (R411, R414) -/

/-- The urgency level of a read: SHADOW is at 3 from acceptance; during a dump MEDIA goes before every other port. -/
def urgency (s : State) (r : MemReq) : Nat :=
  let ns := 20 * (s.now - r.since)
  let t := s.regFld (rMemPortCfg r.port) 9 0
  if s.sys.phase = .dumping ∧ r.port = 3 then 4
  else if r.port = 5 then 3
  else if 2 * ns < t then 0 else if 4 * ns < 3 * t then 1 else if ns < t then 2 else 3

/-- The row of a line is open. -/
def rowHit (s : State) (line : Nat) : Bool :=
  let l := s.locOf (64 * line)
  s.memory.rows.find l.bank = some l.row


/-- The lines that a request of a port may go to: a SHADOW line has two copies (R412). -/
def copiesOf (s : State) (port line : Nat) : List Nat := if port = 5 then [line, shadowTwin s (64 * line) / 64] else [line]

/-- The channel of a line serves, and has a free entry in one of its queues (R413). -/
def lineOpen (s : State) (q : List MemReq) (line : Nat) : Bool :=
  dramServes s (channelOfAddr s (64 * line)) && decide (heldLines s q (channelOfAddr s (64 * line)) < 64)

/-- Accept a write of a line: its bytes are stored, and its entry waits to drain. -/
def State.memWrite (s : State) (port line : Nat) (w : MemWrite) : State :=
  let s1 := s.dramWrite (64 * line + w.offset) w.bytes
  let s2 := s1.onMem fun m => { m with writes := m.writes ++ [{ port := port, line := line, write := some w, since := s.now, data := [] }] }
  let p := partWords w.offset w.bytes.length
  ((s2.addCnt (rMemCount 1) p).addCnt (rMemCount 3) (if p = 0 then 1 else 2)).drainWrites (channelOfAddr s (64 * line))

/-! ## Corrections (R416, R418, R419, R422 to R425) -/

/-- The lifetime error class of a memory group, if one counts it: the Lynx attribute memory counts where its entries are repaired
or lost (R559). -/
def groupClass (g : Nat) : Option Nat :=
  if g < 4 then some (3 + g) else if g < 12 then some 7 else if g < 20 then some 8 else if g = 20 then some 9 else none
/-- Count an error of a memory group in its lifetime class. -/
def State.groupError (s : State) (g : Nat) (lost : Bool) : State :=
  match groupClass g with
  | some c => s.addLife (lifeErr c lost) 1
  | none => s
def logRoom (g : Nat) : Nat := if g < 4 then 32 else 16

/-- The entry with the lowest key among those that pass a test, the first on a tie. -/
def lowestLog (key : LogEntry → Nat) (es : List LogEntry) : Option LogEntry :=
  es.foldl (fun (a : Option LogEntry) e => match a with
    | none => some e
    | some x => if key e < key x then some e else some x) none

/-- The entry that a new word replaces in a full log (R419). -/
def replaceable (es : List LogEntry) : Option LogEntry :=
  (lowestLog (·.time) (es.filter fun e => e.st = .retired)).or <|
  (lowestLog (fun e => e.count * 2 ^ 64 + e.time) (es.filter fun e => e.st = .counting)).or <|
  lowestLog (·.time) (es.filter fun e => e.st = .rewritten)

/-- Where the remap table sends a page, by fuel (R424). -/
def remapped (s : State) : Nat → Nat → Nat
  | 0, p => p
  | n + 1, p => match s.memory.remap.find p with
    | some k => remapped s n (dramBytes s.board / 4096 - 1024 + k)
    | none => p

/-- Spare pages in use or about to be. -/
def sparesUsed (s : State) : Nat := s.memory.remap.length + s.memory.retiring.length

/-- A DRAM hard fault: its page is retired to the next spare page; with none left the word stays in use (R423, R424). -/
def State.retirePage (s : State) (g a : Nat) : State :=
  let page := remapped s 1025 (a / 4096)
  if (s.memory.retiring.find page).isSome then s
  else if sparesUsed s < 1024 then s.onMem fun m => { m with retiring := m.retiring.set page (sparesUsed s) }
  else (s.onMem fun m =>
    { m with noSpare := true, rewrites := addOnce m.rewrites (g, a),
             logs := m.logs.map fun l => if l.group = g ∧ l.addr = a then { l with st := .rewritten, count := 0 } else l }).raiseSmart
      evReliability [2]

/-- The bank of an on-chip word, for its spares. -/
def bankOf (g a : Nat) : Nat := if 4 ≤ g ∧ g < 12 then (a - stagingBase) / stagingBank else 128 + g
/-- A spare row or column is left in the bank of a word. -/
def spareLeft (s : State) (g a : Nat) : Bool :=
  let used := ((s.memory.repairs ++ (s.memory.fixes.filter fun x => x.2.2).map fun x => (x.1, x.2.1)).filter fun x =>
    bankOf x.1 x.2 = bankOf g a).length
  let entries := ((s.memory.repairs.map (·.1)) ++ (s.memory.fixes.filter fun x => x.2.2).map (·.1)).filter fun x => x = g
  decide (g ≠ 21) && decide (used + Config.sramFused (bankOf g a) < 6) && decide (entries.length < 64)

/-- A word is a hard fault. -/
def State.hardFault (s : State) (g a : Nat) : State :=
  let s1 := s.onMem fun m => { m with logs := m.logs.map fun l => if l.group = g ∧ l.addr = a then { l with st := .hard } else l }
  if g < 4 then s1.retirePage g a
  else (s1.onMem fun m => { m with fixes := m.fixes ++ [(g, a, spareLeft s g a)] }).bumpGen 0xC6 |>.cfgWrite .note

/-- A correction of a word: counted, and logged with its bit. -/
def State.corrected (s : State) (g a bit : Nat) : State :=
  let s1 := (s.addReg (rEccCe g) 1).groupError g false
  let mine := s.memory.logs.filter fun l => l.group = g
  match mine.find? fun l => l.addr = a with
  | some l =>
    let l1 := { l with bit := bit, time := s.now, count := l.count + 1 }
    let s2 := s1.onMem fun m => { m with logs := m.logs.map fun x => if x = l then l1 else x }
    if l1.st = .counting ∧ 4 ≤ l1.count then s2.onMem fun m => { m with rewrites := addOnce m.rewrites (g, a) }
    else if l1.st = .rewritten ∧ 2 ≤ l1.count then s2.hardFault g a
    else s2
  | none =>
    let new : LogEntry := { group := g, addr := a, bit := bit, count := 1, st := .counting, time := s.now }
    if mine.length < logRoom g then s1.onMem fun m => { m with logs := m.logs ++ [new] }
    else match replaceable mine with
      | some old => s1.onMem fun m => { m with logs := m.logs.map fun x => if x = old then new else x }
      | none => s1

/-! ## Uncorrectable words (R426) -/

/-- The content code of what memory holds. -/
def heldCode : Held → Nat
  | .unallocated => 0 | .mapSegment _ => 1 | .journals => 2 | .slot _ => 3 | .task .. => 4 | .localMemory => 4 | .modulePool .. => 5
  | .digestContext _ => 6 | .lynxShadow .. => 7 | .kvIndex _ => 8 | .hintTable _ => 9 | .firmware => 10 | .staging _ => 11
  | .hartCache .. => 12 | .matchingStore .. => 13 | .lynxAttribute .. => 14

/-- The word stays poisoned: what the content's action leaves of it (R426). -/
def keepsPoison : Held → Bool
  | .slot _ => true | .task .. => true | .localMemory => true | .modulePool .. => true | .staging (some _) => true
  | _ => false

/-- A task whose data is lost fails with POISONED_DATA, wherever it waits or runs; one that runs on a hart fails with cause 10
at the lost byte of its input window (R109, R135, R426). -/
def State.poisonTask (s : State) (flow stage cslot at_ : Nat) : State :=
  let mine := isEntry flow stage cslot
  match s.disp.entries.find? fun e => mine e && !e.discard with
  | some e => (s.dropEntry flow stage cslot).failTask e stPoisoned
  | none =>
    let queued := (s.disp.queues.map (·.2.2)) ++ (s.disp.prefetch.map (·.task)) ++ (s.disp.running.map (·.task)) ++
      s.hrt.harts.filterMap fun h => h.2.squirrel.map (·.task)
    match queued.find? mine with
    | some t => ((s.onDisp fun d =>
        { d with queues := d.queues.filter fun q => !mine q.2.2, prefetch := d.prefetch.filter fun p => !mine p.task,
                 running := d.running.filter fun r => !mine r.task }).onHrt fun y =>
        { y with harts := Tbl.mapVals y.harts fun _ x => { x with squirrel := x.squirrel.filter fun q => !mine q.task } }).failTask t stPoisoned
    | none => match s.hrt.harts.find? fun h => match h.2.kernel with | some k => mine k.task | none => false with
      | some h => s.kernelPoisoned h.1 (Window.input.base + at_)
      | none => s

/-- DSP_ECC_STATUS records an uncorrectable entry by its index (R116). -/
def State.recordEntryError (s : State) (flow stage cslot : Nat) : State :=
  let ix := match s.entry flow stage cslot with | some e => e.index | none => 0
  (s.setReg rDspEcc (w32 (2 ^ 31 + ix % 65536))).irq

/-- Both copies of word 0 of an entry are uncorrectable: ENGINE is reset, the entry and its task are lost, and its flow fails
with STAGE 0xFF for its lowest unretired chunk (R109). -/
def State.entryHeadLost (s : State) (flow stage cslot : Nat) : State :=
  match s.entry flow stage cslot with
  | none => s
  | some e =>
    let s1 := ((s.recordEntryError flow stage cslot).dropEntry flow stage cslot |> fun t => freeTask t e).l2Reset .engine 0xFF 4
    match s1.flow flow with
    | some f => if f.bound then s1.failFlow flow (match f.oldest with | some k => k | none => f.issued) 0xFF stPoisoned else s1
    | none => s1

/-- Words 1 to 3 of an entry are uncorrectable: its task fails with POISONED_DATA (R109). -/
def State.entryDataLost (s : State) (flow stage cslot : Nat) : State := (s.recordEntryError flow stage cslot).poisonTask flow stage cslot 0

/-- A slot of the write buffer is lost: unless its IU's entry names media, the IU becomes BAD with cause 3. -/
def State.slotPoisoned (s : State) (k : Nat) : State :=
  match s.slot k with
  | some x =>
    if s.entryOf x.iu = ⟨.buffer, 0, k⟩ then (s.onFtl fun f => { f with slots := f.slots.erase k }).setBad x.iu 3 else s
  | none => s

/-- A digest context is lost: the Trail whose stage holds it fails. -/
def State.contextLost (s : State) (c : Nat) : State :=
  let s1 := s.onDgs fun d => { d with ctxs := d.ctxs.erase c }
  match s.boundFlow (c / 4) with
  | some f =>
    let ds := (List.range f.trail.stages.length).filter fun i => match Trail.stageAt f.trail i with | some x => x.isDigest | none => false
    match ds[c % 4]? with
    | some i => s1.failFlow (c / 4) (match f.oldest with | some k => k | none => f.issued) i stPoisoned
    | none => s1
  | none => s1

/-- A line of a hart's caches is lost: a clean one is invalidated and fetched again, a dirty one fails the task with cause 10
(R135, R136). -/
def State.cacheLost (s : State) (hart line : Nat) : State :=
  if lineDirty s hart line then s.kernelPoisoned hart (64 * line)
  else s.dropLines hart fun l => decide (l.line = line)

/-- A word of a module's copy in the pool is lost: the module is DAMAGED, and the task of the hart that read it fails with cause
10. The pool holds the text and then the read-only data, each in whole pages (R135; notes/assumptions/22.md). -/
def State.poolLost (s : State) (m at_ : Nat) (hart : Option Nat) : State :=
  let s1 := s.onHrt fun h => { h with modules := h.modules.modify m fun x => { x with st := .damaged } }
  match hart, s.module m with
  | some h, some x => match (s.hart h).kernel with
    | some k =>
      if kernelModule s k = m then
        let text := roundPage x.text.length
        s1.kernelPoisoned h (if at_ < text then Window.code.base + at_ else Window.constants.base + (at_ - text))
      else s1
    | none => s1
  | _, _ => s1

/-- What the G9 does about lost content (R426). -/
def State.contentLost (s : State) : Held → State
  | .mapSegment seg => s.onFtl fun f => { f with segRebuild := addOnce f.segRebuild seg }
  | .slot k => s.slotPoisoned k
  | .task f st c o => s.poisonTask f st c o
  | .staging (some (f, st, c, o)) => s.poisonTask f st c o
  | .modulePool m o h => s.poolLost m o h
  | .digestContext c => s.contextLost c
  | .hintTable b => s.onBlock b fun x => { x with hint := 0 }
  | .firmware => s.l3Reset .mem 10
  | .hartCache h line => s.cacheLost h line
  | .matchingStore f st c head => if head then s.entryHeadLost f st c else s.entryDataLost f st c
  | .lynxShadow t i => s.onLynxTable t fun x => { x with shadowBad := addOnce x.shadowBad i }
  | .lynxAttribute .. => (s.addCnt (rLnxCount 5) 1).addLife (lifeErr 10 false) 1
  | _ => s

/-- Record the word in ECC_UE_STATUS, or that a further one occurred (R438). -/
def State.recordUe (s : State) (g a : Nat) (held : Held) (poison : Bool) : State :=
  if s.regBit rEccUeStatus 31 then s.setReg rEccUeStatus (s.reg rEccUeStatus ||| 0x40000000#32)
  else ((s.setReg rEccUeStatus (w32 (2 ^ 31 + bitIf poison 29 + g % 32 * 2 ^ 16 + heldCode held * 2 ^ 12))).setReg rEccUeAddrLo (loOf a)).setReg
    rEccUeAddrHi (hiOf a)

/-- The syndrome of a word: what its flipped bits and its poison make it, else what the part showed. -/
def syndromeOf (s : State) (g a : Nat) (seen : Syndrome) : Syndrome :=
  if (g, a) ∈ s.memory.poison then .poisoned
  else match s.memory.flips.filter fun f => f.1 = g && f.2.1 = a with
    | [] => seen
    | [f] => .corrected f.2.2
    | _ => .uncorrectable

/-- A good copy of the word rewrites it: the journals and the Lynx shadow have two (R412, R426). -/
def otherCopyGood (s : State) (a : Nat) : Held → Bool
  | .journals => true
  | .lynxShadow .. =>
    let b := shadowTwin s a
    syndromeOf s (channelOfAddr s b) b .good ≠ .uncorrectable && syndromeOf s (channelOfAddr s b) b .good ≠ .poisoned
  | _ => false

/-- A word is found uncorrectable, or poisoned, for the first time. -/
def State.uncorrectable (s : State) (g a : Nat) (held : Held) (poison : Bool) : State :=
  if (g, a) ∈ s.memory.poison then s
  else
    let s1 := s.onMem fun m =>
      { m with poison := if keepsPoison held then m.poison ++ [(g, a)] else m.poison,
               flips := m.flips.filter fun f => !(f.1 = g && f.2.1 = a),
               dram := if g < 12 ∧ !otherCopyGood s a held then m.dram.clear a 8 else m.dram }
    let s2 := ((s1.addReg (rEccUe g) 1).groupError g true).recordUe g a held poison
    (s2.contentLost held).irq

/-- Act on the syndrome of a word. -/
def State.classify (s : State) (g a : Nat) (seen : Syndrome) (held : Held) : State :=
  match syndromeOf s g a seen with
  | .good => s
  | .corrected b => s.corrected g a b
  | .poisoned => s.uncorrectable g a held true
  | .uncorrectable => s.uncorrectable g a held false

/-- The merge of a partial write reads the old words: a wrong one is corrected and counted, or found uncorrectable and then written
poisoned, unless what the memory holds has another remedy (R417, R419, R426). -/
def State.mergeReads (s : State) (line : Nat) (w : MemWrite) : State :=
  let a := 64 * line + w.offset
  ((wordsOf a w.bytes.length).filter fun x => !wholeWord a w.bytes.length x).foldl
    (fun t x => t.classify (channelOfAddr s (8 * x)) (8 * x) .good w.held) s

/-- A port's request is accepted when its channel has a free entry: a read waits for its data, a write is acknowledged. A SHADOW
write goes to both copies, and a SHADOW read waits for either (R412). While MEM is in reset every request toward it has a bridge
error (R15, R427). -/
def execMemRequest (port : Nat) (line : Nat) (write : Option MemWrite) (s : State) : Host.Outcome State Fault Refusal :=
  let lines := copiesOf s port line
  if s.running ∧ !s.up .mem ∧ port < 8 ∧ port ≠ 6 then .next (s.noteBridge .mem (portIsland port))
  else if port < 8 ∧ 64 * line + 64 ≤ dramBytes s.board then
    match write with
    | none =>
      if lines.any (lineOpen s s.memory.reads) then
        let s1 := s.onMem fun m =>
          { m with reads := m.reads ++ [{ port := port, line := line, write := none, since := s.now,
                                          data := Mem.readBytes m.dram (64 * line) 64 }] }
        .next (if wholeLineQueued s line then s1.addCnt (rMemCount 0) 1 else s1)
      else .next s
    | some w =>
      if lines.all (lineOpen s s.memory.writes) ∧ w.offset + w.bytes.length ≤ 64 then
        .next (lines.foldl (fun t l => (t.mergeReads l w).memWrite port l w) s)
      else .next s
  else .next s

/-! ## Data returns, Owl, retirement, injection (R411, R416, R420 to R423, R440) -/

/-- Longest latency of a port, and the reads that passed their target (R432, R433). -/
def State.portLatency (s : State) (port ns : Nat) : State :=
  let v := s.reg (rMemPortStat port)
  let late := port ≠ 6 && decide (s.regFld (rMemPortCfg port) 9 0 < ns)
  let overdue := if late then satAdd 0xFFFF (fld v 31 16) 1 else fld v 31 16
  let peak := Nat.max (fld v 15 0) (Nat.min 0xFFFF ns)
  let s1 := s.setReg (rMemPortStat port) (w32 (overdue * 2 ^ 16 + peak))
  if late || port = 5 then s1.addCnt (rMemCount 2) 1 else s1

/-- The reads that a channel can issue, oldest first. -/
def issuable (s : State) (c : Nat) : List MemReq :=
  s.memory.reads.filter fun r => (copiesOf s r.port r.line).any fun l => decide (channelOfAddr s (64 * l) = c)

/-- The read that a channel issues: of the highest level present, a row hit first below level 3, then the oldest (R411, R414). -/
def nextRead (s : State) (c : Nat) : Option MemReq :=
  let all := issuable s c
  let top := (all.map (urgency s)).foldl Nat.max 0
  let mine := all.filter fun r => decide (urgency s r = top)
  if top < 3 then (mine.find? fun r => rowHit s r.line).or mine.head? else mine.head?

/-- What a port receives: the line as it was accepted, unless a word of it is poisoned (R415, R426). -/
def State.serveRead (s : State) (r : MemReq) (seen : Syndrome) : State :=
  let bad := seen = .uncorrectable || seen = .poisoned ||
    (wordsOf (64 * r.line) 64).any fun w => decide ((channelOfAddr s (8 * w), 8 * w) ∈ s.memory.poison)
  s.onMem fun m => { m with served := if bad then m.served.erase r.port else m.served.set r.port r.data }

/-- The data of a read returns: of the read that its channel issues, or of one whose whole line the write queue holds (R411, R415).
`word` names the word whose syndrome was seen, `line` the copy that served a SHADOW read (R412). -/
def execMemReadDone (port line word : Nat) (seen : Syndrome) (held : Held) (latencyNs : Nat) (s : State) :
    Host.Outcome State Fault Refusal :=
  match s.memory.reads.find? fun r => r.port = port && decide (line ∈ copiesOf s port r.line) with
  | none => .next s
  | some r =>
    let a := 64 * line + 8 * (word % 8)
    let c := channelOfAddr s (64 * line)
    let queued := wholeLineQueued s line
    if !dramServes s c || !(queued || decide (nextRead s c = some r)) then .next s
    else
      let s1 := s.onMem fun m => { m with reads := m.reads.erase r }
      let s2 := if queued then s1 else (s1.openRow line).addCnt (rMemCount 3) 1
      let s3 := (s2.portLatency port latencyNs).classify c a seen held
      .next ((s3.serveRead r (syndromeOf s c a seen)).drainWrites c)

/-- Owl may read: it runs, and a DRAM channel has no other request. -/
def owlReads (s : State) (g a : Nat) : Bool :=
  s.regBit rEccCtl 0 && !owlStopped s &&
  (decide (4 ≤ g) || (decide (channelOfAddr s a = g) && dramServes s g && decide (heldLines s s.memory.reads g = 0) &&
    decide (heldLines s s.memory.writes g = 0))) && decide (g < 22)

/-- Owl's rewrites of a channel or bank: fresh check bits (R422). -/
def State.owlRewrites (s : State) (g : Nat) : State :=
  (s.memory.rewrites.filter fun r => r.1 = g).foldl (fun t r =>
    t.onMem fun m => { (m.rewritten g r.2) with flips := m.flips.filter fun f => !(f.1 = g && f.2.1 = r.2) }) s

/-- A lap ends with this word: its duration, and OVERDUE clears when it kept its target (R421, R435). -/
def State.lapEnd (s : State) (g : Nat) : State :=
  if g < 4 then
    s.onMem fun m =>
      { m with owlLast := Nat.min 0xFFFF (m.owlLap / tSec), owlLap := 0, owlAt := 0,
               owlOverdue := m.owlOverdue && decide (s.regFld rEccOwlCfg 31 16 * tSec < m.owlLap) }
  else s.onMem fun m => { m with owlSram := Nat.min 0xFFFF (m.owlSramLap / tMs), owlSramLap := 0 }

/-- Owl reads a word in an idle slot. -/
def execOwlRead (group addr : Nat) (seen : Syndrome) (held : Held) (last : Bool) (s : State) : Host.Outcome State Fault Refusal :=
  if owlReads s group addr then
    let a := addr / 8 * 8
    let s1 := s.owlRewrites group
    let s2 := if group < 4 then s1.onMem fun m => { m with owlAt := a } else s1
    let s3 := s2.classify group (if group < 12 then a else addr) seen held
    .next (if last then s3.lapEnd group else s3)
  else .next s

/-- The words of a page are copied, corrected: a single wrong bit is left behind; a word with more stays uncorrectable until it is
found, as a poisoned one stays poisoned (R423, R428). -/
def MemSide.copyPage (m : MemSide) (inPage : Nat → Bool) : MemSide :=
  { m with flips := m.flips.filter fun f =>
      !(decide (f.1 < 4) && inPage f.2.1) || decide (1 < (m.flips.filter fun x => x.1 = f.1 && x.2.1 = f.2.1).length) }

/-- A retired page is copied: later accesses go to the spare, and the remap is saved (R423). -/
def execPageRetireDone (page : Nat) (s : State) : Host.Outcome State Fault Refusal :=
  match s.memory.retiring.find page with
  | none => .next s
  | some k =>
    if !s.up .mem then .next s
    else
      let s1 := s.onMem fun m =>
        { m.copyPage (fun a => remapped s 1025 (a / 4096) = page) with
          retiring := m.retiring.erase page, remap := m.remap.set page k
          logs := m.logs.map fun l => if l.group < 4 ∧ remapped s 1025 (l.addr / 4096) = page then { l with st := .retired } else l }
      .next ((s1.cfgWrite .note).logEvent 8 (channelOfAddr s (4096 * page)) 0xFFFF 0 (4096 * page))

/-- The lap in progress exceeds LAP_TARGET. -/
def execOwlLapOverdue (s : State) : Host.Outcome State Fault Refusal :=
  .next (if s.memory.owlOverdue || owlStopped s then s
  else (s.onMem fun m => { m with owlOverdue := true }).addLife (lifeEvent 8) 1)

/-- A write of ECC_INJECT: its fields, and ARM unless the block is locked. -/
def execEccInjectArm (r : Requester) (value : W32) (s : State) : Host.Outcome State Fault Refusal :=
  .next (if !s.barReaches r rEccInject ∨ !bitAt value 31 then s.barMiss r rEccInject
  else
    let s1 := s.writeFields rEccInject value
    if s.locked rEccInject then s1 else s1.onMem fun m => { m with armed := true, injected := false })

end Sys2Proof.Machine
end

