-- ==== Sys2Proof/Machine/Tasks.lean ====
section
/-! DEFINITION. The meanings of the dispatcher's events: credits and sink grants, firing, the start and completion of tasks
on units, the engine watchdog, the orphan check, and Squirrel slots (R80 to R112). -/

namespace Sys2Proof.Machine

/-- The dispatcher works: the G9 runs and ENGINE answers. -/
def dispatching (s : State) : Bool := s.running && s.up .engine

/-- A flow whose tasks may be sent: its instance is not in a function-level reset (R111). -/
def flowGoes (s : State) (f : Flow) : Bool := (s.ctrl f.owner).flr.isNone

/-! ## Credits (R89, R90, R92) -/

/-- A task that waits for a credit of its boundary's pool, or for an entry for its sink task. -/
def asksCredit (f : Flow) (e : Task) : Bool :=
  decide (e.stage < Trail.sinkIx f.trail) && !e.discard && !e.arrived.getLsbD 2 && (e.stage = 0 || e.arrived.getLsbD 0)

/-- Its boundary has a credit to give; the boundary before the sink has no pool. -/
def poolHas (f : Flow) (e : Task) : Bool := e.stage + 1 = Trail.sinkIx f.trail || decide (0 < f.pools.getD e.stage 0)

/-- An entry can be taken: from the shared pool, else from the flow reserve for the oldest unretired chunk. -/
def entryFree (s : State) (f : Flow) (e : Task) : Bool := decide (0 < sharedFree s) || (decide (f.oldest = some e.chunk) && !f.reserveUsed)

/-- The tasks of every flow that wait for a credit that their boundary has to give, each with its function. -/
def creditWaiters (s : State) : List (Fn × Task) :=
  s.disp.entries.filterMap fun x => match s.boundFlow x.flow with
    | some f => if asksCredit f x && poolHas f x then some (f.owner, x) else none
    | none => none

/-- The flow has its turn at the shared pool: the pool has entries for all that wait, or none for any (each flow then has its own
reserve), or R97 takes the flow's task first. -/
def flowMayTake (s : State) (e : Task) : Bool :=
  let all := creditWaiters s
  decide (all.length ≤ sharedFree s) || decide (sharedFree s = 0) ||
  decide ((s.arb poolArb).flowTurn (fun x => (s.ctrl x).share.weight) (all.map fun t => (t.1, t.2.flow)) = some e.flow)

/-- The dispatcher may grant this task its credit: its chunk is the lowest that waits at its stage, while entries are short no
task of a later stage can be served first, and its flow has its turn. -/
def mayGrant (s : State) (f : Flow) (e : Task) : Bool :=
  let waiting := s.disp.entries.filter fun x => decide (x.flow = e.flow) && asksCredit f x && poolHas f x
  asksCredit f e && poolHas f e && entryFree s f e && (waiting.all fun x => decide (x.stage ≠ e.stage) || decide (e.chunk ≤ x.chunk)) &&
  (decide (waiting.length ≤ sharedFree s) || waiting.all fun x => !(decide (e.stage < x.stage) && entryFree s f x)) && flowMayTake s e

def execCreditGrant (flow stage cslot : Nat) (s : State) : Host.Outcome State Fault Refusal :=
  .next (match s.boundFlow flow, s.entry flow stage cslot with
    | some f, some e =>
      if dispatching s ∧ mayGrant s f e = true then
        let s1 := if stage + 1 = Trail.sinkIx f.trail then s else s.takeCredit flow stage
        let s2 := if sharedFree s = 0 then s1 else s1.served poolArb f.owner flow
        (s2.creditToken e).addEntry flow (stage + 1) cslot e.chunk
          (decide (sharedFree s = 0))
      else s
    | _, _ => s)

/-! ## Sink grants (R91) -/

/-- The write of a sink's task waits for admission already. -/
def sinkWaits (s : State) (e : Task) : Bool := s.ftl.waiting.any fun w => w.kind.isOf e.flow e.cslot

/-- The write buffer admits the task's write, if it is the next that the admission rule takes. -/
def State.admitSink (s : State) (e : Task) : State :=
  if admitsWrites s then
    match pickWrite s s.ftl.waiting [] false with
    | some (w, n) => if w.kind.isOf e.flow e.cslot then s.admitWrite w n else s
    | none => s
  else s

/-- A sink asks for its grant: one that writes and deallocates nothing has it at once, and so has an empty SLOTTED task (R99); a
write that fails at once fails the task. The LBAs that a SLOTTED sink deallocates pass the checks of the write as it does (R66,
R188, R213). DEDUCED (notes/assumptions/27.md). -/
def State.grantSink (s : State) (f : Flow) (e : Task) (place : Placement) (nsid slba extent slot : Nat) : State :=
  match s.ns.find nsid with
  | none => s.failSink e stInvalidNs
  | some n =>
    let p := lbaPlan s f n e place extent slot
    let (a, k, rest) := lbaExtent n e place slba extent slot p
    let w : WaitingWrite := { who := ⟨f.owner, 0, 0⟩, kind := .sink e.flow e.cslot rest, nsid := nsid, slba := a, nlb := k }
    if k + rest = 0 then s.creditToken e
    else if sinkWaits s e then s.admitSink e
    else
      match s.nvmGate f.owner nsid a (k + rest) true false with
      | .error st => s.failSink e st
      | .ok _ => match s.writeFails n w with
        | some st => s.failSink e st
        | none => if e.empty then s.creditToken e else (s.enterWrite w.who w.kind nsid a k).admitSink e

/-- The task has every token but its grant. -/
def wantsGrant (e : Task) : Bool := !e.discard && !e.arrived.getLsbD 2 && decide ((e.arrived ||| 4) &&& e.expect = e.expect)

def execSinkGrant (flow cslot : Nat) (s : State) : Host.Outcome State Fault Refusal :=
  .next (match s.boundFlow flow with
    | none => s
    | some f => match s.entry flow (Trail.sinkIx f.trail) cslot, Trail.stageAt f.trail (Trail.sinkIx f.trail) with
      | some e, some (.lbaSink place nsid slba extent slot) =>
        if dispatching s ∧ flowGoes s f ∧ wantsGrant e = true then s.grantSink f e place nsid slba extent slot else s
      | _, _ => s)

/-! ## Firing (R93, R98, R99, R109) -/

/-- The cluster that a PROGRAM task goes to: in its instance's share and in service, with the most free queue entries, the
lowest-numbered on a tie. -/
def hartCluster (s : State) (f : Fn) : Option Nat :=
  let share := (s.ctrl f).share.clusters &&& BitVec.ofNat 8 (s.regFld rHrtCtl 7 0)
  ((List.range 8).filter fun c => share.getLsbD c).foldl (fun (best : Option Nat) c =>
    match best with
    | some b => if queueFillOf s .hart c < queueFillOf s .hart b then some c else best
    | none => some c) none

/-- The input queue of a task's class that the task goes to. -/
def fireQueue (s : State) (f : Flow) (e : Task) (st : Stage) : Option Nat :=
  match st.cls with
  | .media => some (sourceIsland s f.trail e.chunk)
  | .hart => hartCluster s f.owner
  | _ => some 0

/-- The task produces an output payload in a buffer of its own. -/
def makesOutput (st : Stage) : Bool := !st.isSink && !st.isDigest

/-- A task that fires returns the credit of the boundary before it, where that has a pool. -/
def State.fired (s : State) (f : Flow) (e : Task) : State :=
  let s1 := s.dropEntry e.flow e.stage e.cslot
  if 1 ≤ e.stage ∧ e.stage < Trail.sinkIx f.trail then s1.returnCredit e.flow (e.stage - 1) else s1

/-- An empty task that still goes to a unit: a SLOTTED LBA write sink deallocates its slot. -/
def emptyRuns : Stage → Bool
  | .lbaSink .slotted .. => true
  | _ => false

/-- The stage of a task that fires to a unit. -/
def firesToUnit (s : State) (f : Flow) (e : Task) : Option Stage :=
  match Trail.stageAt f.trail e.stage with
  | some st => if e.ready && flowGoes s f && !(e.empty && !emptyRuns st) then some st else none
  | none => none

/-- The ready tasks that compete for the entries of an input queue, each with its function. -/
def contenders (s : State) (cls : UnitClass) (queue : Nat) : List (Fn × Task) :=
  s.disp.entries.filterMap fun x => match s.boundFlow x.flow with
    | some f => match firesToUnit s f x with
      | some st => if st.cls = cls ∧ fireQueue s f x st = some queue then some (f.owner, x) else none
      | none => none
    | none => none

/-- The queue has an entry for the task: one for every task that competes, or the task is the one that R97 takes first. -/
def queueTakes (s : State) (e : Task) (cls : UnitClass) (queue : Nat) : Bool :=
  let fill := queueFillOf s cls queue
  let all := contenders s cls queue
  decide (fill < queueRoom cls) && (decide (fill + all.length ≤ queueRoom cls) || isTurn s (queueArb cls queue) all e)

/-- The table of a Lynx task. -/
def State.taskTable (s : State) (t : Task) : Option Nat :=
  match s.taskStage t with
  | some (.lynx _ table _ _) => some table
  | _ => none

/-- The units of a class that take new tasks; a Lynx unit is table × 16 + copy. -/
def unitServes (s : State) (cls : UnitClass) (unit : Nat) : Bool :=
  let m := s.power.effective
  match cls with
  | .media => decide (unit < 4) && s.up (mediaIsland unit)
  | .dma => decide (unit < 64) && m ≠ .hibernate &&
    (let c := s.dma.getD unit DmaChan.reset; decide (c.owner = .dispatch) && !c.busy)
  | .cipher | .digest | .codec => staysIn s cls unit
  | .lynx => !s.lynx.restoring && (match s.lynxTable (unit / 16) with
    | some x => decide (unit % 16 < x.copies)
    | none => false)
  | .wbuf => decide (unit = 0) && s.up .mem
  | .hart => false

/-- The fault check of a cipher stage's key class is DUPLICATE (R297, R305). -/
def duplicates (s : State) (t : Task) : Bool :=
  match s.taskStage t with
  | some (.xts ..) => s.regFld rSeaFaultCfg 3 2 = 1
  | some (.gcm ..) => s.regFld rSeaFaultCfg 5 4 = 1
  | _ => false

/-- The second pipeline of a DUPLICATE operation: the lowest other one in service that is idle. -/
def partner (s : State) (unit : Nat) : Option Nat :=
  (List.range 8).find? fun u => decide (u ≠ unit) && unitServes s .cipher u && unitIdle s .cipher u

/-- A task that a unit can take: a Lynx copy serves its table, and an INSERT needs every copy (R358, R359); a source waits
while a map segment of its LBAs is rebuilt, and a DUPLICATE operation needs two pipelines. -/
def suits (s : State) (cls : UnitClass) (unit : Nat) (t : Task) : Bool :=
  match cls with
  | .lynx =>
    let busy := s.disp.running.filter fun r => decide (r.cls = .lynx) && decide (r.unit / 16 = unit / 16)
    let insert := (s.taskStage t).any Stage.isInsert
    decide (s.taskTable t = some (unit / 16)) && (!insert || busy.isEmpty) && busy.all fun r => !((s.taskStage r.task).any Stage.isInsert)
  | .cipher => !duplicates s t || (partner s unit).isSome
  | .media => match s.boundFlow t.flow, s.taskStage t with
    | some f, some (.lbaSource _ nsid _ _ _) => match s.ns.find nsid with
      | some n => let (a, k) := sourceLbas s f.trail n t.chunk; !segBusy s (iusOf n a k)
      | none => true
    | _, _ => true
  | _ => true

/-- A unit of an engine class that is idle and could start a task (R94). -/
def idleUnit (s : State) (cls : UnitClass) (t : Task) : Bool :=
  let units := match cls with
    | .dma => List.range 64
    | .lynx => match s.taskTable t with | some x => (List.range 16).map fun i => 16 * x + i | none => []
    | _ => List.range 24
  units.any fun u => unitServes s cls u && unitIdle s cls u && suits s cls u t

/-- A unit's prefetch stage takes a task, with its descriptor and the first 4 KiB of its operand (R104). -/
def State.prefetchTask (s : State) (cls : UnitClass) (unit : Nat) (t : Task) : State :=
  s.onDisp fun d => { d with prefetch := d.prefetch ++ [⟨cls, unit, t, taskDescriptor s t, taskOperand s t⟩] }

/-- A unit of an engine class that runs a task fills its free prefetch stage with the oldest task of its queue that no idle unit
could start; one that leaves service takes none (R32, R94, R104). -/
def State.prefetchNext (s : State) (cls : UnitClass) (unit : Nat) : State :=
  if isEngine cls ∧ staysIn s cls unit = true ∧ s.disp.prefetch.all (fun p => !(decide (p.cls = cls) && decide (p.unit = unit))) then
    match s.disp.queues.find? fun q => decide (q.1 = cls) && (cls ≠ .lynx || decide (s.taskTable q.2.2 = some (unit / 16))) with
    | some q =>
      if idleUnit s cls q.2.2 then s else (s.onDisp fun d => { d with queues := d.queues.erase q }).prefetchTask cls unit q.2.2
    | none => s
  else s

/-- Every running unit fills its prefetch stage. -/
def State.prefetchFill (s : State) : State := s.disp.running.foldl (fun t r => t.prefetchNext r.cls r.unit) s

/-- A unit that runs a task of an engine class, stays in service and has its prefetch stage free, where no unit is idle. -/
def prefetcher (s : State) (cls : UnitClass) (t : Task) : Option Nat :=
  if isEngine cls && !idleUnit s cls t then
    (s.disp.running.find? fun r => decide (r.cls = cls) && (cls ≠ .lynx || decide (s.taskTable t = some (r.unit / 16))) &&
      staysIn s cls r.unit && s.disp.prefetch.all fun p => !(decide (p.cls = cls) && decide (p.unit = r.unit))).map fun r => r.unit
  else none

/-- Send a task to an input queue; a unit of its class that runs a task and has prefetched none takes it from there (R104). -/
def State.sendTask (s : State) (f : Flow) (e : Task) (cls : UnitClass) (queue : Nat) (out : Option Nat) : State :=
  let t := { e with out := out }
  let s1 := (s.fired f e).served (queueArb cls queue) f.owner e.flow
  (match (if s1.disp.queues.any fun q => decide (q.1 = cls) then none else prefetcher s1 cls t) with
    | some u => s1.prefetchTask cls u t
    | none => (s1.onDisp fun d => { d with queues := d.queues ++ [(cls, queue, t)] }).paceHold).poolUpdate

/-- A ready task fires when its queue has room for it and its output buffer can be allocated; otherwise it keeps its entry. -/
def State.fireTask (s : State) (f : Flow) (e : Task) (st : Stage) : State :=
  match fireQueue s f e st with
  | none => s
  | some q =>
    if queueTakes s e st.cls q then
      if makesOutput st then
        match s.allocBuf with
        | some (b, s1) => s1.sendTask f e st.cls q (some b)
        | none => s
      else s.sendTask f e st.cls q none
    else s

def execTaskFire (flow stage cslot : Nat) (seen : EntrySeen) (s : State) : Host.Outcome State Fault Refusal :=
  .next (match s.boundFlow flow, s.entry flow stage cslot with
    | some f, some e => match Trail.stageAt f.trail stage with
      | some st =>
        if dispatching s ∧ flowGoes s f ∧ e.ready = true then
          match seen with
          | .data => s.entryDataLost flow stage cslot
          | .head => s.entryHeadLost flow stage cslot
          | .good => if hmacCleared s f e then s.failFlow flow e.chunk stage stKeySlotEmpty
            else if e.empty ∧ !emptyRuns st then ((s.fired f e).emptyTask f e st).poolUpdate else s.fireTask f e st
        else s
      | none => s
    | _, _ => s)

/-! ## Units (R94, R96, R104, R105, R273) -/

/-- The tasks a unit may take, in order: its prefetched task, the prefetched tasks of units that have left service, its queue. -/
def candidates (s : State) (cls : UnitClass) (unit : Nat) : List Task :=
  let own := s.disp.prefetch.filter fun p => decide (p.cls = cls) && decide (p.unit = unit)
  let left := s.disp.prefetch.filter fun p => decide (p.cls = cls) && !unitServes s cls p.unit
  let queue := s.disp.queues.filter fun q => decide (q.1 = cls) && (cls ≠ .media || decide (q.2.1 = unit))
  own.map (·.task) ++ left.map (·.task) ++ queue.map (·.2.2)

/-- Take a task out of its queue or prefetch stage. -/
def State.takeTask (s : State) (t : Task) : State :=
  s.onDisp fun d => { d with queues := d.queues.filter fun q => q.2.2 ≠ t, prefetch := d.prefetch.filter fun p => p.task ≠ t }

/-- A source task begins its reads; LBAs that the function may not read fail it at once, and so does a map that MEM does not answer
for (R15, R16, R20). -/
def State.beginSource (s : State) (f : Flow) (t : Task) (unit : Nat) : State :=
  match s.taskStage t with
  | some (.lbaSource _ nsid _ _ _) => match s.ns.find nsid with
    | none => s.failTask t stInvalidNs
    | some n =>
      let (a, k) := sourceLbas s f.trail n t.chunk
      match dramMiss s (DataPath.pushdownRead.ports false), s.nvmGate f.owner nsid a k false false with
      | some i, _ => (s.noteBridge .mem i).failTask t stBusError
      | none, .error st => s.sourceUnread f t st
      | none, .ok _ => (s.onDisp fun d => { d with running := d.running ++ [⟨.media, unit, t, s.now, none⟩] }).readSource t n nsid a a k
  | _ => s

/-- The unit starts the task. -/
def State.startTask (s : State) (cls : UnitClass) (unit : Nat) (t : Task) : State :=
  let s1 := s.takeTask t
  match cls, s.boundFlow t.flow with
  | .media, some f => s1.beginSource f t unit
  | _, _ =>
    let pair := if cls = .cipher ∧ duplicates s t then partner s unit else none
    let s2 := (s1.onDisp fun d => { d with running := d.running ++ [⟨cls, unit, t, s.now, pair⟩] }).prefetchNext cls unit
    match cls, s.taskStage t with
    | .cipher, some (.xts _ slot _ _) => pair.toList.foldl (fun u p => u.keyUse p slot) (s2.keyUse unit slot)
    | .dma, _ => s2.dmaTaskBegins unit
    | _, _ => s2

/-- The island behind a unit that is in reset or gated: a request toward it has a bridge error at once (R15, R427). -/
def unitDown (s : State) (cls : UnitClass) (unit : Nat) : Option Island :=
  match cls with
  | .media => if unit < 4 ∧ s.up (mediaIsland unit) = false then some (mediaIsland unit) else none
  | .wbuf => if unit = 0 ∧ s.up .mem = false then some .mem else none
  | _ => none

/-- A task is sent toward an island that answers with a bridge error: it fails with BUS_ERROR (R16). -/
def State.taskMeets (s : State) (t : Task) (i : Island) : State := ((s.takeTask t).noteBridge i .engine).failTask t stBusError

/-- A unit takes a task, after the transfers that wait for its class (R96, R272). -/
def State.unitStart (s : State) (cls : UnitClass) (unit : Nat) : State :=
  match unitDown s cls unit with
  | some i => match (candidates s cls unit).find? (suits s cls unit) with
    | some t => if dispatching s then s.taskMeets t i else s
    | none => s
  | none => if dispatching s ∧ unitServes s cls unit = true ∧ unitIdle s cls unit = true ∧ (⟨cls, 0⟩ : UnitReset) ∉ s.disp.resetting then
    match (candidates s cls unit).find? (suits s cls unit) with
    | some t => s.startTask cls unit t
    | none => s
  else s

def execUnitTaskStart (cls : UnitClass) (unit : Nat) (s : State) : Host.Outcome State Fault Refusal :=
  .next (s.startTransfers.unitStart cls unit)

/-! ## Completion (R100) -/

/-- A reshuffle stage (R386 to R388). -/
def State.runReshuffle (s : State) (t : Task) (op unit streams elem : Nat) : State :=
  let bs := (taskInput s t).bytes
  (s.countDma bs.length).emit t { bytes := reshuffle op unit streams elem bs, sealed := none } false

/-- What the unit does to its task; the flag says that the task goes on. -/
def State.runStage (s : State) (f : Flow) (t : Task) (unit : Nat) (hv : HostView) (seen : UnitSeen) (st : Stage) : State × Bool :=
  match st with
  | .lbaSource slotted nsid _ _ slot => s.runLbaSource f t slotted nsid slot
  | .hostSource .. => (s.runMemorySource f t unit hv st, false)
  | .slmSource .. => (s.runMemorySource f t unit hv st, false)
  | .xts enc slot du tweak => (s.runXts f t enc slot du tweak, false)
  | .gcm enc _ src _ _ nonce => (s.runGcm f t enc src nonce, false)
  | .codec enc width => (s.runCodec f t enc width, false)
  | .reshuffle op u n w => (s.runReshuffle t op u n w, false)
  | .lynx op table o n => (s.runLynx f t unit op table o n (softOf seen), false)
  | .digest .. => (s.runDigest f t, false)
  | .program .. => (s, false)
  | .hostSink .. => (s.runMemorySink f t unit st, false)
  | .slmSink .. => (s.runMemorySink f t unit st, false)
  | .lbaSink place nsid slba extent slot => (s.runLbaSink f t place nsid slba extent slot, false)

/-- The unit can end its task now: a source's reads are done, its channel waits for no pace target, and a host memory sink's
write can be issued (R385, R445). -/
def mayComplete (s : State) (f : Flow) (r : Running) (st : Stage) : Bool :=
  match st with
  | .lbaSource .. => (sourceJob s r.task).all fun j => j.wait = 0
  | .hostSource .. => !(s.chan r.unit).paceWait
  | .slmSource .. => !(s.chan r.unit).paceWait
  | .hostSink .. => canPost s (portOfFn f.owner)
  | .lbaSink place nsid slba extent slot => !sinkLacks s f r.task place nsid slba extent slot
  | .program .. => false
  | _ => true

/-- A unit reports an error of its own: the task fails; a DMA channel's error is recorded too (R390, R396). -/
def State.unitError (s : State) (r : Running) (st : Status) : State :=
  if r.cls = .dma then s.dmaTaskFail r.task r.unit (if st = stPoisoned then 5 else if st = stEngineTimeout then 6 else 2) 0
  else s.failTask r.task st

def execTaskComplete (flow stage cslot : Nat) (hv : HostView) (seen : UnitSeen) (s : State) : Host.Outcome State Fault Refusal :=
  .next (match s.disp.running.find? fun r => isEntry flow stage cslot r.task with
    | none => s
    | some r => match s.boundFlow flow, s.taskStage r.task with
      | some f, some st =>
        if dispatching s ∧ mayComplete s f r st = true then
          let s1 := (s.onDisp fun d => { d with running := d.running.erase r }).startTransfers
          match seen with
          | .error e => ((s1.withdraw fun c => c = .trail flow cslot && st.isSource).unitError r e).rekeyAdvance
          | _ =>
            let (s2, more) := s1.runStage f r.task r.unit hv seen st
            if more then s2.onDisp fun d => { d with running := d.running ++ [r] }
            else (if r.cls = .dma then s2.dmaTaskEnds r.unit else s2).rekeyAdvance
        else s
      | _, _ => s)

/-! ## The engine watchdog (R109, R523) -/

/-- An engine operation exceeds 10 ms: its task fails and its engine is reset. A source's reads and a sink's write fail alone. -/
def execEngineWatchdogExpiry (cls : UnitClass) (unit : Nat) (s : State) : Host.Outcome State Fault Refusal :=
  .next (match s.disp.running.find? fun r => decide (r.cls = cls) && decide (r.unit = unit) with
    | none => s
    | some r =>
      if dispatching s then
        let s1 := s.recordEsc 0 .engine (clsCode cls) 1
        if isEngine cls then s1.l1Reset cls 1 (if cls = .dma then some unit else none)
        else
          ((s1.onDisp fun d => { d with running := d.running.erase r }).withdraw fun c => c = .trail r.task.flow r.task.cslot).failTask r.task
            stEngineTimeout
      else s)

/-! ## The orphan check (R109, R112) -/

/-- Every task of a flow, wherever it is. -/
def tasksOf (s : State) (flow : Nat) : List Task :=
  ((s.disp.entries ++ s.disp.queues.map (·.2.2) ++ s.disp.prefetch.map (·.task) ++ s.hrt.harts.filterMap fun h => h.2.squirrel.map (·.task)).filter
    fun t => decide (t.flow = flow)) ++ runningOf s flow

/-- A task that waits for a data or state token that no task can produce any more. -/
def isOrphan (s : State) (e : Task) : Bool :=
  let ts := tasksOf s e.flow
  let noData := e.expect.getLsbD 0 && !e.arrived.getLsbD 0 && ts.all fun t => !(decide (t.chunk = e.chunk) && decide (t.stage < e.stage))
  let noState := e.expect.getLsbD 3 && !e.arrived.getLsbD 3 &&
    ts.all fun t => !(decide (t.chunk + 1 = e.chunk) && decide (t.stage ≤ e.stage))
  !e.discard && (noData || noState)

/-- An orphan found twice fails with ENGINE_TIMEOUT and is counted. -/
def State.orphanFails (s : State) (e : Task) : State :=
  match s.entry e.flow e.stage e.cslot with
  | none => s
  | some _ =>
    let n := satAdd 0xFFFF (s.regFld rDspFaults 15 0) 1
    ((((s.setBits rDspFaults 0xFFFF#32 (w32 n)).recordEsc 0 .engine 0xFF 1).dropEntry e.flow e.stage e.cslot).failTask e stEngineTimeout)

def execOrphanCheck (s : State) : Host.Outcome State Fault Refusal :=
  .next (if dispatching s ∧ s.regBit rDspCtl 16 then
    let found := s.disp.entries.filter (isOrphan s)
    let again := found.filter fun e => (e.flow, e.stage, e.cslot) ∈ s.disp.suspects
    let s1 := again.foldl State.orphanFails s
    s1.onDisp fun d =>
      { d with suspects := (found.filter fun e => (e.flow, e.stage, e.cslot) ∉ s.disp.suspects).map fun e => (e.flow, e.stage, e.cslot) }
  else s)

/-! ## Squirrel slots and harts (R101, R102, R126, R133) -/

/-- The harts work. -/
def computing (s : State) : Bool := dispatching s && s.up .compute

def execSquirrelFill (hart : Nat) (s : State) : Host.Outcome State Fault Refusal :=
  .next (if computing s ∧ hart < 64 ∧ (s.hart hart).squirrel.isNone then
    match s.disp.queues.find? fun q => decide (q.1 = .hart) && decide (q.2.1 = hart / 8) with
    | some q => ((s.onDisp fun d => { d with queues := d.queues.erase q }).onHart hart fun x =>
        { x with squirrel := some ⟨q.2.2, taskDescriptor s q.2.2, taskOperand s q.2.2⟩ }).poolUpdate
    | none => s
  else s)

def execHartTaskStart (hart : Nat) (s : State) : Host.Outcome State Fault Refusal :=
  .next (if computing s ∧ hart < 64 ∧ (s.hart hart).kernel.isNone ∧ !(s.hart hart).resetting then
    match (s.hart hart).squirrel with
    | some q => (s.invalidate hart).onHart hart fun x => { x with squirrel := none, kernel := some (s.beginKernel q.task) }
    | none => s
  else s)

end Sys2Proof.Machine
end

