-- ==== Sys2Proof/Machine/Namespaces.lean ====
section
/-! DEFINITION. The meanings of the commands that make, change and attach namespaces and of reservations (R280, R367, R454 to
R458). What the NVMe base specification prescribes beyond the manual is PRESUMED (notes/assumptions/11.md). -/

namespace Sys2Proof.Machine

/-! ## Namespace Management (R184, R185, R211, R231, R280, R367, R454 to R456) -/

/-- The smallest memory namespace, and the unit of its size. -/
def memUnit : Nat := 2 ^ 26

/-- A create's fields are in range. -/
def specOk (x : NsSpec) : Bool :=
  x.reserved = 0 && x.cmode ≤ 2 && x.kvflags ≤ 1 && x.recordWidth ≤ 4096 && x.nsze ≠ 0 && x.ncap ≤ x.nsze &&
  (x.kind = .nvm || x.cmode = 0) && (x.kind = .kv || x.kvflags = 0) &&
  (x.kind ≠ .memory || (x.nsze % memUnit = 0 && x.nsze ≤ 2 ^ 32))

/-- Bytes of memory namespaces. -/
def memoryBytes (s : State) : Nat := (s.ns.map fun e => if e.2.kind = .memory then e.2.nsze else 0).sum
/-- Global IU indices of every namespace. -/
def usedIndices (s : State) : Nat := (s.ns.map fun e => if e.2.kind = .memory then 0 else iusFor e.2 e.2.nsze).sum

/-- The limits on capacity hold: the map's share of DRAM, the memory namespaces, and the available spare. -/
def capacityOk (s : State) : Bool :=
  decide (24 * usedIndices s + 4 * memoryBytes s ≤ 3 * dramBytes s.board) && decide (memoryBytes s ≤ 2 ^ 35) && decide (10 ≤ availSpare s)

/-- The lowest base from a number upward at which so many indices meet no namespace (notes/assumptions/23.md). -/
def freeBase (spans : List (Nat × Nat)) (count : Nat) : Nat → Nat → Nat
  | 0, from_ => from_
  | n + 1, from_ =>
    match spans.find? fun p => decide (p.1 < from_ + count) && decide (from_ < p.1 + p.2) with
    | some p => freeBase spans count n (p.1 + p.2)
    | none => from_

/-- The index spans of the namespaces. -/
def nsSpans (s : State) : List (Nat × Nat) :=
  (s.ns.filter fun e => e.2.kind ≠ .memory).map fun e => (e.2.base, iusFor e.2 e.2.nsze)

/-- The lowest free bank of the Lynx array. -/
def freeBank (s : State) : Option Nat :=
  (List.range 16).find? fun i => s.lynx.tables.all fun e => !e.2.banks.getLsbD i

/-- The table of a hot index (R367). -/
def kvTableOn (bank : Nat) (owner : Fn) : LynxTable :=
  { banks := BitVec.ofNat 16 (2 ^ bank), width := 4, copies := 1, owner := owner, verify := false, kv := true, entries := [],
    faulted := false, lost := [], diffs := [], shadowBad := [] }

/-- The namespace global range, over the slot that holds its key. -/
def globalRange (slot : Nat) : Range :=
  { id := 0, start := 0, length := 0, slot := slot, readEnabled := false, writeEnabled := false, readLocked := false,
    writeLocked := false, lockOnReset := true, authorities := [], single := none, rekeying := false, deallocating := false }

/-- A new namespace. -/
def newNs (s : State) (x : NsSpec) (slot : Nat) (table : Option Nat) : Ns :=
  let lba := if x.kind = .nvm then x.lbaSize else 1
  { kind := x.kind, lbaSize := lba, nsze := x.nsze, ncap := x.ncap,
    base := if x.kind = .memory then 0 else freeBase (nsSpans s) (ceilDiv (x.nsze * lba) 16384) s.ns.length 0,
    cmode := x.cmode, recordWidth := x.recordWidth, attached := [], ranges := [globalRange slot], reservation := Reservation.reset,
    kvTable := table, kv := [], mem := [], erasing := none }

/-- Create a namespace whose fields are in range. -/
def State.createNs (s : State) (w : Who) (x : NsSpec) : State :=
  match Tbl.lowestFree s.ns 1 512, s.freeXts with
  | none, _ => s.admin w stNsIdUnavailable 0
  | _, none => s.admin w stNsCapacity 0
  | some nsid, some slot =>
    if poolSmall s then s.admin w stNsCapacity 0
    else
      let table : Option (Nat × Nat) := match Tbl.lowestFree s.lynx.tables 0 16, freeBank s with
        | some t, some b => if x.kvflags = 1 then some (t, b) else none
        | _, _ => none
      let (key, s0) := s.random 64
      let s1 := s0.onNs fun t => t.set nsid (newNs s0 x slot (table.map (·.1)))
      if !capacityOk s1 then s.admin w stNsCapacity 0
      else
        let k : KeySlot := { KeySlot.free with
          st := .loaded, use := 1, owner := managerFn (portOfFn w.fn), key := key,
          stored := some (kwWrap (bytesOf 32 Config.deviceKek) key) }
        let s2 := s1.setXts slot k
        let s3 := match table with
          | some (t, b) => (s2.onLynx fun l => { l with tables := l.tables.set t (kvTableOn b (managerFn (portOfFn w.fn))) }).lynxStage
          | none => s2
        (s3.cfgWrite (.complete w stOk (w32 nsid))).spareUpdate

def execNamespaceCreate (w : Who) (spec : NsSpec) (s : State) : Host.Outcome State Fault Refusal :=
  .next (if s.adminReady w then
    if !isManager w.fn then s.admin w stInvalidOpcode 0
    else if !specOk spec then s.admin w stInvalidField 0
    else if spec.kind = .nvm ∧ spec.lbaSize ≠ 512 ∧ spec.lbaSize ≠ 4096 then s.admin w stInvalidFormat 0
    else s.createNs w spec
  else s)

/-- An active Trail names a namespace. -/
def trailNamesNs (s : State) (nsid : Nat) : Bool :=
  s.disp.flows.any fun e => e.2.bound &&
    ((e.2.trail.statusSlm && e.2.execBy.isNone && decide (e.2.trail.statusAddr / 2 ^ 32 = nsid)) ||
     e.2.trail.stages.any fun st => match st with
       | .lbaSource _ n _ _ _ => n = nsid
       | .lbaSink _ n _ _ _ => n = nsid
       | .slmSource n _ _ => n = nsid
       | .slmSink _ n _ _ _ => n = nsid
       | .gcm _ _ _ a true _ => a / 2 ^ 32 = nsid
       | .digest _ _ _ a true => a / 2 ^ 32 = nsid
       | _ => false)

/-- End the I/O commands on a namespace that reach past a limit: their LBAs are gone. -/
def State.endNsWork (s : State) (nsid limit : Nat) (all : Bool) (st : Status) : State :=
  let past := fun (slba nlb : Nat) => all || decide (limit < slba + nlb)
  let reads := s.ftl.reads.filterMap fun j => match j.client, j.kind with
    | .host w, .memCopy d _ src =>
      if (all && decide (d = nsid)) || src.any (fun x => x.1 = nsid && past x.2.slba x.2.nlb) then some w else none
    | .host w, _ => if j.nsid = nsid ∧ past j.slba j.nlb then some w else none
    | _, _ => none
  let held := (s.ftl.admitted.filter fun a => !a.kind.isSink && a.nsid = nsid && past a.slba a.nlb).map (·.who)
  let waits := (s.ftl.waiting.filter fun a => !a.kind.isSink && a.nsid = nsid && past a.slba a.nlb).map (·.who)
  (reads ++ held ++ waits).foldl (fun t w => (t.dropNvm w).complete w st 0 0) s

/-- Delete a namespace: its LBAs are deallocated, its slots emptied, its hot index undefined. -/
def State.deleteNs (s : State) (nsid : Nat) : State :=
  match s.ns.find nsid with
  | none => s
  | some n =>
    let s1 := (s.endNsWork nsid 0 true stInvalidNs).unmapIus (if n.kind = .memory then [] else iusOf n 0 n.nsze)
    let s2 := n.ranges.foldl (fun t r => (t.setXts r.slot KeySlot.free).uncache 1 r.slot) s1
    let s3 := match n.kvTable with
      | some t => (s2.onLynx fun l => { l with tables := l.tables.erase t }).lynxStage
      | none => s2
    let s4 := (s3.onSea fun e => { e with rekeys := e.rekeys.filter fun r => r.nsid ≠ nsid }).onNs fun t => t.erase nsid
    s4.onHost fun h =>
      { h with rangeSetsA := h.rangeSetsA.filter fun e => e.2.all fun r => r.nsid ≠ nsid,
               rangeSetsB := h.rangeSetsB.filter fun e => e.2.all fun r => r.nsid ≠ nsid }

/-- NSID FFFF_FFFFh deletes every namespace. -/
def execNamespaceDelete (w : Who) (nsid : Nat) (s : State) : Host.Outcome State Fault Refusal :=
  .next (if s.adminReady w then
    let which := if nsid = 0xFFFFFFFF then s.ns.map (·.1) else [nsid]
    if !isManager w.fn then s.admin w stInvalidOpcode 0
    else if which.any fun k => (s.ns.find k).isNone then s.admin w stInvalidNs 0
    else if which.any (trailNamesNs s) then s.admin w stInvalidField 0
    else if which.any fun k => (s.ns.find k).any fun n => n.erasing.isSome then s.admin w stNotReady 0
    else (((which.foldl State.deleteNs s).cfgWrite (.complete w stOk 0)).spareUpdate).rekeyAdvance
  else s)

/-- The namespace with its new sizes; bytes and pairs past them are gone. -/
def Ns.resized (n : Ns) (nsze ncap : Nat) : Ns :=
  { n with nsze := nsze, ncap := ncap, mem := n.mem.filter fun c => decide (c.1 < nsze),
           kv := n.kv.filter fun r => r.pieces.all fun p => decide (p.iu < iusFor n nsze) }

def execNamespaceResize (w : Who) (nsid nsze ncap : Nat) (s : State) : Host.Outcome State Fault Refusal :=
  .next (if s.adminReady w then
    if !isManager w.fn then s.admin w stInvalidOpcode 0
    else match s.ns.find nsid with
      | none => s.admin w stInvalidNs 0
      | some n =>
        if trailNamesNs s nsid ∨ nsze = 0 ∨ n.nsze < nsze ∨ nsze < ncap ∨ (n.kind = .memory ∧ nsze % memUnit ≠ 0) then
          s.admin w stInvalidField 0
        else if n.erasing.isSome then s.admin w stNotReady 0
        else if owedIus n < owedIus (n.resized nsze ncap) ∧ !capacityOk (s.onNs fun t => t.set nsid (n.resized nsze ncap)) then
          s.admin w stNsCapacity 0
        else
          let s1 := s.endNsWork nsid nsze false stLbaRange
          let cut := (iusOf n nsze (n.nsze - nsze)).filter fun iu => coversIu n nsze (n.nsze - nsze) iu
          let s2 := s1.unmapIus (if n.kind ≠ .memory ∧ nsze < n.nsze then cut else [])
          ((((s2.onNs fun t => t.modify nsid fun m => m.resized nsze ncap).cfgWrite .note).spareUpdate).admin w stOk 0).rekeyAdvance
  else s)

/-- The function with a controller identifier, where its port is present (R442). -/
def fnOfController (s : State) (c : Nat) : Option Fn := if c ≠ 0 ∧ s.fnExists (c - 1) then some (c - 1) else none

def execNamespaceAttachment (w : Who) (nsid : Nat) (attach : Bool) (controllers : List Nat) (s : State) :
    Host.Outcome State Fault Refusal :=
  .next (if s.adminReady w then
    let fns := controllers.filterMap (fnOfController s)
    if !isManager w.fn then s.admin w stInvalidOpcode 0
    else match s.ns.find nsid with
      | none => s.admin w stInvalidNs 0
      | some n =>
        if controllers = [] ∨ fns.length ≠ controllers.length then s.admin w stControllerList 0
        else if attach ∧ fns.any (· ∈ n.attached) then s.admin w stNsAlreadyAttached 0
        else if !attach ∧ fns.any (· ∉ n.attached) then s.admin w stNsNotAttached 0
        else
          ((s.onNs fun t => t.modify nsid fun m =>
            { m with attached := if attach then fns.foldl addOnce m.attached else m.attached.filter fun f => f ∉ fns }).cfgWrite .note).admin w
            stOk 0
  else s)

/-! ## Reservations (R457, R458) -/

/-- The registration of a host. -/
def Reservation.entry (r : Reservation) (host : List Byte) : Option Registrant := r.registrants.find? fun x => x.hostId = host
/-- A type that every registrant holds. -/
def heldByAll : ResType → Bool
  | .writeExclusiveAll | .exclusiveAccessAll => true
  | _ => false
/-- The code of a reservation type. -/
def resTypeCode : ResType → Nat
  | .writeExclusive => 1 | .exclusiveAccess => 2 | .writeExclusiveRegistrants => 3 | .exclusiveAccessRegistrants => 4
  | .writeExclusiveAll => 5 | .exclusiveAccessAll => 6

/-- A host holds the reservation. -/
def Reservation.holds (r : Reservation) (host : List Byte) : Bool :=
  match r.holder with
  | none => false
  | some h => if heldByAll r.type then (r.entry host).isSome else h = host

/-- Remove registrants; the reservation is released with its holder, or with the last registrant of a type that all hold. -/
def Reservation.remove (r : Reservation) (p : Registrant → Bool) : Reservation :=
  let left := r.registrants.filter fun x => !p x
  let lost : Bool := match r.holder with
    | none => false
    | some h => if heldByAll r.type then left.isEmpty else left.all fun x => x.hostId ≠ h
  { r with registrants := left, holder := if lost then none else r.holder }

/-- Reservation Register on the reservation's state. -/
def Reservation.register (r : Reservation) (host : List Byte) (action : RegisterAction) (crkey nrkey : W64) (iekey : Bool) :
    Except Status Reservation :=
  match action, r.entry host with
  | .register, none => .ok { r with registrants := r.registrants ++ [⟨host, nrkey⟩] }
  | .register, some x => if x.key = nrkey then .ok r else .error stReservation
  | .unregister, some x => if iekey ∨ x.key = crkey then .ok (r.remove fun y => y.hostId = host) else .error stReservation
  | .replace, some x =>
    if iekey ∨ x.key = crkey then .ok { r with registrants := r.registrants.map fun y => if y.hostId = host then ⟨host, nrkey⟩ else y }
    else .error stReservation
  | .replace, none => if iekey then .ok { r with registrants := r.registrants ++ [⟨host, nrkey⟩] } else .error stReservation
  | .unregister, none => .error stReservation

/-- Preempt: the reservation after it, and the hosts it preempts. -/
def Reservation.preempt (r : Reservation) (host : List Byte) (type : ResType) (prkey : W64) : Except Status (Reservation × List (List Byte)) :=
  let took := fun (q : Reservation) => { q with holder := some host, type := type }
  let gone := fun (p : Registrant → Bool) => (r.registrants.filter p).map (·.hostId)
  let withKey := fun (x : Registrant) => x.hostId ≠ host && x.key = prkey
  match r.holder with
  | some h =>
    let others := fun (x : Registrant) => decide (x.hostId ≠ host)
    if heldByAll r.type then
      if prkey = 0 then .ok (took (r.remove others), gone others)
      else if gone withKey = [] then .error stReservation
      else .ok (r.remove withKey, gone withKey)
    else if (r.entry h).any fun x => x.key = prkey then .ok (took (r.remove withKey), gone withKey)
    else if gone withKey = [] then .error stReservation
    else .ok (r.remove withKey, gone withKey)
  | none => if gone withKey = [] then .error stReservation else .ok (r.remove withKey, gone withKey)

/-- Reservation Acquire on the reservation's state. -/
def Reservation.acquire (r : Reservation) (host : List Byte) (action : AcquireAction) (type : ResType) (crkey prkey : W64) :
    Except Status (Reservation × List (List Byte)) :=
  if !((r.entry host).any fun x => x.key = crkey) then .error stReservation
  else match action with
    | .acquire =>
      if r.holder.isNone then .ok ({ r with holder := some host, type := type }, [])
      else if r.holds host ∧ r.type = type then .ok (r, [])
      else .error stReservation
    | _ => r.preempt host type prkey

/-- Reservation Release on the reservation's state. -/
def Reservation.release (r : Reservation) (host : List Byte) (clear : Bool) (type : ResType) (crkey : W64) : Except Status Reservation :=
  if !((r.entry host).any fun x => x.key = crkey) then .error stReservation
  else if clear then .ok { r with registrants := [], holder := none }
  else if !r.holds host then .ok r
  else if r.type ≠ type then .error stInvalidField
  else .ok { r with holder := none }

/-- The namespace of a command that any kind of namespace takes. -/
def State.anyNs (s : State) (f : Fn) (nsid : Nat) : Except Status Ns :=
  match s.ns.find nsid with
  | some n => s.nsGate f nsid n.kind
  | none => .error stInvalidNs

/-- A reservation command needs a host identifier. -/
def State.resGate (s : State) (f : Fn) (nsid : Nat) : Except Status Ns :=
  if (s.ctrl f).hostId = [] then .error stSequence else s.anyNs f nsid

/-- The changed reservation is in the configuration area before the command completes. -/
def State.putReservation (s : State) (w : Who) (nsid : Nat) (r : Reservation) : State :=
  (s.onNs fun t => t.modify nsid fun n => { n with reservation := r }).cfgWrite (.complete w stOk 0)

def Reservation.counted (r : Reservation) (change : Bool) : Reservation := if change then { r with generation := (r.generation + 1) % 2 ^ 32 } else r

def execReservationRegister (w : Who) (nsid : Nat) (action : RegisterAction) (crkey nrkey : W64) (iekey : Bool) (cptpl : Nat)
    (s : State) : Host.Outcome State Fault Refusal :=
  .next (if s.ioReady w then
    match s.resGate w.fn nsid with
    | .error st => s.io w st 0
    | .ok n => match n.reservation.register (s.ctrl w.fn).hostId action crkey nrkey iekey with
      | .error st => s.io w st 0
      | .ok r =>
        let r1 := { r with ptpl := if cptpl = 2 then false else if cptpl = 3 then true else r.ptpl }
        s.putReservation w nsid (r1.counted true)
  else s)

/-- Tell the controllers of some hosts that a namespace is attached to of a change to its reservation, by type: 1 registration
preempted, 2 reservation released, 3 reservation preempted; the Reservation Notification Mask silences each (R451, R457). -/
def State.notifyHosts (s : State) (nsid type : Nat) (hosts : List (List Byte)) : State :=
  (s.host.ctrls.filter fun e => decide (e.2.hostId ∈ hosts) && attachedTo s e.1 nsid && !bitAt (e.2.features.getD (maskKey nsid) 0) type).foldl
    (fun t e => (t.onCtrl e.1 fun c => { c with resLog := lastN 255 (c.resLog ++ [(type, nsid)]), resCount := (c.resCount + 1) % 2 ^ 64 }).raiseEvent
      e.1 evReservation) s

/-- The function is one of some hosts. -/
def hostIn (s : State) (hosts : List (List Byte)) (f : Fn) : Bool := (s.ctrl f).hostId ∈ hosts

/-- The NVM commands of some hosts on a namespace end with Command Abort Requested, and their Trails that name it are
cancelled. -/
def State.abortHosts (s : State) (nsid : Nat) (hosts : List (List Byte)) : State :=
  let reads := s.ftl.reads.filterMap fun j => match j.client with
    | .host w => if j.uses nsid ∧ hostIn s hosts w.fn then some w else none
    | _ => none
  let held := (s.ftl.admitted.filter fun a => !a.kind.isSink && a.nsid = nsid && hostIn s hosts a.who.fn).map (·.who)
  let waits := (s.ftl.waiting.filter fun a => !a.kind.isSink && a.nsid = nsid && hostIn s hosts a.who.fn).map (·.who)
  let s1 := (reads ++ held ++ waits).foldl (fun t w => (t.dropNvm w).complete w stAbortRequested 0 0) s
  let named := fun (e : Nat × Flow) => e.2.bound && hostIn s hosts e.2.owner && e.2.trail.stages.any fun st => match st with
    | .lbaSource _ n _ _ _ => n = nsid
    | .lbaSink _ n _ _ _ => n = nsid
    | .slmSource n _ _ => n = nsid
    | .slmSink _ n _ _ _ => n = nsid
    | _ => false
  ((s1.disp.flows.filter named).map (·.1)).foldl State.cancelFlow s1

def execReservationAcquire (w : Who) (nsid : Nat) (action : AcquireAction) (type : ResType) (crkey prkey : W64) (s : State) :
    Host.Outcome State Fault Refusal :=
  .next (if s.ioReady w then
    match s.resGate w.fn nsid with
    | .error st => s.io w st 0
    | .ok n => match n.reservation.acquire (s.ctrl w.fn).hostId action type crkey prkey with
      | .error st => s.io w st 0
      | .ok (r, hosts) =>
        let s1 := (s.notifyHosts nsid 1 hosts).putReservation w nsid (r.counted (action ≠ .acquire))
        if action = .preemptAndAbort then (s1.abortHosts nsid hosts).rekeyAdvance else s1
  else s)

def execReservationRelease (w : Who) (nsid : Nat) (clear : Bool) (type : ResType) (crkey : W64) (s : State) :
    Host.Outcome State Fault Refusal :=
  .next (if s.ioReady w then
    match s.resGate w.fn nsid with
    | .error st => s.io w st 0
    | .ok n => match n.reservation.release (s.ctrl w.fn).hostId clear type crkey with
      | .error st => s.io w st 0
      | .ok r =>
        let others := (n.reservation.registrants.filter fun x => x.hostId ≠ (s.ctrl w.fn).hostId).map (·.hostId)
        let told := clear || (n.reservation.holder.isSome && r.holder.isNone && resTypeCode n.reservation.type > 2)
        ((if told then s.notifyHosts nsid (if clear then 3 else 2) others else s).putReservation w nsid (r.counted clear))
  else s)

/-- The registered controllers: those of each registrant's host, or FFFFh for a host with none. -/
def registeredControllers (s : State) (r : Reservation) : List (Nat × Registrant) :=
  r.registrants.flatMap fun x =>
    let cs := (s.host.ctrls.filter fun e => e.2.hostId = x.hostId).map fun e => controllerId e.1
    (if cs.isEmpty then [0xFFFF] else cs).map fun c => (c, x)

/-- The extended reservation status structure of NVMe. -/
def reservationReport (s : State) (r : Reservation) : List Byte :=
  let cs := registeredControllers s r
  padTo 64 (leBytes 4 r.generation ++ [BitVec.ofNat 8 (if r.holder.isSome then resTypeCode r.type else 0)] ++ leBytes 2 cs.length ++ zeros 2 ++
    [if r.ptpl then 1 else 0]) ++
  cs.flatMap fun e =>
    padTo 64 (leBytes 2 e.1 ++ [if r.holds e.2.hostId then 1 else 0] ++ zeros 5 ++ leBytes 8 e.2.key.toNat ++ padTo 16 e.2.hostId)

def execReservationReport (w : Who) (nsid : Nat) (s : State) : Host.Outcome State Fault Refusal :=
  .next (if s.ioReady w then
    match s.anyNs w.fn nsid with
    | .error st => s.io w st 0
    | .ok n => (s.dataOut w (reservationReport s n.reservation)).io w stOk 0
  else s)

end Sys2Proof.Machine
end

