-- ==== Sys2Proof/Machine/IoSets.lean ====
section
/-! DEFINITION. The meanings of the commands of the Key Value, Computational Programs and Subsystem Local Memory command sets
(R367, R368, R452 to R454). What the NVMe command set specifications prescribe beyond the manual is PRESUMED
(notes/assumptions/11.md). -/

namespace Sys2Proof.Machine

/-! ## Key Value (R368, R452) -/

/-- The checks of a Key Value command: namespace, key size, reservation, locks. -/
def State.kvGate (s : State) (f : Fn) (nsid : Nat) (key : List Byte) (write : Bool) : Except Status Ns :=
  match s.nsGate f nsid .kv with
  | .error st => .error st
  | .ok n =>
    if key.length < 1 ∨ 16 < key.length then .error stKvKeySize
    else if s.reserved f n write then .error stReservation
    else match (if write then writeBar s n 0 1 else readBar s n 0 1) with
      | some st => .error st
      | none => .ok n

/-- The value of a key in the hash index. -/
def Ns.kvFind (n : Ns) (key : List Byte) : Option (List Byte) := (n.kv.find? fun r => r.key = key).map (·.value)
/-- Bytes of the values a namespace holds. -/
def Ns.kvBytes (n : Ns) : Nat := (n.kv.map fun r => r.value.length).sum

/-- A Store whose options are met enters the write path (R194, R452). -/
def State.storeValue (s : State) (w : Who) (n : Ns) (nsid : Nat) (key value : List Byte) : State :=
  if readOnly s then s.io w stWriteProtected 0
  else if n.nsze < n.kvBytes - ((n.kvFind key).getD []).length + value.length then s.io w stCapacity 0
  else s.enterWrite w (.kv key value) nsid 0 1

/-- A Store that a freeze held is run again. -/
def State.submitStore (s : State) (w : Who) (nsid : Nat) (key value : List Byte) : State :=
  match s.kvGate w.fn nsid key true with
  | .error st => s.io w st 0
  | .ok n => s.storeValue w n nsid key value

/-- A Store passes the admission rule of writes (R194) and completes when its value is in the buffer. -/
def execKvStore (w : Who) (nsid : Nat) (key value : List Byte) (mustExist mustNotExist : Bool) (s : State) :
    Host.Outcome State Fault Refusal :=
  .next (if s.ioReady w then
    let s := s.asClass w 3
    match s.kvGate w.fn nsid key true with
    | .error st => s.io w st 0
    | .ok n =>
      let old := n.kvFind key
      if 2 ^ 20 < value.length then s.io w stKvValueSize 0
      else if mustExist ∧ old.isNone then s.io w stKvKeyAbsent 0
      else if mustNotExist ∧ old.isSome then s.io w stKvKeyExists 0
      else s.storeValue w n nsid key value
  else s)

/-- Search the hot index first; a key found through the hash index is inserted where the command is a Retrieve. -/
def State.kvLookup (s : State) (n : Ns) (key : List Byte) (insert : Bool) : State :=
  match n.kvTable with
  | none => s
  | some t =>
    let (s1, hit) := s.kvSearch t key
    if insert ∧ !hit ∧ (n.kvFind key).isSome then s1.kvIndexInsert t key else s1

/-- Retrieve: the value is read from the IUs that hold it (R164, R368); dword 0 is its size, and the data is what the host buffer
takes. -/
def execKvRetrieve (w : Who) (nsid : Nat) (key : List Byte) (bufferBytes : Nat) (s : State) : Host.Outcome State Fault Refusal :=
  .next (if s.ioReady w then
    let s := s.asClass w 2
    match s.kvGate w.fn nsid key false with
    | .error st => s.io w st 0
    | .ok n =>
      let s1 := s.kvLookup n key true
      match n.kvFind key with
      | none => s1.io w stKvKeyAbsent 0
      | some _ =>
        let job : ReadJob := { client := .host w, kind := .kv key bufferBytes, nsid := nsid, slba := 0, nlb := 0, wait := 0, failed := none,
                               second := false, again := false }
        let needs := jobNeeds s1 job
        if !s1.up .mem then s1.memMissed w .ctrl
        else if segBusy s1 (needs.map (·.1)) then s1.onFtl fun f => { f with reads := f.reads ++ [job] }
        else s1.runJob job (mediaEntries s1 needs)
  else s)

/-- Delete: the entry of the hot index goes before the command completes. -/
def execKvDelete (w : Who) (nsid : Nat) (key : List Byte) (s : State) : Host.Outcome State Fault Refusal :=
  .next (if s.ioReady w then
    match s.kvGate w.fn nsid key true with
    | .error st => s.io w st 0
    | .ok n =>
      if readOnly s then s.io w stWriteProtected 0
      else if (n.kvFind key).isNone then s.io w stKvKeyAbsent 0
      else
        let n1 := { n with kv := n.kv.filter fun r => r.key ≠ key }
        let s1 := (s.onNs fun t => t.set nsid n1).kvFreed n1 (kvIus n ((n.kv.filter fun r => r.key = key).flatMap (·.pieces)))
        let s2 := match n.kvTable with | some t => s1.kvIndexDelete t key | none => s1
        s2.io w stOk 0
  else s)

def execKvExist (w : Who) (nsid : Nat) (key : List Byte) (s : State) : Host.Outcome State Fault Refusal :=
  .next (if s.ioReady w then
    match s.kvGate w.fn nsid key false with
    | .error st => s.io w st 0
    | .ok n => (s.kvLookup n key false).io w (if (n.kvFind key).isSome then stOk else stKvKeyAbsent) 0
  else s)

/-- One key of a List: its length and its bytes, padded to a multiple of 4. -/
def kvListEntry (key : List Byte) : List Byte := leBytes 2 key.length ++ padTo (ceilDiv (key.length + 2) 4 * 4 - 2) key

/-- The keys from one on, in the order of the hash index; all of them where it does not hold the key. -/
def kvKeysFrom (n : Ns) (key : List Byte) : List (List Byte) :=
  let ks := n.kv.map (·.key)
  if key ∈ ks then ks.dropWhile fun k => k ≠ key else ks

def execKvList (w : Who) (nsid : Nat) (key : List Byte) (s : State) : Host.Outcome State Fault Refusal :=
  .next (if s.ioReady w then
    match s.nsGate w.fn nsid .kv with
    | .error st => s.io w st 0
    | .ok n =>
      if 16 < key.length then s.io w stKvKeySize 0
      else if s.reserved w.fn n false then s.io w stReservation 0
      else match readBar s n 0 1 with
        | some st => s.io w st 0
        | none =>
          let ks := kvKeysFrom n key
          (s.dataOut w (leBytes 4 ks.length ++ ks.flatMap kvListEntry)).io w stOk 0
  else s)

/-! ## Computational Programs (R453) -/

def execLoadProgram (w : Who) (cdw10 cdw11 : W32) (received : List Byte) (s : State) : Host.Outcome State Fault Refusal :=
  .next (if s.ready w then
    if fld cdw11 3 0 ≠ 0 then s.admin w stInvalidField 0 else s.moduleLoad w cdw10 cdw11 received
  else s)

/-- The kernel that a program identifier names, where a function may name its module. -/
def programKernel (s : State) (f : Fn) (programId : Nat) : Option KernelRec :=
  match moduleSeen s f (programId / 64) with
  | some m => m.kernels[programId % 64]?
  | none => none

/-- Every loaded kernel is active, and stays so. -/
def execProgramActivationManagement (w : Who) (programId : Nat) (activate : Bool) (s : State) : Host.Outcome State Fault Refusal :=
  .next (if s.ready w then
    s.admin w (if activate ∧ (programKernel s w.fn programId).isSome then stOk else stInvalidField) 0
  else s)

/-- The memory range sets of a port. -/
def State.rangeSets (s : State) : Port → Tbl (List MemRange)
  | .a => s.host.rangeSetsA
  | .b => s.host.rangeSetsB
def State.onRangeSets (s : State) (p : Port) (g : Tbl (List MemRange) → Tbl (List MemRange)) : State :=
  s.onHost fun h => match p with
    | .a => { h with rangeSetsA := g h.rangeSetsA }
    | .b => { h with rangeSetsB := g h.rangeSetsB }

/-- A range of a set lies in a memory namespace attached to the function. -/
def memRangeOk (s : State) (f : Fn) (r : MemRange) : Bool := attachedAs s f .memory r.nsid && s.slmFits r.nsid r.offset r.length

/-- Create a set under the lowest free identifier, which dword 0 returns, or delete one. -/
def execMemoryRangeSetManagement (w : Who) (create : Bool) (setId : Nat) (ranges : List MemRange) (s : State) :
    Host.Outcome State Fault Refusal :=
  .next (if s.ready w then
    let p := portOfFn w.fn
    if create then
      if ranges = [] ∨ 8 < ranges.length ∨ !(ranges.all (memRangeOk s w.fn)) then s.admin w stInvalidField 0
      else match Tbl.lowestFree (s.rangeSets p) 1 256 with
        | none => s.admin w stInvalidField 0
        | some k => (s.onRangeSets p fun t => t.set k ranges).admin w stOk (w32 k)
    else if ((s.rangeSets p).find setId).isNone then s.admin w stInvalidField 0
    else (s.onRangeSets p fun t => t.erase setId).admin w stOk 0
  else s)

/-- The RECORD_SIZE of an Execute Program's Trail: some width that its kernel accepts. -/
def programWidth (k : KernelRec) : Nat := k.recMin + Config.programRecord k.recMin k.recMax % (k.recMax + 1 - k.recMin)

/-- The Trail of an Execute Program: the first range, the kernel, and a PACKED sink into the second range. -/
def programTrail (k : KernelRec) (programId : Nat) (a b : MemRange) (args : List Byte) : Trail :=
  { ordered := true, nsok := false, skip := false, statusSlm := true, tag := 0, total := a.length, recordSize := programWidth k,
    limit := 0, statusAddr := b.nsid * 2 ^ 32,
    stages := [.slmSource a.nsid a.offset a.length, .program (programId / 64) (programId % 64) 0 (padTo 32 args),
               .slmSink .packed b.nsid b.offset b.length 0] }

/-- Execute Program completes when its Trail ends; admission refuses it as R58 sets out. -/
def execExecuteProgram (w : Who) (programId rangeSet : Nat) (args : List Byte) (s : State) : Host.Outcome State Fault Refusal :=
  .next (if s.ioReady w then
    match (s.rangeSets (portOfFn w.fn)).find rangeSet with
    | some (a :: b :: _) =>
      match programKernel s w.fn programId with
      | none => s.refuseTrail w (refusedWith stModuleRejected)
      | some k =>
        let t := programTrail k programId a b args
        if slmRunBad s a.nsid a.offset a.length then s.refuseTrail w (malformedAt 0)
        else if slmRunBad s b.nsid b.offset b.length then s.refuseTrail w (malformedAt 2)
        else match checkTrail s w.fn [] t with
          | .error r => s.refuseTrail w r
          | .ok c => s.admitTrail w c true
    | _ => s.io w stInvalidField 0
  else s)

/-! ## Subsystem Local Memory (R452, R454) -/

/-- The checks of a command on a memory namespace. -/
def State.memGate (s : State) (f : Fn) (nsid offset length : Nat) (write : Bool) : Except Status Ns :=
  match s.nsGate f nsid .memory with
  | .error st => .error st
  | .ok n =>
    if 2 ^ 21 < length then .error stInvalidField
    else if !s.slmFits nsid offset length then .error stLbaRange
    else if s.reserved f n write then .error stReservation
    else match (if write then writeBar s n offset 1 else readBar s n offset 1) with
      | some st => .error st
      | none => .ok n

def execMemoryRead (w : Who) (nsid offset length : Nat) (s : State) : Host.Outcome State Fault Refusal :=
  .next (if s.ioReady w then
    match s.memGate w.fn nsid offset length false with
    | .error st => s.io w st 0
    | .ok n => if !s.up .mem then s.memMissed w .ctrl else (s.dataOut w (Mem.readBytes n.mem offset length)).io w stOk 0
  else s)

/-- A Memory Write; host data that could not be read ends it with Data Transfer Error (R445). -/
def execMemoryWrite (w : Who) (nsid offset : Nat) (data : Option (List Byte)) (s : State) : Host.Outcome State Fault Refusal :=
  .next (if s.ioReady w then
    match s.memGate w.fn nsid offset (data.getD []).length true, data with
    | .error st, _ => s.io w st 0
    | .ok _, none => s.io w stDataTransfer 0
    | .ok _, some d => if !s.up .mem then s.memMissed w .host else (s.slmWrite nsid offset d).io w stOk 0
  else s)

/-- Bytes that the sources of a Memory Copy hold. -/
def sourceLength (s : State) (sources : List (Nat × LbaRange)) : Nat :=
  (sources.map fun x => match s.ns.find x.1 with | some n => x.2.nlb * n.lbaSize | none => 0).sum

/-- A source of a Memory Copy fails its checks as a read of its LBAs. -/
def sourceFails (s : State) (f : Fn) (x : Nat × LbaRange) : Option Status :=
  match s.nvmGate f x.1 x.2.slba x.2.nlb false false with
  | .error st => some st
  | .ok _ => none

/-- Memory Copy: the LBA ranges are read as an NVM Read reads them, and their data is written in order. -/
def execMemoryCopy (w : Who) (nsid offset : Nat) (sources : List (Nat × LbaRange)) (s : State) : Host.Outcome State Fault Refusal :=
  .next (if s.ioReady w then
    match s.memGate w.fn nsid offset 0 true with
    | .error st => s.io w st 0
    | .ok _ =>
      if !s.up .mem then s.memMissed w .ctrl
      else if sources = [] ∨ 128 < sources.length then s.io w stInvalidField 0
      else match sources.findSome? (sourceFails s w.fn) with
        | some st => s.io w st 0
        | none =>
          if !s.slmFits nsid offset (sourceLength s sources) then s.io w stLbaRange 0
          else
            let needs := copyNeeds s sources
            let job : ReadJob := { client := .host w, kind := .memCopy nsid offset sources, nsid := nsid, slba := 0, nlb := 0, wait := 0,
                                   failed := none, second := false, again := false }
            if segBusy s (needs.map (·.1)) then s.onFtl fun f => { f with reads := f.reads ++ [job] } else s.runJob job (mediaEntries s needs)
  else s)

end Sys2Proof.Machine
end

