-- ==== Sys2Proof/Machine/Vin.lean ====
section
/-! DEFINITION. The meanings of the instance commands: shares, assignments, status, migration and mailboxes (R459, R473,
R478, R480 to R485, R489 to R499), and LEDGER_READ (R461). -/

namespace Sys2Proof.Machine

/-! ## The ledger (R459, R461) -/

/-- An instance sees boot records and those that name it. -/
def LedgerRec.visible (r : LedgerRec) (f : Fn) : Bool := isManager f || r.kind = 0 || r.comps.any fun c => c.fn = f

/-- Whole records, each at a multiple of 64 bytes, as many as fit; `off` bytes are taken (R520). -/
def fitRecords (room : Nat) : Nat → List LedgerRec → List LedgerRec
  | _, [] => []
  | off, r :: rs =>
    let at_ := ceilDiv off 64 * 64
    if at_ + r.bytes.length ≤ room then r :: fitRecords room (at_ + r.bytes.length) rs else []

/-- Records as a reply lays them out. -/
def recordBytes (rs : List LedgerRec) : List Byte :=
  rs.foldl (fun acc r => padTo (ceilDiv acc.length 64 * 64) acc ++ r.bytes) []

/-- The records that a read from a sequence number returns. -/
def ledgerFrom (s : State) (f : Fn) (seq count room : Nat) : List LedgerRec :=
  fitRecords room 0 ((s.boot.ledger.filter fun r => decide (seq ≤ r.seq) && r.visible f).take count)

/-- The requested record was written and is no longer retained. -/
def ledgerGone (s : State) (seq : Nat) : Bool :=
  1 ≤ seq && match s.boot.ledger with | r :: _ => decide (seq < r.seq) | [] => false

def execLedgerRead (w : Who) (seq count bufferBytes : Nat) (s : State) : Host.Outcome State Fault Refusal :=
  .next (if s.adminReady w then
    if count < 1 ∨ 64 < count ∨ bufferBytes < 16384 ∨ 1048576 < bufferBytes then s.admin w stInvalidField 0
    else
      let rs := ledgerFrom s w.fn seq count bufferBytes
      (s.dataOut w (recordBytes rs)).admin2 w stOk (w32 (rs.length + bitIf (ledgerGone s seq) 31))
        (match rs with | r :: _ => w32 r.seq | [] => 0)
  else s)

/-! ## Shares (R473, R478, R480) -/

/-- The checks that INSTANCE_CONFIG and INSTANCE_QUERY share: who asks, for whom, and the data size. -/
def State.instanceGate (s : State) (w : Who) (fn : Fn) (bytes need : Nat) : Option Status :=
  if !isManager w.fn ∨ portOfFn fn ≠ portOfFn w.fn ∨ !s.fnExists fn ∨ bytes ≠ need then some stInvalidField
  else if (s.ctrl fn).flr.isSome then some stInstanceReset
  else none

def shareBytes (x : Share) : List Byte :=
  leBytes 2 x.queuePairs ++ leBytes 2 x.weight ++ leBytes 2 x.writeSlots ++ leBytes 1 x.clusters.toNat ++ zeros 1 ++ leBytes 2 x.flows ++ zeros 6

def execGetShare (w : Who) (fn : Fn) (bytes : Nat) (s : State) : Host.Outcome State Fault Refusal :=
  .next (if s.adminReady w then
    match s.instanceGate w fn bytes 16 with
    | some st => s.admin w st 0
    | none => (s.dataOut w (shareBytes (s.ctrl fn).share)).admin w stOk 0
  else s)

/-- The share that a function will have once the waiting ones have taken effect. -/
def Ctrl.nextShare (c : Ctrl) : Share := match c.pendShare.getLast? with | some x => x.2 | none => c.share

/-- Hardware queue pairs of a port's pool (R446). -/
def queuePool (s : State) : Nat := if s.sys.portSplit then 2048 else 4096

/-- Queue pairs allotted to the other functions of a port. -/
def othersPairs (s : State) (f : Fn) : Nat :=
  (((fnsOf (portOfFn f)).filter fun g => g ≠ f).map fun g => (s.ctrl g).nextShare.queuePairs).sum

def shareOk (s : State) (f : Fn) (x : Share) : Bool :=
  decide (x.queuePairs ≤ 2048) && decide (1 ≤ x.weight) && decide (x.weight ≤ 1000) && decide (x.writeSlots ≤ 32768) &&
  decide (x.flows ≤ 4096) && decide (x.queuePairs + othersPairs s f ≤ queuePool s)

/-- A share that passes takes effect at the next epoch boundary, which completes the command. -/
def execSetShare (w : Who) (fn : Fn) (bytes : Nat) (share : Share) (s : State) : Host.Outcome State Fault Refusal :=
  .next (if s.adminReady w then
    match s.instanceGate w fn bytes 16 with
    | some st => s.admin w st 0
    | none =>
      let made := queuePairs (s.ctrl fn)
      if !shareOk s fn share then s.admin w stInvalidField 0
      else if share.queuePairs < made then s.admin w stInvalidField (w32 made)
      else s.onCtrl fn fun c => { c with pendShare := c.pendShare ++ [(w, share)] }
  else s)

/-! ## Assignments (R481) -/

/-- A slot that an entry names belongs to nobody, to the function, or to another. -/
def entryOwner (s : State) (e : AssignEntry) : Option Fn :=
  match e.kind with
  | 0 => if (s.xts e.slot).use = 0 then none else some (if (s.xts e.slot).use = 3 then (s.xts e.slot).owner else 0xFFFF)
  | 1 => if (s.wrapSlot e.slot).use = 0 then none else some (s.wrapSlot e.slot).owner
  | _ => (s.hmacSlot e.slot).owner

def entryOk (e : AssignEntry) : Bool := e.kind ≤ 2 && e.action ≤ 1 && decide (e.slot < if e.kind = 0 then 1024 else 256)

/-- Give a slot to a function. -/
def State.assignSlot (s : State) (f : Fn) (e : AssignEntry) : State :=
  match e.kind with
  | 0 => s.setXts e.slot { KeySlot.free with use := 3, owner := f }
  | 1 => s.setWrap e.slot { KeySlot.free with use := 4, owner := f }
  | _ => s.setHmac e.slot { HmacSlot.free with owner := some f }

/-- Clear a slot and take it from its function: the record that says so comes with it. -/
def State.releaseSlot (s : State) (f : Fn) (e : AssignEntry) : State × Append :=
  match e.kind with
  | 0 => (((s.setXts e.slot KeySlot.free).uncache 3 e.slot).failSlotUsers (Stage.usesSlot 3 e.slot),
          { kind := 4, cause := 3, comps := [componentOf 7 3 f e.slot], then_ := .nothing })
  | 1 => ((s.setWrap e.slot KeySlot.free).failSlotUsers (Stage.usesSlot 4 e.slot),
          { kind := 4, cause := 3, comps := [componentOf 7 4 f e.slot], then_ := .nothing })
  | _ => ((s.setHmac e.slot HmacSlot.free).failHmacUsers e.slot,
          { kind := 5, cause := 1, comps := [componentOf 8 0 f e.slot], then_ := .nothing })

/-- Apply entries in order; none where one of them names a slot of another function. -/
def State.applyEntries (s : State) (f : Fn) : List AssignEntry → List Append → Option (State × List Append)
  | [], done => some (s, done)
  | e :: es, done =>
    if !entryOk e then none
    else match entryOwner s e, e.action with
      | some g, 0 => if g = f then s.applyEntries f es done else none
      | none, 0 => (s.assignSlot f e).applyEntries f es done
      | some g, _ =>
        if g = f then
          let (s1, a) := s.releaseSlot f e
          s1.applyEntries f es (done ++ [a])
        else none
      | none, _ => s.applyEntries f es done

/-- Request some appends through the configuration area; the last completes the command. -/
def State.appendsThen (s : State) (as : List Append) (w : Who) (dw0 : W32) : State :=
  match as.reverse with
  | [] => (s.cfgWrite .note).admin w stOk dw0
  | last :: front =>
    (front.reverse ++ [{ last with then_ := .complete w stOk dw0 }]).foldl (fun t a => t.cfgWrite (.append a)) s

def execAssign (w : Who) (fn : Fn) (bytes : Nat) (entries : List AssignEntry) (s : State) : Host.Outcome State Fault Refusal :=
  .next (if s.adminReady w then
    match s.instanceGate w fn bytes (16 * entries.length) with
    | some st => s.admin w st 0
    | none =>
      if entries = [] ∨ 64 < entries.length then s.admin w stInvalidField 0
      else if (s.ctrl fn).freeze = .frozen then s.admin w stFrozen 0
      else match s.applyEntries fn entries [] with
        | none => s.admin w stInvalidField 0
        | some (s1, as) =>
          if as ≠ [] ∧ !s.appendRoom then s.admin w Config.appendFailStatus 0
          else s1.appendsThen as w (w32 entries.length)
  else s)

/-! ## Status (R480, R481) -/

def instanceState (c : Ctrl) : Nat :=
  if c.flr.isSome then 2 else if c.freeze = .frozen then 3 else if bitAt c.cc 0 then 1 else 0

/-- The status record. -/
def statusOf (s : State) (f : Fn) : List Byte :=
  let c := s.ctrl f
  leBytes 2 f ++ leBytes 1 (instanceState c) ++ leBytes 1 (bitIf c.restored 0 + bitIf c.migTarget.isSome 1 + bitIf c.migKey.isSome 2) ++
  leBytes 2 (queuePairs c) ++ leBytes 2 c.credits ++ leBytes 4 (ioOutstanding c) ++ leBytes 2 (slotsHeld s f) ++
  leBytes 2 (flowsOf s f).length ++ leBytes 2 c.held.length ++ leBytes 1 c.mbxIn.length ++ leBytes 1 c.mbxOut.length ++
  leBytes 4 c.flrCount ++ leBytes 8 c.shareEpoch

/-- GET_STATUS answers during a function-level reset too. -/
def execGetStatus (w : Who) (fn : Fn) (bytes : Nat) (s : State) : Host.Outcome State Fault Refusal :=
  .next (if s.adminReady w then
    match s.instanceGate w fn bytes 32 with
    | some st => if st = stInstanceReset then (s.dataOut w (statusOf s fn)).admin w stOk 0 else s.admin w st 0
    | none => (s.dataOut w (statusOf s fn)).admin w stOk 0
  else s)

/-! ## Migration keys (R491, R492) -/

/-- The migration compatibility level of the running firmware (R505). -/
def compatLevel (s : State) : Nat := match s.boot.image with | some i => i.compat | none => 0
def compatLow (s : State) : Nat := (Config.compatMin (compatLevel s)).toNat
def compatHigh (s : State) : Nat := (Config.compatMax (compatLevel s)).toNat

/-- The signed part of a migration key record. -/
def migrationKeyBody (s : State) (id : Nat) (secret : List Byte) : List Byte :=
  leBytes 4 id ++ leBytes 2 (compatLow s) ++ leBytes 2 (compatHigh s) ++ bytesOf 1184 (Config.mlkemKey secret) ++
  bytesOf 97 (Config.ecdhKey secret) ++ zeros 7 ++ s.aliasKey

def execGetMigrationKey (w : Who) (fn : Fn) (bytes : Nat) (s : State) : Host.Outcome State Fault Refusal :=
  .next (if s.adminReady w then
    match s.instanceGate w fn bytes 6560 with
    | some st => s.admin w st 0
    | none =>
      let id := s.host.nextMigKey % 2 ^ 32
      let (secret, s1) := s.random 64
      let s2 := (s1.onHost fun h => { h with nextMigKey := h.nextMigKey + 1 }).onCtrl fn fun c => { c with migKey := some ⟨id, secret⟩ }
      let body := migrationKeyBody s2 id secret
      (s2.dataOut w (body ++ s2.aliasSign body ++ zeros 3)).admin w stOk 0
  else s)

/-- 600 s have passed. -/
def execMigrationKeyExpiry (fn : Fn) (s : State) : Host.Outcome State Fault Refusal :=
  .next (s.onCtrl fn fun c => { c with migKey := none })

def execSetMigrationTarget (w : Who) (fn : Fn) (record : List Byte) (s : State) : Host.Outcome State Fault Refusal :=
  .next (if s.adminReady w then
    match s.instanceGate w fn record.length 6560 with
    | some st => s.admin w st 0
    | none =>
      if !Config.mldsaVerify (slice record 0x510 1952) (record.take 0xCB0) (slice record 0xCB0 3309) then s.admin w stTagFail 0
      else if compatLevel s < leAt record 4 2 ∨ leAt record 6 2 < compatLevel s then s.admin w stInvalidField 0
      else (s.onCtrl fn fun c => { c with migTarget := some ⟨leAt record 0 4, slice record 8 1184, slice record 0x4A8 97⟩ }).admin w stOk 0
  else s)

/-! ## Freeze and thaw (R489, R490) -/

/-- The checks that the migration commands share: a manager, and an instance of its port. -/
def State.migrateGate (s : State) (w : Who) (fn : Fn) : Bool :=
  isManager w.fn && portOfFn fn = portOfFn w.fn && s.fnExists fn && !isManager fn

/-- The freeze has nothing left to wait for: no Trail is active, and every command but the held ones and the event requests
has completed. -/
def freezeDone (s : State) (f : Fn) : Bool :=
  let c := s.ctrl f
  (flowsOf s f).isEmpty && c.fetched.all fun x =>
    (decide (x.sq = 0) && decide (x.cid ∈ c.aers)) || c.held.any fun h => decide (h.who.sq = x.sq) && decide (h.who.cid = x.cid)

/-- A freeze that is done completes (R489). -/
def State.freezeCheck (s : State) (f : Fn) : State :=
  match (s.ctrl f).freeze with
  | .freezing w => if freezeDone s f then (s.onCtrl f fun c => { c with freeze := .frozen }).admin w stOk 0 else s
  | _ => s

/-- A write at step 3 of R194 that a freeze withdraws. -/
def WaitingWrite.freezable (x : WaitingWrite) (f : Fn) : Bool :=
  x.who.fn = f && !x.kind.isSink
def WaitingWrite.heldCmd (x : WaitingWrite) : HeldCmd :=
  { who := x.who, nsid := x.nsid, slba := x.slba, nlb := x.nlb, kind := x.kind }

/-- Steps 1 to 4 of a freeze. -/
def State.freezeBegin (s : State) (w : Who) (f : Fn) : State :=
  let subs := (s.disp.waiting.filter fun x => x.who.fn = f).map (·.who)
  let s1 := s.onDisp fun d => { d with waiting := d.waiting.filter fun x => x.who.fn ≠ f }
  let s2 := subs.foldl (fun t x => t.io x stFrozen 0) s1
  let s3 := (flowsOf s2 f).foldl State.cancelFlow s2
  let out := s3.ftl.waiting.filter fun x => x.freezable f
  ((s3.onFtl fun t => { t with waiting := t.waiting.filter fun x => !x.freezable f }).onCtrl f fun c =>
    { c with held := out.map WaitingWrite.heldCmd, freeze := .freezing w }).freezeCheck f

def execMigrateFreeze (w : Who) (fn : Fn) (s : State) : Host.Outcome State Fault Refusal :=
  .next (if s.adminReady w then
    if !s.migrateGate w fn then s.admin w stInvalidField 0
    else if (s.ctrl fn).flr.isSome then s.admin w stInstanceReset 0
    else match (s.ctrl fn).freeze with
      | .frozen => s.admin w stOk 0
      | .freezing _ => s.admin w stFrozen 0
      | .none => s.freezeBegin w fn
  else s)

/-- Run a held command: it enters the write path again. -/
def State.runHeld (s : State) (h : HeldCmd) : State :=
  match h.kind with
  | .kv key value => s.submitStore h.who h.nsid key value
  | k => s.submitWrite h.who k h.nsid h.slba h.nlb (decide (k = .nvm))

/-- The held commands run in order; fetching resumes, and the migration target goes. -/
def execThaw (w : Who) (fn : Fn) (s : State) : Host.Outcome State Fault Refusal :=
  .next (if s.adminReady w then
    if !s.migrateGate w fn then s.admin w stInvalidField 0
    else if (s.ctrl fn).freeze ≠ .frozen ∨ (s.ctrl fn).flr.isSome then s.admin w stFrozen 0
    else
      let held := (s.ctrl fn).held
      let s1 := s.onCtrl fn fun c => { c with freeze := .none, restored := false, held := [], migTarget := none }
      (held.foldl State.runHeld s1).admin w stOk 0
  else s)

/-! ## The state blob (R493, R494) -/

/-- The settable features of R451, in ascending order. -/
def blobFeatures : List Nat := [0x01, 0x02, 0x04, 0x07, 0x08, 0x09, 0x0B, 0x0E, 0x0F, 0x81, 0x82, 0x83]

/-- Dword 0 of Get Features for a feature; those of a namespace are not in it. -/
def featureDw0 (c : Ctrl) (fid : Nat) : W32 :=
  if fid = 0x07 then queuesDw0 c else if fid = 0x81 then 1 else if fid = 0x0E ∨ fid = 0x82 ∨ fid = 0x83 then 0
  else c.features.getD fid (featureDefault fid 0)

/-- Milliseconds that the NVMe Timestamp is ahead of the real-time counter. -/
def timestampOffset (s : State) : Nat := (s.stamp + 2 ^ 64 - s.rtc / tMs) % 2 ^ 64

/-- The Controller state section. -/
def controllerSection (s : State) (f : Fn) : List Byte :=
  let c := s.ctrl f
  padTo 0x40 (leBytes 4 c.cc.toNat ++ leBytes 4 ((c.adminSq.size - 1) % 4096 + (c.adminCq.size - 1) % 4096 * 2 ^ 16) ++
    leBytes 8 c.adminSq.base ++ leBytes 8 c.adminCq.base ++ leBytes 2 c.adminSq.tail ++ leBytes 2 c.adminSq.head ++
    leBytes 2 c.adminCq.head ++ leBytes 2 c.adminCq.tail ++ leBytes 1 (bitIf c.adminCq.phase 0)) ++
  padTo 192 (blobFeatures.flatMap fun fid => leBytes 4 (featureDw0 c fid).toNat) ++
  padTo 16 c.hostId ++ leBytes 8 (timestampOffset s) ++
  leBytes 2 c.aers.length ++ padTo 32 (c.aers.flatMap (leBytes 2)) ++ zeros 6 ++
  padTo 0xC0 (shareBytes c.share) ++
  padTo 0xE00 ((s.ns.filter fun e => f ∈ e.2.attached).flatMap fun e => leBytes 4 e.1)

def Queue.bytes (q : Queue) : List Byte :=
  leBytes 2 q.qid ++ leBytes 2 q.cqid ++ leBytes 2 (q.size - 1) ++ leBytes 1 (bitIf q.isCq 0) ++
  leBytes 1 (1 + bitIf (q.isCq && q.ien) 1 + q.prio % 4 * 4 + bitIf (q.isCq && q.phase) 4) ++ leBytes 8 q.base ++ leBytes 2 q.head ++
  leBytes 2 q.tail ++ leBytes 2 q.vector ++ zeros 10

/-- The 64-byte entry of a held command: the fields the model has, the rest as the host wrote it. A Store has its value's size in
dword 10, its key's length in dword 11 and its key in dwords 2, 3, 14 and 15 (NVMe Key Value 1.0: PRESUMED, notes/assumptions/41.md). -/
def HeldCmd.entry (h : HeldCmd) : List Byte :=
  let e := patch (bytesOf 64 (Config.sqEntry h.who.fn h.who.sq h.who.cid)) 2 (leBytes 2 h.who.cid ++ leBytes 4 h.nsid)
  match h.kind with
  | .kv key value =>
    let k := padTo 16 key
    patch (patch (patch (patch e 0 [0x01]) 8 (k.take 8)) 40 (leBytes 4 value.length ++ leBytes 1 key.length)) 56 (k.drop 8)
  | k => patch (patch (patch e 0 [if k = .zeroes then 0x08 else 0x01]) 40 (leBytes 8 h.slba)) 48 (leBytes 2 (h.nlb - 1))

def HeldCmd.bytes (h : HeldCmd) : List Byte := leBytes 2 h.who.sq ++ zeros 6 ++ h.entry

def Msg.bytes (m : Msg) : List Byte :=
  leBytes 2 m.len ++ leBytes 1 (bitIf m.mismatch 0) ++ [m.type] ++ leBytes 4 m.tag.toNat ++ padTo 56 m.payload

/-- A key record. -/
def keyRecord (kind alg slot keyLen wrap : Nat) (material : List Byte) : List Byte :=
  leBytes 1 kind ++ leBytes 1 alg ++ leBytes 2 slot ++ leBytes 1 keyLen ++ leBytes 1 wrap ++ zeros 2 ++ padTo 136 material

/-- The key records of a function: its loaded slots of use 3 and 4 and its loaded HMAC slots. -/
def keyRecords (s : State) (f : Fn) : List (List Byte) :=
  ((s.sea.xts.filter fun e => e.2.use = 3 && e.2.owner = f && e.2.st = .loaded).map fun e => keyRecord 0 0 e.1 64 0 e.2.key) ++
  ((s.sea.wrap.filter fun e => e.2.use = 4 && e.2.owner = f && e.2.st = .loaded).map fun e => keyRecord 1 0 e.1 32 0 e.2.key) ++
  ((s.dgs.hmac.filter fun e => e.2.owner = some f && e.2.st = .loaded).map fun e =>
    keyRecord 2 e.2.alg e.1 (e.2.blob.length - 8) e.2.wrap e.2.blob)

/-- The body of a blob. -/
def blobBody (s : State) (f : Fn) : List Byte :=
  let c := s.ctrl f
  controllerSection s f ++ c.queues.flatMap Queue.bytes ++ c.held.flatMap HeldCmd.bytes ++ (c.mbxIn ++ c.mbxOut).flatMap Msg.bytes ++
  (keyRecords s f).flatten

/-- BLOB_LEN. -/
def blobLen (s : State) (f : Fn) : Nat :=
  let c := s.ctrl f
  5344 + 32 * c.queues.length + 72 * c.held.length + 64 * (c.mbxIn.length + c.mbxOut.length) + 144 * (keyRecords s f).length

/-- The header of a blob. -/
def blobHeader (s : State) (f : Fn) (t : MigTarget) (seed secret : List Byte) : List Byte :=
  let c := s.ctrl f
  leBytes 4 0x4D494752 ++ leBytes 2 1 ++ leBytes 2 (compatLevel s) ++ leBytes 4 (blobLen s f) ++ leBytes 4 t.keyId ++
  bytesOf 1088 (Config.mlkemCipher t.mlkemEk seed) ++ bytesOf 97 (Config.ecdhKey secret) ++ zeros 15 ++
  leBytes 2 c.queues.length ++ leBytes 2 c.held.length ++ leBytes 1 c.mbxIn.length ++ leBytes 1 c.mbxOut.length ++
  leBytes 2 (keyRecords s f).length ++ leBytes 4 s.sea.epochMax ++ zeros 4

/-- The key of a blob, from both shared secrets. -/
def blobKey (keyId : Nat) (mlkem ecdh : List Byte) : List Byte := hkdf384 (leBytes 4 keyId) (mlkem ++ ecdh) (ascii "G9 instance migration") 32

/-- MIGRATE_SAVE changes nothing in the instance. -/
def execMigrateSave (w : Who) (fn : Fn) (bufferBytes : Nat) (s : State) : Host.Outcome State Fault Refusal :=
  .next (if s.adminReady w then
    if !s.migrateGate w fn ∨ 16777216 < bufferBytes then s.admin w stInvalidField 0
    else match (s.ctrl fn).freeze, (s.ctrl fn).migTarget, (s.ctrl fn).flr with
      | .frozen, some t, none =>
        let n := blobLen s fn
        if bufferBytes < n then s.admin w stInvalidField (w32 n)
        else
          let (seed, s1) := s.random 32
          let (secret, s2) := s1.random 64
          let header := blobHeader s2 fn t seed secret
          let key := blobKey t.keyId (bytesOf 32 (Config.mlkemShared t.mlkemEk seed)) (bytesOf 48 (Config.ecdhShared secret t.ecdhPub))
          (s2.dataOut w (header ++ gcmSeal key (zeros 12) header (blobBody s2 fn))).admin w stOk (w32 n)
      | _, _, _ => s.admin w stFrozen 0
  else s)

/-! ## Restore (R495) -/

/-- The counts in a blob's header. -/
structure BlobCounts where
  queues : Nat
  held   : Nat
  mbxIn  : Nat
  mbxOut : Nat
  keys   : Nat
  deriving DecidableEq, Repr

def blobCounts (blob : List Byte) : BlobCounts :=
  ⟨leAt blob 0x4C0 2, leAt blob 0x4C2 2, leAt blob 0x4C4 1, leAt blob 0x4C5 1, leAt blob 0x4C6 2⟩

/-- The sections of an opened body. -/
def bodyQueues (c : BlobCounts) (body : List Byte) : List (List Byte) := (List.range c.queues).map fun i => slice body (4096 + 32 * i) 32
def bodyHeld (c : BlobCounts) (body : List Byte) : List (List Byte) :=
  (List.range c.held).map fun i => slice body (4096 + 32 * c.queues + 72 * i) 72
def bodyMsgs (c : BlobCounts) (body : List Byte) : List (List Byte) :=
  (List.range (c.mbxIn + c.mbxOut)).map fun i => slice body (4096 + 32 * c.queues + 72 * c.held + 64 * i) 64
def bodyKeys (c : BlobCounts) (body : List Byte) : List (List Byte) :=
  (List.range c.keys).map fun i => slice body (4096 + 32 * c.queues + 72 * c.held + 64 * (c.mbxIn + c.mbxOut) + 144 * i) 144
def bodyNsids (body : List Byte) : List Nat := ((List.range 512).map fun i => leAt body (0x200 + 4 * i) 4).filter fun n => n ≠ 0

def queueOf (b : List Byte) : Queue :=
  let fl := leAt b 7 1
  let cq := decide (leAt b 6 1 = 1)
  { qid := leAt b 0 2, isCq := cq, size := leAt b 4 2 + 1, base := leAt b 8 8, cqid := leAt b 2 2, vector := leAt b 20 2,
    prio := bitsOf fl 3 2, ien := decide (bitsOf fl 1 1 = 1), head := leAt b 16 2, tail := leAt b 18 2, phase := decide (bitsOf fl 4 4 = 1) }

/-- A held command as its record has it; the value of a Store is still in host memory, and what it is there is free. -/
def heldOf (s : State) (f : Fn) (b : List Byte) : HeldCmd :=
  let e := b.drop 8
  let who : Who := ⟨f, leAt b 0 2, leAt e 2 2⟩
  let nsid := leAt e 4 4
  match s.ns.find nsid with
  | some n =>
    if n.kind = .kv then
      { who := who, nsid := nsid, slba := 0, nlb := 1,
        kind := .kv ((slice e 8 8 ++ slice e 56 8).take (leAt e 44 1)) (bytesOf (leAt e 40 4) (Config.heldValue f who.sq who.cid)) }
    else { who := who, nsid := nsid, slba := leAt e 40 8, nlb := leAt e 48 2 + 1, kind := if leAt e 0 1 = 0x08 then .zeroes else .nvm }
  | none => { who := who, nsid := nsid, slba := leAt e 40 8, nlb := leAt e 48 2 + 1, kind := if leAt e 0 1 = 0x08 then .zeroes else .nvm }

def msgOf (b : List Byte) : Msg :=
  { len := leAt b 0 2, mismatch := decide (bitsOf (leAt b 2 1) 0 0 = 1), type := BitVec.ofNat 8 (leAt b 3 1), tag := w32 (leAt b 4 4),
    payload := slice b 8 56 }

/-- The slot of a key record is assigned to the function. -/
def keyAssigned (s : State) (f : Fn) (b : List Byte) : Bool :=
  let slot := leAt b 2 2
  match leAt b 0 1 with
  | 0 => (s.xts slot).use = 3 && (s.xts slot).owner = f
  | 1 => (s.wrapSlot slot).use = 4 && (s.wrapSlot slot).owner = f
  | 2 => (s.hmacSlot slot).owner = some f
  | _ => false

/-- Load the key of a record into its slot; the record of the ledger comes with it. -/
def State.restoreKey (s : State) (f : Fn) (b : List Byte) : State × Append :=
  let slot := leAt b 2 2
  let n := leAt b 4 1
  match leAt b 0 1 with
  | 0 => ((s.loadSlot 3 slot (slice b 8 64)).uncache 3 slot, { kind := 4, cause := 5, comps := [componentOf 7 3 f slot], then_ := .nothing })
  | 1 => (s.loadSlot 4 slot (slice b 8 32), { kind := 4, cause := 5, comps := [componentOf 7 4 f slot], then_ := .nothing })
  | _ =>
    let h := s.hmacSlot slot
    let s1 := match hmacLoadCheck s slot (leAt b 1 1) n (leAt b 5 1) (slice b 8 (n + 8)) with
      | .ok key => s.setHmac slot { h with st := .loaded, alg := leAt b 1 1, wrap := leAt b 5 1, key := key, blob := slice b 8 (n + 8), lastErr := 0 }
      | .error e => s.setHmac slot { h with lastErr := e }
    (s1, { kind := 5, cause := 0, comps := [componentOf 8 0 f slot], then_ := .nothing })

/-- The controller that a body describes. -/
def Ctrl.restoredFrom (c : Ctrl) (s : State) (f : Fn) (n : BlobCounts) (body : List Byte) : Ctrl :=
  let aqa := leAt body 4 4
  let held := (bodyHeld n body).map (heldOf s f)
  let aers := (List.range (Nat.min 16 (leAt body 0x118 2))).map fun i => leAt body (0x11A + 2 * i) 2
  let msgs := (bodyMsgs n body).map msgOf
  let kept := blobFeatures.zipIdx.filter fun e => plainFeature e.1 || e.1 = 0x02 || e.1 = 0x0F
  { c with
    cc := w32 (leAt body 0 4), rdy := bitAt (w32 (leAt body 0 4)) 0, cfs := false, shst := 0
    queues := (bodyQueues n body).map queueOf
    adminSq := { Queue.admin with size := bitsOf aqa 11 0 + 1, base := leAt body 8 8, tail := leAt body 0x18 2, head := leAt body 0x1A 2 }
    adminCq := { Queue.admin with isCq := true, size := bitsOf aqa 27 16 + 1, base := leAt body 0x10 8, head := leAt body 0x1C 2,
                                  tail := leAt body 0x1E 2, phase := decide (bitsOf (leAt body 0x20 1) 0 0 = 1) }
    features := kept.foldl (fun t e => t.set e.1 (w32 (leAt body (0x40 + 4 * e.2) 4))) c.features
    keepAlive := decide (leAt body (0x40 + 4 * 8) 4 ≠ 0)
    hostId := slice body 0x100 16
    aers := aers
    fetched := aers.map (fun cid => ⟨0, cid, s.now, none⟩) ++ held.map fun h => ⟨h.who.sq, h.who.cid, s.now, h.kind.cls⟩
    mbxIn := msgs.take n.mbxIn, mbxOut := msgs.drop n.mbxIn
    held := held, freeze := .frozen, restored := true }

/-- The checks that need no key, in order: the status, dword 0 and dword 1. The bytes that arrived are compared with CDW11
before any is used (R8). -/
def restoreRefused (s : State) (fn : Fn) (bytes : Nat) (blob : List Byte) : Option (Status × W32 × W32) :=
  let c := s.ctrl fn
  let len := leAt blob 8 4
  let level := leAt blob 6 2
  if bytes ≠ blob.length then some (stLengthMismatch, w32 bytes, w32 blob.length)
  else if bytes ≠ len then some (stLengthMismatch, w32 len, w32 bytes)
  else if leAt blob 0 4 ≠ 0x4D494752 ∨ leAt blob 4 2 ≠ 1 ∨ level < compatLow s ∨ compatHigh s < level then some (stInvalidField, 0, 0)
  else if !(c.migKey.any fun k => k.keyId = leAt blob 0xC 4) then some (stInvalidField, 0, 0)
  else if c.flr.isSome then some (stInstanceReset, 0, 0)
  else if bitAt c.cc 0 ∨ c.queues ≠ [] ∨ c.freeze ≠ .none then some (stFrozen, 0, 0)
  else none

/-- The checks on an opened body, in order. -/
def bodyRefused (s : State) (fn : Fn) (blob body : List Byte) : Option Status :=
  let n := blobCounts blob
  let keys := bodyKeys n body
  let epochs := Nat.max s.sea.epochMax (leAt blob 0x4C8 4)
  if (s.ctrl fn).share.queuePairs < n.queues / 2 then some stInvalidField
  else if (bodyNsids body).any fun k => !attachedTo s fn k then some stInvalidNs
  else if keys.any fun b => !keyAssigned s fn b then some stKeySlotEmpty
  else if 0xFFFFFFFF < epochs + (keys.filter fun b => leAt b 0 1 = 1).length then some stKeyExhausted
  else none

/-- Apply an opened body to its instance. -/
def State.applyBlob (s : State) (w : Who) (fn : Fn) (blob body : List Byte) : State :=
  let n := blobCounts blob
  let s1 := s.onSea fun e => { e with epochMax := Nat.max e.epochMax (leAt blob 0x4C8 4) }
  let s2 := s1.onCtrl fn fun c => c.restoredFrom s fn n body
  let (s3, as) := (bodyKeys n body).foldl (fun (acc : State × List Append) b =>
    let (t, a) := acc.1.restoreKey fn b
    (t, acc.2 ++ [a])) (s2, [])
  s3.appendsThen as w 0

def execMigrateRestore (w : Who) (fn : Fn) (bytes : Nat) (blob : List Byte) (s : State) : Host.Outcome State Fault Refusal :=
  .next (if s.adminReady w then
    if !s.migrateGate w fn ∨ 16777216 < bytes then s.admin w stInvalidField 0
    else match restoreRefused s fn bytes blob with
      | some (st, a, b) => s.admin2 w st a b
      | none =>
        match (s.ctrl fn).migKey with
        | none => s.admin w stInvalidField 0
        | some k =>
          let s1 := s.onCtrl fn fun c => { c with migKey := none }
          let key := blobKey k.keyId (bytesOf 32 (Config.mlkemDecap k.secret (slice blob 0x10 1088)))
            (bytesOf 48 (Config.ecdhShared k.secret (slice blob 0x450 97)))
          match gcmOpen key (zeros 12) (blob.take 1232) (blob.drop 1232) with
          | none => s1.admin w stTagFail 0
          | some body => match bodyRefused s1 fn blob body with
            | some st => s1.admin w st 0
            | none =>
              if (blobCounts blob).keys ≠ 0 ∧ !s1.appendRoom then s1.admin w Config.appendFailStatus 0 else s1.applyBlob w fn blob body
  else s)

/-! ## The mailbox (R482 to R485, R498) -/

/-- The host reaches a side of an instance's mailbox: the manager through BAR2, the instance through its BAR0. -/
def mailboxReached (s : State) (f : Fn) (fromManager : Bool) : Bool :=
  s.fnExists f && !isManager f &&
  (if fromManager then s.barReaches (match portOfFn f with | .a => .portA | .b => .portB) (rMbx f + 0x80)
   else s.running && s.up .host && s.up .ctrl && (s.port (portOfFn f)).linkUp)

/-- The message in a side's TX registers, and its actual length. -/
def txWord (m : MbxSide) (n : Nat) : Nat := (m.tx.getD n 0).toNat
def actualLen (m : MbxSide) : Nat := match m.high with | some k => if k < 2 then 0 else 4 * (k + 1) - 8 | none => 0
def declaredLen (m : MbxSide) : Nat := txWord m 0 % 2 ^ 16

/-- The delivered copy: the shorter length governs. -/
def delivered (m : MbxSide) : Msg :=
  let n := Nat.min (declaredLen m) (actualLen m)
  { len := n, mismatch := decide (declaredLen m ≠ actualLen m), type := BitVec.ofNat 8 (txWord m 0 / 2 ^ 24), tag := m.tx.getD 1 0,
    payload := padTo 56 (((List.range 14).flatMap fun i => leBytes 4 (txWord m (i + 2))).take n) }

/-- Why a SEND is refused: REASON. -/
def sendRefused (s : State) (c : Ctrl) (fromManager : Bool) : Option Nat :=
  if c.flr.isSome then some 2
  else if !s.regBit rVinCtl 0 then some 3
  else if 8 ≤ (if fromManager then c.mbxIn else c.mbxOut).length then some 1
  else none

/-- A SEND from a side. -/
def State.mailboxSend (s : State) (f : Fn) (fromManager : Bool) : State :=
  let c := s.ctrl f
  match sendRefused s c fromManager with
  | some r => s.onCtrl f fun c => c.onSide fromManager fun m => { m with refused := true, reason := r }
  | none =>
    let m := c.side fromManager
    let s1 := s.onCtrl f fun c =>
      let d := c.onSide fromManager fun m =>
        { m with tx := [], high := none, refused := false, reason := 0, mismatch := decide (declaredLen m ≠ actualLen m),
                 decl := declaredLen m, act := actualLen m }
      if fromManager then { d with mbxIn := d.mbxIn ++ [delivered m] } else { d with mbxOut := d.mbxOut ++ [delivered m] }
    if fromManager then s1.msix f (s1.ctrl f).mbxInst.vector else s1.msix (managerFn (portOfFn f)) (s1.ctrl f).mbxMgr.vector

/-- A POP removes the oldest message that came to a side. -/
def State.mailboxPop (s : State) (f : Fn) (fromManager : Bool) : State :=
  s.onCtrl f fun c => if fromManager then { c with mbxOut := c.mbxOut.drop 1 } else { c with mbxIn := c.mbxIn.drop 1 }

/-- A write of VIN_MBX_CTL with SEND; POP in the same write acts too. -/
def execSend (fn : Fn) (fromManager : Bool) (value : W32) (s : State) : Host.Outcome State Fault Refusal :=
  .next (if mailboxReached s fn fromManager ∧ bitAt value 31 then
    let s1 := (s.mailboxWrite fn fromManager 0x80 value).mailboxSend fn fromManager
    if bitAt value 30 then s1.mailboxPop fn fromManager else s1
  else s)

/-- A write of VIN_MBX_CTL with POP and without SEND. -/
def execPop (fn : Fn) (fromManager : Bool) (value : W32) (s : State) : Host.Outcome State Fault Refusal :=
  .next (if mailboxReached s fn fromManager ∧ bitAt value 30 ∧ !bitAt value 31 then
    (s.mailboxWrite fn fromManager 0x80 value).mailboxPop fn fromManager
  else s)

end Sys2Proof.Machine
end

