-- ==== Sys2Proof/Machine/RegView.lean ====
section
/-! DEFINITION. What a read of a register returns: the value of every field of every register of BAR2 (the field tables of
the chapters, R581 to R589), the values behind LO/HI pairs (R576), the mailbox windows (R482, R498) and the functions'
BAR0 (R499, R570). A register that is stored as it reads is read from the register file. -/

namespace Sys2Proof.Machine

/-- Media initialisation has ended (R161, R500 step 8). -/
def mediaUp (s : State) : Bool := decide (9 ≤ s.sys.bootStep)

/-! ## TOP, DSP and TRL (R19, R583 to R588, R115 to R119) -/

/-- TOP_CAPS (R583). -/
def topCaps (s : State) : W32 :=
  w32 (bitIf s.sys.portSplit 31 +
    if mediaUp s then 4 * s.board.dramGibPerChannel * 2 ^ 16 + s.board.channels * 2 ^ 8 + s.board.targets * s.board.luns else 0)

/-- DSP_OCC_PEAK: entries only rise between two updates of the stored peak. -/
def dspPeak (s : State) : W32 := w32 (Nat.max (s.reg rDspPeak).toNat s.disp.entries.length)

/-- DSP_QUEUE_n: a prefetched task counts as queued (R104). -/
def dspQueue (s : State) (n : Nat) : W32 :=
  let fill := match unitClasses[n]? with | some c => queueFill s c | none => 0
  w32 (Nat.max (s.regFld (rDspQueue n) 22 12) fill * 2 ^ 12 + fill)

/-- DSP_FLOW_INFO of the selected flow. Of a flow whose Trail has ended with chunks that never retired R119 does not say what
IN_FLIGHT reads: the model keeps showing I − D. DESIGN CHOICE (notes/assumptions/50.md). -/
def dspFlowInfo (s : State) : W32 :=
  let i := s.regFld rDspFlowSel 11 0
  match s.flow i with
  | some f => w32 (bitIf f.bound 31 + (s.disp.entries.filter fun e => decide (e.flow = i)).length * 2 ^ 10 + bitIf f.reserveUsed 9 +
      (f.issued - f.retired))
  | none => 0

/-- TRL_STATUS. -/
def trlStatus (s : State) : W32 :=
  w32 (s.disp.waiting.length * 2 ^ 16 + (s.disp.flows.filter fun e => e.2.bound).length)

def viewTop (s : State) (off : Nat) : W32 :=
  if off = rTopCaps then topCaps s else if off = rTopIrqStatus then (irqStatus s).setWidth 32 else s.reg off

def viewDsp (s : State) (off : Nat) : W32 :=
  if off = rDspOccupancy then w32 (bitIf s.disp.sourcesStopped 31 + s.disp.entries.length)
  else if off = rDspPeak then dspPeak s
  else if rDspQueue 0 ≤ off ∧ off < rDspQueue 8 then dspQueue s ((off - rDspQueue 0) / 4)
  else if off = rDspFlowInfo then dspFlowInfo s
  else s.reg off

/-! ## HRT (R149 to R155) -/

/-- The cluster clock in units of 100 MHz (R23, R150). -/
def modeClock : Mode → Nat
  | .balanced => 16 | .sprint => 20 | .steady => 14 | .endure => 12 | .ember => 10 | .hibernate => 0

/-- A bit for each of eight that passes a test. -/
def bits8 (p : Nat → Bool) : Nat := ((List.range 8).map fun j => bitIf (p j) j).sum

/-- HRT_CLUSTER_STATUS_n. -/
def clusterStatus (s : State) (n : Nat) : W32 :=
  let hart := fun j => s.hrt.harts.getD (8 * n + j) Hart.reset
  w32 (bitIf (s.regBit rHrtCtl n) 31 + modeClock s.power.effective * 2 ^ 20 + bits8 (fun j => (hart j).squirrel.isSome) * 2 ^ 8 +
    bits8 fun j => (hart j).kernel.isSome)

/-- HRT_MODULE_INFO of the selected module. -/
def moduleInfo (s : State) : W32 :=
  let m := s.regFld rHrtModuleSel 7 0
  match s.module m with
  | some x =>
    w32 ((match x.st with | .loaded => 1 | .unloading => 2 | .damaged => 3) * 2 ^ 30 + x.kernels.length * 2 ^ 23 + x.visibility * 2 ^ 21 +
      x.authority * 2 ^ 16 + (moduleTrails s m).length)
  | none => 0

/-- The bytes of a fault-log entry (R155). -/
def FaultEntry.bytes (e : FaultEntry) : List Byte :=
  leBytes 4 e.trailId.toNat ++ leBytes 1 e.stage ++ leBytes 1 e.cause ++ leBytes 2 e.fn ++ leBytes 8 e.chunk ++ leBytes 1 e.module ++
  leBytes 1 e.kernel ++ leBytes 1 e.hart ++ zeros 1 ++ leBytes 4 e.code.toNat ++ leBytes 8 e.pc.toNat ++ leBytes 8 e.addr.toNat ++
  leBytes 4 e.runUs ++ zeros 20

def viewHrt (s : State) (off : Nat) : W32 :=
  if rHrtClusterStatus 0 ≤ off ∧ off < rHrtClusterStatus 8 then clusterStatus s ((off - rHrtClusterStatus 0) / 4)
  else if off = rHrtModuleInfo then moduleInfo s
  else if off = rHrtPoolUsed then w32 (ceilDiv (poolUsed s) (2 ^ 20))
  else if rHrtModuleMeas 0 ≤ off ∧ off < rHrtModuleMeas 12 then
    match s.module (s.regFld rHrtModuleSel 7 0) with
    | some x => w32 (leAt x.measurement (off - rHrtModuleMeas 0) 4)
    | none => 0
  else if 0x401000 ≤ off ∧ off < 0x402000 then
    match s.hrt.faults.find ((off - 0x401000) / 64) with
    | some e => w32 (leAt e.bytes ((off - 0x401000) % 64) 4)
    | none => 0
  else s.reg off

/-! ## DMA (R396 to R400) -/

/-- DMA_STATUS_n. -/
def dmaStatusWord (c : DmaChan) (busy : Bool) : W32 :=
  w32 (bitIf busy 31 + bitIf c.paused 30 + bitIf c.done 29 + bitIf c.err 28 + bitIf c.mismatch 27 + bitIf (busy && c.paceWait) 26 +
    c.errCode * 2 ^ 16 + c.descDone)

def viewDma (s : State) (off : Nat) : W32 :=
  if rDmaChan 0 ≤ off ∧ off < rDmaChan 64 then
    let n := (off - rDmaChan 0) / 0x40
    let c := s.chan n
    match (off - rDmaChan 0) % 0x40 with
    | 0x00 => w32 (bitIf c.pause 30 + dmaOwnerCode c.owner * 2 ^ 28)
    | 0x04 => dmaStatusWord c (dmaBusy s n)
    | 0x20 => w32 c.remain
    | _ => 0
  else s.reg off

/-! ## SEA (R304 to R308) -/

/-- Units of a class that run a task, as bits. -/
def busyBits (s : State) (c : UnitClass) (n : Nat) : Nat :=
  ((List.range n).map fun i => bitIf (runsTask s c i || runsTransfer s c i) i).sum

def anyErased (s : State) : Bool := (s.sea.xts ++ s.sea.wrap).any fun e => e.2.st = .erased

/-- SEA_SLOT_INFO of the selected slot. -/
def slotInfo (s : State) : W32 :=
  let i := s.regFld rSeaSlotSel 9 0
  let wrap := s.regBit rSeaSlotSel 15
  if wrap ∧ 256 ≤ i then 0
  else
    let k := if wrap then s.wrapSlot i else s.xts i
    w32 (slotStateCode k.st * 2 ^ 30 + k.use * 2 ^ 27 + bitIf k.credential 26 + k.owner * 2 ^ 16)

/-- The wrap slot that SEA_NONCE_SEL selects. -/
def nonceSlot (s : State) : KeySlot := s.wrapSlot (s.regFld rSeaNonceSel 7 0)

def viewSea (s : State) (off : Nat) : W32 :=
  if off = rSeaStatus then
    w32 (bitIf (anyErased s) 31 + modePipelines s.power.effective * 2 ^ 8 + busyBits s .cipher 8)
  else if off = rSeaAlarm then w32 (s.sea.alarmCount * 2 ^ 16 + alarmBits s)
  else if off = rSeaSlotInfo then slotInfo s
  else if off = rSeaNonceEpoch then if (nonceSlot s).st = .empty then 0 else w32 (nonceSlot s).epoch
  else s.reg off

/-! ## DGS (R323, R329 to R333) -/

/-- A BAR2 requester owns the digest port. -/
def ownsPort (s : State) (r : Requester) : Bool := s.dgs.owner.isSome && decide (s.dgs.owner = portReqOf r)

/-- DGS_PORT_STATUS as a requester reads it. -/
def portStatus (s : State) (r : Requester) : W32 :=
  let d := s.dgs
  w32 (bitIf d.done 31 + bitIf d.busy 30 + bitIf d.dropped 29 + (match d.owner with | some o => portReqCode o | none => 0xF) * 2 ^ 24 +
    (if d.owner.isNone ∨ ownsPort s r then 0 else 0xC9) * 2 ^ 16 + d.endStatus * 2 ^ 8 + (d.claims.map fun c => 2 ^ portReqCode c).sum)

def hmacStateCode : HmacState → Nat
  | .empty => 0 | .loaded => 1 | .erased => 2 | .loading => 3

/-- DGS_HMAC_INFO of the selected slot. -/
def hmacInfo (s : State) : W32 :=
  let h := s.hmacSlot (hmacSel s)
  w32 (hmacStateCode h.st * 2 ^ 30 + h.alg * 2 ^ 26 + h.wrap * 2 ^ 18 + h.owner.getD 0 * 2 ^ 9 + h.lastErr)

/-- The core that absorbs a port block: the first in service that runs no task. Which core that is R326 does not say. DESIGN CHOICE
(notes/assumptions/35.md). While every core runs a task the block waits for a boundary, and all of them read busy. -/
def portCore (s : State) : Option Nat :=
  if s.dgs.busy then
    (List.range (modeCores s.power.effective)).find? fun i => s.disp.running.all fun r => r.cls ≠ .digest || decide (r.unit ≠ i)
  else none

/-- DGS_STATUS: the cores in service, and those that absorb a block of a task or of the port (R326, R329). -/
def dgsStatus (s : State) : W32 :=
  w32 (modeCores s.power.effective * 2 ^ 24 + busyBits s .digest 24 + (match portCore s with | some i => 2 ^ i | none => 0))

def viewDgs (s : State) (r : Requester) (off : Nat) : W32 :=
  if off = rDgsStatus then dgsStatus s
  else if rDgsExpect 0 ≤ off ∧ off < rDgsExpect 16 then
    if algValid s.dgs.alg ∧ algOut s.dgs.alg ≤ off - rDgsExpect 0 then 0 else s.reg off
  else if off = rDgsPortStatus then portStatus s r
  else if off = rDgsHmacInfo then hmacInfo s
  else s.reg off

/-! ## RLE and LNX (R348, R371 to R374) -/

def viewRle (s : State) (off : Nat) : W32 :=
  if off = rRleStatus then w32 (modeLanes s.power.effective * 2 ^ 8 + busyBits s .codec 8) else s.reg off

/-- LNX_TBL_INFO of the selected table. -/
def tblInfo (s : State) : W32 :=
  let refused := bitIf (s.regBit rLnxTblInfo 29) 29
  match s.lynxTable (lynxSel s) with
  | some t => w32 (2 ^ 31 + bitIf t.faulted 30 + refused + Nat.min 0x3FF t.lost.length * 2 ^ 19 + (t.entries.filter fun e => e.2.valid).length)
  | none => w32 refused

def viewLnx (s : State) (off : Nat) : W32 :=
  if off = rLnxStatus then
    w32 (bitIf s.lynx.autoVerify 31 + bitIf s.lynx.restoring 30 + modeBanks s.power.effective * 2 ^ 16 +
      ((s.lynx.tables.filter fun e => e.2.faulted).map fun e => 2 ^ e.1).sum)
  else if off = rLnxLapCur then w32 (ceilDiv (s.now - s.lynx.lapStart) tUs)
  else if off = rLnxTblInfo then tblInfo s
  else s.reg off

/-! ## MEM and ECC (R430, R431, R435, R437, R439, R440) -/

/-- MEM_CH_STATUS_n: 0 until training ends. -/
def memChStatus (s : State) (n : Nat) : W32 :=
  let c := s.dramChan n
  let b := s.board
  if c.trained ∨ 3 ≤ c.attempts then
    w32 (bitIf c.trained 31 + bitIf c.selfRefresh 30 + (if b.dramWidth = 4 then 0 else if b.dramWidth = 8 then 1 else 2) * 2 ^ 26 +
      bitIf (dramDensity b = 32) 25 + bitIf (b.dramRanks = 2) 24 + c.mr4Rate * 2 ^ 16 + b.dramGibPerChannel * 2 ^ 8 + c.attempts)
  else 0

/-- The seed that training starts from: the factory value plus a user offset, kept within the factory window (R405). -/
def seedOf (k : Nat) (usr : Int) : Int :=
  let f : Int := (Config.seedFactory k).toNat
  let win : Int := (Config.seedWindow k).toNat
  clampInt (f + usr) (f - win) (f + win)

/-- The value that the last training of a seed's channel found, within the window around its seed; 0 before training. -/
def trainedSeed (s : State) (k : Nat) : Nat :=
  let c := s.dramChan (k / 256)
  let seed := seedOf k (c.seedUser.getD k 0)
  let win : Int := (Config.seedWindow k).toNat
  if c.trained then (clampInt (Int.ofNat (Config.seedTrained k c.draw).toNat) (seed - win) (seed + win)).toNat % 256 else 0

/-- MEM_SEED_VIEW of the selected seed. -/
def seedView (s : State) : W32 :=
  let k := seedKey s
  if seedValid s then
    w32 (trainedSeed s k * 2 ^ 24 + (Config.seedFactory k).toNat * 2 ^ 16 + (Config.seedWindow k).toNat * 2 ^ 8 +
      unsigned 8 (s.memory.seedSaved.getD k 0))
  else 0

def viewMem (s : State) (off : Nat) : W32 :=
  if rMemChStatus 0 ≤ off ∧ off < rMemChStatus 4 then memChStatus s ((off - rMemChStatus 0) / 4)
  else if off = rMemSeedView then seedView s
  else if off = rMemSeedUser then if seedValid s then w32 (unsigned 5 (s.memory.seedUser.getD (seedKey s) 0)) else 0
  else s.reg off

def logStateCode : LogState → Nat
  | .counting => 0 | .rewritten => 1 | .hard => 2 | .retired => 3

/-- The log entry that ECC_LOG_SEL selects. -/
def logEntry (s : State) : Option LogEntry :=
  (s.memory.logs.filter fun l => l.group = s.regFld rEccLogSel 12 8)[s.regFld rEccLogSel 4 0]?

/-- ECC_LOG_INFO. -/
def logInfo (s : State) : W32 :=
  match logEntry s with
  | some l => w32 (2 ^ 31 + logStateCode l.st * 2 ^ 29 + Nat.min 0xFF l.count * 2 ^ 16 + (Config.syndrome l.bit).toNat * 2 ^ 8 + l.bit)
  | none => 0

/-- PROGRESS of the DRAM lap, in 0.1 %. -/
def owlProgress (s : State) : Nat := Nat.min 1000 (1000 * s.memory.owlAt / dramBytes s.board)

def viewEcc (s : State) (off : Nat) : W32 :=
  if off = rEccOwlStatus then w32 (bitIf s.memory.owlOverdue 31 + bitIf s.memory.owlPaused 30 + owlProgress s)
  else if off = rEccOwlLap then w32 (s.memory.owlSram * 2 ^ 16 + s.memory.owlLast)
  else if off = rEccLogInfo then logInfo s
  else if off = rEccRepair then w32 (Nat.min 0xFFFF s.memory.fixes.length * 2 ^ 16 + s.memory.remap.length)
  else if off = rEccInject then s.reg off ||| w32 (bitIf s.memory.injected 30)
  else s.reg off

/-! ## MED (R171, R181, R183) -/

/-- MED_CH_STATUS of a channel: 0 until its training ends (R181). -/
def chStatus (s : State) (c : Nat) : W32 :=
  match s.media.channels.find c with
  | some x =>
    if !x.trained then 0
    else
      w32 (bitIf x.online 31 + x.rate * 2 ^ 28 + bitIf s.board.toggle 27 +
        (match x.temp with | some t => (clampInt (t + 64) 0 255).toNat | none => 0) * 2 ^ 16 + s.board.targets * 2 ^ 12 + s.board.luns * 2 ^ 8 +
        x.retrains)
  | none => 0

/-- MED_CAL_VIEW. -/
def calView (s : State) (n : Nat) : W32 :=
  let l := n * 512 + s.regFld (rMedCalSel n) 8 0
  let v := calLevel s n
  if s.board.levels ≤ v then 0
  else
    w32 (unsigned 8 (levelBase s l v) * 2 ^ 24 + unsigned 8 (levelF s l v) * 2 ^ 16 + unsigned 8 (levelT s l v) * 2 ^ 8 +
      unsigned 8 (s.media.committed.getD (l * 16 + v) 0))

def viewMed (s : State) (off : Nat) : W32 :=
  let n := (off - 0xE00000) / 0x40000
  let o := (off - 0xE00000) % 0x40000
  if 0x40 ≤ o ∧ o < 0x60 then chStatus s (8 * n + (o - 0x40) / 4)
  else if o = 0x104 then calView s n
  else if o = 0x108 then if s.board.levels ≤ calLevel s n then 0 else w32 (unsigned 6 (s.media.staged.getD (calKey s n) 0))
  else if o = 0x10C then s.reg off ||| w32 (bitIf (n ∈ s.media.committing) 31)
  else s.reg off

/-! ## FTL and STR (R225 to R227, R229, R266 to R270) -/

/-- LEVEL of FTL_BADGER_STATUS (R200). -/
def badgerLevel (s : State) : Nat :=
  if freeBelow s (thUrgent s) then 3 else if freeBelow s (thGcStart s) then 2
  else if s.ftl.bands.any fun e => e.2.refresh && e.2.st = .closed then 1 else 0

/-- FTL_CKPT_STATUS: the journal that no segment covers yet, and the oldest dirty segment of the map or the block table, or page of one that
has not been programmed (R229). -/
def ckptStatus (s : State) : W32 :=
  let since := (s.ftl.dirty ++ s.ftl.blockDirty).map (·.2) ++ (s.ftl.mapPages.filter fun p => !p.done).map (·.since)
  let oldest := since.min?.map fun t => (s.now - t) / tSec
  w32 (Nat.min 2048 (ceilDiv (journalBytes s.ftl) (2 ^ 20)) * 2 ^ 16 + Nat.min 60 (oldest.getD 0))

def viewFtl (s : State) (off : Nat) : W32 :=
  if off = rFtlRdFactory then if mediaUp s then w32 s.board.readThreshold else 0
  else if off = rFtlSpare then
    if s.sys.bootStep = 12 then w32 (s.ftl.spareStage * 2 ^ 30 + availSpare s * 2 ^ 16 + Nat.min 0xFF (freeLevel s)) else 0
  else if off = rFtlBuf then w32 (Nat.max (s.regFld rFtlBuf 31 16) s.ftl.slots.length * 2 ^ 16 + s.ftl.slots.length)
  else if off = rFtlBadger then w32 (bitIf s.ftl.victim.isSome 31 + badgerLevel s * 2 ^ 29 + s.regFld rFtlBadger 15 0)
  else if off = rFtlCkpt then ckptStatus s
  else s.reg off

/-- STR_RESHAPE_STATUS: CURSOR_GIB counts the units of 1 KiB below the cursor. -/
def reshapeStatus (s : State) : W32 :=
  let x := s.str.reshape
  w32 (bitIf x.active 31 + bitIf x.refused 30 + x.reason * 2 ^ 28 + Nat.min 63 (x.cursor / 2 ^ 20) * 2 ^ 22 + x.region.getD 0)

/-- STR_REBUILD_STATUS. -/
def rebuildStatus (s : State) : W32 :=
  let t := s.str
  w32 (bitIf (!(degradedBands s).isEmpty) 31 + bitIf ((degradedBands s).any fun e => decide (2 ≤ e.2.lost.length)) 30 + t.failedLuns * 2 ^ 12 +
    if t.degradedAtStart = 0 then 0 else Nat.min 1000 (1000 * t.rebuilt / t.degradedAtStart))

/-- Degraded bands that a LUN has a LOST slot of. -/
def degradedBy (s : State) (l : Nat) : Nat :=
  ((degradedBands s).filter fun e => e.2.lost.any fun k => (e.2.members[k]?).any fun m => m.1 = l).length

/-- STR_LUN_STATUS of the selected LUN. -/
def lunStatus (s : State) : W32 :=
  let l := s.regFld rStrLunSel 10 0
  let x := s.lun l
  w32 (bitIf x.failed 31 + bitIf (l / 64 % 2 = 1) 30 + bitIf (l ∈ pool s) 29 + x.cause * 2 ^ 16 + Nat.min 0xFFFF (degradedBy s l))

def viewStr (s : State) (off : Nat) : W32 :=
  if off = rStrReshapeStatus then reshapeStatus s
  else if off = rStrReshapeLeft then w32 s.str.reshape.left.length
  else if off = rStrRebuild then rebuildStatus s
  else if off = rStrLunStatus then lunStatus s
  else if off = rStrDump then w32 ((if mediaUp s then dumpSlots s else 0) * 2 ^ 16 + s.str.lastRecovery)
  else if off = rStrBadlog then w32 (bitIf s.str.overflow 31 + s.str.badLog.length)
  else s.reg off

/-! ## VIN (R482, R497 to R499) -/

/-- A register of a mailbox side: TX, RX, CTL, STATUS or LEN. -/
def mailboxRead (s : State) (f : Fn) (manager : Bool) (o : Nat) : W32 :=
  let c := s.ctrl f
  let m := c.side manager
  let rx := if manager then c.mbxOut else c.mbxIn
  let tx := if manager then c.mbxIn else c.mbxOut
  if o < 0x40 then m.tx.getD (o / 4) 0
  else if o < 0x80 then match rx with | x :: _ => w32 (leAt x.bytes (o - 0x40) 4) | [] => 0
  else if o = 0x80 then w32 m.vector
  else if o = 0x84 then
    w32 (bitIf m.refused 31 + bitIf m.mismatch 30 + m.reason * 2 ^ 28 + rx.length * 2 ^ 4 + tx.length)
  else if o = 0x88 then w32 (m.decl * 2 ^ 16 + m.act)
  else 0

def viewVin (s : State) (r : Requester) (off : Nat) : W32 :=
  match mailboxOf s r off with
  | some (f, manager, o) => mailboxRead s f manager o
  | none => if off < 0x2108000 then s.reg off else 0

/-! ## PWR, TLM and BLD (R42, R528 to R531, R549 to R552, R568) -/

/-- PWR_MODE_STATUS. -/
def modeStatus (s : State) : W32 :=
  let p := s.power
  w32 (bitIf p.transition.isSome 31 + bitIf p.writesStopped 30 + bitIf p.emberAuto 29) |||
    modeDw0 s (modeCode p.requested) (modeCode p.effective)

def allRails : List Rail := [.vddAon, .vddSec, .vddIo18, .vddSoc, .vddCore, .vddPcie, .vddhPcie, .vddqMem, .vccqNf]

/-- PWR_INPUTS. -/
def pwrInputs (s : State) : W32 :=
  w32 (bitIf s.power.pfailN 31 + bitIf s.power.ilimN 30 + (allRails.map fun x => bitIf (x ∉ s.power.railsBad) (railIndex x)).sum)

/-- PWR_TSENS_VIEW of the selected sensor. -/
def sensorView (s : State) : W32 :=
  let i := s.regFld rPwrTsensSel 3 0
  w32 ((Config.sensorFactory i).toNat * 2 ^ 24 + unsigned 8 (s.power.tsensSaved.getD i 0) * 2 ^ 16 +
    match s.power.readings[i]? with | some t => tempCode t | none => 0)

def viewPwr (s : State) (off : Nat) : W32 :=
  if off = rPwrMode then modeStatus s
  else if off = rPwrSprint then w32 (s.power.t * 2 ^ 16 + s.power.k)
  else if off = rPwrTemp then pwrTemp s
  else if off = rPwrInputs then pwrInputs s
  else if off = rPwrTsensView then sensorView s
  else if off = rPwrTsensUser then w32 (unsigned 4 (s.power.tsensUser.getD (s.regFld rPwrTsensSel 3 0) 0))
  else s.reg off

def viewTlm (s : State) (off : Nat) : W32 :=
  if off = rTlmStatus then
    if mediaUp s then
      w32 (bitIf s.health.copy1Ok 31 + bitIf s.health.copy0Ok 30 + bitIf s.health.writing 29 + Nat.min 0xFFFF s.health.sinceWrite)
    else 0
  else s.reg off

/-- BLD_BOOT_STATUS. -/
def bootStatus (s : State) : W32 :=
  let b := s.boot
  w32 (b.running * 2 ^ 30 + b.selector.pending * 2 ^ 28 + b.selector.tries * 2 ^ 26 + bitIf b.trial 25 + b.fuseSvn * 2 ^ 18 +
    (match b.image with | some i => i.svn | none => 0) * 2 ^ 12 + b.revoked.toNat * 2 ^ 8 + b.cause)

/-- The newest record of the ledger. -/
def newestRecord (s : State) : Option LedgerRec := s.boot.ledger.getLast?

/-- Step 9 of the boot is done; the fields that boot sets read 0 until then (R528). -/
def booted (s : State) : Bool := s.sys.bootStep = 12

/-- BOOT_COUNT of the newest boot record (R529). -/
def recordedBoots (s : State) : Nat := match (s.boot.ledger.filter fun r => decide (r.kind = 0)).getLast? with | some r => r.boots | none => 0

def viewBld (s : State) (off : Nat) : W32 :=
  if off = rBldBoot then if booted s then bootStatus s else 0
  else if off = rBldBootCount then if booted s then w32 (recordedBoots s) else 0
  else if off = rBldLedger then
    w32 (bitIf s.boot.appendFail 31 + bitIf (booted s && s.boot.copy1Ok) 30 + bitIf (booted s && s.boot.copy0Ok) 29 + Nat.min 16 s.boot.appends.length)
  else if rBldChain 0 ≤ off ∧ off < rBldChain 12 then
    match if booted s then newestRecord s else none with | some x => w32 (leAt x.chain (off - rBldChain 0) 4) | none => 0
  else s.reg off

/-! ## LO/HI pairs (R576) -/

/-- The 64-bit counts: the offset of the first LO register and how many there are. -/
def countBlocks : List (Nat × Nat) :=
  [(rDspStall 0, 8), (rTrlCount 0, 5), (rHrtCount 0, 4), (rDmaCount 0, 6), (rSeaCount 0, 6), (rDgsCount 0, 5), (rRleCount 0, 6),
   (rLnxCount 0, 7), (rMemCount 0, 4), (rMedLadder 0 0, 6), (rMedLadder 1 0, 6), (rMedLadder 2 0, 6), (rMedLadder 3 0, 6),
   (rFtlCount 0, 6), (rStrCount 0, 6), (rPwrCount 0, 7)]

/-- An offset is the LO register of a count. -/
def isCountLo (off : Nat) : Bool := countBlocks.any fun b => decide (b.1 ≤ off) && decide (off < b.1 + 8 * b.2) && decide ((off - b.1) % 8 = 0)

/-- The 64-bit value behind the LO register at an offset; none where the offset is no LO register. -/
def pairValue (s : State) (off : Nat) : Option Nat :=
  if isCountLo off then some (s.cnt off)
  else if off = rRtcLo then some s.rtc
  else if off = rDmaErrAddrLo ∨ off = rEccUeAddrLo ∨ off = rEccInjectLo then some ((s.reg off).toNat + (s.reg (off + 4)).toNat * 2 ^ 32)
  else if rDmaChan 0 ≤ off ∧ off < rDmaChan 64 then
    let c := s.chan ((off - rDmaChan 0) / 0x40)
    match (off - rDmaChan 0) % 0x40 with
    | 0x08 => some c.ptr
    | 0x10 => some c.src
    | 0x18 => some c.dst
    | 0x28 => some c.lenDecl
    | 0x30 => some c.lenAct
    | _ => none
  else if off = rSeaNonceNext then some (nonceSlot s).next
  else if off = rSeaNonceRsv then some (nonceSlot s).reservedTo
  else if off = rEccLogAddrLo then some (match logEntry s with | some l => l.addr | none => 0)
  else if off = rStrSeedLo then some s.str.seed.toNat
  else if off = rTlmEventSeq then some s.health.eventSeq
  else if off = rBldSeq then some (match if booted s then newestRecord s else none with | some x => x.seq | none => 0)
  else if off = rBldFw then some (match if booted s then s.boot.image else none with | some i => leAt i.version 0 8 | none => 0)
  else none

/-- The latches of a requester. -/
def latchOf (g : Regs) : Requester → Tbl W32
  | .portA => g.latchA | .portB => g.latchB | .firmware _ => g.latchF | .security | .vf _ => []

/-! ## The MSI-X range (R572, R573, R585) -/

/-- Bit i of a word of pending bits from a first vector. -/
def pendingWord (c : Ctrl) (first : Nat) : W32 := w32 (((List.range 32).map fun i => bitIf (first + i ∈ c.msixHeld) i).sum)

/-- A dword of a function's MSI-X table: the fourth of an entry is the vector control, whose mask bit is set at reset. -/
def msixWord (c : Ctrl) (o : Nat) : W32 :=
  if o / 4 % 4 = 3 then w32 (bitIf (o / 16 ∉ c.unmasked) 0) else c.msixTable.getD (o / 4) 0

/-- The MSI-X range of BAR2 of a manager function. -/
def viewMsix (s : State) (r : Requester) (off : Nat) : W32 :=
  match requesterFn r with
  | some f =>
    if off < 0x3008000 then msixWord (s.ctrl f) (off - 0x3000000)
    else if off < 0x3008100 then pendingWord (s.ctrl f) (8 * (off - 0x3008000)) else 0
  | none => 0

/-! ## One 32-bit read -/

/-- The view of the block that an offset lies in. -/
def blockView (s : State) (r : Requester) (off : Nat) : W32 :=
  if off < 0x100000 then viewTop s off else if off < 0x200000 then viewDsp s off
  else if off < 0x400000 then if off = rTrlStatus then trlStatus s else s.reg off
  else if off < 0x600000 then viewHrt s off else if off < 0x700000 then viewDma s off else if off < 0x780000 then viewSea s off
  else if off < 0x7C0000 then viewDgs s r off else if off < 0x800000 then viewRle s off else if off < 0xC00000 then viewLnx s off
  else if off < 0xD00000 then viewMem s off else if off < 0xE00000 then viewEcc s off else if off < 0xF00000 then viewMed s off
  else if off < 0x1E00000 then 0 else if off < 0x2000000 then viewFtl s off else if off < 0x2100000 then viewStr s off
  else if off < 0x2400000 then viewVin s r off else if off < 0x2500000 then viewPwr s off else if off < 0x2600000 then viewTlm s off
  else if off < 0x3000000 then viewBld s off else viewMsix s r off

/-- What a 32-bit read of a register returns to a requester: the low half of a pair at its LO register, the requester's latch
at its HI register, and the register's own value elsewhere (R576). -/
def regRead (s : State) (r : Requester) (off : Nat) : W32 :=
  match pairValue s off with
  | some v => loOf v
  | none =>
    if (pairValue s (off - 4)).isSome ∧ 4 ≤ off then (latchOf s.regs r).getD (off - 4) 0
    else blockView s r off

/-! ## BAR0 (R447, R499, R570) -/

/-- CAP (R447; the bit places are the NVMe base specification's, notes/assumptions/11.md). -/
def capWord (f : Fn) : Nat :=
  0xFFFF + 2 ^ 16 + 0x18 * 2 ^ 24 + bitIf (isManager f) 36 + 2 ^ 37 + 2 ^ 43 + 4 * 2 ^ 52

/-- CSTS. -/
def cstsWord (c : Ctrl) : W32 := w32 (bitIf c.rdy 0 + bitIf c.cfs 1 + c.shst * 4)

/-- The size field of a queue of the admin pair. -/
def sizeField (q : Queue) : Nat := q.size - 1

/-- A 32-bit read of a function's BAR0. -/
def bar0Read (s : State) (f : Fn) (off : Nat) : W32 :=
  let c := s.ctrl f
  if off < 0x1000 then
    match off with
    | 0x00 => loOf (capWord f)
    | 0x04 => hiOf (capWord f)
    | 0x08 => 0x20000#32
    | 0x14 => c.cc
    | 0x1C => cstsWord c
    | 0x24 => w32 (sizeField c.adminSq + sizeField c.adminCq * 2 ^ 16)
    | 0x28 => loOf c.adminSq.base
    | 0x2C => hiOf c.adminSq.base
    | 0x30 => loOf c.adminCq.base
    | 0x34 => hiOf c.adminCq.base
    | _ => 0
  else if isManager f then 0
  else if 0x6000 ≤ off ∧ off < 0x6400 then msixWord c (off - 0x6000)
  else if 0x6800 ≤ off ∧ off < 0x6808 then pendingWord c (8 * (off - 0x6800))
  else if 0x7000 ≤ off ∧ off < 0x708C then mailboxRead s f false (off - 0x7000)
  else if off = 0x70C0 then w32 (c.credits * 2 ^ 16 + c.share.queuePairs)
  else if off = 0x70C4 then w32 (c.share.clusters.toNat * 2 ^ 24 + c.share.flows)
  else if off = 0x70C8 then w32 (c.share.writeSlots * 2 ^ 16 + c.share.weight)
  else 0

end Sys2Proof.Machine
end

