-- ==== Sys2Proof/Machine/LogPages.lean ====
section
/-! DEFINITION. The meanings of Identify and Get Log Page: what Identify returns (R447, R451, R452, R472), the standard log
pages (R451, R457, R471, R557) and the vendor pages in the reader's view (R465, R554 to R564). -/

namespace Sys2Proof.Machine

/-! ## Identify (R447, R451, R452, R456; layouts of NVMe, notes/assumptions/11.md) -/

def stInvalidIoSet : Status := status 1 0x2C

/-- LBADS: the power of two of an LBA format. -/
def lbads (lbaSize : Nat) : Nat := if lbaSize = 4096 then 12 else 9

/-- LBAs of a namespace that hold data: its mapped IUs, never above NCAP. -/
def usedLbas (s : State) (n : Ns) : Nat :=
  let ius := iusFor n n.nsze
  let mapped := (s.ftl.map.filter fun e => decide (n.base ≤ e.1) && decide (e.1 < n.base + ius) && decide (e.2.st ≠ .unmapped)).length
  Nat.min n.ncap (mapped * (16384 / n.lbaSize))

/-- Put fields into a page: each is its offset and its bytes. -/
def withFields (page : List Byte) (fs : List (Nat × List Byte)) : List Byte := fs.foldl (fun p f => patch p f.1 f.2) page

/-- Both LBA formats of an NVM namespace: 512 and 4,096 bytes, no metadata. -/
def lbaFormats : List Byte := leBytes 4 (9 * 2 ^ 16) ++ leBytes 4 (12 * 2 ^ 16)

/-- The Identify Namespace data of an NVM namespace. -/
def identifyNs (s : State) (nsid : Nat) (n : Ns) : List Byte :=
  let unit := 16384 / n.lbaSize - 1
  withFields (zeros 4096)
    [(0, leBytes 8 n.nsze), (8, leBytes 8 n.ncap), (16, leBytes 8 (usedLbas s n)),
     (24, [BitVec.ofNat 8 (bitIf n.thin 0 + 2 + 16)]), (25, [1]), (26, [if n.lbaSize = 4096 then 1 else 0]), (30, [1]), (31, [0xFF]),
     (33, [1]), (34, leBytes 2 unit), (36, leBytes 2 unit), (48, leBytes 16 (owedIus n * 16384)), (64, leBytes 2 unit), (66, leBytes 2 unit),
     (104, bytesOf 24 fun i => Config.identify 0 nsid (104 + i)), (128, lbaFormats)]

/-- What every namespace has in common. -/
def identifyCommon : List Byte := withFields (zeros 4096) [(25, [1]), (31, [0xFF]), (33, [1]), (128, lbaFormats)]

/-- The Identify Controller data: what the manual fixes, over what it leaves open. A pool of fewer than 12 LUNs reports an NVM
capacity of 0 (R231). -/
def identifyController (s : State) (f : Fn) : List Byte :=
  let m := isManager f
  let fixed :=
    [(77, [9]), (78, leBytes 2 (controllerId f)), (80, leBytes 4 0x20000), (84, leBytes 4 12000000), (88, leBytes 4 1000000), (111, [1]),
     (256, leBytes 2 (if m then 0x0F else 0x03)), (258, [7]), (259, [15]), (262, [63]), (263, [0]), (266, leBytes 2 398), (268, leBytes 2 423),
     (328, leBytes 4 (if m then 3 else 0)), (512, [0x66]), (513, [0x44]), (516, leBytes 4 512), (520, leBytes 2 0xED), (525, [0]),
     (536, leBytes 4 1)]
  let page := withFields (bytesOf 4096 (Config.identify 1 f)) fixed
  if poolSmall s then withFields page [(280, zeros 32)] else page

/-- A list of namespace identifiers above one. -/
def nsidList (ids : List Nat) (above : Nat) : List Byte :=
  padTo 4096 (((ids.filter fun k => above < k).take 1024).flatMap (leBytes 4))

/-- A controller list. -/
def controllerList (ids : List Nat) : List Byte := padTo 4096 (leBytes 2 (Nat.min 2047 ids.length) ++ (ids.take 2047).flatMap (leBytes 2))

/-- The controllers that exist. -/
def allControllers (s : State) : List Nat := ((fnsOf .a ++ fnsOf .b).filter fun f => s.fnExists f).map controllerId

/-- What Identify answers. -/
def identifyData (s : State) (f : Fn) (cns nsid : Nat) : Except Status (List Byte) :=
  let ns := fun (allocated : Bool) =>
    if nsid = 0xFFFFFFFF ∧ !allocated ∧ isManager f then .ok identifyCommon
    else if nsid = 0 ∨ 512 < nsid then .error stInvalidNs
    else match s.ns.find nsid with
      | some n => if !allocated ∧ f ∉ n.attached then .ok (zeros 4096) else if n.kind = .nvm then .ok (identifyNs s nsid n) else .error stInvalidIoSet
      | none => .ok (zeros 4096)
  match cns with
  | 0x00 => ns false
  | 0x01 => .ok (identifyController s f)
  | 0x02 =>
    if 0xFFFFFFFE ≤ nsid then .error stInvalidNs else .ok (nsidList ((s.ns.filter fun e => decide (f ∈ e.2.attached)).map (·.1)) nsid)
  | 0x10 =>
    if !isManager f then .error stInvalidField
    else if 0xFFFFFFFE ≤ nsid then .error stInvalidNs else .ok (nsidList (s.ns.map (·.1)) nsid)
  | 0x11 => if isManager f then ns true else .error stInvalidField
  | 0x12 =>
    if !isManager f then .error stInvalidField
    else match s.ns.find nsid with
      | some n => .ok (controllerList ((allControllers s).filter fun c => decide (c - 1 ∈ n.attached)))
      | none => .error stInvalidNs
  | 0x13 => if isManager f then .ok (controllerList (allControllers s)) else .error stInvalidField
  | _ => if cns ∈ [0x03, 0x05, 0x06, 0x07, 0x08, 0x1C] then .ok (bytesOf 4096 (Config.identify cns nsid)) else .error stInvalidField

def execIdentify (w : Who) (cns nsid : Nat) (s : State) : Host.Outcome State Fault Refusal :=
  .next (if s.adminReady w then
    match identifyData s w.fn cns nsid with
    | .ok bs => (s.dataOut w bs).admin w stOk 0
    | .error st => s.admin w st 0
  else s)

/-! ## SMART / Health Information (R557) -/

/-- Degrees of a reading in kelvin, rounded down. -/
def kelvin (t : Int) : Nat := (t / 4 + 273).toNat
def kelvinOf (t : Option Int) : Nat := match t with | some t => kelvin t | none => 0

/-- The hottest reading of some sensors. -/
def hottestOf (s : State) (sensors : List Nat) : Option Int :=
  match sensors.filterMap fun i => s.power.readings[i]? with
  | [] => none
  | t :: ts => some (maxInt t ts)

/-- Critical Warning (R212, R241, R257, R406, R424, R538, R547). -/
def criticalWarning (s : State) : Nat :=
  let stage := s.ftl.spareStage
  bitIf (1 ≤ stage) 0 + bitIf ((match hottest s with | some t => decide (500 ≤ t) | none => false) || dramHot s) 1 +
  bitIf (2 ≤ stage || !(degradedBands s).isEmpty || s.str.warnDump || s.memory.noSpare || !s.media.factoryPage) 2 + bitIf (stage = 3) 3 +
  bitIf s.str.warnRails 4

/-- Erase counts of the good blocks that have a record; every other good block was never erased. -/
def eraseCounts (s : State) : List Nat := (s.ftl.blocks.filter fun e => !e.2.retired && blockInPool s e.1).map (·.2.erases)
def meanErase (s : State) : Nat := if goodBlocks s = 0 then 0 else (eraseCounts s).sum / goodBlocks s
def maxErase (s : State) : Nat := (eraseCounts s).foldl Nat.max 0
def minErase (s : State) : Nat := if (eraseCounts s).length < goodBlocks s then 0 else (eraseCounts s).min?.getD 0
/-- WEAR_USED (R558). -/
def wearUsed (s : State) : Nat := if s.board.ratedPe = 0 then 255 else Nat.min 255 (100 * meanErase s / s.board.ratedPe)

/-- The groups of sensors behind Temperature Sensor 1 to 8. -/
def sensorGroups : List (List Nat) := [[0, 1], [2, 3], [4, 5, 6, 7], [8, 9, 10, 11], [12], [13], [14], [15]]

def smartPage (s : State) (f : Fn) : List Byte :=
  let n := fun i => s.life (lifeSmart f i)
  withFields (zeros 512)
    [(0, leBytes 1 (criticalWarning s)), (1, leBytes 2 (kelvinOf (hottest s))), (3, leBytes 1 (availSpare s)), (4, leBytes 1 10),
     (5, leBytes 1 (wearUsed s)), (32, leBytes 16 (ceilDiv (n 0) 512000)), (48, leBytes 16 (ceilDiv (n 1) 512000)), (64, leBytes 16 (n 2)),
     (80, leBytes 16 (n 3)), (96, leBytes 16 (n 4)), (112, leBytes 16 (s.life (lifeDev 0))), (128, leBytes 16 (s.life (lifeDev 3) / 3600)),
     (144, leBytes 16 (s.life (lifeDev 1))), (160, leBytes 16 (s.life (lifeDev 2))), (176, leBytes 16 (n 5)),
     (192, leBytes 4 (s.life (lifeDev 4) / 60)), (196, leBytes 4 (s.life (lifeDev 5) / 60)),
     (200, sensorGroups.flatMap fun g => leBytes 2 (kelvinOf (hottestOf s g)))]

/-! ## The other standard pages (layouts of NVMe, notes/assumptions/11.md) -/

/-- The status field of a completion, without the phase tag. -/
def statusField (st : Status) : Nat := st.toNat + bitIf (moreOf st) 13 + bitIf (dnrOf st) 14

/-- The Error Information log: the newest entry first. -/
def errorPage (s : State) (f : Fn) : List Byte :=
  padTo 4096 ((s.ctrl f).errLog.reverse.flatMap fun e =>
    padTo 64 (leBytes 8 e.count ++ leBytes 2 e.sq ++ leBytes 2 e.cid ++ leBytes 2 (2 * statusField e.status) ++ leBytes 2 0xFFFF))

/-- The Firmware Slot Information log. -/
def firmwarePage (s : State) : List Byte :=
  let b := s.boot
  let version := fun (i : Option FwImage) => match i with | some x => padTo 8 x.version | none => zeros 8
  withFields (zeros 512) [(0, leBytes 1 (b.running + b.selector.pending * 16)), (8, version b.slotA), (16, version b.slotB)]

/-- The Reservation Notification log: the oldest notification not yet read. -/
def reservationPage (c : Ctrl) : List Byte :=
  match c.resLog with
  | (type, nsid) :: _ =>
    withFields (zeros 64) [(0, leBytes 8 (c.resCount + 1 - c.resLog.length)), (8, leBytes 1 type), (9, leBytes 1 (c.resLog.length - 1)), (12, leBytes 4 nsid)]
  | [] => zeros 64

/-- A Sanitize is under way. -/
def sanitizing (s : State) : Bool := s.ns.any fun e => e.2.erasing.any (·.sanitize)

/-- The Sanitize Status log: how far one has come is left open. -/
def sanitizePage (s : State) : List Byte :=
  let progress := if sanitizing s then bytesOf 2 (Config.logPage 0x81) else [0xFF, 0xFF]
  withFields (zeros 512)
    [(0, progress), (2, leBytes 2 (if s.host.sanAction = 0 then 0 else if sanitizing s then 2 else 1)), (4, leBytes 4 s.host.sanAction),
     (8, List.replicate 24 0xFF)]

/-- The log pages of the G9. -/
def knownPages : List Nat := [0x00, 0x01, 0x02, 0x03, 0x05, 0x80, 0x81, 0xC0, 0xC1, 0xC2, 0xC3, 0xC4, 0xC5, 0xC6, 0xC7]
def supportedPage : List Byte := (List.range 256).flatMap fun i => leBytes 4 (if i ∈ knownPages then 1 else 0)

/-! ## The vendor pages (R554 to R564) -/

/-- The header of a vendor page. -/
def pageHeader (s : State) (f : Fn) (page len entries : Nat) : List Byte :=
  leBytes 1 page ++ [1] ++ zeros 2 ++ leBytes 4 len ++ leBytes 8 (s.health.gens.getD page 0) ++ leBytes 8 s.stamp ++ leBytes 4 entries ++
  leBytes 4 (bitIf (isManager f) 31 + f)

/-- A list page: its header and its entries. -/
def listPage (s : State) (f : Fn) (page : Nat) (es : List (List Byte)) : List Byte :=
  pageHeader s f page (32 + (es.map List.length).sum) es.length ++ es.flatten

/-- Bytes 0x20 upward of page 0xC0 (R558). -/
def summaryBody (s : State) : List Byte :=
  padTo 96 (leBytes 1 (availSpare s) ++ leBytes 1 s.ftl.spareStage ++ leBytes 1 (wearUsed s) ++ leBytes 1 (Nat.min 0xFF (freeLevel s)) ++
    leBytes 4 s.board.ratedPe ++ leBytes 4 (meanErase s) ++ leBytes 4 (maxErase s) ++ leBytes 4 (minErase s) ++ leBytes 4 s.str.failedLuns ++
    leBytes 8 (goodBlocks s) ++ leBytes 8 s.ftl.retiredCount ++ leBytes 8 (spareBlocks s) ++ leBytes 8 s.ftl.spare0 ++
    leBytes 4 (degradedBands s).length ++ leBytes 4 (bitIf s.str.overflow 31 + s.str.badLog.length) ++
    leBytes 2 (match hottest s with | some t => tempCode t | none => 0) ++
    leBytes 1 (modeCode s.power.effective * 16 + modeCode s.power.requested) ++
    leBytes 1 (bitIf s.power.writesStopped 0 + bitIf (anyErased s) 1 + bitIf s.memory.owlOverdue 2 + bitIf s.lynx.autoVerify 3 +
      bitIf (s.hrt.modules.any fun e => e.2.st = .damaged) 4) ++
    leBytes 4 (dumpSlots s) ++ leBytes 1 s.str.lastRecovery)

/-- GEN of page 0xC0 follows the changes of its content since it was last read. -/
def State.noteSummary (s : State) : State :=
  if s.health.summary = summaryBody s then s else (s.onHealth fun h => { h with summary := summaryBody s }).bumpGen 0xC0

/-- Page 0xC1 (R559). -/
def errorBody (s : State) : List Byte :=
  ((List.range 17).map (· + 1)).flatMap fun c => leBytes 4 c ++ zeros 4 ++ leBytes 8 (s.life (lifeErr c false)) ++ leBytes 8 (s.life (lifeErr c true))

/-- Page 0xC2 (R560): the lowest reading is held plus 1. -/
def temperatureBody (s : State) : List Byte :=
  (List.range 17).flatMap fun i =>
    let at_ := fun o => s.life (lifeC2 (32 + 176 * i + o))
    leBytes 2 (at_ 0) ++ leBytes 2 (at_ 2 - 1) ++ zeros 4 ++ ((List.range 40).flatMap fun b => leBytes 4 (Nat.min 0xFFFFFFFF (at_ (8 + 4 * b)))) ++
    leBytes 4 (Nat.min 0xFFFFFFFF (at_ 0xA8)) ++ leBytes 4 (Nat.min 0xFFFFFFFF (at_ 0xAC))

/-- Counts of page 0xC3 from an offset: `n` of so many bytes each, saturating at their width. -/
def lifeRun (s : State) (off n width : Nat) : List Byte :=
  (List.range n).flatMap fun i => leBytes width (Nat.min (2 ^ (8 * width) - 1) (s.life (lifeC3 (off + width * i))))

/-- Page 0xC3 (R561). -/
def lifetimeBody (s : State) : List Byte :=
  lifeRun s 0x20 192 8 ++ lifeRun s 0x620 65 8 ++ lifeRun s 0x828 105 4 ++ lifeRun s 0x9CC 9 4 ++ lifeRun s 0x9F0 11 8 ++ lifeRun s 0xA48 12 8

/-- A bad-LBA log entry (R245). -/
def BadEntry.bytes (e : BadEntry) : List Byte :=
  leBytes 8 e.slba ++ leBytes 4 e.nsid ++ leBytes 4 e.nlb ++ leBytes 8 e.time ++ leBytes 1 e.cause ++ zeros 3 ++ leBytes 4 e.seq

/-- The entries of page 0xC4 that a function sees, in ascending ENTRY_SEQ (R554, R562). -/
def badEntries (s : State) (f : Fn) : List BadEntry :=
  (s.str.badLog.filter fun e => isManager f || e.cause = 4 || attachedTo s f e.nsid).mergeSort fun a b => a.seq ≤ b.seq

/-- The fault-log entries that a function sees, oldest first. -/
def faultEntries (s : State) (f : Fn) : List FaultEntry :=
  let next := s.regFld rHrtFaultHead 5 0
  let ring := (List.range 64).filterMap fun i => s.hrt.faults.find ((next + i) % 64)
  ring.filter fun e => if isManager f then portOfFn e.fn = portOfFn f else e.fn = f

/-- A calibration entry (R563). -/
def calEntry (kind sub index factory user effective thermal : Nat) : List Byte :=
  leBytes 1 kind ++ leBytes 1 sub ++ leBytes 2 index ++ leBytes 1 factory ++ leBytes 1 user ++ leBytes 1 effective ++ leBytes 1 thermal

/-- The seeds of R405, by channel and then SUB. -/
def seedList : List (Nat × Nat) :=
  (List.range 4).flatMap fun c => ((List.range 256).filter fun k =>
    decide (bitsOf k 6 4 ≤ 4) && decide (bitsOf k 3 3 = 0) && decide (bitsOf k 2 0 ≤ 4) && (decide (bitsOf k 6 4 ≠ 4) || decide (bitsOf k 2 0 = 0))).map fun k => (c, k)

/-- Banks of a memory group with spares, and the repairs of a group by fuses and in the field (R418, R425). -/
def groupBanks (g : Nat) : List Nat := if 4 ≤ g ∧ g < 12 then (List.range 16).map (· + 16 * (g - 4)) else if g = 21 then [] else [128 + g]
def groupFused (g : Nat) : Nat := ((groupBanks g).map Config.sramFused).sum
def groupRepairs (s : State) (g : Nat) : Nat :=
  (s.memory.repairs.filter fun r => r.1 = g).length + (s.memory.fixes.filter fun x => x.1 = g && x.2.2).length

/-- The entries of page 0xC6. -/
def calEntries (s : State) : List (List Byte) :=
  ((boardLuns s).flatMap fun l => (List.range s.board.levels).map fun v =>
    calEntry 1 v l (unsigned 8 (levelF s l v)) (unsigned 8 (s.media.committed.getD (l * 16 + v) 0)) (unsigned 8 (levelBase s l v)) (unsigned 8 (levelT s l v))) ++
  (seedList.map fun e =>
    let k := e.1 * 256 + e.2
    calEntry 2 e.2 e.1 (Config.seedFactory k).toNat (unsigned 8 (s.memory.seedSaved.getD k 0)) (trainedSeed s k) 0) ++
  ((List.range 16).map fun i =>
    calEntry 3 0 i (Config.sensorFactory i).toNat (unsigned 8 (s.power.tsensSaved.getD i 0)) (unsigned 8 (sensorTrim s i)) 0) ++
  (((List.range 18).map (· + 4)).map fun g =>
    calEntry 4 0 g (groupFused g) (groupRepairs s g) (6 * (groupBanks g).length - groupFused g - groupRepairs s g) 0)

/-- Page 0xC6 in full, or its header alone. -/
def calPage (s : State) (f : Fn) : List Byte :=
  let es := if isManager f then calEntries s else []
  pageHeader s f 0xC6 (64 + 8 * es.length) es.length ++ leBytes 4 (if mediaUp s then s.board.readThreshold else 0) ++
  leBytes 4 (s.regFld rFtlRdThresh 23 0) ++ zeros 24 ++ es.flatten

/-- An event-log entry (R564). -/
def Event.bytes (e : Event) : List Byte :=
  leBytes 8 e.seq ++ leBytes 8 e.time ++ leBytes 1 e.type ++ leBytes 1 e.sub ++ leBytes 2 e.fn ++ leBytes 4 e.detail0.toNat ++ leBytes 8 e.detail1

/-- A page of one table: full, or the header and zeros up to the length of the page. -/
def fixedPage (s : State) (f : Fn) (page : Nat) (full : Bool) (body : List Byte) : List Byte :=
  if full then pageHeader s f page (32 + body.length) 0 ++ body else pageHeader s f page 32 0 ++ zeros body.length

/-- A vendor page in the reader's view. -/
def vendorPage (s : State) (f : Fn) (page : Nat) : List Byte :=
  match page with
  | 0xC0 => fixedPage s f page true (summaryBody s)
  | 0xC1 => fixedPage s f page true (errorBody s)
  | 0xC2 => fixedPage s f page true (temperatureBody s)
  | 0xC3 => fixedPage s f page (isManager f) (lifetimeBody s)
  | 0xC4 => listPage s f page ((badEntries s f).map BadEntry.bytes)
  | 0xC5 => listPage s f page ((faultEntries s f).map FaultEntry.bytes)
  | 0xC6 => calPage s f
  | _ => listPage s f page (if isManager f then s.health.events.map Event.bytes else [])

/-! ## Get Log Page (R451, R465) -/

/-- What a standard page holds; none for a page the G9 does not have. -/
def standardPage (s : State) (f : Fn) (lid : Nat) : Option (List Byte) :=
  match lid with
  | 0x00 => some supportedPage
  | 0x01 => some (errorPage s f)
  | 0x02 => some (smartPage s f)
  | 0x03 => some (firmwarePage s)
  | 0x05 => some (bytesOf 4096 (Config.logPage 0x05))
  | 0x80 => some (reservationPage (s.ctrl f))
  | 0x81 => some (sanitizePage s)
  | _ => none

/-- The events that reading a page with RAE 0 clears (R562; NVMe for the standard pages). -/
def clearedBy (lid : Nat) (e : Aen) : Bool :=
  if lid = 0xC4 then e = evBadLba else if lid = 0xC7 then e = evMode || e = evAlarm else if lid < 0xC0 then e.page = lid else false

/-- A page that was read: RAE 0 clears its events, and a reservation notification is taken. -/
def State.pageRead (s : State) (f : Fn) (lid : Nat) (rae : Bool) : State :=
  if rae then s
  else s.onCtrl f fun c =>
    { c with reported := c.reported.filter fun e => !clearedBy lid e, events := c.events.filter fun e => !clearedBy lid e,
             resLog := if lid = 0x80 then c.resLog.drop 1 else c.resLog }

/-- Bytes of a page from an offset, zero-filled past its end. -/
def State.pageOut (s : State) (w : Who) (lid : Nat) (page : List Byte) (offset bytes : Nat) (rae : Bool) : State :=
  if offset % 4 ≠ 0 ∨ page.length ≤ offset ∨ 2097152 < bytes then s.admin w stInvalidField 0
  else ((s.pageRead w.fn lid rae).dataOut w (slice page offset bytes)).admin w stOk 0

def execGetLogPage (w : Who) (lid nsid offset bytes : Nat) (rae : Bool) (lsp uuid : Nat) (s : State) : Host.Outcome State Fault Refusal :=
  .next (if s.adminReady w then
    if 0xC0 ≤ lid ∧ lid ≤ 0xC7 then
      if lsp ≠ 0 ∨ uuid ≠ 0 then s.admin w stInvalidField 0
      else
        let s1 := if lid = 0xC0 then s.noteSummary else s
        s1.pageOut w lid (vendorPage s1 w.fn lid) offset bytes rae
    else if lid = 0x02 ∧ nsid ≠ 0 ∧ nsid ≠ 0xFFFFFFFF then s.admin w stInvalidField 0
    else match standardPage s w.fn lid with
      | some page => s.pageOut w lid page offset bytes rae
      | none => s.admin w stInvalidLogPage 0
  else s)

end Sys2Proof.Machine
end

