-- ==== Sys2Proof/Machine/Sideband.lean ====
section
/-! DEFINITION. The management sideband (R467 to R469, R610) and SPDM (R521). Transports: 0 SMBus, 1 and 2 the PCIe VDM of
ports A and B, 3 and 4 the DOE mailboxes of ports A and B. The layouts that NVMe-MI and SPDM own are PRESUMED
(notes/assumptions/11.md). -/

namespace Sys2Proof.Machine

/-! ## Who asks, and what is answered -/

/-- A requester on a transport has the view of the port's manager function (R461, R467). -/
def sidebandFn (transport : Nat) : Fn := if transport = 2 ∨ transport = 4 then 256 else 0

/-- A message on a transport reaches the G9: SMBus while it has power, the others over their port's link. -/
def transportUp (s : State) (transport : Nat) : Bool :=
  s.sys.phase ≠ .off && (if transport = 0 then true else transport < 5 && (s.port (portOfFn (sidebandFn transport))).linkUp)

/-- The MCTP unit that a transport may be set to: the 64-byte baseline on SMBus, up to 1,024 bytes over VDM. -/
def mtuAllowed (transport n : Nat) : Bool := decide (64 ≤ n) && decide (n ≤ (if transport = 0 then 64 else 1024))

/-- The composite temperature byte of NVMe-MI in degrees, from quarter degrees. -/
def miTemp (t : Option Int) : Byte :=
  match t with
  | none => 0x80
  | some t => let d := t / 4; if 127 ≤ d then 0x7F else if d ≤ -60 then 0xC4 else BitVec.ofInt 8 d

/-- A DRAM channel failed its third training attempt (R404). -/
def dramFailed (s : State) : Bool := s.memory.chans.any fun e => !e.2.trained && decide (3 ≤ e.2.attempts)

/-- The status bits that a health poll takes of one controller: ready, fatal, shutdown. -/
def pollBits (c : Ctrl) : Nat := bitIf c.rdy 0 + bitIf c.cfs 1 + c.shst * 4

/-- NVM Subsystem Health: the drive functions and both links, the inverted warnings, temperature, wear, and the status bits of
every controller together. -/
def subsystemHealth (s : State) : List Byte :=
  let ccs := s.host.ctrls.foldl (fun n e => Nat.lor n (pollBits e.2)) 0
  leBytes 1 (bitIf (!dramFailed s) 5 + bitIf true 4 + bitIf (s.port .a).linkUp 3 + bitIf (s.port .b).linkUp 2) ++
    leBytes 1 (255 - criticalWarning s) ++ [miTemp (hottest s)] ++ leBytes 1 (wearUsed s) ++ leBytes 2 ccs ++ zeros 2

/-- Controller Health of one controller. -/
def controllerHealth (s : State) (f : Fn) : List Byte :=
  padTo 16 (leBytes 2 (controllerId f) ++ leBytes 2 (pollBits (s.ctrl f)) ++ leBytes 2 (kelvinOf (hottest s)) ++ leBytes 1 (wearUsed s) ++
    leBytes 1 (availSpare s) ++ leBytes 1 (criticalWarning s))

/-- An admin completion as a sideband response carries it: dwords 0, 1 and 3, and the data. -/
def tunnelled (dw0 : W32) (st : Status) (data : List Byte) : List Byte :=
  leBytes 4 dw0.toNat ++ zeros 4 ++ leBytes 4 (statusField st * 2 ^ 17) ++ data

/-- A tunnelled Get Features with Select 00b. -/
def tunnelFeature (s : State) (f : Fn) (fid : Nat) : SbAnswer :=
  if fid = 0xC0 then .data (tunnelled (modeDw0 s (modeCode s.power.requested) (modeCode s.power.effective)) stOk [])
  else if !knownFeature fid then .data (tunnelled 0 stInvalidField [])
  else match fid with
    | 0x07 => .data (tunnelled (queuesDw0 (s.ctrl f)) stOk [])
    | 0x0E => .data (tunnelled 0 stOk (timestampData s))
    | 0x81 => .data (tunnelled 1 stOk (padTo 16 (s.ctrl f).hostId))
    | 0x82 => .data (tunnelled 0 stInvalidNs [])
    | 0x83 => .data (tunnelled 0 stInvalidNs [])
    | _ => .data (tunnelled ((s.ctrl f).features.getD fid (featureDefault fid 0)) stOk [])

/-- The whole of a log page, as a manager function reads it. -/
def tunnelPage (s : State) (f : Fn) (lid : Nat) : SbAnswer :=
  if 0xC0 ≤ lid ∧ lid ≤ 0xC7 then .data (tunnelled 0 stOk (vendorPage s f lid))
  else match standardPage s f lid with
    | some page => .data (tunnelled 0 stOk page)
    | none => .data (tunnelled 0 stInvalidLogPage [])

/-- A tunnelled admin command: Identify, Get Log Page and Get Features only. -/
def tunnelAnswer (s : State) (f : Fn) (opcode arg : Nat) : SbAnswer :=
  match opcode with
  | 0x06 => match identifyData s f arg 0 with
    | .ok bs => .data (tunnelled 0 stOk bs)
    | .error st => .data (tunnelled 0 st [])
  | 0x02 => tunnelPage s f arg
  | 0x0A => tunnelFeature s f arg
  | _ => .invalidOpcode

/-- The five measurement blocks of R521: boot ROM, fuse configuration, FSL, main firmware, ledger head. -/
def measurementBlocks (s : State) : List (List Byte) :=
  let image := s.boot.image.getD FwImage.factory
  [bytesOf 48 Config.romDigest, bytesOf 48 Config.fuseDigest, image.fslMeas, image.fwMeas,
   match s.boot.ledger.getLast? with | some r => leBytes 8 r.seq ++ sha384 r.bytes | none => []]

/-- The measurements with the Alias key's ECDSA signature over them and the requester's nonce. -/
def measured (s : State) (nonce : List Byte) : SbAnswer :=
  let bs := measurementBlocks s
  .measurements (bs ++ [bytesOf 96 (Config.ecdsaSign s.aliasSecret (sha384 (nonce ++ bs.flatten)))])

/-- A standard SPDM request: version, capabilities, algorithms, digests, certificate, challenge, measurements, chunks. -/
def spdmAnswer (s : State) (code : Nat) (nonce : List Byte) : SbAnswer :=
  if code = 0xE0 then measured s nonce
  else if code = 0x82 then .data (Config.certificate 0 nonce)
  else if code = 0x84 ∨ code = 0xE1 ∨ code = 0xE3 ∨ code = 0x81 ∨ code = 0x83 ∨ code = 0x85 ∨ code = 0x86 then .data (Config.spdmAnswer code nonce)
  else .invalidOpcode

/-- The codes that NVMe-MI gives the three SMBus clocks. -/
def smbusCode (khz : Nat) : Nat := if khz = 1000 then 3 else if khz = 400 then 2 else 1

/-- The answer to a request. -/
def sbAnswer (s : State) (transport : Nat) : SbCmd → SbAnswer
  | .structure_ kind =>
    if kind = 2 then .data (controllerList (allControllers s))
    else if kind < 6 then .data (bytesOf 32 (Config.miStructure kind)) else .invalidParameter
  | .subsystemHealth => .data (subsystemHealth s)
  | .controllerHealth c =>
    match (fnsOf .a ++ fnsOf .b).find? fun f => s.fnExists f && decide (controllerId f = c) with
    | some f => .data (controllerHealth s f)
    | none => .invalidParameter
  | .configSet khz mtu =>
    if (khz.all fun k => k = 100 || k = 400 || k = 1000) && mtu.all (mtuAllowed transport) then .data [] else .invalidParameter
  | .configGet mtu => .data (if mtu then leBytes 2 (s.health.mtu.getD transport 64) else leBytes 1 (smbusCode s.health.smbusKhz))
  | .vpdRead offset length => if offset + length ≤ 256 then .data (Mem.readBytes s.health.vpd offset length) else .invalidParameter
  | .vpdWrite offset data => if offset + data.length ≤ 256 then .data [] else .invalidParameter
  | .tunnel opcode arg => tunnelAnswer s (sidebandFn transport) opcode arg
  | .spdm code nonce => spdmAnswer s code nonce
  | .ledgerGet seq count =>
    if 1 ≤ count ∧ count ≤ 4 then .data (recordBytes (ledgerFrom s (sidebandFn transport) seq count 1048576)) else .invalidParameter
  | .certMldsa => .data (Config.certificate 1 [])

/-- What a request changes: the two configuration values and the FRU area. -/
def State.sbEffect (s : State) (transport : Nat) (cmd : SbCmd) : State :=
  if sbAnswer s transport cmd = .invalidParameter then s
  else match cmd with
    | .configSet khz mtu => s.onHealth fun h =>
        { h with smbusKhz := khz.getD h.smbusKhz, mtu := match mtu with | some n => h.mtu.set transport n | none => h.mtu }
    | .vpdWrite offset data => s.onHealth fun h => { h with vpd := Mem.writeBytes h.vpd offset data }
    | _ => s

/-! ## The queue of a transport (R469) -/

/-- The firmware that answers runs: the G9 runs and is awake, or CTRL stands at a failed DRAM training (R404). -/
def sbServes (s : State) : Bool :=
  s.up .ctrl && ((s.running && s.power.effective ≠ .hibernate) || (s.sys.phase = .booting && dramFailed s))

/-- The requests that a transport holds. -/
def sbHeld (s : State) (transport : Nat) : List SbReq := s.health.sideband.filter fun q => decide (q.transport = transport)

/-- Answer one request. -/
def State.sbServe (s : State) (transport : Nat) (cmd : SbCmd) : State :=
  let s1 := if cmd = .tunnel 0x02 0xC0 then s.noteSummary else s
  (s1.sbEffect transport cmd).answer transport (sbAnswer s1 transport cmd)

/-- A request arrives: in HIBERNATE it wakes the G9; it is answered at once, or held behind the one under way and at most 4 in
all, or dropped and counted. -/
def State.sbArrive (s : State) (transport : Nat) (cmd : SbCmd) : State :=
  if transportUp s transport then
    let s1 := if s.power.effective = .hibernate ∧ s.power.waking.isNone ∧ s.running then s.onPower fun p => { p with waking := some .mctp } else s
    let held := (sbHeld s1 transport).length
    if sbServes s1 ∧ held = 0 then s1.sbServe transport cmd
    else if held < 5 then s1.onHealth fun h => { h with sideband := h.sideband ++ [⟨transport, false, cmd⟩] }
    else s1.addLife (lifeEvent 9) 1
  else s

/-- A transport of NVMe-MI: SMBus or VDM. -/
def State.miArrive (s : State) (transport : Nat) (cmd : SbCmd) : State := if transport < 3 then s.sbArrive transport cmd else s

/-- Take the oldest request of a transport out. -/
def State.sbDrop (s : State) (transport : Nat) : State :=
  match sbHeld s transport with
  | q :: _ => s.onHealth fun h => { h with sideband := h.sideband.erase q }
  | [] => s

/-- The oldest request of a transport that was held is answered once the firmware can. -/
def State.sbNext (s : State) (transport : Nat) : State :=
  match sbHeld s transport with
  | q :: _ => if sbServes s then (s.sbDrop transport).sbServe transport q.cmd else s
  | [] => s

/-! ## The commands -/

def execReadNvmeMiDataStructure (transport kind : Nat) (s : State) : Host.Outcome State Fault Refusal :=
  .next (s.miArrive transport (.structure_ kind))

def execNvmSubsystemHealthStatusPoll (transport : Nat) (s : State) : Host.Outcome State Fault Refusal :=
  .next (s.miArrive transport .subsystemHealth)

def execControllerHealthStatusPoll (transport controller : Nat) (s : State) : Host.Outcome State Fault Refusal :=
  .next (s.miArrive transport (.controllerHealth controller))

def execConfigurationSet (transport : Nat) (smbusFrequency mtu : Option Nat) (s : State) : Host.Outcome State Fault Refusal :=
  .next (s.miArrive transport (.configSet smbusFrequency mtu))

def execConfigurationGet (transport : Nat) (mtu : Bool) (s : State) : Host.Outcome State Fault Refusal :=
  .next (s.miArrive transport (.configGet mtu))

def execVpdRead (transport offset length : Nat) (s : State) : Host.Outcome State Fault Refusal :=
  .next (s.miArrive transport (.vpdRead offset length))

def execVpdWrite (transport offset : Nat) (data : List Byte) (s : State) : Host.Outcome State Fault Refusal :=
  .next (s.miArrive transport (.vpdWrite offset data))

def execTunnelledAdminCommand (transport opcode arg : Nat) (s : State) : Host.Outcome State Fault Refusal :=
  .next (s.miArrive transport (.tunnel opcode arg))

/-- The Basic Management Command is answered by AON, in every mode and without a wake. -/
def execBasicManagementCommand (s : State) : Host.Outcome State Fault Refusal :=
  .next (if s.sys.phase = .off then s else s.answer 0 (.basic (hottest s) (s.running && !dramFailed s)))

/-- The request under way passes 1 s without an answer: More Processing Required; then 10 s: Internal Error. -/
def execMiResponseTimeout (transport : Nat) (s : State) : Host.Outcome State Fault Refusal :=
  .next (match sbHeld s transport with
    | q :: _ =>
      if q.waited then (s.sbDrop transport).answer transport .internalError
      else (s.onHealth fun h =>
        { h with sideband := h.sideband.map fun x => if x = q then { q with waited := true } else x }).answer transport .moreProcessing
    | [] => s)

/-- SMB_CLK held low: the transaction is discarded. -/
def execSmbusTimeout (s : State) : Host.Outcome State Fault Refusal := .next (s.sbDrop 0)

def execSpdmRequest (transport code : Nat) (nonce : List Byte) (s : State) : Host.Outcome State Fault Refusal :=
  .next (s.sbArrive transport (.spdm code nonce))

def execLedgerGet (transport seq count : Nat) (s : State) : Host.Outcome State Fault Refusal :=
  .next (s.sbArrive transport (.ledgerGet seq count))

def execCertMldsa (transport : Nat) (s : State) : Host.Outcome State Fault Refusal := .next (s.sbArrive transport .certMldsa)

end Sys2Proof.Machine
end

