-- ==== Sys2Proof/Machine/Clock.lean ====
section
/-! DEFINITION. What the passing of time does: one 20-ns tick of the AON clock when no command waits
(notes/assumptions/7.md), and the 1 ms epoch. -/

namespace Sys2Proof.Machine

/-! ## The dispatcher's stall counts (R118) -/

/-- The queue that a task goes to has room. A PROGRAM task whose share holds no cluster in service has no queue to go to: which
stall cause holds it R118 does not say, and the model counts it under cause 3. DESIGN CHOICE (notes/assumptions/50.md). -/
def queueOpen (s : State) (f : Flow) (e : Task) (st : Stage) : Bool :=
  match fireQueue s f e st with
  | some q => decide (queueFillOf s st.cls q < queueRoom st.cls)
  | none => false

/-- The source of a flow has chunks left to issue. -/
def Flow.sourceOpen (f : Flow) : Bool := f.bound && !f.stopped && !f.lastIssued

/-- A task is held for one of the causes 2 to 6. -/
def taskHeld (s : State) (f : Flow) (cause : Nat) (e : Task) : Bool :=
  match cause with
  | 2 => asksCredit f e && decide (e.stage + 1 < Trail.sinkIx f.trail) && decide ((f.pools[e.stage]?).getD 1 = 0)
  | 3 => match firesToUnit s f e with | some st => !queueOpen s f e st | none => false
  | 4 => match firesToUnit s f e with | some st => queueOpen s f e st && makesOutput st && s.bufFree.isNone | none => false
  | 5 => !e.discard && e.expect.getLsbD 3 && !e.arrived.getLsbD 3 && e.arrived.getLsbD 0
  | 6 => decide (e.stage = Trail.sinkIx f.trail) && wantsGrant e
  | _ => false

/-- A flow is held for one of the causes 0 to 6. -/
def flowHeld (s : State) (cause flow : Nat) (f : Flow) : Bool :=
  (match cause with
   | 0 => f.sourceOpen && s.disp.sourcesStopped
   | 1 => f.sourceOpen && decide (Trail.credit f.trail ≤ f.issued - f.retired)
   | 2 => f.sourceOpen && decide (2 < Trail.count f.trail) && decide (f.pools.headD 0 = 0)
   | _ => false) || (s.disp.entries.any fun e => decide (e.flow = flow) && taskHeld s f cause e)

/-- At least one flow is held for a cause. -/
def causeHeld (s : State) (cause : Nat) : Bool :=
  if cause = 7 then s.disp.sourcesStopped && !s.disp.waiting.isEmpty else s.disp.flows.any fun e => flowHeld s cause e.1 e.2

/-- Count so many ticks, 32 ENGINE cycles each, for every cause that holds a flow as they begin. -/
def State.countStalls (s : State) (n : Nat) : State :=
  if dispatching s then iterate (fun k t => if causeHeld s k then t.addCnt (rDspStall k) (32 * n) else t) 8 s else s

/-! ## A tick -/

/-- A manager function's shutdown is complete once what it flushes has left. -/
def State.shutdownDone (s : State) (f : Fn) : State :=
  if (s.ctrl f).shst = 1 ∧ flushedOut s then s.onCtrl f fun c => { c with shst := 2 } else s

/-- The islands whose third bridge error within 1 ms a register access caused (R18). -/
def State.escalateBridges (s : State) : State :=
  [Island.host, .compute, .engine, .mem, .media0, .media1, .media2, .media3].foldl State.bridgeEscalate s

/-- One tick of the AON clock with no command: counts and laps advance, shutdowns and freezes that were waiting complete, held
sideband requests are answered, and units that run tasks fill their prefetch stages (R104). -/
def State.idle (s : State) : State :=
  if s.sys.phase = .off then s
  else
    let s0 := (((s.countStalls 1).passTime 1).escalateBridges).commitStep
    let s1 := if dispatching s0 then s0.prefetchFill else s0
    let s2 := (s1.shutdownDone 0).shutdownDone 256
    let s3 := (s2.host.ctrls.map (·.1)).foldl State.freezeCheck s2
    [0, 1, 2, 3, 4].foldl State.sbNext s3

/-! ## The epoch (R477, R478) -/

/-- The next 1 ms boundary of the real-time counter: VIN_EPOCH counts it, shares take effect, credits and write budgets
are recomputed. -/
def execEpochBoundary (s : State) : Host.Outcome State Fault Refusal :=
  .next (if s.running ∧ s.up .ctrl then
    let s1 := (s.countStalls (tMs - s.rtc % tMs)).passTime (tMs - s.rtc % tMs)
    let s2 := (s1.setReg rVinEpoch (s1.reg rVinEpoch + 1)).applyShares
    ((((s2.portCredits .a).portCredits .b).spareUpdate).epochBudgets).commitStep
  else s)

end Sys2Proof.Machine
end

