-- ==== Sys2Proof/Machine/Harts.lean ====
section
/-! DEFINITION. The meanings of the compute harts: the monitor calls, the end of a task and its write-back, faults, the
budget, and the resets of a hart (R128 to R136, R151 to R155). -/

namespace Sys2Proof.Machine

/-! ## Kernels -/

/-- The kernel that runs on a hart, waiting in no search. -/
def runningKernel (s : State) (h : Nat) : Option Kernel :=
  if computing s ∧ h < 64 then match (s.hart h).kernel with
    | some k => if k.phase = .run ∧ k.search.isNone then some k else none
    | none => none
  else none

/-- A monitor call is counted as it is made (R151); one that waits is counted once. -/
def State.callMade (s : State) (h : Nat) (k : Kernel) : State :=
  if k.calling then s else (s.addCnt (rHrtCount 3) 1).onKernel h fun k => { k with calling := true }

/-- A call returns its results (R128). -/
def State.callReturns (s : State) (h : Nat) (a0 a1 : Option W64) : State :=
  s.onKernel h fun k => { k.results a0 a1 with calling := false, search := none }

/-- The error codes of R129. -/
def errInvalid : W64 := BitVec.ofInt 64 (-1)
def errBusy : W64 := BitVec.ofInt 64 (-2)
def errDenied : W64 := BitVec.ofInt 64 (-3)
def errNotFound : W64 := BitVec.ofInt 64 (-4)
def errRefused : W64 := BitVec.ofInt 64 (-5)

/-- The kernel record of a running kernel. -/
def State.recordOfKernel (s : State) (k : Kernel) : Option KernelRec := (s.taskKernel k.task).map (·.1)

/-! ## Failures (R134) -/

/-- The cause, CODE and FAULT_ADDR with which what a kernel's instruction meets ends its task; an access that its windows allow,
and a call of R128, end nothing. -/
def trapCause (s : State) (k : Kernel) : KernelTrap → Option (Nat × W32 × W64)
  | .access kind addr len => match s.taskProgram k.task with
    | some (m, r, _) => (accessCause m r kind addr len).map fun c => (c, 0, BitVec.ofNat 64 addr)
    | none => none
  | .illegal w => some (4, w, 0)
  | .ebreak => some (5, 0, 0)
  | .ecall n => if n.toNat ≤ 4 then none else some (6, 0, 0)
  | .poisoned a => some (10, 0, a)

def execKernelFault (hart : Nat) (run : KernelRun) (trap : KernelTrap) (s : State) : Host.Outcome State Fault Refusal :=
  .next (match runningKernel s hart with
    | some k => match trapCause s k trap with
      | some (c, code, addr) => (s.kernelRuns hart run).kernelFails hart k c code run.regs.pc addr
      | none => s
    | none => s)

/-- The FAIL call: its code is in a0. -/
def execFail (hart : Nat) (run : KernelRun) (s : State) : Host.Outcome State Fault Refusal :=
  .next (match runningKernel s hart with
    | some k => (s.callMade hart k).kernelFails hart k 7 ((regX run.regs 10).setWidth 32) run.regs.pc 0
    | none => s)

/-! ## EXIT (R131, R132) -/

/-- The payload length of a kernel that declares `outLen` and wrote up to `high`; none where the check fails. -/
def exitLength (r : KernelRec) (rs outLen high : Nat) : Option Nat :=
  if r.outWindow < outLen ∨ (r.outRecords ∧ outLen % rs ≠ 0) then none
  else
    let p := Nat.min outLen high
    some (if r.outRecords then p / rs * rs else p)

/-- The bytes 0 to n − 1 of a kernel's output window: a line that it has not written reads as 0 (R124). -/
def outputBytes (k : Kernel) (n : Nat) : List Byte :=
  (List.range n).map fun i => (Tbl.getD k.lines ((Window.output.base + i) / 64) []).getD ((Window.output.base + i) % 64) 0

/-- EXIT: its argument out_len is in a0. The budget stops, the length is checked against the high-water mark, and the write-back
of the declared output range begins. -/
def execExit (hart : Nat) (run : KernelRun) (s : State) : Host.Outcome State Fault Refusal :=
  .next (match runningKernel s hart with
    | none => s
    | some k0 => match s.recordOfKernel k0, s.flow k0.task.flow with
      | some r, some f =>
        let s1 := (s.kernelRuns hart run).callMade hart k0
        match (s1.hart hart).kernel with
        | none => s1
        | some k =>
          let outLen := (regX run.regs 10).toNat
          match exitLength r f.trail.recordSize outLen k.high with
          | none => s1.kernelFails hart k 8 0 run.regs.pc 0
          | some p =>
            let s2 := if outLen = k.high then s1 else s1.mismatch k.task.flow k.task.stage outLen k.high
            s2.onKernel hart fun k => { k with phase := .writeback (outputBytes k p) (usedTicks s k) }
      | _, _ => s)

/-- A dirty line of the declared output range is lost during its write-back (R131, R136). -/
def outputLost (s : State) (hart n : Nat) (lost : Option Nat) : Option Nat :=
  match lost with
  | some a => if Window.output.base ≤ a ∧ a < Window.output.base + n ∧ lineDirty s hart (a / 64) then some a else none
  | none => none

/-- The write-back is complete: the hart has ended the task and the data token goes on. A dirty output line that cannot be
corrected, at the address `lost`, fails the task (R136). A kernel that its budget stopped only ends. -/
def execKernelWritebackDone (hart : Nat) (lost : Option Nat) (s : State) : Host.Outcome State Fault Refusal :=
  .next (if computing s ∧ hart < 64 then match (s.hart hart).kernel with
    | some k => match k.phase with
      | .run => s
      | .stopping => s.kernelStops hart k
      | .writeback bs _ => match outputLost s hart bs.length lost with
        | some a => s.kernelFails hart k 10 0 k.regs.pc (BitVec.ofNat 64 a)
        | none => ((s.addCnt (rHrtCount 0) 1).endKernel hart).emit k.task { bytes := bs, sealed := none } false
    | none => s
  else s)

/-! ## The other calls (R128 to R130) -/

def execBudgetLeft (hart : Nat) (run : KernelRun) (s : State) : Host.Outcome State Fault Refusal :=
  .next (match runningKernel s hart with
    | some k => ((s.kernelRuns hart run).callMade hart k).callReturns hart
        (some (BitVec.ofNat 64 ((k.budget * tUs - usedTicks s k) / tUs))) none
    | none => s)

/-- What LYNX_SEARCH finds wrong with its arguments, or the table and the key that it searches for: the flag, the length, the
key in readable windows, the table (R129). -/
def searchAsk (s : State) (k : Kernel) (f : Flow) (m : Module) (r : KernelRec) (table addr len : Nat) : Except W64 (Nat × List Byte) :=
  if !r.mayLynx then .error errDenied
  else if len ≠ 8 ∧ len ≠ 16 ∧ len ≠ 32 then .error errInvalid
  else match kernelRead s m r k addr len with
    | none => .error errInvalid
    | some key => match tableOf s f.owner table with
      | none => .error errNotFound
      | some x => if x.keyLen ≠ len then .error errInvalid else .ok (table, key)

/-- LYNX_SEARCH: the table is in a0, the key address in a1, its length in a2; the search waits for the LYNX queue. -/
def execLynxSearch (hart : Nat) (run : KernelRun) (s : State) : Host.Outcome State Fault Refusal :=
  .next (match runningKernel s hart with
    | none => s
    | some k0 => match s.taskProgram k0.task, s.flow k0.task.flow with
      | some (m, r, _), some f =>
        let s1 := (s.kernelRuns hart run).callMade hart k0
        match (s1.hart hart).kernel with
        | none => s1
        | some k => match searchAsk s1 k f m r (regX run.regs 10).toNat (regX run.regs 11).toNat (regX run.regs 12).toNat with
          | .error e => s1.callReturns hart (some e) none
          | .ok q => s1.onKernel hart fun k => { k with search := some q }
      | _, _ => s)

/-- A kernel's search ends without a result: its task fails, and no fault is logged (R363). -/
def State.searchFails (s : State) (h : Nat) (k : Kernel) (st : Status) : State :=
  (s.endKernel h).failTask k.task st

/-- A call's search of a copy: its result word, or none for SEARCH_PARITY (R357, R364). -/
def State.searchCall (s : State) (table copy : Nat) (soft : List SoftEntry) (key : List Byte) : State × Option Nat :=
  let s1 := s.lynxSoft table copy soft
  match s1.lynxTable table with
  | none => (s1, none)
  | some x => ((s1.searchOnce table copy x key).1, (s1.searchOnce table copy x key).2.word)

/-- The search of a kernel is made, once the LYNX queue and a copy of the table take it, and its result word returned. -/
def execLynxSearchReturn (hart : Nat) (seen : UnitSeen) (s : State) : Host.Outcome State Fault Refusal :=
  .next (if computing s ∧ hart < 64 ∧ queueFillOf s .lynx 0 < queueRoom .lynx ∧ !s.lynx.restoring then
    match (s.hart hart).kernel with
    | some k => match k.search, k.phase with
      | some (table, key), .run => match seen, s.lynxTable table with
        | .error st, _ => s.searchFails hart k st
        | _, none => s.callReturns hart (some errNotFound) none
        | e, some x =>
          match freeCopy s table x.copies fun t => (s.taskStage t).any Stage.isInsert with
          | none => s
          | some c =>
            if x.faulted then s.searchFails hart k stSearchParity
            else
              let (s1, a) := s.searchCall table c (softOf e) key
              match a with
              | some w => s1.callReturns hart (some (BitVec.ofNat 64 w)) none
              | none => s1.searchFails hart k stSearchParity
      | _, _ => s
    | none => s
  else s)

/-- The descriptor lies 64-byte aligned in the scratch window. -/
def inScratch (r : KernelRec) (addr len : Nat) : Bool :=
  addr % 64 = 0 && decide (Window.scratch.base ≤ addr) && decide (addr + len ≤ Window.scratch.base + r.scratch)

/-- TRAIL_SUBMIT: the descriptor's address is in a0, its length in a1; the G9 copies it from the scratch window. A descriptor that
is misaligned or not wholly in the scratch window R129 gives INVALID (an argument out of range) or, by R130, REFUSED: the model
returns INVALID. A kernel's call while the shared pool has stopped sources is BUSY, for R106 then binds no context and R129
names no other code. A reload or a nonce write that admission needs keeps the call waiting. DEDUCED (notes/assumptions/51.md). -/
def execKernelTrailSubmit (hart : Nat) (run : KernelRun) (hv : HostView) (s : State) : Host.Outcome State Fault Refusal :=
  .next (match runningKernel s hart with
    | none => s
    | some k0 => match s.taskProgram k0.task, s.flow k0.task.flow with
      | some (m, r, _), some f =>
        let s1 := (s.kernelRuns hart run).callMade hart k0
        let addr := (regX run.regs 10).toNat
        let len := (regX run.regs 11).toNat
        match (s1.hart hart).kernel with
        | none => s1
        | some k =>
          if !r.maySubmit then s1.callReturns hart (some errDenied) none
          else if !inScratch r addr len then s1.callReturns hart (some errInvalid) none
          else
            let desc := (List.range len).map fun i => kernelByte s1 m k (addr + i)
            let checked : Except Refused Checked := match checkDescriptor s1 f.owner true len desc with
              | .error e => .error e
              | .ok t => checkTrail s1 f.owner hv t
            match checked with
            | .error e => (s1.countRefused e).callReturns hart (some errRefused) (some (BitVec.ofNat 64 (statusWord e.st)))
            | .ok c =>
              if contextWait s1 f.owner then s1.callReturns hart (some errBusy) none
              else if hmacWait s1 c.trail ∨ nonceWait s1 c.trail then s1.startNonceWrite c.trail
              else
                let (s2, id) := s1.bindTrail f.owner c none
                s2.callReturns hart (some (id.setWidth 64)) none
      | _, _ => s)

/-! ## The budget and the stop of a hart (R133, R136, R523) -/

/-- The budget is used up: the task fails with PROGRAM_BUDGET, and the hart has 10 µs to stop. A task in its write-back has
retired EXIT, which governs. The registers' pc is that of the instruction the stop interrupts. -/
def execBudgetExpiry (hart : Nat) (run : KernelRun) (s : State) : Host.Outcome State Fault Refusal :=
  .next (if computing s ∧ hart < 64 then match (s.hart hart).kernel with
    | some k =>
      if k.phase = .run then
        let s1 := (((s.kernelRuns hart run).logFault hart k 9 0 run.regs.pc 0).addCnt (rHrtCount 1) 1).recordEsc 0 .compute hart 1
        (s1.onKernel hart fun k => { k with phase := .stopping, search := none }).failFlow k.task.flow k.task.chunk k.task.stage stProgramBudget
      else s
    | none => s
  else s)

/-- The hart has not stopped: it is reset alone. -/
def execHartStopTimeout (hart : Nat) (s : State) : Host.Outcome State Fault Refusal :=
  .next (if computing s ∧ hart < 64 then match (s.hart hart).kernel with
    | some k => if k.phase = .stopping then (s.kernelStops hart k).l1Hart hart 2 else s
    | none => s
  else s)

/-- The reset of a hart does not complete. -/
def execHartResetTimeout (hart : Nat) (s : State) : Host.Outcome State Fault Refusal :=
  .next (if computing s ∧ hart < 64 ∧ (s.hart hart).resetting then s.hartResetFails hart else s)

end Sys2Proof.Machine
end

