-- ==== Sys2Proof/Machine/Registers.lean ====
section
/-! DEFINITION. The meanings of the register commands: reads with their latches, writes by width and alignment, CLR_COUNTERS,
LOCK and the write-one-to-clear records (R5 to R7, R573 to R579, R584, R585). -/

namespace Sys2Proof.Machine

/-! ## Reads (R574 to R576, R584) -/

/-- An access of a requester arrives where it is answered: a manager's or firmware's in BAR2, a function's own in its BAR0. The
MSI-X range is in HOST. -/
def State.arrives (s : State) (r : Requester) (off : Nat) : Bool :=
  match r with
  | .vf f => s.fnExists f && s.up .host && (s.port (portOfFn f)).linkUp && decide (off < 0x8000)
  | .security => digestPortReg off
  | _ => s.hostReaches r && decide (off < 0x4000000)

/-- The register at an offset answers an access that has arrived. -/
def State.answers (s : State) (r : Requester) (off : Nat) : Bool :=
  match r with
  | .vf _ => s.up .ctrl
  | _ => decide (0x3000000 ≤ off) || s.barReaches r off

/-- Keep the upper half of a pair for a requester (R576). -/
def State.latch (s : State) (r : Requester) (off : Nat) (v : W32) : State :=
  s.onRegs fun g => match r with
    | .portA => { g with latchA := g.latchA.set off v }
    | .portB => { g with latchB := g.latchB.set off v }
    | .firmware _ => { g with latchF := g.latchF.set off v }
    | .security | .vf _ => g

/-- A read of BLD_ESC_LAST clears ESCALATION (R584). -/
def State.escRead (s : State) (off : Nat) : State :=
  if off = rBldEscLast then (s.onSys fun y => { y with escPending := false }).irq else s

/-- One 32-bit read: its value and its side effects. -/
def State.readWord (s : State) (r : Requester) (off : Nat) : W32 × State :=
  if s.answers r off then
    match r with
    | .vf f => (bar0Read s f off, s)
    | _ =>
      let s1 := match pairValue s off with | some v => s.latch r off (hiOf v) | none => s
      (regRead s r off, s1.escRead off)
  else (0xFFFFFFFF#32, s.barMiss r off)

/-- The bytes that a read of a width returns, and its side effects (R575). -/
def State.readBytes (s : State) (r : Requester) (off width : Nat) : List Byte × State :=
  if width = 8 ∧ off % 8 = 0 then
    let (lo, s1) := s.readWord r off
    let (hi, s2) := s1.readWord r (off + 4)
    (leBytes 4 lo.toNat ++ leBytes 4 hi.toNat, s2)
  else if (width = 1 ∨ width = 2 ∨ width = 4) ∧ off % width = 0 then
    let (v, s1) := s.readWord r (off / 4 * 4)
    (slice (leBytes 4 v.toNat) (off % 4) width, s1)
  else (List.replicate width 0xFF, s)

/-- A read command: the data goes back to the requester. -/
def State.regAccess (s : State) (r : Requester) (off width : Nat) : State :=
  if s.arrives r off then
    let (bs, s1) := s.readBytes r off width
    s1.onHost fun h => { h with sent := h.sent ++ [.regData r off bs] }
  else s

/-- A read of a register; a LO register latches its HI register for the requester (R576). -/
def execLoRegisterRead (r : Requester) (offset width : Nat) (s : State) : Host.Outcome State Fault Refusal :=
  .next (s.regAccess r offset width)

/-- A read of BLD_ESC_LAST (R530, R584). -/
def execBldEscLastRead (r : Requester) (width : Nat) (s : State) : Host.Outcome State Fault Refusal :=
  .next (s.regAccess r rBldEscLast width)

/-! ## Writes (R6, R575, R577) -/

/-- A dword of a function's MSI-X table; the mask bit of a vector control masks its vector, and clearing it is MSI_X_UNMASK's
(R585). -/
def State.msixWrite (s : State) (f : Fn) (o : Nat) (v : W32) : State :=
  if o / 4 % 4 = 3 then
    if bitAt v 0 then s.onCtrl f fun c => { c with unmasked := c.unmasked.filter fun x => x ≠ o / 16 } else s
  else s.onCtrl f fun c => { c with msixTable := Tbl.put 0 c.msixTable (o / 4) v }

/-- DMA_DESC_PTR: HI is kept, and the pair takes effect at the LO write, while BUSY and PAUSE are 0 (R400). -/
def State.dmaPtrWrite (s : State) (r : Requester) (n o : Nat) (v : W32) : State :=
  if dmaMayDrive s r n ∧ !dmaBusy s n ∧ !(s.chan n).pause then
    if o = 0x0C then s.onChan n fun c => { c with ptrHi := v &&& 0xFFFF#32 }
    else if o = 0x08 then s.onChan n fun c => { c with ptr := fld c.ptrHi 15 0 * 2 ^ 32 + v.toNat }
    else s
  else s

/-- The MED register of an offset, with its island. -/
def medReg (off : Nat) : Option (Nat × Nat) :=
  if 0xE00000 ≤ off ∧ off < 0xF00000 then some ((off - 0xE00000) / 0x40000, (off - 0xE00000) % 0x40000) else none

/-- The fields of a register without actions: those with a place of their own, then the RW, RWL and W1C fields. -/
def State.plainWrite (s : State) (r : Requester) (off : Nat) (v : W32) : State :=
  if rDgsExpect 0 ≤ off ∧ off < rDgsExpect 16 then if ownsPort s r then s.writeFields off v else s
  else if rDgsHmacBlob 0 ≤ off ∧ off < rDgsHmacBlob 34 then if hmacWritable s r (hmacSel s) then s.writeFields off v else s
  else if off = rLnxTblBanks then if lynxSelKv s then s else s.writeFields off v
  else if off = rMemSeedUser then s.seedWrite v
  else if off = rPwrTsensUser then s.sensorWrite v
  else if off = rDspThresh then (s.writeFields off v).poolUpdate
  else match medReg off with
    | some (n, 0x108) => s.stageOffset n v
    | _ =>
      let s1 := (s.writeFields off v).writeClears off v
      if off = rFtlRdThresh ∧ s1.reg off ≠ s.reg off then s1.bumpGen 0xC6 else s1

/-- A write of a control register with CLR_COUNTERS (R113 and the control registers of the other blocks). -/
def execClrCounters (r : Requester) (offset : Nat) (value : W32) (s : State) : Host.Outcome State Fault Refusal :=
  .next (match clrBit offset with
  | some b =>
    if !bitAt value b then s else if s.barReaches r offset then (s.ctlWrite offset value).irq else s.barMiss r offset
  | none => s)

/-- A write of a control register with LOCK: the fields of the same write are applied first (R7, R578). -/
def execLock (r : Requester) (offset : Nat) (value : W32) (s : State) : Host.Outcome State Fault Refusal :=
  .next (if !isCtl offset ∨ !bitAt value 31 then s
  else if s.barReaches r offset then
    let s1 := s.ctlWrite offset value
    (if offset = rTlmCtl ∧ bitAt value 0 then s1.beginLife else s1).irq
  else s.barMiss r offset)

/-! ## Records that clear together (R19, R349, R438, R585) -/

/-- TOP_BRIDGE_ERR_STATUS: VALID clears the record, OVERFLOW itself. -/
def execBridgeErrClear (r : Requester) (value : W32) (s : State) : Host.Outcome State Fault Refusal :=
  .next (if !s.barReaches r rBridgeErr then s.barMiss r rBridgeErr
  else if bitAt value 31 then (s.setReg rBridgeErr 0).irq
  else s.clearOnes rBridgeErr 0x40000000#32 value)

/-- RLE_ERR_STATUS: VALID clears the four registers, OVERFLOW itself. -/
def execRleErrClear (r : Requester) (value : W32) (s : State) : Host.Outcome State Fault Refusal :=
  .next (if !s.barReaches r rRleErr then s.barMiss r rRleErr
  else if bitAt value 31 then ((((s.setReg rRleErr 0).setReg rRleErrIn 0).setReg rRleErrOut 0).setReg rRleErrTrail 0).irq
  else s.clearOnes rRleErr 0x40000000#32 value)

/-- ECC_UE_STATUS: VALID clears the three registers, OVERFLOW itself. -/
def execEccUeClear (r : Requester) (value : W32) (s : State) : Host.Outcome State Fault Refusal :=
  .next (if !s.barReaches r rEccUeStatus then s.barMiss r rEccUeStatus
  else if bitAt value 31 then (((s.setReg rEccUeStatus 0).setReg rEccUeAddrLo 0).setReg rEccUeAddrHi 0).irq
  else s.clearOnes rEccUeStatus 0x40000000#32 value)

/-- TOP_IRQ_CFG of a port: a status bit that is already set may send its message now. -/
def execTopIrqCfgWrite (r : Requester) (port : Port) (value : W32) (s : State) : Host.Outcome State Fault Refusal :=
  .next (if s.barReaches r (rTopIrqCfg port) then (s.writeFields (rTopIrqCfg port) value).irq else s.barMiss r (rTopIrqCfg port))

/-! ## A write of any register (R6, R575, R577) -/

/-- The state that a meaning answers. -/
def stateAfter (s : State) : Host.Outcome State Fault Refusal → State
  | .next t => t
  | _ => s

/-- A write of a digest port register: the owner's RELEASE, and a CLAIM after it (R327), another requester's CLAIM, and the message
registers (R330, R331). The comparators compute what they compare: PORT_FINISH is the row where one does not. -/
def State.portWrite (s : State) (p : PortReq) (off : Nat) (v : W32) : State :=
  if off = rDgsClaim then
    if s.dgs.owner = some p then
      if bitAt v 1 then
        let s1 := stateAfter s (execRelease p s)
        if bitAt v 0 then stateAfter s1 (execClaim p s1) else s1
      else s
    else if bitAt v 0 then stateAfter s (execClaim p s) else s
  else if off = rDgsStart then stateAfter s (execPortStart p v s)
  else if off = rDgsData then stateAfter s (execPortData p v s)
  else stateAfter s (execPortFinish p v .agree s)

/-- A write of STR_RESHAPE_CTL: START acts on no reshape and ABORT on one (R265). -/
def State.reshapeWrite (s : State) (r : Requester) (v : W32) : State :=
  if s.str.reshape.active then stateAfter s (execReshapeAbort r v s)
  else if bitAt v 31 then stateAfter s (execReshapeStart r v s)
  else s.writeFields rStrReshapeCtl v

/-- A write of LNX_ENT_CMD. -/
def State.entryWrite (s : State) (r : Requester) (v : W32) : State :=
  if bitAt v 31 then stateAfter s (execLnxEntRead r v s)
  else if bitAt v 30 then stateAfter s (execLnxEntWrite r v s)
  else stateAfter s (execLnxEntDelete r v s)

/-- A write of a BAR2 register that has arrived: what its WO, W1S and W1C fields do, and its other fields (R6). -/
def State.fieldsWrite (s : State) (r : Requester) (off : Nat) (v : W32) : State :=
  if isCtl off then
    let s1 := s.ctlWrite off v
    if off = rTlmCtl ∧ bitAt v 0 then s1.beginLife else s1
  else if rDmaChan 0 ≤ off ∧ off < rDmaChan 64 then
    let n := (off - rDmaChan 0) / 0x40
    if (off - rDmaChan 0) % 0x40 = 0 then s.dmaCtlWrite r n v else s.dmaPtrWrite r n ((off - rDmaChan 0) % 0x40) v
  else if off = rDgsClaim ∨ off = rDgsStart ∨ off = rDgsData ∨ off = rDgsFinish then
    match portReqOf r with
    | some p => s.portWrite p off v
    | none => s
  else if off = rDgsHmacLoad then stateAfter s (if bitAt v 30 then execHmacClear r v s else execHmacLoad r v s)
  else if off = rLnxTblSel then stateAfter s (execLnxTblSelWrite r v s)
  else if off = rLnxTblCfg then
    if bitAt v 31 then stateAfter s (execDefine r v s)
    else if bitAt v 30 then stateAfter s (execUndefine r v s)
    else s.lynxStageCfg v
  else if off = rLnxEntCmd then s.entryWrite r v
  else if off = rStrReshapeCtl then s.reshapeWrite r v
  else if off = rEccInject then if bitAt v 31 then stateAfter s (execEccInjectArm r v s) else s.writeFields off v
  else if off = rBridgeErr then stateAfter s (execBridgeErrClear r v s)
  else if off = rRleErr then stateAfter s (execRleErrClear r v s)
  else if off = rEccUeStatus then stateAfter s (execEccUeClear r v s)
  else if off = rDmaErrStatus then stateAfter s (execDmaErrClear r v s)
  else if off = rLnxErr then stateAfter s (execLnxErrClear r v s)
  else match medReg off with
    | some (n, 0x10C) => stateAfter s (execUcalCommit r n v s)
    | _ => s.plainWrite r off v

/-- A write of a mailbox register; VIN_MBX_CTL sends and pops as it is asked (R498). -/
def State.mbxWrite (s : State) (f : Fn) (manager : Bool) (o : Nat) (v : W32) : State :=
  if o = 0x80 ∧ bitAt v 31 then stateAfter s (execSend f manager v s)
  else if o = 0x80 ∧ bitAt v 30 then stateAfter s (execPop f manager v s)
  else s.mailboxWrite f manager o v

/-- One 32-bit write: discarded where it is not taken (R16, R574). -/
def State.barWrite (s : State) (r : Requester) (off : Nat) (v : W32) : State :=
  if s.answers r off then
    match r with
    | .vf f =>
      if !isManager f ∧ 0x6000 ≤ off ∧ off < 0x6400 then s.msixWrite f (off - 0x6000) v
      else match mailboxOf s r off with
        | some (f, m, o) => s.mbxWrite f m o v
        | none => s
    | _ =>
      if 0x3000000 ≤ off then
        match requesterFn r with
        | some f => if off < 0x3008000 then s.msixWrite f (off - 0x3000000) v else s
        | none => s
      else match mailboxOf s r off with
        | some (f, m, o) => s.mbxWrite f m o v
        | none => (s.fieldsWrite r off v).irq
  else s.barMiss r off

/-- A write of a width: 32 bits, or 64 bits as two, the higher address first; every other is discarded (R575). -/
def execRegisterWrite (r : Requester) (offset width : Nat) (value : W64) (s : State) : Host.Outcome State Fault Refusal :=
  .next (if !s.arrives r offset then s
  else if width = 4 ∧ offset % 4 = 0 then s.barWrite r offset (loOf value.toNat)
  else if width = 8 ∧ offset % 8 = 0 then (s.barWrite r (offset + 4) (hiOf value.toNat)).barWrite r offset (loOf value.toNat)
  else s)

end Sys2Proof.Machine
end

