-- ==== Sys2Proof/Machine/Dispatch.lean ====
section
/-! DEFINITION. One arm per command: the meaning of each row of spec/opcode_table.json. -/

namespace Sys2Proof.Machine

/-- The effect of a command on everything but the queue. -/
def exec (i : Instr) (s : State) : Host.Outcome State Fault Refusal :=
  match i with
  | .bridgeTimeout target source req => Sys2Proof.Machine.execBridgeTimeout target source req s
  | .setFeaturesMode w save cdw11 => Sys2Proof.Machine.execSetFeaturesMode w save cdw11 s
  | .getFeaturesMode w select => Sys2Proof.Machine.execGetFeaturesMode w select s
  | .modeTransitionDone => Sys2Proof.Machine.execModeTransitionDone s
  | .thermalSample raw => Sys2Proof.Machine.execThermalSample raw s
  | .sprintTick ilimN => Sys2Proof.Machine.execSprintTick ilimN s
  | .sprintLimit => Sys2Proof.Machine.execSprintLimit s
  | .ilimNAssert => Sys2Proof.Machine.execIlimNAssert s
  | .hibernateEntryDone => Sys2Proof.Machine.execHibernateEntryDone s
  | .wakeEvent cause => Sys2Proof.Machine.execWakeEvent cause s
  | .wakeReady => Sys2Proof.Machine.execWakeReady s
  | .trailSubmit w descLen slm addr hv => Sys2Proof.Machine.execTrailSubmit w descLen slm addr hv s
  | .trailAdmissionResume w => Sys2Proof.Machine.execTrailAdmissionResume w s
  | .trailQuery w trailId wait => Sys2Proof.Machine.execTrailQuery w trailId wait s
  | .trailQueryWaitExpiry w => Sys2Proof.Machine.execTrailQueryWaitExpiry w s
  | .trailCancel w trailId => Sys2Proof.Machine.execTrailCancel w trailId s
  | .chunkIssue flow hv => Sys2Proof.Machine.execChunkIssue flow hv s
  | .trailEnd flow seen => Sys2Proof.Machine.execTrailEnd flow seen s
  | .creditGrant flow stage cslot => Sys2Proof.Machine.execCreditGrant flow stage cslot s
  | .sinkGrant flow cslot => Sys2Proof.Machine.execSinkGrant flow cslot s
  | .taskFire flow stage cslot seen => Sys2Proof.Machine.execTaskFire flow stage cslot seen s
  | .unitTaskStart cls unit => Sys2Proof.Machine.execUnitTaskStart cls unit s
  | .taskComplete flow stage cslot hv seen => Sys2Proof.Machine.execTaskComplete flow stage cslot hv seen s
  | .engineWatchdogExpiry cls unit => Sys2Proof.Machine.execEngineWatchdogExpiry cls unit s
  | .orphanCheck => Sys2Proof.Machine.execOrphanCheck s
  | .squirrelFill hart => Sys2Proof.Machine.execSquirrelFill hart s
  | .hartTaskStart hart => Sys2Proof.Machine.execHartTaskStart hart s
  | .exit hart run => Sys2Proof.Machine.execExit hart run s
  | .kernelWritebackDone hart lost => Sys2Proof.Machine.execKernelWritebackDone hart lost s
  | .fail hart run => Sys2Proof.Machine.execFail hart run s
  | .budgetLeft hart run => Sys2Proof.Machine.execBudgetLeft hart run s
  | .lynxSearch hart run => Sys2Proof.Machine.execLynxSearch hart run s
  | .lynxSearchReturn hart seen => Sys2Proof.Machine.execLynxSearchReturn hart seen s
  | .kernelTrailSubmit hart run hv => Sys2Proof.Machine.execKernelTrailSubmit hart run hv s
  | .kernelFault hart run trap => Sys2Proof.Machine.execKernelFault hart run trap s
  | .budgetExpiry hart run => Sys2Proof.Machine.execBudgetExpiry hart run s
  | .hartStopTimeout hart => Sys2Proof.Machine.execHartStopTimeout hart s
  | .hartResetTimeout hart => Sys2Proof.Machine.execHartResetTimeout hart s
  | .moduleLoad w cdw10 cdw11 received => Sys2Proof.Machine.execModuleLoad w cdw10 cdw11 received s
  | .enroll w cdw10 data => Sys2Proof.Machine.execEnroll w cdw10 data s
  | .moduleMeasureDone => Sys2Proof.Machine.execModuleMeasureDone s
  | .moduleSignatureDone => Sys2Proof.Machine.execModuleSignatureDone s
  | .moduleUnload w module force => Sys2Proof.Machine.execModuleUnload w module force s
  | .moduleRemove module => Sys2Proof.Machine.execModuleRemove module s
  | .clusterEnWrite r value => Sys2Proof.Machine.execClusterEnWrite r value s
  | .channelTrainDone channel pass => Sys2Proof.Machine.execChannelTrainDone channel pass s
  | .targetTempPoll channel temps => Sys2Proof.Machine.execTargetTempPoll channel temps s
  | .channelRetrainDone channel pass => Sys2Proof.Machine.execChannelRetrainDone channel pass s
  | .suspendDone lun => Sys2Proof.Machine.execSuspendDone lun s
  | .suspendBudgetExpiry lun => Sys2Proof.Machine.execSuspendBudgetExpiry lun s
  | .writeAgeExpiry lun internalRead => Sys2Proof.Machine.execWriteAgeExpiry lun internalRead s
  | .senseDone lun => Sys2Proof.Machine.execSenseDone lun s
  | .codewordDecodeDone lun cw res => Sys2Proof.Machine.execCodewordDecodeDone lun cw res s
  | .ladderDeadlineExpiry lun cw => Sys2Proof.Machine.execLadderDeadlineExpiry lun cw s
  | .firstSenseDeadlineExpiry lun => Sys2Proof.Machine.execFirstSenseDeadlineExpiry lun s
  | .programDone lun ok => Sys2Proof.Machine.execProgramDone lun ok s
  | .eraseDone lun ok => Sys2Proof.Machine.execEraseDone lun ok s
  | .lunReadyTimeout lun => Sys2Proof.Machine.execLunReadyTimeout lun s
  | .ucalCommit r island value => Sys2Proof.Machine.execUcalCommit r island value s
  | .ucalCommitDone island ok => Sys2Proof.Machine.execUcalCommitDone island ok s
  | .systemAreaMoveDone copy => Sys2Proof.Machine.execSystemAreaMoveDone copy s
  | .nvmWrite w nsid slba nlb => Sys2Proof.Machine.execNvmWrite w nsid slba nlb s
  | .writeZeroes w nsid slba nlb => Sys2Proof.Machine.execWriteZeroes w nsid slba nlb s
  | .nvmRead w nsid slba nlb => Sys2Proof.Machine.execNvmRead w nsid slba nlb s
  | .datasetManagement w nsid deallocate ranges => Sys2Proof.Machine.execDatasetManagement w nsid deallocate ranges s
  | .flush w nsid => Sys2Proof.Machine.execFlush w nsid s
  | .compare w nsid slba nlb data => Sys2Proof.Machine.execCompare w nsid slba nlb data s
  | .verify w nsid slba nlb => Sys2Proof.Machine.execVerify w nsid slba nlb s
  | .writeAdmit => Sys2Proof.Machine.execWriteAdmit s
  | .writeDataDone w data => Sys2Proof.Machine.execWriteDataDone w data s
  | .slotFlushStart slot => Sys2Proof.Machine.execSlotFlushStart slot s
  | .stripeCloseTimeout band stripe => Sys2Proof.Machine.execStripeCloseTimeout band stripe s
  | .badgerVictimSelect => Sys2Proof.Machine.execBadgerVictimSelect s
  | .epochBoundary => Sys2Proof.Machine.execEpochBoundary s
  | .journalPageTimeout => Sys2Proof.Machine.execJournalPageTimeout s
  | .mapSegmentTimeout segment => Sys2Proof.Machine.execMapSegmentTimeout segment s
  | .mapSegmentRebuildDone segment => Sys2Proof.Machine.execMapSegmentRebuildDone segment s
  | .rebuildBandStart => Sys2Proof.Machine.execRebuildBandStart s
  | .dumpComplete => Sys2Proof.Machine.execDumpComplete s
  | .reshapeStart r value => Sys2Proof.Machine.execReshapeStart r value s
  | .reshapeAbort r value => Sys2Proof.Machine.execReshapeAbort r value s
  | .reshapeRegionBegin => Sys2Proof.Machine.execReshapeRegionBegin s
  | .getImportKey w => Sys2Proof.Machine.execGetImportKey w s
  | .importKeyExpiry importId => Sys2Proof.Machine.execImportKeyExpiry importId s
  | .importKey w data => Sys2Proof.Machine.execImportKey w data s
  | .generate w slot use => Sys2Proof.Machine.execGenerate w slot use s
  | .clear w slot use => Sys2Proof.Machine.execClear w slot use s
  | .restore w => Sys2Proof.Machine.execRestore w s
  | .slotStatus w => Sys2Proof.Machine.execSlotStatus w s
  | .opalSecuritySend w protocol method => Sys2Proof.Machine.execOpalSecuritySend w protocol method s
  | .opalSecurityReceive w protocol => Sys2Proof.Machine.execOpalSecurityReceive w protocol s
  | .genkey nsid range => Sys2Proof.Machine.execGenkey nsid range s
  | .nonceLogWriteDone slot => Sys2Proof.Machine.execNonceLogWriteDone slot s
  | .alarm cause => Sys2Proof.Machine.execAlarm cause s
  | .claim r => Sys2Proof.Machine.execClaim r s
  | .release r => Sys2Proof.Machine.execRelease r s
  | .portOwnerTimeout => Sys2Proof.Machine.execPortOwnerTimeout s
  | .portStart r value => Sys2Proof.Machine.execPortStart r value s
  | .portData r word => Sys2Proof.Machine.execPortData r word s
  | .portBlockAbsorbed => Sys2Proof.Machine.execPortBlockAbsorbed s
  | .portFinish r value seen => Sys2Proof.Machine.execPortFinish r value seen s
  | .hmacLoad r value => Sys2Proof.Machine.execHmacLoad r value s
  | .hmacLoadDone => Sys2Proof.Machine.execHmacLoadDone s
  | .hmacClear r value => Sys2Proof.Machine.execHmacClear r value s
  | .hmacReloadDone slot => Sys2Proof.Machine.execHmacReloadDone slot s
  | .define r value => Sys2Proof.Machine.execDefine r value s
  | .undefine r value => Sys2Proof.Machine.execUndefine r value s
  | .lnxTblSelWrite r value => Sys2Proof.Machine.execLnxTblSelWrite r value s
  | .lnxEntRead r value => Sys2Proof.Machine.execLnxEntRead r value s
  | .lnxEntWrite r value => Sys2Proof.Machine.execLnxEntWrite r value s
  | .lnxEntDelete r value => Sys2Proof.Machine.execLnxEntDelete r value s
  | .lynxCompareStep table index seen => Sys2Proof.Machine.execLynxCompareStep table index seen s
  | .lynxLapComplete durationUs => Sys2Proof.Machine.execLynxLapComplete durationUs s
  | .lapTargetExceeded => Sys2Proof.Machine.execLapTargetExceeded s
  | .lynxReloadDone => Sys2Proof.Machine.execLynxReloadDone s
  | .arm r channel value => Sys2Proof.Machine.execArm r channel value s
  | .dmaPause r channel value => Sys2Proof.Machine.execDmaPause r channel value s
  | .dmaResume r channel value => Sys2Proof.Machine.execDmaResume r channel value s
  | .dmaPauseDrained channel moved hv => Sys2Proof.Machine.execDmaPauseDrained channel moved hv s
  | .dmaOwnerWrite r channel value => Sys2Proof.Machine.execDmaOwnerWrite r channel value s
  | .dmaDescPtrWrite r channel value => Sys2Proof.Machine.execDmaDescPtrWrite r channel value s
  | .dmaDescriptorDone channel hv => Sys2Proof.Machine.execDmaDescriptorDone channel hv s
  | .dmaPaceResume channel => Sys2Proof.Machine.execDmaPaceResume channel s
  | .dmaBusError channel code addr moved hv => Sys2Proof.Machine.execDmaBusError channel code addr moved hv s
  | .descFetchError failing lastGrant addr => Sys2Proof.Machine.execDescFetchError failing lastGrant addr s
  | .dramTrainAttemptDone channel pass => Sys2Proof.Machine.execDramTrainAttemptDone channel pass s
  | .dqsRecentre channel sc => Sys2Proof.Machine.execDqsRecentre channel sc s
  | .zqCalibration channel sc => Sys2Proof.Machine.execZqCalibration channel sc s
  | .mr4Poll channel rate overRange => Sys2Proof.Machine.execMr4Poll channel rate overRange s
  | .refresh channel sc => Sys2Proof.Machine.execRefresh channel sc s
  | .memRequest port line write => Sys2Proof.Machine.execMemRequest port line write s
  | .memReadDone port line word seen held latencyNs => Sys2Proof.Machine.execMemReadDone port line word seen held latencyNs s
  | .owlRead group addr seen held last => Sys2Proof.Machine.execOwlRead group addr seen held last s
  | .pageRetireDone page => Sys2Proof.Machine.execPageRetireDone page s
  | .owlLapOverdue => Sys2Proof.Machine.execOwlLapOverdue s
  | .eccInjectArm r value => Sys2Proof.Machine.execEccInjectArm r value s
  | .portReset port => Sys2Proof.Machine.execPortReset port s
  | .perstAssert port => Sys2Proof.Machine.execPerstAssert port s
  | .perstDeassert port => Sys2Proof.Machine.execPerstDeassert port s
  | .linkTrained port rate width credits => Sys2Proof.Machine.execLinkTrained port rate width credits s
  | .pcieCompletionTimeout req => Sys2Proof.Machine.execPcieCompletionTimeout req s
  | .doorbellWrite fn qid isCq value => Sys2Proof.Machine.execDoorbellWrite fn qid isCq value s
  | .commandFetch fn sq cid => Sys2Proof.Machine.execCommandFetch fn sq cid s
  | .controllerEnable fn cc aqa asq acq => Sys2Proof.Machine.execControllerEnable fn cc aqa asq acq s
  | .controllerDisable fn => Sys2Proof.Machine.execControllerDisable fn s
  | .shutdownNotification fn abrupt => Sys2Proof.Machine.execShutdownNotification fn abrupt s
  | .nvmSubsystemReset by_ => Sys2Proof.Machine.execNvmSubsystemReset by_ s
  | .identify w cns nsid => Sys2Proof.Machine.execIdentify w cns nsid s
  | .getLogPage w lid nsid offset bytes rae lsp uuid => Sys2Proof.Machine.execGetLogPage w lid nsid offset bytes rae lsp uuid s
  | .setFeatures w fid nsid save cdw11 data => Sys2Proof.Machine.execSetFeatures w fid nsid save cdw11 data s
  | .getFeatures w fid nsid select cdw11 => Sys2Proof.Machine.execGetFeatures w fid nsid select cdw11 s
  | .createIoQueue w isCq qid size base cqid vector prio contiguous ien => Sys2Proof.Machine.execCreateIoQueue w isCq qid size base cqid vector prio contiguous ien s
  | .deleteIoQueue w isCq qid => Sys2Proof.Machine.execDeleteIoQueue w isCq qid s
  | .abort w sq cid => Sys2Proof.Machine.execAbort w sq cid s
  | .asynchronousEventRequest w => Sys2Proof.Machine.execAsynchronousEventRequest w s
  | .formatNvm w nsid ses lbaSize => Sys2Proof.Machine.execFormatNvm w nsid ses lbaSize s
  | .sanitize w crypto => Sys2Proof.Machine.execSanitize w crypto s
  | .firmwareImageDownload w offset data => Sys2Proof.Machine.execFirmwareImageDownload w offset data s
  | .firmwareCommitWrite w slot mldsaOk ecdsaOk => Sys2Proof.Machine.execFirmwareCommitWrite w slot mldsaOk ecdsaOk s
  | .firmwareCommitWritePending w slot mldsaOk ecdsaOk => Sys2Proof.Machine.execFirmwareCommitWritePending w slot mldsaOk ecdsaOk s
  | .firmwareCommitPending w slot => Sys2Proof.Machine.execFirmwareCommitPending w slot s
  | .namespaceCreate w spec => Sys2Proof.Machine.execNamespaceCreate w spec s
  | .namespaceDelete w nsid => Sys2Proof.Machine.execNamespaceDelete w nsid s
  | .namespaceResize w nsid nsze ncap => Sys2Proof.Machine.execNamespaceResize w nsid nsze ncap s
  | .namespaceAttachment w nsid attach controllers => Sys2Proof.Machine.execNamespaceAttachment w nsid attach controllers s
  | .reservationRegister w nsid action crkey nrkey iekey cptpl => Sys2Proof.Machine.execReservationRegister w nsid action crkey nrkey iekey cptpl s
  | .reservationAcquire w nsid action type crkey prkey => Sys2Proof.Machine.execReservationAcquire w nsid action type crkey prkey s
  | .reservationRelease w nsid clear type crkey => Sys2Proof.Machine.execReservationRelease w nsid clear type crkey s
  | .reservationReport w nsid => Sys2Proof.Machine.execReservationReport w nsid s
  | .kvStore w nsid key value mustExist mustNotExist => Sys2Proof.Machine.execKvStore w nsid key value mustExist mustNotExist s
  | .kvRetrieve w nsid key bufferBytes => Sys2Proof.Machine.execKvRetrieve w nsid key bufferBytes s
  | .kvDelete w nsid key => Sys2Proof.Machine.execKvDelete w nsid key s
  | .kvExist w nsid key => Sys2Proof.Machine.execKvExist w nsid key s
  | .kvList w nsid key => Sys2Proof.Machine.execKvList w nsid key s
  | .loadProgram w cdw10 cdw11 received => Sys2Proof.Machine.execLoadProgram w cdw10 cdw11 received s
  | .programActivationManagement w programId activate => Sys2Proof.Machine.execProgramActivationManagement w programId activate s
  | .executeProgram w programId rangeSet args => Sys2Proof.Machine.execExecuteProgram w programId rangeSet args s
  | .memoryRangeSetManagement w create setId ranges => Sys2Proof.Machine.execMemoryRangeSetManagement w create setId ranges s
  | .memoryRead w nsid offset length => Sys2Proof.Machine.execMemoryRead w nsid offset length s
  | .memoryWrite w nsid offset data => Sys2Proof.Machine.execMemoryWrite w nsid offset data s
  | .memoryCopy w nsid offset sources => Sys2Proof.Machine.execMemoryCopy w nsid offset sources s
  | .ledgerRead w seq count bufferBytes => Sys2Proof.Machine.execLedgerRead w seq count bufferBytes s
  | .getShare w fn bytes => Sys2Proof.Machine.execGetShare w fn bytes s
  | .setShare w fn bytes share => Sys2Proof.Machine.execSetShare w fn bytes share s
  | .assign w fn bytes entries => Sys2Proof.Machine.execAssign w fn bytes entries s
  | .getStatus w fn bytes => Sys2Proof.Machine.execGetStatus w fn bytes s
  | .getMigrationKey w fn bytes => Sys2Proof.Machine.execGetMigrationKey w fn bytes s
  | .migrationKeyExpiry fn => Sys2Proof.Machine.execMigrationKeyExpiry fn s
  | .setMigrationTarget w fn record => Sys2Proof.Machine.execSetMigrationTarget w fn record s
  | .migrateFreeze w fn => Sys2Proof.Machine.execMigrateFreeze w fn s
  | .thaw w fn => Sys2Proof.Machine.execThaw w fn s
  | .migrateSave w fn bufferBytes => Sys2Proof.Machine.execMigrateSave w fn bufferBytes s
  | .migrateRestore w fn bytes blob => Sys2Proof.Machine.execMigrateRestore w fn bytes blob s
  | .send fn fromManager value => Sys2Proof.Machine.execSend fn fromManager value s
  | .pop fn fromManager value => Sys2Proof.Machine.execPop fn fromManager value s
  | .functionLevelReset fn => Sys2Proof.Machine.execFunctionLevelReset fn s
  | .flrAbortDeadline fn => Sys2Proof.Machine.execFlrAbortDeadline fn s
  | .flrComplete fn => Sys2Proof.Machine.execFlrComplete fn s
  | .readNvmeMiDataStructure transport kind => Sys2Proof.Machine.execReadNvmeMiDataStructure transport kind s
  | .nvmSubsystemHealthStatusPoll transport => Sys2Proof.Machine.execNvmSubsystemHealthStatusPoll transport s
  | .controllerHealthStatusPoll transport controller => Sys2Proof.Machine.execControllerHealthStatusPoll transport controller s
  | .configurationSet transport smbusFrequency mtu => Sys2Proof.Machine.execConfigurationSet transport smbusFrequency mtu s
  | .configurationGet transport mtu => Sys2Proof.Machine.execConfigurationGet transport mtu s
  | .vpdRead transport offset length => Sys2Proof.Machine.execVpdRead transport offset length s
  | .vpdWrite transport offset data => Sys2Proof.Machine.execVpdWrite transport offset data s
  | .tunnelledAdminCommand transport opcode arg => Sys2Proof.Machine.execTunnelledAdminCommand transport opcode arg s
  | .basicManagementCommand => Sys2Proof.Machine.execBasicManagementCommand s
  | .miResponseTimeout transport => Sys2Proof.Machine.execMiResponseTimeout transport s
  | .smbusTimeout => Sys2Proof.Machine.execSmbusTimeout s
  | .spdmRequest transport code nonce => Sys2Proof.Machine.execSpdmRequest transport code nonce s
  | .ledgerGet transport seq count => Sys2Proof.Machine.execLedgerGet transport seq count s
  | .certMldsa transport => Sys2Proof.Machine.execCertMldsa transport s
  | .powerOn portSplit => Sys2Proof.Machine.execPowerOn portSplit s
  | .bootHoldXspiRelease => Sys2Proof.Machine.execBootHoldXspiRelease s
  | .trialConfirm => Sys2Proof.Machine.execTrialConfirm s
  | .trialReadyTimeout => Sys2Proof.Machine.execTrialReadyTimeout s
  | .ledgerAppendDone ok => Sys2Proof.Machine.execLedgerAppendDone ok s
  | .mgmtHartWatchdogExpiry => Sys2Proof.Machine.execMgmtHartWatchdogExpiry s
  | .rootWatchdogExpiry => Sys2Proof.Machine.execRootWatchdogExpiry s
  | .escalationBoundExpiry level island unit => Sys2Proof.Machine.execEscalationBoundExpiry level island unit s
  | .resetDone level island => Sys2Proof.Machine.execResetDone level island s
  | .pfailNFall => Sys2Proof.Machine.execPfailNFall s
  | .pfailHoldExpiry => Sys2Proof.Machine.execPfailHoldExpiry s
  | .railDroop rail => Sys2Proof.Machine.execRailDroop rail s
  | .resetNFall => Sys2Proof.Machine.execResetNFall s
  | .resetNRiseReboot portSplit => Sys2Proof.Machine.execResetNRiseReboot portSplit s
  | .tempHistoryTick => Sys2Proof.Machine.execTempHistoryTick s
  | .lifetimeWriteTimer => Sys2Proof.Machine.execLifetimeWriteTimer s
  | .flushLifetime r value => Sys2Proof.Machine.execFlushLifetime r value s
  | .lifetimeWriteDone => Sys2Proof.Machine.execLifetimeWriteDone s
  | .configAreaWriteDone => Sys2Proof.Machine.execConfigAreaWriteDone s
  | .clrCounters r offset value => Sys2Proof.Machine.execClrCounters r offset value s
  | .lock r offset value => Sys2Proof.Machine.execLock r offset value s
  | .bridgeErrClear r value => Sys2Proof.Machine.execBridgeErrClear r value s
  | .dmaErrClear r value => Sys2Proof.Machine.execDmaErrClear r value s
  | .rleErrClear r value => Sys2Proof.Machine.execRleErrClear r value s
  | .eccUeClear r value => Sys2Proof.Machine.execEccUeClear r value s
  | .lnxErrClear r value => Sys2Proof.Machine.execLnxErrClear r value s
  | .topIrqCfgWrite r port value => Sys2Proof.Machine.execTopIrqCfgWrite r port value s
  | .bldEscLastRead r width => Sys2Proof.Machine.execBldEscLastRead r width s
  | .loRegisterRead r offset width => Sys2Proof.Machine.execLoRegisterRead r offset width s
  | .registerWrite r offset width value => Sys2Proof.Machine.execRegisterWrite r offset width value s
  | .flowControlCreditReturn port credits => Sys2Proof.Machine.execFlowControlCreditReturn port credits s
  | .railsFall rails => Sys2Proof.Machine.execRailsFall rails s
  | .deallocationComplete nsid range => Sys2Proof.Machine.execDeallocationComplete nsid range s
  | .sanitizeComplete nsid => Sys2Proof.Machine.execSanitizeComplete nsid s
  | .keepAlive w => Sys2Proof.Machine.execKeepAlive w s
  | .keepAliveTimerExpiry fn => Sys2Proof.Machine.execKeepAliveTimerExpiry fn s
  | .msiXUnmask port fn vector => Sys2Proof.Machine.execMsiXUnmask port fn vector s

end Sys2Proof.Machine
end

