-- ==== Sys2Proof/Safety.lean ====
section
/-! DEFINITION. The words that claims about the G9 use: a command that completes, what it leaves unchanged, and the properties
that every step keeps. -/

namespace Sys2Proof.Machine

/-- The command completes: `exec` answers a next state, of which `P` holds. -/
def Completes (c : Instr) (s : State) (P : State → Prop) : Prop := ∃ t, exec c s = .next t ∧ P t

/-- The parts of the state; `firmware` is the part of `boot` that says what runs and what the fuses allow (R506). -/
inductive Part where
  | regs | sys | power | board | host | ns | ftl | media | str | sea | dgs | lynx | dma | disp | hrt | memory | boot | firmware | health | free | queue
  deriving DecidableEq, Repr

/-- One part is the same in two states. -/
def Part.same : Part → State → State → Prop
  | .regs, s, t => t.regs = s.regs
  | .sys, s, t => t.sys = s.sys
  | .power, s, t => t.power = s.power
  | .board, s, t => t.board = s.board
  | .host, s, t => t.host = s.host
  | .ns, s, t => t.ns = s.ns
  | .ftl, s, t => t.ftl = s.ftl
  | .media, s, t => t.media = s.media
  | .str, s, t => t.str = s.str
  | .sea, s, t => t.sea = s.sea
  | .dgs, s, t => t.dgs = s.dgs
  | .lynx, s, t => t.lynx = s.lynx
  | .dma, s, t => t.dma = s.dma
  | .disp, s, t => t.disp = s.disp
  | .hrt, s, t => t.hrt = s.hrt
  | .memory, s, t => t.memory = s.memory
  | .boot, s, t => t.boot = s.boot
  | .firmware, s, t => t.boot.image = s.boot.image ∧ t.boot.fuseSvn = s.boot.fuseSvn ∧ t.boot.revoked = s.boot.revoked
  | .health, s, t => t.health = s.health
  | .free, s, t => t.freeDraw = s.freeDraw
  | .queue, s, t => t.pending = s.pending

/-- Nothing changes but the parts listed. -/
def OnlyChanges (ps : List Part) (s t : State) : Prop := ∀ p, p ∉ ps → p.same s t

/-- The firmware that runs is valid (R506): its header and measurements match, both signatures verify under an authority that is
not revoked, and its security version is at or above the fuse counter. -/
def SecureFirmware (s : State) : Prop := ∀ i, s.boot.image = some i → imageValid s.boot i = true

end Sys2Proof.Machine
end

