-- ==== Sys2Proof/Certificates/Slice0/Obligations.lean ====
section
/-! DEFINITION. The statements for the provers, by the rules of spec/. -/

open Sys2Proof Sys2Proof.Machine

/-! ## Modes (R23 to R42, R535 to R542) -/

/-- R27 to R29: an accepted request of a manager function for another mode begins a transition, and a transition that ends makes its
target the effective mode; R365: SPRINT turns auto-verify on. R27: completion dword 0 of Get Features 0xC0, and its default. -/
def Obligations.ModeTransitions : Prop :=
  (∀ (s : State) (w : Who) (m : Mode), s.adminReady w = true → isManager w.fn = true → s.power.effective ≠ .hibernate →
    m ≠ .sprint → m ≠ .hibernate → s.power.effective ≠ m → s.power.emberAuto = false → s.power.transition = none →
    s.power.waiting = [] →
    Completes (.setFeaturesMode w false (w32 (modeCode m))) s fun t =>
      t.power = { s.power with requested := m, transition := some { target := m, cause := 0, rank := 7, who := some w } } ∧
      OnlyChanges [.power] s t) ∧
  (∀ (s : State) (x : Transition), s.running = true → s.power.transition = some x → x.target ≠ .hibernate → s.power.waiting = [] →
    Completes .modeTransitionDone s fun t =>
      t.power = { s.power with transition := none, effective := x.target, lastCause := x.cause, emberAuto := decide (x.cause = 4) } ∧
      t.lynx = (if x.target = .sprint then { s.lynx with autoVerify := true } else s.lynx) ∧
      OnlyChanges [.regs, .power, .host, .lynx, .health] s t) ∧
  (∀ (s : State) (w : Who), s.adminReady w = true → isManager w.fn = true → s.power.k ≤ 60000 → s.power.lastCause < 9 →
    ∃ d e : W32,
      exec (.getFeaturesMode w 0) s = .next (s.admin w stOk d) ∧ exec (.getFeaturesMode w 2) s = .next (s.admin w stOk d) ∧
      exec (.getFeaturesMode w 1) s = .next (s.admin w stOk e) ∧
      fld d 2 0 = modeCode s.power.requested ∧ bitAt d 3 = false ∧ fld d 6 4 = modeCode s.power.effective ∧ fld d 11 7 = 0 ∧
      fld d 15 12 = s.power.lastCause ∧ fld d 23 16 = s.power.k / 1000 ∧ fld d 31 24 = 0 ∧
      fld e 2 0 = 0 ∧ fld e 6 4 = 0 ∧ fld e 15 12 = s.power.lastCause ∧ fld e 23 16 = s.power.k / 1000)

/-- R35, R535, R536: a millisecond of SPRINT spends credit; its 60 s limit, an empty credit and ILIM_N end it, with BALANCED both
requested and the target. R39 to R41, R542: entry into HIBERNATE gates COMPUTE, ENGINE and the MEDIA islands once nothing is buffered,
and a digest core completes its block first (R32, R327); a link leaving L1.2 wakes the G9, and when it is ready the mode from before is
requested again, with cause 6. R366: the array of Lynx is reloaded inside the wake. Which command ends a bound is the model's choice
(notes/assumptions/9.md). -/
def Obligations.SprintAndHibernate : Prop :=
  (∀ (s : State) (ilim : Bool), s.sys.phase ≠ .off → s.power.effective = .sprint → s.power.transition = none →
    Completes (.sprintTick ilim) s fun t =>
      t.power = { s.power with k := s.power.k - 1, t := Nat.min 60000 (s.power.t + 1), ilimN := ilim } ∧
      t.cnt (rPwrCount 0) = (s.cnt (rPwrCount 0) + 1) % 2 ^ 64 ∧ OnlyChanges [.regs, .power, .health] s t) ∧
  (∀ s : State, s.running = true → s.power.effective = .sprint → s.power.transition = none → 60000 ≤ s.power.t ∨ s.power.k = 0 →
    Completes .sprintLimit s fun t =>
      t.power = { s.power with requested := .balanced, transition := some { target := .balanced, cause := 1, rank := 5, who := none } } ∧
      OnlyChanges [.power] s t) ∧
  (∀ s : State, s.running = true → s.power.effective = .sprint → s.power.transition = none →
    Completes .ilimNAssert s fun t =>
      t.power = { s.power with
        ilimN := false, requested := .balanced,
        transition := some { target := .balanced, cause := 3, rank := 3, who := none } } ∧
      t.cnt (rPwrCount 1) = (s.cnt (rPwrCount 1) + 1) % 2 ^ 64 ∧ OnlyChanges [.regs, .power, .health] s t) ∧
  (∀ (s : State) (h : HibernateEntry), s.running = true → s.power.hibEntry = some h → s.ftl.slots = [] → s.str.stripes = [] →
    s.health.writing = false → s.str.rebuild = none → reshapeBusy s = false →
    Completes .hibernateEntryDone s fun t =>
      t.power = { s.power with effective := .hibernate, emberAuto := false, lastCause := 0, transition := none, hibEntry := none } ∧
      t.sys = { s.sys with gated := [.compute, .engine, .media0, .media1, .media2, .media3] } ∧ t.dgs = { s.dgs with busy := false } ∧
      OnlyChanges [.regs, .sys, .power, .host, .ftl, .dgs, .memory, .health] s t) ∧
  (∀ s : State, s.running = true → s.power.effective = .hibernate → s.power.waking = none →
    Completes (.wakeEvent .link) s fun t => t.power = { s.power with waking := some .link } ∧
      (∀ q, (t.port q).l12 = false ∧ (t.port q).linkUp = (s.port q).linkUp) ∧ t.lynx = { s.lynx with restoring := true } ∧
      OnlyChanges [.power, .host, .lynx] s t) ∧
  (∀ s : State, s.power.waking = some .link → s.power.keptDoorbells = [] → s.power.waiting = [] → s.media.luns = [] → s.power.beforeHib ≠ .sprint →
    (∀ x, hottest s = some x → x < 500) →
    Completes .wakeReady s fun t =>
      t.power = { s.power with
        requested := s.power.beforeHib, effective := s.power.beforeHib, emberAuto := false, lastCause := 6, waking := none,
        keptDoorbells := [] } ∧
      t.sys = { s.sys with gated := [] } ∧ t.lynx.restoring = false ∧ t.lynx.lapStart = s.now ∧
      OnlyChanges [.sys, .power, .host, .memory, .lynx] s t)

/-! ## Trails (R43 to R79, R462, R463) -/

/-- R44, R45: an accepted TRAIL_SUBMIT binds the free flow context under the next generation and completes with the Trail identifier; one
that waited in admission does so when nothing makes it wait any more. R45: bits [11:0] of a Trail identifier are the context, bits
[31:12] the generation. R47, R77, R78, R462, R463: a function queries and cancels its own Trails; for every other identifier both fail
with Invalid Field in Command. The order of checks where R58 leaves it open is the model's reading (notes/assumptions/26.md). -/
def Obligations.TrailsBind : Prop :=
  (∀ (s v : State) (w : Who) (descLen : Nat) (slm : Option (Nat × Nat)) (addr : Nat) (hv : HostView) (c : Checked) (i : Nat),
    s.ioReady w = true → s.up .engine = true → s.asClass w 6 = v → checkSubmit v w.fn descLen slm addr hv = .ok c →
    admissionWait v w.fn c.trail = false → freeFlow s = some i →
    ∃ (u : State) (x : Flow), exec (.trailSubmit w descLen slm addr hv) s = .next (u.io w stOk (trailId i x)) ∧ u.flow i = some x ∧
      x.bound = true ∧ x.owner = w.fn ∧ x.trail = c.trail ∧ x.issued = 0 ∧ x.retired = 0 ∧ x.unretired = [] ∧
      x.generation = ((match s.flow i with | some y => y.generation | none => 0) + 1) % 2 ^ 20 ∧
      OnlyChanges [.regs, .sea, .dgs, .disp, .host, .health] s u) ∧
  (∀ (s : State) (w : Who) (x : WaitingTrail) (i : Nat),
    s.ioReady w = true → s.up .engine = true → s.disp.waiting.find? (fun y => y.who = w) = some x → x.execBy = false →
    admissionState s w.fn x.trail = none → admissionKeys s x.trail x.blob = none → admissionWait s w.fn x.trail = false →
    admissionWait { s with disp := { s.disp with waiting := s.disp.waiting.erase x } } w.fn x.trail = false → freeFlow s = some i →
    ∃ (u : State) (y : Flow), exec (.trailAdmissionResume w) s = .next (u.io w stOk (trailId i y)) ∧ u.flow i = some y ∧
      y.bound = true ∧ y.owner = w.fn ∧ y.trail = x.trail ∧ u.disp.waiting = s.disp.waiting.erase x ∧
      OnlyChanges [.regs, .sea, .dgs, .disp, .host, .health] s u) ∧
  (∀ (i : Nat) (x : Flow), i < 4096 → x.generation < 2 ^ 20 → fld (trailId i x) 11 0 = i ∧ fld (trailId i x) 31 12 = x.generation) ∧
  (∀ (s : State) (w : Who) (id : W32) (wait : Bool), s.ioReady w = true → namedFlow s w.fn id = none →
    exec (.trailQuery w id wait) s = .next (s.io w stInvalidField 0) ∧ exec (.trailCancel w id) s = .next (s.io w stInvalidField 0)) ∧
  (∀ (s : State) (w : Who) (id : W32) (i : Nat) (x : Flow), s.ioReady w = true → namedFlow s w.fn id = some (i, x) → x.bound = true →
    exec (.trailQuery w id false) s = .next ((s.dataOut w (queryRecord i x)).io w stOk 0) ∧ (queryRecord i x).length = 32 ∧
    Completes (.trailCancel w id) s fun t => ∃ y, t.flow i = some y ∧ w ∈ y.cancelers ∧
      (flowOver s i x = false → y.stopped = true ∧ y.cancelled = true) ∧ (flowOver s i x = true → y.cancelled = x.cancelled)) ∧
  (∀ (s : State) (w : Who) (id : W32) (i : Nat) (x : Flow), s.ioReady w = true → namedFlow s w.fn id = some (i, x) → x.bound = false →
    exec (.trailQuery w id false) s = .next ((s.dataOut w (queryRecord i x)).io w stOk 1) ∧
    exec (.trailCancel w id) s = .next (s.io w stOk 1)) ∧
  (∀ (s : State) (w : Who) (i : Nat) (x : Flow), s.ioReady w = true →
    (s.disp.flows.find? fun e => w ∈ e.2.queries) = some (i, x) → x.bound = true →
    exec (.trailQueryWaitExpiry w) s =
      .next (((s.onFlow i fun f => { f with queries := f.queries.erase w }).dataOut w (queryRecord i x)).io w stOk 0))

/-- R60, R61, R70: the source issues chunk I into the lowest free chunk slot, with an entry of its own, and stops where an SGL ends
before TOTAL_LENGTH; R71: a Trail with nothing left to do ends and its flow context is free again. R60: the source issues a chunk only
while fewer than C are unretired. -/
def Obligations.ChunksFlow : Prop :=
  (∀ (s : State) (i c : Nat) (hv : HostView) (f : Flow), s.running = true → s.up .engine = true → s.boundFlow i = some f →
    f.freeSlot = some c → mayIssue s f = true → sglEnd f hv = none →
    Completes (.chunkIssue i hv) s fun t =>
      (∃ x, t.flow i = some x ∧ x.issued = f.issued + 1 ∧ x.retired = f.retired ∧ x.unretired = f.unretired ++ [(c, f.issued)]) ∧
      (∃ e, t.disp.entries = s.disp.entries ++ [e] ∧ e.flow = i ∧ e.stage = 0 ∧ e.cslot = c ∧ e.chunk = f.issued) ∧
      OnlyChanges [.regs, .disp] s t) ∧
  (∀ (s : State) (i c total : Nat) (hv : HostView) (f : Flow), s.running = true → s.up .engine = true → s.boundFlow i = some f →
    f.freeSlot = some c → mayIssue s f = true → sglEnd f hv = some total →
    Completes (.chunkIssue i hv) s fun t =>
      (∃ x, t.flow i = some x ∧ x.issued = f.issued ∧ x.lastIssued = true ∧ (total ≠ f.trail.total → x.mismatch.isSome = true)) ∧
      t.disp.entries = s.disp.entries ∧ OnlyChanges [.regs, .disp] s t) ∧
  (∀ (s : State) (i : Nat) (f : Flow), s.running = true → s.up .engine = true → s.boundFlow i = some f → mayEnd s i f = true →
    ∀ seen, Completes (.trailEnd i seen) s fun t =>
      ∃ x, t.flow i = some x ∧ x.bound = false ∧ x.generation = f.generation ∧ x.endStatus = (endStatusOf f (endFailure s i f)).1) ∧
  (∀ (s t : State) (i : Nat) (hv : HostView) (f x : Flow), s.boundFlow i = some f → f.issued - f.retired ≤ Trail.credit f.trail →
    exec (.chunkIssue i hv) s = .next t → t.flow i = some x → x.issued - x.retired ≤ Trail.credit x.trail)

/-! ## The dispatcher (R80 to R119) -/

/-- R89: a credit is granted to a task by taking an entry of the next stage for its chunk at the same moment. R91, R99: an LBA write sink's
grant: a sink that has nothing to write is granted at once, and so is an empty chunk of a SLOTTED sink, which needs no slot of the
buffer; one that a check fails ends with that check's status. -/
def Obligations.CreditsAndGrants : Prop :=
  (∀ (s : State) (i stage c : Nat) (f : Flow) (e : Task), dispatching s = true → s.boundFlow i = some f → s.entry i stage c = some e →
    mayGrant s f e = true →
    Completes (.creditGrant i stage c) s fun t =>
      (∃ x ∈ t.disp.entries, x.flow = i ∧ x.stage = stage + 1 ∧ x.cslot = c ∧ x.chunk = e.chunk ∧
        x.fromReserve = decide (sharedFree s = 0)) ∧
      OnlyChanges [.regs, .disp] s t) ∧
  (∀ (s : State) (i c : Nat) (f : Flow) (e : Task) (place : Placement) (nsid slba extent slot a k rest : Nat) (n : Ns),
    dispatching s = true → s.boundFlow i = some f → flowGoes s f = true → s.entry i (Trail.sinkIx f.trail) c = some e →
    Trail.stageAt f.trail (Trail.sinkIx f.trail) = some (.lbaSink place nsid slba extent slot) → wantsGrant e = true →
    s.ns.find nsid = some n → lbaExtent n e place slba extent slot (lbaPlan s f n e place extent slot) = (a, k, rest) →
    (k + rest = 0 ∨ (e.empty = true ∧ sinkWaits s e = false ∧ (s.nvmGate f.owner nsid a (k + rest) true false).isOk = true ∧
      s.writeFails n { who := ⟨f.owner, 0, 0⟩, kind := .sink e.flow e.cslot rest, nsid := nsid, slba := a, nlb := k } = none) →
      Completes (.sinkGrant i c) s fun t =>
        t.disp.entries = s.disp.entries.map (fun x =>
          if isEntry e.flow e.stage e.cslot x then { x with arrived := x.arrived ||| 4 } else x) ∧ OnlyChanges [.disp] s t) ∧
    (∀ st, k + rest ≠ 0 → sinkWaits s e = false → s.nvmGate f.owner nsid a (k + rest) true false = .error st →
      exec (.sinkGrant i c) s = .next (s.failSink e st)))

/-- R93, R104: a ready task fires into its unit's input queue with an output buffer, or is prefetched by a unit that works, and its entry
is free. R94, R105: an idle unit of a class takes the first task it may take, once what the NVM path's transfers hold is up to date. R100: a reshuffle task that ends hands its payload to the
next stage's entry. R109: a unit task that outlives the watchdog of its class, where the class has no L1 reset, fails with
ENGINE_TIMEOUT; the orphan check suspects an entry before it fails it. R101, R102, R126: the oldest task of a cluster's queue moves into
an empty Squirrel slot; a free hart begins its slot's task, whose budget runs from then; its registers are those of R126 and its task
block that of R125, and it finds no line of an earlier kernel's data windows (R137). -/
def Obligations.TasksRun : Prop :=
  (∀ (s u : State) (i stage c q b : Nat) (f : Flow) (e : Task) (st : Stage), dispatching s = true → flowGoes s f = true →
    s.boundFlow i = some f → s.entry i stage c = some e → isEntry i stage c e = true → Trail.stageAt f.trail stage = some st →
    e.ready = true → hmacCleared s f e = false → e.empty = false → makesOutput st = true → fireQueue s f e st = some q →
    queueTakes s e st.cls q = true → s.allocBuf = some (b, u) →
    Completes (.taskFire i stage c .good) s fun t =>
      ((t.disp.queues = s.disp.queues ++ [(st.cls, q, { e with out := some b })] ∧ t.disp.prefetch = s.disp.prefetch) ∨
        (t.disp.queues = s.disp.queues ∧
          ∃ p, t.disp.prefetch = s.disp.prefetch ++ [p] ∧ p.cls = st.cls ∧ p.task = { e with out := some b })) ∧
      ((isEngine st.cls = false ∨ ∃ x ∈ s.disp.queues, x.1 = st.cls) → t.disp.prefetch = s.disp.prefetch) ∧
      t.entry i stage c = none ∧ OnlyChanges [.regs, .dma, .disp] s t) ∧
  (∀ (s u : State) (cls : UnitClass) (unit : Nat) (x : Task), s.startTransfers = u → dispatching u = true → cls ≠ .media →
    unitDown u cls unit = none → unitServes u cls unit = true →
    unitIdle u cls unit = true → (⟨cls, 0⟩ : UnitReset) ∉ u.disp.resetting → (candidates u cls unit).find? (suits u cls unit) = some x →
    Completes (.unitTaskStart cls unit) s fun t =>
      (∃ p, t.disp.running = s.disp.running ++ [⟨cls, unit, x, s.now, p⟩] ∧ (cls ≠ .cipher → p = none)) ∧
      OnlyChanges [.regs, .sys, .host, .ns, .ftl, .media, .str, .sea, .dma, .disp, .hrt, .health] s t) ∧
  (∀ (s : State) (i stage c op un n w : Nat) (hv : HostView) (f : Flow) (r : Running) (e : Task), dispatching s = true →
    (s.disp.running.find? fun x => isEntry i stage c x.task) = some r → s.boundFlow r.task.flow = some f → s.boundFlow i = some f →
    s.taskStage r.task = some (.reshuffle op un n w) → s.entry r.task.flow (r.task.stage + 1) r.task.cslot = some e → e.discard = false →
    isEntry r.task.flow (r.task.stage + 1) r.task.cslot e = true → f.generation % 16 = r.task.gen % 16 →
    Completes (.taskComplete i stage c hv .good) s fun t =>
      t.disp.running = s.disp.running.erase r ∧
      ∃ y, t.entry r.task.flow (r.task.stage + 1) r.task.cslot = some y ∧ y.arrived = e.arrived ||| 1) ∧
  (∀ (s : State) (cls : UnitClass) (unit : Nat) (r : Running), dispatching s = true → isEngine cls = false →
    (s.disp.running.find? fun x => decide (x.cls = cls) && decide (x.unit = unit)) = some r →
    Completes (.engineWatchdogExpiry cls unit) s fun t =>
      t = ((((s.recordEsc 0 .engine (clsCode cls) 1).onDisp fun d => { d with running := d.running.erase r }).withdraw fun c =>
        c = .trail r.task.flow r.task.cslot).failTask r.task stEngineTimeout)) ∧
  (∀ s : State, dispatching s = true → s.regBit rDspCtl 16 = true → s.disp.suspects = [] →
    Completes .orphanCheck s fun t =>
      t.disp = { s.disp with suspects := (s.disp.entries.filter (isOrphan s)).map fun e => (e.flow, e.stage, e.cslot) } ∧
      OnlyChanges [.disp] s t) ∧
  (∀ (s : State) (h : Nat) (q : UnitClass × Nat × Task), computing s = true → h < 64 → (s.hart h).squirrel = none →
    (s.disp.queues.find? fun q => decide (q.1 = .hart) && decide (q.2.1 = h / 8)) = some q →
    Completes (.squirrelFill h) s fun t =>
      (t.hart h).squirrel = some ⟨q.2.2, taskDescriptor s q.2.2, taskOperand s q.2.2⟩ ∧ t.disp.queues = s.disp.queues.erase q ∧ OnlyChanges [.regs, .disp, .hrt] s t) ∧
  (∀ (s : State) (h : Nat) (x : SlotTask), computing s = true → h < 64 → (s.hart h).kernel = none → (s.hart h).resetting = false →
    (s.hart h).squirrel = some x →
    Completes (.hartTaskStart h) s fun t =>
      (t.hart h).squirrel = none ∧
      (∃ k, (t.hart h).kernel = some k ∧ k.task = x.task ∧ k.since = s.now ∧ k.budget = s.taskBudget x.task ∧ k.phase = .run ∧
        k.block = taskBlock s x.task ∧ k.lines = [] ∧ k.high = 0 ∧
        (∀ y, s.taskKernel x.task = some y → k.regs = entryRegs y.1 x.task.len)) ∧
      (∀ l ∈ (t.hart h).dcache, ¬(l.owner = h ∧ 2 ^ 34 ≤ l.line * 64)) ∧
      (∀ j, j ≠ h → t.hart j = s.hart j) ∧ OnlyChanges [.hrt] s t)

/-! ## Harts and modules (R120 to R156) -/

/-- R131, R132, R136: EXIT writes back the declared range, cut to what was written and to whole records, and counts; a length that fails
the check ends in cause 8. When the write-back is done the hart is free and the payload goes on; a dirty line that it finds uncorrectable
ends in cause 10. R124, R131: the payload of a kernel is what it declared and wrote, cut to whole records where its output is records; a
byte of a line that it has not written is 0. R123, R134: the cause of an access of a kernel. A fetch outside the code is cause 3, a load
or a store outside every window or past the end of its window cause 1, and a store to a window that the kernel may only read cause 2.
What the kernel wrote comes with the command (notes/assumptions/29.md). -/
def Obligations.KernelExits : Prop :=
  (∀ (s u : State) (h p : Nat) (run : KernelRun) (k0 k : Kernel) (r : KernelRec) (f : Flow),
    runningKernel s h = some k0 → s.recordOfKernel k0 = some r → s.flow k0.task.flow = some f → (s.kernelRuns h run).callMade h k0 = u →
    (u.hart h).kernel = some k → exitLength r f.trail.recordSize (regX run.regs 10).toNat k.high = some p →
    Completes (.exit h run) s fun t =>
      (∃ x used, (t.hart h).kernel = some x ∧ x.phase = .writeback (outputBytes k p) used ∧ x.task = k0.task ∧ x.since = k0.since) ∧
      OnlyChanges [.regs, .disp, .hrt] s t) ∧
  (∀ (s u : State) (h : Nat) (run : KernelRun) (k0 k : Kernel) (r : KernelRec) (f : Flow),
    runningKernel s h = some k0 → s.recordOfKernel k0 = some r → s.flow k0.task.flow = some f → (s.kernelRuns h run).callMade h k0 = u →
    (u.hart h).kernel = some k → r.outWindow < (regX run.regs 10).toNat →
    exec (.exit h run) s = .next (u.kernelFails h k 8 0 run.regs.pc 0)) ∧
  (∀ (s : State) (h used : Nat) (lost : Option Nat) (k : Kernel) (bs : List Byte), computing s = true → h < 64 →
    (s.hart h).kernel = some k → k.phase = .writeback bs used →
    (outputLost s h bs.length lost = none → exec (.kernelWritebackDone h lost) s =
      .next (((s.addCnt (rHrtCount 0) 1).endKernel h).emit k.task { bytes := bs, sealed := none } false)) ∧
    (∀ a, outputLost s h bs.length lost = some a → exec (.kernelWritebackDone h lost) s =
      .next (s.kernelFails h k 10 0 k.regs.pc (BitVec.ofNat 64 a))) ∧
    ((s.endKernel h).hart h).kernel = none) ∧
  (∀ (r : KernelRec) (rs outLen high p : Nat), 0 < rs → exitLength r rs outLen high = some p →
    p ≤ outLen ∧ p ≤ high ∧ (r.outRecords = true → p % rs = 0) ∧ (high = outLen → p = outLen)) ∧
  (∀ (k : Kernel) (n : Nat), (outputBytes k n).length = n ∧
    ∀ a, a < n → k.lines.find ((Window.output.base + a) / 64) = none → (outputBytes k n)[a]? = some 0) ∧
  (∀ (m : Module) (r : KernelRec) (addr len : Nat),
    (windowAt m r addr ≠ some .code → accessCause m r .fetch addr len = some 3) ∧
    (windowAt m r addr = none → accessCause m r .load addr len = some 1 ∧ accessCause m r .store addr len = some 1) ∧
    (∀ w, windowAt m r addr = some w →
      (w.base + w.size m r < addr + len → accessCause m r .load addr len = some 1 ∧ accessCause m r .store addr len = some 1) ∧
      (addr + len ≤ w.base + w.size m r → accessCause m r .load addr len = none ∧
        accessCause m r .store addr len = if w.writable then none else some 2)))

/-- R134, R154, R155: a kernel that faults, fails or overruns its budget is logged at NEXT, which moves on, and its task fails. R136,
R523: a hart that does not stop is reset alone; a reset that does not end resets COMPUTE. When a budget or a stop ends comes with the
command (notes/assumptions/9.md and 29.md). -/
def Obligations.KernelFailures : Prop :=
  (∀ (s : State) (h cause m kern a : Nat) (b : List Byte) (code : W32) (pc addr : W64) (k : Kernel) (f : Flow),
    s.flow k.task.flow = some f → s.taskStage k.task = some (.program m kern a b) → s.regFld rHrtFaultHead 5 0 < 64 →
    (s.logFault h k cause code pc addr).hrt.faults.find (s.regFld rHrtFaultHead 5 0) = some
      { trailId := trailId k.task.flow f, stage := k.task.stage, cause := cause, fn := f.owner, chunk := k.task.chunk, module := m,
        kernel := kern, hart := h, code := code, pc := pc, addr := addr, runUs := usedTicks s k / tUs }) ∧
  (∀ (s : State) (h c : Nat) (run : KernelRun) (trap : KernelTrap) (code : W32) (addr : W64) (k : Kernel), runningKernel s h = some k →
    trapCause s k trap = some (c, code, addr) →
    exec (.kernelFault h run trap) s = .next ((s.kernelRuns h run).kernelFails h k c code run.regs.pc addr)) ∧
  (∀ (s : State) (k : Kernel) (w : W32) (n a : W64),
    trapCause s k (.illegal w) = some (4, w, 0) ∧ trapCause s k .ebreak = some (5, 0, 0) ∧
    (4 < n.toNat → trapCause s k (.ecall n) = some (6, 0, 0)) ∧ trapCause s k (.poisoned a) = some (10, 0, a)) ∧
  (∀ (s : State) (h c : Nat) (k : Kernel) (code : W32) (pc addr : W64),
    (c ≠ 10 → s.kernelFails h k c code pc addr =
      (((s.logFault h k c code pc addr).endKernel h).addCnt (rHrtCount 2) 1).failTask k.task stProgramFault) ∧
    s.kernelFails h k 10 code pc addr = ((s.logFault h k 10 code pc addr).endKernel h).failTask k.task stPoisoned) ∧
  (∀ (s : State) (h : Nat) (run : KernelRun) (k : Kernel), runningKernel s h = some k →
    exec (.fail h run) s = .next ((s.callMade h k).kernelFails h k 7 ((regX run.regs 10).setWidth 32) run.regs.pc 0)) ∧
  (∀ (s : State) (h : Nat) (run : KernelRun) (k : Kernel), computing s = true → h < 64 → (s.hart h).kernel = some k → k.phase = .run →
    ∃ u : State, exec (.budgetExpiry h run) s = .next (u.failFlow k.task.flow k.task.chunk k.task.stage stProgramBudget) ∧
      (∃ x, (u.hart h).kernel = some x ∧ x.phase = .stopping ∧ x.search = none ∧ x.task = k.task) ∧
      u.hrt.faults = ((s.kernelRuns h run).logFault h k 9 0 run.regs.pc 0).hrt.faults) ∧
  (∀ (s : State) (h : Nat) (k : Kernel), computing s = true → h < 64 → (s.hart h).kernel = some k → k.phase = .stopping →
    exec (.hartStopTimeout h) s = .next ((s.kernelStops h k).l1Hart h 2)) ∧
  (∀ (s : State) (h : Nat), resetsWithin s 1 .compute h tSec < 3 →
    ((s.l1Hart h 2).hart h).resetting = true) ∧
  (∀ (s : State) (h : Nat), computing s = true → h < 64 → (s.hart h).resetting = true → s.sys.phase = .running →
    resetsWithin s 2 .compute 0xFF (60 * tSec) < 2 → .compute ∉ s.sys.down →
    Completes (.hartResetTimeout h) s fun t => .compute ∈ t.sys.down)

/-- R128 to R130, R151: the calls that return to the kernel, with their results in a0 and a1. R357, R364: a search takes a copy of its
table that is free, and fails with SEARCH_PARITY where it cannot be verified. -/
def Obligations.MonitorCallsReturn : Prop :=
  (∀ (s : State) (h : Nat) (run : KernelRun) (k : Kernel), runningKernel s h = some k → k.calling = false →
    Completes (.budgetLeft h run) s fun t =>
      (∃ x, (t.hart h).kernel = some x ∧ x.task = k.task ∧ x.phase = .run ∧ x.search = none ∧ x.calling = false ∧
        regX x.regs 10 = BitVec.ofNat 64 ((k.budget * tUs - usedTicks s k) / tUs) ∧ ∀ i, i ≠ 10 → regX x.regs i = regX run.regs i) ∧
      t.cnt (rHrtCount 3) = (s.cnt (rHrtCount 3) + 1) % 2 ^ 64 ∧ OnlyChanges [.regs, .hrt] s t) ∧
  (∀ (s u : State) (h us : Nat) (run : KernelRun) (k0 k : Kernel) (m : Module) (r : KernelRec) (f : Flow) (table : Nat) (key : List Byte),
    runningKernel s h = some k0 → s.taskProgram k0.task = some (m, r, us) → s.flow k0.task.flow = some f →
    (s.kernelRuns h run).callMade h k0 = u → (u.hart h).kernel = some k →
    searchAsk u k f m r (regX run.regs 10).toNat (regX run.regs 11).toNat (regX run.regs 12).toNat = .ok (table, key) →
    Completes (.lynxSearch h run) s fun t =>
      (t.hart h).kernel = some { k with search := some (table, key) } ∧ OnlyChanges [.regs, .hrt] s t) ∧
  (∀ (s u : State) (h us : Nat) (run : KernelRun) (k0 k : Kernel) (m : Module) (r : KernelRec) (f : Flow) (e : W64),
    runningKernel s h = some k0 → s.taskProgram k0.task = some (m, r, us) → s.flow k0.task.flow = some f →
    (s.kernelRuns h run).callMade h k0 = u → (u.hart h).kernel = some k →
    searchAsk u k f m r (regX run.regs 10).toNat (regX run.regs 11).toNat (regX run.regs 12).toNat = .error e →
    Completes (.lynxSearch h run) s fun t =>
      (∃ x, (t.hart h).kernel = some x ∧ regX x.regs 10 = e ∧ x.search = none ∧ x.calling = false) ∧ OnlyChanges [.regs, .hrt] s t) ∧
  (∀ (s : State) (k : Kernel) (f : Flow) (m : Module) (r : KernelRec) (table addr len : Nat),
    (r.mayLynx = false → searchAsk s k f m r table addr len = .error (BitVec.ofInt 64 (-3))) ∧
    (r.mayLynx = true → len ≠ 8 → len ≠ 16 → len ≠ 32 → searchAsk s k f m r table addr len = .error (BitVec.ofInt 64 (-1))) ∧
    (∀ key x, r.mayLynx = true → len = 8 ∨ len = 16 ∨ len = 32 → kernelRead s m r k addr len = some key →
      tableOf s f.owner table = some x → x.keyLen = len → searchAsk s k f m r table addr len = .ok (table, key))) ∧
  (∀ (s u : State) (h table c : Nat) (key : List Byte) (seen : UnitSeen) (k : Kernel) (x : LynxTable) (a : Option Nat), computing s = true →
    h < 64 → queueFillOf s .lynx 0 < queueRoom .lynx → s.lynx.restoring = false → (s.hart h).kernel = some k → k.phase = .run →
    k.search = some (table, key) → s.lynxTable table = some x → x.faulted = false → (∀ st, seen ≠ .error st) →
    freeCopy s table x.copies (fun t => (s.taskStage t).any Stage.isInsert) = some c → s.searchCall table c (softOf seen) key = (u, a) →
    (∀ w, a = some w → Completes (.lynxSearchReturn h seen) s fun t =>
      ∃ y, (t.hart h).kernel = some y ∧ y.search = none ∧ y.calling = false ∧ y.task = k.task ∧ regX y.regs 10 = BitVec.ofNat 64 w) ∧
    (a = none → exec (.lynxSearchReturn h seen) s = .next (u.searchFails h k stSearchParity))) ∧
  (∀ (s : State) (table c : Nat) (key : List Byte) (x : LynxTable), s.lynxTable table = some x →
    (s.searchCall table c [] key).2 = (x.search c (lynxVerifies s x) key).word) ∧
  (∀ (s u : State) (h us i : Nat) (run : KernelRun) (hv : HostView) (k0 k : Kernel) (m : Module) (r : KernelRec) (f : Flow) (tr : Trail)
      (c : Checked),
    runningKernel s h = some k0 → s.taskProgram k0.task = some (m, r, us) → s.flow k0.task.flow = some f → r.maySubmit = true →
    (s.kernelRuns h run).callMade h k0 = u → (u.hart h).kernel = some k →
    inScratch r (regX run.regs 10).toNat (regX run.regs 11).toNat = true →
    checkDescriptor u f.owner true (regX run.regs 11).toNat
      ((List.range (regX run.regs 11).toNat).map fun i => kernelByte u m k ((regX run.regs 10).toNat + i)) = .ok tr →
    checkTrail u f.owner hv tr = .ok c → contextWait u f.owner = false → hmacWait u c.trail = false → nonceWait u c.trail = false →
    freeFlow s = some i →
    Completes (.kernelTrailSubmit h run hv) s fun t =>
      ∃ (x : Kernel) (y : Flow), t.flow i = some y ∧ y.bound = true ∧ y.owner = f.owner ∧ y.trail = c.trail ∧
        (t.hart h).kernel = some x ∧ regX x.regs 10 = (trailId i y).setWidth 64 ∧ regX x.regs 11 = regX run.regs 11 ∧
        OnlyChanges [.regs, .media, .sea, .dgs, .disp, .hrt] s t)

/-- R142 to R149, R459, R460: a module is loaded in the steps of the load, removed after its last Trail, and an authority is enrolled
with its two keys. R459: ENROLL keeps the two keys of an authority for the port, revokes it where MLDSA_LEN is 0, and records either in
the ledger. R7, R149: a write of HRT_CTL acts on CLUSTER_EN only while LOCK is clear. Whether a signature verifies is left open
(notes/assumptions/15.md). -/
def Obligations.ModulesAndClusters : Prop :=
  (∀ (s : State) (w : Who) (cdw10 cdw11 : W32) (img : List Byte) (v : Nat) (f : Fn), s.adminReady w = true → 0 < cdw10.toNat →
    cdw10.toNat ≤ 25165824 → fld cdw11 3 0 = 0 → loadVisibility s w.fn cdw11 = some (v, f) → img.length = cdw10.toNat →
    imageLength img = img.length → headerReason img = 0 → s.hrt.loads = [] →
    Completes (.moduleLoad w cdw10 cdw11 img) s fun t =>
      t.hrt = { s.hrt with loads := [{ who := w, enrol := false, declared := cdw10.toNat, image := img, visibility := v, visibleTo := f, step := 2 }] } ∧ OnlyChanges [.hrt] s t) ∧
  (∀ (s : State) (l : Load) (rest : List Load), s.running = true → s.hrt.loads = l :: rest → l.step = 2 →
    Completes .moduleMeasureDone s fun t =>
      (measureImage l.image = imageMeasurement l.image →
        t.hrt = { s.hrt with loads := { l with step := 3 } :: rest } ∧ OnlyChanges [.hrt] s t) ∧
      (measureImage l.image ≠ imageMeasurement l.image → t = s.rejectLoad l 3)) ∧
  (∀ (s : State) (l : Load) (rest : List Load), s.running = true → s.hrt.loads = l :: rest → l.step = 3 →
    Completes .moduleSignatureDone s fun t =>
      (signatureReason s l = 0 → t.hrt = { s.hrt with loads := { l with step := 4 } :: rest } ∧
        t.boot.appends = s.boot.appends ++ [loadAppend s l] ∧ OnlyChanges [.hrt, .media, .boot] s t) ∧
      (signatureReason s l ≠ 0 → t = s.rejectLoad l (signatureReason s l))) ∧
  (∀ (s : State) (w : Who) (m : Nat) (x : Module), s.adminReady w = true → s.module m = some x →
    w.fn = x.loader ∨ w.fn = managerFn (portOfFn x.loader) →
    exec (.moduleUnload w m false) s =
      .next ((s.onHrt fun h => { h with modules := h.modules.set m { x with st := .unloading, removing := true } }).admin w stOk 0)) ∧
  (∀ (s : State) (m : Nat) (x : Module), s.module m = some x → x.removing = true → moduleTrails s m = [] → x.forced = [] →
    s.running = true → s.appendRoom = true →
    Completes (.moduleRemove m) s fun t =>
      t.hrt.modules = s.hrt.modules.erase m ∧ (∀ h, (t.hart h).kernel = (s.hart h).kernel) ∧
      (∃ a, t.boot.appends = s.boot.appends ++ [a] ∧ a.kind = 2) ∧ OnlyChanges [.hrt, .media, .boot] s t) ∧
  (∀ (s : State) (w : Who) (cdw10 : W32) (data : List Byte), s.adminReady w = true → isManager w.fn = true → cdw10.toNat = 2080 →
    data.length = 2080 → leAt data 0 2 < 32 → leAt data 2 2 = 1952 → leAt data 4 2 = 97 → leAt data 6 2 = 0 →
    (∀ b ∈ slice data 0x819 7, b = 0) → s.hrt.authorities.find (leAt data 0 2) = none → s.appendRoom = true → s.hrt.loads = [] →
    Completes (.enroll w cdw10 data) s fun t =>
      t.hrt.authorities = s.hrt.authorities.set (leAt data 0 2)
        { mldsa := slice data 0x018 1952, ecdsa := slice data 0x7B8 97, port := portOfFn w.fn, loaders := loadersOf data } ∧
      (∃ l, t.hrt.loads = [l] ∧ l.who = w ∧ l.step = 4) ∧
      (∃ e, t.health.cfg = s.health.cfg ++ [.append e] ∧ e.kind = 3 ∧ e.cause = 0 ∧ e.then_ = .enrolled)) ∧
  (∀ (s : State) (r : Requester) (v : W32), s.barReaches r rHrtCtl = true →
    Completes (.clusterEnWrite r v) s fun t =>
      (s.locked rHrtCtl = true → t.regFld rHrtCtl 7 0 = s.regFld rHrtCtl 7 0) ∧
      (s.locked rHrtCtl = false → bitAt v 8 = false → t.regFld rHrtCtl 7 0 = fld v 7 0) ∧
      (bitAt v 31 = true → t.locked rHrtCtl = true))

/-! ## Flash channels and LUNs (R157 to R183) -/

/-- R161, R163: training brings a channel online at the rate that passed, goes on at the next lower rate, or takes it offline; so does a
retraining, which counts. R163, R172: the poll records the temperature and moves a target's band with its hysteresis. R172: the band of a
temperature, and the band after a reading, which changes only past a boundary by 2 °C. R164 to R167: a write that suspends leaves the LUN
to reads; a spent budget lets no further read begin; an aged command passes those before it. The hysteresis and band 0 before the first
poll are the model's reading (notes/assumptions/31.md). -/
def Obligations.MediaChannels : Prop :=
  (∀ (s : State) (c r : Nat), (s.channel c).trying = some r → s.up (mediaIsland (c / 8)) = true → (s.channel c).retraining = false →
    ∃ u : State, exec (.channelTrainDone c true) s = .next ((u.wakeLuns c).mediaReady) ∧
      u.channel c = { s.channel c with online := true, trained := true, rate := r, trying := none, trainedTemp := (s.channel c).temp } ∧
      OnlyChanges [.media] s u) ∧
  (∀ (s : State) (c r : Nat), (s.channel c).trying = some (r + 2) → s.up (mediaIsland (c / 8)) = true →
    Completes (.channelTrainDone c false) s fun t =>
      t.channel c = { s.channel c with trying := some (r + 1) } ∧ OnlyChanges [.media] s t) ∧
  (∀ (s : State) (c : Nat), (s.channel c).trying = some 1 → s.up (mediaIsland (c / 8)) = true →
    exec (.channelTrainDone c false) s = .next ((s.channelOffline c).mediaReady)) ∧
  (∀ (s : State) (c : Nat), (s.channel c).retraining = true → (s.channel c).trying = none → s.up (mediaIsland (c / 8)) = true →
    ∃ u : State, exec (.channelRetrainDone c true) s = .next (u.wakeLuns c) ∧
      u.channel c = { s.channel c with
        retraining := false, trainedTemp := (s.channel c).temp, retrains := Nat.min 255 ((s.channel c).retrains + 1) } ∧
      (∀ d, d ≠ c → u.channel d = s.channel d) ∧ OnlyChanges [.media] s u) ∧
  (∀ (s : State) (c : Nat) (t0 : Int) (rest : List Int), (s.channel c).online = true → s.up (mediaIsland (c / 8)) = true →
    rest.length < 8 →
    Completes (.targetTempPoll c (t0 :: rest)) s fun t =>
      (t.channel c).temp = some (maxInt t0 rest) ∧
      (∀ i x, (t0 :: rest)[i]? = some x → t.media.bands.find (c * 8 + i) = some (nextBand (s.media.bands.find (c * 8 + i)) x)) ∧
      OnlyChanges [.media, .health] s t) ∧
  (∀ (old : Option Nat) (t : Int), (∀ b, old = some b → b ≤ 15) → nextBand old t ≤ 15) ∧
  (∀ t : Int, -40 ≤ t → t < 120 → 10 * (bandOfTemp t : Int) - 40 ≤ t ∧ t < 10 * (bandOfTemp t : Int) - 30) ∧
  (∀ (b : Nat) (t : Int), 10 * (b : Int) - 42 < t → t < 10 * (b : Int) - 28 → nextBand (some b) t = b) ∧
  (∀ (b : Nat) (t : Int), t ≤ 10 * (b : Int) - 42 ∨ 10 * (b : Int) - 28 ≤ t → nextBand (some b) t = bandOfTemp t) ∧
  (∀ (s : State) (l : Nat) (ws : List MediaCmd), s.running = true → lunServes s l = true → (s.lun l).active = ws → ws ≠ [] →
    ws.any MediaCmd.isRead = false → (s.lun l).suspended = [] → readDue (s.lun l) = true → ranEnough s l = true →
    s.regBit (rMedCtl (lunIsland l)) 16 = true →
    ∃ u : State, exec (.suspendDone l) s = .next (u.lunNext l) ∧ OnlyChanges [.media] s u ∧
      u.lun l = { s.lun l with suspended := ws, active := [], readsBegun := 0, budgetOver := false }) ∧
  (∀ (s : State) (l : Nat), (s.lun l).suspended ≠ [] →
    ∃ u : State, exec (.suspendBudgetExpiry l) s = .next (u.lunNext l) ∧ OnlyChanges [.media] s u ∧
      u.lun l = { s.lun l with budgetOver := true }) ∧
  (∀ (s : State) (l : Nat) (c : MediaCmd) (before after : List MediaCmd), (s.lun l).queue = before ++ c :: after → c.cls = 4 →
    c.aged = false → (∀ x ∈ before, x.cls ≠ 4) →
    ∃ u : State, exec (.writeAgeExpiry l false) s = .next (u.lunNext l) ∧ OnlyChanges [.media] s u ∧
      (u.lun l).queue = before ++ { c with aged := true } :: after)

/-- R168 to R170: a sense hands its codewords to the decoders and the LUN goes on; a decode that fails goes on with the next step of the
ladder, or marks its codeword as an erasure, and one that succeeds delivers its codeword. What a decode finds comes with the command
(notes/assumptions/1.md). -/
def Obligations.SensesAndDecodes : Prop :=
  (∀ (s : State) (l : Nat) (c : MediaCmd), (s.lun l).active = [c] → c.isRead = true →
    ∃ u : State, exec (.senseDone l) s = .next ((u.sense l c.block).lunNext l) ∧ OnlyChanges [.media] s u ∧
      u.lun l = Lun.sensed s { s.lun l with active := [] } c) ∧
  (∀ (s : State) (x : Lun) (c : MediaCmd) (cl : ReadClient) (cws : List CwState), c.op = .read cl cws → clientWaits s cl = true →
    (x.sensed s c).decoding = x.decoding ++ [c] ∧ (x.sensed s c).active = x.active ∧ (x.sensed s c).queue = x.queue) ∧
  (∀ (s : State) (l cw n : Nat) (c : MediaCmd) (cl : ReadClient) (w : CwState), ladderAt (s.lun l) cw true = some (c, cl, w) →
    channelCarries s (l / 64) = true → iterationsOk w.step n = true → w.step = 1 →
    ∃ u : State, exec (.codewordDecodeDone l cw (.decoded n)) s = .next ((u.setCw l c w none).cwDelivered cl l c.block w.cw) ∧
      u.cnt (rMedLadder (lunIsland l) 0) = (s.cnt (rMedLadder (lunIsland l) 0) + 1) % 2 ^ 64 ∧ (u.lun l).erasedPages = []) ∧
  (∀ (w : CwState) (n : Nat),
    (w.step ≤ 2 → w.tried < n → w.next n = some { w with step := 2, tried := w.tried + 1, senses := 1 }) ∧
    (w.step ≤ 2 → n ≤ w.tried → w.next n = some { w with step := 3, tried := 0, senses := 2 }) ∧
    (w.step = 3 → w.next n = some { w with step := 4, tried := 0, senses := 4 }) ∧ (4 ≤ w.step → w.next n = none)) ∧
  (∀ (s : State) (l cw : Nat) (c : MediaCmd) (cl : ReadClient) (w v : CwState), ladderAt (s.lun l) cw true = some (c, cl, w) →
    channelCarries s (l / 64) = true → w.next (retryList s w.hint).length = some v →
    exec (.codewordDecodeDone l cw .failed) s = .next (s.setCw l c w (some v))) ∧
  (∀ (s : State) (l cw : Nat) (c : MediaCmd) (cl : ReadClient) (w : CwState), ladderAt (s.lun l) cw true = some (c, cl, w) →
    channelCarries s (l / 64) = true → w.next (retryList s w.hint).length = none →
    exec (.codewordDecodeDone l cw .failed) s = .next (s.cwErased l c cl w)) ∧
  (∀ (s : State) (l cw : Nat) (c : MediaCmd) (cl : ReadClient) (w : CwState), ladderAt (s.lun l) cw false = some (c, cl, w) →
    exec (.ladderDeadlineExpiry l cw) s = .next (s.cwErased l c cl w)) ∧
  (∀ (s : State) (l : Nat) (c : MediaCmd) (cl : ReadClient) (w : CwState), ∃ u v : State,
    v = (u.setCw l c w none).erase cl l c.block c.page [w.cw] ∧
    (s.cwErased l c cl w = if 16 ≤ (v.lun l).erasedPages.length then v.failLun l 3 else v) ∧
    (c.block, c.page) ∈ (u.lun l).erasedPages ∧
    u.cnt (rMedLadder (lunIsland l) 4) = (s.cnt (rMedLadder (lunIsland l) 4) + 1) % 2 ^ 64) ∧
  (∀ (s : State) (l : Nat) (c : MediaCmd) (cl : ReadClient) (cws : List CwState),
    ((s.lun l).queue.find? fun c => c.direct && wholeStripe s l c) = some c → c.op = .read cl cws →
    ∃ u v : State, exec (.firstSenseDeadlineExpiry l) s = .next (v.erase cl l c.block c.page (cws.map (·.cw))) ∧
      v.cnt (rMedLadder (lunIsland l) 5) = ((u.lunNext l).cnt (rMedLadder (lunIsland l) 5) + 1) % 2 ^ 64 ∧
      u.lun l = { s.lun l with queue := (s.lun l).queue.erase c }.refill ∧ OnlyChanges [.media] s u)

/-- R197, R202, R206, R228, R241, R253: a program or an erase that ends leaves the LUN free, and what waits for a place is placed; a
program is counted as it ends, and pages of a dump count for their copy; a LUN that does not answer fails. R173, R176, R183: user read
levels take effect when their commit ends, and the copies of a failed system LUN move to the next. -/
def Obligations.ProgramsErasesAndLevels : Prop :=
  (∀ (s : State) (l b j p : Nat) (c : MediaCmd) (rest : List MediaCmd), (s.lun l).active = c :: rest → c.op = .program b j p →
    ∃ u : State, exec (.programDone l true) s = .next (((((u.countProgram b j p).pageDone b j p).placeWaiting).lunNext l).recoverDone) ∧
      exec (.programDone l false) s = .next ((((u.writeFailed l c).placeWaiting).lunNext l).recoverDone) ∧
      u.lun l = { s.lun l with active := rest } ∧ OnlyChanges [.media] s u) ∧
  (∀ (s : State) (b j p : Nat), OnlyChanges [.regs] s (s.countProgram b j p)) ∧
  (∀ (s : State) (l copy : Nat) (ps : List Nat) (c : MediaCmd) (rest : List MediaCmd), (s.lun l).active = c :: rest →
    c.op = .dump copy ps →
    ∃ u : State, exec (.programDone l true) s = .next ((u.onRun copy fun r => { r with done := r.done ++ ps }).lunNext l) ∧
      exec (.programDone l false) s = .next ((u.writeFailed l c).lunNext l) ∧
      u.lun l = { s.lun l with active := rest } ∧ OnlyChanges [.media] s u) ∧
  (∀ (s : State) (l : Nat) (band : Option Nat) (c : MediaCmd) (rest : List MediaCmd), (s.lun l).active = c :: rest →
    c.op = .erase band →
    ∃ u v w : State,
      exec (.eraseDone l true) s = .next (((v.media.luns.filter fun e => e.2.queue.any MediaCmd.isErase).map (·.1)).foldl State.lunNext v) ∧
      exec (.eraseDone l false) s = .next (((w.media.luns.filter fun e => e.2.queue.any MediaCmd.isErase).map (·.1)).foldl State.lunNext w) ∧
      v = ((u.eraseOk l c.block band).placeWaiting).lunNext l ∧ w = ((u.eraseFailed l c.block band).placeWaiting).lunNext l ∧
      u.lun l = { s.lun l with active := rest } ∧ OnlyChanges [.media] s u) ∧
  (∀ (s : State) (l : Nat), (s.lun l).active ≠ [] → exec (.lunReadyTimeout l) s = .next (s.failLun l 2)) ∧
  (∀ (s : State) (l : Nat), (s.failLun l 2).lun l ≠ s.lun l → ((s.failLun l 2).lun l).failed = true) ∧
  (∀ (s : State) (r : Requester) (i : Nat) (v : W32), i < 4 → s.barReaches r (rMedUcalCommit i) = true → bitAt v 0 = true →
    s.locked (rMed i) = false → bitAt v 30 = false →
    Completes (.ucalCommit r i v) s fun t => i ∈ t.media.committing) ∧
  (∀ (s : State) (i : Nat), i ∈ s.media.committing → sysWaits s (.commit i) = false →
    Completes (.ucalCommitDone i true) s fun t =>
      i ∉ t.media.committing ∧ t.media.committed = ofIsland i s.media.staged s.media.committed ∧ OnlyChanges [.media, .health] s t) ∧
  (∀ (s : State) (i : Nat), i ∈ s.media.committing → sysWaits s (.commit i) = false →
    Completes (.ucalCommitDone i false) s fun t =>
      i ∉ t.media.committing ∧ t.media.committed = s.media.committed ∧ t.regBit (rMedUcalCommit i) 30 = true) ∧
  (∀ (s : State) (copy l : Nat) (more : List Nat), copy ∈ s.media.moving →
    sysWaits s (.move copy) = false → systemCandidates s (s.media.systemLun.getD copy 0) = l :: more →
    Completes (.systemAreaMoveDone copy) s fun t =>
      t.media.systemLun.find copy = some l ∧ copy ∉ t.media.moving ∧ OnlyChanges [.media] s t)

/-! ## Translation and the write path (R184 to R229) -/

/-- R188, R194, R452: a write that passes its checks waits for admission, a read that needs no media ends at once, and a Flush completes
at once; a command that fails a check completes with its status and changes nothing else. R188: a deallocation that passes its checks
leaves every whole IU of its ranges unmapped. The status values that R470 does not list are presumed (notes/assumptions/11.md). -/
def Obligations.NvmCommandsEnter : Prop :=
  (∀ (s v : State) (w : Who) (nsid slba nlb : Nat) (n : Ns), s.ioReady w = true → s.asClass w 1 = v →
    v.nvmGate w.fn nsid slba nlb true true = .ok n →
    v.writeFails n { who := w, kind := .nvm, nsid := nsid, slba := slba, nlb := nlb } = none →
    Completes (.nvmWrite w nsid slba nlb) s fun t =>
      t.ftl = { s.ftl with waiting := s.ftl.waiting ++ [{ who := w, kind := .nvm, nsid := nsid, slba := slba, nlb := nlb }] } ∧
      OnlyChanges [.ftl, .host] s t) ∧
  (∀ (s : State) (w : Who) (nsid slba nlb : Nat) (n : Ns), s.ioReady w = true → s.nvmGate w.fn nsid slba nlb true false = .ok n →
    s.writeFails n { who := w, kind := .zeroes, nsid := nsid, slba := slba, nlb := nlb } = none →
    Completes (.writeZeroes w nsid slba nlb) s fun t =>
      t.ftl = { s.ftl with waiting := s.ftl.waiting ++ [{ who := w, kind := .zeroes, nsid := nsid, slba := slba, nlb := nlb }] } ∧
      OnlyChanges [.ftl] s t) ∧
  (∀ (s v : State) (w : Who) (nsid slba nlb : Nat) (n : Ns), s.ioReady w = true → s.asClass w 0 = v →
    v.nvmGate w.fn nsid slba nlb false true = .ok n → v.up .mem = true → segBusy v (iusOf n slba nlb) = false →
    exec (.nvmRead w nsid slba nlb) s =
      .next (v.runJob { client := .host w, kind := .read, nsid := nsid, slba := slba, nlb := nlb, wait := 0, failed := none, second := false, again := false }
        (mediaEntries v (needsOf n slba nlb)))) ∧
  (∀ (s : State) (w : Who) (nsid slba nlb : Nat) (n : Ns) (data : List Byte), s.ioReady w = true →
    s.nvmGate w.fn nsid slba nlb false true = .ok n → s.up .mem = true → segBusy s (iusOf n slba nlb) = false →
    exec (.compare w nsid slba nlb (some data)) s =
      .next (s.runJob { client := .host w, kind := .compare data, nsid := nsid, slba := slba, nlb := nlb, wait := 0, failed := none, second := false, again := false }
        (mediaEntries s (needsOf n slba nlb)))) ∧
  (∀ (s : State) (w : Who) (nsid slba nlb : Nat) (n : Ns), s.ioReady w = true → s.nvmGate w.fn nsid slba nlb false false = .ok n →
    s.up .mem = true → segBusy s (iusOf n slba nlb) = false →
    exec (.verify w nsid slba nlb) s =
      .next (s.runJob { client := .host w, kind := .verify, nsid := nsid, slba := slba, nlb := nlb, wait := 0, failed := none, second := false, again := false }
        (mediaEntries s (needsOf n slba nlb)))) ∧
  (∀ (s : State) (w : Who), s.ioReady w = true → exec (.flush w 0xFFFFFFFF) s = .next (s.io w stOk 0)) ∧
  (∀ (s : State) (w : Who) (nsid slba nlb : Nat) (st : Status), s.ioReady w = true →
    ((s.asClass w 1).nvmGate w.fn nsid slba nlb true true = .error st →
      exec (.nvmWrite w nsid slba nlb) s = .next ((s.asClass w 1).io w st 0)) ∧
    ((s.asClass w 0).nvmGate w.fn nsid slba nlb false true = .error st →
      exec (.nvmRead w nsid slba nlb) s = .next ((s.asClass w 0).io w st 0))) ∧
  (∀ (s : State) (w : Who) (nsid : Nat) (rs : List LbaRange) (n : Ns), s.ioReady w = true → s.nsGate w.fn nsid .nvm = .ok n →
    s.reserved w.fn n true = false → rs.findSome? (rangeFails s n) = none →
    ∃ u : State, exec (.datasetManagement w nsid true rs) s = .next (u.io w stOk 0) ∧
      (∀ r ∈ rs, ∀ iu ∈ wholeIus n r, (u.entryOf iu).st = .unmapped) ∧
      (∀ iu, (∀ r ∈ rs, iu ∉ wholeIus n r) → u.entryOf iu = s.entryOf iu))

/-- R194, R195: the first write that can be admitted is; when its last byte is in the buffer it completes. R197: an acknowledged slot is
flushed, and a stripe past its limit is filled. -/
def Obligations.WritesAreAdmitted : Prop :=
  (∀ (s : State) (x : WaitingWrite) (n : Ns), admitsWrites s = true → pickWrite s s.ftl.waiting [] false = some (x, n) → x.kind = .nvm →
    Completes .writeAdmit s fun t =>
      t.ftl.waiting = s.ftl.waiting.erase x ∧
      t.ftl.admitted = s.ftl.admitted ++ [{ who := x.who, kind := .nvm, nsid := x.nsid, slba := x.slba, nlb := x.nlb, pieces := x.pieces s n }]) ∧
  (∀ (s : State) (w : Who) (data : List Byte) (a : AdmittedWrite) (n : Ns), s.running = true → s.up .host = true → s.up .mem = true →
    (s.ftl.admitted.find? fun a => a.who = w && !a.kind.isSink) = some a → s.ns.find a.nsid = some n → a.kind = .nvm →
    exec (.writeDataDone w (some data)) s =
      .next (((((s.writeArrived a n data).countWrite w.fn (a.nlb * n.lbaSize)).io w stOk 0).bufPeak).rekeyAdvance)) ∧
  (∀ (s : State) (w : Who) (a : AdmittedWrite), s.running = true → s.up .host = true → s.up .mem = true →
    (s.ftl.admitted.find? fun a => a.who = w && !a.kind.isSink) = some a →
    exec (.writeDataDone w none) s = .next ((s.discardWrite a).io w stDataTransfer 0).rekeyAdvance) ∧
  (∀ (s : State) (k : Nat) (x : Slot), s.slot k = some x → s.running = true → s.up .ctrl = true → s.up .engine = true →
    s.up .mem = true → s.power.writesStopped = false → x.acked = true → x.flushing = false → slotKeyed s x = true →
    iuAwaited s x.iu = false → exec (.slotFlushStart k) s = .next (s.flushSlot k)) ∧
  (∀ (s : State) (b j : Nat) (x : Stripe) (y : Band), s.stripe b j = some x → s.band b = some y → s.running = true → s.up .ctrl = true →
    s.power.writesStopped = false → x.st = 1 → y.fill / (16 * geomD y.geom) = j → y.fill % (16 * geomD y.geom) ≠ 0 →
    exec (.stripeCloseTimeout b j) s = .next (s.fillStripe b))

/-- R200, R201: a refresh candidate is Badger's victim before any other band, and nothing else is while the free level is at or above its
start. R200: the greedy choice has no more valid units than any other victim. R202: a copy that found no place is placed once there is
one. -/
def Obligations.GarbageCollection : Prop :=
  (∀ (s : State) (e : Nat × Band), (victims s).find? (fun e => e.2.refresh) = some e → chooseVictim s = some e.1) ∧
  (∀ s : State, (∀ e ∈ victims s, e.2.refresh = false) → freeBelow s (thGcStart s) = false → chooseVictim s = none) ∧
  (∀ (s : State) (v : Nat), chooseVictim s = some v → ∃ x : Band, (v, x) ∈ victims s ∧ x.st = .closed) ∧
  (∀ (s : State) (v : Nat), s.running = true → s.up .ctrl = true → s.up .mem = true → s.up .engine = true →
    s.power.writesStopped = false → s.ftl.victim = none → s.ftl.segFirst = false → chooseVictim s = some v →
    (∀ r, s.str.rebuild = some r → r.band ≠ v) → exec .badgerVictimSelect s = .next (s.beginVictim v)) ∧
  (∀ (s : State) (v : Nat), s.running = true → s.up .ctrl = true → s.up .mem = true → s.up .engine = true →
    s.power.writesStopped = false → s.ftl.victim = some v → s.ftl.segFirst = false → exec .badgerVictimSelect s = .next s.placeWaiting) ∧
  (∀ (s : State) (v : Nat) (r : Rebuild), s.running = true → s.up .ctrl = true → s.up .mem = true → s.up .engine = true →
    s.power.writesStopped = false → s.ftl.victim = none → s.ftl.segFirst = false → chooseVictim s = some v →
    s.str.rebuild = some r → r.band = v →
    exec .badgerVictimSelect s = .next ((s.dropRebuild.eraseBlocks [(r.lun, r.block)]).beginVictim v)) ∧
  (∀ (s : State) (es : List (Nat × Band)) (b v : Nat), greedyBand s es none = some (b, v) →
    v = validUnits s b ∧ (∃ e ∈ es, e.1 = b) ∧ ∀ e ∈ es, v ≤ validUnits s e.1)

/-- R216 to R221: the journal's records reach flash in order, a segment that is written takes a page of a map band and is dirty no more,
and a rebuilt segment is waited for no more. R477: an epoch boundary falls on a whole millisecond of the counter and raises VIN_EPOCH by
1; the shares, the credits and the budgets then begin anew, and a firmware commit ends (R507). -/
def Obligations.JournalAndEpoch : Prop :=
  (∀ s : State, s.running = true → s.power.writesStopped = false →
    Completes .journalPageTimeout s fun t =>
      t.ftl.journal = [] ∧ t.ftl.journalOnFlash.flatMap (·.recs) = s.ftl.journalOnFlash.flatMap (·.recs) ++ s.ftl.journal ∧
      t.ftl.map = s.ftl.map ∧ OnlyChanges [.ftl] s t) ∧
  (∀ (s u : State) (g a : Nat), s.running = true → s.up .mem = true → s.power.writesStopped = false → segmentDirty s g = true →
    g ∉ s.ftl.segRebuild → s.takeUnits .map 16 3 = (u, some a) →
    ∃ v : State, exec (.mapSegmentTimeout g) s = .next v.flipSegments ∧ v.ftl.mapPages = u.ftl.mapPages ++ [segmentNow u g a] ∧
      v.ftl.dirty = u.ftl.dirty.erase g ∧ v.ftl.map = u.ftl.map ∧ OnlyChanges [.ftl] u v) ∧
  (∀ (s : State) (g a : Nat), g < firstBlockSegment →
    (segmentNow s g a).entries = s.ftl.map.filter (fun e => e.1 / 2720 = g) ∧ (segmentNow s g a).jseq = s.ftl.jseq ∧
    (segmentNow s g a).addr = a ∧ (segmentNow s g a).segment = g ∧ (segmentNow s g a).done = false) ∧
  (∀ (s : State) (g : Nat), g ∈ s.ftl.segRebuild →
    ∃ u v : State, exec (.mapSegmentRebuildDone g) s = .next v.startHeldReads ∧
      u.ftl = { s.ftl with segRebuild := s.ftl.segRebuild.erase g } ∧ OnlyChanges [.ftl] s u ∧
      v = (let u2 := u.ftl.slots.foldl (fun t e => t.flipSlot e.1) u
           ((u2.ftl.copies.foldl (fun t c => t.flipCopy c) u2).freeSlots).victimCheck)) ∧
  (∀ s : State, s.running = true → s.up .ctrl = true → s.sys.rtcBase ≤ s.sys.ticks →
    ∃ u : State,
      exec .epochBoundary s = .next ((((((u.applyShares).portCredits .a).portCredits .b).spareUpdate).epochBudgets).commitStep) ∧
      u.reg rVinEpoch = s.reg rVinEpoch + 1 ∧ u.rtc % tMs = 0 ∧ s.rtc < u.rtc ∧ u.rtc ≤ s.rtc + tMs)

/-! ## Redundancy (R230 to R271) -/

/-- R247, R253, R254, R258 to R262: rebuild takes its next band, a reshape starts, is refused or is aborted, takes its next region, and
the dump ends with its trailers once the pages of its copies are written. The reading of a clean shutdown is the model's (notes/assumptions/33.md). -/
def Obligations.RebuildAndReshape : Prop :=
  (∀ (s : State) (b : Nat) (x : Band) (rest : List (Nat × Band)) (p l k : Nat), redundancyRuns s = true → s.str.rebuild = none →
    rebuildOrder s = (b, x) :: rest → x.lost.head? = some p → replacementLun s x = some l → pickBlock s l = some k →
    exec .rebuildBandStart s = .next ((s.holdBlocks [(l, k)]).rebuildNext { band := b, slot := p, lun := l, block := k, next := 0, cols := 0 })) ∧
  (∀ (s : State) (g : Nat) (l : List Nat), reshapeLeft s g = l → l ≠ [] → reshapeRefusal s g = none →
    ∃ u : State, s.reshapeBegin g = u.irq ∧ OnlyChanges [.str] s u ∧ u.str.reshape =
      { active := true, refused := false, reason := 0, target := g, region := none, cursor := 0, left := l, newBands := [], slotIx := 0,
        page := 0, redo := [], back := none, switching := false }) ∧
  (∀ (s : State) (r : Requester) (v : W32), s.barReaches r rStrReshapeCtl = true → fld v 1 0 ≠ 3 → s.str.reshape.active = false →
    bitAt v 31 = true →
    ∃ u : State, exec (.reshapeStart r v) s = .next (u.reshapeBegin (u.regFld rStrReshapeCtl 1 0)) ∧ u = s.writeFields rStrReshapeCtl v) ∧
  (∀ (s : State) (r : Requester) (v : W32), s.barReaches r rStrReshapeCtl = true → fld v 1 0 ≠ 3 → s.str.reshape.active = true →
    s.str.reshape.region = none → s.str.reshape.newBands = [] → bitAt v 30 = true →
    ∃ u : State, exec (.reshapeAbort r v) s = .next (u.eraseBlocks []) ∧ u.str.reshape.active = false ∧ u.str.reshape.left = [] ∧
      (∀ i, ∀ c ∈ (u.lun i).queue, isReshapeOp c = false) ∧ OnlyChanges [.media, .ftl, .str, .health] s u) ∧
  (∀ (s : State) (g : Nat) (left : List Nat), redundancyRuns s = true → s.str.reshape.active = true →
    reshapeBusy s = false → s.str.reshape.switching = false → s.str.reshape.region = none → s.str.reshape.left = g :: left →
    (∀ v, s.ftl.victim = some v → v / 4096 ≠ g) →
    exec .reshapeRegionBegin s = .next ((s.reshapeRegion g).reshapeResume g) ∧ (s.reshapeRegion g).str.reshape.region = some g ∧
      (s.ftl.bands.filter (fun e => e.1 / 4096 = g && e.2.st = .opened) = [] → ((s.reshapeRegion g).region g).st = .reshaping ∧
        ((s.reshapeRegion g).region g).newGeom = s.str.reshape.target ∧ OnlyChanges [.media, .str, .health] s (s.reshapeRegion g))) ∧
  (∀ (s : State) (g : Nat), redundancyRuns s = true → s.str.reshape.active = true → reshapeBusy s = false →
    s.str.reshape.switching = false → s.str.reshape.region = some g → exec .reshapeRegionBegin s = .next (s.reshapeResume g)) ∧
  (∀ s : State, s.sys.phase = .dumping → copyWritten s 0 = false ∨ copyWritten s 1 = false → exec .dumpComplete s = .next s) ∧
  (∀ s : State, s.sys.phase = .dumping → copyWritten s 0 = true → copyWritten s 1 = true →
    ∃ u : State, exec .dumpComplete s = .next u.afterDump ∧ u.cnt (rStrCount 4) = (s.cnt (rStrCount 4) + 1) % 2 ^ 64 ∧
      u.str.dump = s.str.dump.map fun d => { d with trailer := true })

/-! ## The seal cipher and its keys (R272 to R309) -/

/-- R277, R278: an import key pair is used once and expires; GENERATE, IMPORT and CLEAR change their slot, which the ledger records.
R274, R275: what is stored of a key is wrapped. R303: an import loads its key only as its record is made, so that an alarm before that
leaves the slot. That an import key is spent once named, and the ledger append that a command waits for, are the model's reading
(notes/assumptions/34.md). -/
def Obligations.KeySlotCommands : Prop :=
  (∀ (s : State) (w : Who), s.adminReady w = true →
    ∃ (u : State) (bs : List Byte), exec (.getImportKey w) s = .next ((u.dataOut w bs).admin w stOk 0) ∧
      (∃ x, u.sea.importKeys = s.sea.importKeys ++ [x] ∧ x.id = s.host.nextImport % 2 ^ 32 ∧ x.fn = w.fn) ∧
      u.host.nextImport = s.host.nextImport + 1 ∧ OnlyChanges [.host, .sea] s u) ∧
  (∀ (s : State) (id : Nat), Completes (.importKeyExpiry id) s fun t =>
    (∀ k ∈ t.sea.importKeys, k.id ≠ id) ∧ (∀ k ∈ s.sea.importKeys, k.id ≠ id → k ∈ t.sea.importKeys) ∧ OnlyChanges [.sea] s t) ∧
  (∀ (s : State) (w : Who) (slot use : Nat), s.adminReady w = true → s.slotAllowed w.fn use slot = true → epochSpent s use = false →
    s.appendRoom = true →
    Completes (.generate w slot use) s fun t =>
      (t.slotOf use slot).st = .loaded ∧ (t.slotOf use slot).owner = (s.slotOf use slot).owner ∧
      (t.slotOf use slot).key = (s.random (slotKeyLen use)).1 ∧ (t.slotOf use slot).credential = false ∧
      (t.slotOf use slot).stored = some (kwWrap (bytesOf 32 Config.deviceKek) (s.random (slotKeyLen use)).1) ∧
      (∀ i, i ≠ slot → t.slotOf use i = s.slotOf use i) ∧
      (∃ a, t.health.cfg = s.health.cfg ++ [.append a] ∧ a.kind = 4 ∧ a.cause = 2 ∧ a.then_ = .complete w stOk 0) ∧
      OnlyChanges [.sea, .media, .health] s t) ∧
  (∀ (s : State) (w : Who) (data : List Byte) (k : ImportKey), s.adminReady w = true → data.length = 1272 →
    s.slotAllowed w.fn (leAt data 2 1) (leAt data 0 2) = true → leAt data 3 1 = slotKeyLen (leAt data 2 1) →
    importReservedOk data (leAt data 3 1) = true → epochSpent s (leAt data 2 1) = false → s.appendRoom = true →
    (s.sea.importKeys.find? fun k => k.id = leAt data 4 4 && k.fn = w.fn) = some k →
    Completes (.importKey w data) s fun t =>
      (∀ x ∈ t.sea.importKeys, x ≠ k) ∧
      (∀ key, importedKey k.secret data (leAt data 3 1) = some key → halvesEqual (leAt data 2 1) key = false →
        (∀ use i, t.slotOf use i = s.slotOf use i) ∧
        ∃ a, t.health.cfg = s.health.cfg ++ [.append a] ∧ a.kind = 4 ∧ a.cause = 1 ∧
          a.then_ = .loadKey w (leAt data 2 1) (leAt data 0 2) key) ∧
      OnlyChanges [.sea, .media, .health, .host] s t) ∧
  (∀ (s : State) (a : Append) (rest : List Append) (w : Who) (use slot : Nat) (key : List Byte), s.running = true →
    s.boot.appends = a :: rest → sysWaits s .ledger = false → a.then_ = .loadKey w use slot key →
    ∃ u : State, exec (.ledgerAppendDone true) s = .next (u.admin w stOk 0) ∧ (u.slotOf use slot).st = .loaded ∧
      (u.slotOf use slot).key = key ∧ (u.slotOf use slot).stored = some (kwWrap (bytesOf 32 Config.deviceKek) key) ∧
      (∀ i, i ≠ slot → u.slotOf use i = s.slotOf use i) ∧ OnlyChanges [.sea, .media, .boot] s u) ∧
  (∀ (s : State) (w : Who) (slot use : Nat), s.adminReady w = true → s.slotAllowed w.fn use slot = true → s.appendRoom = true →
    ∃ u : State,
      exec (.clear w slot use) s = .next ((u.failSlotUsers (Stage.usesSlot use slot)).slotDone w 3 use slot) ∧
      (u.slotOf use slot).st = .empty ∧ (u.slotOf use slot).key = [] ∧ (u.slotOf use slot).stored = none ∧
      (u.slotOf use slot).owner = (s.slotOf use slot).owner ∧ OnlyChanges [.sea] s u)

/-- R277, R278: RESTORE loads the erased slots of the manager's port from their stored copies and records them; SLOT_STATUS lists what
the function owns. R293: a nonce log record that is programmed raises the slot's reservation to its target. A RESTORE that finds nothing
erased succeeds, by the model's reading (notes/assumptions/34.md). -/
def Obligations.RestoreAndNonces : Prop :=
  (∀ (s : State) (w : Who) (x : Nat × Nat) (k : List Byte), s.adminReady w = true → isManager w.fn = true → alarmActive s = false →
    s.appendRoom = true → erasedKeySlots s (portOfFn w.fn) = [x] → (s.slotOf x.1 x.2).stored = some k →
    Completes (.restore w) s fun t =>
      (t.slotOf x.1 x.2).st = .loaded ∧ (t.slotOf x.1 x.2).key = (kwUnwrap (s.slotKek x.1 x.2) k).getD [] ∧
      (∃ a, t.health.cfg = s.health.cfg ++ [.append a] ∧ a.kind = 4 ∧ a.cause = 4 ∧ a.then_ = .complete w stOk 0) ∧
      OnlyChanges [.sea, .media, .health] s t) ∧
  (∀ (s : State) (w : Who), s.adminReady w = true →
    exec (.slotStatus w) s = .next ((s.dataOut w (slotStatus s w.fn)).admin w stOk 0) ∧ (slotStatus s w.fn).length % 4 = 0) ∧
  (∀ (s : State) (slot x : Nat), s.running = true → sysWaits s (.nonce slot) = false → (s.wrapSlot slot).logTarget = some x →
    Completes (.nonceLogWriteDone slot) s fun t =>
      (t.wrapSlot slot).reservedTo = x ∧ (t.wrapSlot slot).next = (s.wrapSlot slot).next ∧ (t.wrapSlot slot).key = (s.wrapSlot slot).key ∧
      (s.sea.nonceLog.length < 458751 → t.sea.lseq = s.sea.lseq + 1 ∧
        ∃ r ∈ t.sea.nonceLog, r.slot = slot ∧ r.kind = 0 ∧ r.reservedTo = x) ∧ (∀ i, i ≠ slot → t.wrapSlot i = s.wrapSlot i) ∧
      OnlyChanges [.media, .sea] s t)

/-- R299, R300: an alarm erases every key slot, keeps no key in a cache, in a slot of the write buffer or in the digest engine's slots,
ends an import that is under way (R303), and records its cause. R297: a mismatch is an alarm only where a class has its check set. -/
def Obligations.AlarmErasesKeys : Prop :=
  (∀ (s : State) (a : AlarmCause),
    (∀ i, ((s.eraseKeys a).xts i).key = [] ∧ ((s.eraseKeys a).xts i).st ≠ .loaded) ∧
    (∀ i, ((s.eraseKeys a).wrapSlot i).key = [] ∧ ((s.eraseKeys a).wrapSlot i).st ≠ .loaded) ∧
    (∀ i, ((s.eraseKeys a).hmacSlot i).st ≠ .loaded) ∧
    (s.eraseKeys a).sea.caches = [] ∧ a ∈ (s.eraseKeys a).sea.alarms ∧
    (∀ i, ((s.eraseKeys a).xts i).stored = (s.xts i).stored) ∧ OnlyChanges [.sea, .dgs] s (s.eraseKeys a)) ∧
  (∀ (s : State) (a : AlarmCause), s.sys.phase = .running → alarmCan s a = true → s.disp.flows = [] → a ≠ .overtemp →
    Completes (.alarm a) s fun t => t.sea = (s.eraseKeys a).sea ∧ t.dgs = (s.eraseKeys a).dgs ∧
      (∀ i, (t.xts i).key = [] ∧ (t.xts i).st ≠ .loaded) ∧ (∀ i, (t.wrapSlot i).key = []) ∧ a ∈ t.sea.alarms ∧
      (∀ e ∈ t.ftl.slots, e.2.key = []) ∧ t.health.cfg = s.health.cfg.filter (fun c => c.importer.isNone) ∧
      (∃ e, t.boot.appends = s.boot.appends.filter (fun a => a.importer.isNone) ++ [e] ∧ e.kind = 6)) ∧
  (∀ (s : State) (a : AlarmCause), s.sys.phase ≠ .off → s.sys.phase ≠ .hold → alarmCan s a = true →
    exec (.alarm a) s = .next ((s.countMismatch a).alarm a) ∧
    (s.countMismatch a).cnt (rSeaCount 3) = (if a = .dupMismatch ∨ a = .invMismatch then (s.cnt (rSeaCount 3) + 1) % 2 ^ 64
      else s.cnt (rSeaCount 3)) ∧ OnlyChanges [.regs] s (s.countMismatch a)) ∧
  (∀ (s : State) (a : AlarmCause), s.sys.phase = .off ∨ alarmCan s a = false → exec (.alarm a) s = .next s) ∧
  (∀ s : State, (alarmCan s .dupMismatch = true ↔ ∃ c, c < 3 ∧ s.regFld rSeaFaultCfg (2 * c + 1) (2 * c) = 1) ∧
    (alarmCan s .invMismatch = true ↔ ∃ c, c < 3 ∧ s.regFld rSeaFaultCfg (2 * c + 1) (2 * c) = 2))

/-- R284 to R286: Opal locks and unlocks a range for an authority with access to it, and nobody else, and completes once that is kept;
GenKey asks for a new key; a read of the MBR table answers its bytes, and while MBR shadowing is on a read of the low LBAs sees them.
What Opal itself prescribes is presumed (notes/assumptions/30.md). -/
def Obligations.OpalLocking : Prop :=
  (∀ (s : State) (w : Who) (nsid id : Nat) (rd wr : Bool) (n : Ns) (r : Range), s.adminReady w = true → isManager w.fn = true →
    s.opalRange (portOfFn w.fn) nsid id = some (n, r) → (s.opal (portOfFn w.fn)).mayLock r = true →
    ∃ u : State, exec (.opalSecuritySend w 1 (.setLocked nsid id rd wr)) s = .next (u.cfgWrite (.complete w stOk 0)) ∧
      u.ns = s.ns.modify nsid (fun n => { n with
        ranges := n.ranges.map fun r => if r.id = id then { r with readLocked := rd, writeLocked := wr } else r }) ∧
      (u.opal (portOfFn w.fn)).response = 0 ∧ OnlyChanges [.ns, .sea] s u) ∧
  (∀ (s : State) (w : Who) (nsid id : Nat) (rd wr : Bool) (n : Ns) (r : Range), s.adminReady w = true → isManager w.fn = true →
    s.opalRange (portOfFn w.fn) nsid id = some (n, r) → (s.opal (portOfFn w.fn)).mayLock r = false →
    ∃ u : State, exec (.opalSecuritySend w 1 (.setLocked nsid id rd wr)) s = .next (u.admin w stOk 0) ∧
      u.ns = s.ns ∧ (u.opal (portOfFn w.fn)).response = 1 ∧ OnlyChanges [.sea] s u) ∧
  (∀ (s : State) (w : Who), s.adminReady w = true → isManager w.fn = true →
    exec (.opalSecurityReceive w 1) s = .next ((s.dataOut w (opalResponse s (portOfFn w.fn))).admin w stOk 0) ∧
      opalResponse s (portOfFn w.fn) =
        leBytes 2 (comIdOf (portOfFn w.fn)) ++ leBytes 1 (s.opal (portOfFn w.fn)).response ++ (s.opal (portOfFn w.fn)).out) ∧
  (∀ (s : State) (w : Who) (off len : Nat), s.adminReady w = true → isManager w.fn = true → (s.opal (portOfFn w.fn)).session = true →
    off + len ≤ mbrBytes →
    ∃ u : State, exec (.opalSecuritySend w 1 (.readMbr off len)) s = .next (u.admin w stOk 0) ∧
      (u.opal (portOfFn w.fn)).out = Mem.readBytes (s.opal (portOfFn w.fn)).mbr off len ∧
      (u.opal (portOfFn w.fn)).response = 0 ∧ OnlyChanges [.sea] s u) ∧
  (∀ (s : State) (f : Fn) (n : Ns) (slba : Nat) (bs : List Byte),
    ((s.opal (portOfFn f)).mbrEnabled = false ∨ (s.opal (portOfFn f)).mbrDone = true → mbrOver s f n slba bs = bs) ∧
    ((s.opal (portOfFn f)).mbrEnabled = true → (s.opal (portOfFn f)).mbrDone = false → slba * n.lbaSize + bs.length ≤ mbrBytes →
      bs ≠ [] → mbrOver s f n slba bs = Mem.readBytes (s.opal (portOfFn f)).mbr (slba * n.lbaSize) bs.length)) ∧
  (∀ (s : State) (nsid range : Nat) (n : Ns) (r : Range), s.ns.find nsid = some n → (n.ranges.find? fun r => r.id = range) = some r →
    s.running = true → s.up .ctrl = true → (s.opal (portOfFn (s.xts r.slot).owner)).mayLock r = true → r.rekeying = false →
    ∃ u : State, exec (.genkey nsid range) s = .next u.rekeyAdvance ∧
      u.sea.rekeys = s.sea.rekeys ++ [⟨nsid, range, none⟩] ∧ OnlyChanges [.ns, .sea] s u) ∧
  (∀ (s : State) (nsid range : Nat), s.running = true →
    Completes (.deallocationComplete nsid range) s fun t =>
      OnlyChanges [.ns] s t ∧ ∀ n r, t.ns.find nsid = some n → r ∈ n.ranges → r.id = range → r.deallocating = false)

/-! ## The digest engine (R310 to R334) -/

/-- R324: the owner loses the port, its message is discarded with END_STATUS 0xCE, and the port goes to the next claim. The 100 ms are
the command's (notes/assumptions/9.md). -/
def Obligations.OwnerTimesOut : Prop :=
  ∀ (s : State) (o : PortReq), s.dgs.owner = some o →
    Completes .portOwnerTimeout s fun t =>
      t.dgs.owner = s.dgs.claims.head? ∧ t.dgs.claims = s.dgs.claims.tail ∧ t.dgs.msgOn = false ∧ t.dgs.msg = [] ∧
      t.dgs.endStatus = 0xCE ∧ OnlyChanges [.dgs] s t

/-- R323: a claim takes a free port or waits; the owner's release gives the port to the next claim. R325, R331: the owner starts a
message, gives it words while a core absorbs its blocks, and finishes it. R325, R332: the digest of a finished message stands in the
DIGEST registers, and the verdict of a comparison in its own; R318: where one comparator is wrong the verdict is no verdict. Details that R323 to R332 leave open are the model's reading (notes/assumptions/35.md). -/
def Obligations.DigestPort : Prop :=
  (∀ (s : State) (r : PortReq), portReqReaches s r = true → s.dgs.owner = none →
    Completes (.claim r) s fun t => t.dgs.owner = some r ∧ t.dgs.msgOn = false ∧ OnlyChanges [.dgs] s t) ∧
  (∀ (s : State) (r o : PortReq), portReqReaches s r = true → s.dgs.owner = some o → o ≠ r →
    Completes (.claim r) s fun t => t.dgs.owner = some o ∧ r ∈ t.dgs.claims ∧ OnlyChanges [.dgs] s t) ∧
  (∀ (s : State) (r : PortReq), portReqReaches s r = true → s.dgs.owner = some r →
    Completes (.release r) s fun t =>
      t.dgs.owner = s.dgs.claims.head? ∧ t.dgs.claims = s.dgs.claims.tail ∧ t.dgs.msg = [] ∧ OnlyChanges [.dgs] s t) ∧
  (∀ (s : State) (r : PortReq) (v : W32), portReqReaches s r = true → s.dgs.owner = some r → bitAt v 31 = true →
    algValid (fld v 3 0) = true → bitAt v 16 = false →
    Completes (.portStart r v) s fun t =>
      t.dgs.msgOn = true ∧ t.dgs.msg = [] ∧ t.dgs.alg = fld v 3 0 ∧ t.dgs.hmacSlot = none ∧ t.dgs.compare = bitAt v 17 ∧
      t.dgs.done = false ∧ OnlyChanges [.regs, .dgs] s t) ∧
  (∀ (s : State) (r : PortReq) (word : W32), portReqReaches s r = true → s.dgs.owner = some r → s.dgs.msgOn = true →
    s.dgs.done = false → s.dgs.busy = false →
    Completes (.portData r word) s fun t =>
      t.dgs.msg = s.dgs.msg ++ leBytes 4 word.toNat ∧ t.dgs.dropped = s.dgs.dropped ∧
      t.dgs.busy = decide ((s.dgs.msg.length + 4) % algBlock s.dgs.alg = 0) ∧ OnlyChanges [.dgs] s t) ∧
  (∀ (s : State) (r : PortReq) (word : W32), portReqReaches s r = true → s.dgs.owner = some r → s.dgs.msgOn = true →
    s.dgs.done = false → s.dgs.busy = true →
    Completes (.portData r word) s fun t => t.dgs = { s.dgs with dropped := true } ∧ OnlyChanges [.dgs] s t) ∧
  (∀ s : State, s.dgs.busy = true → s.up .engine = true → 0 < modeCores s.power.effective →
    Completes .portBlockAbsorbed s fun t =>
      t.dgs = { s.dgs with busy := false } ∧ t.cnt (rDgsCount 1) = (s.cnt (rDgsCount 1) + algBlock s.dgs.alg) % 2 ^ 64 ∧
      OnlyChanges [.regs, .dgs] s t) ∧
  (∀ (s : State) (r : PortReq) (v : W32), portReqReaches s r = true → s.dgs.owner = some r → bitAt v 31 = true →
    fld v 2 0 ≤ 4 → s.dgs.msgOn = true →
    ∀ seen, Completes (.portFinish r v seen) s fun t =>
      t.dgs.done = true ∧ t.dgs.msgOn = false ∧ t.dgs.endStatus = 0 ∧ OnlyChanges [.regs, .dgs, .health] s t) ∧
  (∀ (s : State) (r : PortReq) (v : W32), portReqReaches s r = true → s.dgs.owner = some r → bitAt v 31 = true →
    fld v 2 0 ≤ 4 → s.dgs.msgOn = true → s.dgs.dropped = false → s.dgs.hmacSlot = none → s.dgs.msg ≠ [] →
    ∀ seen, Completes (.portFinish r v seen) s fun t =>
      (∀ n, n < 16 → t.reg (rDgsDigest n) =
        w32 (leAt (hashOf s.dgs.alg (s.dgs.msg.take (s.dgs.msg.length - 4 + fld v 2 0))) (4 * n) 4)) ∧
      (s.dgs.compare = true → t.reg rDgsVerdict = verdictOf seen (decide (portExpect s (algOut s.dgs.alg) =
        hashOf s.dgs.alg (s.dgs.msg.take (s.dgs.msg.length - 4 + fld v 2 0)))))) ∧
  (∀ (seen : Comparators) (eq : Bool), verdictRead (verdictOf seen eq) = (if seen = .agree then some eq else none))

/-- R320 to R322, R333: an HMAC slot is loaded from its blob under a wrap slot, cleared, and reloaded after a reset. R321: a task of a
Trail whose slot was cleared fails as it would fire. -/
def Obligations.HmacSlots : Prop :=
  (∀ (s : State) (r : Requester) (v : W32), s.barReaches r rDgsHmacLoad = true → hmacAllowed s r (hmacSel s) = true →
    bitAt v 31 = true → algHmac (fld v 3 0) = true → s.dgs.loading = none →
    Completes (.hmacLoad r v) s fun t =>
      (∀ key, hmacLoadCheck s (hmacSel s) (fld v 3 0) (fld v 23 16) (fld v 15 8) (hmacBlob s (fld v 23 16 + 8)) = .ok key →
        (t.hmacSlot (hmacSel s)).st = .loading ∧ ∃ l, t.dgs.loading = some l ∧ l.slot = hmacSel s ∧ l.key = key) ∧
      (∀ e, hmacLoadCheck s (hmacSel s) (fld v 3 0) (fld v 23 16) (fld v 15 8) (hmacBlob s (fld v 23 16 + 8)) = .error e →
        t.hmacSlot (hmacSel s) = { s.hmacSlot (hmacSel s) with lastErr := e }) ∧ OnlyChanges [.regs, .sea, .dgs] s t) ∧
  (∀ (s : State) (l : HmacLoading), s.dgs.loading = some l →
    Completes .hmacLoadDone s fun t =>
      t.hmacSlot l.slot = { s.hmacSlot l.slot with
        st := .loaded, alg := l.alg, wrap := l.wrap, key := l.key, blob := l.blob, lastErr := 0 } ∧
      t.dgs.loading = none ∧ (∃ a, t.boot.appends = s.boot.appends ++ [a] ∧ a.kind = 5 ∧ a.cause = 0) ∧
      OnlyChanges [.dgs, .boot, .media, .health] s t) ∧
  (∀ (s : State) (r : Requester) (v : W32), s.barReaches r rDgsHmacLoad = true → hmacAllowed s r (hmacSel s) = true →
    bitAt v 30 = true →
    ∃ (u : State) (p : Stage → Bool) (a : Append),
      exec (.hmacClear r v) s = .next (((u.failSlotUsers p).cfgWrite .note).requestAppend a) ∧ a.kind = 5 ∧ a.cause = 1 ∧
      u.hmacSlot (hmacSel s) = { HmacSlot.free with owner := (s.hmacSlot (hmacSel s)).owner } ∧ OnlyChanges [.regs, .dgs] s u) ∧
  (∀ (s : State) (i : Nat), hmacReloadable s i = true → s.up .engine = true →
    Completes (.hmacReloadDone i) s fun t =>
      (∀ key, kwUnwrap (s.wrapSlot (s.hmacSlot i).wrap).key (s.hmacSlot i).blob = some key →
        t.hmacSlot i = { s.hmacSlot i with st := .loaded, key := key }) ∧
      (t.hmacSlot i).owner = (s.hmacSlot i).owner ∧ (∀ j, j ≠ i → t.hmacSlot j = s.hmacSlot j) ∧
      OnlyChanges [.regs, .sea, .dgs] s t) ∧
  (∀ (s : State) (f : Flow) (e : Task) (d : Nat) (c : DigestCtx) (st : Stage), dispatching s = true →
    flowGoes s f = true → s.boundFlow e.flow = some f → s.entry e.flow e.stage e.cslot = some e → e.ready = true →
    Trail.stageAt f.trail e.stage = some st → (digestStages f.trail).findIdx? (· = e.stage) = some d →
    s.dgs.ctxs.find (4 * e.flow + d) = some c → c.cleared = true →
    exec (.taskFire e.flow e.stage e.cslot .good) s = .next (s.failFlow e.flow e.chunk e.stage stKeySlotEmpty))

/-! ## The codec and the reshuffles (R335 to R350, R386 to R388) -/

/-- R336 to R343: what the codec encodes it decodes: the first 65,536 bytes of any payload that is not empty, at every record width.
R337: a block is at most 16 bytes longer than what it encodes. -/
def Obligations.CodecRoundTrip : Prop :=
  (∀ (w : Nat) (payload : List Byte), w ≤ 4096 → payload ≠ [] → decodeBlock w (encodeBlock w payload) = .ok (payload.take 65536)) ∧
  (∀ (w : Nat) (payload : List Byte), (encodeBlock w payload).length ≤ Nat.min payload.length 65536 + 16)

/-- R387: UNTRANSPOSE computes G as TRANSPOSE does, bit b of byte j of unit 8m + k receives bit k of input byte q × (G / 8) + m, what
lies from G × u onward is copied unchanged, and UNTRANSPOSE of TRANSPOSE returns the input for every L. R386: TRANSPOSE makes 8u bit
planes of the whole groups of 8 units, leaves the rest unchanged, and keeps the length; it undoes UNTRANSPOSE. -/
def Obligations.UntransposeInverts : Prop :=
  (∀ (u : Nat) (bs : List Byte), 1 ≤ u →
    untranspose u (transpose u bs) = bs ∧ (untranspose u bs).length = bs.length ∧
    (untranspose u bs).drop (8 * (bs.length / u / 8) * u) = bs.drop (8 * (bs.length / u / 8) * u) ∧
    (∀ m k j b, m < bs.length / u / 8 → k < 8 → j < u → b < 8 →
      ((untranspose u bs).getD ((8 * m + k) * u + j) 0).getLsbD b =
        (bs.getD ((8 * j + b) * (bs.length / u / 8) + m) 0).getLsbD k)) ∧
  (∀ (u : Nat) (bs : List Byte), 1 ≤ u →
    transpose u (untranspose u bs) = bs ∧ (transpose u bs).length = bs.length ∧
    (transpose u bs).drop (8 * (bs.length / u / 8) * u) = bs.drop (8 * (bs.length / u / 8) * u) ∧
    (∀ m k j b, m < bs.length / u / 8 → k < 8 → j < u → b < 8 →
      ((transpose u bs).getD ((8 * j + b) * (bs.length / u / 8) + m) 0).getLsbD k =
        (bs.getD ((8 * m + k) * u + j) 0).getLsbD b))

/-- R388: INTERLEAVE and DE-INTERLEAVE move each element where the formula says, leave the rest unchanged, and undo each other. -/
def Obligations.InterleaveInverts : Prop :=
  ∀ (st e : Nat) (bs : List Byte), 1 ≤ st → 1 ≤ e →
    deinterleave st e (interleave st e bs) = bs ∧ interleave st e (deinterleave st e bs) = bs ∧
    (interleave st e bs).length = bs.length ∧
    (interleave st e bs).drop (st * (bs.length / (st * e)) * e) = bs.drop (st * (bs.length / (st * e)) * e) ∧
    (∀ k i x, k < bs.length / (st * e) → i < st → x < e →
      (interleave st e bs).getD ((k * st + i) * e + x) 0 = bs.getD (i * (bs.length / (st * e)) * e + k * e + x) 0) ∧
    (deinterleave st e bs).length = bs.length ∧
    (deinterleave st e bs).drop (st * (bs.length / (st * e)) * e) = bs.drop (st * (bs.length / (st * e)) * e) ∧
    (∀ k i x, k < bs.length / (st * e) → i < st → x < e →
      (deinterleave st e bs).getD (i * (bs.length / (st * e)) * e + k * e + x) 0 = bs.getD ((k * st + i) * e + x) 0)

/-! ## Lynx (R351 to R375) -/

/-- R355: the winner of a search is valid, has the key and the highest PRIO, and among entries of that PRIO the lowest index; COUNT is
the number of matches at that PRIO, saturating at 255; there is none exactly when nothing matches. R356: the fields of the result word. -/
def Obligations.LynxWinner : Prop :=
  (∀ (t : LynxTable) (key : List Byte),
    (∀ i e, t.winner key = some (i, e) →
      (i, e) ∈ t.entries ∧ e.valid = true ∧ e.key = key ∧
      (∀ x ∈ t.entries, x.2.valid = true → x.2.key = key → x.2.prio ≤ e.prio ∧ (x.2.prio = e.prio → i ≤ x.1)) ∧
      t.countAt key e.prio = Nat.min 255 (t.entries.filter fun x => x.2.valid && decide (x.2.key = key) && decide (x.2.prio = e.prio)).length) ∧
    (t.winner key = none ↔ ∀ x ∈ t.entries, ¬(x.2.valid = true ∧ x.2.key = key))) ∧
  (∀ (t : LynxTable) (key : List Byte) (v : Bool),
    t.result key v < 2 ^ 63 ∧ (t.winner key = none → t.result key v = 0) ∧
    (∀ i e, t.winner key = some (i, e) → e.prio < 8 → i < 2 ^ 18 → e.value < 2 ^ 24 →
      t.result key v / 2 ^ 62 = 1 ∧ t.result key v / 2 ^ 61 % 2 = (if 2 ≤ t.countAt key e.prio then 1 else 0) ∧
      t.result key v / 2 ^ 60 % 2 = (if v then 1 else 0) ∧ t.result key v / 2 ^ 57 % 8 = e.prio ∧
      t.result key v / 2 ^ 48 % 2 ^ 9 = t.countAt key e.prio ∧ t.result key v / 2 ^ 24 % 2 ^ 24 = i ∧ t.result key v % 2 ^ 24 = e.value))

/-- R352, R360, R372, R373: a manager defines and undefines a table and reads, writes and deletes its entries. R360: a WRITE of a valid
entry whose key another index of the table holds is refused with RESULT 2 and changes no entry. -/
def Obligations.LynxTables : Prop :=
  (∀ (s : State) (r : Requester) (v : W32) (m : Fn), requesterFn r = some m → s.barReaches r rLnxTblCfg = true → bitAt v 31 = true →
    lynxHeld (s.lynxStageCfg v) m (lynxSel (s.lynxStageCfg v)) = false →
    lynxBadDefinition (s.lynxStageCfg v) m (lynxSel (s.lynxStageCfg v)) (lynxStaged (s.lynxStageCfg v)) = false →
    Completes (.define r v) s fun t =>
      t.lynxTable (lynxSel (s.lynxStageCfg v)) = some (lynxStaged (s.lynxStageCfg v)) ∧ t.regBit rLnxTblInfo 29 = false ∧
      (∀ i, i ≠ lynxSel (s.lynxStageCfg v) → t.lynxTable i = s.lynxTable i) ∧ OnlyChanges [.regs, .lynx] s t) ∧
  (∀ (s : State) (r : Requester) (v : W32) (m : Fn), requesterFn r = some m → s.barReaches r rLnxTblCfg = true → bitAt v 31 = false →
    bitAt v 30 = true → lynxHeld (s.lynxStageCfg v) m (lynxSel (s.lynxStageCfg v)) = false →
    Completes (.undefine r v) s fun t =>
      t.lynxTable (lynxSel (s.lynxStageCfg v)) = none ∧ t.regBit rLnxTblInfo 29 = false ∧ OnlyChanges [.regs, .lynx] s t) ∧
  (∀ (s : State) (r : Requester) (v : W32), s.barReaches r rLnxTblSel = true →
    Completes (.lnxTblSelWrite r v) s fun t => lynxSel t = fld v 3 0 ∧ OnlyChanges [.regs] s t) ∧
  (∀ (s : State) (r : Requester) (v : W32) (x : LynxTable) (i : Nat), s.barReaches r rLnxEntCmd = true → lynxOnly v 31 = true →
    lynxEntTarget s = .ok (x, i) →
    Completes (.lnxEntRead r v) s fun t =>
      t.regBit rLnxEntAttr 31 = (x.entries.getD i ⟨false, 0, 0, [], 0⟩).valid ∧
      t.regFld rLnxEntAttr 23 0 = (x.entries.getD i ⟨false, 0, 0, [], 0⟩).value % 2 ^ 24 ∧ t.reg rLnxEntCmd = 0 ∧
      OnlyChanges [.regs] s t) ∧
  (∀ (s : State) (r : Requester) (v : W32) (x : LynxTable) (i : Nat), s.barReaches r rLnxEntCmd = true → lynxOnly v 30 = true →
    lynxEntTarget s = .ok (x, i) → s.regBit rLnxEntAttr 31 = false →
    Completes (.lnxEntWrite r v) s fun t =>
      (∃ y, t.lynxTable (lynxSel s) = some y ∧ ∃ e, y.entries.find i = some e ∧ e.valid = false ∧ e.key = lynxEntKey s x) ∧
      t.reg rLnxEntCmd = 0 ∧ OnlyChanges [.regs, .lynx] s t) ∧
  (∀ (s : State) (r : Requester) (v : W32) (x : LynxTable) (i : Nat), s.barReaches r rLnxEntCmd = true → lynxOnly v 29 = true →
    lynxEntTarget s = .ok (x, i) →
    Completes (.lnxEntDelete r v) s fun t =>
      (∃ y, t.lynxTable (lynxSel s) = some y ∧ y.entries.find i = none) ∧ t.reg rLnxEntCmd = 0 ∧ OnlyChanges [.regs, .lynx] s t) ∧
  (∀ (s : State) (r : Requester) (v : W32) (x : LynxTable) (i j : Nat) (e : LynxEntry), s.barReaches r rLnxEntCmd = true →
    lynxOnly v 30 = true → lynxEntTarget s = .ok (x, i) → s.regBit rLnxEntAttr 31 = true → (j, e) ∈ x.entries → j ≠ i →
    e.valid = true → e.key = lynxEntKey s x →
    Completes (.lnxEntWrite r v) s fun t => t.lynx = s.lynx ∧ t.reg rLnxEntCmd = 2 ∧ OnlyChanges [.regs] s t)

/-- R362 to R366, R369, R371: the compare corrects or loses an entry, a lap ends or runs over, and a reload ends, at which the array is its
shadow again and kept doorbells ring. R364: a search without verification answers what its copy holds, and a verified one, where the
copy is sound, what the table holds. What the compare sees comes with the command (notes/assumptions/1.md and 35.md). -/
def Obligations.LynxCompare : Prop :=
  (∀ (s : State) (table i : Nat) (x : LynxTable), s.lynxTable table = some x → lynxCompares s = true → i < x.capacity →
    Completes (.lynxCompareStep table i .differsShadowGood) s fun t =>
      t.lynxTable table = some { x with diffs := x.diffs.filter fun d => d.2.index ≠ i } ∧
      (∀ k, k ≠ table → t.lynxTable k = s.lynxTable k) ∧
      t.cnt (rLnxCount 5) = (s.cnt (rLnxCount 5) + 1) % 2 ^ 64 ∧ OnlyChanges [.regs, .lynx, .health] s t) ∧
  (∀ (s : State) (table i : Nat) (x : LynxTable), s.lynxTable table = some x → lynxCompares s = true → i < x.capacity →
    Completes (.lynxCompareStep table i .shadowBadParityGood) s fun t =>
      t.lynxTable table = some (x.shadowTakes i) ∧ i ∉ (x.shadowTakes i).shadowBad ∧ OnlyChanges [.lynx, .health] s t) ∧
  (∀ (s : State) (table i : Nat) (x : LynxTable), s.lynxTable table = some x → lynxCompares s = true → i < x.capacity → x.copies ≤ 1 →
    exec (.lynxCompareStep table i .bothBadOtherCopyGood) s = .next (s.lynxLose table i)) ∧
  (∀ (s : State) (table i : Nat), s.lynxTable table = none → lynxCompares s = true → freeUnit s i = true →
    Completes (.lynxCompareStep table i .differsShadowGood) s fun t =>
      t.cnt (rLnxCount 5) = (s.cnt (rLnxCount 5) + 1) % 2 ^ 64 ∧ t.lynx = s.lynx ∧ OnlyChanges [.regs, .health] s t) ∧
  (∀ (s : State) (table i : Nat) (x : LynxTable), s.lynxTable table = some x → lynxCompares s = true → i < x.capacity → x.kv = false →
    ∃ u : State, exec (.lynxCompareStep table i .bothBadNoCopy) s = .next (u.lynxRecord table i).irq ∧
      (∃ y, u.lynxTable table = some y ∧ y.entries.find i = none ∧ y.faulted = true ∧ i ∈ y.lost) ∧ OnlyChanges [.lynx, .health] s u) ∧
  (∀ (s : State) (us : Nat), lynxCompares s = true →
    Completes (.lynxLapComplete us) s fun t =>
      t.reg rLnxLapLast = w32 (Nat.min 0xFFFFFFFF us) ∧ t.lynx.lapOver = false ∧ (lapTargetUs s < us → t.lynx.autoVerify = true) ∧
      t.lynx.tables = s.lynx.tables ∧ OnlyChanges [.regs, .lynx] s t) ∧
  (∀ s : State, lynxCompares s = true →
    Completes .lapTargetExceeded s fun t => t.lynx = { s.lynx with autoVerify := true, lapOver := true } ∧ OnlyChanges [.lynx] s t) ∧
  (∀ s : State, s.lynx.restoring = true → s.up .engine = true → s.up .mem = true → s.power.effective ≠ .hibernate →
    ∃ u : State, exec .lynxReloadDone s = .next u.ringKept ∧ u.lynx.restoring = false ∧ u.lynx.lapStart = s.now ∧
      u.lynx.lapOver = false ∧ (∀ e ∈ u.lynx.tables, e.2.diffs = []) ∧
      (∀ k, (u.lynxTable k).map (·.entries) = (s.lynxTable k).map (·.entries)) ∧ OnlyChanges [.lynx] s u) ∧
  (∀ (t : LynxTable) (copy : Nat) (key : List Byte), (t.search copy false key).word = some ((t.held copy).result key false)) ∧
  (∀ (t : LynxTable) (copy : Nat) (key : List Byte) (w : Nat), (∀ x ∈ t.diffs, x.1 ≠ copy) → t.shadowBad = [] →
    (t.search copy true key).word = some w → w = t.result key true)

/-! ## DMA movers (R376 to R401) -/

/-- R377, R383, R384, R400: OWNER claims a free channel for its requester, PAUSE is set and cleared, and the pointer pair takes effect on
its low half. R393, R380: ARM clears the status of the last run and starts the descriptor at DMA_DESC_PTR from its first byte. -/
def Obligations.DmaChannelsStart : Prop :=
  (∀ (s : State) (r : Requester) (n : Nat) (v : W32), s.barReaches r (rDmaChan n) = true → n < 64 → (s.chan n).owner = .dispatch →
    dmaOwnerOf (fld v 29 28) = requesterOwner r → dmaTaken s < 8 →
    s.regBit rDmaGlbCtl 31 = false → bitAt v 30 = false → bitAt v 31 = false →
    Completes (.dmaOwnerWrite r n v) s fun t =>
      t.chan n = { s.chan n with owner := requesterOwner r, pause := false, paused := false, held := false } ∧ OnlyChanges [.dma] s t) ∧
  (∀ (s : State) (r : Requester) (n : Nat) (v : W32), s.barReaches r (rDmaChan n) = true → n < 64 →
    (s.chan n).owner = requesterOwner r → dmaOwnerOf (fld v 29 28) = requesterOwner r → bitAt v 30 = true → bitAt v 31 = false →
    Completes (.dmaPause r n v) s fun t => t.chan n = { s.chan n with pause := true } ∧ OnlyChanges [.dma] s t) ∧
  (∀ (s : State) (r : Requester) (n : Nat) (v : W32), s.barReaches r (rDmaChan n) = true → n < 64 →
    (s.chan n).owner = requesterOwner r → dmaOwnerOf (fld v 29 28) = requesterOwner r → bitAt v 30 = false → bitAt v 31 = false →
    Completes (.dmaResume r n v) s fun t => t.chan n = { s.chan n with pause := false, paused := false, held := false } ∧ OnlyChanges [.dma] s t) ∧
  (∀ (s : State) (r : Requester) (n : Nat) (v : W32), s.barReaches r (rDmaChan n) = true → n < 64 → dmaMayDrive s r n = true →
    dmaBusy s n = false → (s.chan n).pause = false →
    Completes (.dmaDescPtrWrite r n v) s fun t =>
      t.chan n = { s.chan n with ptr := fld (s.chan n).ptrHi 15 0 * 2 ^ 32 + v.toNat } ∧ (∀ m, m ≠ n → t.chan m = s.chan m) ∧
      OnlyChanges [.dma] s t) ∧
  (∀ (s : State) (r : Requester) (n : Nat) (v : W32), s.barReaches r (rDmaChan n) = true → n < 64 →
    (s.chan n).owner = requesterOwner r → dmaOwnerOf (fld v 29 28) = requesterOwner r → bitAt v 30 = false → bitAt v 31 = true →
    dmaBusy s n = false → s.regBit rDmaErrStatus 30 = false →
    ∃ u : State, exec (.arm r n v) s = .next (u.dmaStart n) ∧ OnlyChanges [.dma] s u ∧
      u.chan n = { s.chan n with
        pause := false, paused := false, err := false, errCode := 0, done := false, mismatch := false, descDone := 0,
        declared := none, sum := 0, moved := 0, held := false, desc := none }) ∧
  (∀ (s : State) (n : Nat) (b : List Byte), dmaFetch s (s.chan n).owner (s.chan n).ptr = some b → (dmaDescOf b).op ≠ 0x0F →
    (s.chan n).ptr % 32 = 0 → dmaReservedOk b = true → dmaDataOk s (s.chan n).owner (dmaDescOf b) = true →
    (s.dmaStart n).chan n = (s.chan n).begin_ (s.chan n).ptr (dmaDescOf b) (paceHigh s (dmaDescOf b).pace)) ∧
  (∀ (s : State) (n : Nat), dmaFetch s (s.chan n).owner (s.chan n).ptr = none →
    ((s.dmaStart n).chan n).err = true ∧ ((s.dmaStart n).chan n).errCode = 4 ∧ ((s.dmaStart n).chan n).busy = false)

/-- R381, R380: a COPY from DRAM to DRAM puts at its destination what stood at its source, and a descriptor that is done is counted and
followed by the next, or the channel is DONE. R383 to R385, R390 to R392: a pause drains, a paced channel goes on, and an error stops its
channel, or for a descriptor fetch every channel that runs. That the bytes below a failing address have landed is the model's reading
(notes/assumptions/19.md). -/
def Obligations.DmaMovesData : Prop :=
  (∀ (s : State) (hv : HostView) (d : DmaDesc) (a b n : Nat), s.up .mem = true → d.op = 0 → d.srcSpace = 0 → d.dstSpace = 0 →
    s.memory.poison = [] → a + n ≤ b ∨ b + n ≤ a →
    (s.dmaMove hv d a b n).2 = (0, none) ∧ (s.dmaMove hv d a b n).1.memory.dram.readBytes b n = s.memory.dram.readBytes a n ∧
    ∀ x, x < b ∨ b + n ≤ x → (s.dmaMove hv d a b n).1.memory.dram.read x = s.memory.dram.read x) ∧
  (∀ (s u : State) (n : Nat) (hv : HostView) (d : DmaDesc), (s.chan n).desc = some d → s.up .engine = true → (s.chan n).busy = true →
    (s.chan n).paused = false → (s.chan n).held = false → (s.chan n).paceWait = false → d.next = 0 → (s.chan n).declared = none →
    s.dmaMove hv d (s.chan n).src (s.chan n).dst (s.chan n).remain = (u, 0, none) →
    Completes (.dmaDescriptorDone n hv) s fun t =>
      (t.chan n).done = true ∧ (t.chan n).busy = false ∧ (t.chan n).remain = 0 ∧ (t.chan n).err = (s.chan n).err ∧
      (t.chan n).descDone = satAdd 0xFFFF (s.chan n).descDone 1 ∧ t.memory = u.memory) ∧
  (∀ (s : State) (n : Nat) (hv : HostView), s.up .engine = true → (s.chan n).pause = true → (s.chan n).paused = false →
    (s.chan n).err = false → dmaTask s n = none → (s.chan n).quiet = true →
    Completes (.dmaPauseDrained n 0 hv) s fun t => t.chan n = { s.chan n with paused := true } ∧ OnlyChanges [.dma] s t) ∧
  (∀ (s : State) (n : Nat), (s.chan n).paceWait = true → dmaBusy s n = true → paceLow s (paceTarget s n) = true →
    Completes (.dmaPaceResume n) s fun t => t.chan n = { s.chan n with paceWait := false } ∧ OnlyChanges [.dma] s t) ∧
  (∀ (s : State) (n code moved : Nat) (addr : W64) (hv : HostView) (d : DmaDesc), s.up .engine = true →
    code = 2 ∨ code = 3 ∨ code = 5 → dmaTask s n = none → (s.chan n).desc = some d → (s.chan n).busy = true →
    (s.chan n).held = false → (s.chan n).paceWait = false → moved ≤ (s.chan n).remain →
    Completes (.dmaBusError n code addr moved hv) s fun t =>
      (t.chan n).err = true ∧ (t.chan n).errCode = code ∧ (t.chan n).busy = false ∧ (t.chan n).done = false ∧
      (t.chan n).remain = (s.chan n).remain - moved ∧ (t.chan n).owner = (s.chan n).owner ∧
      t.cnt (rDmaCount 4) = (s.cnt (rDmaCount 4) + 1) % 2 ^ 64) ∧
  (∀ (s : State) (failing : Option Nat) (last : Nat) (addr : W64), s.up .engine = true →
    ∃ u : State,
      exec (.descFetchError failing last addr) s =
        .next ((((u.dmaFailTasks stBusError).dmaRecord 1 last addr true).addCnt (rDmaCount 3) 1).irq) ∧
      OnlyChanges [.dma] s u ∧
      ∀ n, (s.chan n).owner ≠ .dispatch → (s.chan n).busy = true →
        (u.chan n).err = true ∧ (u.chan n).errCode = (if failing = some n then 1 else 7) ∧ (u.chan n).busy = false)

/-! ## DRAM and memory protection (R402 to R440) -/

/-- R404, R406: a channel that trains serves, one that fails tries again up to three times, and the upkeep of a channel that serves is
done on each sub-channel. R412, R413, R415, R417: a port's read waits for its data and a port's write is in memory, a SHADOW write in
both of its copies; the read that returns leaves the queue. -/
def Obligations.DramAndMemory : Prop :=
  (∀ (s : State) (c : Nat), c < 4 → s.sys.phase = .booting → s.sys.bootStep = 5 → (s.dramChan c).trained = false →
    (s.dramChan c).attempts < 3 → dramSupported s.board c = true →
    ∃ u : State, exec (.dramTrainAttemptDone c true) s = .next u.dramReady ∧ (u.dramChan c).trained = true ∧
      (u.dramChan c).attempts = (s.dramChan c).attempts + 1 ∧
      (u.dramChan c).order = s.regFld rMemCtl 1 0 ∧ OnlyChanges [.memory, .health, .free] s u) ∧
  (∀ (s : State) (c : Nat), c < 4 → s.sys.phase = .booting → s.sys.bootStep = 5 → (s.dramChan c).trained = false →
    (s.dramChan c).attempts < 2 →
    Completes (.dramTrainAttemptDone c false) s fun t =>
      (t.dramChan c).trained = false ∧ (t.dramChan c).attempts = (s.dramChan c).attempts + 1 ∧ OnlyChanges [.memory, .free] s t) ∧
  (∀ (s : State) (c sc : Nat), dramServes s c = true → sc < 2 →
    (Completes (.dqsRecentre c sc) s fun t =>
      t.dramChan c = { s.dramChan c with centred := (s.dramChan c).centred + 1 } ∧ OnlyChanges [.memory] s t) ∧
    (Completes (.zqCalibration c sc) s fun t =>
      t.dramChan c = { s.dramChan c with calibrated := (s.dramChan c).calibrated + 1 } ∧ OnlyChanges [.memory] s t) ∧
    (Completes (.refresh c sc) s fun t =>
      t.dramChan c = { s.dramChan c with refreshes := (s.dramChan c).refreshes + 1 } ∧ OnlyChanges [.memory] s t)) ∧
  (∀ (s : State) (c rate : Nat) (hot : Bool), dramServes s c = true →
    Completes (.mr4Poll c rate hot) s fun t =>
      t.dramChan c = { s.dramChan c with mr4Rate := rate % 8, mr4Hot := hot } ∧ OnlyChanges [.host, .memory, .health] s t) ∧
  (∀ (s : State) (p line : Nat), p < 8 → s.up .mem = true → 64 * line + 64 ≤ dramBytes s.board →
    (copiesOf s p line).any (lineOpen s s.memory.reads) = true →
    Completes (.memRequest p line none) s fun t =>
      t.memory = { s.memory with reads := s.memory.reads ++
        [{ port := p, line := line, write := none, since := s.now, data := s.memory.dram.readBytes (64 * line) 64 }] } ∧
      OnlyChanges [.regs, .memory] s t) ∧
  (∀ (s : State) (p line : Nat) (w : MemWrite), p < 8 → s.up .mem = true → 64 * line + 64 ≤ dramBytes s.board →
    (copiesOf s p line).all (lineOpen s s.memory.writes) = true → w.offset + w.bytes.length ≤ 64 → s.memory.poison = [] →
    Completes (.memRequest p line (some w)) s fun t =>
      (∀ l ∈ copiesOf s p line, t.memory.dram.readBytes (64 * l + w.offset) w.bytes.length = w.bytes) ∧
      ∀ a, (∀ l ∈ copiesOf s p line, a < 64 * l + w.offset ∨ 64 * l + w.offset + w.bytes.length ≤ a) →
        t.memory.dram.read a = s.memory.dram.read a) ∧
  (∀ (s : State) (p line word ns : Nat) (held : Held) (r : MemReq),
    (s.memory.reads.find? fun r => r.port = p && decide (line ∈ copiesOf s p r.line)) = some r →
    dramServes s (channelOfAddr s (64 * line)) = true →
    wholeLineQueued s line = true ∨ nextRead s (channelOfAddr s (64 * line)) = some r →
    s.memory.poison = [] → s.memory.flips = [] →
    Completes (.memReadDone p line word .good held ns) s fun t =>
      t.memory.reads = s.memory.reads.erase r ∧ t.memory.dram = s.memory.dram ∧ OnlyChanges [.regs, .memory] s t)

/-- R416 to R423, R435, R440: Owl reads on, a corrected word is counted and logged, a retired page moves to its spare, a lap that is
overdue says so, and an injection is armed. -/
def Obligations.MemoryProtection : Prop :=
  (∀ (s : State) (g a : Nat) (held : Held), owlReads s g a = true → g < 4 → s.memory.poison = [] → s.memory.flips = [] →
    s.memory.rewrites = [] →
    Completes (.owlRead g a .good held false) s fun t => t.memory = { s.memory with owlAt := a / 8 * 8 } ∧ OnlyChanges [.memory] s t) ∧
  (∀ (s : State) (g a bit : Nat), (s.memory.logs.filter fun l => l.group = g) = [] →
    (s.corrected g a bit).memory.logs =
      s.memory.logs ++ [{ group := g, addr := a, bit := bit, count := 1, st := .counting, time := s.now }] ∧
    OnlyChanges [.regs, .memory, .health] s (s.corrected g a bit)) ∧
  (∀ (s : State) (page k : Nat), s.memory.retiring.find page = some k → s.up .mem = true →
    Completes (.pageRetireDone page) s fun t =>
      t.memory.remap.find page = some k ∧ t.memory.retiring.find page = none ∧ OnlyChanges [.memory, .media, .health] s t) ∧
  (∀ s : State, s.memory.owlOverdue = false → owlStopped s = false →
    Completes .owlLapOverdue s fun t => t.memory = { s.memory with owlOverdue := true } ∧ OnlyChanges [.memory, .health] s t) ∧
  (∀ (s : State) (r : Requester) (v : W32), s.barReaches r rEccInject = true → bitAt v 31 = true → s.locked rEccInject = false →
    Completes (.eccInjectArm r v) s fun t => t.memory.armed = true ∧ t.memory.injected = false)

/-! ## Host ports and NVMe (R441 to R472) -/

/-- R445, R446: a completion is posted once, in order, for a command that is outstanding, and for no other. R445: credits that the host
returns send what waited, in order and no more than they allow. One credit a posted write is the model's choice
(notes/assumptions/10.md). -/
def Obligations.CompletionsPost : Prop :=
  (∀ (s : State) (w : Who) (st : Status) (d0 d1 : W32), s.outstanding w = true → moreOf st = false → isMediaError st = false →
    (s.port (portOfFn w.fn)).linkUp = true → 0 < (s.port (portOfFn w.fn)).credits → (s.port (portOfFn w.fn)).stalled = [] →
    cqInterrupts (s.ctrl w.fn) (cqOf (s.ctrl w.fn) w.sq) = false →
    (s.complete w st d0 d1).host.sent = s.host.sent ++ [.completion w.fn w.sq w.cid st d0 d1] ∧
    (s.complete w st d0 d1).outstanding w = false ∧ OnlyChanges [.host] s (s.complete w st d0 d1)) ∧
  (∀ (s : State) (w : Who) (st : Status) (d0 d1 : W32), s.outstanding w = false → s.complete w st d0 d1 = s) ∧
  (∀ (s : State) (w : Who) (st : Status) (d0 : W32), OnlyChanges [.host, .health] s (s.admin w st d0)) ∧
  (∀ (s : State) (p : Port) (o : Out), (s.port p).linkUp = true → (s.port p).credits = 0 →
    (s.post p o).host.sent = s.host.sent ∧ ((s.post p o).port p).stalled = (s.port p).stalled ++ [o]) ∧
  (∀ (s : State) (p : Port) (n : Nat), portsLive s = true → (s.port p).linkUp = true →
    Completes (.flowControlCreditReturn p n) s fun t =>
      ∃ out rest, (s.port p).stalled = out ++ rest ∧ t.host.sent = s.host.sent ++ out ∧ (t.port p).stalled = rest ∧
        (t.port p).credits + out.length = (s.port p).credits + n ∧ (rest ≠ [] → (t.port p).credits = 0) ∧ OnlyChanges [.host] s t)

/-- R441, R444, R585, R607: a port's reset and PERST_N take its link down, its training brings it up, and an unmasked vector's held
message is sent. -/
def Obligations.PortsAndLinks : Prop :=
  (∀ (s : State) (p : Port), portsLive s = true → (s.port p).present = true →
    exec (.portReset p) s = .next (s.resetPort p) ∧
    ((s.portReset p).port p).linkUp = false ∧ ((s.portReset p).port p).credits = 0 ∧ ((s.portReset p).port p).stalled = []) ∧
  (∀ (s : State) (p : Port), portsLive s = true → (s.port p).present = true →
    ∃ u : State, exec (.perstAssert p) s = .next (u.resetPort p) ∧ u.port p = { s.port p with perstN := false } ∧ OnlyChanges [.host] s u) ∧
  (∀ (s : State) (p : Port), portsLive s = true → (s.port p).present = true → (s.port p).linkUp = false →
    Completes (.perstDeassert p) s fun t => t.port p = { s.port p with perstN := true, training := true } ∧ OnlyChanges [.host] s t) ∧
  (∀ (s : State) (p : Port) (rate width credits : Nat), portsLive s = true → (s.port p).training = true → linkFits s rate width = true →
    Completes (.linkTrained p rate width credits) s fun t =>
      t.port p = { s.port p with linkUp := true, l12 := false, training := false, rate := rate, width := width, credits := credits } ∧
      OnlyChanges [.host] s t) ∧
  (∀ (s : State) (w : Who), s.running = true →
    ∃ u : State, exec (.pcieCompletionTimeout (.nvm w)) s = .next ((u.dropNvm w).complete w stDataTransfer 0 0).rekeyAdvance ∧
      OnlyChanges [.health] s u) ∧
  (∀ (s : State) (f : Fn) (v : Nat), portsLive s = true → s.fnExists f = true → v < 64 → v ∉ (s.ctrl f).msixHeld →
    Completes (.msiXUnmask (portOfFn f) f v) s fun t => v ∈ (t.ctrl f).unmasked ∧ t.host.sent = s.host.sent ∧ OnlyChanges [.host] s t) ∧
  (∀ (s : State) (f : Fn) (v : Nat), portsLive s = true → s.fnExists f = true → v < 64 → v ∈ (s.ctrl f).msixHeld →
    (s.port (portOfFn f)).linkUp = true → 0 < (s.port (portOfFn f)).credits → (s.port (portOfFn f)).stalled = [] →
    Completes (.msiXUnmask (portOfFn f) f v) s fun t =>
      v ∉ (t.ctrl f).msixHeld ∧ t.host.sent = s.host.sent ++ [.msix f v] ∧ OnlyChanges [.host] s t)

/-- R447, R448, R451, R489: a controller is enabled, disabled, shut down, kept alive and stopped; NVM Subsystem Reset is an L4 reset.
R486, R487: the steps of a function-level reset. What the NVMe base specification prescribes is presumed (notes/assumptions/11.md and
37.md). -/
def Obligations.Controllers : Prop :=
  (∀ (s : State) (f : Fn) (cc aqa : W32) (asq acq : W64), reachable s f = true → s.up .ctrl = true → (s.ctrl f).freeze = .none →
    bitAt cc 0 = true → bitAt (s.ctrl f).cc 0 = false →
    Completes (.controllerEnable f cc aqa asq acq) s fun t =>
      (t.ctrl f).rdy = true ∧ (t.ctrl f).cfs = false ∧ (t.ctrl f).cc = cc &&& 0x00FFFFF1#32 ∧ (t.ctrl f).adminSq.size = fld aqa 11 0 + 1 ∧
      (t.ctrl f).adminSq.base = (asq &&& ~~~0xFFF#64).toNat ∧ (t.ctrl f).adminCq.size = fld aqa 27 16 + 1 ∧ (t.ctrl f).adminCq.base = (acq &&& ~~~0xFFF#64).toNat ∧
      (∀ g, g ≠ f → t.ctrl g = s.ctrl g) ∧ OnlyChanges [.host] s t) ∧
  (∀ (s : State) (f : Fn), reachable s f = true → (s.ctrl f).freeze = .none → bitAt (s.ctrl f).cc 0 = true →
    ∃ u : State, exec (.controllerDisable f) s = .next (u.forcedAll.rekeyAdvance) ∧
      (u.ctrl f).rdy = false ∧ (u.ctrl f).queues = [] ∧ (u.ctrl f).features = [] ∧ bitAt (u.ctrl f).cc 0 = false) ∧
  (∀ (s : State) (f : Fn) (abrupt : Bool), reachable s f = true → (s.ctrl f).freeze = .none → bitAt (s.ctrl f).cc 0 = true →
    isManager f = false →
    Completes (.shutdownNotification f abrupt) s fun t =>
      (t.ctrl f).shst = 2 ∧ fld (t.ctrl f).cc 15 14 = (if abrupt then 2 else 1) ∧ OnlyChanges [.host] s t) ∧
  (∀ s : State, exec (.nvmSubsystemReset none) s = .next (s.l4Reset .aon 9 .subsystemReset)) ∧
  (∀ (s : State) (w : Who), s.adminReady w = true → exec (.keepAlive w) s = .next (s.admin w stOk 0)) ∧
  (∀ (s : State) (f : Fn), reachable s f = true → (s.ctrl f).rdy = true → (s.ctrl f).keepAlive = true → (s.ctrl f).freeze = .none →
    ∃ u : State, exec (.keepAliveTimerExpiry f) s = .next (u.forcedAll.rekeyAdvance) ∧ (u.ctrl f).cfs = true ∧ (u.ctrl f).keepAlive = false) ∧
  (∀ (s : State) (f : Fn), s.running = true → s.up .host = true → s.fnExists f = true →
    exec (.functionLevelReset f) s = .next ((s.flrBegin f).forcedAll)) ∧
  (∀ (s : State) (f : Fn), s.running = true → (s.ctrl f).flr = some 1 →
    Completes (.flrAbortDeadline f) s fun t => (t.ctrl f).flr = some 2) ∧
  (∀ (s : State) (f : Fn) (k : Nat), s.running = true → (s.ctrl f).flr = some k →
    ∃ u : State, exec (.flrComplete f) s = .next (u.forcedAll.rekeyAdvance) ∧ u = s.flrEnd f ∧
      (u.ctrl f).flr = none ∧ (u.ctrl f).cc = 0 ∧ (u.ctrl f).mbxIn = [] ∧ (u.ctrl f).mbxOut = [] ∧ (u.ctrl f).freeze = .none)

/-- R449, R474, R479: a doorbell moves its queue's tail or head, and a command is fetched in its queue's order and is outstanding. R369: one that
arrives while Lynx is reloaded is kept. R446, R447, R450: queues are created and deleted; an Abort of a command that waits for admission
or for a Trail's end completes it with Command Abort Requested and says so, and one that finds nothing to abort says that; an event
request waits for an event. What the NVMe
base specification prescribes is presumed (notes/assumptions/11.md and 37.md). -/
def Obligations.QueuesAndFetching : Prop :=
  (∀ (s : State) (f : Fn) (v : Nat), reachable s f = true → (s.ctrl f).rdy = true → v < (s.ctrl f).adminSq.size →
    s.power.effective ≠ .hibernate → s.lynx.restoring = false →
    Completes (.doorbellWrite f 0 false v) s fun t =>
      (t.ctrl f).adminSq = { (s.ctrl f).adminSq with tail := v } ∧ (∀ g, g ≠ f → t.ctrl g = s.ctrl g) ∧ OnlyChanges [.host] s t) ∧
  (∀ (s : State) (f : Fn) (v : Nat), reachable s f = true → (s.ctrl f).rdy = true → v < (s.ctrl f).adminSq.size →
    s.power.effective ≠ .hibernate → s.lynx.restoring = true →
    Completes (.doorbellWrite f 0 false v) s fun t =>
      t.power = { s.power with keptDoorbells := s.power.keptDoorbells ++ [(f, 0, false, v)] } ∧ OnlyChanges [.power] s t) ∧
  (∀ (s : State) (f : Fn) (sq cid : Nat), mayFetch s f sq cid = true →
    Completes (.commandFetch f sq cid) s fun t =>
      (t.ctrl f).fetched = (s.ctrl f).fetched ++ [⟨sq, cid, s.now, none⟩] ∧ t.outstanding ⟨f, sq, cid⟩ = true ∧ OnlyChanges [.host, .health] s t) ∧
  (∀ (s : State) (f : Fn) (cid : Nat), mayFetch s f 0 cid = true →
    Completes (.commandFetch f 0 cid) s fun t =>
      (t.ctrl f).adminSq = { (s.ctrl f).adminSq with head := (s.ctrl f).adminSq.next (s.ctrl f).adminSq.head } ∧ OnlyChanges [.host] s t) ∧
  (∀ (s : State) (w : Who) (isCq : Bool) (qid size base cqid vector prio : Nat) (ien : Bool), s.adminReady w = true →
    queueRefused (s.ctrl w.fn) w.fn isCq qid size base cqid vector true = none →
    ∃ (u : State) (q : Queue), exec (.createIoQueue w isCq qid size base cqid vector prio true ien) s = .next (u.admin w stOk 0) ∧
      (u.ctrl w.fn).queues = (s.ctrl w.fn).queues ++ [q] ∧ q.qid = qid ∧ q.isCq = isCq ∧ q.size = size ∧ q.base = base ∧ q.head = 0 ∧
      q.tail = 0 ∧ q.ien = ien ∧ OnlyChanges [.host] s u) ∧
  (∀ (s : State) (w : Who) (qid : Nat), s.adminReady w = true → qid ≠ 0 → hasQueue (s.ctrl w.fn) true qid = true →
    (∀ q ∈ (s.ctrl w.fn).queues, q.isCq = false → q.cqid ≠ qid) →
    ∃ u : State, exec (.deleteIoQueue w true qid) s = .next (u.admin w stOk 0).rekeyAdvance ∧
      hasQueue (u.ctrl w.fn) true qid = false ∧ OnlyChanges [.host] s u) ∧
  (∀ (s : State) (w : Who) (sq cid : Nat), s.adminReady w = true → (∀ x ∈ s.disp.waiting, x.who ≠ ⟨w.fn, sq, cid⟩) →
    (∀ e ∈ s.disp.flows, (⟨w.fn, sq, cid⟩ : Who) ∉ e.2.queries) → exec (.abort w sq cid) s = .next (s.admin w stOk 1)) ∧
  (∀ (s : State) (w : Who) (sq cid : Nat) (x : WaitingTrail), s.adminReady w = true → x ∈ s.disp.waiting → x.who = ⟨w.fn, sq, cid⟩ →
    x.execBy = false →
    ∃ u : State, exec (.abort w sq cid) s = .next ((u.io ⟨w.fn, sq, cid⟩ stAbortRequested 0).admin w stOk 0) ∧
      (∀ y ∈ u.disp.waiting, y.who ≠ ⟨w.fn, sq, cid⟩) ∧ (∀ y ∈ s.disp.waiting, y.who ≠ ⟨w.fn, sq, cid⟩ → y ∈ u.disp.waiting) ∧
      OnlyChanges [.disp] s u) ∧
  (∀ (s : State) (w : Who) (sq cid : Nat) (e : Nat × Flow), s.adminReady w = true → (∀ x ∈ s.disp.waiting, x.who ≠ ⟨w.fn, sq, cid⟩) →
    e ∈ s.disp.flows → (⟨w.fn, sq, cid⟩ : Who) ∈ e.2.queries →
    ∃ u : State, exec (.abort w sq cid) s = .next ((u.io ⟨w.fn, sq, cid⟩ stAbortRequested 0).admin w stOk 0) ∧
      (∀ y ∈ u.disp.flows, (⟨w.fn, sq, cid⟩ : Who) ∉ y.2.queries) ∧ OnlyChanges [.disp] s u) ∧
  (∀ (s : State) (w : Who), s.adminReady w = true → (s.ctrl w.fn).aers.length < 16 → (s.ctrl w.fn).events = [] →
    Completes (.asynchronousEventRequest w) s fun t => (t.ctrl w.fn).aers = (s.ctrl w.fn).aers ++ [w.cid] ∧ OnlyChanges [.host] s t) ∧
  (∀ (s : State) (w : Who), s.adminReady w = true → 16 ≤ (s.ctrl w.fn).aers.length →
    exec (.asynchronousEventRequest w) s = .next (s.admin w stAerLimit 0))

/-- R446, R451, R464: Identify and Get Log Page return their data; a feature that is set is read back, and none can be saved. What the
NVMe base specification prescribes is presumed (notes/assumptions/11.md and 38.md). -/
def Obligations.IdentifyLogsAndFeatures : Prop :=
  (∀ (s : State) (w : Who) (cns nsid : Nat) (bs : List Byte), s.adminReady w = true → identifyData s w.fn cns nsid = .ok bs →
    exec (.identify w cns nsid) s = .next ((s.dataOut w bs).admin w stOk 0)) ∧
  (∀ (s : State) (w : Who) (page : List Byte) (lid offset bytes : Nat) (rae : Bool) (lsp uuid : Nat), s.adminReady w = true → lid < 0xC0 →
    lid ≠ 2 → standardPage s w.fn lid = some page →
    exec (.getLogPage w lid 0 offset bytes rae lsp uuid) s = .next (s.pageOut w lid page offset bytes rae) ∧
    (offset % 4 = 0 → offset < page.length → bytes ≤ 2097152 → s.pageOut w lid page offset bytes rae =
      ((s.pageRead w.fn lid rae).dataOut w (slice page offset bytes)).admin w stOk 0)) ∧
  (∀ (s : State) (w : Who) (fid nsid : Nat) (v : W32) (data : List Byte), s.adminReady w = true → plainFeature fid = true →
    ∃ u : State, exec (.setFeatures w fid nsid false v data) s = .next (u.admin w stOk 0) ∧ OnlyChanges [.host] s u ∧
      exec (.getFeatures w fid nsid 0 v) u = .next (u.admin w stOk v)) ∧
  (∀ (s : State) (w : Who) (fid nsid : Nat) (v : W32), s.adminReady w = true → plainFeature fid = true →
    exec (.getFeatures w fid nsid 0 v) s = .next (s.admin w stOk ((s.ctrl w.fn).features.getD fid (featureDefault fid v))) ∧
    exec (.getFeatures w fid nsid 1 v) s = .next (s.admin w stOk (featureDefault fid v)) ∧
    exec (.getFeatures w fid nsid 3 v) s = .next (s.admin w stOk 4)) ∧
  (∀ (s : State) (w : Who) (nsid : Nat) (v : W32), s.adminReady w = true →
    exec (.getFeatures w 0x07 nsid 0 v) s = .next (s.admin w stOk (queuesDw0 (s.ctrl w.fn))) ∧
    exec (.getFeatures w 0x0E nsid 0 v) s = .next ((s.dataOut w (timestampData s)).admin w stOk 0) ∧
    exec (.getFeatures w 0x81 nsid 0 v) s = .next ((s.dataOut w (padTo 16 (s.ctrl w.fn).hostId)).admin w stOk 1)) ∧
  (∀ (s : State) (w : Who) (fid nsid : Nat) (v : W32) (data : List Byte), s.adminReady w = true → knownFeature fid = true →
    exec (.setFeatures w fid nsid true v data) s = .next (s.admin w stNotSaveable 0))

/-- R454 to R456: namespaces are created, deleted, made smaller, attached and detached by a manager. R275: a namespace's key is stored
wrapped, and a create or a delete completes once that is durable. R213, R286, R451, R472, R526: Format
NVM and Sanitize begin to erase, and the erase of a namespace ends with nothing stored. When an erase completes and which commands a
delete ends are the model's reading (notes/assumptions/39.md). -/
def Obligations.NamespacesAndErases : Prop :=
  (∀ (s : State) (w : Who) (x : NsSpec) (nsid slot : Nat), s.adminReady w = true → isManager w.fn = true → specOk x = true →
    x.kind = .memory → x.kvflags = 0 → s.ns.lowestFree 1 512 = some nsid → s.freeXts = some slot → poolSmall s = false →
    capacityOk ((s.random 64).2.onNs fun t => t.set nsid (newNs (s.random 64).2 x slot none)) = true →
    ∃ u : State, exec (.namespaceCreate w x) s = .next (u.cfgWrite (.complete w stOk (w32 nsid))).spareUpdate ∧
      (∃ n, u.ns.find nsid = some n ∧ n.kind = x.kind ∧ n.nsze = x.nsze ∧ n.ncap = x.ncap ∧ n.attached = [] ∧ n.mem = []) ∧
      (u.xts slot).st = .loaded ∧ (u.xts slot).stored = some (kwWrap (bytesOf 32 Config.deviceKek) (u.xts slot).key) ∧
      (∀ k, k ≠ nsid → u.ns.find k = s.ns.find k) ∧ OnlyChanges [.ns, .sea] s u) ∧
  (∀ (s : State) (w : Who) (nsid : Nat) (n : Ns), s.adminReady w = true → isManager w.fn = true → nsid ≠ 0xFFFFFFFF →
    s.ns.find nsid = some n → trailNamesNs s nsid = false → n.erasing = none →
    exec (.namespaceDelete w nsid) s = .next ((((s.deleteNs nsid).cfgWrite (.complete w stOk 0)).spareUpdate).rekeyAdvance) ∧
      (s.deleteNs nsid).ns.find nsid = none) ∧
  (∀ (s : State) (w : Who) (nsid nsze ncap : Nat) (n : Ns), s.adminReady w = true → isManager w.fn = true → s.ns.find nsid = some n →
    trailNamesNs s nsid = false → nsze ≠ 0 → nsze ≤ n.nsze → ncap ≤ nsze → n.kind = .nvm → n.erasing = none →
    capacityOk (s.onNs fun t => t.set nsid (n.resized nsze ncap)) = true →
    ∃ u : State, exec (.namespaceResize w nsid nsze ncap) s = .next ((((u.cfgWrite .note).spareUpdate).admin w stOk 0).rekeyAdvance) ∧
      ∀ m, u.ns.find nsid = some m → m.nsze = nsze ∧ m.ncap = ncap) ∧
  (∀ (s : State) (w : Who) (nsid : Nat) (f : Fn) (c : Nat) (n : Ns), s.adminReady w = true → isManager w.fn = true →
    s.ns.find nsid = some n → fnOfController s c = some f → f ∉ n.attached →
    ∃ u : State, exec (.namespaceAttachment w nsid true [c]) s = .next ((u.cfgWrite .note).admin w stOk 0) ∧
      (∃ m, u.ns.find nsid = some m ∧ f ∈ m.attached ∧ m.nsze = n.nsze) ∧ OnlyChanges [.ns] s u) ∧
  (∀ (s : State) (w : Who) (nsid : Nat) (n : Ns), s.adminReady w = true → s.ns.find nsid = some n → w.fn ∈ n.attached → n.erasing = none →
    s.reserved w.fn n true = false → n.kind = .nvm →
    ∃ u : State, exec (.formatNvm w nsid 1 4096) s = .next u.rekeyAdvance ∧ OnlyChanges [.ns, .str, .ftl] s u ∧ (s.str.formatted = false → u.str.formatted = true ∧ u.ftl.spare0 = spareBlocks s) ∧
      u.ns.find nsid = some { n with erasing := some { by_ := w.fn, who := some w, sanitize := false, crypto := false, lbaSize := 4096 } }) ∧
  (∀ (s : State) (w : Who), s.adminReady w = true → isManager w.fn = true → (∀ e ∈ s.ns, e.2.erasing = none) →
    ∃ u : State, exec (.sanitize w false) s = .next (u.admin w stOk 0).rekeyAdvance ∧ u.host.sanAction = 2 ∧
      (∀ k n, u.ns.find k = some n → n.erasing.isSome = true) ∧ OnlyChanges [.ns, .host] s u) ∧
  (∀ (s : State) (nsid : Nat) (n : Ns) (x : Erasing), s.running = true → s.up .ctrl = true → s.sea.rekeys = [] →
    s.ns.find nsid = some n → n.erasing = some x → x.crypto = false → x.who = none → n.kind = .kv → n.kvTable = none →
    Completes (.sanitizeComplete nsid) s fun t =>
      ∃ m, t.ns.find nsid = some m ∧ m.kv = [] ∧ m.mem = [] ∧ m.erasing = none ∧ m.lbaSize = x.lbaSize)

/-- R457, R458: a host registers, acquires, releases and reports, and the change is durable before the command completes. R457: of two
hosts only the holder, or for some types a registrant, gets past a reservation, and a second host cannot acquire it. The actions and the
report are the NVMe base specification's, presumed (notes/assumptions/40.md). -/
def Obligations.Reservations : Prop :=
  (∀ (s : State) (w : Who) (nsid : Nat) (crkey nrkey : W64) (n : Ns), s.ioReady w = true → s.resGate w.fn nsid = .ok n →
    n.reservation.entry (s.ctrl w.fn).hostId = none →
    ∃ r : Reservation, exec (.reservationRegister w nsid .register crkey nrkey false 0) s = .next (s.putReservation w nsid r) ∧
      r.registrants = n.reservation.registrants ++ [⟨(s.ctrl w.fn).hostId, nrkey⟩] ∧ r.holder = n.reservation.holder ∧
      r.generation = (n.reservation.generation + 1) % 2 ^ 32) ∧
  (∀ (s : State) (w : Who) (nsid : Nat) (type : ResType) (crkey prkey : W64) (n : Ns) (x : Registrant), s.ioReady w = true →
    s.resGate w.fn nsid = .ok n → n.reservation.entry (s.ctrl w.fn).hostId = some x → x.key = crkey → n.reservation.holder = none →
    ∃ r : Reservation, exec (.reservationAcquire w nsid .acquire type crkey prkey) s = .next ((s.notifyHosts nsid 1 []).putReservation w nsid r) ∧
      r.holder = some (s.ctrl w.fn).hostId ∧ r.type = type ∧ r.registrants = n.reservation.registrants) ∧
  (∀ (s : State) (w : Who) (nsid : Nat) (type : ResType) (crkey : W64) (n : Ns) (x : Registrant), s.ioReady w = true →
    s.resGate w.fn nsid = .ok n → n.reservation.entry (s.ctrl w.fn).hostId = some x → x.key = crkey →
    n.reservation.holds (s.ctrl w.fn).hostId = true → n.reservation.type = type →
    ∃ (u : State) (r : Reservation), exec (.reservationRelease w nsid false type crkey) s = .next (u.putReservation w nsid r) ∧
      r.holder = none ∧ r.registrants = n.reservation.registrants ∧ OnlyChanges [.host, .health] s u) ∧
  (∀ (s : State) (w : Who) (nsid : Nat) (n : Ns), s.ioReady w = true → s.anyNs w.fn nsid = .ok n →
    exec (.reservationReport w nsid) s = .next ((s.dataOut w (reservationReport s n.reservation)).io w stOk 0)) ∧
  (∀ (s : State) (w : Who) (nsid : Nat) (r : Reservation) (n : Ns), s.ns.find nsid = some n →
    (s.putReservation w nsid r).ns.find nsid = some { n with reservation := r } ∧
    (s.putReservation w nsid r).health.cfg = s.health.cfg ++ [.complete w stOk 0] ∧ OnlyChanges [.ns, .media, .health] s (s.putReservation w nsid r)) ∧
  (∀ (r : Reservation) (host h : List Byte) (type : ResType) (crkey prkey : W64), r.holder = some h → heldByAll r.type = false → h ≠ host →
    ∃ st, r.acquire host .acquire type crkey prkey = .error st) ∧
  (∀ (r q : Reservation) (host : List Byte) (clear : Bool) (type : ResType) (crkey : W64), r.holds host = false → clear = false →
    r.release host clear type crkey = .ok q → q = r) ∧
  (∀ (r q : Reservation) (host : List Byte) (crkey nrkey : W64) (action : RegisterAction) (iekey : Bool),
    r.register host action crkey nrkey iekey = .ok q → ∀ x ∈ q.registrants, x.hostId ≠ host → x ∈ r.registrants)

/-! ## Key Value, programs and local memory (R367, R368, R452 to R454) -/

/-- R368, R452: a Store enters the write path, Retrieve, Exist, List and Delete answer from the hash index, Retrieve with the
bytes that its IUs hold (R279); what is stored under a key is
found under it, and a delete leaves the other keys alone. What the Key Value command set prescribes is presumed
(notes/assumptions/41.md). -/
def Obligations.KeyValueCommands : Prop :=
  (∀ (s : State) (w : Who) (nsid : Nat) (key value : List Byte) (n : Ns), s.ioReady w = true → s.kvGate w.fn nsid key true = .ok n →
    value.length ≤ 2 ^ 20 → readOnly s = false → n.kvBytes - ((n.kvFind key).getD []).length + value.length ≤ n.nsze →
    Completes (.kvStore w nsid key value false false) s fun t =>
      t.ftl = { s.ftl with waiting := s.ftl.waiting ++ [{ who := w, kind := .kv key value, nsid := nsid, slba := 0, nlb := 1 }] } ∧
      t.host = (s.asClass w 3).host ∧ OnlyChanges [.host, .ftl] s t) ∧
  (∀ (s u : State) (w : Who) (nsid k : Nat) (key v : List Byte) (n : Ns) (j : ReadJob), s.ioReady w = true →
    s.kvGate w.fn nsid key false = .ok n → n.kvFind key = some v → u = (s.asClass w 2).kvLookup n key true → u.up .mem = true →
    j = { client := .host w, kind := .kv key k, nsid := nsid, slba := 0, nlb := 0, wait := 0, failed := none, second := false, again := false } →
    segBusy u ((jobNeeds u j).map (·.1)) = false →
    exec (.kvRetrieve w nsid key k) s = .next (u.runJob j (mediaEntries u (jobNeeds u j)))) ∧
  (∀ (s : State) (w : Who) (k : Nat) (key : List Byte) (n : Ns) (r : KvRec) (needs : List (Nat × BitVec 32)),
    (n.kv.find? fun e => e.key = key) = some r → (∀ x ∈ needs, ∃ bs, iuBytes s x.1 x.2 = .ok bs) →
    s.finishKv w n key k needs = ((s.dataOut w ((kvBytes s n r.pieces).take k)).countRead w.fn ((kvBytes s n r.pieces).take k).length).io w
      stOk (w32 r.value.length)) ∧
  (∀ (s : State) (w : Who) (nsid : Nat) (key v : List Byte) (n : Ns), s.ioReady w = true → s.kvGate w.fn nsid key true = .ok n →
    readOnly s = false → n.kvFind key = some v → s.ns.find nsid = some n →
    ∃ u : State, exec (.kvDelete w nsid key) s = .next (u.io w stOk 0) ∧ OnlyChanges [.host, .ns, .ftl, .str, .lynx, .health] s u ∧
      ∃ m, u.ns.find nsid = some m ∧ m.kvFind key = none ∧ ∀ k, k ≠ key → m.kvFind k = n.kvFind k) ∧
  (∀ (s : State) (w : Who) (nsid : Nat) (key : List Byte) (n : Ns), s.ioReady w = true → s.kvGate w.fn nsid key false = .ok n →
    exec (.kvExist w nsid key) s = .next ((s.kvLookup n key false).io w (if (n.kvFind key).isSome then stOk else stKvKeyAbsent) 0)) ∧
  (∀ (s : State) (w : Who) (nsid : Nat) (key : List Byte) (n : Ns), s.ioReady w = true → s.nsGate w.fn nsid .kv = .ok n →
    key.length ≤ 16 → s.reserved w.fn n false = false → readBar s n 0 1 = none →
    exec (.kvList w nsid key) s =
      .next ((s.dataOut w (leBytes 4 (kvKeysFrom n key).length ++ (kvKeysFrom n key).flatMap kvListEntry)).io w stOk 0)) ∧
  (∀ (n : Ns) (r : KvRec), (n.kvPut r).kvFind r.key = some r.value ∧ ∀ k, k ≠ r.key → (n.kvPut r).kvFind k = n.kvFind k)

/-- R453: programs load as modules, are always active, run as Trails over range sets, and range sets are made and deleted. R452, R454: a
Memory Write puts its bytes in the namespace and nowhere else, and a Memory Read returns them. What the command sets prescribe is
presumed (notes/assumptions/41.md). -/
def Obligations.ComputeAndLocalMemory : Prop :=
  (∀ (s : State) (w : Who) (cdw10 cdw11 : W32) (img : List Byte), s.ready w = true → fld cdw11 3 0 = 0 →
    exec (.loadProgram w cdw10 cdw11 img) s = .next (s.moduleLoad w cdw10 cdw11 img)) ∧
  (∀ (s : State) (w : Who) (id : Nat), s.ready w = true → (programKernel s w.fn id).isSome = true →
    exec (.programActivationManagement w id true) s = .next (s.admin w stOk 0)) ∧
  (∀ (s : State) (w : Who) (create : Nat) (rs : List MemRange), s.ready w = true → rs ≠ [] → rs.length ≤ 8 →
    rs.all (memRangeOk s w.fn) = true → (s.rangeSets (portOfFn w.fn)).lowestFree 1 256 = some create →
    ∃ u : State, exec (.memoryRangeSetManagement w true 0 rs) s = .next (u.admin w stOk (w32 create)) ∧
      (u.rangeSets (portOfFn w.fn)).find create = some rs ∧ OnlyChanges [.host] s u) ∧
  (∀ (s : State) (w : Who) (set : Nat) (rs : List MemRange), s.ready w = true → (s.rangeSets (portOfFn w.fn)).find set = some rs →
    ∃ u : State, exec (.memoryRangeSetManagement w false set []) s = .next (u.admin w stOk 0) ∧
      (u.rangeSets (portOfFn w.fn)).find set = none ∧ OnlyChanges [.host] s u) ∧
  (∀ (s : State) (w : Who) (id set : Nat) (args : List Byte) (a b : MemRange) (more : List MemRange) (k : KernelRec), s.ioReady w = true →
    (s.rangeSets (portOfFn w.fn)).find set = some (a :: b :: more) → programKernel s w.fn id = some k →
    slmRunBad s a.nsid a.offset a.length = false → slmRunBad s b.nsid b.offset b.length = false →
    Completes (.executeProgram w id set args) s fun t =>
      (∀ c, checkTrail s w.fn [] (programTrail k id a b args) = .ok c → t = s.admitTrail w c true) ∧
      (∀ r, checkTrail s w.fn [] (programTrail k id a b args) = .error r → t = s.refuseTrail w r)) ∧
  (∀ (s : State) (w : Who) (nsid off : Nat) (data : List Byte) (n : Ns), s.ioReady w = true → s.up .mem = true →
    s.memGate w.fn nsid off data.length true = .ok n →
    ∃ (u : State) (m : Ns), exec (.memoryWrite w nsid off (some data)) s = .next (u.io w stOk 0) ∧ OnlyChanges [.ns] s u ∧
      u.ns.find nsid = some m ∧ m.mem.readBytes off data.length = data ∧
      ∀ a, a < off ∨ off + data.length ≤ a → m.mem.read a = n.mem.read a) ∧
  (∀ (s : State) (w : Who) (nsid off len : Nat) (n : Ns), s.ioReady w = true → s.up .mem = true →
    s.memGate w.fn nsid off len false = .ok n →
    exec (.memoryRead w nsid off len) s = .next ((s.dataOut w (n.mem.readBytes off len)).io w stOk 0)) ∧
  (∀ (s : State) (w : Who) (nsid off : Nat) (src : List (Nat × LbaRange)) (n : Ns), s.ioReady w = true → s.up .mem = true →
    s.memGate w.fn nsid off 0 true = .ok n → src ≠ [] → src.length ≤ 128 → src.findSome? (sourceFails s w.fn) = none →
    s.slmFits nsid off (sourceLength s src) = true → segBusy s ((copyNeeds s src).map (·.1)) = false →
    exec (.memoryCopy w nsid off src) s =
      .next (s.runJob { client := .host w, kind := .memCopy nsid off src, nsid := nsid, slba := 0, nlb := 0, wait := 0, failed := none,
                        second := false, again := false } (mediaEntries s (copyNeeds s src))))

/-! ## Virtual instances (R473 to R499) -/

/-- R459, R461, R473, R478, R480, R481: the ledger is read, shares are returned and wait for the epoch boundary, a slot is assigned, and
an instance's status is returned. R482 to R485, R498: a message that is sent reaches the other side last, a POP takes the oldest, and a
SEND to a full mailbox is refused with its reason. The readings of R478 to R485 are the model's (notes/assumptions/42.md). -/
def Obligations.InstancesAreConfigured : Prop :=
  (∀ (s : State) (w : Who) (seq count room : Nat), s.adminReady w = true → 1 ≤ count → count ≤ 64 → 16384 ≤ room → room ≤ 1048576 →
    Completes (.ledgerRead w seq count room) s fun t =>
      t = (s.dataOut w (recordBytes (ledgerFrom s w.fn seq count room))).admin2 w stOk
        (w32 ((ledgerFrom s w.fn seq count room).length + bitIf (ledgerGone s seq) 31))
        (match ledgerFrom s w.fn seq count room with | r :: _ => w32 r.seq | [] => 0) ∧
      (ledgerFrom s w.fn seq count room).length ≤ count ∧ ∀ r ∈ ledgerFrom s w.fn seq count room, seq ≤ r.seq ∧ r.visible w.fn = true) ∧
  (∀ (s : State) (w : Who) (f : Fn), s.adminReady w = true → s.instanceGate w f 16 16 = none →
    exec (.getShare w f 16) s = .next ((s.dataOut w (shareBytes (s.ctrl f).share)).admin w stOk 0) ∧
    (shareBytes (s.ctrl f).share).length = 16) ∧
  (∀ (s : State) (w : Who) (f : Fn) (x : Share), s.adminReady w = true → s.instanceGate w f 16 16 = none → shareOk s f x = true →
    queuePairs (s.ctrl f) ≤ x.queuePairs →
    Completes (.setShare w f 16 x) s fun t =>
      (t.ctrl f).share = (s.ctrl f).share ∧ (t.ctrl f).pendShare = (s.ctrl f).pendShare ++ [(w, x)] ∧ (t.ctrl f).nextShare = x ∧
      OnlyChanges [.host] s t) ∧
  (∀ (s : State) (w : Who) (f : Fn) (i : Nat), s.adminReady w = true → s.instanceGate w f 16 16 = none → i < 1024 →
    (s.ctrl f).freeze ≠ .frozen → (s.xts i).use = 0 →
    ∃ u : State, exec (.assign w f 16 [⟨0, 0, i⟩]) s = .next ((u.cfgWrite .note).admin w stOk 1) ∧
      (u.xts i).use = 3 ∧ (u.xts i).owner = f ∧ (u.xts i).st = .empty ∧ (∀ j, j ≠ i → u.xts j = s.xts j) ∧ OnlyChanges [.sea] s u) ∧
  (∀ (s : State) (w : Who) (f : Fn), s.adminReady w = true → s.instanceGate w f 32 32 = none →
    exec (.getStatus w f 32) s = .next ((s.dataOut w (statusOf s f)).admin w stOk 0) ∧ (statusOf s f).length = 32) ∧
  (∀ (s : State) (f : Fn) (v : W32), mailboxReached s f true = true → bitAt v 31 = true → bitAt v 30 = false → (s.ctrl f).flr = none →
    s.regBit rVinCtl 0 = true → (s.ctrl f).mbxIn.length < 8 →
    Completes (.send f true v) s fun t =>
      (t.ctrl f).mbxIn = (s.ctrl f).mbxIn ++ [delivered (s.ctrl f).mbxMgr] ∧ (t.ctrl f).mbxOut = (s.ctrl f).mbxOut ∧
      (t.ctrl f).mbxMgr.refused = false ∧ OnlyChanges [.host] s t) ∧
  (∀ (s : State) (f : Fn) (v : W32), mailboxReached s f true = true → bitAt v 31 = true → bitAt v 30 = false → (s.ctrl f).flr = none →
    s.regBit rVinCtl 0 = true → 8 ≤ (s.ctrl f).mbxIn.length →
    Completes (.send f true v) s fun t =>
      (t.ctrl f).mbxIn = (s.ctrl f).mbxIn ∧ (t.ctrl f).mbxMgr.refused = true ∧ (t.ctrl f).mbxMgr.reason = 1 ∧ OnlyChanges [.host] s t) ∧
  (∀ (s : State) (f : Fn) (v : W32), mailboxReached s f false = true → bitAt v 30 = true → bitAt v 31 = false →
    Completes (.pop f false v) s fun t =>
      (t.ctrl f).mbxIn = (s.ctrl f).mbxIn.drop 1 ∧ (t.ctrl f).mbxOut = (s.ctrl f).mbxOut ∧ (∀ g, g ≠ f → t.ctrl g = s.ctrl g) ∧
      OnlyChanges [.host] s t) ∧
  (∀ m : MbxSide, (delivered m).len ≤ declaredLen m ∧ (delivered m).len ≤ actualLen m ∧
    ((delivered m).mismatch = true ↔ declaredLen m ≠ actualLen m))

/-- R489 to R495: the steps of a migration: keys and target, freeze, save, restore and thaw. The readings of R489 to R496 are the
model's, and the cryptography is left open (notes/assumptions/15.md and 43.md). -/
def Obligations.InstancesMigrate : Prop :=
  (∀ (s : State) (w : Who) (f : Fn), s.adminReady w = true → s.instanceGate w f 6560 6560 = none →
    ∃ (u : State) (bs : List Byte), exec (.getMigrationKey w f 6560) s = .next ((u.dataOut w bs).admin w stOk 0) ∧
      (∃ k, (u.ctrl f).migKey = some k ∧ k.keyId = s.host.nextMigKey % 2 ^ 32) ∧ OnlyChanges [.host, .sea] s u) ∧
  (∀ (s : State) (f : Fn), Completes (.migrationKeyExpiry f) s fun t =>
    (t.ctrl f).migKey = none ∧ (∀ g, g ≠ f → t.ctrl g = s.ctrl g) ∧ OnlyChanges [.host] s t) ∧
  (∀ (s : State) (w : Who) (f : Fn) (record : List Byte), s.adminReady w = true → s.instanceGate w f record.length 6560 = none →
    leAt record 4 2 ≤ compatLevel s → compatLevel s ≤ leAt record 6 2 →
    Completes (.setMigrationTarget w f record) s fun t =>
      (Config.mldsaVerify (slice record 0x510 1952) (record.take 0xCB0) (slice record 0xCB0 3309) = true →
        (t.ctrl f).migTarget = some ⟨leAt record 0 4, slice record 8 1184, slice record 0x4A8 97⟩) ∧
      (Config.mldsaVerify (slice record 0x510 1952) (record.take 0xCB0) (slice record 0xCB0 3309) = false → t = s.admin w stTagFail 0)) ∧
  (∀ (s : State) (w : Who) (f : Fn), s.adminReady w = true → s.migrateGate w f = true → (s.ctrl f).flr = none → (s.ctrl f).freeze = .none →
    exec (.migrateFreeze w f) s = .next (s.freezeBegin w f)) ∧
  (∀ (s : State) (w : Who) (f : Fn), s.adminReady w = true → s.migrateGate w f = true → (s.ctrl f).flr = none → (s.ctrl f).freeze = .none →
    (∀ x ∈ s.disp.waiting, x.who.fn ≠ f) → flowsOf s f = [] → (∀ x ∈ s.ftl.waiting, x.freezable f = false) → w.fn ≠ f →
    (∀ x ∈ (s.ctrl f).fetched, x.sq = 0 ∧ x.cid ∈ (s.ctrl f).aers) →
    Completes (.migrateFreeze w f) s fun t =>
      ∃ u : State, t = u.admin w stOk 0 ∧ (u.ctrl f).freeze = .frozen ∧ (u.ctrl f).held = [] ∧ OnlyChanges [.host, .disp, .ftl] s u) ∧
  (∀ (s : State) (w : Who) (f : Fn), s.adminReady w = true → s.migrateGate w f = true → (s.ctrl f).flr = none →
    (s.ctrl f).freeze = .frozen → (s.ctrl f).held = [] →
    ∃ u : State, exec (.thaw w f) s = .next (u.admin w stOk 0) ∧ (u.ctrl f).freeze = .none ∧ (u.ctrl f).restored = false ∧
      (u.ctrl f).migTarget = none ∧ OnlyChanges [.host] s u) ∧
  (∀ (s : State) (w : Who) (f : Fn) (room : Nat) (k : MigTarget), s.adminReady w = true → s.migrateGate w f = true → (s.ctrl f).flr = none →
    (s.ctrl f).freeze = .frozen → (s.ctrl f).migTarget = some k → room ≤ 16777216 → blobLen s f ≤ room →
    ∃ (u : State) (bs : List Byte), exec (.migrateSave w f room) s = .next ((u.dataOut w bs).admin w stOk (w32 (blobLen s f))) ∧
      u.host = s.host ∧ OnlyChanges [.sea] s u) ∧
  (∀ (s : State) (w : Who) (f : Fn) (blob : List Byte) (k : MigKey), s.adminReady w = true → s.migrateGate w f = true →
    blob.length ≤ 16777216 → (s.ctrl f).migKey = some k →
    ∃ u : State, (u.ctrl f).migKey = none ∧ OnlyChanges [.host] s u ∧
      Completes (.migrateRestore w f blob.length blob) s fun t =>
        (∀ st a b, restoreRefused s f blob.length blob = some (st, a, b) → t = s.admin2 w st a b) ∧
        (restoreRefused s f blob.length blob = none →
          (∀ body, gcmOpen (blobKey k.keyId (bytesOf 32 (Config.mlkemDecap k.secret (slice blob 0x10 1088)))
            (bytesOf 48 (Config.ecdhShared k.secret (slice blob 0x450 97)))) (zeros 12) (blob.take 1232) (blob.drop 1232) = some body →
            bodyRefused u f blob body = none → (blobCounts blob).keys = 0 → t = u.applyBlob w f blob body) ∧
          (gcmOpen (blobKey k.keyId (bytesOf 32 (Config.mlkemDecap k.secret (slice blob 0x10 1088)))
            (bytesOf 48 (Config.ecdhShared k.secret (slice blob 0x450 97)))) (zeros 12) (blob.take 1232) (blob.drop 1232) = none →
            t = u.admin w stTagFail 0)))

/-! ## The sideband (R467 to R469, R521) -/

/-- R467 to R469: a request that firmware can answer is answered at once, by the state that it meets; configuration and the FRU area keep
what is written to them; one that must wait is held behind at most four more, and further ones are dropped and counted; one that waits 1
s is told so, and after 10 s it ends with Internal Error. How many requests are held, and the layouts, are the model's reading
(notes/assumptions/44.md). -/
def Obligations.SidebandRequests : Prop :=
  (∀ (s : State) (tr : Nat), transportUp s tr = true → sbServes s = true → sbHeld s tr = [] →
    (tr < 3 →
      (∀ k, exec (.readNvmeMiDataStructure tr k) s = .next (s.answer tr (sbAnswer s tr (.structure_ k)))) ∧
      exec (.nvmSubsystemHealthStatusPoll tr) s = .next (s.answer tr (.data (subsystemHealth s))) ∧
      (∀ (f : Fn), s.fnExists f = true → f < 512 → exec (.controllerHealthStatusPoll tr (controllerId f)) s =
        .next (s.answer tr (.data (controllerHealth s f)))) ∧
      (∀ m, exec (.configurationGet tr m) s =
        .next (s.answer tr (.data (if m then leBytes 2 (s.health.mtu.getD tr 64) else leBytes 1 (smbusCode s.health.smbusKhz))))) ∧
      (∀ khz mtu, khz = 100 ∨ khz = 400 ∨ khz = 1000 → mtuAllowed tr mtu = true →
        Completes (.configurationSet tr (some khz) (some mtu)) s fun t =>
          t.health.smbusKhz = khz ∧ t.health.mtu.find tr = some mtu ∧ OnlyChanges [.health, .host] s t) ∧
      (∀ off len, off + len ≤ 256 → exec (.vpdRead tr off len) s =
        .next (s.answer tr (.data (Mem.readBytes s.health.vpd off len)))) ∧
      (∀ (off : Nat) (data : List Byte), off + data.length ≤ 256 → Completes (.vpdWrite tr off data) s fun t =>
        Mem.readBytes t.health.vpd off data.length = data ∧
        (∀ a, a < off ∨ off + data.length ≤ a → t.health.vpd.read a = s.health.vpd.read a) ∧ OnlyChanges [.health, .host] s t) ∧
      (∀ op arg, Completes (.tunnelledAdminCommand tr op arg) s fun t => ∃ a, t.host.sent = s.host.sent ++ [.sideband tr a] ∧
        (op ≠ 0x02 ∧ op ≠ 0x06 ∧ op ≠ 0x0A → a = .invalidOpcode) ∧ OnlyChanges [.health, .host] s t)) ∧
    (∀ code nonce, exec (.spdmRequest tr code nonce) s = .next (s.answer tr (spdmAnswer s code nonce))) ∧
    (∀ seq count, exec (.ledgerGet tr seq count) s = .next (s.answer tr (sbAnswer s tr (.ledgerGet seq count)))) ∧
    exec (.certMldsa tr) s = .next (s.answer tr (.data (Config.certificate 1 [])))) ∧
  (∀ (s : State) (tr : Nat), transportUp s tr = true → s.power.effective ≠ .hibernate →
    (sbServes s = false ∨ sbHeld s tr ≠ []) →
    ((sbHeld s tr).length < 5 → Completes (.certMldsa tr) s fun t =>
      t.health = { s.health with sideband := s.health.sideband ++ [⟨tr, false, .certMldsa⟩] } ∧ OnlyChanges [.health] s t) ∧
    (5 ≤ (sbHeld s tr).length → Completes (.certMldsa tr) s fun t =>
      t.health.sideband = s.health.sideband ∧ t.life (lifeEvent 9) = Nat.min (2 ^ 64 - 1) (s.life (lifeEvent 9) + 1) ∧
      OnlyChanges [.health] s t)) ∧
  (∀ s : State, s.sys.phase ≠ .off →
    exec .basicManagementCommand s = .next (s.answer 0 (.basic (hottest s) (s.running && !dramFailed s)))) ∧
  (∀ (s : State) (tr : Nat) (q : SbReq) (qs : List SbReq), sbHeld s tr = q :: qs →
    Completes (.miResponseTimeout tr) s fun t =>
      t.host.sent = s.host.sent ++ [.sideband tr (if q.waited then .internalError else .moreProcessing)] ∧
      (q.waited = true → t.health.sideband = s.health.sideband.erase q) ∧
      (q.waited = false → { q with waited := true } ∈ t.health.sideband) ∧ OnlyChanges [.health, .host] s t) ∧
  (∀ (s : State) (q : SbReq) (qs : List SbReq), sbHeld s 0 = q :: qs →
    exec .smbusTimeout s = .next (s.onHealth fun h => { h with sideband := h.sideband.erase q }))

/-! ## Boot, the ledger and firmware (R500 to R519) -/

/-- R500, R510 to R514, R546: power-on boots from the first candidate, or from the hold while PFAIL_N is low; 10 ms into boot hold the
xSPI outputs are released; a trial is confirmed after 60 s, and a PENDING image that is not ready in 8 s adds a try. What of the boot
happens at POWER_ON is the model's choice (notes/assumptions/24.md). -/
def Obligations.PowerOnAndTrials : Prop :=
  (∀ (s : State) (split : Bool), s.sys.phase = .off ∨ s.sys.phase = .bootHold ∨ s.sys.phase = .thermalShutdown ∨ s.sys.phase = .hold →
    Completes (.powerOn split) s fun t =>
      (s.power.pfailN = false → t.sys.phase = .hold) ∧
      (s.power.pfailN = true → s.board.fuseOk = true →
        (s.boot.usable s.boot.first = true → ¬(s.boot.selector.pending ≠ 0 ∧ 2 ≤ s.boot.selector.tries) →
          t.sys.phase = .booting ∧ t.boot.running = s.boot.first ∧ t.boot.image = s.boot.slotImage s.boot.first) ∧
        (s.boot.usable 1 = false → s.boot.usable 2 = false → s.boot.selector.active = 1 ∨ s.boot.selector.active = 2 →
          s.boot.selector.pending ≤ 2 → t.sys.phase = .bootHold)) ∧
      (s.power.pfailN = true → s.board.fuseOk = false → t.sys.phase = .bootHold) ∧
      t.sys.portSplit = split ∧ t.power.effective = .balanced ∧ t.power.k = 60000 ∧ t.ftl.map = [] ∧ t.disp = Disp.reset) ∧
  (∀ s : State, s.sys.phase = .bootHold → exec .bootHoldXspiRelease s = .next (s.onSys fun y => { y with xspiHighZ := true })) ∧
  (∀ (s : State) (i : FwImage), s.running = true → s.boot.trial = true → s.boot.image = some i →
    Completes .trialConfirm s fun t =>
      t.boot.selector.active = s.boot.running ∧ t.boot.selector.pending = 0 ∧ t.boot.selector.tries = 0 ∧ t.boot.trial = false ∧
      t.boot.selector.sseq = s.boot.selector.sseq + 1 ∧
      t.boot.fuseSvn = (if i.raiseSvn then Nat.max s.boot.fuseSvn i.svn else s.boot.fuseSvn) ∧
      (∀ a, a < 4 → t.boot.revoked.getLsbD a = (s.boot.revoked.getLsbD a || (i.revoke.getLsbD a && decide (a ≠ i.authority)))) ∧
      OnlyChanges [.boot, .firmware] s t) ∧
  (∀ s : State, s.sys.phase = .booting → s.boot.running ≠ 0 → s.boot.running = s.boot.selector.pending →
    Completes .trialReadyTimeout s fun t =>
      t.boot.selector.tries = Nat.min 2 (s.boot.selector.tries + 1) ∧ OnlyChanges [.boot] s t)

/-- R166, R515, R516, R519: the oldest append makes a record with the next SEQ, chained to the one before it; an append that fails waits,
and one that writing is stopped for is not made. -/
def Obligations.LedgerAppends : Prop :=
  (∀ (s : State) (a : Append) (rest : List Append), s.running = true → s.boot.appends = a :: rest → s.boot.ledger.length < 65536 →
    sysWaits s .ledger = false → Completes (.ledgerAppendDone true) s fun t => ∃ r : LedgerRec,
      t.boot.ledger = s.boot.ledger ++ [r] ∧ r.seq = s.boot.nextSeq ∧ t.boot.nextSeq = s.boot.nextSeq + 1 ∧
      (a.then_ ≠ .moduleUsable → a.then_ ≠ .enrolled → t.boot.appends = rest) ∧
      r.kind = a.kind ∧ r.cause = a.cause ∧
      (∀ p, s.boot.ledger.getLast? = some p → r.prev = sha384 p.bytes ∧ (a.kind ≠ 0 → r.chain = chainAfter p.chain r.comps)) ∧
      (a.kind = 0 → r.chain = chainAfter (zeros 48) r.comps)) ∧
  (∀ (s : State) (a : Append) (rest : List Append), s.running = true → s.boot.appends = a :: rest → sysWaits s .ledger = false →
    Completes (.ledgerAppendDone false) s fun t =>
      t.boot = { s.boot with appendFail := true } ∧ OnlyChanges [.boot, .media] s t) ∧
  (∀ (s : State) (ok : Bool), sysWaits s .ledger = true → exec (.ledgerAppendDone ok) s = .next s)

/-- R507, R508: a download stages whole 4 KiB pages; a commit of a valid staged image writes the slot, and once it is written clears its
FAILED bit and waits for its ledger record; CA 001 and 010 set PENDING; an image that is not valid is refused with its reason. -/
def Obligations.FirmwareIsCommitted : Prop :=
  (∀ (s : State) (w : Who) (off : Nat) (data : List Byte), s.adminReady w = true → isManager w.fn = true → off % 4096 = 0 →
    data.length % 4096 = 0 → off + data.length ≤ 12 * 2 ^ 20 →
    ∃ u : State, exec (.firmwareImageDownload w off data) s = .next (u.admin w stOk 0) ∧ OnlyChanges [.boot] s u ∧
      (∀ k, k < data.length / 4096 → Tbl.find u.boot.download (off / 4096 + k) = some (slice data (4096 * k) 4096)) ∧
      ∀ p, p < off / 4096 ∨ (off + data.length) / 4096 ≤ p → Tbl.find u.boot.download p = Tbl.find s.boot.download p) ∧
  (∀ (s : State) (w : Who) (slot : Nat) (m e : Bool) (i : FwImage), s.adminReady w = true → isManager w.fn = true →
    slot = 1 ∨ slot = 2 → slot ≠ s.boot.running → i = FwImage.read s.boot.staged m e → stagedReason s.boot i = 0 → s.appendRoom = true →
    (Completes (.firmwareCommitWrite w slot m e) s fun t =>
      t.boot.slotImage slot = none ∧ t.boot.slotImage (3 - slot) = s.boot.slotImage (3 - slot) ∧ t.boot.selector = s.boot.selector ∧
      t.boot.download = [] ∧ t.boot.commits = s.boot.commits ++ [⟨w, 0, slot, i⟩] ∧ OnlyChanges [.boot] s t) ∧
    (Completes (.firmwareCommitWritePending w slot m e) s fun t =>
      t.boot.slotImage slot = none ∧ t.boot.slotImage (3 - slot) = s.boot.slotImage (3 - slot) ∧ t.boot.selector = s.boot.selector ∧
      t.boot.download = [] ∧ t.boot.commits = s.boot.commits ++ [⟨w, 1, slot, i⟩] ∧ OnlyChanges [.boot] s t)) ∧
  (∀ (s : State) (c : CommitJob) (rest : List CommitJob), s.running = true → s.up .ctrl = true → s.boot.commits = c :: rest →
    c.slot = 1 ∨ c.slot = 2 →
    s.commitStep.boot.slotImage c.slot = some c.image ∧ s.commitStep.boot.slotImage (3 - c.slot) = s.boot.slotImage (3 - c.slot) ∧
    s.commitStep.boot.selector.failed c.slot = false ∧
    s.commitStep.boot.selector.pending = (if c.action = 1 then c.slot else s.boot.selector.pending) ∧
    s.commitStep.boot.commits = rest ∧
    s.commitStep.boot.appends = s.boot.appends ++ [commitAppend c.who c.action c.slot c.image] ∧
    OnlyChanges [.boot, .media, .health] s s.commitStep) ∧
  (∀ (s : State) (w : Who) (slot : Nat) (i : FwImage), s.adminReady w = true → isManager w.fn = true → slot = 1 ∨ slot = 2 →
    slot ≠ s.boot.running → s.boot.slotImage slot = some i → imageValid s.boot i = true → s.appendRoom = true →
    Completes (.firmwareCommitPending w slot) s fun t =>
      t.boot.selector.pending = slot ∧ t.boot.slotA = s.boot.slotA ∧ t.boot.slotB = s.boot.slotB ∧
      t.boot.appends = s.boot.appends ++ [commitAppend w 2 slot i] ∧ OnlyChanges [.boot, .media, .health] s t) ∧
  (∀ (s : State) (w : Who) (slot : Nat) (m e : Bool) (i : FwImage), s.adminReady w = true → isManager w.fn = true →
    slot = 1 ∨ slot = 2 → slot ≠ s.boot.running → i = FwImage.read s.boot.staged m e → stagedReason s.boot i ≠ 0 →
    ∃ u : State, exec (.firmwareCommitWrite w slot m e) s = .next (u.admin w stInvalidField (w32 (stagedReason s.boot i))) ∧
      u.boot = { s.boot with download := [] } ∧ OnlyChanges [.boot] s u)

/-! ## The ladder and bridge errors (R14 to R19, R523 to R526) -/

/-- R523, R524: the management-hart watchdog resets CTRL, the root watchdog the whole G9; a recovery past its bound triggers the next
level, and one that completes brings its unit, its island or CTRL back. What a reset clears where R523 leaves it open is the model's
reading (notes/assumptions/25.md). -/
def Obligations.LadderEscalates : Prop :=
  (∀ s : State, s.running = true → s.up .ctrl = true → resetsWithin s 3 .ctrl 0xFF (3600 * tSec) < 2 →
    Completes .mgmtHartWatchdogExpiry s fun t =>
      .ctrl ∈ t.sys.down ∧ ⟨3, .ctrl, 0xFF⟩ ∈ t.sys.recovering ∧ t.power.effective = .balanced ∧ t.power.requested = .balanced ∧
      t.power.k = s.power.k ∧ t.boot.download = [] ∧ t.hrt.modules = []) ∧
  (∀ s : State, s.running = true → s.power.writesStopped = false → dumpNeeded s = true → setServes s 0 = true →
    Completes .rootWatchdogExpiry s fun t =>
      t.sys.phase = .dumping ∧ t.sys.dumpCause = .escalation ∧ ∃ d, t.str.dump = some d ∧ d.slots = s.ftl.slots ∧ d.trailer = false) ∧
  (∀ (s u : State) (i : Island) (unit : Nat), recovering s 1 i unit = true →
    u = (s.onSys fun y => { y with recovering := y.recovering.erase ⟨1, i, unit⟩ }) →
    exec (.escalationBoundExpiry 1 i unit) s = .next (if i = .compute then u.hartResetFails unit else u.l2Reset i unit 5)) ∧
  (∀ (s : State) (i : Island) (unit : Nat), recovering s 2 i unit = true →
    exec (.escalationBoundExpiry 2 i unit) s =
      .next ((s.onSys fun y => { y with recovering := y.recovering.erase ⟨2, i, unit⟩ }).l3Reset i 5)) ∧
  (∀ (s : State) (i : Island) (unit : Nat), recovering s 3 i unit = true →
    exec (.escalationBoundExpiry 3 i unit) s =
      .next ((s.onSys fun y => { y with recovering := y.recovering.erase ⟨3, i, unit⟩ }).l4Reset i 5 .escalation)) ∧
  (∀ (s : State) (i : Island) (r : Recovery), s.sys.recovering.find? (fun r => r.level = 1 ∧ r.island = i) = some r → i ≠ .compute →
    ∃ u : State, exec (.resetDone 1 i) s = .next (u.startHeldReads).irq ∧ (∀ x ∈ u.disp.resetting, clsCode x.cls ≠ r.unit) ∧
      OnlyChanges [.sys, .disp] s u) ∧
  (∀ (s : State) (i : Island) (r : Recovery), s.sys.recovering.find? (fun r => r.level = 2 ∧ r.island = i) = some r →
    Completes (.resetDone 2 i) s fun t =>
      i ∉ t.sys.down ∧ t.sys.recovering = s.sys.recovering.erase r ∧ OnlyChanges [.sys, .memory, .host] s t) ∧
  (∀ (s : State) (r : Recovery), s.sys.recovering.find? (fun r => r.level = 3 ∧ r.island = .ctrl) = some r →
    Completes (.resetDone 3 .ctrl) s fun t =>
      .ctrl ∉ t.sys.down ∧ (s.power.writesStopped = false → t.health.writing = true) ∧
      (∃ a, t.boot.appends = s.boot.appends ++ [a] ∧ a.kind = 0 ∧ a.cause = 3) ∧
      OnlyChanges [.sys, .boot, .health, .host] s t)

/-- R16 to R18: a bridge error is recorded; a host read of BAR2 sees ones, a write is discarded, an NVM command ends with Data Transfer
Error and a flush keeps its entry; the third toward one island within 1 ms resets that island. When an escalation follows is the model's
choice (notes/assumptions/7.md and 48.md). -/
def Obligations.BridgeErrors : Prop :=
  (∀ (s : State) (target source : Island) (req : BridgeReq), s.running = true →
    exec (.bridgeTimeout target source req) s =
      .next (((s.noteBridge target source).bridgeAnswer target req).bridgeEscalate target)) ∧
  (∀ (s : State) (g : Island) (r : Requester) (off width : Nat), s.bridgeAnswer g (.bar2Read r off width) =
    s.onHost fun h => { h with sent := h.sent ++ [.regData r off (List.replicate width 0xFF)] }) ∧
  (∀ (s : State) (g : Island) (r : Requester), s.bridgeAnswer g (.bar2Write r) = s) ∧
  (∀ (s : State) (g : Island) (w : Who), s.bridgeAnswer g (.nvm w) = (s.dropNvm w).complete w stDataTransfer 0 0) ∧
  (∀ (s : State) (g : Island) (k : Nat) (x : Slot), s.ftl.slots.find k = some x →
    ∃ y, (s.bridgeAnswer g (.flush k)).ftl.slots.find k = some y ∧ y.mem = x.mem ∧ y.iu = x.iu ∧ y.mask = x.mask) ∧
  (∀ (s : State) (target source : Island),
    OnlyChanges [.regs, .sys, .health, .host] s (s.noteBridge target source) ∧
    (s.regBit rBridgeErr 31 = false → (s.noteBridge target source).reg rBridgeErr =
      w32 (2 ^ 31 + islandCode target * 16 + islandCode source)) ∧
    bridgeRecent (s.noteBridge target source) target = bridgeRecent s target + 1) ∧
  (∀ (s : State) (target : Island), bridgeRecent s target < 3 → s.bridgeEscalate target = s) ∧
  (∀ (s : State) (i : Island), s.running = true → i ≠ .aon → i ≠ .sec → i ≠ .ctrl → i ∉ s.sys.down → 3 ≤ bridgeRecent s i →
    resetsWithin s 2 i 0xFF (60 * tSec) < 2 → i ∈ (s.bridgeEscalate i).sys.down)

/-! ## Heat, power loss and health (R534 to R547, R560 to R568, R606) -/

/-- R538 to R541: the trimmed samples become the readings; above 150 °C program and erase stop, and at 145 °C they go on; a reading of
155 °C is an alarm and a thermal shutdown. R534, R543 to R546, R606: a fall of PFAIL_N or RESET_N, or a droop, starts the dump or the
hold; the G9 boots from the hold once its inputs are good; rails that fall end everything, and a dump that was not complete is then not
intact. The readings of coincidences are the model's (notes/assumptions/46.md). -/
def Obligations.HeatAndPowerLoss : Prop :=
  (∀ (s : State) (raw : List Int), raw.length = 16 → s.sys.phase ≠ .off →
    Completes (.thermalSample raw) s fun t =>
      ((∀ x, x ∈ raw.mapIdx (fun i r => r + sensorF i) → x < 620) → s.running = true →
        t.power.readings = raw.mapIdx (fun i r => r + sensorTrim s i) ∧
        (∀ x, hottest { s with power := { s.power with readings := raw.mapIdx fun i r => r + sensorTrim s i } } = some x →
          (600 < x → t.power.writesStopped = true) ∧ (x ≤ 580 → t.power.writesStopped = false) ∧
          (580 < x → x ≤ 600 → t.power.writesStopped = s.power.writesStopped)) ∧
        (∀ x, hottest { s with power := { s.power with readings := raw.mapIdx fun i r => r + sensorTrim s i } } = some x → x < 472 →
          s.power.writesStopped = false → s.power.emberAuto = false → t.sys = s.sys ∧ OnlyChanges [.power, .host, .health] s t)) ∧
      ((∃ x, x ∈ raw.mapIdx (fun i r => r + sensorF i) ∧ 620 ≤ x) → s.running = true →
        t.sys.phase = .thermalShutdown ∧ AlarmCause.overtemp ∈ t.sea.alarms)) ∧
  (∀ i : Nat, -128 ≤ sensorF i ∧ sensorF i ≤ 127) ∧
  (∀ (s : State) (i : Nat), sensorF i - 6 ≤ sensorTrim s i ∧ sensorTrim s i ≤ sensorF i + 6) ∧
  (∀ s : State, s.running = true →
    (Completes .pfailNFall s fun t => t.power.pfailN = false ∧ t.power.transition = none ∧
      ((t.sys.phase = .dumping ∧ t.sys.dumpCause = .pfail) ∨ t.sys.phase = .hold) ∧
      (s.power.transition.isSome = true → t.power.lastCause = 8) ∧
      (dumpNeeded s = true → s.power.writesStopped = false → setServes s 0 = true → t.sys.phase = .dumping ∧
        ∃ d, t.str.dump = some d ∧ d.slots = s.ftl.slots ∧ d.stripes = s.str.stripes ∧ d.trailer = false)) ∧
    (s.power.resetN = true → Completes .resetNFall s fun t => t.power.resetN = false ∧ t.power.transition = none ∧
      ((t.sys.phase = .dumping ∧ t.sys.dumpCause = .resetN) ∨ t.sys.phase = .hold)) ∧
    (∀ r, s.power.pfailN = true → Completes (.railDroop r) s fun t => r ∈ t.power.railsBad ∧
      t.cnt (rPwrCount 6) = (s.cnt (rPwrCount 6) + 1) % 2 ^ 64 ∧
      ((t.sys.phase = .dumping ∧ t.sys.dumpCause = .pfail) ∨ t.sys.phase = .hold))) ∧
  (∀ s : State, s.sys.phase = .hold → s.power.resetN = true → s.board.fuseOk = true → s.boot.usable s.boot.first = true →
    s.boot.selector.tries < 2 → Completes .pfailHoldExpiry s fun t => t.sys.phase = .booting ∧ t.boot.running = s.boot.first) ∧
  (∀ (s : State) (split : Bool), s.sys.phase = .hold → s.power.resetN = false → s.power.pfailN = true → s.power.railsBad = [] →
    s.board.fuseOk = true → s.boot.usable s.boot.first = true → s.boot.selector.tries < 2 →
    Completes (.resetNRiseReboot split) s fun t =>
      t.sys.phase = .booting ∧ t.boot.running = s.boot.first ∧ t.sys.portSplit = split ∧ t.power.resetN = true) ∧
  (∀ (s : State) (rs : List Rail), s.sys.phase = .dumping ∨ s.sys.phase = .hold →
    Completes (.railsFall rs) s fun t =>
      t.sys.phase = .off ∧ (∀ r, r ∈ rs → r ∈ t.power.railsBad) ∧ (s.sys.phase = .dumping → t.str.railsFell = true) ∧
      t.str.dump = s.str.dump ∧ OnlyChanges [.sys, .power, .str, .health] s t)

/-- R560, R565, R176: a second adds to one bin of each sensor's block; a lifetime write saves every count, and waits for one under way or
while writes are stopped; a write of the configuration area becomes durable in order. When counts are written is the model's reading
(notes/assumptions/47.md). -/
def Obligations.LifetimeRecords : Prop :=
  (∀ s : State, s.sys.phase ≠ .off → s.power.resetN = true →
    Completes .tempHistoryTick s fun t =>
      t.health.sinceWrite = Nat.min 0xFFFF (s.health.sinceWrite + 1) ∧ t.health.lifeSaved = s.health.lifeSaved ∧
      (∀ i x, i < s.power.readings.length → i < 16 → s.power.readings[i]? = some x →
        t.life (lifeC2 (32 + 176 * i) + 8 + 4 * tempBin x) =
          Nat.min (2 ^ 64 - 1) (s.life (lifeC2 (32 + 176 * i) + 8 + 4 * tempBin x) + 1)) ∧ OnlyChanges [.health] s t) ∧
  (∀ s : State, s.running = true → s.health.writing = false → s.power.writesStopped = false →
    exec .lifetimeWriteTimer s = .next (s.onHealth fun h => { h with writing := true })) ∧
  (∀ s : State, s.running = true → s.health.writing = true ∨ s.power.writesStopped = true →
    exec .lifetimeWriteTimer s = .next (s.onHealth fun h => { h with flushAgain := true })) ∧
  (∀ (s : State) (r : Requester) (v : W32), s.barReaches r rTlmCtl = true → bitAt v 0 = true → s.health.writing = false →
    s.power.writesStopped = false → Completes (.flushLifetime r v) s fun t => t.health.writing = true ∧ OnlyChanges [.regs, .health] s t) ∧
  (∀ s : State, s.running = true → s.health.writing = true → s.power.writesStopped = false →
    Completes .lifetimeWriteDone s fun t =>
      t.health.lifeSaved = s.health.life ∧ t.health.eventsSaved = s.health.events ∧ t.health.sinceWrite = 0 ∧
      t.health.writing = s.health.flushAgain ∧ t.health.flushAgain = false ∧ t.health.life = s.health.life ∧
      OnlyChanges [.media, .health] s t) ∧
  (∀ (s : State) (off : Nat) (v : W32) (rest : List CfgWrite), s.running = true → s.up .ctrl = true → sysWaits s .config = false →
    s.health.cfg = .register off v :: rest →
    Completes .configAreaWriteDone s fun t =>
      t.health.cfg = rest ∧ t.regs.durable.getD off (resetValue off) = v ∧ OnlyChanges [.regs, .media, .health] s t) ∧
  (∀ (s : State) (w : Who) (st : Status) (dw0 : W32) (rest : List CfgWrite), s.running = true → s.up .ctrl = true →
    sysWaits s .config = false → s.health.cfg = .complete w st dw0 :: rest →
    ∃ u : State, exec .configAreaWriteDone s = .next (u.admin w st dw0) ∧ u.health = { s.health with cfg := rest } ∧
      OnlyChanges [.media, .health] s u)

/-! ## Registers (R5 to R7, R573 to R585) -/

/-- R574 to R576: a read that arrives answers its bytes; the read of a LO register latches its upper half for that requester alone;
misaligned reads see ones; a read of BLD_ESC_LAST clears ESCALATION; where the island is down a read sees ones. An access that does not
arrive and a width that R575 does not name are the model's reading (notes/assumptions/48.md). -/
def Obligations.RegistersRead : Prop :=
  (∀ (s : State) (r : Requester) (off width : Nat), s.arrives r off = true →
    Completes (.loRegisterRead r off width) s fun t => ∃ bs, t.host.sent = s.host.sent ++ [.regData r off bs] ∧
      (s.answers r off = true → width = 4 → off % 4 = 0 → (∀ f, r ≠ .vf f) → bs = leBytes 4 (regRead s r off).toNat) ∧
      (width = 1 → (∀ f, r ≠ .vf f) → s.answers r (off / 4 * 4) = true →
        bs = slice (leBytes 4 (regRead s r (off / 4 * 4)).toNat) (off % 4) 1) ∧
      (width ≠ 1 → width ≠ 2 → width ≠ 4 → width ≠ 8 → bs = List.replicate width 0xFF ∧ OnlyChanges [.host] s t) ∧
      (off % 2 = 1 → width ≠ 1 → bs = List.replicate width 0xFF ∧ OnlyChanges [.host] s t) ∧
      (isFirmware r = false → OnlyChanges [.regs, .sys, .host, .health] s t)) ∧
  (∀ (s : State) (off v : Nat), s.arrives .portA off = true → s.answers .portA off = true → pairValue s off = some v →
    off ≠ rBldEscLast → off % 4 = 0 →
    Completes (.loRegisterRead .portA off 4) s fun t =>
      t.regs = { s.regs with latchA := s.regs.latchA.set off (hiOf v) } ∧ OnlyChanges [.regs, .host] s t) ∧
  (∀ (s : State) (r : Requester), (∀ f, r ≠ .vf f) → s.arrives r rBldEscLast = true → s.answers r rBldEscLast = true →
    Completes (.bldEscLastRead r 4) s fun t =>
      t.sys.escPending = false ∧ .regData r rBldEscLast (leBytes 4 (regRead s r rBldEscLast).toNat) ∈ t.host.sent) ∧
  (∀ (s : State) (r : Requester) (off : Nat), (∀ f, r ≠ .vf f) → s.arrives r off = true → s.answers r off = false → off % 4 = 0 →
    Completes (.loRegisterRead r off 4) s fun t => .regData r off (List.replicate 4 0xFF) ∈ t.host.sent)

/-- R6, R7, R575, R577: a 32-bit write changes only the RW fields, and the RWL fields of a block that is not locked; a 64-bit write is
two writes, the higher first; narrow and misaligned writes are discarded; a lock stays set, and CLR_COUNTERS clears a block's counts.
R19, R349, R374, R396, R438: writing 1 to VALID clears every register of the record together; a write of 0 leaves it. A width that R575
does not name is the model's reading (notes/assumptions/48.md). -/
def Obligations.RegistersWrite : Prop :=
  (∀ (s : State) (r : Requester) (v : W64), (∀ f, r ≠ .vf f) → s.barReaches r rTopScratch = true →
    Completes (.registerWrite r rTopScratch 4 v) s fun t => t.reg rTopScratch = v.setWidth 32 ∧ OnlyChanges [.regs, .sys, .host] s t) ∧
  (∀ (s : State) (r : Requester) (off width : Nat) (v : W64), width ≠ 4 → width ≠ 8 →
    exec (.registerWrite r off width v) s = .next s) ∧
  (∀ (s : State) (r : Requester) (off : Nat) (v : W64), s.arrives r off = true → off % 8 = 0 →
    exec (.registerWrite r off 8 v) s =
      .next ((s.barWrite r (off + 4) (hiOf v.toNat)).barWrite r off (loOf v.toNat))) ∧
  (∀ (s : State) (r : Requester) (v : W64), (∀ f, r ≠ .vf f) → s.barReaches r rDspThresh = true → s.locked rDspThresh = true →
    Completes (.registerWrite r rDspThresh 4 v) s fun t => t.reg rDspThresh = s.reg rDspThresh) ∧
  (∀ (s : State) (r : Requester) (v : W64) (off : Nat), (∀ f, r ≠ .vf f) → s.barReaches r off = true → isCtl off = true →
    s.regBit off 31 = true → Completes (.registerWrite r off 4 v) s fun t => t.regBit off 31 = true) ∧
  (∀ (s : State) (r : Requester) (off : Nat) (v : W32), isCtl off = true → bitAt v 31 = true → s.barReaches r off = true →
    Completes (.lock r off v) s fun t => t.locked off = true ∧ (s.locked off = false → rwlMask off ≠ 0 → writeTaken s off v = true →
      writeValue s off v = v → t.reg off &&& rwlMask off = v &&& rwlMask off)) ∧
  (∀ (s : State) (r : Requester) (off b : Nat) (v : W32), clrBit off = some b → bitAt v b = true → s.barReaches r off = true →
    Completes (.clrCounters r off v) s fun t =>
      (off = rStrCtl → ∀ n, n < 6 → t.cnt (rStrCount n) = 0) ∧ (off = rPwrCtl → ∀ n, n < 7 → t.cnt (rPwrCount n) = 0) ∧
      (off = rDspCtl → ∀ n, n < 8 → t.cnt (rDspStall n) = 0) ∧ (off = rTopCtl → t.reg rBridgeErrCount = 0) ∧
      OnlyChanges [.regs, .power, .sys, .host, .health] s t) ∧
  (∀ (s : State) (r : Requester) (p : Port) (v : W32), s.barReaches r (rTopIrqCfg p) = true → s.locked (rTopIrqCfg p) = false →
    p = .a ∨ s.sys.portSplit = true →
    Completes (.topIrqCfgWrite r p v) s fun t =>
      t.reg (rTopIrqCfg p) = (s.reg (rTopIrqCfg p) &&& 0x7C00F800#32) ||| (v &&& 0x83FF07FF#32) ∧ OnlyChanges [.regs, .sys, .host] s t) ∧
  (∀ (s : State) (r : Requester) (v : W32), s.barReaches r rBridgeErr = true →
    Completes (.bridgeErrClear r v) s fun t =>
      (bitAt v 31 = true → t.reg rBridgeErr = 0) ∧ (v = 0 → t.reg rBridgeErr = s.reg rBridgeErr) ∧ OnlyChanges [.regs, .sys, .host] s t) ∧
  (∀ (s : State) (r : Requester) (v : W32), s.barReaches r rDmaErrStatus = true →
    Completes (.dmaErrClear r v) s fun t =>
      (bitAt v 31 = true → t.reg rDmaErrStatus = 0 ∧ t.reg rDmaErrAddrLo = 0 ∧ t.reg rDmaErrAddrHi = 0) ∧
      (v = 0 → t.reg rDmaErrStatus = s.reg rDmaErrStatus) ∧ OnlyChanges [.regs, .sys, .host] s t) ∧
  (∀ (s : State) (r : Requester) (v : W32), s.barReaches r rRleErr = true →
    Completes (.rleErrClear r v) s fun t =>
      (bitAt v 31 = true → t.reg rRleErr = 0 ∧ t.reg rRleErrIn = 0 ∧ t.reg rRleErrOut = 0 ∧ t.reg rRleErrTrail = 0) ∧
      (v = 0 → t.reg rRleErr = s.reg rRleErr) ∧ OnlyChanges [.regs, .sys, .host] s t) ∧
  (∀ (s : State) (r : Requester) (v : W32), s.barReaches r rEccUeStatus = true →
    Completes (.eccUeClear r v) s fun t =>
      (bitAt v 31 = true → t.reg rEccUeStatus = 0 ∧ t.reg rEccUeAddrLo = 0 ∧ t.reg rEccUeAddrHi = 0) ∧
      (v = 0 → t.reg rEccUeStatus = s.reg rEccUeStatus) ∧ OnlyChanges [.regs, .sys, .host] s t) ∧
  (∀ (s : State) (r : Requester) (v : W32), s.barReaches r rLnxErr = true → bitAt v 31 = true → lowestLost s = none →
    Completes (.lnxErrClear r v) s fun t => t.reg rLnxErr = 0 ∧ OnlyChanges [.regs, .sys, .host] s t)

/-! ## Steps, reset and what every step keeps -/

/-- A step runs the command at the front of the queue over the rest; with none waiting a tick passes (the model's choice,
notes/assumptions/7.md); no word spells a command, since the opcode table gives no bits. -/
def Obligations.StepRunsTheFrontCommand : Prop :=
  (∀ (c : Instr) (s : State) (rest : List Instr), s.pending = c :: rest → step s = exec c { s with pending := rest }) ∧
  (∀ s : State, s.pending = [] → step s = .next s.idle) ∧
  (∀ (s : State) (nbits w : Nat), s.withFetchWord nbits w = s)

/-- A command acts on everything but the queue of waiting commands (notes/assumptions/1.md). -/
def Obligations.CommandsLeaveTheQueue : Prop :=
  ∀ (c : Instr) (s t : State), exec c s = .next t → t.pending = s.pending

/-- Reset: BALANCED (R27), the full SPRINT credit (R35), every register at its value of R589, FTL_FREE_THRESH among them, nothing queued,
no Trail, an empty map, and no firmware runs that is not valid. That the machine at reset is off, with an empty map and no Trail, is the
model's choice (notes/assumptions/2.md to 4.md). -/
def Obligations.ResetState : Prop :=
  State.reset.pending = [] ∧ State.reset.power.effective = .balanced ∧ State.reset.power.requested = .balanced ∧
  State.reset.power.k = 60000 ∧ State.reset.disp.flows = [] ∧ State.reset.disp.entries = [] ∧ State.reset.ftl.map = [] ∧
  (∀ off, State.reset.reg off = resetValue off) ∧ resetValue rFtlThresh = 0x281405#32 ∧
  SecureFirmware State.reset

/-- R506: every step keeps the firmware that runs valid, the security version counter never falls, and a revoked authority stays revoked. -/
def Obligations.FirmwareStaysSecure : Prop :=
  ∀ s t : State, SecureFirmware s → step s = .next t →
    SecureFirmware t ∧ s.boot.fuseSvn ≤ t.boot.fuseSvn ∧ ∀ a, s.boot.revoked.getLsbD a = true → t.boot.revoked.getLsbD a = true
end

