-- ==== Sys2Proof/Laws/Bytes.lean ====
section
/-! SUPPORT. The laws of byte strings: how long a hash is, and what a slice of an appended or of a zero string is. -/

namespace Sys2Proof.Machine

theorem shaRounds_length {w : Nat} (r : ShaRot) (l : List (BitVec w × BitVec w)) (st : List (BitVec w)) (h : st.length = 8) :
    (shaRounds r l st).length = 8 := by
  induction l generalizing st with
  | nil => simpa [shaRounds] using h
  | cons x l ih =>
    match st, h with
    | [a, b, c, d, e, f, g, k], _ => simp only [shaRounds]; exact ih _ rfl

theorem shaBlock_length {w : Nat} (r : ShaRot) (ks st : List (BitVec w)) (b : List Byte) (h : st.length = 8) :
    (shaBlock r ks st b).length = 8 := by simp [shaBlock, shaRounds_length _ _ _ h, h]

theorem foldl_shaBlock_length {w : Nat} (r : ShaRot) (ks : List (BitVec w)) (bs : List (List Byte)) (st : List (BitVec w)) (h : st.length = 8) :
    (bs.foldl (shaBlock r ks) st).length = 8 := by
  induction bs generalizing st with
  | nil => exact h
  | cons b bs ih => exact ih _ (shaBlock_length r ks st b h)

theorem leBytes_length (n v : Nat) : (leBytes n v).length = n := by
  induction n generalizing v with
  | zero => rfl
  | succ n ih => simp [leBytes, ih]

/-- A SHA-384 digest has 48 bytes (R141). -/
theorem sha384_length (m : List Byte) : (sha384 m).length = 48 := by
  have h := foldl_shaBlock_length rot512 sha512K (chunksOf (2 * 64) (shaPad (2 * 64) m)) sha384H (by decide +kernel)
  have e : ∀ l : List (BitVec 64), ((l.map fun x => beBytes (64 / 8) x.toNat).flatten).length = 8 * l.length := by
    intro l
    induction l with
    | nil => rfl
    | cons x l ih =>
      rw [List.map_cons, List.flatten_cons, List.length_append, ih]
      simp only [beBytes, List.length_reverse, leBytes_length, List.length_cons]
      omega
  simp only [sha384, shaRun, List.length_take, e, h]; rfl

theorem slice_append_left (a b : List Byte) (o n : Nat) (h : o + n ≤ a.length) : slice (a ++ b) o n = slice a o n := by
  simp [slice, padTo, List.drop_append_of_le_length (show o ≤ a.length by omega),
    List.take_append_of_le_length (show n ≤ (a.drop o).length by simp; omega)]
  have : n - (a.length - o + b.length) = 0 := by omega
  have : n - (a.length - o) = 0 := by omega
  simp [*]

theorem slice_append_right (a b : List Byte) (o n k : Nat) (h : a.length + k = o) : slice (a ++ b) o n = slice b k n := by
  subst h; simp [slice, List.drop_append, List.drop_eq_nil_of_le (show a.length ≤ a.length + k by omega)]

theorem slice_all (a b : List Byte) (n : Nat) (h : a.length = n) : slice (a ++ b) 0 n = a := by
  subst h; simp [slice, padTo, zeros]

theorem slice_zeros (m o n : Nat) : slice (zeros m) o n = zeros n := by
  simp [slice, padTo, zeros, List.replicate_append_replicate]; omega

theorem leAt_append_left (a b : List Byte) (o n : Nat) (h : o + n ≤ a.length) : leAt (a ++ b) o n = leAt a o n := by
  simp [leAt, slice_append_left a b o n h]

end Sys2Proof.Machine
end

