-- ==== Sys2Proof/Laws/State.lean ====
section
/-! SUPPORT. Each part of the state after each operation that changes one part: true by rfl, for simp. -/

namespace Sys2Proof.Machine

section
variable (s : State) (f : Regs → Regs)
@[simp] theorem State.onRegs_regs : (s.onRegs f).regs = f s.regs := rfl
@[simp] theorem State.onRegs_sys : (s.onRegs f).sys = s.sys := rfl
@[simp] theorem State.onRegs_power : (s.onRegs f).power = s.power := rfl
@[simp] theorem State.onRegs_board : (s.onRegs f).board = s.board := rfl
@[simp] theorem State.onRegs_host : (s.onRegs f).host = s.host := rfl
@[simp] theorem State.onRegs_ns : (s.onRegs f).ns = s.ns := rfl
@[simp] theorem State.onRegs_ftl : (s.onRegs f).ftl = s.ftl := rfl
@[simp] theorem State.onRegs_media : (s.onRegs f).media = s.media := rfl
@[simp] theorem State.onRegs_str : (s.onRegs f).str = s.str := rfl
@[simp] theorem State.onRegs_sea : (s.onRegs f).sea = s.sea := rfl
@[simp] theorem State.onRegs_dgs : (s.onRegs f).dgs = s.dgs := rfl
@[simp] theorem State.onRegs_lynx : (s.onRegs f).lynx = s.lynx := rfl
@[simp] theorem State.onRegs_dma : (s.onRegs f).dma = s.dma := rfl
@[simp] theorem State.onRegs_disp : (s.onRegs f).disp = s.disp := rfl
@[simp] theorem State.onRegs_hrt : (s.onRegs f).hrt = s.hrt := rfl
@[simp] theorem State.onRegs_memory : (s.onRegs f).memory = s.memory := rfl
@[simp] theorem State.onRegs_boot : (s.onRegs f).boot = s.boot := rfl
@[simp] theorem State.onRegs_health : (s.onRegs f).health = s.health := rfl
@[simp] theorem State.onRegs_freeDraw : (s.onRegs f).freeDraw = s.freeDraw := rfl
@[simp] theorem State.onRegs_pending : (s.onRegs f).pending = s.pending := rfl
end
section
variable (s : State) (f : Sys → Sys)
@[simp] theorem State.onSys_regs : (s.onSys f).regs = s.regs := rfl
@[simp] theorem State.onSys_sys : (s.onSys f).sys = f s.sys := rfl
@[simp] theorem State.onSys_power : (s.onSys f).power = s.power := rfl
@[simp] theorem State.onSys_board : (s.onSys f).board = s.board := rfl
@[simp] theorem State.onSys_host : (s.onSys f).host = s.host := rfl
@[simp] theorem State.onSys_ns : (s.onSys f).ns = s.ns := rfl
@[simp] theorem State.onSys_ftl : (s.onSys f).ftl = s.ftl := rfl
@[simp] theorem State.onSys_media : (s.onSys f).media = s.media := rfl
@[simp] theorem State.onSys_str : (s.onSys f).str = s.str := rfl
@[simp] theorem State.onSys_sea : (s.onSys f).sea = s.sea := rfl
@[simp] theorem State.onSys_dgs : (s.onSys f).dgs = s.dgs := rfl
@[simp] theorem State.onSys_lynx : (s.onSys f).lynx = s.lynx := rfl
@[simp] theorem State.onSys_dma : (s.onSys f).dma = s.dma := rfl
@[simp] theorem State.onSys_disp : (s.onSys f).disp = s.disp := rfl
@[simp] theorem State.onSys_hrt : (s.onSys f).hrt = s.hrt := rfl
@[simp] theorem State.onSys_memory : (s.onSys f).memory = s.memory := rfl
@[simp] theorem State.onSys_boot : (s.onSys f).boot = s.boot := rfl
@[simp] theorem State.onSys_health : (s.onSys f).health = s.health := rfl
@[simp] theorem State.onSys_freeDraw : (s.onSys f).freeDraw = s.freeDraw := rfl
@[simp] theorem State.onSys_pending : (s.onSys f).pending = s.pending := rfl
end
section
variable (s : State) (f : Power → Power)
@[simp] theorem State.onPower_regs : (s.onPower f).regs = s.regs := rfl
@[simp] theorem State.onPower_sys : (s.onPower f).sys = s.sys := rfl
@[simp] theorem State.onPower_power : (s.onPower f).power = f s.power := rfl
@[simp] theorem State.onPower_board : (s.onPower f).board = s.board := rfl
@[simp] theorem State.onPower_host : (s.onPower f).host = s.host := rfl
@[simp] theorem State.onPower_ns : (s.onPower f).ns = s.ns := rfl
@[simp] theorem State.onPower_ftl : (s.onPower f).ftl = s.ftl := rfl
@[simp] theorem State.onPower_media : (s.onPower f).media = s.media := rfl
@[simp] theorem State.onPower_str : (s.onPower f).str = s.str := rfl
@[simp] theorem State.onPower_sea : (s.onPower f).sea = s.sea := rfl
@[simp] theorem State.onPower_dgs : (s.onPower f).dgs = s.dgs := rfl
@[simp] theorem State.onPower_lynx : (s.onPower f).lynx = s.lynx := rfl
@[simp] theorem State.onPower_dma : (s.onPower f).dma = s.dma := rfl
@[simp] theorem State.onPower_disp : (s.onPower f).disp = s.disp := rfl
@[simp] theorem State.onPower_hrt : (s.onPower f).hrt = s.hrt := rfl
@[simp] theorem State.onPower_memory : (s.onPower f).memory = s.memory := rfl
@[simp] theorem State.onPower_boot : (s.onPower f).boot = s.boot := rfl
@[simp] theorem State.onPower_health : (s.onPower f).health = s.health := rfl
@[simp] theorem State.onPower_freeDraw : (s.onPower f).freeDraw = s.freeDraw := rfl
@[simp] theorem State.onPower_pending : (s.onPower f).pending = s.pending := rfl
end
section
variable (s : State) (f : HostSide → HostSide)
@[simp] theorem State.onHost_regs : (s.onHost f).regs = s.regs := rfl
@[simp] theorem State.onHost_sys : (s.onHost f).sys = s.sys := rfl
@[simp] theorem State.onHost_power : (s.onHost f).power = s.power := rfl
@[simp] theorem State.onHost_board : (s.onHost f).board = s.board := rfl
@[simp] theorem State.onHost_host : (s.onHost f).host = f s.host := rfl
@[simp] theorem State.onHost_ns : (s.onHost f).ns = s.ns := rfl
@[simp] theorem State.onHost_ftl : (s.onHost f).ftl = s.ftl := rfl
@[simp] theorem State.onHost_media : (s.onHost f).media = s.media := rfl
@[simp] theorem State.onHost_str : (s.onHost f).str = s.str := rfl
@[simp] theorem State.onHost_sea : (s.onHost f).sea = s.sea := rfl
@[simp] theorem State.onHost_dgs : (s.onHost f).dgs = s.dgs := rfl
@[simp] theorem State.onHost_lynx : (s.onHost f).lynx = s.lynx := rfl
@[simp] theorem State.onHost_dma : (s.onHost f).dma = s.dma := rfl
@[simp] theorem State.onHost_disp : (s.onHost f).disp = s.disp := rfl
@[simp] theorem State.onHost_hrt : (s.onHost f).hrt = s.hrt := rfl
@[simp] theorem State.onHost_memory : (s.onHost f).memory = s.memory := rfl
@[simp] theorem State.onHost_boot : (s.onHost f).boot = s.boot := rfl
@[simp] theorem State.onHost_health : (s.onHost f).health = s.health := rfl
@[simp] theorem State.onHost_freeDraw : (s.onHost f).freeDraw = s.freeDraw := rfl
@[simp] theorem State.onHost_pending : (s.onHost f).pending = s.pending := rfl
end
section
variable (s : State) (f : Tbl Ns → Tbl Ns)
@[simp] theorem State.onNs_regs : (s.onNs f).regs = s.regs := rfl
@[simp] theorem State.onNs_sys : (s.onNs f).sys = s.sys := rfl
@[simp] theorem State.onNs_power : (s.onNs f).power = s.power := rfl
@[simp] theorem State.onNs_board : (s.onNs f).board = s.board := rfl
@[simp] theorem State.onNs_host : (s.onNs f).host = s.host := rfl
@[simp] theorem State.onNs_ns : (s.onNs f).ns = f s.ns := rfl
@[simp] theorem State.onNs_ftl : (s.onNs f).ftl = s.ftl := rfl
@[simp] theorem State.onNs_media : (s.onNs f).media = s.media := rfl
@[simp] theorem State.onNs_str : (s.onNs f).str = s.str := rfl
@[simp] theorem State.onNs_sea : (s.onNs f).sea = s.sea := rfl
@[simp] theorem State.onNs_dgs : (s.onNs f).dgs = s.dgs := rfl
@[simp] theorem State.onNs_lynx : (s.onNs f).lynx = s.lynx := rfl
@[simp] theorem State.onNs_dma : (s.onNs f).dma = s.dma := rfl
@[simp] theorem State.onNs_disp : (s.onNs f).disp = s.disp := rfl
@[simp] theorem State.onNs_hrt : (s.onNs f).hrt = s.hrt := rfl
@[simp] theorem State.onNs_memory : (s.onNs f).memory = s.memory := rfl
@[simp] theorem State.onNs_boot : (s.onNs f).boot = s.boot := rfl
@[simp] theorem State.onNs_health : (s.onNs f).health = s.health := rfl
@[simp] theorem State.onNs_freeDraw : (s.onNs f).freeDraw = s.freeDraw := rfl
@[simp] theorem State.onNs_pending : (s.onNs f).pending = s.pending := rfl
end
section
variable (s : State) (f : Ftl → Ftl)
@[simp] theorem State.onFtl_regs : (s.onFtl f).regs = s.regs := rfl
@[simp] theorem State.onFtl_sys : (s.onFtl f).sys = s.sys := rfl
@[simp] theorem State.onFtl_power : (s.onFtl f).power = s.power := rfl
@[simp] theorem State.onFtl_board : (s.onFtl f).board = s.board := rfl
@[simp] theorem State.onFtl_host : (s.onFtl f).host = s.host := rfl
@[simp] theorem State.onFtl_ns : (s.onFtl f).ns = s.ns := rfl
@[simp] theorem State.onFtl_ftl : (s.onFtl f).ftl = f s.ftl := rfl
@[simp] theorem State.onFtl_media : (s.onFtl f).media = s.media := rfl
@[simp] theorem State.onFtl_str : (s.onFtl f).str = s.str := rfl
@[simp] theorem State.onFtl_sea : (s.onFtl f).sea = s.sea := rfl
@[simp] theorem State.onFtl_dgs : (s.onFtl f).dgs = s.dgs := rfl
@[simp] theorem State.onFtl_lynx : (s.onFtl f).lynx = s.lynx := rfl
@[simp] theorem State.onFtl_dma : (s.onFtl f).dma = s.dma := rfl
@[simp] theorem State.onFtl_disp : (s.onFtl f).disp = s.disp := rfl
@[simp] theorem State.onFtl_hrt : (s.onFtl f).hrt = s.hrt := rfl
@[simp] theorem State.onFtl_memory : (s.onFtl f).memory = s.memory := rfl
@[simp] theorem State.onFtl_boot : (s.onFtl f).boot = s.boot := rfl
@[simp] theorem State.onFtl_health : (s.onFtl f).health = s.health := rfl
@[simp] theorem State.onFtl_freeDraw : (s.onFtl f).freeDraw = s.freeDraw := rfl
@[simp] theorem State.onFtl_pending : (s.onFtl f).pending = s.pending := rfl
end
section
variable (s : State) (f : Media → Media)
@[simp] theorem State.onMedia_regs : (s.onMedia f).regs = s.regs := rfl
@[simp] theorem State.onMedia_sys : (s.onMedia f).sys = s.sys := rfl
@[simp] theorem State.onMedia_power : (s.onMedia f).power = s.power := rfl
@[simp] theorem State.onMedia_board : (s.onMedia f).board = s.board := rfl
@[simp] theorem State.onMedia_host : (s.onMedia f).host = s.host := rfl
@[simp] theorem State.onMedia_ns : (s.onMedia f).ns = s.ns := rfl
@[simp] theorem State.onMedia_ftl : (s.onMedia f).ftl = s.ftl := rfl
@[simp] theorem State.onMedia_media : (s.onMedia f).media = f s.media := rfl
@[simp] theorem State.onMedia_str : (s.onMedia f).str = s.str := rfl
@[simp] theorem State.onMedia_sea : (s.onMedia f).sea = s.sea := rfl
@[simp] theorem State.onMedia_dgs : (s.onMedia f).dgs = s.dgs := rfl
@[simp] theorem State.onMedia_lynx : (s.onMedia f).lynx = s.lynx := rfl
@[simp] theorem State.onMedia_dma : (s.onMedia f).dma = s.dma := rfl
@[simp] theorem State.onMedia_disp : (s.onMedia f).disp = s.disp := rfl
@[simp] theorem State.onMedia_hrt : (s.onMedia f).hrt = s.hrt := rfl
@[simp] theorem State.onMedia_memory : (s.onMedia f).memory = s.memory := rfl
@[simp] theorem State.onMedia_boot : (s.onMedia f).boot = s.boot := rfl
@[simp] theorem State.onMedia_health : (s.onMedia f).health = s.health := rfl
@[simp] theorem State.onMedia_freeDraw : (s.onMedia f).freeDraw = s.freeDraw := rfl
@[simp] theorem State.onMedia_pending : (s.onMedia f).pending = s.pending := rfl
end
section
variable (s : State) (f : Str → Str)
@[simp] theorem State.onStr_regs : (s.onStr f).regs = s.regs := rfl
@[simp] theorem State.onStr_sys : (s.onStr f).sys = s.sys := rfl
@[simp] theorem State.onStr_power : (s.onStr f).power = s.power := rfl
@[simp] theorem State.onStr_board : (s.onStr f).board = s.board := rfl
@[simp] theorem State.onStr_host : (s.onStr f).host = s.host := rfl
@[simp] theorem State.onStr_ns : (s.onStr f).ns = s.ns := rfl
@[simp] theorem State.onStr_ftl : (s.onStr f).ftl = s.ftl := rfl
@[simp] theorem State.onStr_media : (s.onStr f).media = s.media := rfl
@[simp] theorem State.onStr_str : (s.onStr f).str = f s.str := rfl
@[simp] theorem State.onStr_sea : (s.onStr f).sea = s.sea := rfl
@[simp] theorem State.onStr_dgs : (s.onStr f).dgs = s.dgs := rfl
@[simp] theorem State.onStr_lynx : (s.onStr f).lynx = s.lynx := rfl
@[simp] theorem State.onStr_dma : (s.onStr f).dma = s.dma := rfl
@[simp] theorem State.onStr_disp : (s.onStr f).disp = s.disp := rfl
@[simp] theorem State.onStr_hrt : (s.onStr f).hrt = s.hrt := rfl
@[simp] theorem State.onStr_memory : (s.onStr f).memory = s.memory := rfl
@[simp] theorem State.onStr_boot : (s.onStr f).boot = s.boot := rfl
@[simp] theorem State.onStr_health : (s.onStr f).health = s.health := rfl
@[simp] theorem State.onStr_freeDraw : (s.onStr f).freeDraw = s.freeDraw := rfl
@[simp] theorem State.onStr_pending : (s.onStr f).pending = s.pending := rfl
end
section
variable (s : State) (f : Sea → Sea)
@[simp] theorem State.onSea_regs : (s.onSea f).regs = s.regs := rfl
@[simp] theorem State.onSea_sys : (s.onSea f).sys = s.sys := rfl
@[simp] theorem State.onSea_power : (s.onSea f).power = s.power := rfl
@[simp] theorem State.onSea_board : (s.onSea f).board = s.board := rfl
@[simp] theorem State.onSea_host : (s.onSea f).host = s.host := rfl
@[simp] theorem State.onSea_ns : (s.onSea f).ns = s.ns := rfl
@[simp] theorem State.onSea_ftl : (s.onSea f).ftl = s.ftl := rfl
@[simp] theorem State.onSea_media : (s.onSea f).media = s.media := rfl
@[simp] theorem State.onSea_str : (s.onSea f).str = s.str := rfl
@[simp] theorem State.onSea_sea : (s.onSea f).sea = f s.sea := rfl
@[simp] theorem State.onSea_dgs : (s.onSea f).dgs = s.dgs := rfl
@[simp] theorem State.onSea_lynx : (s.onSea f).lynx = s.lynx := rfl
@[simp] theorem State.onSea_dma : (s.onSea f).dma = s.dma := rfl
@[simp] theorem State.onSea_disp : (s.onSea f).disp = s.disp := rfl
@[simp] theorem State.onSea_hrt : (s.onSea f).hrt = s.hrt := rfl
@[simp] theorem State.onSea_memory : (s.onSea f).memory = s.memory := rfl
@[simp] theorem State.onSea_boot : (s.onSea f).boot = s.boot := rfl
@[simp] theorem State.onSea_health : (s.onSea f).health = s.health := rfl
@[simp] theorem State.onSea_freeDraw : (s.onSea f).freeDraw = s.freeDraw := rfl
@[simp] theorem State.onSea_pending : (s.onSea f).pending = s.pending := rfl
end
section
variable (s : State) (f : Dgs → Dgs)
@[simp] theorem State.onDgs_regs : (s.onDgs f).regs = s.regs := rfl
@[simp] theorem State.onDgs_sys : (s.onDgs f).sys = s.sys := rfl
@[simp] theorem State.onDgs_power : (s.onDgs f).power = s.power := rfl
@[simp] theorem State.onDgs_board : (s.onDgs f).board = s.board := rfl
@[simp] theorem State.onDgs_host : (s.onDgs f).host = s.host := rfl
@[simp] theorem State.onDgs_ns : (s.onDgs f).ns = s.ns := rfl
@[simp] theorem State.onDgs_ftl : (s.onDgs f).ftl = s.ftl := rfl
@[simp] theorem State.onDgs_media : (s.onDgs f).media = s.media := rfl
@[simp] theorem State.onDgs_str : (s.onDgs f).str = s.str := rfl
@[simp] theorem State.onDgs_sea : (s.onDgs f).sea = s.sea := rfl
@[simp] theorem State.onDgs_dgs : (s.onDgs f).dgs = f s.dgs := rfl
@[simp] theorem State.onDgs_lynx : (s.onDgs f).lynx = s.lynx := rfl
@[simp] theorem State.onDgs_dma : (s.onDgs f).dma = s.dma := rfl
@[simp] theorem State.onDgs_disp : (s.onDgs f).disp = s.disp := rfl
@[simp] theorem State.onDgs_hrt : (s.onDgs f).hrt = s.hrt := rfl
@[simp] theorem State.onDgs_memory : (s.onDgs f).memory = s.memory := rfl
@[simp] theorem State.onDgs_boot : (s.onDgs f).boot = s.boot := rfl
@[simp] theorem State.onDgs_health : (s.onDgs f).health = s.health := rfl
@[simp] theorem State.onDgs_freeDraw : (s.onDgs f).freeDraw = s.freeDraw := rfl
@[simp] theorem State.onDgs_pending : (s.onDgs f).pending = s.pending := rfl
end
section
variable (s : State) (f : Lynx → Lynx)
@[simp] theorem State.onLynx_regs : (s.onLynx f).regs = s.regs := rfl
@[simp] theorem State.onLynx_sys : (s.onLynx f).sys = s.sys := rfl
@[simp] theorem State.onLynx_power : (s.onLynx f).power = s.power := rfl
@[simp] theorem State.onLynx_board : (s.onLynx f).board = s.board := rfl
@[simp] theorem State.onLynx_host : (s.onLynx f).host = s.host := rfl
@[simp] theorem State.onLynx_ns : (s.onLynx f).ns = s.ns := rfl
@[simp] theorem State.onLynx_ftl : (s.onLynx f).ftl = s.ftl := rfl
@[simp] theorem State.onLynx_media : (s.onLynx f).media = s.media := rfl
@[simp] theorem State.onLynx_str : (s.onLynx f).str = s.str := rfl
@[simp] theorem State.onLynx_sea : (s.onLynx f).sea = s.sea := rfl
@[simp] theorem State.onLynx_dgs : (s.onLynx f).dgs = s.dgs := rfl
@[simp] theorem State.onLynx_lynx : (s.onLynx f).lynx = f s.lynx := rfl
@[simp] theorem State.onLynx_dma : (s.onLynx f).dma = s.dma := rfl
@[simp] theorem State.onLynx_disp : (s.onLynx f).disp = s.disp := rfl
@[simp] theorem State.onLynx_hrt : (s.onLynx f).hrt = s.hrt := rfl
@[simp] theorem State.onLynx_memory : (s.onLynx f).memory = s.memory := rfl
@[simp] theorem State.onLynx_boot : (s.onLynx f).boot = s.boot := rfl
@[simp] theorem State.onLynx_health : (s.onLynx f).health = s.health := rfl
@[simp] theorem State.onLynx_freeDraw : (s.onLynx f).freeDraw = s.freeDraw := rfl
@[simp] theorem State.onLynx_pending : (s.onLynx f).pending = s.pending := rfl
end
section
variable (s : State) (f : Tbl DmaChan → Tbl DmaChan)
@[simp] theorem State.onDma_regs : (s.onDma f).regs = s.regs := rfl
@[simp] theorem State.onDma_sys : (s.onDma f).sys = s.sys := rfl
@[simp] theorem State.onDma_power : (s.onDma f).power = s.power := rfl
@[simp] theorem State.onDma_board : (s.onDma f).board = s.board := rfl
@[simp] theorem State.onDma_host : (s.onDma f).host = s.host := rfl
@[simp] theorem State.onDma_ns : (s.onDma f).ns = s.ns := rfl
@[simp] theorem State.onDma_ftl : (s.onDma f).ftl = s.ftl := rfl
@[simp] theorem State.onDma_media : (s.onDma f).media = s.media := rfl
@[simp] theorem State.onDma_str : (s.onDma f).str = s.str := rfl
@[simp] theorem State.onDma_sea : (s.onDma f).sea = s.sea := rfl
@[simp] theorem State.onDma_dgs : (s.onDma f).dgs = s.dgs := rfl
@[simp] theorem State.onDma_lynx : (s.onDma f).lynx = s.lynx := rfl
@[simp] theorem State.onDma_dma : (s.onDma f).dma = f s.dma := rfl
@[simp] theorem State.onDma_disp : (s.onDma f).disp = s.disp := rfl
@[simp] theorem State.onDma_hrt : (s.onDma f).hrt = s.hrt := rfl
@[simp] theorem State.onDma_memory : (s.onDma f).memory = s.memory := rfl
@[simp] theorem State.onDma_boot : (s.onDma f).boot = s.boot := rfl
@[simp] theorem State.onDma_health : (s.onDma f).health = s.health := rfl
@[simp] theorem State.onDma_freeDraw : (s.onDma f).freeDraw = s.freeDraw := rfl
@[simp] theorem State.onDma_pending : (s.onDma f).pending = s.pending := rfl
end
section
variable (s : State) (f : Disp → Disp)
@[simp] theorem State.onDisp_regs : (s.onDisp f).regs = s.regs := rfl
@[simp] theorem State.onDisp_sys : (s.onDisp f).sys = s.sys := rfl
@[simp] theorem State.onDisp_power : (s.onDisp f).power = s.power := rfl
@[simp] theorem State.onDisp_board : (s.onDisp f).board = s.board := rfl
@[simp] theorem State.onDisp_host : (s.onDisp f).host = s.host := rfl
@[simp] theorem State.onDisp_ns : (s.onDisp f).ns = s.ns := rfl
@[simp] theorem State.onDisp_ftl : (s.onDisp f).ftl = s.ftl := rfl
@[simp] theorem State.onDisp_media : (s.onDisp f).media = s.media := rfl
@[simp] theorem State.onDisp_str : (s.onDisp f).str = s.str := rfl
@[simp] theorem State.onDisp_sea : (s.onDisp f).sea = s.sea := rfl
@[simp] theorem State.onDisp_dgs : (s.onDisp f).dgs = s.dgs := rfl
@[simp] theorem State.onDisp_lynx : (s.onDisp f).lynx = s.lynx := rfl
@[simp] theorem State.onDisp_dma : (s.onDisp f).dma = s.dma := rfl
@[simp] theorem State.onDisp_disp : (s.onDisp f).disp = f s.disp := rfl
@[simp] theorem State.onDisp_hrt : (s.onDisp f).hrt = s.hrt := rfl
@[simp] theorem State.onDisp_memory : (s.onDisp f).memory = s.memory := rfl
@[simp] theorem State.onDisp_boot : (s.onDisp f).boot = s.boot := rfl
@[simp] theorem State.onDisp_health : (s.onDisp f).health = s.health := rfl
@[simp] theorem State.onDisp_freeDraw : (s.onDisp f).freeDraw = s.freeDraw := rfl
@[simp] theorem State.onDisp_pending : (s.onDisp f).pending = s.pending := rfl
end
section
variable (s : State) (f : Hrt → Hrt)
@[simp] theorem State.onHrt_regs : (s.onHrt f).regs = s.regs := rfl
@[simp] theorem State.onHrt_sys : (s.onHrt f).sys = s.sys := rfl
@[simp] theorem State.onHrt_power : (s.onHrt f).power = s.power := rfl
@[simp] theorem State.onHrt_board : (s.onHrt f).board = s.board := rfl
@[simp] theorem State.onHrt_host : (s.onHrt f).host = s.host := rfl
@[simp] theorem State.onHrt_ns : (s.onHrt f).ns = s.ns := rfl
@[simp] theorem State.onHrt_ftl : (s.onHrt f).ftl = s.ftl := rfl
@[simp] theorem State.onHrt_media : (s.onHrt f).media = s.media := rfl
@[simp] theorem State.onHrt_str : (s.onHrt f).str = s.str := rfl
@[simp] theorem State.onHrt_sea : (s.onHrt f).sea = s.sea := rfl
@[simp] theorem State.onHrt_dgs : (s.onHrt f).dgs = s.dgs := rfl
@[simp] theorem State.onHrt_lynx : (s.onHrt f).lynx = s.lynx := rfl
@[simp] theorem State.onHrt_dma : (s.onHrt f).dma = s.dma := rfl
@[simp] theorem State.onHrt_disp : (s.onHrt f).disp = s.disp := rfl
@[simp] theorem State.onHrt_hrt : (s.onHrt f).hrt = f s.hrt := rfl
@[simp] theorem State.onHrt_memory : (s.onHrt f).memory = s.memory := rfl
@[simp] theorem State.onHrt_boot : (s.onHrt f).boot = s.boot := rfl
@[simp] theorem State.onHrt_health : (s.onHrt f).health = s.health := rfl
@[simp] theorem State.onHrt_freeDraw : (s.onHrt f).freeDraw = s.freeDraw := rfl
@[simp] theorem State.onHrt_pending : (s.onHrt f).pending = s.pending := rfl
end
section
variable (s : State) (f : MemSide → MemSide)
@[simp] theorem State.onMem_regs : (s.onMem f).regs = s.regs := rfl
@[simp] theorem State.onMem_sys : (s.onMem f).sys = s.sys := rfl
@[simp] theorem State.onMem_power : (s.onMem f).power = s.power := rfl
@[simp] theorem State.onMem_board : (s.onMem f).board = s.board := rfl
@[simp] theorem State.onMem_host : (s.onMem f).host = s.host := rfl
@[simp] theorem State.onMem_ns : (s.onMem f).ns = s.ns := rfl
@[simp] theorem State.onMem_ftl : (s.onMem f).ftl = s.ftl := rfl
@[simp] theorem State.onMem_media : (s.onMem f).media = s.media := rfl
@[simp] theorem State.onMem_str : (s.onMem f).str = s.str := rfl
@[simp] theorem State.onMem_sea : (s.onMem f).sea = s.sea := rfl
@[simp] theorem State.onMem_dgs : (s.onMem f).dgs = s.dgs := rfl
@[simp] theorem State.onMem_lynx : (s.onMem f).lynx = s.lynx := rfl
@[simp] theorem State.onMem_dma : (s.onMem f).dma = s.dma := rfl
@[simp] theorem State.onMem_disp : (s.onMem f).disp = s.disp := rfl
@[simp] theorem State.onMem_hrt : (s.onMem f).hrt = s.hrt := rfl
@[simp] theorem State.onMem_memory : (s.onMem f).memory = f s.memory := rfl
@[simp] theorem State.onMem_boot : (s.onMem f).boot = s.boot := rfl
@[simp] theorem State.onMem_health : (s.onMem f).health = s.health := rfl
@[simp] theorem State.onMem_freeDraw : (s.onMem f).freeDraw = s.freeDraw := rfl
@[simp] theorem State.onMem_pending : (s.onMem f).pending = s.pending := rfl
end
section
variable (s : State) (f : Boot → Boot)
@[simp] theorem State.onBoot_regs : (s.onBoot f).regs = s.regs := rfl
@[simp] theorem State.onBoot_sys : (s.onBoot f).sys = s.sys := rfl
@[simp] theorem State.onBoot_power : (s.onBoot f).power = s.power := rfl
@[simp] theorem State.onBoot_board : (s.onBoot f).board = s.board := rfl
@[simp] theorem State.onBoot_host : (s.onBoot f).host = s.host := rfl
@[simp] theorem State.onBoot_ns : (s.onBoot f).ns = s.ns := rfl
@[simp] theorem State.onBoot_ftl : (s.onBoot f).ftl = s.ftl := rfl
@[simp] theorem State.onBoot_media : (s.onBoot f).media = s.media := rfl
@[simp] theorem State.onBoot_str : (s.onBoot f).str = s.str := rfl
@[simp] theorem State.onBoot_sea : (s.onBoot f).sea = s.sea := rfl
@[simp] theorem State.onBoot_dgs : (s.onBoot f).dgs = s.dgs := rfl
@[simp] theorem State.onBoot_lynx : (s.onBoot f).lynx = s.lynx := rfl
@[simp] theorem State.onBoot_dma : (s.onBoot f).dma = s.dma := rfl
@[simp] theorem State.onBoot_disp : (s.onBoot f).disp = s.disp := rfl
@[simp] theorem State.onBoot_hrt : (s.onBoot f).hrt = s.hrt := rfl
@[simp] theorem State.onBoot_memory : (s.onBoot f).memory = s.memory := rfl
@[simp] theorem State.onBoot_boot : (s.onBoot f).boot = f s.boot := rfl
@[simp] theorem State.onBoot_health : (s.onBoot f).health = s.health := rfl
@[simp] theorem State.onBoot_freeDraw : (s.onBoot f).freeDraw = s.freeDraw := rfl
@[simp] theorem State.onBoot_pending : (s.onBoot f).pending = s.pending := rfl
end
section
variable (s : State) (f : Health → Health)
@[simp] theorem State.onHealth_regs : (s.onHealth f).regs = s.regs := rfl
@[simp] theorem State.onHealth_sys : (s.onHealth f).sys = s.sys := rfl
@[simp] theorem State.onHealth_power : (s.onHealth f).power = s.power := rfl
@[simp] theorem State.onHealth_board : (s.onHealth f).board = s.board := rfl
@[simp] theorem State.onHealth_host : (s.onHealth f).host = s.host := rfl
@[simp] theorem State.onHealth_ns : (s.onHealth f).ns = s.ns := rfl
@[simp] theorem State.onHealth_ftl : (s.onHealth f).ftl = s.ftl := rfl
@[simp] theorem State.onHealth_media : (s.onHealth f).media = s.media := rfl
@[simp] theorem State.onHealth_str : (s.onHealth f).str = s.str := rfl
@[simp] theorem State.onHealth_sea : (s.onHealth f).sea = s.sea := rfl
@[simp] theorem State.onHealth_dgs : (s.onHealth f).dgs = s.dgs := rfl
@[simp] theorem State.onHealth_lynx : (s.onHealth f).lynx = s.lynx := rfl
@[simp] theorem State.onHealth_dma : (s.onHealth f).dma = s.dma := rfl
@[simp] theorem State.onHealth_disp : (s.onHealth f).disp = s.disp := rfl
@[simp] theorem State.onHealth_hrt : (s.onHealth f).hrt = s.hrt := rfl
@[simp] theorem State.onHealth_memory : (s.onHealth f).memory = s.memory := rfl
@[simp] theorem State.onHealth_boot : (s.onHealth f).boot = s.boot := rfl
@[simp] theorem State.onHealth_health : (s.onHealth f).health = f s.health := rfl
@[simp] theorem State.onHealth_freeDraw : (s.onHealth f).freeDraw = s.freeDraw := rfl
@[simp] theorem State.onHealth_pending : (s.onHealth f).pending = s.pending := rfl
end
@[simp] theorem State.draw_regs (s : State) : s.draw.regs = s.regs := rfl
@[simp] theorem State.draw_sys (s : State) : s.draw.sys = s.sys := rfl
@[simp] theorem State.draw_power (s : State) : s.draw.power = s.power := rfl
@[simp] theorem State.draw_board (s : State) : s.draw.board = s.board := rfl
@[simp] theorem State.draw_host (s : State) : s.draw.host = s.host := rfl
@[simp] theorem State.draw_ns (s : State) : s.draw.ns = s.ns := rfl
@[simp] theorem State.draw_ftl (s : State) : s.draw.ftl = s.ftl := rfl
@[simp] theorem State.draw_media (s : State) : s.draw.media = s.media := rfl
@[simp] theorem State.draw_str (s : State) : s.draw.str = s.str := rfl
@[simp] theorem State.draw_sea (s : State) : s.draw.sea = s.sea := rfl
@[simp] theorem State.draw_dgs (s : State) : s.draw.dgs = s.dgs := rfl
@[simp] theorem State.draw_lynx (s : State) : s.draw.lynx = s.lynx := rfl
@[simp] theorem State.draw_dma (s : State) : s.draw.dma = s.dma := rfl
@[simp] theorem State.draw_disp (s : State) : s.draw.disp = s.disp := rfl
@[simp] theorem State.draw_hrt (s : State) : s.draw.hrt = s.hrt := rfl
@[simp] theorem State.draw_memory (s : State) : s.draw.memory = s.memory := rfl
@[simp] theorem State.draw_boot (s : State) : s.draw.boot = s.boot := rfl
@[simp] theorem State.draw_health (s : State) : s.draw.health = s.health := rfl
@[simp] theorem State.draw_freeDraw (s : State) : s.draw.freeDraw = s.freeDraw + 1 := rfl
@[simp] theorem State.draw_pending (s : State) : s.draw.pending = s.pending := rfl

end Sys2Proof.Machine
end

