-- ==== Sys2Proof/Laws/Frame.lean ====
section
/-! SUPPORT. What each operation may change, once for all: `X_blank` says that an operation changes nothing but the parts it
lists. `only_of_blank` turns such an equation into `OnlyChanges`. This file: the operations of Machine/Ops.lean. -/

namespace Sys2Proof.Machine

/-- The state with some parts put back to reset: two states are the same outside those parts when their blanks are equal. -/
def State.blank (ps : List Part) (s : State) : State :=
  { regs := if .regs ∈ ps then Regs.reset else s.regs
    sys := if .sys ∈ ps then Sys.reset else s.sys
    power := if .power ∈ ps then Power.reset else s.power
    board := if .board ∈ ps then Board.reset else s.board
    host := if .host ∈ ps then HostSide.reset else s.host
    ns := if .ns ∈ ps then [] else s.ns
    ftl := if .ftl ∈ ps then Ftl.reset else s.ftl
    media := if .media ∈ ps then Media.reset else s.media
    str := if .str ∈ ps then Str.reset else s.str
    sea := if .sea ∈ ps then Sea.reset else s.sea
    dgs := if .dgs ∈ ps then Dgs.reset else s.dgs
    lynx := if .lynx ∈ ps then Lynx.reset else s.lynx
    dma := if .dma ∈ ps then [] else s.dma
    disp := if .disp ∈ ps then Disp.reset else s.disp
    hrt := if .hrt ∈ ps then Hrt.reset else s.hrt
    memory := if .memory ∈ ps then MemSide.reset else s.memory
    boot := if .boot ∈ ps then
        { Boot.reset with
          image := if .firmware ∈ ps then none else s.boot.image
          fuseSvn := if .firmware ∈ ps then 0 else s.boot.fuseSvn
          revoked := if .firmware ∈ ps then 0 else s.boot.revoked }
      else s.boot
    health := if .health ∈ ps then Health.reset else s.health
    freeDraw := if .free ∈ ps then 0 else s.freeDraw
    pending := if .queue ∈ ps then [] else s.pending }

/-- Equal blanks: only those parts differ. -/
theorem only_of_blank {ps : List Part} {s t : State} (h : t.blank ps = s.blank ps) : OnlyChanges ps s t := by
  intro p hp
  cases p
  case firmware =>
    have e := congrArg State.boot h
    by_cases hb : Part.boot ∈ ps
    · simpa [State.blank, Part.same, hp, hb] using e
    · have e : t.boot = s.boot := by simpa [State.blank, hb] using e
      simp [Part.same, e]
  case free => simpa [State.blank, Part.same, hp] using congrArg State.freeDraw h
  case queue => simpa [State.blank, Part.same, hp] using congrArg State.pending h
  case regs => simpa [State.blank, Part.same, hp] using congrArg State.regs h
  case sys => simpa [State.blank, Part.same, hp] using congrArg State.sys h
  case power => simpa [State.blank, Part.same, hp] using congrArg State.power h
  case board => simpa [State.blank, Part.same, hp] using congrArg State.board h
  case host => simpa [State.blank, Part.same, hp] using congrArg State.host h
  case ns => simpa [State.blank, Part.same, hp] using congrArg State.ns h
  case ftl => simpa [State.blank, Part.same, hp] using congrArg State.ftl h
  case media => simpa [State.blank, Part.same, hp] using congrArg State.media h
  case str => simpa [State.blank, Part.same, hp] using congrArg State.str h
  case sea => simpa [State.blank, Part.same, hp] using congrArg State.sea h
  case dgs => simpa [State.blank, Part.same, hp] using congrArg State.dgs h
  case lynx => simpa [State.blank, Part.same, hp] using congrArg State.lynx h
  case dma => simpa [State.blank, Part.same, hp] using congrArg State.dma h
  case disp => simpa [State.blank, Part.same, hp] using congrArg State.disp h
  case hrt => simpa [State.blank, Part.same, hp] using congrArg State.hrt h
  case memory => simpa [State.blank, Part.same, hp] using congrArg State.memory h
  case boot => simpa [State.blank, Part.same, hp] using congrArg State.boot h
  case health => simpa [State.blank, Part.same, hp] using congrArg State.health h

section
variable {ps : List Part}
@[simp ↓] theorem blank_foldl {α : Type} (g : State → α → State) (h : ∀ s x, (g s x).blank ps = s.blank ps) (l : List α) (s : State) :
    (l.foldl g s).blank ps = s.blank ps := by
  induction l generalizing s with
  | nil => rfl
  | cons x l ih => simp [ih, h]
@[simp ↓] theorem blank_foldl_p {α β : Type} (g : State × β → α → State × β) (h : ∀ a x, (g a x).1.blank ps = a.1.blank ps) (l : List α)
    (a : State × β) : (l.foldl g a).1.blank ps = a.1.blank ps := by
  induction l generalizing a with
  | nil => rfl
  | cons x l ih => simp [ih, h]
theorem blank_fst {β : Type} {s t : State} {p : State × β} {b : β} (h : p = (t, b)) (k : p.1.blank ps = s.blank ps) :
    t.blank ps = s.blank ps := by rw [h] at k; exact k
theorem blank_snd {β : Type} {s t : State} {p : β × State} {b : β} (h : p = (b, t)) (k : p.2.blank ps = s.blank ps) :
    t.blank ps = s.blank ps := by rw [h] at k; exact k
theorem blank_some {β : Type} {s t : State} {o : Option (State × β)} {b : β} (h : o = some (t, b))
    (k : ∀ r, o = some r → r.1.blank ps = s.blank ps) : t.blank ps = s.blank ps := k _ h
@[simp ↓] theorem blank_ite {c : Prop} [Decidable c] (a b : State) : (if c then a else b).blank ps = if c then a.blank ps else b.blank ps := by
  split <;> rfl
theorem blank_of_ite {c : Prop} [Decidable c] {a b s : State} (ha : a.blank ps = s.blank ps) (hb : b.blank ps = s.blank ps) :
    (if c then a else b).blank ps = s.blank ps := by split <;> assumption
@[simp ↓] theorem blank_iterate (g : Nat → State → State) (h : ∀ n s, (g n s).blank ps = s.blank ps) (n : Nat) (s : State) :
    (iterate g n s).blank ps = s.blank ps := by
  induction n generalizing s with
  | zero => rfl
  | succ n ih => simp [iterate, ih, h]
end
@[simp] theorem Boot.select_image (b : Boot) (g : Selector → Selector) : (b.select g).image = b.image := rfl
@[simp] theorem Boot.select_fuseSvn (b : Boot) (g : Selector → Selector) : (b.select g).fuseSvn = b.fuseSvn := rfl
@[simp] theorem Boot.select_revoked (b : Boot) (g : Selector → Selector) : (b.select g).revoked = b.revoked := rfl
@[simp] theorem Boot.setSlot_image (b : Boot) (slot : Nat) (i : Option FwImage) : (b.setSlot slot i).image = b.image := by unfold Boot.setSlot; split <;> rfl
@[simp] theorem Boot.setSlot_fuseSvn (b : Boot) (slot : Nat) (i : Option FwImage) : (b.setSlot slot i).fuseSvn = b.fuseSvn := by unfold Boot.setSlot; split <;> rfl
@[simp] theorem Boot.setSlot_revoked (b : Boot) (slot : Nat) (i : Option FwImage) : (b.setSlot slot i).revoked = b.revoked := by unfold Boot.setSlot; split <;> rfl


section
set_option Elab.async false
set_option linter.unusedTactic false
set_option linter.unreachableTactic false
set_option linter.unusedSimpArgs false

@[simp ↓] theorem State.onRegs_blank {ps : List Part} (s : State) (f : Regs → Regs) (hc : [Part.regs] ⊆ ps) : (s.onRegs f).blank ps = s.blank ps := by
  simp only [List.cons_subset] at hc; simp [State.blank, State.onRegs, *]
@[simp ↓] theorem State.onSys_blank {ps : List Part} (s : State) (f : Sys → Sys) (hc : [Part.sys] ⊆ ps) : (s.onSys f).blank ps = s.blank ps := by
  simp only [List.cons_subset] at hc; simp [State.blank, State.onSys, *]
@[simp ↓] theorem State.onPower_blank {ps : List Part} (s : State) (f : Power → Power) (hc : [Part.power] ⊆ ps) : (s.onPower f).blank ps = s.blank ps := by
  simp only [List.cons_subset] at hc; simp [State.blank, State.onPower, *]
@[simp ↓] theorem State.onHost_blank {ps : List Part} (s : State) (f : HostSide → HostSide) (hc : [Part.host] ⊆ ps) : (s.onHost f).blank ps = s.blank ps := by
  simp only [List.cons_subset] at hc; simp [State.blank, State.onHost, *]
@[simp ↓] theorem State.onNs_blank {ps : List Part} (s : State) (f : Tbl Ns → Tbl Ns) (hc : [Part.ns] ⊆ ps) : (s.onNs f).blank ps = s.blank ps := by
  simp only [List.cons_subset] at hc; simp [State.blank, State.onNs, *]
@[simp ↓] theorem State.onFtl_blank {ps : List Part} (s : State) (f : Ftl → Ftl) (hc : [Part.ftl] ⊆ ps) : (s.onFtl f).blank ps = s.blank ps := by
  simp only [List.cons_subset] at hc; simp [State.blank, State.onFtl, *]
@[simp ↓] theorem State.onMedia_blank {ps : List Part} (s : State) (f : Media → Media) (hc : [Part.media] ⊆ ps) : (s.onMedia f).blank ps = s.blank ps := by
  simp only [List.cons_subset] at hc; simp [State.blank, State.onMedia, *]
@[simp ↓] theorem State.onStr_blank {ps : List Part} (s : State) (f : Str → Str) (hc : [Part.str] ⊆ ps) : (s.onStr f).blank ps = s.blank ps := by
  simp only [List.cons_subset] at hc; simp [State.blank, State.onStr, *]
@[simp ↓] theorem State.onSea_blank {ps : List Part} (s : State) (f : Sea → Sea) (hc : [Part.sea] ⊆ ps) : (s.onSea f).blank ps = s.blank ps := by
  simp only [List.cons_subset] at hc; simp [State.blank, State.onSea, *]
@[simp ↓] theorem State.onDgs_blank {ps : List Part} (s : State) (f : Dgs → Dgs) (hc : [Part.dgs] ⊆ ps) : (s.onDgs f).blank ps = s.blank ps := by
  simp only [List.cons_subset] at hc; simp [State.blank, State.onDgs, *]
@[simp ↓] theorem State.onLynx_blank {ps : List Part} (s : State) (f : Lynx → Lynx) (hc : [Part.lynx] ⊆ ps) : (s.onLynx f).blank ps = s.blank ps := by
  simp only [List.cons_subset] at hc; simp [State.blank, State.onLynx, *]
@[simp ↓] theorem State.onDma_blank {ps : List Part} (s : State) (f : Tbl DmaChan → Tbl DmaChan) (hc : [Part.dma] ⊆ ps) : (s.onDma f).blank ps = s.blank ps := by
  simp only [List.cons_subset] at hc; simp [State.blank, State.onDma, *]
@[simp ↓] theorem State.onDisp_blank {ps : List Part} (s : State) (f : Disp → Disp) (hc : [Part.disp] ⊆ ps) : (s.onDisp f).blank ps = s.blank ps := by
  simp only [List.cons_subset] at hc; simp [State.blank, State.onDisp, *]
@[simp ↓] theorem State.onHrt_blank {ps : List Part} (s : State) (f : Hrt → Hrt) (hc : [Part.hrt] ⊆ ps) : (s.onHrt f).blank ps = s.blank ps := by
  simp only [List.cons_subset] at hc; simp [State.blank, State.onHrt, *]
@[simp ↓] theorem State.onMem_blank {ps : List Part} (s : State) (f : MemSide → MemSide) (hc : [Part.memory] ⊆ ps) : (s.onMem f).blank ps = s.blank ps := by
  simp only [List.cons_subset] at hc; simp [State.blank, State.onMem, *]
@[simp ↓] theorem State.onBoot_blank {ps : List Part} (s : State) (f : Boot → Boot) (h : [Part.boot] ⊆ ps) (h1 : (f s.boot).image = s.boot.image)
    (h2 : (f s.boot).fuseSvn = s.boot.fuseSvn) (h3 : (f s.boot).revoked = s.boot.revoked) : (s.onBoot f).blank ps = s.blank ps := by
  simp only [List.cons_subset] at h; simp [State.blank, State.onBoot, *]
@[simp ↓] theorem State.onBoot_blank_firmware {ps : List Part} (s : State) (f : Boot → Boot) (h : [Part.boot, .firmware] ⊆ ps) : (s.onBoot f).blank ps = s.blank ps := by
  simp only [List.cons_subset] at h; simp [State.blank, State.onBoot, *]

@[simp ↓] theorem State.onHealth_blank {ps : List Part} (s : State) (f : Health → Health) (hc : [Part.health] ⊆ ps) : (s.onHealth f).blank ps = s.blank ps := by
  simp only [List.cons_subset] at hc; simp [State.blank, State.onHealth, *]
@[simp ↓] theorem State.draw_blank {ps : List Part} (s : State) (hc : [Part.free] ⊆ ps) : s.draw.blank ps = s.blank ps := by
  simp only [List.cons_subset] at hc; simp [State.blank, State.draw, *]
@[simp ↓] theorem State.setReg_blank {ps : List Part} (s : State) (off : Nat) (v : W32) (hc : [Part.regs] ⊆ ps) : (s.setReg off v).blank ps = s.blank ps := by
  simp only [List.cons_subset] at hc; unfold State.setReg; simp [*]
@[simp ↓] theorem State.setBits_blank {ps : List Part} (s : State) (off : Nat) (m v : W32) (hc : [Part.regs] ⊆ ps) : (s.setBits off m v).blank ps = s.blank ps := by
  simp only [List.cons_subset] at hc; unfold State.setBits; simp [*]
@[simp ↓] theorem State.addCnt_blank {ps : List Part} (s : State) (off n : Nat) (hc : [Part.regs] ⊆ ps) : (s.addCnt off n).blank ps = s.blank ps := by
  simp only [List.cons_subset] at hc; unfold State.addCnt; simp [*]
@[simp ↓] theorem State.addReg_blank {ps : List Part} (s : State) (off n : Nat) (hc : [Part.regs] ⊆ ps) : (s.addReg off n).blank ps = s.blank ps := by
  simp only [List.cons_subset] at hc; unfold State.addReg; simp [*]
@[simp ↓] theorem State.bumpGen_blank {ps : List Part} (s : State) (page : Nat) (hc : [Part.health] ⊆ ps) : (s.bumpGen page).blank ps = s.blank ps := by
  simp only [List.cons_subset] at hc; unfold State.bumpGen; simp [*]
@[simp ↓] theorem State.addLife_blank {ps : List Part} (s : State) (key n : Nat) (hc : [Part.health] ⊆ ps) : (s.addLife key n).blank ps = s.blank ps := by
  simp only [List.cons_subset] at hc; unfold State.addLife; simp [*]
@[simp ↓] theorem State.logEvent_blank {ps : List Part} (s : State) (type sub fn : Nat) (d0 : W32) (d1 : Nat) (hc : [Part.health] ⊆ ps) : (s.logEvent type sub fn d0 d1).blank ps = s.blank ps := by
  simp only [List.cons_subset] at hc; unfold State.logEvent; simp [*]
@[simp ↓] theorem State.beginLife_blank {ps : List Part} (s : State) (hc : [Part.health] ⊆ ps) : s.beginLife.blank ps = s.blank ps := by
  simp only [List.cons_subset] at hc; unfold State.beginLife; simp [*]
@[simp ↓] theorem State.setCtrl_blank {ps : List Part} (s : State) (f : Fn) (c : Ctrl) (hc : [Part.host] ⊆ ps) : (s.setCtrl f c).blank ps = s.blank ps := by
  simp only [List.cons_subset] at hc; unfold State.setCtrl; simp [*]
@[simp ↓] theorem State.onCtrl_blank {ps : List Part} (s : State) (f : Fn) (g : Ctrl → Ctrl) (hc : [Part.host] ⊆ ps) : (s.onCtrl f g).blank ps = s.blank ps := by
  simp only [List.cons_subset] at hc; unfold State.onCtrl; simp [*]
@[simp ↓] theorem State.onPort_blank {ps : List Part} (s : State) (p : Port) (g : PortState → PortState) (hc : [Part.host] ⊆ ps) : (s.onPort p g).blank ps = s.blank ps := by
  simp only [List.cons_subset] at hc; unfold State.onPort; simp [*]
@[simp ↓] theorem State.slmWrite_blank {ps : List Part} (s : State) (range off : Nat) (bs : List Byte) (hc : [Part.ns] ⊆ ps) : (s.slmWrite range off bs).blank ps = s.blank ps := by
  simp only [List.cons_subset] at hc; unfold State.slmWrite; simp [*]
@[simp ↓] theorem State.post_blank {ps : List Part} (s : State) (p : Port) (o : Out) (hc : [Part.host] ⊆ ps) : (s.post p o).blank ps = s.blank ps := by
  simp only [List.cons_subset] at hc; unfold State.post; simp [*]
@[simp ↓] theorem State.msix_blank {ps : List Part} (s : State) (f : Fn) (v : Nat) (hc : [Part.host] ⊆ ps) : (s.msix f v).blank ps = s.blank ps := by
  simp only [List.cons_subset] at hc; unfold State.msix; simp [*]
@[simp ↓] theorem State.answer_blank {ps : List Part} (s : State) (transport : Nat) (a : SbAnswer) (hc : [Part.host] ⊆ ps) : (s.answer transport a).blank ps = s.blank ps := by
  simp only [List.cons_subset] at hc; unfold State.answer; simp [*]
@[simp ↓] theorem State.addLatency_blank {ps : List Part} (s : State) (cls ticks : Nat) (hc : [Part.health] ⊆ ps) : (s.addLatency cls ticks).blank ps = s.blank ps := by
  simp only [List.cons_subset] at hc; unfold State.addLatency; simp [*]
@[simp ↓] theorem State.logError_blank {ps : List Part} (s : State) (w : Who) (st : Status) (hc : [Part.host, .health] ⊆ ps) : (s.logError w st).blank ps = s.blank ps := by
  simp only [List.cons_subset] at hc; unfold State.logError; simp [*]
@[simp ↓] theorem State.asClass_blank {ps : List Part} (s : State) (w : Who) (cls : Nat) (hc : [Part.host] ⊆ ps) : (s.asClass w cls).blank ps = s.blank ps := by
  simp only [List.cons_subset] at hc; unfold State.asClass; simp [*]
@[simp ↓] theorem State.countCmd_blank {ps : List Part} (s : State) (w : Who) (hc : [Part.health] ⊆ ps) : (s.countCmd w).blank ps = s.blank ps := by
  simp only [List.cons_subset] at hc; unfold State.countCmd; (repeat' split) <;> simp [*]
@[simp ↓] theorem State.retireCmd_blank {ps : List Part} (s : State) (w : Who) (hc : [Part.host] ⊆ ps) : (s.retireCmd w).blank ps = s.blank ps := by
  simp only [List.cons_subset] at hc; unfold State.retireCmd; simp [*]
@[simp ↓] theorem State.complete_blank {ps : List Part} (s : State) (w : Who) (st : Status) (dw0 dw1 : W32) (hc : [Part.host, .health] ⊆ ps) : (s.complete w st dw0 dw1).blank ps = s.blank ps := by
  simp only [List.cons_subset] at hc; unfold State.complete; simp [*]
@[simp ↓] theorem State.admin_blank {ps : List Part} (s : State) (w : Who) (st : Status) (dw0 : W32) (hc : [Part.host, .health] ⊆ ps) : (s.admin w st dw0).blank ps = s.blank ps := by
  simp only [List.cons_subset] at hc; unfold State.admin; simp [*]
@[simp ↓] theorem State.admin2_blank {ps : List Part} (s : State) (w : Who) (st : Status) (dw0 dw1 : W32) (hc : [Part.host, .health] ⊆ ps) : (s.admin2 w st dw0 dw1).blank ps = s.blank ps := by
  simp only [List.cons_subset] at hc; unfold State.admin2; simp [*]
@[simp ↓] theorem State.io_blank {ps : List Part} (s : State) (w : Who) (st : Status) (dw0 : W32) (hc : [Part.host, .health] ⊆ ps) : (s.io w st dw0).blank ps = s.blank ps := by
  simp only [List.cons_subset] at hc; unfold State.io; simp [*]
@[simp ↓] theorem State.dataOut_blank {ps : List Part} (s : State) (w : Who) (bytes : List Byte) (hc : [Part.host] ⊆ ps) : (s.dataOut w bytes).blank ps = s.blank ps := by
  simp only [List.cons_subset] at hc; unfold State.dataOut; simp [*]
@[simp ↓] theorem State.raiseEvent_blank {ps : List Part} (s : State) (f : Fn) (e : Aen) (hc : [Part.host, .health] ⊆ ps) : (s.raiseEvent f e).blank ps = s.blank ps := by
  simp only [List.cons_subset] at hc; unfold State.raiseEvent
  (repeat' (first | (with_reducible rfl) | assumption | (simp [*]; done) | (with_reducible refine (blank_foldl _ (fun _ _ => ?_) _ _).trans ?_) | (with_reducible refine (blank_iterate _ (fun _ _ => ?_) _ _).trans ?_) | (with_reducible refine (blank_foldl_p _ (fun _ _ => ?_) _ _).trans ?_) | (with_reducible refine blank_fst (by assumption) ?_) | (with_reducible refine blank_snd (by assumption) ?_) | (with_reducible refine blank_some (by assumption) ?_) | split | (simp only [blank_ite]) | (simp [*, -List.foldl_append, -Option.foldl_toList])))
@[simp ↓] theorem State.raiseManagers_blank {ps : List Part} (s : State) (e : Aen) (hc : [Part.host, .health] ⊆ ps) : (s.raiseManagers e).blank ps = s.blank ps := by
  simp only [List.cons_subset] at hc; unfold State.raiseManagers; simp [*]
@[simp ↓] theorem State.sysBegin_blank {ps : List Part} (s : State) (w : SysWrite) (hc : [Part.media] ⊆ ps) : (s.sysBegin w).blank ps = s.blank ps := by
  simp only [List.cons_subset] at hc; unfold State.sysBegin; simp [*]
@[simp ↓] theorem State.areaWrite_blank {ps : List Part} (s : State) (area : Nat) (hc : [Part.media] ⊆ ps) : (s.areaWrite area).blank ps = s.blank ps := by
  simp only [List.cons_subset] at hc; unfold State.areaWrite; simp [*]
@[simp ↓] theorem State.areaTorn_blank {ps : List Part} (s : State) (area : Nat) (hc : [Part.media, .free] ⊆ ps) : (s.areaTorn area).1.blank ps = s.blank ps := by
  simp only [List.cons_subset] at hc; unfold State.areaTorn; simp [*]
@[simp ↓] theorem State.areaHeal_blank {ps : List Part} (s : State) (hc : [Part.media] ⊆ ps) : s.areaHeal.blank ps = s.blank ps := by
  simp only [List.cons_subset] at hc; unfold State.areaHeal; simp [*]
@[simp ↓] theorem State.cfgWrite_blank {ps : List Part} (s : State) (c : CfgWrite) (hc : [Part.media, .health] ⊆ ps) : (s.cfgWrite c).blank ps = s.blank ps := by
  simp only [List.cons_subset] at hc; unfold State.cfgWrite; simp [*]
@[simp ↓] theorem State.requestAppend_blank {ps : List Part} (s : State) (a : Append) (hc : [Part.media, .boot] ⊆ ps) : (s.requestAppend a).blank ps = s.blank ps := by
  simp only [List.cons_subset] at hc; unfold State.requestAppend; simp [*]

end

end Sys2Proof.Machine
end

