-- ==== Sys2Proof/Laws/FrameOps.lean ====
section
/-! SUPPORT. What each operation may change: the operations of Machine/Luns, Flags, DispOps, SeaOps, Transfers, Ledger, FtlOps, Parity, MediaOps, Records, Lynx, MemOps, Dma, Digest. -/

namespace Sys2Proof.Machine

section
set_option Elab.async false
set_option linter.unusedTactic false
set_option linter.unreachableTactic false
set_option linter.unusedSimpArgs false

@[simp ↓] theorem State.setLun_blank {ps : List Part} (s : State) (l : Nat) (x : Lun) (hc : [Part.media] ⊆ ps) : (s.setLun l x).blank ps = s.blank ps := by
  simp only [List.cons_subset] at hc; unfold State.setLun; simp [*]
@[simp ↓] theorem State.onLun_blank {ps : List Part} (s : State) (l : Nat) (g : Lun → Lun) (hc : [Part.media] ⊆ ps) : (s.onLun l g).blank ps = s.blank ps := by
  simp only [List.cons_subset] at hc; unfold State.onLun; simp [*]
@[simp ↓] theorem State.onChannel_blank {ps : List Part} (s : State) (c : Nat) (g : Channel → Channel) (hc : [Part.media] ⊆ ps) : (s.onChannel c g).blank ps = s.blank ps := by
  simp only [List.cons_subset] at hc; unfold State.onChannel; simp [*]
@[simp ↓] theorem State.onBlock_blank {ps : List Part} (s : State) (n : Nat) (g : Block → Block) (hc : [Part.ftl] ⊆ ps) : (s.onBlock n g).blank ps = s.blank ps := by
  simp only [List.cons_subset] at hc; unfold State.onBlock; simp [*]
@[simp ↓] theorem State.onRun_blank {ps : List Part} (s : State) (copy : Nat) (g : DumpRun → DumpRun) (hc : [Part.str] ⊆ ps) : (s.onRun copy g).blank ps = s.blank ps := by
  simp only [List.cons_subset] at hc; unfold State.onRun; simp [*]
@[simp ↓] theorem State.dumpNext_blank {ps : List Part} (s : State) (l : Nat) (hc : [Part.media, .str] ⊆ ps) : (s.dumpNext l).blank ps = s.blank ps := by
  simp only [List.cons_subset] at hc; unfold State.dumpNext; (repeat' split) <;> simp [*]
@[simp ↓] theorem State.beginOp_blank {ps : List Part} (s : State) (l : Nat) (g : List MediaCmd) (reads : Nat) (hc : [Part.regs, .sys, .host, .ns, .ftl, .media, .str, .sea, .disp, .hrt, .health] ⊆ ps) : (s.beginOp l g reads).blank ps = s.blank ps := by
  simp only [List.cons_subset] at hc; unfold State.beginOp; simp [*]
@[simp ↓] theorem State.lunNext_blank {ps : List Part} (s : State) (l : Nat) (hc : [Part.regs, .sys, .host, .ns, .ftl, .media, .str, .sea, .disp, .hrt, .health] ⊆ ps) : (s.lunNext l).blank ps = s.blank ps := by
  simp only [List.cons_subset] at hc; unfold State.lunNext
  (repeat' (first | (with_reducible rfl) | assumption | (simp [*]; done) | (with_reducible refine (blank_foldl _ (fun _ _ => ?_) _ _).trans ?_) | (with_reducible refine (blank_iterate _ (fun _ _ => ?_) _ _).trans ?_) | (with_reducible refine (blank_foldl_p _ (fun _ _ => ?_) _ _).trans ?_) | (with_reducible refine blank_fst (by assumption) ?_) | (with_reducible refine blank_snd (by assumption) ?_) | (with_reducible refine blank_some (by assumption) ?_) | split | (simp only [blank_ite]) | (simp [*, -List.foldl_append, -Option.foldl_toList])))
@[simp ↓] theorem State.enqueue_blank {ps : List Part} (s : State) (l : Nat) (c : MediaCmd) (hc : [Part.regs, .sys, .host, .ns, .ftl, .media, .str, .sea, .disp, .hrt, .health] ⊆ ps) : (s.enqueue l c).blank ps = s.blank ps := by
  simp only [List.cons_subset] at hc; unfold State.enqueue; simp [*]
@[simp ↓] theorem State.wakeAll_blank {ps : List Part} (s : State) (hc : [Part.regs, .sys, .host, .ns, .ftl, .media, .str, .sea, .disp, .hrt, .health] ⊆ ps) : s.wakeAll.blank ps = s.blank ps := by
  simp only [List.cons_subset] at hc; unfold State.wakeAll; simp [*]
@[simp ↓] theorem State.withdraw_blank {ps : List Part} (s : State) (p : ReadClient → Bool) (hc : [Part.regs, .sys, .host, .ns, .ftl, .media, .str, .sea, .disp, .hrt, .health] ⊆ ps) : (s.withdraw p).blank ps = s.blank ps := by
  simp only [List.cons_subset] at hc; unfold State.withdraw; simp [*]
@[simp ↓] theorem State.onFlow_blank {ps : List Part} (s : State) (i : Nat) (g : Flow → Flow) (hc : [Part.disp] ⊆ ps) : (s.onFlow i g).blank ps = s.blank ps := by
  simp only [List.cons_subset] at hc; unfold State.onFlow; simp [*]
@[simp ↓] theorem State.setBuf_blank {ps : List Part} (s : State) (b : Nat) (p : Payload) (hc : [Part.disp] ⊆ ps) : (s.setBuf b p).blank ps = s.blank ps := by
  simp only [List.cons_subset] at hc; unfold State.setBuf; simp [*]
@[simp ↓] theorem State.freeBuf_blank {ps : List Part} (s : State) (b : Option Nat) (hc : [Part.regs, .sys, .host, .ns, .ftl, .media, .str, .sea, .disp, .hrt, .health] ⊆ ps) : (s.freeBuf b).blank ps = s.blank ps := by
  simp only [List.cons_subset] at hc; unfold State.freeBuf; (repeat' split) <;> simp [*]
theorem State.allocBuf_blank {ps : List Part} (s : State) (hc : [Part.disp] ⊆ ps) : ∀ r, s.allocBuf = some r → r.2.blank ps = s.blank ps := by
  simp only [List.cons_subset] at hc; intro t k; unfold State.allocBuf at k
  (try dsimp only at k)
  (repeat' split at k) <;> (first | cases k | skip)
  all_goals (repeat' (first | (with_reducible rfl) | assumption | (simp [*]; done) | (with_reducible refine (blank_foldl _ (fun _ _ => ?_) _ _).trans ?_) | (with_reducible refine (blank_iterate _ (fun _ _ => ?_) _ _).trans ?_) | (with_reducible refine (blank_foldl_p _ (fun _ _ => ?_) _ _).trans ?_) | (with_reducible refine blank_fst (by assumption) ?_) | (with_reducible refine blank_snd (by assumption) ?_) | (with_reducible refine blank_some (by assumption) ?_) | split | (simp only [blank_ite]) | (simp [*, -List.foldl_append, -Option.foldl_toList])))
@[simp ↓] theorem State.queuePeak_blank {ps : List Part} (s : State) (c : UnitClass) (fill : Nat) (hc : [Part.regs] ⊆ ps) : (s.queuePeak c fill).blank ps = s.blank ps := by
  simp only [List.cons_subset] at hc; unfold State.queuePeak; simp [*]
@[simp ↓] theorem State.nvmWork_blank {ps : List Part} (s : State) (c : UnitClass) (hc : [Part.regs] ⊆ ps) : (s.nvmWork c).blank ps = s.blank ps := by
  simp only [List.cons_subset] at hc; unfold State.nvmWork; simp [*]
@[simp ↓] theorem State.poolUpdate_blank {ps : List Part} (s : State) (hc : [Part.regs, .disp] ⊆ ps) : s.poolUpdate.blank ps = s.blank ps := by
  simp only [List.cons_subset] at hc; unfold State.poolUpdate; simp [*]
@[simp ↓] theorem State.dropEntry_blank {ps : List Part} (s : State) (flow stage cslot : Nat) (hc : [Part.disp] ⊆ ps) : (s.dropEntry flow stage cslot).blank ps = s.blank ps := by
  simp only [List.cons_subset] at hc; unfold State.dropEntry; (repeat' split) <;> simp [*]
@[simp ↓] theorem State.onEntry_blank {ps : List Part} (s : State) (flow stage cslot : Nat) (g : Task → Task) (hc : [Part.disp] ⊆ ps) : (s.onEntry flow stage cslot g).blank ps = s.blank ps := by
  simp only [List.cons_subset] at hc; unfold State.onEntry; simp [*]
@[simp ↓] theorem State.addEntry_blank {ps : List Part} (s : State) (flow stage cslot chunk : Nat) (reserve : Bool) (hc : [Part.regs, .sys, .host, .ns, .ftl, .media, .str, .sea, .disp, .hrt, .health] ⊆ ps) : (s.addEntry flow stage cslot chunk reserve).blank ps = s.blank ps := by
  simp only [List.cons_subset] at hc; unfold State.addEntry; (repeat' split) <;> simp [*]
@[simp ↓] theorem State.returnCredit_blank {ps : List Part} (s : State) (flow boundary : Nat) (hc : [Part.disp] ⊆ ps) : (s.returnCredit flow boundary).blank ps = s.blank ps := by
  simp only [List.cons_subset] at hc; unfold State.returnCredit; simp [*]
@[simp ↓] theorem State.takeCredit_blank {ps : List Part} (s : State) (flow boundary : Nat) (hc : [Part.disp] ⊆ ps) : (s.takeCredit flow boundary).blank ps = s.blank ps := by
  simp only [List.cons_subset] at hc; unfold State.takeCredit; simp [*]
@[simp ↓] theorem State.freeDiscarded_blank {ps : List Part} (s : State) (flow stage cslot : Nat) (hc : [Part.regs, .disp] ⊆ ps) : (s.freeDiscarded flow stage cslot).blank ps = s.blank ps := by
  simp only [List.cons_subset] at hc; unfold State.freeDiscarded; (repeat' split) <;> simp [*]
@[simp ↓] theorem State.countStale_blank {ps : List Part} (s : State) (hc : [Part.regs] ⊆ ps) : s.countStale.blank ps = s.blank ps := by
  simp only [List.cons_subset] at hc; unfold State.countStale; simp [*]
@[simp ↓] theorem State.arrive_blank {ps : List Part} (s : State) (tag : Tag) (g : Task → Task) (hc : [Part.disp] ⊆ ps) : (s.arrive tag g).blank ps = s.blank ps := by
  simp only [List.cons_subset] at hc; unfold State.arrive; simp [*]
@[simp ↓] theorem State.creditToken_blank {ps : List Part} (s : State) (e : Task) (hc : [Part.disp] ⊆ ps) : (s.creditToken e).blank ps = s.blank ps := by
  simp only [List.cons_subset] at hc; unfold State.creditToken; simp [*]
@[simp ↓] theorem State.dataToken_blank {ps : List Part} (s : State) (tag : Tag) (buf : Option Nat) (len : Nat) (skipped : Bool) (hc : [Part.regs, .sys, .host, .ns, .ftl, .media, .str, .sea, .disp, .hrt, .health] ⊆ ps) : (s.dataToken tag buf len skipped).blank ps = s.blank ps := by
  simp only [List.cons_subset] at hc; unfold State.dataToken; (repeat' split) <;> simp [*]
@[simp ↓] theorem State.stateToken_blank {ps : List Part} (s : State) (t : Task) (value : Nat) (hc : [Part.regs, .disp] ⊆ ps) : (s.stateToken t value).blank ps = s.blank ps := by
  simp only [List.cons_subset] at hc; unfold State.stateToken
  (repeat' (first | (with_reducible rfl) | assumption | (simp [*]; done) | (with_reducible refine (blank_foldl _ (fun _ _ => ?_) _ _).trans ?_) | (with_reducible refine (blank_iterate _ (fun _ _ => ?_) _ _).trans ?_) | (with_reducible refine (blank_foldl_p _ (fun _ _ => ?_) _ _).trans ?_) | (with_reducible refine blank_fst (by assumption) ?_) | (with_reducible refine blank_snd (by assumption) ?_) | (with_reducible refine blank_some (by assumption) ?_) | split | (simp only [blank_ite]) | (simp [*, -List.foldl_append, -Option.foldl_toList])))
@[simp ↓] theorem freeTask_blank {ps : List Part} (s : State) (t : Task) (hc : [Part.regs, .sys, .host, .ns, .ftl, .media, .str, .sea, .disp, .hrt, .health] ⊆ ps) : (freeTask s t).blank ps = s.blank ps := by
  simp only [List.cons_subset] at hc; unfold freeTask; simp [*]
@[simp ↓] theorem freeTasks_blank {ps : List Part} (s : State) (ts : List Task) (hc : [Part.regs, .sys, .host, .ns, .ftl, .media, .str, .sea, .disp, .hrt, .health] ⊆ ps) : (freeTasks s ts).blank ps = s.blank ps := by
  simp only [List.cons_subset] at hc; unfold freeTasks; simp [*]
@[simp ↓] theorem State.discardFlow_blank {ps : List Part} (s : State) (flow : Nat) (hc : [Part.regs, .sys, .host, .ns, .ftl, .media, .str, .sea, .disp, .hrt, .health] ⊆ ps) : (s.discardFlow flow).blank ps = s.blank ps := by
  simp only [List.cons_subset] at hc; unfold State.discardFlow; simp [*]
@[simp ↓] theorem State.stopSource_blank {ps : List Part} (s : State) (flow : Nat) (hc : [Part.regs, .sys, .host, .ns, .ftl, .media, .str, .sea, .disp, .hrt, .health] ⊆ ps) : (s.stopSource flow).blank ps = s.blank ps := by
  simp only [List.cons_subset] at hc; unfold State.stopSource; simp [*]
@[simp ↓] theorem State.failFlow_blank {ps : List Part} (s : State) (flow chunk stage : Nat) (st : Status) (hc : [Part.regs, .sys, .host, .ns, .ftl, .media, .str, .sea, .disp, .hrt, .health] ⊆ ps) : (s.failFlow flow chunk stage st).blank ps = s.blank ps := by
  simp only [List.cons_subset] at hc; unfold State.failFlow; simp [*]
@[simp ↓] theorem State.failTask_blank {ps : List Part} (s : State) (t : Task) (st : Status) (hc : [Part.regs, .sys, .host, .ns, .ftl, .media, .str, .sea, .disp, .hrt, .health] ⊆ ps) : (s.failTask t st).blank ps = s.blank ps := by
  simp only [List.cons_subset] at hc; unfold State.failTask; simp [*]
@[simp ↓] theorem State.mismatch_blank {ps : List Part} (s : State) (flow stage declared actual : Nat) (hc : [Part.disp] ⊆ ps) : (s.mismatch flow stage declared actual).blank ps = s.blank ps := by
  simp only [List.cons_subset] at hc; unfold State.mismatch; simp [*]
@[simp ↓] theorem State.retireChunk_blank {ps : List Part} (s : State) (t : Task) (bytes : Nat) (hc : [Part.disp] ⊆ ps) : (s.retireChunk t bytes).blank ps = s.blank ps := by
  simp only [List.cons_subset] at hc; unfold State.retireChunk; simp [*]
@[simp ↓] theorem State.purgeFlow_blank {ps : List Part} (s : State) (flow : Nat) (hc : [Part.regs, .sys, .host, .ns, .ftl, .media, .str, .sea, .disp, .hrt, .health] ⊆ ps) : (s.purgeFlow flow).blank ps = s.blank ps := by
  simp only [List.cons_subset] at hc; unfold State.purgeFlow; simp [*]
@[simp ↓] theorem State.served_blank {ps : List Part} (s : State) (i : Nat) (f : Fn) (flow : Nat) (hc : [Part.disp] ⊆ ps) : (s.served i f flow).blank ps = s.blank ps := by
  simp only [List.cons_subset] at hc; unfold State.served; simp [*]
@[simp ↓] theorem State.random_blank {ps : List Part} (s : State) (n : Nat) (hc : [Part.sea] ⊆ ps) : (s.random n).2.blank ps = s.blank ps := by
  simp only [List.cons_subset] at hc; unfold State.random; simp [*]
@[simp ↓] theorem State.setXts_blank {ps : List Part} (s : State) (i : Nat) (k : KeySlot) (hc : [Part.sea] ⊆ ps) : (s.setXts i k).blank ps = s.blank ps := by
  simp only [List.cons_subset] at hc; unfold State.setXts; simp [*]
@[simp ↓] theorem State.setWrap_blank {ps : List Part} (s : State) (i : Nat) (k : KeySlot) (hc : [Part.sea] ⊆ ps) : (s.setWrap i k).blank ps = s.blank ps := by
  simp only [List.cons_subset] at hc; unfold State.setWrap; simp [*]
@[simp ↓] theorem State.setSlot_blank {ps : List Part} (s : State) (use i : Nat) (k : KeySlot) (hc : [Part.sea] ⊆ ps) : (s.setSlot use i k).blank ps = s.blank ps := by
  simp only [List.cons_subset] at hc; unfold State.setSlot; simp [*]
@[simp ↓] theorem State.onOpal_blank {ps : List Part} (s : State) (p : Port) (g : Opal → Opal) (hc : [Part.sea] ⊆ ps) : (s.onOpal p g).blank ps = s.blank ps := by
  simp only [List.cons_subset] at hc; unfold State.onOpal; simp [*]
@[simp ↓] theorem State.rewrapped_blank {ps : List Part} (t s : State) (hc : [Part.sea] ⊆ ps) : (t.rewrapped s).blank ps = t.blank ps := by
  simp only [List.cons_subset] at hc; unfold State.rewrapped
  (repeat' (first | (with_reducible rfl) | assumption | (simp [*]; done) | (with_reducible refine (blank_foldl _ (fun _ _ => ?_) _ _).trans ?_) | (with_reducible refine (blank_iterate _ (fun _ _ => ?_) _ _).trans ?_) | (with_reducible refine (blank_foldl_p _ (fun _ _ => ?_) _ _).trans ?_) | (with_reducible refine blank_fst (by assumption) ?_) | (with_reducible refine blank_snd (by assumption) ?_) | (with_reducible refine blank_some (by assumption) ?_) | split | (simp only [blank_ite]) | (simp [*, -List.foldl_append, -Option.foldl_toList])))
@[simp ↓] theorem State.loadSlot_blank {ps : List Part} (s : State) (use i : Nat) (key : List Byte) (hc : [Part.media, .sea] ⊆ ps) : (s.loadSlot use i key).blank ps = s.blank ps := by
  simp only [List.cons_subset] at hc; unfold State.loadSlot; simp [*]
@[simp ↓] theorem State.failSlotUsers_blank {ps : List Part} (s : State) (p : Stage → Bool) (hc : [Part.regs, .sys, .host, .ns, .ftl, .media, .str, .sea, .disp, .hrt, .health] ⊆ ps) : (s.failSlotUsers p).blank ps = s.blank ps := by
  simp only [List.cons_subset] at hc; unfold State.failSlotUsers; simp [*]
@[simp ↓] theorem State.failHmacUsers_blank {ps : List Part} (s : State) (slot : Nat) (hc : [Part.regs, .sys, .host, .ns, .ftl, .media, .str, .sea, .dgs, .disp, .hrt, .health] ⊆ ps) : (s.failHmacUsers slot).blank ps = s.blank ps := by
  simp only [List.cons_subset] at hc; unfold State.failHmacUsers; simp [*]
@[simp ↓] theorem State.nonceCheck_blank {ps : List Part} (s : State) (slot need : Nat) (hc : [Part.media, .sea] ⊆ ps) : (s.nonceCheck slot need).blank ps = s.blank ps := by
  simp only [List.cons_subset] at hc; unfold State.nonceCheck; simp [*]
@[simp ↓] theorem State.nonceTake_blank {ps : List Part} (s : State) (slot chunks : Nat) (hc : [Part.media, .sea] ⊆ ps) : (s.nonceTake slot chunks).blank ps = s.blank ps := by
  simp only [List.cons_subset] at hc; unfold State.nonceTake; simp [*]
@[simp ↓] theorem State.keyUse_blank {ps : List Part} (s : State) (pipeline key : Nat) (hc : [Part.regs, .sys, .host, .ns, .ftl, .media, .str, .sea, .disp, .hrt, .health] ⊆ ps) : (s.keyUse pipeline key).blank ps = s.blank ps := by
  simp only [List.cons_subset] at hc; unfold State.keyUse; simp [*]
@[simp ↓] theorem State.uncache_blank {ps : List Part} (s : State) (use slot : Nat) (hc : [Part.sea] ⊆ ps) : (s.uncache use slot).blank ps = s.blank ps := by
  simp only [List.cons_subset] at hc; unfold State.uncache; simp [*]
@[simp ↓] theorem State.wrapUse_blank {ps : List Part} (s : State) (slot : Nat) (hc : [Part.regs, .sys, .host, .ns, .ftl, .media, .str, .sea, .disp, .hrt, .health] ⊆ ps) : (s.wrapUse slot).blank ps = s.blank ps := by
  simp only [List.cons_subset] at hc; unfold State.wrapUse; simp [*]
@[simp ↓] theorem State.startTransfer_blank {ps : List Part} (s : State) (t : Transfer) (hc : [Part.regs, .sys, .host, .ns, .ftl, .media, .str, .sea, .disp, .hrt, .health] ⊆ ps) : (s.startTransfer t).blank ps = s.blank ps := by
  simp only [List.cons_subset] at hc; unfold State.startTransfer
  (repeat' (first | (with_reducible rfl) | assumption | (simp [*]; done) | (with_reducible refine (blank_foldl _ (fun _ _ => ?_) _ _).trans ?_) | (with_reducible refine (blank_iterate _ (fun _ _ => ?_) _ _).trans ?_) | (with_reducible refine (blank_foldl_p _ (fun _ _ => ?_) _ _).trans ?_) | (with_reducible refine blank_fst (by assumption) ?_) | (with_reducible refine blank_snd (by assumption) ?_) | (with_reducible refine blank_some (by assumption) ?_) | split | (simp only [blank_ite]) | (simp [*, -List.foldl_append, -Option.foldl_toList])))
@[simp ↓] theorem State.startTransfers_blank {ps : List Part} (s : State) (hc : [Part.regs, .sys, .host, .ns, .ftl, .media, .str, .sea, .disp, .hrt, .health] ⊆ ps) : s.startTransfers.blank ps = s.blank ps := by
  simp only [List.cons_subset] at hc; unfold State.startTransfers; simp [*]
@[simp ↓] theorem State.transfer_blank {ps : List Part} (s : State) (cls : UnitClass) (keys : List Nat) (bytes : Nat) (hc : [Part.regs, .sys, .host, .ns, .ftl, .media, .str, .sea, .disp, .hrt, .health] ⊆ ps) : (s.transfer cls keys bytes).blank ps = s.blank ps := by
  simp only [List.cons_subset] at hc; unfold State.transfer; simp [*]
@[simp ↓] theorem State.endTransfers_blank {ps : List Part} (s : State) (cls : UnitClass) (hc : [Part.disp] ⊆ ps) : (s.endTransfers cls).blank ps = s.blank ps := by
  simp only [List.cons_subset] at hc; unfold State.endTransfers; simp [*]
@[simp ↓] theorem irqSend_blank {ps : List Part} (s : State) (p : Port) (seen : BitVec 10) (hc : [Part.host] ⊆ ps) : (irqSend s p seen).blank ps = s.blank ps := by
  simp only [List.cons_subset] at hc; unfold irqSend; simp [*]
@[simp ↓] theorem State.irq_blank {ps : List Part} (s : State) (hc : [Part.sys, .host] ⊆ ps) : s.irq.blank ps = s.blank ps := by
  simp only [List.cons_subset] at hc; unfold State.irq; simp [*]
@[simp ↓] theorem State.recordBridge_blank {ps : List Part} (s : State) (target source : Island) (hc : [Part.regs] ⊆ ps) : (s.recordBridge target source).blank ps = s.blank ps := by
  simp only [List.cons_subset] at hc; unfold State.recordBridge; simp [*]
@[simp ↓] theorem State.noteBridge_blank {ps : List Part} (s : State) (target source : Island) (hc : [Part.regs, .sys, .host, .health] ⊆ ps) : (s.noteBridge target source).blank ps = s.blank ps := by
  simp only [List.cons_subset] at hc; unfold State.noteBridge; simp [*]
@[simp ↓] theorem State.tellFirmware_blank {ps : List Part} (s : State) (target : Island) (hc : [Part.regs, .sys, .power, .host, .ns, .ftl, .media, .str, .sea, .dgs, .lynx, .dma, .disp, .hrt, .memory, .boot, .firmware, .health, .free] ⊆ ps) : (s.tellFirmware target).blank ps = s.blank ps := by
  simp only [List.cons_subset] at hc; unfold State.tellFirmware; simp [*]
@[simp ↓] theorem State.barMiss_blank {ps : List Part} (s : State) (r : Requester) (off : Nat) (hc : [Part.regs, .sys, .power, .host, .ns, .ftl, .media, .str, .sea, .dgs, .lynx, .dma, .disp, .hrt, .memory, .boot, .firmware, .health, .free] ⊆ ps) : (s.barMiss r off).blank ps = s.blank ps := by
  simp only [List.cons_subset] at hc; unfold State.barMiss; (repeat' split) <;> simp [*]
@[simp ↓] theorem State.setRegion_blank {ps : List Part} (s : State) (r : Nat) (x : Region) (hc : [Part.str] ⊆ ps) : (s.setRegion r x).blank ps = s.blank ps := by
  simp only [List.cons_subset] at hc; unfold State.setRegion; simp [*]
@[simp ↓] theorem State.blockSegDirty_blank {ps : List Part} (s : State) (k : Nat) (hc : [Part.ftl] ⊆ ps) : (s.blockSegDirty k).blank ps = s.blank ps := by
  simp only [List.cons_subset] at hc; unfold State.blockSegDirty; simp [*]
@[simp ↓] theorem State.onBand_blank {ps : List Part} (s : State) (b : Nat) (g : Band → Band) (hc : [Part.ftl] ⊆ ps) : (s.onBand b g).blank ps = s.blank ps := by
  simp only [List.cons_subset] at hc; unfold State.onBand; (repeat' split) <;> simp [*]
@[simp ↓] theorem State.onAnyBand_blank {ps : List Part} (s : State) (b : Nat) (g : Band → Band) (hc : [Part.ftl, .str] ⊆ ps) : (s.onAnyBand b g).blank ps = s.blank ps := by
  simp only [List.cons_subset] at hc; unfold State.onAnyBand; simp [*]
@[simp ↓] theorem State.holdBlocks_blank {ps : List Part} (s : State) (ms : List (Nat × Nat)) (hc : [Part.ftl] ⊆ ps) : (s.holdBlocks ms).blank ps = s.blank ps := by
  simp only [List.cons_subset] at hc; unfold State.holdBlocks; simp [*]
@[simp ↓] theorem State.firstFormat_blank {ps : List Part} (s : State) (hc : [Part.ftl, .str] ⊆ ps) : s.firstFormat.blank ps = s.blank ps := by
  simp only [List.cons_subset] at hc; unfold State.firstFormat; simp [*]
@[simp ↓] theorem State.raiseSmart_blank {ps : List Part} (s : State) (e : Aen) (bits : List Nat) (hc : [Part.host, .health] ⊆ ps) : (s.raiseSmart e bits).blank ps = s.blank ps := by
  simp only [List.cons_subset] at hc; unfold State.raiseSmart; simp [*]
@[simp ↓] theorem State.failSink_blank {ps : List Part} (s : State) (e : Task) (st : Status) (hc : [Part.regs, .sys, .host, .ns, .ftl, .media, .str, .sea, .disp, .hrt, .health] ⊆ ps) : (s.failSink e st).blank ps = s.blank ps := by
  simp only [List.cons_subset] at hc; unfold State.failSink; simp [*]
@[simp ↓] theorem State.failWaiting_blank {ps : List Part} (s : State) (st : Status) (hc : [Part.regs, .sys, .host, .ns, .ftl, .media, .str, .sea, .disp, .hrt, .health] ⊆ ps) : (s.failWaiting st).blank ps = s.blank ps := by
  simp only [List.cons_subset] at hc; unfold State.failWaiting
  (repeat' (first | (with_reducible rfl) | assumption | (simp [*]; done) | (with_reducible refine (blank_foldl _ (fun _ _ => ?_) _ _).trans ?_) | (with_reducible refine (blank_iterate _ (fun _ _ => ?_) _ _).trans ?_) | (with_reducible refine (blank_foldl_p _ (fun _ _ => ?_) _ _).trans ?_) | (with_reducible refine blank_fst (by assumption) ?_) | (with_reducible refine blank_snd (by assumption) ?_) | (with_reducible refine blank_some (by assumption) ?_) | split | (simp only [blank_ite]) | (simp [*, -List.foldl_append, -Option.foldl_toList])))
@[simp ↓] theorem State.spareUpdate_blank {ps : List Part} (s : State) (hc : [Part.regs, .sys, .host, .ns, .ftl, .media, .str, .sea, .disp, .hrt, .health] ⊆ ps) : s.spareUpdate.blank ps = s.blank ps := by
  simp only [List.cons_subset] at hc; unfold State.spareUpdate; simp [*]
theorem State.bandSlot_blank {ps : List Part} (s : State) (g : Nat) (hc : [Part.media, .str, .health] ⊆ ps) : ∀ r, (s.bandSlot g) = some r → r.1.blank ps = s.blank ps := by
  simp only [List.cons_subset] at hc; intro t k; unfold State.bandSlot at k
  (try dsimp only at k)
  (repeat' split at k) <;> (first | cases k | skip)
  all_goals (repeat' (first | (with_reducible rfl) | assumption | (simp [*]; done) | (with_reducible refine (blank_foldl _ (fun _ _ => ?_) _ _).trans ?_) | (with_reducible refine (blank_iterate _ (fun _ _ => ?_) _ _).trans ?_) | (with_reducible refine (blank_foldl_p _ (fun _ _ => ?_) _ _).trans ?_) | (with_reducible refine blank_fst (by assumption) ?_) | (with_reducible refine blank_snd (by assumption) ?_) | (with_reducible refine blank_some (by assumption) ?_) | split | (simp only [blank_ite]) | (simp [*, -List.foldl_append, -Option.foldl_toList])))
@[simp ↓] theorem State.noBand_blank {ps : List Part} (s : State) (hc : [Part.regs, .sys, .host, .ns, .ftl, .media, .str, .sea, .disp, .hrt, .health] ⊆ ps) : s.noBand.blank ps = s.blank ps := by
  simp only [List.cons_subset] at hc; unfold State.noBand; simp [*]
theorem State.slotFor_blank {ps : List Part} (s : State) (kind : BandKind) (g : Nat) (hc : [Part.media, .str, .health] ⊆ ps) : ∀ r, (s.slotFor kind g) = some r → r.1.blank ps = s.blank ps := by
  simp only [List.cons_subset] at hc; intro t k; unfold State.slotFor at k
  (try dsimp only at k)
  (repeat' split at k) <;> (first | cases k | skip)
  all_goals (repeat' (first | (with_reducible rfl) | assumption | (exact State.bandSlot_blank _ _ (by simp [*])) | (simp [*]; done) | (with_reducible refine (blank_foldl _ (fun _ _ => ?_) _ _).trans ?_) | (with_reducible refine (blank_iterate _ (fun _ _ => ?_) _ _).trans ?_) | (with_reducible refine (blank_foldl_p _ (fun _ _ => ?_) _ _).trans ?_) | (with_reducible refine blank_fst (by assumption) ?_) | (with_reducible refine blank_snd (by assumption) ?_) | (with_reducible refine blank_some (by assumption) ?_) | split | (simp only [blank_ite]) | (simp [*, -List.foldl_append, -Option.foldl_toList])))
@[simp ↓] theorem State.openBand_blank {ps : List Part} (s : State) (kind : BandKind) (hc : [Part.regs, .sys, .host, .ns, .ftl, .media, .str, .sea, .disp, .hrt, .health] ⊆ ps) : (s.openBand kind).1.blank ps = s.blank ps := by
  simp only [List.cons_subset] at hc; unfold State.openBand; dsimp only
  split
  · rfl
  split
  · simp [*]
  split
  · simp [*]
  · rename_i h; have k := State.slotFor_blank (ps := ps) s _ _ (by simp [*]) _ h
    split <;> simp_all
@[simp ↓] theorem State.journalFlush_blank {ps : List Part} (s : State) (hc : [Part.ftl] ⊆ ps) : s.journalFlush.blank ps = s.blank ps := by
  simp only [List.cons_subset] at hc; unfold State.journalFlush; simp [*]
@[simp ↓] theorem State.journal_blank {ps : List Part} (s : State) (kind target erases : Nat) (e : MapEntry) (hc : [Part.ftl] ⊆ ps) : (s.journal kind target erases e).blank ps = s.blank ps := by
  simp only [List.cons_subset] at hc; unfold State.journal; simp [*]
@[simp ↓] theorem State.setMap_blank {ps : List Part} (s : State) (iu : Nat) (e : MapEntry) (hc : [Part.ftl] ⊆ ps) : (s.setMap iu e).blank ps = s.blank ps := by
  simp only [List.cons_subset] at hc; unfold State.setMap; simp [*]
@[simp ↓] theorem State.badAdd_blank {ps : List Part} (s : State) (nsid slba nlb cause : Nat) (hc : [Part.host, .str, .health] ⊆ ps) : (s.badAdd nsid slba nlb cause).blank ps = s.blank ps := by
  simp only [List.cons_subset] at hc; unfold State.badAdd; simp [*]
@[simp ↓] theorem State.badRelist_blank {ps : List Part} (s : State) (hc : [Part.host, .str, .health] ⊆ ps) : s.badRelist.blank ps = s.blank ps := by
  simp only [List.cons_subset] at hc; unfold State.badRelist; simp [*]
@[simp ↓] theorem State.badRemove_blank {ps : List Part} (s : State) (nsid slba nlb : Nat) (hc : [Part.host, .str, .health] ⊆ ps) : (s.badRemove nsid slba nlb).blank ps = s.blank ps := by
  simp only [List.cons_subset] at hc; unfold State.badRemove; simp [*]
@[simp ↓] theorem State.setBad_blank {ps : List Part} (s : State) (iu cause : Nat) (hc : [Part.host, .ftl, .str, .health] ⊆ ps) : (s.setBad iu cause).blank ps = s.blank ps := by
  simp only [List.cons_subset] at hc; unfold State.setBad; (repeat' split) <;> simp [*]
@[simp ↓] theorem State.replaceEntry_blank {ps : List Part} (s : State) (iu : Nat) (e : MapEntry) (hc : [Part.host, .ftl, .str, .health] ⊆ ps) : (s.replaceEntry iu e).blank ps = s.blank ps := by
  simp only [List.cons_subset] at hc; unfold State.replaceEntry; (repeat' split) <;> simp [*]
@[simp ↓] theorem State.rleFail_blank {ps : List Part} (s : State) (nvm : Bool) (id : W32) (st : Status) (inOff outPos : Nat) (hc : [Part.regs, .sys, .host, .health] ⊆ ps) : (s.rleFail nvm id st inOff outPos).blank ps = s.blank ps := by
  simp only [List.cons_subset] at hc; unfold State.rleFail; simp [*]
@[simp ↓] theorem State.decodeCounted_blank {ps : List Part} (s : State) (e : MapEntry) (hc : [Part.regs, .sys, .host, .health] ⊆ ps) : (s.decodeCounted e).blank ps = s.blank ps := by
  simp only [List.cons_subset] at hc; unfold State.decodeCounted; (repeat' split) <;> simp [*]
@[simp ↓] theorem State.mediaWork_blank {ps : List Part} (s : State) (es : List MapEntry) (hc : [Part.regs, .sys, .host, .ns, .ftl, .media, .str, .sea, .disp, .hrt, .health] ⊆ ps) : (s.mediaWork es).blank ps = s.blank ps := by
  simp only [List.cons_subset] at hc; unfold State.mediaWork; simp [*]
@[simp ↓] theorem State.storeWork_blank {ps : List Part} (s : State) (x : Slot) (bytes : List Byte) (units : Nat) (hc : [Part.regs, .sys, .host, .ns, .ftl, .media, .str, .sea, .disp, .hrt, .health] ⊆ ps) : (s.storeWork x bytes units).blank ps = s.blank ps := by
  simp only [List.cons_subset] at hc; unfold State.storeWork; simp [*]
@[simp ↓] theorem State.onSlot_blank {ps : List Part} (s : State) (k : Nat) (g : Slot → Slot) (hc : [Part.ftl] ⊆ ps) : (s.onSlot k g).blank ps = s.blank ps := by
  simp only [List.cons_subset] at hc; unfold State.onSlot; simp [*]
@[simp ↓] theorem State.bufPeak_blank {ps : List Part} (s : State) (hc : [Part.regs] ⊆ ps) : s.bufPeak.blank ps = s.blank ps := by
  simp only [List.cons_subset] at hc; unfold State.bufPeak; simp [*]
@[simp ↓] theorem State.refreshBand_blank {ps : List Part} (s : State) (lun block : Nat) (hc : [Part.ftl, .str] ⊆ ps) : (s.refreshBand lun block).blank ps = s.blank ps := by
  simp only [List.cons_subset] at hc; unfold State.refreshBand; (repeat' split) <;> simp [*]
@[simp ↓] theorem State.sense_blank {ps : List Part} (s : State) (lun block : Nat) (hc : [Part.ftl, .str] ⊆ ps) : (s.sense lun block).blank ps = s.blank ps := by
  simp only [List.cons_subset] at hc; unfold State.sense; simp [*]
@[simp ↓] theorem State.loseStored_blank {ps : List Part} (s : State) (a iu : Nat) (hc : [Part.host, .ftl, .str, .health] ⊆ ps) : (s.loseStored a iu).blank ps = s.blank ps := by
  simp only [List.cons_subset] at hc; unfold State.loseStored; simp [*]
@[simp ↓] theorem State.onStripe_blank {ps : List Part} (s : State) (b j : Nat) (g : Stripe → Stripe) (hc : [Part.str] ⊆ ps) : (s.onStripe b j g).blank ps = s.blank ps := by
  simp only [List.cons_subset] at hc; unfold State.onStripe; simp [*]
@[simp ↓] theorem State.repoint_blank {ps : List Part} (s : State) (k : Nat) (e : MapEntry) (hc : [Part.ftl] ⊆ ps) : (s.repoint k e).blank ps = s.blank ps := by
  simp only [List.cons_subset] at hc; unfold State.repoint; simp [*]
@[simp ↓] theorem State.flipSlot_blank {ps : List Part} (s : State) (k : Nat) (hc : [Part.regs, .ftl] ⊆ ps) : (s.flipSlot k).blank ps = s.blank ps := by
  simp only [List.cons_subset] at hc; unfold State.flipSlot; (repeat' split) <;> simp [*]
@[simp ↓] theorem State.dropCopy_blank {ps : List Part} (s : State) (c : Copy) (hc : [Part.regs, .sys, .host, .ns, .ftl, .media, .str, .sea, .disp, .hrt, .health] ⊆ ps) : (s.dropCopy c).blank ps = s.blank ps := by
  simp only [List.cons_subset] at hc; unfold State.dropCopy; simp [*]
@[simp ↓] theorem State.flipCopy_blank {ps : List Part} (s : State) (c : Copy) (hc : [Part.regs, .sys, .host, .ns, .ftl, .media, .str, .sea, .disp, .hrt, .health] ⊆ ps) : (s.flipCopy c).blank ps = s.blank ps := by
  simp only [List.cons_subset] at hc; unfold State.flipCopy; (repeat' split) <;> simp [*]
@[simp ↓] theorem State.flipSegments_blank {ps : List Part} (s : State) (hc : [Part.ftl] ⊆ ps) : s.flipSegments.blank ps = s.blank ps := by
  simp only [List.cons_subset] at hc; unfold State.flipSegments; simp [*]
@[simp ↓] theorem State.victimCheck_blank {ps : List Part} (s : State) (hc : [Part.regs, .sys, .host, .ns, .ftl, .media, .str, .sea, .disp, .hrt, .health] ⊆ ps) : s.victimCheck.blank ps = s.blank ps := by
  simp only [List.cons_subset] at hc; unfold State.victimCheck; (repeat' split) <;> simp [*]
@[simp ↓] theorem State.freeSlots_blank {ps : List Part} (s : State) (hc : [Part.ftl] ⊆ ps) : s.freeSlots.blank ps = s.blank ps := by
  simp only [List.cons_subset] at hc; unfold State.freeSlots; simp [*]
@[simp ↓] theorem State.closeBand_blank {ps : List Part} (s : State) (b : Nat) (hc : [Part.ftl] ⊆ ps) : (s.closeBand b).blank ps = s.blank ps := by
  simp only [List.cons_subset] at hc; unfold State.closeBand; simp [*]
@[simp ↓] theorem State.closeStripe_blank {ps : List Part} (s : State) (b j : Nat) (hc : [Part.regs, .sys, .host, .ns, .ftl, .media, .str, .sea, .disp, .hrt, .health] ⊆ ps) : (s.closeStripe b j).blank ps = s.blank ps := by
  simp only [List.cons_subset] at hc; unfold State.closeStripe; (repeat' split) <;> simp [*]
@[simp ↓] theorem State.pageDone_blank {ps : List Part} (s : State) (b j p : Nat) (hc : [Part.regs, .sys, .host, .ns, .ftl, .media, .str, .sea, .disp, .hrt, .health] ⊆ ps) : (s.pageDone b j p).blank ps = s.blank ps := by
  simp only [List.cons_subset] at hc; unfold State.pageDone; simp [*]
@[simp ↓] theorem State.issueMember_blank {ps : List Part} (s : State) (b j p : Nat) (hc : [Part.regs, .sys, .host, .ns, .ftl, .media, .str, .sea, .disp, .hrt, .health] ⊆ ps) : (s.issueMember b j p).blank ps = s.blank ps := by
  simp only [List.cons_subset] at hc; unfold State.issueMember
  (repeat' (first | (with_reducible rfl) | assumption | (simp [*]; done) | (with_reducible refine (blank_foldl _ (fun _ _ => ?_) _ _).trans ?_) | (with_reducible refine (blank_iterate _ (fun _ _ => ?_) _ _).trans ?_) | (with_reducible refine (blank_foldl_p _ (fun _ _ => ?_) _ _).trans ?_) | (with_reducible refine blank_fst (by assumption) ?_) | (with_reducible refine blank_snd (by assumption) ?_) | (with_reducible refine blank_some (by assumption) ?_) | split | (simp only [blank_ite]) | (simp [*, -List.foldl_append, -Option.foldl_toList])))
@[simp ↓] theorem State.issuePage_blank {ps : List Part} (s : State) (b g q : Nat) (hc : [Part.regs, .sys, .host, .ns, .ftl, .media, .str, .sea, .disp, .hrt, .health] ⊆ ps) : (s.issuePage b g q).blank ps = s.blank ps := by
  simp only [List.cons_subset] at hc; unfold State.issuePage; simp [*]
@[simp ↓] theorem State.countProgram_blank {ps : List Part} (s : State) (b j p : Nat) (hc : [Part.regs] ⊆ ps) : (s.countProgram b j p).blank ps = s.blank ps := by
  simp only [List.cons_subset] at hc; unfold State.countProgram; (repeat' split) <;> simp [*]
@[simp ↓] theorem State.openStripes_blank {ps : List Part} (s : State) (b g lo hi : Nat) (kind : BandKind) (hc : [Part.str] ⊆ ps) : (s.openStripes b g lo hi kind).blank ps = s.blank ps := by
  simp only [List.cons_subset] at hc; unfold State.openStripes; simp [*]
@[simp ↓] theorem State.fillTo_blank {ps : List Part} (s : State) (b new : Nat) (hc : [Part.regs, .sys, .host, .ns, .ftl, .media, .str, .sea, .disp, .hrt, .health] ⊆ ps) : (s.fillTo b new).blank ps = s.blank ps := by
  simp only [List.cons_subset] at hc; unfold State.fillTo; (repeat' split) <;> simp [*]
@[simp ↓] theorem State.fillStripe_blank {ps : List Part} (s : State) (b : Nat) (hc : [Part.regs, .sys, .host, .ns, .ftl, .media, .str, .sea, .disp, .hrt, .health] ⊆ ps) : (s.fillStripe b).blank ps = s.blank ps := by
  simp only [List.cons_subset] at hc; unfold State.fillStripe; (repeat' split) <;> simp [*]
@[simp ↓] theorem State.fillBand_blank {ps : List Part} (s : State) (b : Nat) (hc : [Part.regs, .sys, .host, .ns, .ftl, .media, .str, .sea, .disp, .hrt, .health] ⊆ ps) : (s.fillBand b).blank ps = s.blank ps := by
  simp only [List.cons_subset] at hc; unfold State.fillBand; (repeat' split) <;> simp [*]
@[simp ↓] theorem State.shutBand_blank {ps : List Part} (s : State) (b : Nat) (hc : [Part.regs, .sys, .host, .ns, .ftl, .media, .str, .sea, .disp, .hrt, .health] ⊆ ps) : (s.shutBand b).blank ps = s.blank ps := by
  simp only [List.cons_subset] at hc; unfold State.shutBand; (repeat' split) <;> simp [*]
@[simp ↓] theorem State.takeUnits_blank {ps : List Part} (s : State) (kind : BandKind) (units : Nat) (a0 : Nat) (hc : [Part.regs, .sys, .host, .ns, .ftl, .media, .str, .sea, .disp, .hrt, .health] ⊆ ps) : (s.takeUnits kind units a0).1.blank ps = s.blank ps := by
  simp only [List.cons_subset] at hc
  induction a0 generalizing s with
  | zero => rfl
  | succ n ih =>
    unfold State.takeUnits; dsimp only
    split
    · split
      · rfl
      split <;> simp [*]
    · split
      · rfl
      split <;> rename_i h <;> have e := blank_fst (ps := ps) (s := s) h (by simp [hc])
      · split <;> simp [e, hc]
      · exact e
@[simp ↓] theorem State.place_blank {ps : List Part} (s : State) (kind : BandKind) (iu units : Nat) (bytes : List Byte) (later : Bool) (hc : [Part.regs, .sys, .host, .ns, .ftl, .media, .str, .sea, .disp, .hrt, .health] ⊆ ps) : (s.place kind iu units bytes later).1.blank ps = s.blank ps := by
  simp only [List.cons_subset] at hc; unfold State.place; dsimp only
  split <;> rename_i h <;> have e := blank_fst (ps := ps) (s := s) h (by simp [hc]) <;> simp [e, hc]
@[simp ↓] theorem State.placeSlot_blank {ps : List Part} (s : State) (k : Nat) (hc : [Part.regs, .sys, .host, .ns, .ftl, .media, .str, .sea, .disp, .hrt, .health] ⊆ ps) : (s.placeSlot k).blank ps = s.blank ps := by
  simp only [List.cons_subset] at hc; unfold State.placeSlot; dsimp only
  split
  · rfl
  split
  · simp [*]
  split
  · split <;> simp [*]
  · split <;> rename_i h <;> have e := blank_fst (ps := ps) (s := s) h (by simp [hc]) <;> simp [e, hc]
@[simp ↓] theorem State.placeCopy_blank {ps : List Part} (s : State) (iu : Nat) (hc : [Part.regs, .sys, .host, .ns, .ftl, .media, .str, .sea, .disp, .hrt, .health] ⊆ ps) : (s.placeCopy iu).blank ps = s.blank ps := by
  simp only [List.cons_subset] at hc; unfold State.placeCopy; dsimp only
  split
  · rfl
  split
  · simp [*]
  split
  · simp [*]
  split <;> rename_i h <;> have e := blank_fst (ps := ps) (s := s) h (by simp [hc]) <;> simp [e, hc]
@[simp ↓] theorem State.placeWaiting_blank {ps : List Part} (s : State) (hc : [Part.regs, .sys, .host, .ns, .ftl, .media, .str, .sea, .disp, .hrt, .health] ⊆ ps) : s.placeWaiting.blank ps = s.blank ps := by
  simp only [List.cons_subset] at hc; unfold State.placeWaiting; simp [*]
@[simp ↓] theorem State.writeSegment_blank {ps : List Part} (s : State) (segment : Nat) (hc : [Part.regs, .sys, .host, .ns, .ftl, .media, .str, .sea, .disp, .hrt, .health] ⊆ ps) : (s.writeSegment segment).blank ps = s.blank ps := by
  simp only [List.cons_subset] at hc; unfold State.writeSegment
  split <;> rename_i h <;> have e := blank_fst (ps := ps) (s := s) h (by simp [hc]) <;> simp [e, hc]
@[simp ↓] theorem State.segmentAgain_blank {ps : List Part} (s : State) (p : MapPage) (hc : [Part.ftl] ⊆ ps) : (s.segmentAgain p).blank ps = s.blank ps := by
  simp only [List.cons_subset] at hc; unfold State.segmentAgain; simp [*]
@[simp ↓] theorem State.deallocIu_blank {ps : List Part} (s : State) (iu : Nat) (hc : [Part.host, .ftl, .str, .health] ⊆ ps) : (s.deallocIu iu).blank ps = s.blank ps := by
  simp only [List.cons_subset] at hc; unfold State.deallocIu; simp [*]
@[simp ↓] theorem State.unmapIus_blank {ps : List Part} (s : State) (ius : List Nat) (hc : [Part.host, .ftl, .str, .health] ⊆ ps) : (s.unmapIus ius).blank ps = s.blank ps := by
  simp only [List.cons_subset] at hc; unfold State.unmapIus; simp [*]
@[simp ↓] theorem State.onRange_blank {ps : List Part} (s : State) (nsid rangeId : Nat) (g : Range → Range) (hc : [Part.ns] ⊆ ps) : (s.onRange nsid rangeId g).blank ps = s.blank ps := by
  simp only [List.cons_subset] at hc; unfold State.onRange; simp [*]
@[simp ↓] theorem State.switchKey_blank {ps : List Part} (s : State) (nsid rangeId : Nat) (hc : [Part.host, .ns, .ftl, .str, .sea, .health] ⊆ ps) : (s.switchKey nsid rangeId).blank ps = s.blank ps := by
  simp only [List.cons_subset] at hc; unfold State.switchKey
  (repeat' (first | (with_reducible rfl) | assumption | (simp [*]; done) | (with_reducible refine (blank_foldl _ (fun _ _ => ?_) _ _).trans ?_) | (with_reducible refine (blank_iterate _ (fun _ _ => ?_) _ _).trans ?_) | (with_reducible refine (blank_foldl_p _ (fun _ _ => ?_) _ _).trans ?_) | (with_reducible refine blank_fst (by assumption) ?_) | (with_reducible refine blank_snd (by assumption) ?_) | (with_reducible refine blank_some (by assumption) ?_) | split | (simp only [blank_ite]) | (simp [*, -List.foldl_append, -Option.foldl_toList])))
@[simp ↓] theorem State.rekeyAdvance_blank {ps : List Part} (s : State) (hc : [Part.regs, .sys, .host, .ns, .ftl, .media, .str, .sea, .disp, .hrt, .health] ⊆ ps) : s.rekeyAdvance.blank ps = s.blank ps := by
  simp only [List.cons_subset] at hc; unfold State.rekeyAdvance
  (repeat' (first | (with_reducible rfl) | assumption | (simp [*]; done) | (with_reducible refine (blank_foldl _ (fun _ _ => ?_) _ _).trans ?_) | (with_reducible refine (blank_iterate _ (fun _ _ => ?_) _ _).trans ?_) | (with_reducible refine (blank_foldl_p _ (fun _ _ => ?_) _ _).trans ?_) | (with_reducible refine blank_fst (by assumption) ?_) | (with_reducible refine blank_snd (by assumption) ?_) | (with_reducible refine blank_some (by assumption) ?_) | split | (simp only [blank_ite]) | (simp [*, -List.foldl_append, -Option.foldl_toList])))
@[simp ↓] theorem State.reconGo_blank {ps : List Part} (s : State) (r : Recon) (hc : [Part.regs, .sys, .host, .ns, .ftl, .media, .str, .sea, .disp, .hrt, .health] ⊆ ps) : (s.reconGo r).1.blank ps = s.blank ps := by
  simp only [List.cons_subset] at hc; unfold State.reconGo
  (repeat' (first | (with_reducible rfl) | assumption | (simp [*]; done) | (with_reducible refine (blank_foldl _ (fun _ _ => ?_) _ _).trans ?_) | (with_reducible refine (blank_iterate _ (fun _ _ => ?_) _ _).trans ?_) | (with_reducible refine (blank_foldl_p _ (fun _ _ => ?_) _ _).trans ?_) | (with_reducible refine blank_fst (by assumption) ?_) | (with_reducible refine blank_snd (by assumption) ?_) | (with_reducible refine blank_some (by assumption) ?_) | split | (simp only [blank_ite]) | (simp [*, -List.foldl_append, -Option.foldl_toList])))
@[simp ↓] theorem State.zeroUnits_blank {ps : List Part} (s : State) (a : Nat) (hc : [Part.ftl] ⊆ ps) : (s.zeroUnits a).blank ps = s.blank ps := by
  simp only [List.cons_subset] at hc; unfold State.zeroUnits; simp [*]
@[simp ↓] theorem State.reconCount_blank {ps : List Part} (s : State) (r : Recon) (good : Bool) (hc : [Part.regs, .host, .ftl, .str, .health] ⊆ ps) : (s.reconCount r good).blank ps = s.blank ps := by
  simp only [List.cons_subset] at hc; unfold State.reconCount; simp [*]
@[simp ↓] theorem State.reconStart_blank {ps : List Part} (s : State) (client : ReadClient) (b j p cw : Nat) (hc : [Part.regs, .sys, .host, .ns, .ftl, .media, .str, .sea, .disp, .hrt, .health] ⊆ ps) : (s.reconStart client b j p cw).1.blank ps = s.blank ps := by
  simp only [List.cons_subset] at hc; unfold State.reconStart
  (repeat' (first | (with_reducible rfl) | assumption | (simp [*]; done) | (with_reducible refine (blank_foldl _ (fun _ _ => ?_) _ _).trans ?_) | (with_reducible refine (blank_iterate _ (fun _ _ => ?_) _ _).trans ?_) | (with_reducible refine (blank_foldl_p _ (fun _ _ => ?_) _ _).trans ?_) | (with_reducible refine blank_fst (by assumption) ?_) | (with_reducible refine blank_snd (by assumption) ?_) | (with_reducible refine blank_some (by assumption) ?_) | split | (simp only [blank_ite]) | (simp [*, -List.foldl_append, -Option.foldl_toList])))
@[simp ↓] theorem State.issueEntry_blank {ps : List Part} (s : State) (client : ReadClient) (e : MapEntry) (hc : [Part.regs, .sys, .host, .ns, .ftl, .media, .str, .sea, .disp, .hrt, .health] ⊆ ps) : (s.issueEntry client e).1.blank ps = s.blank ps := by
  simp only [List.cons_subset] at hc; unfold State.issueEntry
  (repeat' (first | (with_reducible rfl) | assumption | (simp [*]; done) | (with_reducible refine (blank_foldl _ (fun _ _ => ?_) _ _).trans ?_) | (with_reducible refine (blank_iterate _ (fun _ _ => ?_) _ _).trans ?_) | (with_reducible refine (blank_foldl_p _ (fun _ _ => ?_) _ _).trans ?_) | (with_reducible refine blank_fst (by assumption) ?_) | (with_reducible refine blank_snd (by assumption) ?_) | (with_reducible refine blank_some (by assumption) ?_) | split | (simp only [blank_ite]) | (simp [*, -List.foldl_append, -Option.foldl_toList])))
@[simp ↓] theorem State.startJob_blank {ps : List Part} (s : State) (job : ReadJob) (es : List MapEntry) (hc : [Part.regs, .sys, .host, .ns, .ftl, .media, .str, .sea, .disp, .hrt, .health] ⊆ ps) : (s.startJob job es).blank ps = s.blank ps := by
  simp only [List.cons_subset] at hc; unfold State.startJob; simp [*]
@[simp ↓] theorem State.issueErased_blank {ps : List Part} (s : State) (client : ReadClient) (es : List MapEntry) (hc : [Part.regs, .sys, .host, .ns, .ftl, .media, .str, .sea, .disp, .hrt, .health] ⊆ ps) : (s.issueErased client es).1.blank ps = s.blank ps := by
  simp only [List.cons_subset] at hc; unfold State.issueErased
  (repeat' (first | (with_reducible rfl) | assumption | (simp [*]; done) | (with_reducible refine (blank_foldl _ (fun _ _ => ?_) _ _).trans ?_) | (with_reducible refine (blank_iterate _ (fun _ _ => ?_) _ _).trans ?_) | (with_reducible refine (blank_foldl_p _ (fun _ _ => ?_) _ _).trans ?_) | (with_reducible refine blank_fst (by assumption) ?_) | (with_reducible refine blank_snd (by assumption) ?_) | (with_reducible refine blank_some (by assumption) ?_) | split | (simp only [blank_ite]) | (simp [*, -List.foldl_append, -Option.foldl_toList])))
@[simp ↓] theorem State.readErased_blank {ps : List Part} (s : State) (j : ReadJob) (es : List MapEntry) (hc : [Part.regs, .sys, .host, .ns, .ftl, .media, .str, .sea, .disp, .hrt, .health] ⊆ ps) : (s.readErased j es).blank ps = s.blank ps := by
  simp only [List.cons_subset] at hc; unfold State.readErased; simp [*]
@[simp ↓] theorem State.finishCopy_blank {ps : List Part} (s : State) (w : Who) (dst offset : Nat) (sources : List (Nat × LbaRange)) (hc : [Part.host, .ns, .health] ⊆ ps) : (s.finishCopy w dst offset sources).blank ps = s.blank ps := by
  simp only [List.cons_subset] at hc; unfold State.finishCopy; (repeat' split) <;> simp [*]
@[simp ↓] theorem State.countRead_blank {ps : List Part} (s : State) (f : Fn) (bytes : Nat) (hc : [Part.health] ⊆ ps) : (s.countRead f bytes).blank ps = s.blank ps := by
  simp only [List.cons_subset] at hc; unfold State.countRead; simp [*]
@[simp ↓] theorem State.finishKv_blank {ps : List Part} (s : State) (w : Who) (n : Ns) (key : List Byte) (bufferBytes : Nat) (needs : List (Nat × BitVec 32)) (hc : [Part.host, .health] ⊆ ps) : (s.finishKv w n key bufferBytes needs).blank ps = s.blank ps := by
  simp only [List.cons_subset] at hc; unfold State.finishKv; (repeat' split) <;> simp [*]
@[simp ↓] theorem State.finishRead_blank {ps : List Part} (s : State) (w : Who) (j : ReadJob) (n : Ns) (hc : [Part.host, .ns, .health] ⊆ ps) : (s.finishRead w j n).blank ps = s.blank ps := by
  simp only [List.cons_subset] at hc; unfold State.finishRead; (repeat' split) <;> simp [*]
@[simp ↓] theorem State.decodeRead_blank {ps : List Part} (s : State) (w : Who) (j : ReadJob) (n : Ns) (hc : [Part.regs, .sys, .host, .ns, .ftl, .media, .str, .sea, .disp, .hrt, .health] ⊆ ps) : (s.decodeRead w j n).blank ps = s.blank ps := by
  simp only [List.cons_subset] at hc; unfold State.decodeRead
  (repeat' (first | (with_reducible rfl) | assumption | (simp [*]; done) | (with_reducible refine (blank_foldl _ (fun _ _ => ?_) _ _).trans ?_) | (with_reducible refine (blank_iterate _ (fun _ _ => ?_) _ _).trans ?_) | (with_reducible refine (blank_foldl_p _ (fun _ _ => ?_) _ _).trans ?_) | (with_reducible refine blank_fst (by assumption) ?_) | (with_reducible refine blank_snd (by assumption) ?_) | (with_reducible refine blank_some (by assumption) ?_) | split | (simp only [blank_ite]) | (simp [*, -List.foldl_append, -Option.foldl_toList])))
@[simp ↓] theorem State.finishHost_blank {ps : List Part} (s : State) (w : Who) (j : ReadJob) (hc : [Part.regs, .sys, .host, .ns, .ftl, .media, .str, .sea, .disp, .hrt, .health] ⊆ ps) : (s.finishHost w j).blank ps = s.blank ps := by
  simp only [List.cons_subset] at hc; unfold State.finishHost; (repeat' split) <;> simp [*]
@[simp ↓] theorem State.reshapeRecord_blank {ps : List Part} (s : State) (r : Nat) (x : Band) (j i : Nat) (hc : [Part.str] ⊆ ps) : (s.reshapeRecord r x j i).blank ps = s.blank ps := by
  simp only [List.cons_subset] at hc; unfold State.reshapeRecord; simp [*]
@[simp ↓] theorem State.reshapeProgram_blank {ps : List Part} (s : State) (hc : [Part.regs, .sys, .host, .ns, .ftl, .media, .str, .sea, .disp, .hrt, .health] ⊆ ps) : s.reshapeProgram.blank ps = s.blank ps := by
  simp only [List.cons_subset] at hc; unfold State.reshapeProgram
  (repeat' (first | (with_reducible rfl) | assumption | (simp [*]; done) | (with_reducible refine (blank_foldl _ (fun _ _ => ?_) _ _).trans ?_) | (with_reducible refine (blank_iterate _ (fun _ _ => ?_) _ _).trans ?_) | (with_reducible refine (blank_foldl_p _ (fun _ _ => ?_) _ _).trans ?_) | (with_reducible refine blank_fst (by assumption) ?_) | (with_reducible refine blank_snd (by assumption) ?_) | (with_reducible refine blank_some (by assumption) ?_) | split | (simp only [blank_ite]) | (simp [*, -List.foldl_append, -Option.foldl_toList])))
@[simp ↓] theorem State.reshapeCheck_blank {ps : List Part} (s : State) (hc : [Part.regs, .sys, .host, .ns, .ftl, .media, .str, .sea, .disp, .hrt, .health] ⊆ ps) : s.reshapeCheck.blank ps = s.blank ps := by
  simp only [List.cons_subset] at hc; unfold State.reshapeCheck
  (repeat' (first | (with_reducible rfl) | assumption | (simp [*]; done) | (with_reducible refine (blank_foldl _ (fun _ _ => ?_) _ _).trans ?_) | (with_reducible refine (blank_iterate _ (fun _ _ => ?_) _ _).trans ?_) | (with_reducible refine (blank_foldl_p _ (fun _ _ => ?_) _ _).trans ?_) | (with_reducible refine blank_fst (by assumption) ?_) | (with_reducible refine blank_snd (by assumption) ?_) | (with_reducible refine blank_some (by assumption) ?_) | split | (simp only [blank_ite]) | (simp [*, -List.foldl_append, -Option.foldl_toList])))
@[simp ↓] theorem State.eraseBlocks_blank {ps : List Part} (s : State) (ms : List (Nat × Nat)) (hc : [Part.regs, .sys, .host, .ns, .ftl, .media, .str, .sea, .disp, .hrt, .health] ⊆ ps) : (s.eraseBlocks ms).blank ps = s.blank ps := by
  simp only [List.cons_subset] at hc; unfold State.eraseBlocks; simp [*]
@[simp ↓] theorem State.reshapeDying_blank {ps : List Part} (s : State) (k : Nat) (x : Band) (ms : List (Nat × Nat)) (hc : [Part.regs, .sys, .host, .ns, .ftl, .media, .str, .sea, .disp, .hrt, .health] ⊆ ps) : (s.reshapeDying k x ms).blank ps = s.blank ps := by
  simp only [List.cons_subset] at hc; unfold State.reshapeDying; simp [*]
@[simp ↓] theorem State.reshapeFresh_blank {ps : List Part} (s : State) (k p pages : Nat) (hc : [Part.regs, .sys, .host, .ns, .ftl, .media, .str, .sea, .disp, .hrt, .health] ⊆ ps) : (s.reshapeFresh k p pages).blank ps = s.blank ps := by
  simp only [List.cons_subset] at hc; unfold State.reshapeFresh
  (repeat' (first | (with_reducible rfl) | assumption | (simp [*]; done) | (with_reducible refine (blank_foldl _ (fun _ _ => ?_) _ _).trans ?_) | (with_reducible refine (blank_iterate _ (fun _ _ => ?_) _ _).trans ?_) | (with_reducible refine (blank_foldl_p _ (fun _ _ => ?_) _ _).trans ?_) | (with_reducible refine blank_fst (by assumption) ?_) | (with_reducible refine blank_snd (by assumption) ?_) | (with_reducible refine blank_some (by assumption) ?_) | split | (simp only [blank_ite]) | (simp [*, -List.foldl_append, -Option.foldl_toList])))
@[simp ↓] theorem State.reshapeMismatch_blank {ps : List Part} (s : State) (k j : Nat) (hc : [Part.regs, .sys, .host, .ns, .ftl, .media, .str, .sea, .disp, .hrt, .health] ⊆ ps) : (s.reshapeMismatch k j).blank ps = s.blank ps := by
  simp only [List.cons_subset] at hc; unfold State.reshapeMismatch; (repeat' split) <;> simp [*]
@[simp ↓] theorem State.reshapeRead_blank {ps : List Part} (s : State) (failed : Bool) (hc : [Part.regs, .sys, .host, .ns, .ftl, .media, .str, .sea, .disp, .hrt, .health] ⊆ ps) : (s.reshapeRead failed).blank ps = s.blank ps := by
  simp only [List.cons_subset] at hc; unfold State.reshapeRead; (repeat' split) <;> simp [*]
@[simp ↓] theorem State.mergeRead_blank {ps : List Part} (s : State) (j : ReadJob) (k : Nat) (hc : [Part.regs, .sys, .host, .ns, .ftl, .media, .str, .sea, .disp, .hrt, .health] ⊆ ps) : (s.mergeRead j k).blank ps = s.blank ps := by
  simp only [List.cons_subset] at hc; unfold State.mergeRead; simp [*]
@[simp ↓] theorem State.finishJob_blank {ps : List Part} (s : State) (j : ReadJob) (hc : [Part.regs, .sys, .host, .ns, .ftl, .media, .str, .sea, .disp, .hrt, .health] ⊆ ps) : (s.finishJob j).blank ps = s.blank ps := by
  simp only [List.cons_subset] at hc; unfold State.finishJob; dsimp only
  split
  · rfl
  split
  · simp [*]
  · rfl
  · split
    · simp [*]
    · simp [*]
  all_goals simp [*]
@[simp ↓] theorem State.jobPart_blank {ps : List Part} (s : State) (client : ReadClient) (n : Nat) (bad : Option Status) (hc : [Part.regs, .sys, .host, .ns, .ftl, .media, .str, .sea, .disp, .hrt, .health] ⊆ ps) : (s.jobPart client n bad).blank ps = s.blank ps := by
  simp only [List.cons_subset] at hc; unfold State.jobPart
  (repeat' (first | (with_reducible rfl) | assumption | (simp [*]; done) | (with_reducible refine (blank_foldl _ (fun _ _ => ?_) _ _).trans ?_) | (with_reducible refine (blank_iterate _ (fun _ _ => ?_) _ _).trans ?_) | (with_reducible refine (blank_foldl_p _ (fun _ _ => ?_) _ _).trans ?_) | (with_reducible refine blank_fst (by assumption) ?_) | (with_reducible refine blank_snd (by assumption) ?_) | (with_reducible refine blank_some (by assumption) ?_) | split | (simp only [blank_ite]) | (simp [*, -List.foldl_append, -Option.foldl_toList])))
@[simp ↓] theorem State.rebuildCol_blank {ps : List Part} (s : State) (cw : Nat) (good : Bool) (hc : [Part.regs, .sys, .host, .ns, .ftl, .media, .str, .sea, .disp, .hrt, .health] ⊆ ps) : (s.rebuildCol cw good).blank ps = s.blank ps := by
  simp only [List.cons_subset] at hc; unfold State.rebuildCol; (repeat' split) <;> simp [*]
@[simp ↓] theorem State.deliver_blank {ps : List Part} (s : State) (client : ReadClient) (cw : Nat) (bad : Option Status) (hc : [Part.regs, .sys, .host, .ns, .ftl, .media, .str, .sea, .disp, .hrt, .health] ⊆ ps) : (s.deliver client cw bad).blank ps = s.blank ps := by
  simp only [List.cons_subset] at hc; unfold State.deliver; (repeat' split) <;> simp [*]
@[simp ↓] theorem State.reconFor_blank {ps : List Part} (s : State) (client : ReadClient) (b j p cw : Nat) (hc : [Part.regs, .sys, .host, .ns, .ftl, .media, .str, .sea, .disp, .hrt, .health] ⊆ ps) : (s.reconFor client b j p cw).blank ps = s.blank ps := by
  simp only [List.cons_subset] at hc; unfold State.reconFor
  (repeat' (first | (with_reducible rfl) | assumption | (simp [*]; done) | (with_reducible refine (blank_foldl _ (fun _ _ => ?_) _ _).trans ?_) | (with_reducible refine (blank_iterate _ (fun _ _ => ?_) _ _).trans ?_) | (with_reducible refine (blank_foldl_p _ (fun _ _ => ?_) _ _).trans ?_) | (with_reducible refine blank_fst (by assumption) ?_) | (with_reducible refine blank_snd (by assumption) ?_) | (with_reducible refine blank_some (by assumption) ?_) | split | (simp only [blank_ite]) | (simp [*, -List.foldl_append, -Option.foldl_toList])))
@[simp ↓] theorem State.reconPart_blank {ps : List Part} (s : State) (id slot : Nat) (good : Bool) (hc : [Part.regs, .sys, .host, .ns, .ftl, .media, .str, .sea, .disp, .hrt, .health] ⊆ ps) : (s.reconPart id slot good).blank ps = s.blank ps := by
  simp only [List.cons_subset] at hc; unfold State.reconPart
  (repeat' (first | (with_reducible rfl) | assumption | (simp [*]; done) | (with_reducible refine (blank_foldl _ (fun _ _ => ?_) _ _).trans ?_) | (with_reducible refine (blank_iterate _ (fun _ _ => ?_) _ _).trans ?_) | (with_reducible refine (blank_foldl_p _ (fun _ _ => ?_) _ _).trans ?_) | (with_reducible refine blank_fst (by assumption) ?_) | (with_reducible refine blank_snd (by assumption) ?_) | (with_reducible refine blank_some (by assumption) ?_) | split | (simp only [blank_ite]) | (simp [*, -List.foldl_append, -Option.foldl_toList])))
@[simp ↓] theorem State.systemRead_blank {ps : List Part} (s : State) (area copy : Nat) (hc : [Part.regs, .sys, .host, .ns, .ftl, .media, .str, .sea, .disp, .hrt, .health] ⊆ ps) : (s.systemRead area copy).blank ps = s.blank ps := by
  simp only [List.cons_subset] at hc; unfold State.systemRead; (repeat' split) <;> simp [*]
@[simp ↓] theorem State.runJob_blank {ps : List Part} (s : State) (job : ReadJob) (es : List MapEntry) (hc : [Part.regs, .sys, .host, .ns, .ftl, .media, .str, .sea, .disp, .hrt, .health] ⊆ ps) : (s.runJob job es).blank ps = s.blank ps := by
  simp only [List.cons_subset] at hc; unfold State.runJob
  (repeat' (first | (with_reducible rfl) | assumption | (simp [*]; done) | (with_reducible refine (blank_foldl _ (fun _ _ => ?_) _ _).trans ?_) | (with_reducible refine (blank_iterate _ (fun _ _ => ?_) _ _).trans ?_) | (with_reducible refine (blank_foldl_p _ (fun _ _ => ?_) _ _).trans ?_) | (with_reducible refine blank_fst (by assumption) ?_) | (with_reducible refine blank_snd (by assumption) ?_) | (with_reducible refine blank_some (by assumption) ?_) | split | (simp only [blank_ite]) | (simp [*, -List.foldl_append, -Option.foldl_toList])))
@[simp ↓] theorem State.startHeldReads_blank {ps : List Part} (s : State) (hc : [Part.regs, .sys, .host, .ns, .ftl, .media, .str, .sea, .disp, .hrt, .health] ⊆ ps) : s.startHeldReads.blank ps = s.blank ps := by
  simp only [List.cons_subset] at hc; unfold State.startHeldReads; simp [*]
@[simp ↓] theorem State.cwDelivered_blank {ps : List Part} (s : State) (client : ReadClient) (lun block cw : Nat) (hc : [Part.regs, .sys, .host, .ns, .ftl, .media, .str, .sea, .disp, .hrt, .health] ⊆ ps) : (s.cwDelivered client lun block cw).blank ps = s.blank ps := by
  simp only [List.cons_subset] at hc; unfold State.cwDelivered; (repeat' split) <;> simp [*]
@[simp ↓] theorem State.erase_blank {ps : List Part} (s : State) (client : ReadClient) (lun block page : Nat) (cws : List Nat) (hc : [Part.regs, .sys, .host, .ns, .ftl, .media, .str, .sea, .disp, .hrt, .health] ⊆ ps) : (s.erase client lun block page cws).blank ps = s.blank ps := by
  simp only [List.cons_subset] at hc; unfold State.erase
  (repeat' (first | (with_reducible rfl) | assumption | (simp [*]; done) | (with_reducible refine (blank_foldl _ (fun _ _ => ?_) _ _).trans ?_) | (with_reducible refine (blank_iterate _ (fun _ _ => ?_) _ _).trans ?_) | (with_reducible refine (blank_foldl_p _ (fun _ _ => ?_) _ _).trans ?_) | (with_reducible refine blank_fst (by assumption) ?_) | (with_reducible refine blank_snd (by assumption) ?_) | (with_reducible refine blank_some (by assumption) ?_) | split | (simp only [blank_ite]) | (simp [*, -List.foldl_append, -Option.foldl_toList])))
@[simp ↓] theorem State.flushSlot_blank {ps : List Part} (s : State) (k : Nat) (hc : [Part.regs, .sys, .host, .ns, .ftl, .media, .str, .sea, .disp, .hrt, .health] ⊆ ps) : (s.flushSlot k).blank ps = s.blank ps := by
  simp only [List.cons_subset] at hc; unfold State.flushSlot; dsimp only
  split
  · rfl
  split <;> split <;> simp [*]
@[simp ↓] theorem State.badTableWrite_blank {ps : List Part} (s : State) (hc : [Part.media] ⊆ ps) : s.badTableWrite.blank ps = s.blank ps := by
  simp only [List.cons_subset] at hc; unfold State.badTableWrite; simp [*]
@[simp ↓] theorem State.retireBlock_blank {ps : List Part} (s : State) (lun block : Nat) (hc : [Part.ftl, .media, .health] ⊆ ps) : (s.retireBlock lun block).blank ps = s.blank ps := by
  simp only [List.cons_subset] at hc; unfold State.retireBlock; simp [*]
@[simp ↓] theorem State.dropPrograms_blank {ps : List Part} (s : State) (lun block : Nat) (hc : [Part.regs, .sys, .host, .ns, .ftl, .media, .str, .sea, .disp, .hrt, .health] ⊆ ps) : (s.dropPrograms lun block).blank ps = s.blank ps := by
  simp only [List.cons_subset] at hc; unfold State.dropPrograms
  (repeat' (first | (with_reducible rfl) | assumption | (simp [*]; done) | (with_reducible refine (blank_foldl _ (fun _ _ => ?_) _ _).trans ?_) | (with_reducible refine (blank_iterate _ (fun _ _ => ?_) _ _).trans ?_) | (with_reducible refine (blank_foldl_p _ (fun _ _ => ?_) _ _).trans ?_) | (with_reducible refine blank_fst (by assumption) ?_) | (with_reducible refine blank_snd (by assumption) ?_) | (with_reducible refine blank_some (by assumption) ?_) | split | (simp only [blank_ite]) | (simp [*, -List.foldl_append, -Option.foldl_toList])))
@[simp ↓] theorem State.copyAgain_blank {ps : List Part} (s : State) (b : Nat) (stripes : List Nat) (hc : [Part.regs, .sys, .host, .ns, .ftl, .media, .str, .sea, .disp, .hrt, .health] ⊆ ps) : (s.copyAgain b stripes).blank ps = s.blank ps := by
  simp only [List.cons_subset] at hc; unfold State.copyAgain; simp [*]
@[simp ↓] theorem State.placeAgain_blank {ps : List Part} (s : State) (b p : Nat) (stripes : List Nat) (hc : [Part.regs, .sys, .host, .ns, .ftl, .media, .str, .sea, .disp, .hrt, .health] ⊆ ps) : (s.placeAgain b p stripes).blank ps = s.blank ps := by
  simp only [List.cons_subset] at hc; unfold State.placeAgain; extract_lets s1 s2 s3 s4 s5 s6 s7 s8 s9
  have e6 : s6.blank ps = s.blank ps := by
    simp only [s6, s5, s4]
    split
    · split <;> simp [hc]
    · simp [hc]
  have e7 : s7.blank ps = s.blank ps := by
    simp [s7, hc, e6]
  simp [s9, s8, e7, hc]
@[simp ↓] theorem State.copyTargetFails_blank {ps : List Part} (s : State) (b : Nat) (hc : [Part.regs] ⊆ ps) : (s.copyTargetFails b).blank ps = s.blank ps := by
  simp only [List.cons_subset] at hc; unfold State.copyTargetFails; (repeat' split) <;> simp [*]
@[simp ↓] theorem State.reshapeMaps_blank {ps : List Part} (s : State) (hc : [Part.regs, .sys, .host, .ns, .ftl, .media, .str, .sea, .disp, .hrt, .health] ⊆ ps) : s.reshapeMaps.blank ps = s.blank ps := by
  simp only [List.cons_subset] at hc; unfold State.reshapeMaps; simp [*]
@[simp ↓] theorem State.reshapeSwitch_blank {ps : List Part} (s : State) (r : Nat) (hc : [Part.regs, .sys, .host, .ns, .ftl, .media, .str, .sea, .disp, .hrt, .health] ⊆ ps) : (s.reshapeSwitch r).blank ps = s.blank ps := by
  simp only [List.cons_subset] at hc; unfold State.reshapeSwitch; simp [*]
@[simp ↓] theorem State.reshapeIssue_blank {ps : List Part} (s : State) (hc : [Part.regs, .sys, .host, .ns, .ftl, .media, .str, .sea, .disp, .hrt, .health] ⊆ ps) : s.reshapeIssue.blank ps = s.blank ps := by
  simp only [List.cons_subset] at hc; unfold State.reshapeIssue
  (repeat' (first | (with_reducible rfl) | assumption | (simp [*]; done) | (with_reducible refine (blank_foldl _ (fun _ _ => ?_) _ _).trans ?_) | (with_reducible refine (blank_iterate _ (fun _ _ => ?_) _ _).trans ?_) | (with_reducible refine (blank_foldl_p _ (fun _ _ => ?_) _ _).trans ?_) | (with_reducible refine blank_fst (by assumption) ?_) | (with_reducible refine blank_snd (by assumption) ?_) | (with_reducible refine blank_some (by assumption) ?_) | split | (simp only [blank_ite]) | (simp [*, -List.foldl_append, -Option.foldl_toList])))
@[simp ↓] theorem State.reshapeMark_blank {ps : List Part} (s : State) (r from_ upto : Nat) (hc : [Part.media, .health] ⊆ ps) : (s.reshapeMark r from_ upto).blank ps = s.blank ps := by
  simp only [List.cons_subset] at hc; unfold State.reshapeMark; simp [*]
@[simp ↓] theorem State.reshapeOpen_blank {ps : List Part} (s : State) (r k : Nat) (hc : [Part.regs, .sys, .host, .ns, .ftl, .media, .str, .sea, .disp, .hrt, .health] ⊆ ps) : (s.reshapeOpen r k).blank ps = s.blank ps := by
  simp only [List.cons_subset] at hc; unfold State.reshapeOpen
  (repeat' (first | (with_reducible rfl) | assumption | (simp [*]; done) | (with_reducible refine (blank_foldl _ (fun _ _ => ?_) _ _).trans ?_) | (with_reducible refine (blank_iterate _ (fun _ _ => ?_) _ _).trans ?_) | (with_reducible refine (blank_foldl_p _ (fun _ _ => ?_) _ _).trans ?_) | (with_reducible refine blank_fst (by assumption) ?_) | (with_reducible refine blank_snd (by assumption) ?_) | (with_reducible refine blank_some (by assumption) ?_) | split | (simp only [blank_ite]) | (simp [*, -List.foldl_append, -Option.foldl_toList])))
@[simp ↓] theorem State.reshapeStripe_blank {ps : List Part} (s : State) (r j : Nat) (x : Band) (hc : [Part.regs, .sys, .host, .ns, .ftl, .media, .str, .sea, .disp, .hrt, .health] ⊆ ps) : (s.reshapeStripe r j x).blank ps = s.blank ps := by
  simp only [List.cons_subset] at hc; unfold State.reshapeStripe; simp [*]
@[simp ↓] theorem State.reshapePage_blank {ps : List Part} (s : State) (hc : [Part.regs, .sys, .host, .ns, .ftl, .media, .str, .sea, .disp, .hrt, .health] ⊆ ps) : s.reshapePage.blank ps = s.blank ps := by
  simp only [List.cons_subset] at hc; unfold State.reshapePage
  (repeat' (first | (with_reducible rfl) | assumption | (simp [*]; done) | (with_reducible refine (blank_foldl _ (fun _ _ => ?_) _ _).trans ?_) | (with_reducible refine (blank_iterate _ (fun _ _ => ?_) _ _).trans ?_) | (with_reducible refine (blank_foldl_p _ (fun _ _ => ?_) _ _).trans ?_) | (with_reducible refine blank_fst (by assumption) ?_) | (with_reducible refine blank_snd (by assumption) ?_) | (with_reducible refine blank_some (by assumption) ?_) | split | (simp only [blank_ite]) | (simp [*, -List.foldl_append, -Option.foldl_toList])))
@[simp ↓] theorem State.reshapeReplace_blank {ps : List Part} (s : State) (k j p : Nat) (hc : [Part.regs, .sys, .host, .ns, .ftl, .media, .str, .sea, .disp, .hrt, .health] ⊆ ps) : (s.reshapeReplace k j p).blank ps = s.blank ps := by
  simp only [List.cons_subset] at hc; unfold State.reshapeReplace; (repeat' split) <;> simp [*]
@[simp ↓] theorem State.moveSystem_blank {ps : List Part} (s : State) (l : Nat) (hc : [Part.regs, .sys, .host, .ns, .ftl, .media, .str, .sea, .disp, .hrt, .health] ⊆ ps) : (s.moveSystem l).blank ps = s.blank ps := by
  simp only [List.cons_subset] at hc; unfold State.moveSystem
  (repeat' (first | (with_reducible rfl) | assumption | (simp [*]; done) | (with_reducible refine (blank_foldl _ (fun _ _ => ?_) _ _).trans ?_) | (with_reducible refine (blank_iterate _ (fun _ _ => ?_) _ _).trans ?_) | (with_reducible refine (blank_foldl_p _ (fun _ _ => ?_) _ _).trans ?_) | (with_reducible refine blank_fst (by assumption) ?_) | (with_reducible refine blank_snd (by assumption) ?_) | (with_reducible refine blank_some (by assumption) ?_) | split | (simp only [blank_ite]) | (simp [*, -List.foldl_append, -Option.foldl_toList])))
@[simp ↓] theorem State.eraseOfBand_blank {ps : List Part} (s : State) (band : Option Nat) (lun block : Nat) (hc : [Part.regs, .sys, .host, .ns, .ftl, .media, .str, .sea, .disp, .hrt, .health] ⊆ ps) : (s.eraseOfBand band lun block).blank ps = s.blank ps := by
  simp only [List.cons_subset] at hc; unfold State.eraseOfBand; (repeat' split) <;> simp [*]
@[simp ↓] theorem State.reshapeSkip_blank {ps : List Part} (s : State) (hc : [Part.regs, .sys, .host, .ns, .ftl, .media, .str, .sea, .disp, .hrt, .health] ⊆ ps) : s.reshapeSkip.blank ps = s.blank ps := by
  simp only [List.cons_subset] at hc; unfold State.reshapeSkip
  (repeat' (first | (with_reducible rfl) | assumption | (simp [*]; done) | (with_reducible refine (blank_foldl _ (fun _ _ => ?_) _ _).trans ?_) | (with_reducible refine (blank_iterate _ (fun _ _ => ?_) _ _).trans ?_) | (with_reducible refine (blank_foldl_p _ (fun _ _ => ?_) _ _).trans ?_) | (with_reducible refine blank_fst (by assumption) ?_) | (with_reducible refine blank_snd (by assumption) ?_) | (with_reducible refine blank_some (by assumption) ?_) | split | (simp only [blank_ite]) | (simp [*, -List.foldl_append, -Option.foldl_toList])))
@[simp ↓] theorem State.dumpBack_blank {ps : List Part} (s : State) (copy : Nat) (pages : List Nat) (hc : [Part.regs, .sys, .host, .ns, .ftl, .media, .str, .sea, .disp, .hrt, .health] ⊆ ps) : (s.dumpBack copy pages).blank ps = s.blank ps := by
  simp only [List.cons_subset] at hc; unfold State.dumpBack
  (repeat' (first | (with_reducible rfl) | assumption | (simp [*]; done) | (with_reducible refine (blank_foldl _ (fun _ _ => ?_) _ _).trans ?_) | (with_reducible refine (blank_iterate _ (fun _ _ => ?_) _ _).trans ?_) | (with_reducible refine (blank_foldl_p _ (fun _ _ => ?_) _ _).trans ?_) | (with_reducible refine blank_fst (by assumption) ?_) | (with_reducible refine blank_snd (by assumption) ?_) | (with_reducible refine blank_some (by assumption) ?_) | split | (simp only [blank_ite]) | (simp [*, -List.foldl_append, -Option.foldl_toList])))
@[simp ↓] theorem State.reshapeStop_blank {ps : List Part} (s : State) (hc : [Part.regs, .sys, .host, .ns, .ftl, .media, .str, .sea, .disp, .hrt, .health] ⊆ ps) : s.reshapeStop.blank ps = s.blank ps := by
  simp only [List.cons_subset] at hc; unfold State.reshapeStop; simp [*]
@[simp ↓] theorem State.rebuildStop_blank {ps : List Part} (s : State) (hc : [Part.str] ⊆ ps) : s.rebuildStop.blank ps = s.blank ps := by
  simp only [List.cons_subset] at hc; unfold State.rebuildStop; simp [*]
@[simp ↓] theorem State.bootReady_blank {ps : List Part} (s : State) (hc : [Part.regs, .sys, .host, .ns, .ftl, .media, .str, .sea, .disp, .hrt, .boot, .health] ⊆ ps) : s.bootReady.blank ps = s.blank ps := by
  simp only [List.cons_subset] at hc; unfold State.bootReady
  (repeat' (first | (with_reducible rfl) | assumption | (simp [*]; done) | (with_reducible refine (blank_foldl _ (fun _ _ => ?_) _ _).trans ?_) | (with_reducible refine (blank_iterate _ (fun _ _ => ?_) _ _).trans ?_) | (with_reducible refine (blank_foldl_p _ (fun _ _ => ?_) _ _).trans ?_) | (with_reducible refine blank_fst (by assumption) ?_) | (with_reducible refine blank_snd (by assumption) ?_) | (with_reducible refine blank_some (by assumption) ?_) | (refine (State.onBoot_blank _ _ (by simp [*]) rfl rfl rfl).trans ?_) | split | (simp only [blank_ite]) | (simp [*, -List.foldl_append, -Option.foldl_toList])))
@[simp ↓] theorem State.recoverDone_blank {ps : List Part} (s : State) (hc : [Part.regs, .sys, .host, .ns, .ftl, .media, .str, .sea, .disp, .hrt, .boot, .health] ⊆ ps) : s.recoverDone.blank ps = s.blank ps := by
  simp only [List.cons_subset] at hc; unfold State.recoverDone; simp [*]
@[simp ↓] theorem State.failLun_blank {ps : List Part} (s : State) (l cause : Nat) (hc : [Part.regs, .sys, .host, .ns, .ftl, .media, .str, .sea, .disp, .hrt, .boot, .health] ⊆ ps) : (s.failLun l cause).blank ps = s.blank ps := by
  simp only [List.cons_subset] at hc; unfold State.failLun
  (repeat' (first | (with_reducible rfl) | assumption | (simp [*]; done) | (with_reducible refine (blank_foldl _ (fun _ _ => ?_) _ _).trans ?_) | (with_reducible refine (blank_iterate _ (fun _ _ => ?_) _ _).trans ?_) | (with_reducible refine (blank_foldl_p _ (fun _ _ => ?_) _ _).trans ?_) | (with_reducible refine blank_fst (by assumption) ?_) | (with_reducible refine blank_snd (by assumption) ?_) | (with_reducible refine blank_some (by assumption) ?_) | split | (simp only [blank_ite]) | (simp [*, -List.foldl_append, -Option.foldl_toList])))
@[simp ↓] theorem State.blockFails_blank {ps : List Part} (s : State) (lun block : Nat) (hc : [Part.regs, .sys, .host, .ns, .ftl, .media, .str, .sea, .disp, .hrt, .boot, .health] ⊆ ps) : (s.blockFails lun block).blank ps = s.blank ps := by
  simp only [List.cons_subset] at hc; unfold State.blockFails; simp [*]
@[simp ↓] theorem State.channelOffline_blank {ps : List Part} (s : State) (c : Nat) (hc : [Part.regs, .sys, .host, .ns, .ftl, .media, .str, .sea, .disp, .hrt, .boot, .health] ⊆ ps) : (s.channelOffline c).blank ps = s.blank ps := by
  simp only [List.cons_subset] at hc; unfold State.channelOffline; simp [*]
@[simp ↓] theorem State.beginVictim_blank {ps : List Part} (s : State) (v : Nat) (hc : [Part.regs, .sys, .host, .ns, .ftl, .media, .str, .sea, .disp, .hrt, .health] ⊆ ps) : (s.beginVictim v).blank ps = s.blank ps := by
  simp only [List.cons_subset] at hc; unfold State.beginVictim; simp [*]
@[simp ↓] theorem State.rebuildEnd_blank {ps : List Part} (s : State) (r : Rebuild) (hc : [Part.regs, .host, .ftl, .str, .health] ⊆ ps) : (s.rebuildEnd r).blank ps = s.blank ps := by
  simp only [List.cons_subset] at hc; unfold State.rebuildEnd; simp [*]
@[simp ↓] theorem State.rebuildNext_blank {ps : List Part} (s : State) (r : Rebuild) (hc : [Part.regs, .sys, .host, .ns, .ftl, .media, .str, .sea, .disp, .hrt, .health] ⊆ ps) : (s.rebuildNext r).blank ps = s.blank ps := by
  simp only [List.cons_subset] at hc; unfold State.rebuildNext
  (repeat' (first | (with_reducible rfl) | assumption | (simp [*]; done) | (with_reducible refine (blank_foldl _ (fun _ _ => ?_) _ _).trans ?_) | (with_reducible refine (blank_iterate _ (fun _ _ => ?_) _ _).trans ?_) | (with_reducible refine (blank_foldl_p _ (fun _ _ => ?_) _ _).trans ?_) | (with_reducible refine blank_fst (by assumption) ?_) | (with_reducible refine blank_snd (by assumption) ?_) | (with_reducible refine blank_some (by assumption) ?_) | split | (simp only [blank_ite]) | (simp [*, -List.foldl_append, -Option.foldl_toList])))
@[simp ↓] theorem State.rebuildPage_blank {ps : List Part} (s : State) (r : Rebuild) (hc : [Part.regs, .sys, .host, .ns, .ftl, .media, .str, .sea, .disp, .hrt, .health] ⊆ ps) : (s.rebuildPage r).blank ps = s.blank ps := by
  simp only [List.cons_subset] at hc; unfold State.rebuildPage; simp [*]
@[simp ↓] theorem State.eraseOk_blank {ps : List Part} (s : State) (lun block : Nat) (band : Option Nat) (hc : [Part.regs, .sys, .host, .ns, .ftl, .media, .str, .sea, .disp, .hrt, .health] ⊆ ps) : (s.eraseOk lun block band).blank ps = s.blank ps := by
  simp only [List.cons_subset] at hc; unfold State.eraseOk; simp [*]
@[simp ↓] theorem State.eraseFailed_blank {ps : List Part} (s : State) (lun block : Nat) (band : Option Nat) (hc : [Part.regs, .sys, .host, .ns, .ftl, .media, .str, .sea, .disp, .hrt, .boot, .health] ⊆ ps) : (s.eraseFailed lun block band).blank ps = s.blank ps := by
  simp only [List.cons_subset] at hc; unfold State.eraseFailed; simp [*]
@[simp ↓] theorem State.writeFailed_blank {ps : List Part} (s : State) (lun : Nat) (c : MediaCmd) (hc : [Part.regs, .sys, .host, .ns, .ftl, .media, .str, .sea, .disp, .hrt, .boot, .health] ⊆ ps) : (s.writeFailed lun c).blank ps = s.blank ps := by
  simp only [List.cons_subset] at hc; unfold State.writeFailed
  (repeat' (first | (with_reducible rfl) | assumption | (simp [*]; done) | (with_reducible refine (blank_foldl _ (fun _ _ => ?_) _ _).trans ?_) | (with_reducible refine (blank_iterate _ (fun _ _ => ?_) _ _).trans ?_) | (with_reducible refine (blank_foldl_p _ (fun _ _ => ?_) _ _).trans ?_) | (with_reducible refine blank_fst (by assumption) ?_) | (with_reducible refine blank_snd (by assumption) ?_) | (with_reducible refine blank_some (by assumption) ?_) | split | (simp only [blank_ite]) | (simp [*, -List.foldl_append, -Option.foldl_toList])))
@[simp ↓] theorem State.onLynxTable_blank {ps : List Part} (s : State) (t : Nat) (g : LynxTable → LynxTable) (hc : [Part.lynx] ⊆ ps) : (s.onLynxTable t g).blank ps = s.blank ps := by
  simp only [List.cons_subset] at hc; unfold State.onLynxTable; simp [*]
@[simp ↓] theorem State.countSearch_blank {ps : List Part} (s : State) (w : Nat) (hc : [Part.regs] ⊆ ps) : (s.countSearch w).blank ps = s.blank ps := by
  simp only [List.cons_subset] at hc; unfold State.countSearch; simp [*]
@[simp ↓] theorem State.countMismatches_blank {ps : List Part} (s : State) (n : Nat) (hc : [Part.regs, .health] ⊆ ps) : (s.countMismatches n).blank ps = s.blank ps := by
  simp only [List.cons_subset] at hc; unfold State.countMismatches; simp [*]
@[simp ↓] theorem State.lynxSoft_blank {ps : List Part} (s : State) (table copy : Nat) (es : List SoftEntry) (hc : [Part.lynx] ⊆ ps) : (s.lynxSoft table copy es).blank ps = s.blank ps := by
  simp only [List.cons_subset] at hc; unfold State.lynxSoft; simp [*]
@[simp ↓] theorem State.afterSearch_blank {ps : List Part} (s : State) (table : Nat) (r : Searched) (hc : [Part.regs, .lynx, .health] ⊆ ps) : (s.afterSearch table r).blank ps = s.blank ps := by
  simp only [List.cons_subset] at hc; unfold State.afterSearch; simp [*]
@[simp ↓] theorem State.searchOnce_blank {ps : List Part} (s : State) (table copy : Nat) (x : LynxTable) (key : List Byte) (hc : [Part.regs, .lynx, .health] ⊆ ps) : (s.searchOnce table copy x key).1.blank ps = s.blank ps := by
  simp only [List.cons_subset] at hc; unfold State.searchOnce; simp [*]
@[simp ↓] theorem State.lynxInsert_blank {ps : List Part} (s : State) (table : Nat) (key : List Byte) (value : Nat) (found : Bool) (hc : [Part.regs, .lynx] ⊆ ps) : (s.lynxInsert table key value found).1.blank ps = s.blank ps := by
  simp only [List.cons_subset] at hc; unfold State.lynxInsert; (repeat' split) <;> simp [*]
@[simp ↓] theorem State.kvSearch_blank {ps : List Part} (s : State) (table : Nat) (key : List Byte) (hc : [Part.regs, .lynx, .health] ⊆ ps) : (s.kvSearch table key).1.blank ps = s.blank ps := by
  simp only [List.cons_subset] at hc; unfold State.kvSearch
  (repeat' (first | (with_reducible rfl) | assumption | (simp [*]; done) | (with_reducible refine (blank_foldl _ (fun _ _ => ?_) _ _).trans ?_) | (with_reducible refine (blank_iterate _ (fun _ _ => ?_) _ _).trans ?_) | (with_reducible refine (blank_foldl_p _ (fun _ _ => ?_) _ _).trans ?_) | (with_reducible refine blank_fst (by assumption) ?_) | (with_reducible refine blank_snd (by assumption) ?_) | (with_reducible refine blank_some (by assumption) ?_) | split | (simp only [blank_ite]) | (simp [*, -List.foldl_append, -Option.foldl_toList])))
@[simp ↓] theorem State.kvIndexDelete_blank {ps : List Part} (s : State) (table : Nat) (key : List Byte) (hc : [Part.lynx] ⊆ ps) : (s.kvIndexDelete table key).blank ps = s.blank ps := by
  simp only [List.cons_subset] at hc; unfold State.kvIndexDelete; simp [*]
@[simp ↓] theorem State.kvIndexInsert_blank {ps : List Part} (s : State) (table : Nat) (key : List Byte) (hc : [Part.regs, .lynx] ⊆ ps) : (s.kvIndexInsert table key).blank ps = s.blank ps := by
  simp only [List.cons_subset] at hc; unfold State.kvIndexInsert
  (repeat' (first | (with_reducible rfl) | assumption | (simp [*]; done) | (with_reducible refine (blank_foldl _ (fun _ _ => ?_) _ _).trans ?_) | (with_reducible refine (blank_iterate _ (fun _ _ => ?_) _ _).trans ?_) | (with_reducible refine (blank_foldl_p _ (fun _ _ => ?_) _ _).trans ?_) | (with_reducible refine blank_fst (by assumption) ?_) | (with_reducible refine blank_snd (by assumption) ?_) | (with_reducible refine blank_some (by assumption) ?_) | split | (simp only [blank_ite]) | (simp [*, -List.foldl_append, -Option.foldl_toList])))
@[simp ↓] theorem State.lynxStage_blank {ps : List Part} (s : State) (hc : [Part.regs] ⊆ ps) : s.lynxStage.blank ps = s.blank ps := by
  simp only [List.cons_subset] at hc; unfold State.lynxStage; (repeat' split) <;> simp [*]
@[simp ↓] theorem State.lynxStageCfg_blank {ps : List Part} (s : State) (v : W32) (hc : [Part.regs] ⊆ ps) : (s.lynxStageCfg v).blank ps = s.blank ps := by
  simp only [List.cons_subset] at hc; unfold State.lynxStageCfg; simp [*]
@[simp ↓] theorem State.lynxRefused_blank {ps : List Part} (s : State) (b : Bool) (hc : [Part.regs] ⊆ ps) : (s.lynxRefused b).blank ps = s.blank ps := by
  simp only [List.cons_subset] at hc; unfold State.lynxRefused; simp [*]
@[simp ↓] theorem State.lynxResult_blank {ps : List Part} (s : State) (n : Nat) (hc : [Part.regs] ⊆ ps) : (s.lynxResult n).blank ps = s.blank ps := by
  simp only [List.cons_subset] at hc; unfold State.lynxResult; simp [*]
@[simp ↓] theorem State.lynxRecord_blank {ps : List Part} (s : State) (table index : Nat) (hc : [Part.regs] ⊆ ps) : (s.lynxRecord table index).blank ps = s.blank ps := by
  simp only [List.cons_subset] at hc; unfold State.lynxRecord; simp [*]
@[simp ↓] theorem State.lynxLose_blank {ps : List Part} (s : State) (table index : Nat) (hc : [Part.regs, .sys, .host, .lynx, .health] ⊆ ps) : (s.lynxLose table index).blank ps = s.blank ps := by
  simp only [List.cons_subset] at hc; unfold State.lynxLose; (repeat' split) <;> simp [*]
@[simp ↓] theorem State.lynxCompared_blank {ps : List Part} (s : State) (table index copies : Nat) (seen : CompareSeen) (hc : [Part.regs, .sys, .host, .lynx, .health] ⊆ ps) : (s.lynxCompared table index copies seen).blank ps = s.blank ps := by
  simp only [List.cons_subset] at hc; unfold State.lynxCompared; (repeat' split) <;> simp [*]
@[simp ↓] theorem State.lynxReloaded_blank {ps : List Part} (s : State) (hc : [Part.lynx] ⊆ ps) : s.lynxReloaded.blank ps = s.blank ps := by
  simp only [List.cons_subset] at hc; unfold State.lynxReloaded; simp [*]
@[simp ↓] theorem State.sprintVerifies_blank {ps : List Part} (s : State) (m : Mode) (hc : [Part.lynx] ⊆ ps) : (s.sprintVerifies m).blank ps = s.blank ps := by
  simp only [List.cons_subset] at hc; unfold State.sprintVerifies; simp [*]
@[simp ↓] theorem State.lynxReload_blank {ps : List Part} (s : State) (hc : [Part.lynx] ⊆ ps) : s.lynxReload.blank ps = s.blank ps := by
  simp only [List.cons_subset] at hc; unfold State.lynxReload; simp [*]
@[simp ↓] theorem State.onDramChan_blank {ps : List Part} (s : State) (c : Nat) (g : DramChan → DramChan) (hc : [Part.memory] ⊆ ps) : (s.onDramChan c g).blank ps = s.blank ps := by
  simp only [List.cons_subset] at hc; unfold State.onDramChan; simp [*]
@[simp ↓] theorem State.writeWord_blank {ps : List Part} (s : State) (word : Nat) (whole : Bool) (hc : [Part.regs, .sys, .host, .ns, .ftl, .media, .str, .sea, .disp, .hrt, .memory, .health] ⊆ ps) : (s.writeWord word whole).blank ps = s.blank ps := by
  simp only [List.cons_subset] at hc; unfold State.writeWord; simp [*]
@[simp ↓] theorem State.dramWrite_blank {ps : List Part} (s : State) (a : Nat) (bs : List Byte) (hc : [Part.regs, .sys, .host, .ns, .ftl, .media, .str, .sea, .disp, .hrt, .memory, .health] ⊆ ps) : (s.dramWrite a bs).blank ps = s.blank ps := by
  simp only [List.cons_subset] at hc; unfold State.dramWrite; simp [*]
@[simp ↓] theorem dmaWrite_blank {ps : List Part} (s : State) (hv : HostView) (space : Nat) (f : Fn) (a : Nat) (bs : List Byte) (hc : [Part.regs, .sys, .host, .ns, .ftl, .media, .str, .sea, .disp, .hrt, .memory, .health] ⊆ ps) : (dmaWrite s hv space f a bs).1.blank ps = s.blank ps := by
  simp only [List.cons_subset] at hc; unfold dmaWrite; (repeat' split) <;> simp [*]
@[simp ↓] theorem State.setChan_blank {ps : List Part} (s : State) (n : Nat) (c : DmaChan) (hc : [Part.dma] ⊆ ps) : (s.setChan n c).blank ps = s.blank ps := by
  simp only [List.cons_subset] at hc; unfold State.setChan; simp [*]
@[simp ↓] theorem State.onChan_blank {ps : List Part} (s : State) (n : Nat) (g : DmaChan → DmaChan) (hc : [Part.dma] ⊆ ps) : (s.onChan n g).blank ps = s.blank ps := by
  simp only [List.cons_subset] at hc; unfold State.onChan; simp [*]
@[simp ↓] theorem State.dmaRecord_blank {ps : List Part} (s : State) (code channel : Nat) (addr : W64) (stopAll : Bool) (hc : [Part.regs, .sys, .power, .host, .ns, .ftl, .media, .str, .sea, .dgs, .dma, .disp, .hrt, .boot, .health] ⊆ ps) : (s.dmaRecord code channel addr stopAll).blank ps = s.blank ps := by
  simp only [List.cons_subset] at hc; unfold State.dmaRecord; simp [*]
@[simp ↓] theorem State.dmaFail_blank {ps : List Part} (s : State) (n code : Nat) (addr : W64) (hc : [Part.regs, .sys, .power, .host, .ns, .ftl, .media, .str, .sea, .dgs, .dma, .disp, .hrt, .boot, .health] ⊆ ps) : (s.dmaFail n code addr).blank ps = s.blank ps := by
  simp only [List.cons_subset] at hc; unfold State.dmaFail; simp [*]
@[simp ↓] theorem State.dmaCountDesc_blank {ps : List Part} (s : State) (n : Nat) (hc : [Part.regs, .dma] ⊆ ps) : (s.dmaCountDesc n).blank ps = s.blank ps := by
  simp only [List.cons_subset] at hc; unfold State.dmaCountDesc; simp [*]
@[simp ↓] theorem State.dmaData_blank {ps : List Part} (s : State) (n ptr : Nat) (hc : [Part.regs, .sys, .power, .host, .ns, .ftl, .media, .str, .sea, .dgs, .dma, .disp, .hrt, .boot, .health] ⊆ ps) : (s.dmaData n ptr).blank ps = s.blank ps := by
  simp only [List.cons_subset] at hc; unfold State.dmaData
  (repeat' (first | (with_reducible rfl) | assumption | (simp [*]; done) | (with_reducible refine (blank_foldl _ (fun _ _ => ?_) _ _).trans ?_) | (with_reducible refine (blank_iterate _ (fun _ _ => ?_) _ _).trans ?_) | (with_reducible refine (blank_foldl_p _ (fun _ _ => ?_) _ _).trans ?_) | (with_reducible refine blank_fst (by assumption) ?_) | (with_reducible refine blank_snd (by assumption) ?_) | (with_reducible refine blank_some (by assumption) ?_) | split | (simp only [blank_ite]) | (simp [*, -List.foldl_append, -Option.foldl_toList])))
@[simp ↓] theorem State.dmaNext_blank {ps : List Part} (s : State) (n next : Nat) (hc : [Part.regs, .sys, .power, .host, .ns, .ftl, .media, .str, .sea, .dgs, .dma, .disp, .hrt, .boot, .health] ⊆ ps) : (s.dmaNext n next).blank ps = s.blank ps := by
  simp only [List.cons_subset] at hc; unfold State.dmaNext; simp [*]
@[simp ↓] theorem State.dmaStart_blank {ps : List Part} (s : State) (n : Nat) (hc : [Part.regs, .sys, .power, .host, .ns, .ftl, .media, .str, .sea, .dgs, .dma, .disp, .hrt, .boot, .health] ⊆ ps) : (s.dmaStart n).blank ps = s.blank ps := by
  simp only [List.cons_subset] at hc; unfold State.dmaStart
  (repeat' (first | (with_reducible rfl) | assumption | (simp [*]; done) | (with_reducible refine (blank_foldl _ (fun _ _ => ?_) _ _).trans ?_) | (with_reducible refine (blank_iterate _ (fun _ _ => ?_) _ _).trans ?_) | (with_reducible refine (blank_foldl_p _ (fun _ _ => ?_) _ _).trans ?_) | (with_reducible refine blank_fst (by assumption) ?_) | (with_reducible refine blank_snd (by assumption) ?_) | (with_reducible refine blank_some (by assumption) ?_) | split | (simp only [blank_ite]) | (simp [*, -List.foldl_append, -Option.foldl_toList])))
@[simp ↓] theorem State.dmaBridge_blank {ps : List Part} (s : State) (space : Nat) (hc : [Part.regs, .sys, .host, .health] ⊆ ps) : (s.dmaBridge space).blank ps = s.blank ps := by
  simp only [List.cons_subset] at hc; unfold State.dmaBridge; simp [*]
theorem dmaPiece_blank {ps : List Part} (s : State) (hv : HostView) (d : DmaDesc) (f : List Byte → List Byte) (a b n left : Nat)
    (hc : [Part.regs, .sys, .host, .ns, .ftl, .media, .str, .sea, .disp, .hrt, .memory, .health] ⊆ ps) :
    (dmaPiece s hv d f a b n left).state.blank ps = s.blank ps := by
  simp only [List.cons_subset] at hc; unfold dmaPiece
  split
  · rfl
  split
  · simp [hc]
  dsimp only
  split <;> simp [hc]
theorem copyPieces_blank {ps : List Part} (d : DmaDesc) (k : Nat) (s : State) (hv : HostView) (a b left : Nat)
    (hc : [Part.regs, .sys, .host, .ns, .ftl, .media, .str, .sea, .disp, .hrt, .memory, .health] ⊆ ps) :
    (copyPieces d k s hv a b left).state.blank ps = s.blank ps := by
  induction k generalizing s hv a b left with
  | zero => rfl
  | succ k ih =>
    unfold copyPieces
    split
    · rfl
    dsimp only
    have e := dmaPiece_blank s hv d id a b (Nat.min 4096 left) left hc
    split
    · exact e
    · exact (ih ..).trans e
@[simp ↓] theorem State.dmaMove_blank {ps : List Part} (s : State) (hv : HostView) (d : DmaDesc) (a b n : Nat) (hc : [Part.regs, .sys, .host, .ns, .ftl, .media, .str, .sea, .disp, .hrt, .memory, .health] ⊆ ps) : (s.dmaMove hv d a b n).1.blank ps = s.blank ps := by
  unfold State.dmaMove; dsimp only
  split
  · exact copyPieces_blank _ _ _ _ _ _ _ hc
  split
  · rfl
  · exact dmaPiece_blank _ _ _ _ _ _ _ _ hc

@[simp ↓] theorem State.dmaRun_blank {ps : List Part} (s : State) (n : Nat) (d : DmaDesc) (hv : HostView) (k : Nat) (hc : [Part.regs, .sys, .power, .host, .ns, .ftl, .media, .str, .sea, .dgs, .dma, .disp, .hrt, .memory, .boot, .health] ⊆ ps) : (s.dmaRun n d hv k).1.blank ps = s.blank ps := by
  simp only [List.cons_subset] at hc; unfold State.dmaRun
  (repeat' (first | (with_reducible rfl) | assumption | (simp [*]; done) | (with_reducible refine (blank_foldl _ (fun _ _ => ?_) _ _).trans ?_) | (with_reducible refine (blank_iterate _ (fun _ _ => ?_) _ _).trans ?_) | (with_reducible refine (blank_foldl_p _ (fun _ _ => ?_) _ _).trans ?_) | (with_reducible refine blank_fst (by assumption) ?_) | (with_reducible refine blank_snd (by assumption) ?_) | (with_reducible refine blank_some (by assumption) ?_) | split | (simp only [blank_ite]) | (simp [*, -List.foldl_append, -Option.foldl_toList])))
@[simp ↓] theorem State.dmaArm_blank {ps : List Part} (s : State) (n : Nat) (hc : [Part.regs, .sys, .power, .host, .ns, .ftl, .media, .str, .sea, .dgs, .dma, .disp, .hrt, .boot, .health] ⊆ ps) : (s.dmaArm n).blank ps = s.blank ps := by
  simp only [List.cons_subset] at hc; unfold State.dmaArm; simp [*]
@[simp ↓] theorem State.dmaOwner_blank {ps : List Part} (s : State) (r : Requester) (n : Nat) (want : DmaOwner) (hc : [Part.dma] ⊆ ps) : (s.dmaOwner r n want).blank ps = s.blank ps := by
  simp only [List.cons_subset] at hc; unfold State.dmaOwner; simp [*]
@[simp ↓] theorem State.dmaPauseBit_blank {ps : List Part} (s : State) (n : Nat) (on : Bool) (hc : [Part.dma] ⊆ ps) : (s.dmaPauseBit n on).blank ps = s.blank ps := by
  simp only [List.cons_subset] at hc; unfold State.dmaPauseBit; simp [*]
@[simp ↓] theorem State.dmaCtlWrite_blank {ps : List Part} (s : State) (r : Requester) (n : Nat) (v : W32) (hc : [Part.regs, .sys, .power, .host, .ns, .ftl, .media, .str, .sea, .dgs, .lynx, .dma, .disp, .hrt, .memory, .boot, .firmware, .health, .free] ⊆ ps) : (s.dmaCtlWrite r n v).blank ps = s.blank ps := by
  simp only [List.cons_subset] at hc; unfold State.dmaCtlWrite; simp [*]
@[simp ↓] theorem State.paceHold_blank {ps : List Part} (s : State) (hc : [Part.dma] ⊆ ps) : s.paceHold.blank ps = s.blank ps := by
  simp only [List.cons_subset] at hc; unfold State.paceHold; simp [*]
@[simp ↓] theorem State.dmaTaskBegins_blank {ps : List Part} (s : State) (n : Nat) (hc : [Part.dma, .disp] ⊆ ps) : (s.dmaTaskBegins n).blank ps = s.blank ps := by
  simp only [List.cons_subset] at hc; unfold State.dmaTaskBegins; simp [*]
@[simp ↓] theorem State.dmaTaskEnds_blank {ps : List Part} (s : State) (n : Nat) (hc : [Part.dma] ⊆ ps) : (s.dmaTaskEnds n).blank ps = s.blank ps := by
  simp only [List.cons_subset] at hc; unfold State.dmaTaskEnds; simp [*]
@[simp ↓] theorem State.dmaFailTasks_blank {ps : List Part} (s : State) (st : Status) (hc : [Part.regs, .sys, .host, .ns, .ftl, .media, .str, .sea, .disp, .hrt, .health] ⊆ ps) : (s.dmaFailTasks st).blank ps = s.blank ps := by
  simp only [List.cons_subset] at hc; unfold State.dmaFailTasks; simp [*]
@[simp ↓] theorem State.dmaReset_blank {ps : List Part} (s : State) (timedOut : Option Nat) (hc : [Part.dma] ⊆ ps) : (s.dmaReset timedOut).blank ps = s.blank ps := by
  simp only [List.cons_subset] at hc; unfold State.dmaReset; simp [*]
@[simp ↓] theorem State.dmaIslandReset_blank {ps : List Part} (s : State) (hc : [Part.dma] ⊆ ps) : s.dmaIslandReset.blank ps = s.blank ps := by
  simp only [List.cons_subset] at hc; unfold State.dmaIslandReset; simp [*]
@[simp ↓] theorem State.countVerdict_blank {ps : List Part} (s : State) (v : W32) (hc : [Part.regs, .health] ⊆ ps) : (s.countVerdict v).blank ps = s.blank ps := by
  simp only [List.cons_subset] at hc; unfold State.countVerdict; simp [*]
@[simp ↓] theorem State.portMiss_blank {ps : List Part} (s : State) (r : PortReq) (hc : [Part.regs, .sys, .power, .host, .ns, .ftl, .media, .str, .sea, .dgs, .lynx, .dma, .disp, .hrt, .memory, .boot, .firmware, .health, .free] ⊆ ps) : (s.portMiss r).blank ps = s.blank ps := by
  simp only [List.cons_subset] at hc; unfold State.portMiss; (repeat' split) <;> simp [*]
@[simp ↓] theorem portBegin_blank {ps : List Part} (s : State) (r : PortReq) (v : W32) (hc : [Part.dgs] ⊆ ps) : (portBegin s r v).blank ps = s.blank ps := by
  simp only [List.cons_subset] at hc; unfold portBegin; simp [*]
@[simp ↓] theorem State.absorbBlock_blank {ps : List Part} (s : State) (hc : [Part.regs, .dgs] ⊆ ps) : s.absorbBlock.blank ps = s.blank ps := by
  simp only [List.cons_subset] at hc; unfold State.absorbBlock; simp [*]
@[simp ↓] theorem State.setDigest_blank {ps : List Part} (s : State) (bytes : List Byte) (hc : [Part.regs] ⊆ ps) : (s.setDigest bytes).blank ps = s.blank ps := by
  simp only [List.cons_subset] at hc; unfold State.setDigest; simp [*]
@[simp ↓] theorem portEnd_blank {ps : List Part} (s : State) (last : Nat) (seen : Comparators) (hc : [Part.regs, .dgs, .health] ⊆ ps) : (portEnd s last seen).blank ps = s.blank ps := by
  simp only [List.cons_subset] at hc; unfold portEnd; simp [*]
@[simp ↓] theorem State.setHmac_blank {ps : List Part} (s : State) (i : Nat) (x : HmacSlot) (h : [Part.dgs] ⊆ ps) : (s.setHmac i x).blank ps = s.blank ps := by
  simp only [List.cons_subset] at h; unfold State.setHmac; simp [*]
@[simp ↓] theorem State.digestReset_blank {ps : List Part} (s : State) (hc : [Part.dgs] ⊆ ps) : s.digestReset.blank ps = s.blank ps := by
  simp only [List.cons_subset] at hc; unfold State.digestReset; simp [*]
@[simp ↓] theorem State.digestIslandReset_blank {ps : List Part} (s : State) (hc : [Part.dgs] ⊆ ps) : s.digestIslandReset.blank ps = s.blank ps := by
  simp only [List.cons_subset] at hc; unfold State.digestIslandReset; simp [*]
@[simp ↓] theorem State.digestAlarm_blank {ps : List Part} (s : State) (hc : [Part.dgs] ⊆ ps) : s.digestAlarm.blank ps = s.blank ps := by
  simp only [List.cons_subset] at hc; unfold State.digestAlarm; simp [*]

end

end Sys2Proof.Machine
end

