-- ==== Sys2Proof/Laws/FrameReset.lean ====
section
/-! SUPPORT. What each operation may change: the operations of Machine/ModuleOps, HartOps, HostOps, ResetOps, RegOps, Redundancy, WriteOps, Ftl, Power. -/

namespace Sys2Proof.Machine

section
set_option Elab.async false
set_option linter.unusedTactic false
set_option linter.unreachableTactic false
set_option linter.unusedSimpArgs false

@[simp ↓] theorem State.forcedDone_blank {ps : List Part} (s : State) (m : Nat) (hc : [Part.host, .hrt, .health] ⊆ ps) : (s.forcedDone m).blank ps = s.blank ps := by
  simp only [List.cons_subset] at hc; unfold State.forcedDone; (repeat' split) <;> simp [*]
@[simp ↓] theorem State.forcedAll_blank {ps : List Part} (s : State) (hc : [Part.host, .hrt, .health] ⊆ ps) : s.forcedAll.blank ps = s.blank ps := by
  simp only [List.cons_subset] at hc; unfold State.forcedAll; simp [*]
@[simp ↓] theorem State.enrol_blank {ps : List Part} (s : State) (l : Load) (hc : [Part.regs, .sys, .host, .ns, .ftl, .media, .str, .sea, .disp, .hrt, .health] ⊆ ps) : (s.enrol l).blank ps = s.blank ps := by
  simp only [List.cons_subset] at hc; unfold State.enrol; simp [*]
@[simp ↓] theorem State.endLoad_blank {ps : List Part} (s : State) (l : Load) (st : Status) (dw0 dw1 : W32) (hc : [Part.regs, .sys, .host, .ns, .ftl, .media, .str, .sea, .disp, .hrt, .health] ⊆ ps) : (s.endLoad l st dw0 dw1).blank ps = s.blank ps := by
  simp only [List.cons_subset] at hc; unfold State.endLoad; simp [*]
@[simp ↓] theorem State.loadNext_blank {ps : List Part} (s : State) (a0 : Nat) (hc : [Part.regs, .sys, .host, .ns, .ftl, .media, .str, .sea, .disp, .hrt, .health] ⊆ ps) : (s.loadNext a0).blank ps = s.blank ps := by
  simp only [List.cons_subset] at hc
  first
  | (unfold State.loadNext; (repeat' (first | (with_reducible rfl) | assumption | (simp [*]; done) | (with_reducible refine (blank_foldl _ (fun _ _ => ?_) _ _).trans ?_) | (with_reducible refine (blank_iterate _ (fun _ _ => ?_) _ _).trans ?_) | (with_reducible refine (blank_foldl_p _ (fun _ _ => ?_) _ _).trans ?_) | (with_reducible refine blank_fst (by assumption) ?_) | (with_reducible refine blank_snd (by assumption) ?_) | (with_reducible refine blank_some (by assumption) ?_) | split | (simp only [blank_ite]) | (simp [*, -List.foldl_append, -Option.foldl_toList]))); done)
  | (fun_induction State.loadNext s a0 <;> (repeat' (first | (with_reducible rfl) | assumption | (simp [*]; done) | (with_reducible refine Eq.trans (by assumption) ?_) | (with_reducible refine (blank_foldl _ (fun _ _ => ?_) _ _).trans ?_) | (with_reducible refine (blank_iterate _ (fun _ _ => ?_) _ _).trans ?_) | (with_reducible refine (blank_foldl_p _ (fun _ _ => ?_) _ _).trans ?_) | (with_reducible refine blank_fst (by assumption) ?_) | (with_reducible refine blank_snd (by assumption) ?_) | (with_reducible refine blank_some (by assumption) ?_) | split | (simp only [blank_ite]) | (simp [*, -List.foldl_append, -Option.foldl_toList]))))
@[simp ↓] theorem State.loadServe_blank {ps : List Part} (s : State) (hc : [Part.regs, .sys, .host, .ns, .ftl, .media, .str, .sea, .disp, .hrt, .health] ⊆ ps) : s.loadServe.blank ps = s.blank ps := by
  simp only [List.cons_subset] at hc; unfold State.loadServe; (repeat' split) <;> simp [*]
@[simp ↓] theorem State.rejectLoad_blank {ps : List Part} (s : State) (l : Load) (reason : Nat) (hc : [Part.regs, .sys, .host, .ns, .ftl, .media, .str, .sea, .disp, .hrt, .health] ⊆ ps) : (s.rejectLoad l reason).blank ps = s.blank ps := by
  simp only [List.cons_subset] at hc; unfold State.rejectLoad; simp [*]
@[simp ↓] theorem State.moduleUsable_blank {ps : List Part} (s : State) (m : Nat) (hc : [Part.regs, .sys, .host, .ns, .ftl, .media, .str, .sea, .disp, .hrt, .health] ⊆ ps) : (s.moduleUsable m).blank ps = s.blank ps := by
  simp only [List.cons_subset] at hc; unfold State.moduleUsable; (repeat' split) <;> simp [*]
@[simp ↓] theorem State.enrolled_blank {ps : List Part} (s : State) (st : Status) (hc : [Part.regs, .sys, .host, .ns, .ftl, .media, .str, .sea, .disp, .hrt, .health] ⊆ ps) : (s.enrolled st).blank ps = s.blank ps := by
  simp only [List.cons_subset] at hc; unfold State.enrolled; (repeat' split) <;> simp [*]
@[simp ↓] theorem State.enroll_blank {ps : List Part} (s : State) (w : Who) (cdw10 : W32) (data : List Byte) (hc : [Part.regs, .sys, .host, .ns, .ftl, .media, .str, .sea, .disp, .hrt, .health] ⊆ ps) : (s.enroll w cdw10 data).blank ps = s.blank ps := by
  simp only [List.cons_subset] at hc; unfold State.enroll; simp [*]
@[simp ↓] theorem State.dropLoads_blank {ps : List Part} (s : State) (f : Fn) (hc : [Part.regs, .sys, .host, .ns, .ftl, .media, .str, .sea, .disp, .hrt, .boot, .health] ⊆ ps) : (s.dropLoads f).blank ps = s.blank ps := by
  simp only [List.cons_subset] at hc; unfold State.dropLoads; simp [*]
@[simp ↓] theorem State.setHart_blank {ps : List Part} (s : State) (h : Nat) (x : Hart) (hc : [Part.hrt] ⊆ ps) : (s.setHart h x).blank ps = s.blank ps := by
  simp only [List.cons_subset] at hc; unfold State.setHart; simp [*]
@[simp ↓] theorem State.onHart_blank {ps : List Part} (s : State) (h : Nat) (g : Hart → Hart) (hc : [Part.hrt] ⊆ ps) : (s.onHart h g).blank ps = s.blank ps := by
  simp only [List.cons_subset] at hc; unfold State.onHart; simp [*]
@[simp ↓] theorem State.onKernel_blank {ps : List Part} (s : State) (h : Nat) (g : Kernel → Kernel) (hc : [Part.hrt] ⊆ ps) : (s.onKernel h g).blank ps = s.blank ps := by
  simp only [List.cons_subset] at hc; unfold State.onKernel; simp [*]
@[simp ↓] theorem State.setL2_blank {ps : List Part} (s : State) (c : Nat) (ls : List CacheLine) (hc : [Part.hrt] ⊆ ps) : (s.setL2 c ls).blank ps = s.blank ps := by
  simp only [List.cons_subset] at hc; unfold State.setL2; simp [*]
@[simp ↓] theorem State.touchLine_blank {ps : List Part} (s : State) (h : Nat) (code : Bool) (l : CacheLine) (hc : [Part.hrt] ⊆ ps) : (s.touchLine h code l).blank ps = s.blank ps := by
  simp only [List.cons_subset] at hc; unfold State.touchLine; simp [*]
@[simp ↓] theorem State.dropLines_blank {ps : List Part} (s : State) (h : Nat) (p : CacheLine → Bool) (hc : [Part.hrt] ⊆ ps) : (s.dropLines h p).blank ps = s.blank ps := by
  simp only [List.cons_subset] at hc; unfold State.dropLines; simp [*]
@[simp ↓] theorem State.invalidate_blank {ps : List Part} (s : State) (h : Nat) (hc : [Part.hrt] ⊆ ps) : (s.invalidate h).blank ps = s.blank ps := by
  simp only [List.cons_subset] at hc; unfold State.invalidate; simp [*]
@[simp ↓] theorem State.dropModuleLines_blank {ps : List Part} (s : State) (m : Nat) (hc : [Part.hrt] ⊆ ps) : (s.dropModuleLines m).blank ps = s.blank ps := by
  simp only [List.cons_subset] at hc; unfold State.dropModuleLines; simp [*]
@[simp ↓] theorem State.kernelRuns_blank {ps : List Part} (s : State) (h : Nat) (run : KernelRun) (hc : [Part.hrt] ⊆ ps) : (s.kernelRuns h run).blank ps = s.blank ps := by
  simp only [List.cons_subset] at hc; unfold State.kernelRuns; (repeat' split) <;> simp [*]
@[simp ↓] theorem State.endKernel_blank {ps : List Part} (s : State) (h : Nat) (hc : [Part.hrt] ⊆ ps) : (s.endKernel h).blank ps = s.blank ps := by
  simp only [List.cons_subset] at hc; unfold State.endKernel; simp [*]
@[simp ↓] theorem State.logFault_blank {ps : List Part} (s : State) (h : Nat) (k : Kernel) (cause : Nat) (code : W32) (pc addr : W64) (hc : [Part.regs, .hrt, .health] ⊆ ps) : (s.logFault h k cause code pc addr).blank ps = s.blank ps := by
  simp only [List.cons_subset] at hc; unfold State.logFault; (repeat' split) <;> simp [*]
@[simp ↓] theorem State.kernelFails_blank {ps : List Part} (s : State) (h : Nat) (k : Kernel) (cause : Nat) (code : W32) (pc addr : W64) (hc : [Part.regs, .sys, .host, .ns, .ftl, .media, .str, .sea, .disp, .hrt, .health] ⊆ ps) : (s.kernelFails h k cause code pc addr).blank ps = s.blank ps := by
  simp only [List.cons_subset] at hc; unfold State.kernelFails; simp [*]
@[simp ↓] theorem State.kernelStops_blank {ps : List Part} (s : State) (h : Nat) (k : Kernel) (hc : [Part.regs, .sys, .host, .ns, .ftl, .media, .str, .sea, .disp, .hrt, .health] ⊆ ps) : (s.kernelStops h k).blank ps = s.blank ps := by
  simp only [List.cons_subset] at hc; unfold State.kernelStops; simp [*]
@[simp ↓] theorem State.kernelPoisoned_blank {ps : List Part} (s : State) (h : Nat) (addr : Nat) (hc : [Part.regs, .sys, .host, .ns, .ftl, .media, .str, .sea, .disp, .hrt, .health, .free] ⊆ ps) : (s.kernelPoisoned h addr).blank ps = s.blank ps := by
  simp only [List.cons_subset] at hc; unfold State.kernelPoisoned; (repeat' split) <;> simp [*]
@[simp ↓] theorem State.ringDoorbell_blank {ps : List Part} (s : State) (f : Fn) (qid : Nat) (isCq : Bool) (value : Nat) (hc : [Part.host] ⊆ ps) : (s.ringDoorbell f qid isCq value).blank ps = s.blank ps := by
  simp only [List.cons_subset] at hc; unfold State.ringDoorbell; simp [*]
@[simp ↓] theorem State.ringKept_blank {ps : List Part} (s : State) (hc : [Part.power, .host] ⊆ ps) : s.ringKept.blank ps = s.blank ps := by
  simp only [List.cons_subset] at hc; unfold State.ringKept; simp [*]
@[simp ↓] theorem State.undoSlot_blank {ps : List Part} (s : State) (iu : Nat) (hc : [Part.regs, .sys, .host, .ns, .ftl, .media, .str, .sea, .disp, .hrt, .health] ⊆ ps) : (s.undoSlot iu).blank ps = s.blank ps := by
  simp only [List.cons_subset] at hc; unfold State.undoSlot; (repeat' split) <;> simp [*]
@[simp ↓] theorem State.discardWrite_blank {ps : List Part} (s : State) (a : AdmittedWrite) (hc : [Part.regs, .sys, .host, .ns, .ftl, .media, .str, .sea, .disp, .hrt, .health] ⊆ ps) : (s.discardWrite a).blank ps = s.blank ps := by
  simp only [List.cons_subset] at hc; unfold State.discardWrite; (repeat' split) <;> simp [*]
@[simp ↓] theorem State.dropNvm_blank {ps : List Part} (s : State) (w : Who) (hc : [Part.regs, .sys, .host, .ns, .ftl, .media, .str, .sea, .disp, .hrt, .health] ⊆ ps) : (s.dropNvm w).blank ps = s.blank ps := by
  simp only [List.cons_subset] at hc; unfold State.dropNvm; simp [*]
@[simp ↓] theorem State.dropCommands_blank {ps : List Part} (s : State) (f : Fn) (hc : [Part.regs, .sys, .power, .host, .ns, .ftl, .media, .str, .sea, .disp, .hrt, .boot, .health] ⊆ ps) : (s.dropCommands f).blank ps = s.blank ps := by
  simp only [List.cons_subset] at hc; unfold State.dropCommands; simp [*]
@[simp ↓] theorem State.stopKernels_blank {ps : List Part} (s : State) (flow : Nat) (hc : [Part.regs, .sys, .host, .ns, .ftl, .media, .str, .sea, .disp, .hrt, .health] ⊆ ps) : (s.stopKernels flow).blank ps = s.blank ps := by
  simp only [List.cons_subset] at hc; unfold State.stopKernels
  (repeat' (first | (with_reducible rfl) | assumption | (simp [*]; done) | (with_reducible refine (blank_foldl _ (fun _ _ => ?_) _ _).trans ?_) | (with_reducible refine (blank_iterate _ (fun _ _ => ?_) _ _).trans ?_) | (with_reducible refine (blank_foldl_p _ (fun _ _ => ?_) _ _).trans ?_) | (with_reducible refine blank_fst (by assumption) ?_) | (with_reducible refine blank_snd (by assumption) ?_) | (with_reducible refine blank_some (by assumption) ?_) | split | (simp only [blank_ite]) | (simp [*, -List.foldl_append, -Option.foldl_toList])))
@[simp ↓] theorem State.releaseFlow_blank {ps : List Part} (s : State) (i : Nat) (hc : [Part.regs, .sys, .host, .ns, .ftl, .media, .str, .sea, .dgs, .disp, .hrt, .health] ⊆ ps) : (s.releaseFlow i).blank ps = s.blank ps := by
  simp only [List.cons_subset] at hc; unfold State.releaseFlow; simp [*]
@[simp ↓] theorem State.resetController_blank {ps : List Part} (s : State) (f : Fn) (hc : [Part.regs, .sys, .power, .host, .ns, .ftl, .media, .str, .sea, .dgs, .disp, .hrt, .boot, .health] ⊆ ps) : (s.resetController f).blank ps = s.blank ps := by
  simp only [List.cons_subset] at hc; unfold State.resetController; simp [*]
@[simp ↓] theorem State.failController_blank {ps : List Part} (s : State) (f : Fn) (hc : [Part.regs, .sys, .power, .host, .ns, .ftl, .media, .str, .sea, .disp, .hrt, .boot, .health] ⊆ ps) : (s.failController f).blank ps = s.blank ps := by
  simp only [List.cons_subset] at hc; unfold State.failController; simp [*]
@[simp ↓] theorem State.dropPosted_blank {ps : List Part} (s : State) (f : Fn) (hc : [Part.host] ⊆ ps) : (s.dropPosted f).blank ps = s.blank ps := by
  simp only [List.cons_subset] at hc; unfold State.dropPosted; simp [*]
@[simp ↓] theorem State.haltFlow_blank {ps : List Part} (s : State) (i : Nat) (hc : [Part.regs, .sys, .host, .ns, .ftl, .media, .str, .sea, .disp, .hrt, .health] ⊆ ps) : (s.haltFlow i).blank ps = s.blank ps := by
  simp only [List.cons_subset] at hc; unfold State.haltFlow; simp [*]
@[simp ↓] theorem State.dropFreeze_blank {ps : List Part} (s : State) (f : Fn) (hc : [Part.host] ⊆ ps) : (s.dropFreeze f).blank ps = s.blank ps := by
  simp only [List.cons_subset] at hc; unfold State.dropFreeze; (repeat' split) <;> simp [*]
@[simp ↓] theorem State.flrBegin_blank {ps : List Part} (s : State) (f : Fn) (hc : [Part.regs, .sys, .power, .host, .ns, .ftl, .media, .str, .sea, .disp, .hrt, .boot, .health] ⊆ ps) : (s.flrBegin f).blank ps = s.blank ps := by
  simp only [List.cons_subset] at hc; unfold State.flrBegin; simp [*]
@[simp ↓] theorem State.flrAbort_blank {ps : List Part} (s : State) (f : Fn) (hc : [Part.regs, .sys, .host, .ns, .ftl, .media, .str, .sea, .disp, .hrt, .health] ⊆ ps) : (s.flrAbort f).blank ps = s.blank ps := by
  simp only [List.cons_subset] at hc; unfold State.flrAbort; simp [*]
@[simp ↓] theorem State.flrEnd_blank {ps : List Part} (s : State) (f : Fn) (hc : [Part.regs, .sys, .power, .host, .ns, .ftl, .media, .str, .sea, .dgs, .disp, .hrt, .boot, .health] ⊆ ps) : (s.flrEnd f).blank ps = s.blank ps := by
  simp only [List.cons_subset] at hc; unfold State.flrEnd; simp [*]
@[simp ↓] theorem State.portReset_blank {ps : List Part} (s : State) (p : Port) (hc : [Part.regs, .sys, .power, .host, .ns, .ftl, .media, .str, .sea, .dgs, .disp, .hrt, .boot, .health] ⊆ ps) : (s.portReset p).blank ps = s.blank ps := by
  simp only [List.cons_subset] at hc; unfold State.portReset; simp [*]
@[simp ↓] theorem State.hostDown_blank {ps : List Part} (s : State) (hc : [Part.regs, .sys, .power, .host, .ns, .ftl, .media, .str, .sea, .disp, .hrt, .boot, .health] ⊆ ps) : s.hostDown.blank ps = s.blank ps := by
  simp only [List.cons_subset] at hc; unfold State.hostDown; simp [*]
@[simp ↓] theorem State.clearRegs_blank {ps : List Part} (s : State) (p : Nat → Bool) (hc : [Part.regs] ⊆ ps) : (s.clearRegs p).blank ps = s.blank ps := by
  simp only [List.cons_subset] at hc; unfold State.clearRegs; simp [*]
@[simp ↓] theorem State.recordEsc_blank {ps : List Part} (s : State) (level : Nat) (i : Island) (unit cause : Nat) (hc : [Part.regs, .sys, .host, .health] ⊆ ps) : (s.recordEsc level i unit cause).blank ps = s.blank ps := by
  simp only [List.cons_subset] at hc; unfold State.recordEsc; simp [*]
@[simp ↓] theorem State.beginReset_blank {ps : List Part} (s : State) (level : Nat) (i : Island) (unit : Nat) (hc : [Part.sys] ⊆ ps) : (s.beginReset level i unit).blank ps = s.blank ps := by
  simp only [List.cons_subset] at hc; unfold State.beginReset; simp [*]
@[simp ↓] theorem State.clearLuns_blank {ps : List Part} (s : State) (hc : [Part.media] ⊆ ps) : s.clearLuns.blank ps = s.blank ps := by
  simp only [List.cons_subset] at hc; unfold State.clearLuns; simp [*]
@[simp ↓] theorem State.drainLuns_blank {ps : List Part} (s : State) (hc : [Part.regs, .sys, .host, .ns, .ftl, .media, .str, .sea, .disp, .hrt, .health] ⊆ ps) : s.drainLuns.blank ps = s.blank ps := by
  simp only [List.cons_subset] at hc; unfold State.drainLuns; simp [*]
@[simp ↓] theorem State.stopEngines_blank {ps : List Part} (s : State) (hc : [Part.ftl, .dgs, .dma, .disp, .hrt] ⊆ ps) : s.stopEngines.blank ps = s.blank ps := by
  simp only [List.cons_subset] at hc; unfold State.stopEngines; simp [*]
@[simp ↓] theorem State.takeImage_blank {ps : List Part} (s : State) (a b : Bool) (hc : [Part.str] ⊆ ps) : (s.takeImage a b).blank ps = s.blank ps := by
  simp only [List.cons_subset] at hc; unfold State.takeImage; simp [*]
@[simp ↓] theorem State.stopAll_blank {ps : List Part} (s : State) (hc : [Part.regs, .sys, .power, .host, .ns, .ftl, .media, .str, .sea, .dgs, .dma, .disp, .hrt, .boot, .health] ⊆ ps) : s.stopAll.blank ps = s.blank ps := by
  simp only [List.cons_subset] at hc; unfold State.stopAll; simp [*]
@[simp ↓] theorem State.dumpStart_blank {ps : List Part} (s : State) (cause : DumpCause) (hc : [Part.regs, .sys, .power, .host, .ns, .ftl, .media, .str, .sea, .dgs, .dma, .disp, .hrt, .boot, .health] ⊆ ps) : (s.dumpStart cause).1.blank ps = s.blank ps := by
  simp only [List.cons_subset] at hc; unfold State.dumpStart
  (repeat' (first | (with_reducible rfl) | assumption | (simp [*]; done) | (with_reducible refine (blank_foldl _ (fun _ _ => ?_) _ _).trans ?_) | (with_reducible refine (blank_iterate _ (fun _ _ => ?_) _ _).trans ?_) | (with_reducible refine (blank_foldl_p _ (fun _ _ => ?_) _ _).trans ?_) | (with_reducible refine blank_fst (by assumption) ?_) | (with_reducible refine blank_snd (by assumption) ?_) | (with_reducible refine blank_some (by assumption) ?_) | split | (simp only [blank_ite]) | (simp [*, -List.foldl_append, -Option.foldl_toList])))
@[simp ↓] theorem State.dramSleep_blank {ps : List Part} (s : State) (on : Bool) (hc : [Part.memory] ⊆ ps) : (s.dramSleep on).blank ps = s.blank ps := by
  simp only [List.cons_subset] at hc; unfold State.dramSleep; simp [*]
@[simp ↓] theorem State.enterHold_blank {ps : List Part} (s : State) (hc : [Part.sys, .memory] ⊆ ps) : s.enterHold.blank ps = s.blank ps := by
  simp only [List.cons_subset] at hc; unfold State.enterHold; simp [*]
@[simp ↓] theorem State.applyFixes_blank {ps : List Part} (s : State) (p : Nat → Bool) (hc : [Part.memory] ⊆ ps) : (s.applyFixes p).blank ps = s.blank ps := by
  simp only [List.cons_subset] at hc; unfold State.applyFixes; simp [*]
@[simp ↓] theorem State.fillShort_blank {ps : List Part} (s : State) (hc : [Part.ftl] ⊆ ps) : s.fillShort.blank ps = s.blank ps := by
  simp only [List.cons_subset] at hc; unfold State.fillShort; simp [*]
@[simp ↓] theorem State.closeInFlight_blank {ps : List Part} (s : State) (hc : [Part.regs, .sys, .host, .ns, .ftl, .media, .str, .sea, .disp, .hrt, .health] ⊆ ps) : s.closeInFlight.blank ps = s.blank ps := by
  simp only [List.cons_subset] at hc; unfold State.closeInFlight
  (repeat' (first | (with_reducible rfl) | assumption | (simp [*]; done) | (with_reducible refine (blank_foldl _ (fun _ _ => ?_) _ _).trans ?_) | (with_reducible refine (blank_iterate _ (fun _ _ => ?_) _ _).trans ?_) | (with_reducible refine (blank_foldl_p _ (fun _ _ => ?_) _ _).trans ?_) | (with_reducible refine blank_fst (by assumption) ?_) | (with_reducible refine blank_snd (by assumption) ?_) | (with_reducible refine blank_some (by assumption) ?_) | split | (simp only [blank_ite]) | (simp [*, -List.foldl_append, -Option.foldl_toList])))
@[simp ↓] theorem State.dropRebuild_blank {ps : List Part} (s : State) (hc : [Part.ftl, .str] ⊆ ps) : s.dropRebuild.blank ps = s.blank ps := by
  simp only [List.cons_subset] at hc; unfold State.dropRebuild; (repeat' split) <;> simp [*]
@[simp ↓] theorem State.rewindReshape_blank {ps : List Part} (s : State) (hc : [Part.regs, .sys, .host, .ns, .ftl, .media, .str, .sea, .disp, .hrt, .health] ⊆ ps) : s.rewindReshape.blank ps = s.blank ps := by
  simp only [List.cons_subset] at hc; unfold State.rewindReshape
  (repeat' (first | (with_reducible rfl) | assumption | (simp [*]; done) | (with_reducible refine (blank_foldl _ (fun _ _ => ?_) _ _).trans ?_) | (with_reducible refine (blank_iterate _ (fun _ _ => ?_) _ _).trans ?_) | (with_reducible refine (blank_foldl_p _ (fun _ _ => ?_) _ _).trans ?_) | (with_reducible refine blank_fst (by assumption) ?_) | (with_reducible refine blank_snd (by assumption) ?_) | (with_reducible refine blank_some (by assumption) ?_) | split | (simp only [blank_ite]) | (simp [*, -List.foldl_append, -Option.foldl_toList])))
@[simp ↓] theorem State.clearRefused_blank {ps : List Part} (s : State) (hc : [Part.str] ⊆ ps) : s.clearRefused.blank ps = s.blank ps := by
  simp only [List.cons_subset] at hc; unfold State.clearRefused; simp [*]
@[simp ↓] theorem State.keepRecovered_blank {ps : List Part} (s : State) (hc : [Part.str] ⊆ ps) : s.keepRecovered.blank ps = s.blank ps := by
  simp only [List.cons_subset] at hc; unfold State.keepRecovered; simp [*]
@[simp ↓] theorem State.cfgDurable_blank {ps : List Part} (s : State) (a0 : CfgWrite) (hc : [Part.regs, .sys, .power, .host, .ns, .ftl, .media, .str, .sea, .disp, .hrt, .memory, .health] ⊆ ps) : (s.cfgDurable a0).blank ps = s.blank ps := by
  simp only [List.cons_subset] at hc; unfold State.cfgDurable; (repeat' split) <;> simp [*]
@[simp ↓] theorem State.tearConfig_blank {ps : List Part} (s : State) (hc : [Part.regs, .sys, .power, .host, .ns, .ftl, .media, .str, .sea, .disp, .hrt, .memory, .health, .free] ⊆ ps) : s.tearConfig.blank ps = s.blank ps := by
  simp only [List.cons_subset] at hc; unfold State.tearConfig; (repeat' split) <;> simp [*]
@[simp ↓] theorem State.tearLedger_blank {ps : List Part} (s : State) (hc : [Part.media, .boot, .free] ⊆ ps) : s.tearLedger.blank ps = s.blank ps := by
  simp only [List.cons_subset] at hc; unfold State.tearLedger; (repeat' split) <;> simp [*]
@[simp ↓] theorem State.tearLifetime_blank {ps : List Part} (s : State) (hc : [Part.media, .health, .free] ⊆ ps) : s.tearLifetime.blank ps = s.blank ps := by
  simp only [List.cons_subset] at hc; unfold State.tearLifetime; simp [*]
@[simp ↓] theorem State.tearNonce_blank {ps : List Part} (s : State) (slot : Nat) (k : KeySlot) (hc : [Part.media, .sea, .free] ⊆ ps) : (s.tearNonce slot k).blank ps = s.blank ps := by
  simp only [List.cons_subset] at hc; unfold State.tearNonce; (repeat' split) <;> simp [*]
@[simp ↓] theorem State.tearAreas_blank {ps : List Part} (s : State) (hc : [Part.regs, .sys, .power, .host, .ns, .ftl, .media, .str, .sea, .disp, .hrt, .memory, .boot, .health, .free] ⊆ ps) : s.tearAreas.blank ps = s.blank ps := by
  simp only [List.cons_subset] at hc; unfold State.tearAreas
  (repeat' (first | (with_reducible rfl) | assumption | (simp [*]; done) | (with_reducible refine (blank_foldl _ (fun _ _ => ?_) _ _).trans ?_) | (with_reducible refine (blank_iterate _ (fun _ _ => ?_) _ _).trans ?_) | (with_reducible refine (blank_foldl_p _ (fun _ _ => ?_) _ _).trans ?_) | (with_reducible refine blank_fst (by assumption) ?_) | (with_reducible refine blank_snd (by assumption) ?_) | (with_reducible refine blank_some (by assumption) ?_) | split | (simp only [blank_ite]) | (simp [*, -List.foldl_append, -Option.foldl_toList])))
theorem blank_of_rest {ps : List Part} {s t : State} (h : [Part.regs, .sys, .power, .host, .ns, .ftl, .media, .str, .sea, .dgs, .lynx, .dma, .disp, .hrt, .memory, .boot, .firmware, .health, .free] ⊆ ps) (h1 : t.board = s.board) (h2 : t.freeDraw = s.freeDraw) (h3 : t.pending = s.pending) : t.blank ps = s.blank ps := by
  simp only [List.cons_subset] at h; simp [State.blank, *]
@[simp ↓] theorem State.coldReset_blank {ps : List Part} (s : State) (powerOn : Bool) (h : [Part.regs, .sys, .power, .host, .ns, .ftl, .media, .str, .sea, .dgs, .lynx, .dma, .disp, .hrt, .memory, .boot, .firmware, .health, .free] ⊆ ps) : (s.coldReset powerOn).blank ps = s.blank ps := by
  unfold State.coldReset
  extract_lets s0 esc s1 s2 s3
  refine Eq.trans (b := State.blank ps s3) ?_ ?_
  · exact blank_of_rest h rfl rfl rfl
  simp only [List.cons_subset] at h
  simp only [s3, s2, s1, s0]
  (repeat' (first | (with_reducible rfl) | assumption | (simp [*]; done) | (with_reducible refine (blank_foldl _ (fun _ _ => ?_) _ _).trans ?_) | (with_reducible refine (blank_iterate _ (fun _ _ => ?_) _ _).trans ?_) | (with_reducible refine (blank_foldl_p _ (fun _ _ => ?_) _ _).trans ?_) | (with_reducible refine blank_fst (by assumption) ?_) | (with_reducible refine blank_snd (by assumption) ?_) | (with_reducible refine blank_some (by assumption) ?_) | split | (simp only [blank_ite]) | (simp [*, -List.foldl_append, -Option.foldl_toList])))
@[simp ↓] theorem State.enterBootHold_blank {ps : List Part} (s : State) (hc : [Part.regs, .sys, .power, .host, .ns, .ftl, .media, .str, .sea, .dgs, .lynx, .dma, .disp, .hrt, .memory, .boot, .firmware, .health, .free] ⊆ ps) : s.enterBootHold.blank ps = s.blank ps := by
  simp only [List.cons_subset] at hc; unfold State.enterBootHold; simp [*]
@[simp ↓] theorem State.loadStored_blank {ps : List Part} (s : State) (hc : [Part.sea, .dgs] ⊆ ps) : s.loadStored.blank ps = s.blank ps := by
  simp only [List.cons_subset] at hc; unfold State.loadStored; simp [*]
@[simp ↓] theorem State.eraseKeys_blank {ps : List Part} (s : State) (a : AlarmCause) (hc : [Part.sea, .dgs] ⊆ ps) : (s.eraseKeys a).blank ps = s.blank ps := by
  simp only [List.cons_subset] at hc; unfold State.eraseKeys; simp [*]
@[simp ↓] theorem State.alarmReport_blank {ps : List Part} (s : State) (hc : [Part.sys, .host, .media, .boot, .health] ⊆ ps) : s.alarmReport.blank ps = s.blank ps := by
  simp only [List.cons_subset] at hc; unfold State.alarmReport; simp [*]
@[simp ↓] theorem State.bootStart_blank {ps : List Part} (s : State) (cause : Nat) (hc : [Part.regs, .sys, .power, .host, .ns, .ftl, .media, .str, .sea, .dgs, .lynx, .dma, .disp, .hrt, .memory, .boot, .firmware, .health, .free] ⊆ ps) : (s.bootStart cause).blank ps = s.blank ps := by
  simp only [List.cons_subset] at hc; unfold State.bootStart
  (repeat' (first | (with_reducible rfl) | assumption | (simp [*]; done) | (with_reducible refine (blank_foldl _ (fun _ _ => ?_) _ _).trans ?_) | (with_reducible refine (blank_iterate _ (fun _ _ => ?_) _ _).trans ?_) | (with_reducible refine (blank_foldl_p _ (fun _ _ => ?_) _ _).trans ?_) | (with_reducible refine blank_fst (by assumption) ?_) | (with_reducible refine blank_snd (by assumption) ?_) | (with_reducible refine blank_some (by assumption) ?_) | (refine (State.onBoot_blank _ _ (by simp [*]) rfl rfl rfl).trans ?_) | split | (simp only [blank_ite]) | (simp [*, -List.foldl_append, -Option.foldl_toList])))
@[simp ↓] theorem State.channelStart_blank {ps : List Part} (s : State) (c : Nat) (hc : [Part.regs, .sys, .host, .ns, .ftl, .media, .str, .sea, .disp, .hrt, .boot, .health] ⊆ ps) : (s.channelStart c).blank ps = s.blank ps := by
  simp only [List.cons_subset] at hc; unfold State.channelStart; simp [*]
@[simp ↓] theorem State.mediaStart_blank {ps : List Part} (s : State) (p : Nat → Bool) (hc : [Part.regs, .sys, .host, .ns, .ftl, .media, .str, .sea, .disp, .hrt, .boot, .health] ⊆ ps) : (s.mediaStart p).blank ps = s.blank ps := by
  simp only [List.cons_subset] at hc; unfold State.mediaStart; simp [*]
@[simp ↓] theorem State.rebuildBlocks_blank {ps : List Part} (s : State) (tail : List JournalRec) (hc : [Part.ftl] ⊆ ps) : (s.rebuildBlocks tail).blank ps = s.blank ps := by
  simp only [List.cons_subset] at hc; unfold State.rebuildBlocks; simp [*]
@[simp ↓] theorem State.recordsDirty_blank {ps : List Part} (s : State) (js : List JournalRec) (hc : [Part.ftl] ⊆ ps) : (s.recordsDirty js).blank ps = s.blank ps := by
  simp only [List.cons_subset] at hc; unfold State.recordsDirty; simp [*]
@[simp ↓] theorem State.agedReads_blank {ps : List Part} (s : State) (hc : [Part.ftl] ⊆ ps) : s.agedReads.blank ps = s.blank ps := by
  simp only [List.cons_subset] at hc; unfold State.agedReads; simp [*]
@[simp ↓] theorem State.loseSlot_blank {ps : List Part} (s : State) (x : Slot) (hc : [Part.host, .ftl, .str, .health] ⊆ ps) : (s.loseSlot x).blank ps = s.blank ps := by
  simp only [List.cons_subset] at hc; unfold State.loseSlot; (repeat' split) <;> simp [*]
@[simp ↓] theorem State.applyDump_blank {ps : List Part} (s : State) (d : DumpImage) (hc : [Part.regs, .host, .ftl, .str, .health, .free] ⊆ ps) : (s.applyDump d).blank ps = s.blank ps := by
  simp only [List.cons_subset] at hc; unfold State.applyDump; simp [*]
@[simp ↓] theorem State.rebuildMap_blank {ps : List Part} (s : State) (hc : [Part.regs, .host, .ftl, .str, .health, .free] ⊆ ps) : s.rebuildMap.blank ps = s.blank ps := by
  simp only [List.cons_subset] at hc; unfold State.rebuildMap; (repeat' split) <;> simp [*]
@[simp ↓] theorem State.requeueErases_blank {ps : List Part} (s : State) (hc : [Part.regs, .sys, .host, .ns, .ftl, .media, .str, .sea, .disp, .hrt, .health] ⊆ ps) : s.requeueErases.blank ps = s.blank ps := by
  simp only [List.cons_subset] at hc; unfold State.requeueErases
  (repeat' (first | (with_reducible rfl) | assumption | (simp [*]; done) | (with_reducible refine (blank_foldl _ (fun _ _ => ?_) _ _).trans ?_) | (with_reducible refine (blank_iterate _ (fun _ _ => ?_) _ _).trans ?_) | (with_reducible refine (blank_foldl_p _ (fun _ _ => ?_) _ _).trans ?_) | (with_reducible refine blank_fst (by assumption) ?_) | (with_reducible refine blank_snd (by assumption) ?_) | (with_reducible refine blank_some (by assumption) ?_) | split | (simp only [blank_ite]) | (simp [*, -List.foldl_append, -Option.foldl_toList])))
@[simp ↓] theorem State.bootFinish_blank {ps : List Part} (s : State) (hc : [Part.regs, .sys, .host, .ns, .ftl, .media, .str, .sea, .disp, .hrt, .boot, .health, .free] ⊆ ps) : s.bootFinish.blank ps = s.blank ps := by
  simp only [List.cons_subset] at hc; unfold State.bootFinish
  (repeat' (first | (with_reducible rfl) | assumption | (simp [*]; done) | (with_reducible refine (blank_foldl _ (fun _ _ => ?_) _ _).trans ?_) | (with_reducible refine (blank_iterate _ (fun _ _ => ?_) _ _).trans ?_) | (with_reducible refine (blank_foldl_p _ (fun _ _ => ?_) _ _).trans ?_) | (with_reducible refine blank_fst (by assumption) ?_) | (with_reducible refine blank_snd (by assumption) ?_) | (with_reducible refine blank_some (by assumption) ?_) | split | (simp only [blank_ite]) | (simp [*, -List.foldl_append, -Option.foldl_toList])))
@[simp ↓] theorem State.countL4_blank {ps : List Part} (s : State) (hc : [Part.sys, .boot] ⊆ ps) : s.countL4.blank ps = s.blank ps := by
  simp only [List.cons_subset] at hc; unfold State.countL4; simp [*]
@[simp ↓] theorem State.failTrial_blank {ps : List Part} (s : State) (hc : [Part.boot] ⊆ ps) : s.failTrial.blank ps = s.blank ps := by
  simp only [List.cons_subset] at hc; unfold State.failTrial; simp [*]
@[simp ↓] theorem State.afterDump_blank {ps : List Part} (s : State) (hc : [Part.regs, .sys, .power, .host, .ns, .ftl, .media, .str, .sea, .dgs, .lynx, .dma, .disp, .hrt, .memory, .boot, .firmware, .health, .free] ⊆ ps) : s.afterDump.blank ps = s.blank ps := by
  simp only [List.cons_subset] at hc; unfold State.afterDump; (repeat' split) <;> simp [*]
@[simp ↓] theorem State.l4Reset_blank {ps : List Part} (s : State) (i : Island) (cause : Nat) (dc : DumpCause) (hc : [Part.regs, .sys, .power, .host, .ns, .ftl, .media, .str, .sea, .dgs, .lynx, .dma, .disp, .hrt, .memory, .boot, .firmware, .health, .free] ⊆ ps) : (s.l4Reset i cause dc).blank ps = s.blank ps := by
  simp only [List.cons_subset] at hc; unfold State.l4Reset
  (repeat' (first | (with_reducible rfl) | assumption | (simp [*]; done) | (with_reducible refine (blank_foldl _ (fun _ _ => ?_) _ _).trans ?_) | (with_reducible refine (blank_iterate _ (fun _ _ => ?_) _ _).trans ?_) | (with_reducible refine (blank_foldl_p _ (fun _ _ => ?_) _ _).trans ?_) | (with_reducible refine blank_fst (by assumption) ?_) | (with_reducible refine blank_snd (by assumption) ?_) | (with_reducible refine blank_some (by assumption) ?_) | split | (simp only [blank_ite]) | (simp [*, -List.foldl_append, -Option.foldl_toList])))
@[simp ↓] theorem State.clearLocks_blank {ps : List Part} (s : State) (hc : [Part.regs] ⊆ ps) : s.clearLocks.blank ps = s.blank ps := by
  simp only [List.cons_subset] at hc; unfold State.clearLocks; simp [*]
@[simp ↓] theorem State.l3Reset_blank {ps : List Part} (s : State) (i : Island) (cause : Nat) (hc : [Part.regs, .sys, .power, .host, .ns, .ftl, .media, .str, .sea, .dgs, .lynx, .dma, .disp, .hrt, .memory, .boot, .firmware, .health, .free] ⊆ ps) : (s.l3Reset i cause).blank ps = s.blank ps := by
  simp only [List.cons_subset] at hc; unfold State.l3Reset; simp [*]
@[simp ↓] theorem State.failRunning_blank {ps : List Part} (s : State) (p : Running → Bool) (st : Status) (hc : [Part.regs, .sys, .host, .ns, .ftl, .media, .str, .sea, .disp, .hrt, .health] ⊆ ps) : (s.failRunning p st).blank ps = s.blank ps := by
  simp only [List.cons_subset] at hc; unfold State.failRunning; simp [*]
@[simp ↓] theorem State.eraseFlow_blank {ps : List Part} (s : State) (i : Nat) (p : Stage → Bool) (hc : [Part.regs, .sys, .host, .ns, .ftl, .media, .str, .sea, .disp, .hrt, .health] ⊆ ps) : (s.eraseFlow i p).blank ps = s.blank ps := by
  simp only [List.cons_subset] at hc; unfold State.eraseFlow
  (repeat' (first | (with_reducible rfl) | assumption | (simp [*]; done) | (with_reducible refine (blank_foldl _ (fun _ _ => ?_) _ _).trans ?_) | (with_reducible refine (blank_iterate _ (fun _ _ => ?_) _ _).trans ?_) | (with_reducible refine (blank_foldl_p _ (fun _ _ => ?_) _ _).trans ?_) | (with_reducible refine blank_fst (by assumption) ?_) | (with_reducible refine blank_snd (by assumption) ?_) | (with_reducible refine blank_some (by assumption) ?_) | split | (simp only [blank_ite]) | (simp [*, -List.foldl_append, -Option.foldl_toList])))
@[simp ↓] theorem State.engineIslandReset_blank {ps : List Part} (s : State) (st : Status) (hc : [Part.regs, .sys, .host, .ns, .ftl, .media, .str, .sea, .dgs, .lynx, .dma, .disp, .hrt, .health] ⊆ ps) : (s.engineIslandReset st).blank ps = s.blank ps := by
  simp only [List.cons_subset] at hc; unfold State.engineIslandReset; simp [*]
@[simp ↓] theorem State.abortKernel_blank {ps : List Part} (s : State) (h : Nat) (st : Status) (hc : [Part.regs, .sys, .host, .ns, .ftl, .media, .str, .sea, .disp, .hrt, .health] ⊆ ps) : (s.abortKernel h st).blank ps = s.blank ps := by
  simp only [List.cons_subset] at hc; unfold State.abortKernel; (repeat' split) <;> simp [*]
@[simp ↓] theorem State.computeIslandReset_blank {ps : List Part} (s : State) (st : Status) (hc : [Part.regs, .sys, .host, .ns, .ftl, .media, .str, .sea, .disp, .hrt, .health] ⊆ ps) : (s.computeIslandReset st).blank ps = s.blank ps := by
  simp only [List.cons_subset] at hc; unfold State.computeIslandReset; simp [*]
@[simp ↓] theorem State.memIslandReset_blank {ps : List Part} (s : State) (hc : [Part.disp, .memory] ⊆ ps) : s.memIslandReset.blank ps = s.blank ps := by
  simp only [List.cons_subset] at hc; unfold State.memIslandReset; simp [*]
@[simp ↓] theorem State.reissue_blank {ps : List Part} (s : State) (w : Who) (hc : [Part.regs, .sys, .host, .ns, .ftl, .media, .str, .sea, .disp, .hrt, .health] ⊆ ps) : (s.reissue w).blank ps = s.blank ps := by
  simp only [List.cons_subset] at hc; unfold State.reissue; (repeat' split) <;> simp [*]
@[simp ↓] theorem State.resetLun_blank {ps : List Part} (s : State) (l : Nat) (hc : [Part.regs, .sys, .host, .ns, .ftl, .media, .str, .sea, .disp, .hrt, .boot, .health] ⊆ ps) : (s.resetLun l).blank ps = s.blank ps := by
  simp only [List.cons_subset] at hc; unfold State.resetLun; simp [*]
@[simp ↓] theorem State.mediaIslandReset_blank {ps : List Part} (s : State) (n : Nat) (st : Status) (hc : [Part.regs, .sys, .host, .ns, .ftl, .media, .str, .sea, .disp, .hrt, .boot, .health] ⊆ ps) : (s.mediaIslandReset n st).blank ps = s.blank ps := by
  simp only [List.cons_subset] at hc; unfold State.mediaIslandReset; simp [*]
@[simp ↓] theorem State.hostIslandReset_blank {ps : List Part} (s : State) (hc : [Part.regs, .sys, .power, .host, .ns, .ftl, .media, .str, .sea, .dgs, .disp, .hrt, .boot, .health] ⊆ ps) : s.hostIslandReset.blank ps = s.blank ps := by
  simp only [List.cons_subset] at hc; unfold State.hostIslandReset; simp [*]
@[simp ↓] theorem State.islandEffect_blank {ps : List Part} (s : State) (i : Island) (st : Status) (hc : [Part.regs, .sys, .power, .host, .ns, .ftl, .media, .str, .sea, .dgs, .lynx, .dma, .disp, .hrt, .memory, .boot, .health] ⊆ ps) : (s.islandEffect i st).blank ps = s.blank ps := by
  simp only [List.cons_subset] at hc; unfold State.islandEffect; (repeat' split) <;> simp [*]
@[simp ↓] theorem State.l2Reset_blank {ps : List Part} (s : State) (i : Island) (unit cause : Nat) (hc : [Part.regs, .sys, .power, .host, .ns, .ftl, .media, .str, .sea, .dgs, .lynx, .dma, .disp, .hrt, .memory, .boot, .firmware, .health, .free] ⊆ ps) : (s.l2Reset i unit cause).blank ps = s.blank ps := by
  simp only [List.cons_subset] at hc; unfold State.l2Reset; simp [*]
@[simp ↓] theorem State.engineEffect_blank {ps : List Part} (s : State) (cls : UnitClass) (timedOut : Option Nat) (hc : [Part.sea, .dgs, .lynx, .dma, .disp] ⊆ ps) : (s.engineEffect cls timedOut).blank ps = s.blank ps := by
  simp only [List.cons_subset] at hc; unfold State.engineEffect; (repeat' split) <;> simp [*]
@[simp ↓] theorem State.l1Reset_blank {ps : List Part} (s : State) (cls : UnitClass) (cause : Nat) (timedOut : Option Nat) (hc : [Part.regs, .sys, .power, .host, .ns, .ftl, .media, .str, .sea, .dgs, .lynx, .dma, .disp, .hrt, .memory, .boot, .firmware, .health, .free] ⊆ ps) : (s.l1Reset cls cause timedOut).blank ps = s.blank ps := by
  simp only [List.cons_subset] at hc; unfold State.l1Reset; simp [*]
@[simp ↓] theorem State.l1Hart_blank {ps : List Part} (s : State) (h cause : Nat) (hc : [Part.regs, .sys, .power, .host, .ns, .ftl, .media, .str, .sea, .dgs, .lynx, .dma, .disp, .hrt, .memory, .boot, .firmware, .health, .free] ⊆ ps) : (s.l1Hart h cause).blank ps = s.blank ps := by
  simp only [List.cons_subset] at hc; unfold State.l1Hart; simp [*]
@[simp ↓] theorem State.hartResetFails_blank {ps : List Part} (s : State) (h : Nat) (hc : [Part.regs, .sys, .power, .host, .ns, .ftl, .media, .str, .sea, .dgs, .lynx, .dma, .disp, .hrt, .memory, .boot, .firmware, .health, .free] ⊆ ps) : (s.hartResetFails h).blank ps = s.blank ps := by
  simp only [List.cons_subset] at hc; unfold State.hartResetFails; simp [*]
@[simp ↓] theorem State.failReads_blank {ps : List Part} (s : State) (hc : [Part.regs, .sys, .host, .ns, .ftl, .media, .str, .sea, .disp, .hrt, .health] ⊆ ps) : s.failReads.blank ps = s.blank ps := by
  simp only [List.cons_subset] at hc; unfold State.failReads; simp [*]
@[simp ↓] theorem State.thermalShutdown_blank {ps : List Part} (s : State) (hc : [Part.regs, .sys, .power, .host, .ns, .ftl, .media, .str, .sea, .dgs, .dma, .disp, .hrt, .memory, .boot, .health] ⊆ ps) : s.thermalShutdown.blank ps = s.blank ps := by
  simp only [List.cons_subset] at hc; unfold State.thermalShutdown; simp [*]
@[simp ↓] theorem State.forgetKeys_blank {ps : List Part} (s : State) (hc : [Part.ftl, .disp] ⊆ ps) : s.forgetKeys.blank ps = s.blank ps := by
  simp only [List.cons_subset] at hc; unfold State.forgetKeys; simp [*]
@[simp ↓] theorem State.failImports_blank {ps : List Part} (s : State) (hc : [Part.host, .boot, .health] ⊆ ps) : s.failImports.blank ps = s.blank ps := by
  simp only [List.cons_subset] at hc; unfold State.failImports
  (repeat' (first | (with_reducible rfl) | assumption | (simp [*]; done) | (with_reducible refine (blank_foldl _ (fun _ _ => ?_) _ _).trans ?_) | (with_reducible refine (blank_iterate _ (fun _ _ => ?_) _ _).trans ?_) | (with_reducible refine (blank_foldl_p _ (fun _ _ => ?_) _ _).trans ?_) | (with_reducible refine blank_fst (by assumption) ?_) | (with_reducible refine blank_snd (by assumption) ?_) | (with_reducible refine blank_some (by assumption) ?_) | (refine (State.onBoot_blank _ _ (by simp [*]) rfl rfl rfl).trans ?_) | split | (simp only [blank_ite]) | (simp [*, -List.foldl_append, -Option.foldl_toList])))
@[simp ↓] theorem State.alarm_blank {ps : List Part} (s : State) (a : AlarmCause) (hc : [Part.regs, .sys, .power, .host, .ns, .ftl, .media, .str, .sea, .dgs, .lynx, .dma, .disp, .hrt, .memory, .boot, .firmware, .health, .free] ⊆ ps) : (s.alarm a).blank ps = s.blank ps := by
  simp only [List.cons_subset] at hc; unfold State.alarm; simp [*]
@[simp ↓] theorem State.saveField_blank {ps : List Part} (s : State) (off : Nat) (hc : [Part.media, .health] ⊆ ps) : (s.saveField off).blank ps = s.blank ps := by
  simp only [List.cons_subset] at hc; unfold State.saveField; (repeat' split) <;> simp [*]
@[simp ↓] theorem State.writeFields_blank {ps : List Part} (s : State) (off : Nat) (v : W32) (hc : [Part.regs, .media, .health] ⊆ ps) : (s.writeFields off v).blank ps = s.blank ps := by
  simp only [List.cons_subset] at hc; unfold State.writeFields; simp [*]
@[simp ↓] theorem State.clearCounts_blank {ps : List Part} (s : State) (lo hi : Nat) (hc : [Part.regs] ⊆ ps) : (s.clearCounts lo hi).blank ps = s.blank ps := by
  simp only [List.cons_subset] at hc; unfold State.clearCounts; simp [*]
@[simp ↓] theorem State.resetRegs_blank {ps : List Part} (s : State) (offs : List Nat) (hc : [Part.regs] ⊆ ps) : (s.resetRegs offs).blank ps = s.blank ps := by
  simp only [List.cons_subset] at hc; unfold State.resetRegs; simp [*]
@[simp ↓] theorem State.clrBlock_blank {ps : List Part} (s : State) (ctl : Nat) (hc : [Part.regs, .power] ⊆ ps) : (s.clrBlock ctl).blank ps = s.blank ps := by
  simp only [List.cons_subset] at hc; unfold State.clrBlock; simp [*]
@[simp ↓] theorem State.ctlWrite_blank {ps : List Part} (s : State) (ctl : Nat) (v : W32) (hc : [Part.regs, .power, .media, .health] ⊆ ps) : (s.ctlWrite ctl v).blank ps = s.blank ps := by
  simp only [List.cons_subset] at hc; unfold State.ctlWrite; (repeat' split) <;> simp [*]
@[simp ↓] theorem State.stageOffset_blank {ps : List Part} (s : State) (n : Nat) (v : W32) (hc : [Part.media] ⊆ ps) : (s.stageOffset n v).blank ps = s.blank ps := by
  simp only [List.cons_subset] at hc; unfold State.stageOffset; simp [*]
@[simp ↓] theorem State.seedWrite_blank {ps : List Part} (s : State) (v : W32) (hc : [Part.media, .memory, .health] ⊆ ps) : (s.seedWrite v).blank ps = s.blank ps := by
  simp only [List.cons_subset] at hc; unfold State.seedWrite; simp [*]
@[simp ↓] theorem State.sensorWrite_blank {ps : List Part} (s : State) (v : W32) (hc : [Part.power, .media, .health] ⊆ ps) : (s.sensorWrite v).blank ps = s.blank ps := by
  simp only [List.cons_subset] at hc; unfold State.sensorWrite; simp [*]
@[simp ↓] theorem State.clearOnes_blank {ps : List Part} (s : State) (off : Nat) (m v : W32) (hc : [Part.regs] ⊆ ps) : (s.clearOnes off m v).blank ps = s.blank ps := by
  simp only [List.cons_subset] at hc; unfold State.clearOnes; simp [*]
@[simp ↓] theorem State.writeClears_blank {ps : List Part} (s : State) (off : Nat) (v : W32) (hc : [Part.regs, .str, .sea] ⊆ ps) : (s.writeClears off v).blank ps = s.blank ps := by
  simp only [List.cons_subset] at hc; unfold State.writeClears; simp [*]
@[simp ↓] theorem State.mailboxWrite_blank {ps : List Part} (s : State) (f : Fn) (manager : Bool) (o : Nat) (v : W32) (hc : [Part.host, .disp] ⊆ ps) : (s.mailboxWrite f manager o v).blank ps = s.blank ps := by
  simp only [List.cons_subset] at hc; unfold State.mailboxWrite; simp [*]
@[simp ↓] theorem State.reshapeBegin_blank {ps : List Part} (s : State) (g : Nat) (hc : [Part.sys, .host, .str] ⊆ ps) : (s.reshapeBegin g).blank ps = s.blank ps := by
  simp only [List.cons_subset] at hc; unfold State.reshapeBegin; (repeat' split) <;> simp [*]
@[simp ↓] theorem State.reshapeResume_blank {ps : List Part} (s : State) (r : Nat) (hc : [Part.regs, .sys, .host, .ns, .ftl, .media, .str, .sea, .disp, .hrt, .health] ⊆ ps) : (s.reshapeResume r).blank ps = s.blank ps := by
  simp only [List.cons_subset] at hc; unfold State.reshapeResume
  (repeat' (first | (with_reducible rfl) | assumption | (simp [*]; done) | (with_reducible refine (blank_foldl _ (fun _ _ => ?_) _ _).trans ?_) | (with_reducible refine (blank_iterate _ (fun _ _ => ?_) _ _).trans ?_) | (with_reducible refine (blank_foldl_p _ (fun _ _ => ?_) _ _).trans ?_) | (with_reducible refine blank_fst (by assumption) ?_) | (with_reducible refine blank_snd (by assumption) ?_) | (with_reducible refine blank_some (by assumption) ?_) | split | (simp only [blank_ite]) | (simp [*, -List.foldl_append, -Option.foldl_toList])))
@[simp ↓] theorem State.reshapeRegion_blank {ps : List Part} (s : State) (r : Nat) (hc : [Part.regs, .sys, .host, .ns, .ftl, .media, .str, .sea, .disp, .hrt, .health] ⊆ ps) : (s.reshapeRegion r).blank ps = s.blank ps := by
  simp only [List.cons_subset] at hc; unfold State.reshapeRegion; simp [*]
@[simp ↓] theorem State.takeSlot_blank {ps : List Part} (s : State) (nsid : Nat) (f : Fn) (iu : Nat) (hc : [Part.host, .ftl, .str, .health] ⊆ ps) : (s.takeSlot nsid f iu).blank ps = s.blank ps := by
  simp only [List.cons_subset] at hc; unfold State.takeSlot; (repeat' split) <;> simp [*]
@[simp ↓] theorem State.fillSlot_blank {ps : List Part} (s : State) (iu off : Nat) (bytes : List Byte) (hc : [Part.ftl] ⊆ ps) : (s.fillSlot iu off bytes).blank ps = s.blank ps := by
  simp only [List.cons_subset] at hc; unfold State.fillSlot; (repeat' split) <;> simp [*]
@[simp ↓] theorem State.writeIus_blank {ps : List Part} (s : State) (f : Fn) (nsid : Nat) (n : Ns) (slba nlb : Nat) (data : List Byte) (ius : List Nat) (hc : [Part.host, .ftl, .str, .health] ⊆ ps) : (s.writeIus f nsid n slba nlb data ius).blank ps = s.blank ps := by
  simp only [List.cons_subset] at hc; unfold State.writeIus; simp [*]
@[simp ↓] theorem State.charge_blank {ps : List Part} (s : State) (f : Fn) (bytes : Nat) (hc : [Part.host] ⊆ ps) : (s.charge f bytes).blank ps = s.blank ps := by
  simp only [List.cons_subset] at hc; unfold State.charge; simp [*]
@[simp ↓] theorem State.admitWrite_blank {ps : List Part} (s : State) (w : WaitingWrite) (n : Ns) (hc : [Part.regs, .sys, .host, .ns, .ftl, .media, .str, .sea, .disp, .hrt, .health] ⊆ ps) : (s.admitWrite w n).blank ps = s.blank ps := by
  simp only [List.cons_subset] at hc; unfold State.admitWrite
  (repeat' (first | (with_reducible rfl) | assumption | (simp [*]; done) | (with_reducible refine (blank_foldl _ (fun _ _ => ?_) _ _).trans ?_) | (with_reducible refine (blank_iterate _ (fun _ _ => ?_) _ _).trans ?_) | (with_reducible refine (blank_foldl_p _ (fun _ _ => ?_) _ _).trans ?_) | (with_reducible refine blank_fst (by assumption) ?_) | (with_reducible refine blank_snd (by assumption) ?_) | (with_reducible refine blank_some (by assumption) ?_) | split | (simp only [blank_ite]) | (simp [*, -List.foldl_append, -Option.foldl_toList])))
@[simp ↓] theorem State.countWrite_blank {ps : List Part} (s : State) (f : Fn) (bytes : Nat) (hc : [Part.health] ⊆ ps) : (s.countWrite f bytes).blank ps = s.blank ps := by
  simp only [List.cons_subset] at hc; unfold State.countWrite; simp [*]
@[simp ↓] theorem State.writeArrived_blank {ps : List Part} (s : State) (a : AdmittedWrite) (n : Ns) (data : List Byte) (hc : [Part.regs, .sys, .host, .ns, .ftl, .media, .str, .sea, .disp, .hrt, .health] ⊆ ps) : (s.writeArrived a n data).blank ps = s.blank ps := by
  simp only [List.cons_subset] at hc; unfold State.writeArrived; simp [*]
@[simp ↓] theorem State.kvFreed_blank {ps : List Part} (s : State) (n : Ns) (before : List Nat) (hc : [Part.host, .ftl, .str, .health] ⊆ ps) : (s.kvFreed n before).blank ps = s.blank ps := by
  simp only [List.cons_subset] at hc; unfold State.kvFreed; simp [*]
@[simp ↓] theorem State.kvArrived_blank {ps : List Part} (s : State) (a : AdmittedWrite) (n : Ns) (key value : List Byte) (hc : [Part.regs, .sys, .host, .ns, .ftl, .media, .str, .sea, .disp, .hrt, .health] ⊆ ps) : (s.kvArrived a n key value).blank ps = s.blank ps := by
  simp only [List.cons_subset] at hc; unfold State.kvArrived
  (repeat' (first | (with_reducible rfl) | assumption | (simp [*]; done) | (with_reducible refine (blank_foldl _ (fun _ _ => ?_) _ _).trans ?_) | (with_reducible refine (blank_iterate _ (fun _ _ => ?_) _ _).trans ?_) | (with_reducible refine (blank_foldl_p _ (fun _ _ => ?_) _ _).trans ?_) | (with_reducible refine blank_fst (by assumption) ?_) | (with_reducible refine blank_snd (by assumption) ?_) | (with_reducible refine blank_some (by assumption) ?_) | split | (simp only [blank_ite]) | (simp [*, -List.foldl_append, -Option.foldl_toList])))
@[simp ↓] theorem State.passTime_blank {ps : List Part} (s : State) (n : Nat) (hc : [Part.regs, .sys, .power, .host, .ns, .ftl, .media, .str, .sea, .dgs, .lynx, .dma, .disp, .hrt, .memory, .boot, .firmware, .health, .free] ⊆ ps) : (s.passTime n).blank ps = s.blank ps := by
  simp only [List.cons_subset] at hc; unfold State.passTime; simp [*]
@[simp ↓] theorem State.portCredits_blank {ps : List Part} (s : State) (p : Port) (hc : [Part.host] ⊆ ps) : (s.portCredits p).blank ps = s.blank ps := by
  simp only [List.cons_subset] at hc; unfold State.portCredits; simp [*]
@[simp ↓] theorem State.epochBudgets_blank {ps : List Part} (s : State) (hc : [Part.host, .ftl] ⊆ ps) : s.epochBudgets.blank ps = s.blank ps := by
  simp only [List.cons_subset] at hc; unfold State.epochBudgets; simp [*]
@[simp ↓] theorem State.applyShares_blank {ps : List Part} (s : State) (hc : [Part.host, .media, .health] ⊆ ps) : s.applyShares.blank ps = s.blank ps := by
  simp only [List.cons_subset] at hc; unfold State.applyShares
  (repeat' (first | (with_reducible rfl) | assumption | (simp [*]; done) | (with_reducible refine (blank_foldl _ (fun _ _ => ?_) _ _).trans ?_) | (with_reducible refine (blank_iterate _ (fun _ _ => ?_) _ _).trans ?_) | (with_reducible refine (blank_foldl_p _ (fun _ _ => ?_) _ _).trans ?_) | (with_reducible refine blank_fst (by assumption) ?_) | (with_reducible refine blank_snd (by assumption) ?_) | (with_reducible refine blank_some (by assumption) ?_) | split | (simp only [blank_ite]) | (simp [*, -List.foldl_append, -Option.foldl_toList])))
@[simp ↓] theorem State.enterWrite_blank {ps : List Part} (s : State) (w : Who) (kind : WriteKind) (nsid slba nlb : Nat) (hc : [Part.ftl] ⊆ ps) : (s.enterWrite w kind nsid slba nlb).blank ps = s.blank ps := by
  simp only [List.cons_subset] at hc; unfold State.enterWrite; simp [*]
@[simp ↓] theorem State.submitWrite_blank {ps : List Part} (s : State) (w : Who) (kind : WriteKind) (nsid slba nlb : Nat) (mdts : Bool) (hc : [Part.host, .ftl, .health] ⊆ ps) : (s.submitWrite w kind nsid slba nlb mdts).blank ps = s.blank ps := by
  simp only [List.cons_subset] at hc; unfold State.submitWrite; (repeat' split) <;> simp [*]
@[simp ↓] theorem State.memMissed_blank {ps : List Part} (s : State) (w : Who) (source : Island) (hc : [Part.regs, .sys, .host, .health] ⊆ ps) : (s.memMissed w source).blank ps = s.blank ps := by
  simp only [List.cons_subset] at hc; unfold State.memMissed; simp [*]
@[simp ↓] theorem State.submitRead_blank {ps : List Part} (s : State) (w : Who) (kind : ReadKind) (nsid slba nlb : Nat) (mdts : Bool) (hc : [Part.regs, .sys, .host, .ns, .ftl, .media, .str, .sea, .disp, .hrt, .health] ⊆ ps) : (s.submitRead w kind nsid slba nlb mdts).blank ps = s.blank ps := by
  simp only [List.cons_subset] at hc; unfold State.submitRead; (repeat' split) <;> simp [*]
@[simp ↓] theorem State.flushAll_blank {ps : List Part} (s : State) (hc : [Part.regs, .sys, .host, .ns, .ftl, .media, .str, .sea, .disp, .hrt, .health] ⊆ ps) : s.flushAll.blank ps = s.blank ps := by
  simp only [List.cons_subset] at hc; unfold State.flushAll; simp [*]
@[simp ↓] theorem State.appendOrFail_blank {ps : List Part} (s : State) (a : Append) (hc : [Part.regs, .sys, .host, .ns, .ftl, .media, .str, .sea, .disp, .hrt, .boot, .health] ⊆ ps) : (s.appendOrFail a).blank ps = s.blank ps := by
  simp only [List.cons_subset] at hc; unfold State.appendOrFail; (repeat' split) <;> simp [*]
@[simp ↓] theorem State.hibernateBegin_blank {ps : List Part} (s : State) (w : Who) (hc : [Part.regs, .sys, .power, .host, .ns, .ftl, .media, .str, .sea, .disp, .hrt, .health] ⊆ ps) : (s.hibernateBegin w).blank ps = s.blank ps := by
  simp only [List.cons_subset] at hc; unfold State.hibernateBegin; simp [*]
@[simp ↓] theorem State.serveMode_blank {ps : List Part} (s : State) (w : Who) (m : Mode) (hc : [Part.regs, .sys, .power, .host, .ns, .ftl, .media, .str, .sea, .disp, .hrt, .health] ⊆ ps) : (s.serveMode w m).blank ps = s.blank ps := by
  simp only [List.cons_subset] at hc; unfold State.serveMode; simp [*]
@[simp ↓] theorem serveWaiting_blank {ps : List Part} (a0 : List ModeReq) (a1 : State) (hc : [Part.regs, .sys, .power, .host, .ns, .ftl, .media, .str, .sea, .disp, .hrt, .health] ⊆ ps) : (serveWaiting a0 a1).blank ps = a1.blank ps := by
  simp only [List.cons_subset] at hc
  first
  | (unfold serveWaiting; (repeat' (first | (with_reducible rfl) | assumption | (simp [*]; done) | (with_reducible refine (blank_foldl _ (fun _ _ => ?_) _ _).trans ?_) | (with_reducible refine (blank_iterate _ (fun _ _ => ?_) _ _).trans ?_) | (with_reducible refine (blank_foldl_p _ (fun _ _ => ?_) _ _).trans ?_) | (with_reducible refine blank_fst (by assumption) ?_) | (with_reducible refine blank_snd (by assumption) ?_) | (with_reducible refine blank_some (by assumption) ?_) | split | (simp only [blank_ite]) | (simp [*, -List.foldl_append, -Option.foldl_toList]))); done)
  | (fun_induction serveWaiting a0 a1 <;> (repeat' (first | (with_reducible rfl) | assumption | (simp [*]; done) | (with_reducible refine Eq.trans (by assumption) ?_) | (with_reducible refine (blank_foldl _ (fun _ _ => ?_) _ _).trans ?_) | (with_reducible refine (blank_iterate _ (fun _ _ => ?_) _ _).trans ?_) | (with_reducible refine (blank_foldl_p _ (fun _ _ => ?_) _ _).trans ?_) | (with_reducible refine blank_fst (by assumption) ?_) | (with_reducible refine blank_snd (by assumption) ?_) | (with_reducible refine blank_some (by assumption) ?_) | split | (simp only [blank_ite]) | (simp [*, -List.foldl_append, -Option.foldl_toList]))))
@[simp ↓] theorem State.wakeBy_blank {ps : List Part} (s : State) (cause : WakeCause) (hc : [Part.power, .host, .lynx] ⊆ ps) : (s.wakeBy cause).blank ps = s.blank ps := by
  simp only [List.cons_subset] at hc; unfold State.wakeBy; simp [*]
@[simp ↓] theorem State.modeRequest_blank {ps : List Part} (s : State) (w : Who) (save : Bool) (cdw11 : W32) (hc : [Part.regs, .sys, .power, .host, .ns, .ftl, .media, .str, .sea, .disp, .hrt, .health] ⊆ ps) : (s.modeRequest w save cdw11).blank ps = s.blank ps := by
  simp only [List.cons_subset] at hc; unfold State.modeRequest; (repeat' split) <;> simp [*]
@[simp ↓] theorem State.modeCommand_blank {ps : List Part} (s : State) (w : Who) (save : Bool) (cdw11 : W32) (hc : [Part.regs, .sys, .power, .host, .ns, .ftl, .media, .str, .sea, .lynx, .disp, .hrt, .health] ⊆ ps) : (s.modeCommand w save cdw11).blank ps = s.blank ps := by
  simp only [List.cons_subset] at hc; unfold State.modeCommand; simp [*]
@[simp ↓] theorem State.abandonTransition_blank {ps : List Part} (s : State) (hc : [Part.power, .host, .health] ⊆ ps) : s.abandonTransition.blank ps = s.blank ps := by
  simp only [List.cons_subset] at hc; unfold State.abandonTransition; (repeat' split) <;> simp [*]
@[simp ↓] theorem State.autoChange_blank {ps : List Part} (s : State) (m : Mode) (cause rank : Nat) (hc : [Part.power, .host, .health] ⊆ ps) : (s.autoChange m cause rank).blank ps = s.blank ps := by
  simp only [List.cons_subset] at hc; unfold State.autoChange; (repeat' split) <;> simp [*]
@[simp ↓] theorem State.endSprint_blank {ps : List Part} (s : State) (cause rank : Nat) (hc : [Part.power, .host, .health] ⊆ ps) : (s.endSprint cause rank).blank ps = s.blank ps := by
  simp only [List.cons_subset] at hc; unfold State.endSprint
  (repeat' (first | (with_reducible rfl) | assumption | (simp [*]; done) | (with_reducible refine (blank_foldl _ (fun _ _ => ?_) _ _).trans ?_) | (with_reducible refine (blank_iterate _ (fun _ _ => ?_) _ _).trans ?_) | (with_reducible refine (blank_foldl_p _ (fun _ _ => ?_) _ _).trans ?_) | (with_reducible refine blank_fst (by assumption) ?_) | (with_reducible refine blank_snd (by assumption) ?_) | (with_reducible refine blank_some (by assumption) ?_) | split | (simp only [blank_ite]) | (simp [*, -List.foldl_append, -Option.foldl_toList])))
@[simp ↓] theorem State.reportChange_blank {ps : List Part} (s : State) (cause : Nat) (old new : Mode) (hc : [Part.host, .health] ⊆ ps) : (s.reportChange cause old new).blank ps = s.blank ps := by
  simp only [List.cons_subset] at hc; unfold State.reportChange; simp [*]
@[simp ↓] theorem State.countChange_blank {ps : List Part} (s : State) (cause : Nat) (old new : Mode) (hc : [Part.regs, .health] ⊆ ps) : (s.countChange cause old new).blank ps = s.blank ps := by
  simp only [List.cons_subset] at hc; unfold State.countChange; simp [*]
@[simp ↓] theorem State.leaveEmber_blank {ps : List Part} (s : State) (hc : [Part.regs, .sys, .power, .host, .ns, .ftl, .media, .str, .sea, .disp, .hrt, .health] ⊆ ps) : s.leaveEmber.blank ps = s.blank ps := by
  simp only [List.cons_subset] at hc; unfold State.leaveEmber; simp [*]
@[simp ↓] theorem State.thermalModes_blank {ps : List Part} (s : State) (t : Int) (hc : [Part.regs, .sys, .power, .host, .ns, .ftl, .media, .str, .sea, .disp, .hrt, .health] ⊆ ps) : (s.thermalModes t).blank ps = s.blank ps := by
  simp only [List.cons_subset] at hc; unfold State.thermalModes; simp [*]
@[simp ↓] theorem State.thermalWrites_blank {ps : List Part} (s : State) (t : Int) (hc : [Part.regs, .sys, .power, .host, .ns, .ftl, .media, .str, .sea, .disp, .hrt, .health] ⊆ ps) : (s.thermalWrites t).blank ps = s.blank ps := by
  simp only [List.cons_subset] at hc; unfold State.thermalWrites; simp [*]
@[simp ↓] theorem State.takeSample_blank {ps : List Part} (s : State) (raw : List Int) (hc : [Part.power, .host, .health] ⊆ ps) : (s.takeSample raw).blank ps = s.blank ps := by
  simp only [List.cons_subset] at hc; unfold State.takeSample; simp [*]
@[simp ↓] theorem State.wakeForDump_blank {ps : List Part} (s : State) (hc : [Part.sys, .memory] ⊆ ps) : s.wakeForDump.blank ps = s.blank ps := by
  simp only [List.cons_subset] at hc; unfold State.wakeForDump; simp [*]
@[simp ↓] theorem State.thermalRestart_blank {ps : List Part} (s : State) (hc : [Part.regs, .sys, .power, .host, .ns, .ftl, .media, .str, .sea, .dgs, .lynx, .dma, .disp, .hrt, .memory, .boot, .firmware, .health, .free] ⊆ ps) : s.thermalRestart.blank ps = s.blank ps := by
  simp only [List.cons_subset] at hc
  first
  | (unfold State.thermalRestart; (repeat' (first | (with_reducible rfl) | assumption | (simp [*]; done) | (with_reducible refine (blank_foldl _ (fun _ _ => ?_) _ _).trans ?_) | (with_reducible refine (blank_iterate _ (fun _ _ => ?_) _ _).trans ?_) | (with_reducible refine (blank_foldl_p _ (fun _ _ => ?_) _ _).trans ?_) | (with_reducible refine blank_fst (by assumption) ?_) | (with_reducible refine blank_snd (by assumption) ?_) | (with_reducible refine blank_some (by assumption) ?_) | split | (simp only [blank_ite]) | (simp [*, -List.foldl_append, -Option.foldl_toList]))); done)
  | (fun_induction State.thermalRestart s <;> (repeat' (first | (with_reducible rfl) | assumption | (simp [*]; done) | (with_reducible refine Eq.trans (by assumption) ?_) | (with_reducible refine (blank_foldl _ (fun _ _ => ?_) _ _).trans ?_) | (with_reducible refine (blank_iterate _ (fun _ _ => ?_) _ _).trans ?_) | (with_reducible refine (blank_foldl_p _ (fun _ _ => ?_) _ _).trans ?_) | (with_reducible refine blank_fst (by assumption) ?_) | (with_reducible refine blank_snd (by assumption) ?_) | (with_reducible refine blank_some (by assumption) ?_) | split | (simp only [blank_ite]) | (simp [*, -List.foldl_append, -Option.foldl_toList]))))
@[simp ↓] theorem State.powerFail_blank {ps : List Part} (s : State) (dc : DumpCause) (hc : [Part.regs, .sys, .power, .host, .ns, .ftl, .media, .str, .sea, .dgs, .lynx, .dma, .disp, .hrt, .memory, .boot, .firmware, .health, .free] ⊆ ps) : (s.powerFail dc).blank ps = s.blank ps := by
  simp only [List.cons_subset] at hc; unfold State.powerFail
  (repeat' (first | (with_reducible rfl) | assumption | (simp [*]; done) | (with_reducible refine (blank_foldl _ (fun _ _ => ?_) _ _).trans ?_) | (with_reducible refine (blank_iterate _ (fun _ _ => ?_) _ _).trans ?_) | (with_reducible refine (blank_foldl_p _ (fun _ _ => ?_) _ _).trans ?_) | (with_reducible refine blank_fst (by assumption) ?_) | (with_reducible refine blank_snd (by assumption) ?_) | (with_reducible refine blank_some (by assumption) ?_) | split | (simp only [blank_ite]) | (simp [*, -List.foldl_append, -Option.foldl_toList])))
@[simp ↓] theorem State.pfailSeen_blank {ps : List Part} (s : State) (hc : [Part.regs, .sys, .power, .host, .ns, .ftl, .media, .str, .sea, .dgs, .lynx, .dma, .disp, .hrt, .memory, .boot, .firmware, .health, .free] ⊆ ps) : s.pfailSeen.blank ps = s.blank ps := by
  simp only [List.cons_subset] at hc; unfold State.pfailSeen; simp [*]
@[simp ↓] theorem State.holdBoot_blank {ps : List Part} (s : State) (hc : [Part.regs, .sys, .power, .host, .ns, .ftl, .media, .str, .sea, .dgs, .lynx, .dma, .disp, .hrt, .memory, .boot, .firmware, .health, .free] ⊆ ps) : s.holdBoot.blank ps = s.blank ps := by
  simp only [List.cons_subset] at hc; unfold State.holdBoot; simp [*]
@[simp ↓] theorem State.setLife_blank {ps : List Part} (s : State) (key v : Nat) (hc : [Part.health] ⊆ ps) : (s.setLife key v).blank ps = s.blank ps := by
  simp only [List.cons_subset] at hc; unfold State.setLife; simp [*]
@[simp ↓] theorem State.tempSecond_blank {ps : List Part} (s : State) (i : Nat) (t : Int) (hc : [Part.health] ⊆ ps) : (s.tempSecond i t).blank ps = s.blank ps := by
  simp only [List.cons_subset] at hc; unfold State.tempSecond; simp [*]
@[simp ↓] theorem State.busySecond_blank {ps : List Part} (s : State) (hc : [Part.health] ⊆ ps) : s.busySecond.blank ps = s.blank ps := by
  simp only [List.cons_subset] at hc; unfold State.busySecond; simp [*]

end

end Sys2Proof.Machine
end

