-- ==== Sys2Proof/Laws/FrameTrails.lean ====
section
/-! SUPPORT. What each operation may change: the operations of Machine/TrailOps, Modules, Trails, TaskOps, Host, Security, Boot, Media, Dram, Tasks. -/

namespace Sys2Proof.Machine

section
set_option Elab.async false
set_option linter.unusedTactic false
set_option linter.unreachableTactic false
set_option linter.unusedSimpArgs false

@[simp ↓] theorem State.startNonceWrite_blank {ps : List Part} (s : State) (t : Trail) (hc : [Part.media, .sea] ⊆ ps) : (s.startNonceWrite t).blank ps = s.blank ps := by
  simp only [List.cons_subset] at hc; unfold State.startNonceWrite; (repeat' split) <;> simp [*]
@[simp ↓] theorem State.openContexts_blank {ps : List Part} (s : State) (flow : Nat) (t : Trail) (hc : [Part.dgs] ⊆ ps) : (s.openContexts flow t).blank ps = s.blank ps := by
  simp only [List.cons_subset] at hc; unfold State.openContexts
  (repeat' (first | (with_reducible rfl) | assumption | (simp [*]; done) | (with_reducible refine (blank_foldl _ (fun _ _ => ?_) _ _).trans ?_) | (with_reducible refine (blank_iterate _ (fun _ _ => ?_) _ _).trans ?_) | (with_reducible refine (blank_foldl_p _ (fun _ _ => ?_) _ _).trans ?_) | (with_reducible refine blank_fst (by assumption) ?_) | (with_reducible refine blank_snd (by assumption) ?_) | (with_reducible refine blank_some (by assumption) ?_) | split | (simp only [blank_ite]) | (simp [*, -List.foldl_append, -Option.foldl_toList])))
@[simp ↓] theorem State.bindTrail_blank {ps : List Part} (s : State) (f : Fn) (c : Checked) (execBy : Option Who) (hc : [Part.regs, .sys, .host, .ns, .ftl, .media, .str, .sea, .dgs, .disp, .hrt, .health] ⊆ ps) : (s.bindTrail f c execBy).1.blank ps = s.blank ps := by
  simp only [List.cons_subset] at hc; unfold State.bindTrail; (repeat' split) <;> simp [*]
@[simp ↓] theorem State.countRefused_blank {ps : List Part} (s : State) (r : Refused) (hc : [Part.regs] ⊆ ps) : (s.countRefused r).blank ps = s.blank ps := by
  simp only [List.cons_subset] at hc; unfold State.countRefused; simp [*]
@[simp ↓] theorem State.admitTrail_blank {ps : List Part} (s : State) (w : Who) (c : Checked) (exec : Bool) (hc : [Part.regs, .sys, .power, .host, .ns, .ftl, .media, .str, .sea, .dgs, .lynx, .dma, .disp, .hrt, .memory, .boot, .firmware, .health, .free] ⊆ ps) : (s.admitTrail w c exec).blank ps = s.blank ps := by
  simp only [List.cons_subset] at hc; unfold State.admitTrail; simp [*]
@[simp ↓] theorem State.refuseTrail_blank {ps : List Part} (s : State) (w : Who) (r : Refused) (hc : [Part.regs, .host, .health] ⊆ ps) : (s.refuseTrail w r).blank ps = s.blank ps := by
  simp only [List.cons_subset] at hc; unfold State.refuseTrail; simp [*]
@[simp ↓] theorem State.moduleLoad_blank {ps : List Part} (s : State) (w : Who) (cdw10 cdw11 : W32) (received : List Byte) (hc : [Part.regs, .sys, .host, .ns, .ftl, .media, .str, .sea, .disp, .hrt, .health] ⊆ ps) : (s.moduleLoad w cdw10 cdw11 received).blank ps = s.blank ps := by
  simp only [List.cons_subset] at hc; unfold State.moduleLoad; (repeat' split) <;> simp [*]
@[simp ↓] theorem State.cancelFlow_blank {ps : List Part} (s : State) (i : Nat) (hc : [Part.regs, .sys, .host, .ns, .ftl, .media, .str, .sea, .disp, .hrt, .health] ⊆ ps) : (s.cancelFlow i).blank ps = s.blank ps := by
  simp only [List.cons_subset] at hc; unfold State.cancelFlow; (repeat' split) <;> simp [*]
@[simp ↓] theorem State.answerQuery_blank {ps : List Part} (s : State) (w : Who) (i : Nat) (x : Flow) (hc : [Part.host, .health] ⊆ ps) : (s.answerQuery w i x).blank ps = s.blank ps := by
  simp only [List.cons_subset] at hc; unfold State.answerQuery; simp [*]
@[simp ↓] theorem State.sourceEnds_blank {ps : List Part} (s : State) (flow : Nat) (f : Flow) (total : Nat) (hc : [Part.disp] ⊆ ps) : (s.sourceEnds flow f total).blank ps = s.blank ps := by
  simp only [List.cons_subset] at hc; unfold State.sourceEnds; simp [*]
@[simp ↓] theorem State.writeAt_blank {ps : List Part} (s : State) (f : Fn) (slm : Bool) (addr : Nat) (bs : List Byte) (hc : [Part.regs, .sys, .host, .ns, .ftl, .media, .str, .sea, .disp, .hrt, .memory, .health] ⊆ ps) : (s.writeAt f slm addr bs).blank ps = s.blank ps := by
  simp only [List.cons_subset] at hc; unfold State.writeAt; simp [*]
@[simp ↓] theorem State.writeDigest_blank {ps : List Part} (s : State) (i : Nat) (f : Flow) (seen : List Comparators) (e : Nat × Nat) (hc : [Part.regs, .sys, .host, .ns, .ftl, .media, .str, .sea, .disp, .hrt, .memory, .health] ⊆ ps) : (s.writeDigest i f seen e).blank ps = s.blank ps := by
  simp only [List.cons_subset] at hc; unfold State.writeDigest; (repeat' split) <;> simp [*]
@[simp ↓] theorem State.freeFlowParts_blank {ps : List Part} (s : State) (i : Nat) (hc : [Part.regs, .sys, .host, .ns, .ftl, .media, .str, .sea, .dgs, .disp, .hrt, .health] ⊆ ps) : (s.freeFlowParts i).blank ps = s.blank ps := by
  simp only [List.cons_subset] at hc; unfold State.freeFlowParts; simp [*]
@[simp ↓] theorem State.countRecord_blank {ps : List Part} (s : State) (st : Status) (cancelled : Bool) (hc : [Part.regs] ⊆ ps) : (s.countRecord st cancelled).blank ps = s.blank ps := by
  simp only [List.cons_subset] at hc; unfold State.countRecord; simp [*]
@[simp ↓] theorem State.answerEnd_blank {ps : List Part} (s : State) (i : Nat) (f : Flow) (st : Status) (hc : [Part.host, .health] ⊆ ps) : (s.answerEnd i f st).blank ps = s.blank ps := by
  simp only [List.cons_subset] at hc; unfold State.answerEnd; (repeat' split) <;> simp [*]
@[simp ↓] theorem State.endTrail_blank {ps : List Part} (s : State) (i : Nat) (f : Flow) (seen : List Comparators) (hc : [Part.regs, .sys, .host, .ns, .ftl, .media, .str, .sea, .dgs, .disp, .hrt, .memory, .health] ⊆ ps) : (s.endTrail i f seen).blank ps = s.blank ps := by
  simp only [List.cons_subset] at hc; unfold State.endTrail; simp [*]
@[simp ↓] theorem State.emit_blank {ps : List Part} (s : State) (t : Task) (p : Payload) (skipped : Bool) (hc : [Part.regs, .sys, .host, .ns, .ftl, .media, .str, .sea, .disp, .hrt, .health] ⊆ ps) : (s.emit t p skipped).blank ps = s.blank ps := by
  simp only [List.cons_subset] at hc; unfold State.emit; (repeat' split) <;> simp [*]
@[simp ↓] theorem State.passOn_blank {ps : List Part} (s : State) (t : Task) (hc : [Part.regs, .sys, .host, .ns, .ftl, .media, .str, .sea, .disp, .hrt, .health] ⊆ ps) : (s.passOn t).blank ps = s.blank ps := by
  simp only [List.cons_subset] at hc; unfold State.passOn; simp [*]
@[simp ↓] theorem State.lastChunk_blank {ps : List Part} (s : State) (flow : Nat) (hc : [Part.disp] ⊆ ps) : (s.lastChunk flow).blank ps = s.blank ps := by
  simp only [List.cons_subset] at hc; unfold State.lastChunk; simp [*]
@[simp ↓] theorem State.countDma_blank {ps : List Part} (s : State) (n : Nat) (hc : [Part.regs] ⊆ ps) : (s.countDma n).blank ps = s.blank ps := by
  simp only [List.cons_subset] at hc; unfold State.countDma; simp [*]
@[simp ↓] theorem State.dmaTaskFail_blank {ps : List Part} (s : State) (t : Task) (channel code addr : Nat) (hc : [Part.regs, .sys, .power, .host, .ns, .ftl, .media, .str, .sea, .dgs, .dma, .disp, .hrt, .boot, .health] ⊆ ps) : (s.dmaTaskFail t channel code addr).blank ps = s.blank ps := by
  simp only [List.cons_subset] at hc; unfold State.dmaTaskFail; simp [*]
@[simp ↓] theorem State.sourceData_blank {ps : List Part} (s : State) (t : Task) (bs : List Byte) (hc : [Part.regs, .sys, .host, .ns, .ftl, .media, .str, .sea, .disp, .hrt, .health] ⊆ ps) : (s.sourceData t bs).blank ps = s.blank ps := by
  simp only [List.cons_subset] at hc; unfold State.sourceData; simp [*]
@[simp ↓] theorem State.runMemorySource_blank {ps : List Part} (s : State) (f : Flow) (t : Task) (channel : Nat) (hv : HostView) (st : Stage) (hc : [Part.regs, .sys, .power, .host, .ns, .ftl, .media, .str, .sea, .dgs, .dma, .disp, .hrt, .boot, .health] ⊆ ps) : (s.runMemorySource f t channel hv st).blank ps = s.blank ps := by
  simp only [List.cons_subset] at hc; unfold State.runMemorySource
  (repeat' split)
  all_goals (repeat' (first | (with_reducible rfl) | assumption | (simp [*]; done) | (with_reducible refine (blank_foldl _ (fun _ _ => ?_) _ _).trans ?_) | (with_reducible refine (blank_iterate _ (fun _ _ => ?_) _ _).trans ?_) | (with_reducible refine (blank_foldl_p _ (fun _ _ => ?_) _ _).trans ?_) | (with_reducible refine blank_fst (by assumption) ?_) | (with_reducible refine blank_snd (by assumption) ?_) | (with_reducible refine blank_some (by assumption) ?_) | split | (simp only [blank_ite]) | (simp [*, -List.foldl_append, -Option.foldl_toList])))
@[simp ↓] theorem State.sourceUnread_blank {ps : List Part} (s : State) (f : Flow) (t : Task) (st : Status) (hc : [Part.regs, .sys, .host, .ns, .ftl, .media, .str, .sea, .disp, .hrt, .health] ⊆ ps) : (s.sourceUnread f t st).blank ps = s.blank ps := by
  simp only [List.cons_subset] at hc; unfold State.sourceUnread; simp [*]
@[simp ↓] theorem State.readSource_blank {ps : List Part} (s : State) (t : Task) (n : Ns) (nsid slba from_ nlb : Nat) (hc : [Part.regs, .sys, .host, .ns, .ftl, .media, .str, .sea, .disp, .hrt, .health] ⊆ ps) : (s.readSource t n nsid slba from_ nlb).blank ps = s.blank ps := by
  simp only [List.cons_subset] at hc; unfold State.readSource; simp [*]
@[simp ↓] theorem State.runLbaSource_blank {ps : List Part} (s : State) (f : Flow) (t : Task) (slotted : Bool) (nsid slot : Nat) (hc : [Part.regs, .sys, .host, .ns, .ftl, .media, .str, .sea, .disp, .hrt, .health] ⊆ ps) : (s.runLbaSource f t slotted nsid slot).1.blank ps = s.blank ps := by
  simp only [List.cons_subset] at hc; unfold State.runLbaSource
  (repeat' (first | (with_reducible rfl) | assumption | (simp [*]; done) | (with_reducible refine (blank_foldl _ (fun _ _ => ?_) _ _).trans ?_) | (with_reducible refine (blank_iterate _ (fun _ _ => ?_) _ _).trans ?_) | (with_reducible refine (blank_foldl_p _ (fun _ _ => ?_) _ _).trans ?_) | (with_reducible refine blank_fst (by assumption) ?_) | (with_reducible refine blank_snd (by assumption) ?_) | (with_reducible refine blank_some (by assumption) ?_) | split | (simp only [blank_ite]) | (simp [*, -List.foldl_append, -Option.foldl_toList])))
@[simp ↓] theorem State.runXts_blank {ps : List Part} (s : State) (f : Flow) (t : Task) (enc : Bool) (slot du tweak : Nat) (hc : [Part.regs, .sys, .host, .ns, .ftl, .media, .str, .sea, .disp, .hrt, .health] ⊆ ps) : (s.runXts f t enc slot du tweak).blank ps = s.blank ps := by
  simp only [List.cons_subset] at hc; unfold State.runXts; simp [*]
@[simp ↓] theorem State.tagFail_blank {ps : List Part} (s : State) (t : Task) (hc : [Part.regs, .sys, .host, .ns, .ftl, .media, .str, .sea, .disp, .hrt, .health] ⊆ ps) : (s.tagFail t).blank ps = s.blank ps := by
  simp only [List.cons_subset] at hc; unfold State.tagFail; simp [*]
@[simp ↓] theorem State.runGcm_blank {ps : List Part} (s : State) (f : Flow) (t : Task) (enc : Bool) (src : Nat) (nonce : List Byte) (hc : [Part.regs, .sys, .host, .ns, .ftl, .media, .str, .sea, .disp, .hrt, .health] ⊆ ps) : (s.runGcm f t enc src nonce).blank ps = s.blank ps := by
  simp only [List.cons_subset] at hc; unfold State.runGcm
  (repeat' (first | (with_reducible rfl) | assumption | (simp [*]; done) | (with_reducible refine (blank_foldl _ (fun _ _ => ?_) _ _).trans ?_) | (with_reducible refine (blank_iterate _ (fun _ _ => ?_) _ _).trans ?_) | (with_reducible refine (blank_foldl_p _ (fun _ _ => ?_) _ _).trans ?_) | (with_reducible refine blank_fst (by assumption) ?_) | (with_reducible refine blank_snd (by assumption) ?_) | (with_reducible refine blank_some (by assumption) ?_) | split | (simp only [blank_ite]) | (simp [*, -List.foldl_append, -Option.foldl_toList])))
@[simp ↓] theorem State.runCodec_blank {ps : List Part} (s : State) (f : Flow) (t : Task) (encode : Bool) (width : Nat) (hc : [Part.regs, .sys, .host, .ns, .ftl, .media, .str, .sea, .disp, .hrt, .health] ⊆ ps) : (s.runCodec f t encode width).blank ps = s.blank ps := by
  simp only [List.cons_subset] at hc; unfold State.runCodec
  (repeat' (first | (with_reducible rfl) | assumption | (simp [*]; done) | (with_reducible refine (blank_foldl _ (fun _ _ => ?_) _ _).trans ?_) | (with_reducible refine (blank_iterate _ (fun _ _ => ?_) _ _).trans ?_) | (with_reducible refine (blank_foldl_p _ (fun _ _ => ?_) _ _).trans ?_) | (with_reducible refine blank_fst (by assumption) ?_) | (with_reducible refine blank_snd (by assumption) ?_) | (with_reducible refine blank_some (by assumption) ?_) | split | (simp only [blank_ite]) | (simp [*, -List.foldl_append, -Option.foldl_toList])))
@[simp ↓] theorem State.matchRecords_blank {ps : List Part} (s : State) (table copy op keyOff keyLen : Nat) (out : List Byte) (a0 : List (List Byte)) (hc : [Part.regs, .lynx, .health] ⊆ ps) : (s.matchRecords table copy op keyOff keyLen out a0).1.blank ps = s.blank ps := by
  simp only [List.cons_subset] at hc
  first
  | (unfold State.matchRecords; (repeat' (first | (with_reducible rfl) | assumption | (simp [*]; done) | (with_reducible refine (blank_foldl _ (fun _ _ => ?_) _ _).trans ?_) | (with_reducible refine (blank_iterate _ (fun _ _ => ?_) _ _).trans ?_) | (with_reducible refine (blank_foldl_p _ (fun _ _ => ?_) _ _).trans ?_) | (with_reducible refine blank_fst (by assumption) ?_) | (with_reducible refine blank_snd (by assumption) ?_) | (with_reducible refine blank_some (by assumption) ?_) | split | (simp only [blank_ite]) | (simp [*, -List.foldl_append, -Option.foldl_toList]))); done)
  | (fun_induction State.matchRecords s table copy op keyOff keyLen out a0 <;> (repeat' (first | (with_reducible rfl) | assumption | (simp [*]; done) | (with_reducible refine Eq.trans (by assumption) ?_) | (with_reducible refine (blank_foldl _ (fun _ _ => ?_) _ _).trans ?_) | (with_reducible refine (blank_iterate _ (fun _ _ => ?_) _ _).trans ?_) | (with_reducible refine (blank_foldl_p _ (fun _ _ => ?_) _ _).trans ?_) | (with_reducible refine blank_fst (by assumption) ?_) | (with_reducible refine blank_snd (by assumption) ?_) | (with_reducible refine blank_some (by assumption) ?_) | split | (simp only [blank_ite]) | (simp [*, -List.foldl_append, -Option.foldl_toList]))))
@[simp ↓] theorem State.insertRecords_blank {ps : List Part} (s : State) (table copy keyOff keyLen value : Nat) (a0 : List (List Byte)) (hc : [Part.regs, .lynx, .health] ⊆ ps) : (s.insertRecords table copy keyOff keyLen value a0).1.blank ps = s.blank ps := by
  simp only [List.cons_subset] at hc
  induction a0 generalizing s with
  | nil => rfl
  | cons r rs ih =>
    unfold State.insertRecords
    split
    · rfl
    extract_lets a s1
    have e1 : s1.blank ps = s.blank ps := by simp [s1, hc]
    split
    · exact e1
    · have e2 := fun v => State.lynxInsert_blank (ps := ps) s1 table (slice r keyOff keyLen) value v (by simp [hc])
      dsimp only
      split
      · exact (e2 _).trans e1
      · exact (ih _).trans ((e2 _).trans e1)
@[simp ↓] theorem State.runLynx_blank {ps : List Part} (s : State) (f : Flow) (t : Task) (unit op table keyOff keyLen : Nat) (soft : List SoftEntry) (hc : [Part.regs, .sys, .host, .ns, .ftl, .media, .str, .sea, .lynx, .disp, .hrt, .health] ⊆ ps) : (s.runLynx f t unit op table keyOff keyLen soft).blank ps = s.blank ps := by
  simp only [List.cons_subset] at hc; unfold State.runLynx
  (repeat' (first | (with_reducible rfl) | assumption | (simp [*]; done) | (with_reducible refine (blank_foldl _ (fun _ _ => ?_) _ _).trans ?_) | (with_reducible refine (blank_iterate _ (fun _ _ => ?_) _ _).trans ?_) | (with_reducible refine (blank_foldl_p _ (fun _ _ => ?_) _ _).trans ?_) | (with_reducible refine blank_fst (by assumption) ?_) | (with_reducible refine blank_snd (by assumption) ?_) | (with_reducible refine blank_some (by assumption) ?_) | split | (simp only [blank_ite]) | (simp [*, -List.foldl_append, -Option.foldl_toList])))
@[simp ↓] theorem State.runDigest_blank {ps : List Part} (s : State) (f : Flow) (t : Task) (hc : [Part.regs, .sys, .host, .ns, .ftl, .media, .str, .sea, .dgs, .disp, .hrt, .health] ⊆ ps) : (s.runDigest f t).blank ps = s.blank ps := by
  simp only [List.cons_subset] at hc; unfold State.runDigest
  (repeat' (first | (with_reducible rfl) | assumption | (simp [*]; done) | (with_reducible refine (blank_foldl _ (fun _ _ => ?_) _ _).trans ?_) | (with_reducible refine (blank_iterate _ (fun _ _ => ?_) _ _).trans ?_) | (with_reducible refine (blank_foldl_p _ (fun _ _ => ?_) _ _).trans ?_) | (with_reducible refine blank_fst (by assumption) ?_) | (with_reducible refine blank_snd (by assumption) ?_) | (with_reducible refine blank_some (by assumption) ?_) | split | (simp only [blank_ite]) | (simp [*, -List.foldl_append, -Option.foldl_toList])))
@[simp ↓] theorem State.sinkDone_blank {ps : List Part} (s : State) (f : Flow) (t : Task) (keep : Nat) (miss : Option (Nat × Nat)) (hc : [Part.regs, .sys, .host, .ns, .ftl, .media, .str, .sea, .disp, .hrt, .health] ⊆ ps) : (s.sinkDone f t keep miss).blank ps = s.blank ps := by
  simp only [List.cons_subset] at hc; unfold State.sinkDone; (repeat' split) <;> simp [*]
@[simp ↓] theorem State.zeroLbas_blank {ps : List Part} (s : State) (n : Ns) (slba nlb : Nat) (hc : [Part.host, .ftl, .str, .health] ⊆ ps) : (s.zeroLbas n slba nlb).blank ps = s.blank ps := by
  simp only [List.cons_subset] at hc; unfold State.zeroLbas; simp [*]
@[simp ↓] theorem State.runMemorySink_blank {ps : List Part} (s : State) (f : Flow) (t : Task) (channel : Nat) (st : Stage) (hc : [Part.regs, .sys, .power, .host, .ns, .ftl, .media, .str, .sea, .dgs, .dma, .disp, .hrt, .boot, .health] ⊆ ps) : (s.runMemorySink f t channel st).blank ps = s.blank ps := by
  simp only [List.cons_subset] at hc; unfold State.runMemorySink; (repeat' split) <;> simp [*]
@[simp ↓] theorem State.runLbaSink_blank {ps : List Part} (s : State) (f : Flow) (t : Task) (place : Placement) (nsid slba extent slot : Nat) (hc : [Part.regs, .sys, .host, .ns, .ftl, .media, .str, .sea, .disp, .hrt, .health] ⊆ ps) : (s.runLbaSink f t place nsid slba extent slot).blank ps = s.blank ps := by
  simp only [List.cons_subset] at hc; unfold State.runLbaSink; (repeat' split) <;> simp [*]
@[simp ↓] theorem State.emptyTask_blank {ps : List Part} (s : State) (f : Flow) (t : Task) (st : Stage) (hc : [Part.regs, .sys, .host, .ns, .ftl, .media, .str, .sea, .disp, .hrt, .health] ⊆ ps) : (s.emptyTask f t st).blank ps = s.blank ps := by
  simp only [List.cons_subset] at hc; unfold State.emptyTask; simp [*]
@[simp ↓] theorem State.resetPort_blank {ps : List Part} (s : State) (p : Port) (hc : [Part.regs, .sys, .power, .host, .ns, .ftl, .media, .str, .sea, .dgs, .disp, .hrt, .boot, .health] ⊆ ps) : (s.resetPort p).blank ps = s.blank ps := by
  simp only [List.cons_subset] at hc; unfold State.resetPort; simp [*]
@[simp ↓] theorem State.completionTimeout_blank {ps : List Part} (s : State) (req : BridgeReq) (hc : [Part.regs, .sys, .power, .host, .ns, .ftl, .media, .str, .sea, .dgs, .dma, .disp, .hrt, .boot, .health] ⊆ ps) : (s.completionTimeout req).blank ps = s.blank ps := by
  simp only [List.cons_subset] at hc; unfold State.completionTimeout; (repeat' split) <;> simp [*]
@[simp ↓] theorem State.doorbell_blank {ps : List Part} (s : State) (f : Fn) (qid : Nat) (isCq : Bool) (value : Nat) (hc : [Part.regs, .sys, .power, .host, .ns, .ftl, .media, .str, .sea, .lynx, .disp, .hrt, .health] ⊆ ps) : (s.doorbell f qid isCq value).blank ps = s.blank ps := by
  simp only [List.cons_subset] at hc; unfold State.doorbell; (repeat' split) <;> simp [*]
@[simp ↓] theorem State.abortOf_blank {ps : List Part} (s : State) (w : Who) (hc : [Part.regs, .sys, .host, .ns, .ftl, .media, .str, .sea, .disp, .hrt, .health] ⊆ ps) : (s.abortOf w).blank ps = s.blank ps := by
  simp only [List.cons_subset] at hc; unfold State.abortOf; simp [*]
@[simp ↓] theorem State.abortCommand_blank {ps : List Part} (s : State) (x : Who) (hc : [Part.host, .disp, .health] ⊆ ps) : (s.abortCommand x).1.blank ps = s.blank ps := by
  simp only [List.cons_subset] at hc; unfold State.abortCommand; (repeat' split) <;> simp [*]
@[simp ↓] theorem State.setFeature_blank {ps : List Part} (s : State) (w : Who) (fid nsid : Nat) (cdw11 : W32) (data : List Byte) (hc : [Part.host, .ns, .media, .boot, .health] ⊆ ps) : (s.setFeature w fid nsid cdw11 data).blank ps = s.blank ps := by
  simp only [List.cons_subset] at hc; unfold State.setFeature; (repeat' split) <;> simp [*]
@[simp ↓] theorem State.getFeature_blank {ps : List Part} (s : State) (w : Who) (fid nsid select : Nat) (cdw11 : W32) (hc : [Part.host, .health] ⊆ ps) : (s.getFeature w fid nsid select cdw11).blank ps = s.blank ps := by
  simp only [List.cons_subset] at hc; unfold State.getFeature; simp [*]
@[simp ↓] theorem State.beginErase_blank {ps : List Part} (s : State) (nsid : Nat) (x : Erasing) (hc : [Part.ns, .sea] ⊆ ps) : (s.beginErase nsid x).blank ps = s.blank ps := by
  simp only [List.cons_subset] at hc; unfold State.beginErase; (repeat' split) <;> simp [*]
@[simp ↓] theorem State.slotDone_blank {ps : List Part} (s : State) (w : Who) (cause use slot : Nat) (hc : [Part.host, .media, .health] ⊆ ps) : (s.slotDone w cause use slot).blank ps = s.blank ps := by
  simp only [List.cons_subset] at hc; unfold State.slotDone; simp [*]
@[simp ↓] theorem State.importSlot_blank {ps : List Part} (s : State) (w : Who) (data : List Byte) (hc : [Part.host, .media, .sea, .health] ⊆ ps) : (s.importSlot w data).blank ps = s.blank ps := by
  simp only [List.cons_subset] at hc; unfold State.importSlot
  (repeat' (first | (with_reducible rfl) | assumption | (simp [*]; done) | (with_reducible refine (blank_foldl _ (fun _ _ => ?_) _ _).trans ?_) | (with_reducible refine (blank_iterate _ (fun _ _ => ?_) _ _).trans ?_) | (with_reducible refine (blank_foldl_p _ (fun _ _ => ?_) _ _).trans ?_) | (with_reducible refine blank_fst (by assumption) ?_) | (with_reducible refine blank_snd (by assumption) ?_) | (with_reducible refine blank_some (by assumption) ?_) | split | (simp only [blank_ite]) | (simp [*, -List.foldl_append, -Option.foldl_toList])))
@[simp ↓] theorem State.unlockFor_blank {ps : List Part} (s : State) (p : Port) (a : Nat) (hc : [Part.sea] ⊆ ps) : (s.unlockFor p a).blank ps = s.blank ps := by
  simp only [List.cons_subset] at hc; unfold State.unlockFor; simp [*]
@[simp ↓] theorem State.opalSetRange_blank {ps : List Part} (s : State) (p : Port) (nsid id start length : Nat) (hc : [Part.ns, .sea] ⊆ ps) : (s.opalSetRange p nsid id start length).1.blank ps = s.blank ps := by
  simp only [List.cons_subset] at hc; unfold State.opalSetRange
  (repeat' (first | (with_reducible rfl) | assumption | (simp [*]; done) | (with_reducible refine (blank_foldl _ (fun _ _ => ?_) _ _).trans ?_) | (with_reducible refine (blank_iterate _ (fun _ _ => ?_) _ _).trans ?_) | (with_reducible refine (blank_foldl_p _ (fun _ _ => ?_) _ _).trans ?_) | (with_reducible refine blank_fst (by assumption) ?_) | (with_reducible refine blank_snd (by assumption) ?_) | (with_reducible refine blank_some (by assumption) ?_) | split | (simp only [blank_ite]) | (simp [*, -List.foldl_append, -Option.foldl_toList])))
@[simp ↓] theorem State.askRekey_blank {ps : List Part} (s : State) (nsid range : Nat) (w : Option Who) (hc : [Part.ns, .sea] ⊆ ps) : (s.askRekey nsid range w).blank ps = s.blank ps := by
  simp only [List.cons_subset] at hc; unfold State.askRekey; simp [*]
@[simp ↓] theorem State.opalRemove_blank {ps : List Part} (s : State) (nsid id slot : Nat) (hc : [Part.ns, .sea] ⊆ ps) : (s.opalRemove nsid id slot).blank ps = s.blank ps := by
  simp only [List.cons_subset] at hc; unfold State.opalRemove; simp [*]
@[simp ↓] theorem State.opalRevert_blank {ps : List Part} (s : State) (p : Port) (hc : [Part.regs, .sys, .host, .ns, .ftl, .media, .str, .sea, .disp, .hrt, .health] ⊆ ps) : (s.opalRevert p).blank ps = s.blank ps := by
  simp only [List.cons_subset] at hc; unfold State.opalRevert
  (repeat' (first | (with_reducible rfl) | assumption | (simp [*]; done) | (with_reducible refine (blank_foldl _ (fun _ _ => ?_) _ _).trans ?_) | (with_reducible refine (blank_iterate _ (fun _ _ => ?_) _ _).trans ?_) | (with_reducible refine (blank_foldl_p _ (fun _ _ => ?_) _ _).trans ?_) | (with_reducible refine blank_fst (by assumption) ?_) | (with_reducible refine blank_snd (by assumption) ?_) | (with_reducible refine blank_some (by assumption) ?_) | split | (simp only [blank_ite]) | (simp [*, -List.foldl_append, -Option.foldl_toList])))
@[simp ↓] theorem State.tableRead_blank {ps : List Part} (s : State) (p : Port) (m : Mem) (limit offset length : Nat) (hc : [Part.regs, .sys, .power, .host, .ns, .ftl, .media, .str, .sea, .dgs, .lynx, .dma, .disp, .hrt, .memory, .boot, .firmware, .health, .free] ⊆ ps) : (s.tableRead p m limit offset length).1.blank ps = s.blank ps := by
  simp only [List.cons_subset] at hc; unfold State.tableRead; (repeat' split) <;> simp [*]
@[simp ↓] theorem State.opalMethod_blank {ps : List Part} (s : State) (p : Port) (m : OpalMethod) (hc : [Part.regs, .sys, .power, .host, .ns, .ftl, .media, .str, .sea, .dgs, .lynx, .dma, .disp, .hrt, .memory, .boot, .firmware, .health, .free] ⊆ ps) : (s.opalMethod p m).1.blank ps = s.blank ps := by
  simp only [List.cons_subset] at hc; unfold State.opalMethod
  (repeat' (first | (with_reducible rfl) | assumption | (simp [*]; done) | (with_reducible refine (blank_foldl _ (fun _ _ => ?_) _ _).trans ?_) | (with_reducible refine (blank_iterate _ (fun _ _ => ?_) _ _).trans ?_) | (with_reducible refine (blank_foldl_p _ (fun _ _ => ?_) _ _).trans ?_) | (with_reducible refine blank_fst (by assumption) ?_) | (with_reducible refine blank_snd (by assumption) ?_) | (with_reducible refine blank_some (by assumption) ?_) | split | (simp only [blank_ite]) | (simp [*, -List.foldl_append, -Option.foldl_toList])))
@[simp ↓] theorem State.countMismatch_blank {ps : List Part} (s : State) (a : AlarmCause) (hc : [Part.regs] ⊆ ps) : (s.countMismatch a).blank ps = s.blank ps := by
  simp only [List.cons_subset] at hc; unfold State.countMismatch; (repeat' split) <;> simp [*]
@[simp ↓] theorem State.bootAppend_blank {ps : List Part} (s : State) (cause : Nat) (hc : [Part.boot, .health] ⊆ ps) : (s.bootAppend cause).blank ps = s.blank ps := by
  simp only [List.cons_subset] at hc; unfold State.bootAppend; simp [*]
@[simp ↓] theorem State.afterAppend_blank {ps : List Part} (s : State) (a : Append) (hc : [Part.regs, .sys, .host, .ns, .ftl, .media, .str, .sea, .disp, .hrt, .boot, .health, .free] ⊆ ps) : (s.afterAppend a).blank ps = s.blank ps := by
  simp only [List.cons_subset] at hc; unfold State.afterAppend; (repeat' split) <;> simp [*]
@[simp ↓] theorem State.commitWrite_blank {ps : List Part} (s : State) (w : Who) (slot0 : Nat) (i : FwImage) (action : Nat) (hc : [Part.host, .sea, .boot, .health] ⊆ ps) : (s.commitWrite w slot0 i action).blank ps = s.blank ps := by
  simp only [List.cons_subset] at hc; unfold State.commitWrite; dsimp only
  have e : (s.onBoot fun b => { b with download := [] }).blank ps = s.blank ps := State.onBoot_blank _ _ (by simp [hc]) rfl rfl rfl
  split
  · simp [hc]
  split
  · simp [hc]
  split
  · simp [hc]
  split
  · simp [hc, e]
  split
  · simp [hc]
  · refine (State.onBoot_blank _ _ (by simp [hc]) ?_ ?_ ?_).trans e <;> simp
@[simp ↓] theorem State.commitStep_blank {ps : List Part} (s : State) (hc : [Part.media, .sea, .boot, .health] ⊆ ps) : s.commitStep.blank ps = s.blank ps := by
  simp only [List.cons_subset] at hc; unfold State.commitStep
  split
  · rfl
  split
  · rw [State.addLife_blank _ _ _ (by simp [hc]), State.requestAppend_blank _ _ (by simp [hc])]
    exact State.onBoot_blank _ _ (by simp [hc]) (by simp) (by simp) (by simp)
  · rfl
@[simp ↓] theorem State.unitBack_blank {ps : List Part} (s : State) (i : Island) (unit : Nat) (hc : [Part.regs, .sys, .host, .ns, .ftl, .media, .str, .sea, .disp, .hrt, .health] ⊆ ps) : (s.unitBack i unit).blank ps = s.blank ps := by
  simp only [List.cons_subset] at hc; unfold State.unitBack; simp [*]
@[simp ↓] theorem State.islandBack_blank {ps : List Part} (s : State) (i : Island) (hc : [Part.sys, .memory] ⊆ ps) : (s.islandBack i).blank ps = s.blank ps := by
  simp only [List.cons_subset] at hc; unfold State.islandBack; simp [*]
@[simp ↓] theorem State.ctrlBack_blank {ps : List Part} (s : State) (hc : [Part.sys, .boot, .health] ⊆ ps) : s.ctrlBack.blank ps = s.blank ps := by
  simp only [List.cons_subset] at hc; unfold State.ctrlBack; simp [*]
@[simp ↓] theorem State.bridgeAnswer_blank {ps : List Part} (s : State) (target : Island) (a0 : BridgeReq) (hc : [Part.regs, .sys, .power, .host, .ns, .ftl, .media, .str, .sea, .dgs, .lynx, .dma, .disp, .hrt, .memory, .boot, .firmware, .health, .free] ⊆ ps) : (s.bridgeAnswer target a0).blank ps = s.blank ps := by
  simp only [List.cons_subset] at hc; unfold State.bridgeAnswer; (repeat' split) <;> simp [*]
@[simp ↓] theorem State.bridgeEscalate_blank {ps : List Part} (s : State) (target : Island) (hc : [Part.regs, .sys, .power, .host, .ns, .ftl, .media, .str, .sea, .dgs, .lynx, .dma, .disp, .hrt, .memory, .boot, .firmware, .health, .free] ⊆ ps) : (s.bridgeEscalate target).blank ps = s.blank ps := by
  simp only [List.cons_subset] at hc; unfold State.bridgeEscalate; simp [*]
@[simp ↓] theorem State.bridgeError_blank {ps : List Part} (s : State) (target source : Island) (req : BridgeReq) (hc : [Part.regs, .sys, .power, .host, .ns, .ftl, .media, .str, .sea, .dgs, .lynx, .dma, .disp, .hrt, .memory, .boot, .firmware, .health, .free] ⊆ ps) : (s.bridgeError target source req).blank ps = s.blank ps := by
  simp only [List.cons_subset] at hc; unfold State.bridgeError; simp [*]
@[simp ↓] theorem State.wakeLuns_blank {ps : List Part} (s : State) (c : Nat) (hc : [Part.regs, .sys, .host, .ns, .ftl, .media, .str, .sea, .disp, .hrt, .health] ⊆ ps) : (s.wakeLuns c).blank ps = s.blank ps := by
  simp only [List.cons_subset] at hc; unfold State.wakeLuns; simp [*]
@[simp ↓] theorem State.mediaReady_blank {ps : List Part} (s : State) (hc : [Part.sys, .boot, .health] ⊆ ps) : s.mediaReady.blank ps = s.blank ps := by
  simp only [List.cons_subset] at hc; unfold State.mediaReady; simp [*]
@[simp ↓] theorem State.setCw_blank {ps : List Part} (s : State) (lun : Nat) (c : MediaCmd) (w : CwState) (new : Option CwState) (hc : [Part.regs, .sys, .host, .ns, .ftl, .media, .str, .sea, .disp, .hrt, .health] ⊆ ps) : (s.setCw lun c w new).blank ps = s.blank ps := by
  simp only [List.cons_subset] at hc; unfold State.setCw; simp [*]
@[simp ↓] theorem State.countDecode_blank {ps : List Part} (s : State) (lun step iterations : Nat) (hc : [Part.regs, .health] ⊆ ps) : (s.countDecode lun step iterations).blank ps = s.blank ps := by
  simp only [List.cons_subset] at hc; unfold State.countDecode; simp [*]
@[simp ↓] theorem State.cwDecoded_blank {ps : List Part} (s : State) (lun : Nat) (c : MediaCmd) (cl : ReadClient) (w : CwState) (iterations : Nat) (hc : [Part.regs, .sys, .host, .ns, .ftl, .media, .str, .sea, .disp, .hrt, .health] ⊆ ps) : (s.cwDecoded lun c cl w iterations).blank ps = s.blank ps := by
  simp only [List.cons_subset] at hc; unfold State.cwDecoded; simp [*]
@[simp ↓] theorem State.cwErased_blank {ps : List Part} (s : State) (lun : Nat) (c : MediaCmd) (cl : ReadClient) (w : CwState) (hc : [Part.regs, .sys, .host, .ns, .ftl, .media, .str, .sea, .disp, .hrt, .boot, .health] ⊆ ps) : (s.cwErased lun c cl w).blank ps = s.blank ps := by
  simp only [List.cons_subset] at hc; unfold State.cwErased; simp [*]
@[simp ↓] theorem State.cwFailed_blank {ps : List Part} (s : State) (lun : Nat) (c : MediaCmd) (cl : ReadClient) (w : CwState) (hc : [Part.regs, .sys, .host, .ns, .ftl, .media, .str, .sea, .disp, .hrt, .boot, .health] ⊆ ps) : (s.cwFailed lun c cl w).blank ps = s.blank ps := by
  simp only [List.cons_subset] at hc; unfold State.cwFailed; (repeat' split) <;> simp [*]
@[simp ↓] theorem State.dramReady_blank {ps : List Part} (s : State) (hc : [Part.regs, .sys, .host, .ns, .ftl, .media, .str, .sea, .disp, .hrt, .boot, .health] ⊆ ps) : s.dramReady.blank ps = s.blank ps := by
  simp only [List.cons_subset] at hc; unfold State.dramReady; simp [*]
@[simp ↓] theorem State.failAll_blank {ps : List Part} (s : State) (hc : [Part.host] ⊆ ps) : s.failAll.blank ps = s.blank ps := by
  simp only [List.cons_subset] at hc; unfold State.failAll; simp [*]
@[simp ↓] theorem State.closeRows_blank {ps : List Part} (s : State) (channel sc ba : Nat) (hc : [Part.memory] ⊆ ps) : (s.closeRows channel sc ba).blank ps = s.blank ps := by
  simp only [List.cons_subset] at hc; unfold State.closeRows; simp [*]
@[simp ↓] theorem State.openRow_blank {ps : List Part} (s : State) (line : Nat) (hc : [Part.memory] ⊆ ps) : (s.openRow line).blank ps = s.blank ps := by
  simp only [List.cons_subset] at hc; unfold State.openRow; simp [*]
@[simp ↓] theorem State.drainWrites_blank {ps : List Part} (s : State) (c : Nat) (hc : [Part.memory] ⊆ ps) : (s.drainWrites c).blank ps = s.blank ps := by
  simp only [List.cons_subset] at hc; unfold State.drainWrites; simp [*]
@[simp ↓] theorem State.memWrite_blank {ps : List Part} (s : State) (port line : Nat) (w : MemWrite) (hc : [Part.regs, .sys, .host, .ns, .ftl, .media, .str, .sea, .disp, .hrt, .memory, .health] ⊆ ps) : (s.memWrite port line w).blank ps = s.blank ps := by
  simp only [List.cons_subset] at hc; unfold State.memWrite; simp [*]
@[simp ↓] theorem State.groupError_blank {ps : List Part} (s : State) (g : Nat) (lost : Bool) (hc : [Part.health] ⊆ ps) : (s.groupError g lost).blank ps = s.blank ps := by
  simp only [List.cons_subset] at hc; unfold State.groupError; (repeat' split) <;> simp [*]
@[simp ↓] theorem State.retirePage_blank {ps : List Part} (s : State) (g a : Nat) (hc : [Part.host, .memory, .health] ⊆ ps) : (s.retirePage g a).blank ps = s.blank ps := by
  simp only [List.cons_subset] at hc; unfold State.retirePage; simp [*]
@[simp ↓] theorem State.hardFault_blank {ps : List Part} (s : State) (g a : Nat) (hc : [Part.host, .media, .memory, .health] ⊆ ps) : (s.hardFault g a).blank ps = s.blank ps := by
  simp only [List.cons_subset] at hc; unfold State.hardFault; simp [*]
@[simp ↓] theorem State.corrected_blank {ps : List Part} (s : State) (g a bit : Nat) (hc : [Part.regs, .host, .media, .memory, .health] ⊆ ps) : (s.corrected g a bit).blank ps = s.blank ps := by
  simp only [List.cons_subset] at hc; unfold State.corrected
  (repeat' (first | (with_reducible rfl) | assumption | (simp [*]; done) | (with_reducible refine (blank_foldl _ (fun _ _ => ?_) _ _).trans ?_) | (with_reducible refine (blank_iterate _ (fun _ _ => ?_) _ _).trans ?_) | (with_reducible refine (blank_foldl_p _ (fun _ _ => ?_) _ _).trans ?_) | (with_reducible refine blank_fst (by assumption) ?_) | (with_reducible refine blank_snd (by assumption) ?_) | (with_reducible refine blank_some (by assumption) ?_) | split | (simp only [blank_ite]) | (simp [*, -List.foldl_append, -Option.foldl_toList])))
@[simp ↓] theorem State.poisonTask_blank {ps : List Part} (s : State) (flow stage cslot at_ : Nat) (hc : [Part.regs, .sys, .host, .ns, .ftl, .media, .str, .sea, .disp, .hrt, .health, .free] ⊆ ps) : (s.poisonTask flow stage cslot at_).blank ps = s.blank ps := by
  simp only [List.cons_subset] at hc; unfold State.poisonTask
  (repeat' (first | (with_reducible rfl) | assumption | (simp [*]; done) | (with_reducible refine (blank_foldl _ (fun _ _ => ?_) _ _).trans ?_) | (with_reducible refine (blank_iterate _ (fun _ _ => ?_) _ _).trans ?_) | (with_reducible refine (blank_foldl_p _ (fun _ _ => ?_) _ _).trans ?_) | (with_reducible refine blank_fst (by assumption) ?_) | (with_reducible refine blank_snd (by assumption) ?_) | (with_reducible refine blank_some (by assumption) ?_) | split | (simp only [blank_ite]) | (simp [*, -List.foldl_append, -Option.foldl_toList])))
@[simp ↓] theorem State.recordEntryError_blank {ps : List Part} (s : State) (flow stage cslot : Nat) (hc : [Part.regs, .sys, .host] ⊆ ps) : (s.recordEntryError flow stage cslot).blank ps = s.blank ps := by
  simp only [List.cons_subset] at hc; unfold State.recordEntryError; simp [*]
@[simp ↓] theorem State.entryHeadLost_blank {ps : List Part} (s : State) (flow stage cslot : Nat) (hc : [Part.regs, .sys, .power, .host, .ns, .ftl, .media, .str, .sea, .dgs, .lynx, .dma, .disp, .hrt, .memory, .boot, .firmware, .health, .free] ⊆ ps) : (s.entryHeadLost flow stage cslot).blank ps = s.blank ps := by
  simp only [List.cons_subset] at hc; unfold State.entryHeadLost
  (repeat' (first | (with_reducible rfl) | assumption | (simp [*]; done) | (with_reducible refine (blank_foldl _ (fun _ _ => ?_) _ _).trans ?_) | (with_reducible refine (blank_iterate _ (fun _ _ => ?_) _ _).trans ?_) | (with_reducible refine (blank_foldl_p _ (fun _ _ => ?_) _ _).trans ?_) | (with_reducible refine blank_fst (by assumption) ?_) | (with_reducible refine blank_snd (by assumption) ?_) | (with_reducible refine blank_some (by assumption) ?_) | split | (simp only [blank_ite]) | (simp [*, -List.foldl_append, -Option.foldl_toList])))
@[simp ↓] theorem State.entryDataLost_blank {ps : List Part} (s : State) (flow stage cslot : Nat) (hc : [Part.regs, .sys, .host, .ns, .ftl, .media, .str, .sea, .disp, .hrt, .health, .free] ⊆ ps) : (s.entryDataLost flow stage cslot).blank ps = s.blank ps := by
  simp only [List.cons_subset] at hc; unfold State.entryDataLost; simp [*]
@[simp ↓] theorem State.slotPoisoned_blank {ps : List Part} (s : State) (k : Nat) (hc : [Part.regs, .sys, .host, .ns, .ftl, .media, .str, .sea, .disp, .hrt, .health] ⊆ ps) : (s.slotPoisoned k).blank ps = s.blank ps := by
  simp only [List.cons_subset] at hc; unfold State.slotPoisoned; (repeat' split) <;> simp [*]
@[simp ↓] theorem State.contextLost_blank {ps : List Part} (s : State) (c : Nat) (hc : [Part.regs, .sys, .host, .ns, .ftl, .media, .str, .sea, .dgs, .disp, .hrt, .health] ⊆ ps) : (s.contextLost c).blank ps = s.blank ps := by
  simp only [List.cons_subset] at hc; unfold State.contextLost
  (repeat' (first | (with_reducible rfl) | assumption | (simp [*]; done) | (with_reducible refine (blank_foldl _ (fun _ _ => ?_) _ _).trans ?_) | (with_reducible refine (blank_iterate _ (fun _ _ => ?_) _ _).trans ?_) | (with_reducible refine (blank_foldl_p _ (fun _ _ => ?_) _ _).trans ?_) | (with_reducible refine blank_fst (by assumption) ?_) | (with_reducible refine blank_snd (by assumption) ?_) | (with_reducible refine blank_some (by assumption) ?_) | split | (simp only [blank_ite]) | (simp [*, -List.foldl_append, -Option.foldl_toList])))
@[simp ↓] theorem State.cacheLost_blank {ps : List Part} (s : State) (hart line : Nat) (hc : [Part.regs, .sys, .host, .ns, .ftl, .media, .str, .sea, .disp, .hrt, .health, .free] ⊆ ps) : (s.cacheLost hart line).blank ps = s.blank ps := by
  simp only [List.cons_subset] at hc; unfold State.cacheLost; simp [*]
@[simp ↓] theorem State.poolLost_blank {ps : List Part} (s : State) (m at_ : Nat) (hart : Option Nat) (hc : [Part.regs, .sys, .host, .ns, .ftl, .media, .str, .sea, .disp, .hrt, .health, .free] ⊆ ps) : (s.poolLost m at_ hart).blank ps = s.blank ps := by
  simp only [List.cons_subset] at hc; unfold State.poolLost; (repeat' split) <;> simp [*]
@[simp ↓] theorem State.contentLost_blank {ps : List Part} (s : State) (a0 : Held) (hc : [Part.regs, .sys, .power, .host, .ns, .ftl, .media, .str, .sea, .dgs, .lynx, .dma, .disp, .hrt, .memory, .boot, .firmware, .health, .free] ⊆ ps) : (s.contentLost a0).blank ps = s.blank ps := by
  simp only [List.cons_subset] at hc; unfold State.contentLost; (repeat' split) <;> simp [*]
@[simp ↓] theorem State.recordUe_blank {ps : List Part} (s : State) (g a : Nat) (held : Held) (poison : Bool) (hc : [Part.regs] ⊆ ps) : (s.recordUe g a held poison).blank ps = s.blank ps := by
  simp only [List.cons_subset] at hc; unfold State.recordUe; simp [*]
@[simp ↓] theorem State.uncorrectable_blank {ps : List Part} (s : State) (g a : Nat) (held : Held) (poison : Bool) (hc : [Part.regs, .sys, .power, .host, .ns, .ftl, .media, .str, .sea, .dgs, .lynx, .dma, .disp, .hrt, .memory, .boot, .firmware, .health, .free] ⊆ ps) : (s.uncorrectable g a held poison).blank ps = s.blank ps := by
  simp only [List.cons_subset] at hc; unfold State.uncorrectable; simp [*]
@[simp ↓] theorem State.classify_blank {ps : List Part} (s : State) (g a : Nat) (seen : Syndrome) (held : Held) (hc : [Part.regs, .sys, .power, .host, .ns, .ftl, .media, .str, .sea, .dgs, .lynx, .dma, .disp, .hrt, .memory, .boot, .firmware, .health, .free] ⊆ ps) : (s.classify g a seen held).blank ps = s.blank ps := by
  simp only [List.cons_subset] at hc; unfold State.classify; (repeat' split) <;> simp [*]
@[simp ↓] theorem State.mergeReads_blank {ps : List Part} (s : State) (line : Nat) (w : MemWrite) (hc : [Part.regs, .sys, .power, .host, .ns, .ftl, .media, .str, .sea, .dgs, .lynx, .dma, .disp, .hrt, .memory, .boot, .firmware, .health, .free] ⊆ ps) : (s.mergeReads line w).blank ps = s.blank ps := by
  simp only [List.cons_subset] at hc; unfold State.mergeReads; simp [*]
@[simp ↓] theorem State.portLatency_blank {ps : List Part} (s : State) (port ns : Nat) (hc : [Part.regs] ⊆ ps) : (s.portLatency port ns).blank ps = s.blank ps := by
  simp only [List.cons_subset] at hc; unfold State.portLatency; simp [*]
@[simp ↓] theorem State.serveRead_blank {ps : List Part} (s : State) (r : MemReq) (seen : Syndrome) (hc : [Part.regs, .sys, .power, .host, .ns, .ftl, .media, .str, .sea, .dgs, .lynx, .dma, .disp, .hrt, .memory, .boot, .firmware, .health, .free] ⊆ ps) : (s.serveRead r seen).blank ps = s.blank ps := by
  simp only [List.cons_subset] at hc; unfold State.serveRead; simp [*]
@[simp ↓] theorem State.owlRewrites_blank {ps : List Part} (s : State) (g : Nat) (hc : [Part.memory] ⊆ ps) : (s.owlRewrites g).blank ps = s.blank ps := by
  simp only [List.cons_subset] at hc; unfold State.owlRewrites; simp [*]
@[simp ↓] theorem State.lapEnd_blank {ps : List Part} (s : State) (g : Nat) (hc : [Part.memory] ⊆ ps) : (s.lapEnd g).blank ps = s.blank ps := by
  simp only [List.cons_subset] at hc; unfold State.lapEnd; simp [*]
@[simp ↓] theorem State.admitSink_blank {ps : List Part} (s : State) (e : Task) (hc : [Part.regs, .sys, .host, .ns, .ftl, .media, .str, .sea, .disp, .hrt, .health] ⊆ ps) : (s.admitSink e).blank ps = s.blank ps := by
  simp only [List.cons_subset] at hc; unfold State.admitSink; (repeat' split) <;> simp [*]
@[simp ↓] theorem State.grantSink_blank {ps : List Part} (s : State) (f : Flow) (e : Task) (place : Placement) (nsid slba extent slot : Nat) (hc : [Part.regs, .sys, .host, .ns, .ftl, .media, .str, .sea, .disp, .hrt, .health] ⊆ ps) : (s.grantSink f e place nsid slba extent slot).blank ps = s.blank ps := by
  simp only [List.cons_subset] at hc; unfold State.grantSink
  (repeat' (first | (with_reducible rfl) | assumption | (simp [*]; done) | (with_reducible refine (blank_foldl _ (fun _ _ => ?_) _ _).trans ?_) | (with_reducible refine (blank_iterate _ (fun _ _ => ?_) _ _).trans ?_) | (with_reducible refine (blank_foldl_p _ (fun _ _ => ?_) _ _).trans ?_) | (with_reducible refine blank_fst (by assumption) ?_) | (with_reducible refine blank_snd (by assumption) ?_) | (with_reducible refine blank_some (by assumption) ?_) | split | (simp only [blank_ite]) | (simp [*, -List.foldl_append, -Option.foldl_toList])))
@[simp ↓] theorem State.fired_blank {ps : List Part} (s : State) (f : Flow) (e : Task) (hc : [Part.disp] ⊆ ps) : (s.fired f e).blank ps = s.blank ps := by
  simp only [List.cons_subset] at hc; unfold State.fired; simp [*]
@[simp ↓] theorem State.prefetchTask_blank {ps : List Part} (s : State) (cls : UnitClass) (unit : Nat) (t : Task) (hc : [Part.disp] ⊆ ps) : (s.prefetchTask cls unit t).blank ps = s.blank ps := by
  simp only [List.cons_subset] at hc; unfold State.prefetchTask; simp [*]
@[simp ↓] theorem State.prefetchNext_blank {ps : List Part} (s : State) (cls : UnitClass) (unit : Nat) (hc : [Part.regs, .sys, .host, .ns, .ftl, .media, .str, .sea, .disp, .hrt, .health] ⊆ ps) : (s.prefetchNext cls unit).blank ps = s.blank ps := by
  simp only [List.cons_subset] at hc; unfold State.prefetchNext; (repeat' split) <;> simp [*]
@[simp ↓] theorem State.prefetchFill_blank {ps : List Part} (s : State) (hc : [Part.regs, .sys, .host, .ns, .ftl, .media, .str, .sea, .disp, .hrt, .health] ⊆ ps) : s.prefetchFill.blank ps = s.blank ps := by
  simp only [List.cons_subset] at hc; unfold State.prefetchFill; simp [*]
@[simp ↓] theorem State.sendTask_blank {ps : List Part} (s : State) (f : Flow) (e : Task) (cls : UnitClass) (queue : Nat) (out : Option Nat) (hc : [Part.regs, .dma, .disp] ⊆ ps) : (s.sendTask f e cls queue out).blank ps = s.blank ps := by
  simp only [List.cons_subset] at hc; unfold State.sendTask
  (repeat' (first | (with_reducible rfl) | assumption | (simp [*]; done) | (with_reducible refine (blank_foldl _ (fun _ _ => ?_) _ _).trans ?_) | (with_reducible refine (blank_iterate _ (fun _ _ => ?_) _ _).trans ?_) | (with_reducible refine (blank_foldl_p _ (fun _ _ => ?_) _ _).trans ?_) | (with_reducible refine blank_fst (by assumption) ?_) | (with_reducible refine blank_snd (by assumption) ?_) | (with_reducible refine blank_some (by assumption) ?_) | split | (simp only [blank_ite]) | (simp [*, -List.foldl_append, -Option.foldl_toList])))
@[simp ↓] theorem State.fireTask_blank {ps : List Part} (s : State) (f : Flow) (e : Task) (st : Stage) (hc : [Part.regs, .dma, .disp] ⊆ ps) : (s.fireTask f e st).blank ps = s.blank ps := by
  simp only [List.cons_subset] at hc; unfold State.fireTask
  split
  · rfl
  split
  · split
    · split
      · rename_i h; have k := State.allocBuf_blank (ps := ps) s (by simp [hc]) _ h
        simp [hc, k]
      · rfl
    · simp [hc]
  · rfl
@[simp ↓] theorem State.takeTask_blank {ps : List Part} (s : State) (t : Task) (hc : [Part.disp] ⊆ ps) : (s.takeTask t).blank ps = s.blank ps := by
  simp only [List.cons_subset] at hc; unfold State.takeTask; simp [*]
@[simp ↓] theorem State.beginSource_blank {ps : List Part} (s : State) (f : Flow) (t : Task) (unit : Nat) (hc : [Part.regs, .sys, .host, .ns, .ftl, .media, .str, .sea, .disp, .hrt, .health] ⊆ ps) : (s.beginSource f t unit).blank ps = s.blank ps := by
  simp only [List.cons_subset] at hc; unfold State.beginSource; (repeat' split) <;> simp [*]
@[simp ↓] theorem State.startTask_blank {ps : List Part} (s : State) (cls : UnitClass) (unit : Nat) (t : Task) (hc : [Part.regs, .sys, .host, .ns, .ftl, .media, .str, .sea, .dma, .disp, .hrt, .health] ⊆ ps) : (s.startTask cls unit t).blank ps = s.blank ps := by
  simp only [List.cons_subset] at hc; unfold State.startTask; (repeat' split) <;> simp [*]
@[simp ↓] theorem State.taskMeets_blank {ps : List Part} (s : State) (t : Task) (i : Island) (hc : [Part.regs, .sys, .host, .ns, .ftl, .media, .str, .sea, .disp, .hrt, .health] ⊆ ps) : (s.taskMeets t i).blank ps = s.blank ps := by
  simp only [List.cons_subset] at hc; unfold State.taskMeets; simp [*]
@[simp ↓] theorem State.unitStart_blank {ps : List Part} (s : State) (cls : UnitClass) (unit : Nat) (hc : [Part.regs, .sys, .host, .ns, .ftl, .media, .str, .sea, .dma, .disp, .hrt, .health] ⊆ ps) : (s.unitStart cls unit).blank ps = s.blank ps := by
  simp only [List.cons_subset] at hc; unfold State.unitStart; (repeat' split) <;> simp [*]
@[simp ↓] theorem State.runReshuffle_blank {ps : List Part} (s : State) (t : Task) (op unit streams elem : Nat) (hc : [Part.regs, .sys, .host, .ns, .ftl, .media, .str, .sea, .disp, .hrt, .health] ⊆ ps) : (s.runReshuffle t op unit streams elem).blank ps = s.blank ps := by
  simp only [List.cons_subset] at hc; unfold State.runReshuffle; simp [*]
@[simp ↓] theorem State.runStage_blank {ps : List Part} (s : State) (f : Flow) (t : Task) (unit : Nat) (hv : HostView) (seen : UnitSeen) (st : Stage) (hc : [Part.regs, .sys, .power, .host, .ns, .ftl, .media, .str, .sea, .dgs, .lynx, .dma, .disp, .hrt, .boot, .health] ⊆ ps) : (s.runStage f t unit hv seen st).1.blank ps = s.blank ps := by
  simp only [List.cons_subset] at hc; unfold State.runStage; (repeat' split) <;> simp [*]
@[simp ↓] theorem State.unitError_blank {ps : List Part} (s : State) (r : Running) (st : Status) (hc : [Part.regs, .sys, .power, .host, .ns, .ftl, .media, .str, .sea, .dgs, .dma, .disp, .hrt, .boot, .health] ⊆ ps) : (s.unitError r st).blank ps = s.blank ps := by
  simp only [List.cons_subset] at hc; unfold State.unitError; simp [*]
@[simp ↓] theorem State.orphanFails_blank {ps : List Part} (s : State) (e : Task) (hc : [Part.regs, .sys, .host, .ns, .ftl, .media, .str, .sea, .disp, .hrt, .health] ⊆ ps) : (s.orphanFails e).blank ps = s.blank ps := by
  simp only [List.cons_subset] at hc; unfold State.orphanFails; (repeat' split) <;> simp [*]

end

end Sys2Proof.Machine
end

