-- ==== Sys2Proof/Laws/FrameRest.lean ====
section
/-! SUPPORT. What each operation may change: the operations of Machine/Namespaces, IoSets, Vin, LogPages, Sideband, Clock, Harts, Registers. -/

namespace Sys2Proof.Machine

section
set_option Elab.async false
set_option linter.unusedTactic false
set_option linter.unreachableTactic false
set_option linter.unusedSimpArgs false

@[simp ↓] theorem State.createNs_blank {ps : List Part} (s : State) (w : Who) (x : NsSpec) (hc : [Part.regs, .sys, .host, .ns, .ftl, .media, .str, .sea, .lynx, .disp, .hrt, .health] ⊆ ps) : (s.createNs w x).blank ps = s.blank ps := by
  simp only [List.cons_subset] at hc; unfold State.createNs
  (repeat' (first | (with_reducible rfl) | assumption | (simp [*]; done) | (with_reducible refine (blank_foldl _ (fun _ _ => ?_) _ _).trans ?_) | (with_reducible refine (blank_iterate _ (fun _ _ => ?_) _ _).trans ?_) | (with_reducible refine (blank_foldl_p _ (fun _ _ => ?_) _ _).trans ?_) | (with_reducible refine blank_fst (by assumption) ?_) | (with_reducible refine blank_snd (by assumption) ?_) | (with_reducible refine blank_some (by assumption) ?_) | split | (simp only [blank_ite]) | (simp [*, -List.foldl_append, -Option.foldl_toList])))
@[simp ↓] theorem State.endNsWork_blank {ps : List Part} (s : State) (nsid limit : Nat) (all : Bool) (st : Status) (hc : [Part.regs, .sys, .host, .ns, .ftl, .media, .str, .sea, .disp, .hrt, .health] ⊆ ps) : (s.endNsWork nsid limit all st).blank ps = s.blank ps := by
  simp only [List.cons_subset] at hc; unfold State.endNsWork; simp [*]
@[simp ↓] theorem State.deleteNs_blank {ps : List Part} (s : State) (nsid : Nat) (hc : [Part.regs, .sys, .host, .ns, .ftl, .media, .str, .sea, .lynx, .disp, .hrt, .health] ⊆ ps) : (s.deleteNs nsid).blank ps = s.blank ps := by
  simp only [List.cons_subset] at hc; unfold State.deleteNs; (repeat' split) <;> simp [*]
@[simp ↓] theorem State.putReservation_blank {ps : List Part} (s : State) (w : Who) (nsid : Nat) (r : Reservation) (hc : [Part.host, .ns, .media, .health] ⊆ ps) : (s.putReservation w nsid r).blank ps = s.blank ps := by
  simp only [List.cons_subset] at hc; unfold State.putReservation; simp [*]
@[simp ↓] theorem State.notifyHosts_blank {ps : List Part} (s : State) (nsid type : Nat) (hosts : List (List Byte)) (hc : [Part.host, .health] ⊆ ps) : (s.notifyHosts nsid type hosts).blank ps = s.blank ps := by
  simp only [List.cons_subset] at hc; unfold State.notifyHosts; simp [*]
@[simp ↓] theorem State.abortHosts_blank {ps : List Part} (s : State) (nsid : Nat) (hosts : List (List Byte)) (hc : [Part.regs, .sys, .host, .ns, .ftl, .media, .str, .sea, .disp, .hrt, .health] ⊆ ps) : (s.abortHosts nsid hosts).blank ps = s.blank ps := by
  simp only [List.cons_subset] at hc; unfold State.abortHosts; simp [*]
@[simp ↓] theorem State.storeValue_blank {ps : List Part} (s : State) (w : Who) (n : Ns) (nsid : Nat) (key value : List Byte) (hc : [Part.host, .ftl, .health] ⊆ ps) : (s.storeValue w n nsid key value).blank ps = s.blank ps := by
  simp only [List.cons_subset] at hc; unfold State.storeValue; simp [*]
@[simp ↓] theorem State.submitStore_blank {ps : List Part} (s : State) (w : Who) (nsid : Nat) (key value : List Byte) (hc : [Part.host, .ftl, .health] ⊆ ps) : (s.submitStore w nsid key value).blank ps = s.blank ps := by
  simp only [List.cons_subset] at hc; unfold State.submitStore; (repeat' split) <;> simp [*]
@[simp ↓] theorem State.kvLookup_blank {ps : List Part} (s : State) (n : Ns) (key : List Byte) (insert : Bool) (hc : [Part.regs, .lynx, .health] ⊆ ps) : (s.kvLookup n key insert).blank ps = s.blank ps := by
  simp only [List.cons_subset] at hc; unfold State.kvLookup
  (repeat' (first | (with_reducible rfl) | assumption | (simp [*]; done) | (with_reducible refine (blank_foldl _ (fun _ _ => ?_) _ _).trans ?_) | (with_reducible refine (blank_iterate _ (fun _ _ => ?_) _ _).trans ?_) | (with_reducible refine (blank_foldl_p _ (fun _ _ => ?_) _ _).trans ?_) | (with_reducible refine blank_fst (by assumption) ?_) | (with_reducible refine blank_snd (by assumption) ?_) | (with_reducible refine blank_some (by assumption) ?_) | split | (simp only [blank_ite]) | (simp [*, -List.foldl_append, -Option.foldl_toList])))
@[simp ↓] theorem State.onRangeSets_blank {ps : List Part} (s : State) (p : Port) (g : Tbl (List MemRange) → Tbl (List MemRange)) (hc : [Part.host] ⊆ ps) : (s.onRangeSets p g).blank ps = s.blank ps := by
  simp only [List.cons_subset] at hc; unfold State.onRangeSets; simp [*]
@[simp ↓] theorem State.assignSlot_blank {ps : List Part} (s : State) (f : Fn) (e : AssignEntry) (hc : [Part.sea, .dgs] ⊆ ps) : (s.assignSlot f e).blank ps = s.blank ps := by
  simp only [List.cons_subset] at hc; unfold State.assignSlot; (repeat' split) <;> simp [*]
@[simp ↓] theorem State.releaseSlot_blank {ps : List Part} (s : State) (f : Fn) (e : AssignEntry) (hc : [Part.regs, .sys, .host, .ns, .ftl, .media, .str, .sea, .dgs, .disp, .hrt, .health] ⊆ ps) : (s.releaseSlot f e).1.blank ps = s.blank ps := by
  simp only [List.cons_subset] at hc; unfold State.releaseSlot; (repeat' split) <;> simp [*]
theorem State.applyEntries_blank {ps : List Part} (s : State) (f : Fn) (a0 : List AssignEntry) (a1 : List Append) (h : [Part.regs, .sys, .host, .ns, .ftl, .media, .str, .sea, .dgs, .disp, .hrt, .health] ⊆ ps) : ∀ r, s.applyEntries f a0 a1 = some r → r.1.blank ps = s.blank ps := by
  simp only [List.cons_subset] at h
  induction a0 generalizing s a1 with
  | nil => intro r k; simp only [State.applyEntries, Option.some.injEq] at k; subst k; rfl
  | cons e es ih =>
    intro r k
    unfold State.applyEntries at k
    split at k
    · cases k
    · split at k
      · split at k
        · exact ih _ _ _ k
        · cases k
      · refine (ih _ _ _ k).trans ?_; simp [*]
      · split at k
        · refine (ih _ _ _ k).trans ?_; exact State.releaseSlot_blank s f e (by simp [*])
        · cases k
      · exact ih _ _ _ k
@[simp ↓] theorem State.appendsThen_blank {ps : List Part} (s : State) (as : List Append) (w : Who) (dw0 : W32) (hc : [Part.host, .media, .health] ⊆ ps) : (s.appendsThen as w dw0).blank ps = s.blank ps := by
  simp only [List.cons_subset] at hc; unfold State.appendsThen; (repeat' split) <;> simp [*]
@[simp ↓] theorem State.freezeCheck_blank {ps : List Part} (s : State) (f : Fn) (hc : [Part.host, .health] ⊆ ps) : (s.freezeCheck f).blank ps = s.blank ps := by
  simp only [List.cons_subset] at hc; unfold State.freezeCheck; (repeat' split) <;> simp [*]
@[simp ↓] theorem State.freezeBegin_blank {ps : List Part} (s : State) (w : Who) (f : Fn) (hc : [Part.regs, .sys, .host, .ns, .ftl, .media, .str, .sea, .disp, .hrt, .health] ⊆ ps) : (s.freezeBegin w f).blank ps = s.blank ps := by
  simp only [List.cons_subset] at hc; unfold State.freezeBegin; simp [*]
@[simp ↓] theorem State.runHeld_blank {ps : List Part} (s : State) (h : HeldCmd) (hc : [Part.host, .ftl, .health] ⊆ ps) : (s.runHeld h).blank ps = s.blank ps := by
  simp only [List.cons_subset] at hc; unfold State.runHeld; (repeat' split) <;> simp [*]
@[simp ↓] theorem State.restoreKey_blank {ps : List Part} (s : State) (f : Fn) (b : List Byte) (hc : [Part.media, .sea, .dgs] ⊆ ps) : (s.restoreKey f b).1.blank ps = s.blank ps := by
  simp only [List.cons_subset] at hc; unfold State.restoreKey
  (repeat' (first | (with_reducible rfl) | assumption | (simp [*]; done) | (with_reducible refine (blank_foldl _ (fun _ _ => ?_) _ _).trans ?_) | (with_reducible refine (blank_iterate _ (fun _ _ => ?_) _ _).trans ?_) | (with_reducible refine (blank_foldl_p _ (fun _ _ => ?_) _ _).trans ?_) | (with_reducible refine blank_fst (by assumption) ?_) | (with_reducible refine blank_snd (by assumption) ?_) | (with_reducible refine blank_some (by assumption) ?_) | split | (simp only [blank_ite]) | (simp [*, -List.foldl_append, -Option.foldl_toList])))
@[simp ↓] theorem State.applyBlob_blank {ps : List Part} (s : State) (w : Who) (fn : Fn) (blob body : List Byte) (hc : [Part.host, .media, .sea, .dgs, .health] ⊆ ps) : (s.applyBlob w fn blob body).blank ps = s.blank ps := by
  simp only [List.cons_subset] at hc; unfold State.applyBlob; simp [*]
@[simp ↓] theorem State.mailboxSend_blank {ps : List Part} (s : State) (f : Fn) (fromManager : Bool) (hc : [Part.host, .disp] ⊆ ps) : (s.mailboxSend f fromManager).blank ps = s.blank ps := by
  simp only [List.cons_subset] at hc; unfold State.mailboxSend
  (repeat' (first | (with_reducible rfl) | assumption | (simp [*]; done) | (with_reducible refine (blank_foldl _ (fun _ _ => ?_) _ _).trans ?_) | (with_reducible refine (blank_iterate _ (fun _ _ => ?_) _ _).trans ?_) | (with_reducible refine (blank_foldl_p _ (fun _ _ => ?_) _ _).trans ?_) | (with_reducible refine blank_fst (by assumption) ?_) | (with_reducible refine blank_snd (by assumption) ?_) | (with_reducible refine blank_some (by assumption) ?_) | split | (simp only [blank_ite]) | (simp [*, -List.foldl_append, -Option.foldl_toList])))
@[simp ↓] theorem State.mailboxPop_blank {ps : List Part} (s : State) (f : Fn) (fromManager : Bool) (hc : [Part.host] ⊆ ps) : (s.mailboxPop f fromManager).blank ps = s.blank ps := by
  simp only [List.cons_subset] at hc; unfold State.mailboxPop; simp [*]
@[simp ↓] theorem State.noteSummary_blank {ps : List Part} (s : State) (hc : [Part.health] ⊆ ps) : s.noteSummary.blank ps = s.blank ps := by
  simp only [List.cons_subset] at hc; unfold State.noteSummary; simp [*]
@[simp ↓] theorem State.pageRead_blank {ps : List Part} (s : State) (f : Fn) (lid : Nat) (rae : Bool) (hc : [Part.host] ⊆ ps) : (s.pageRead f lid rae).blank ps = s.blank ps := by
  simp only [List.cons_subset] at hc; unfold State.pageRead; simp [*]
@[simp ↓] theorem State.pageOut_blank {ps : List Part} (s : State) (w : Who) (lid : Nat) (page : List Byte) (offset bytes : Nat) (rae : Bool) (hc : [Part.host, .health] ⊆ ps) : (s.pageOut w lid page offset bytes rae).blank ps = s.blank ps := by
  simp only [List.cons_subset] at hc; unfold State.pageOut; simp [*]
@[simp ↓] theorem State.sbEffect_blank {ps : List Part} (s : State) (transport : Nat) (cmd : SbCmd) (hc : [Part.health] ⊆ ps) : (s.sbEffect transport cmd).blank ps = s.blank ps := by
  simp only [List.cons_subset] at hc; unfold State.sbEffect; (repeat' split) <;> simp [*]
@[simp ↓] theorem State.sbServe_blank {ps : List Part} (s : State) (transport : Nat) (cmd : SbCmd) (hc : [Part.host, .health] ⊆ ps) : (s.sbServe transport cmd).blank ps = s.blank ps := by
  simp only [List.cons_subset] at hc; unfold State.sbServe; simp [*]
@[simp ↓] theorem State.sbArrive_blank {ps : List Part} (s : State) (transport : Nat) (cmd : SbCmd) (hc : [Part.power, .host, .health] ⊆ ps) : (s.sbArrive transport cmd).blank ps = s.blank ps := by
  simp only [List.cons_subset] at hc; unfold State.sbArrive; simp [*]
@[simp ↓] theorem State.miArrive_blank {ps : List Part} (s : State) (transport : Nat) (cmd : SbCmd) (hc : [Part.power, .host, .health] ⊆ ps) : (s.miArrive transport cmd).blank ps = s.blank ps := by
  simp only [List.cons_subset] at hc; unfold State.miArrive; simp [*]
@[simp ↓] theorem State.sbDrop_blank {ps : List Part} (s : State) (transport : Nat) (hc : [Part.regs, .sys, .host, .ns, .ftl, .media, .str, .sea, .disp, .hrt, .health] ⊆ ps) : (s.sbDrop transport).blank ps = s.blank ps := by
  simp only [List.cons_subset] at hc; unfold State.sbDrop; (repeat' split) <;> simp [*]
@[simp ↓] theorem State.sbNext_blank {ps : List Part} (s : State) (transport : Nat) (hc : [Part.regs, .sys, .host, .ns, .ftl, .media, .str, .sea, .disp, .hrt, .health] ⊆ ps) : (s.sbNext transport).blank ps = s.blank ps := by
  simp only [List.cons_subset] at hc; unfold State.sbNext; (repeat' split) <;> simp [*]
@[simp ↓] theorem State.countStalls_blank {ps : List Part} (s : State) (n : Nat) (hc : [Part.regs] ⊆ ps) : (s.countStalls n).blank ps = s.blank ps := by
  simp only [List.cons_subset] at hc; unfold State.countStalls; simp [*]
@[simp ↓] theorem State.shutdownDone_blank {ps : List Part} (s : State) (f : Fn) (hc : [Part.host] ⊆ ps) : (s.shutdownDone f).blank ps = s.blank ps := by
  simp only [List.cons_subset] at hc; unfold State.shutdownDone; simp [*]
@[simp ↓] theorem State.escalateBridges_blank {ps : List Part} (s : State) (hc : [Part.regs, .sys, .power, .host, .ns, .ftl, .media, .str, .sea, .dgs, .lynx, .dma, .disp, .hrt, .memory, .boot, .firmware, .health, .free] ⊆ ps) : s.escalateBridges.blank ps = s.blank ps := by
  simp only [List.cons_subset] at hc; unfold State.escalateBridges; simp [*]
@[simp ↓] theorem State.idle_blank {ps : List Part} (s : State) (hc : [Part.regs, .sys, .power, .host, .ns, .ftl, .media, .str, .sea, .dgs, .lynx, .dma, .disp, .hrt, .memory, .boot, .firmware, .health, .free] ⊆ ps) : s.idle.blank ps = s.blank ps := by
  simp only [List.cons_subset] at hc; unfold State.idle; simp [*]
@[simp ↓] theorem State.callMade_blank {ps : List Part} (s : State) (h : Nat) (k : Kernel) (hc : [Part.regs, .hrt] ⊆ ps) : (s.callMade h k).blank ps = s.blank ps := by
  simp only [List.cons_subset] at hc; unfold State.callMade; simp [*]
@[simp ↓] theorem State.callReturns_blank {ps : List Part} (s : State) (h : Nat) (a0 a1 : Option W64) (hc : [Part.hrt] ⊆ ps) : (s.callReturns h a0 a1).blank ps = s.blank ps := by
  simp only [List.cons_subset] at hc; unfold State.callReturns; simp [*]
@[simp ↓] theorem State.searchFails_blank {ps : List Part} (s : State) (h : Nat) (k : Kernel) (st : Status) (hc : [Part.regs, .sys, .host, .ns, .ftl, .media, .str, .sea, .disp, .hrt, .health] ⊆ ps) : (s.searchFails h k st).blank ps = s.blank ps := by
  simp only [List.cons_subset] at hc; unfold State.searchFails; simp [*]
@[simp ↓] theorem State.searchCall_blank {ps : List Part} (s : State) (table copy : Nat) (soft : List SoftEntry) (key : List Byte) (hc : [Part.regs, .lynx, .health] ⊆ ps) : (s.searchCall table copy soft key).1.blank ps = s.blank ps := by
  simp only [List.cons_subset] at hc; unfold State.searchCall
  (repeat' (first | (with_reducible rfl) | assumption | (simp [*]; done) | (with_reducible refine (blank_foldl _ (fun _ _ => ?_) _ _).trans ?_) | (with_reducible refine (blank_iterate _ (fun _ _ => ?_) _ _).trans ?_) | (with_reducible refine (blank_foldl_p _ (fun _ _ => ?_) _ _).trans ?_) | (with_reducible refine blank_fst (by assumption) ?_) | (with_reducible refine blank_snd (by assumption) ?_) | (with_reducible refine blank_some (by assumption) ?_) | split | (simp only [blank_ite]) | (simp [*, -List.foldl_append, -Option.foldl_toList])))
@[simp ↓] theorem State.latch_blank {ps : List Part} (s : State) (r : Requester) (off : Nat) (v : W32) (hc : [Part.regs] ⊆ ps) : (s.latch r off v).blank ps = s.blank ps := by
  simp only [List.cons_subset] at hc; unfold State.latch; simp [*]
@[simp ↓] theorem State.escRead_blank {ps : List Part} (s : State) (off : Nat) (hc : [Part.sys, .host] ⊆ ps) : (s.escRead off).blank ps = s.blank ps := by
  simp only [List.cons_subset] at hc; unfold State.escRead; simp [*]
@[simp ↓] theorem State.readWord_blank {ps : List Part} (s : State) (r : Requester) (off : Nat) (hc : [Part.regs, .sys, .power, .host, .ns, .ftl, .media, .str, .sea, .dgs, .lynx, .dma, .disp, .hrt, .memory, .boot, .firmware, .health, .free] ⊆ ps) : (s.readWord r off).2.blank ps = s.blank ps := by
  simp only [List.cons_subset] at hc; unfold State.readWord; (repeat' split) <;> simp [*]
@[simp ↓] theorem State.readBytes_blank {ps : List Part} (s : State) (r : Requester) (off width : Nat) (hc : [Part.regs, .sys, .power, .host, .ns, .ftl, .media, .str, .sea, .dgs, .lynx, .dma, .disp, .hrt, .memory, .boot, .firmware, .health, .free] ⊆ ps) : (s.readBytes r off width).2.blank ps = s.blank ps := by
  simp only [List.cons_subset] at hc; unfold State.readBytes
  (repeat' (first | (with_reducible rfl) | assumption | (simp [*]; done) | (with_reducible refine (blank_foldl _ (fun _ _ => ?_) _ _).trans ?_) | (with_reducible refine (blank_iterate _ (fun _ _ => ?_) _ _).trans ?_) | (with_reducible refine (blank_foldl_p _ (fun _ _ => ?_) _ _).trans ?_) | (with_reducible refine blank_fst (by assumption) ?_) | (with_reducible refine blank_snd (by assumption) ?_) | (with_reducible refine blank_some (by assumption) ?_) | split | (simp only [blank_ite]) | (simp [*, -List.foldl_append, -Option.foldl_toList])))
@[simp ↓] theorem State.regAccess_blank {ps : List Part} (s : State) (r : Requester) (off width : Nat) (hc : [Part.regs, .sys, .power, .host, .ns, .ftl, .media, .str, .sea, .dgs, .lynx, .dma, .disp, .hrt, .memory, .boot, .firmware, .health, .free] ⊆ ps) : (s.regAccess r off width).blank ps = s.blank ps := by
  simp only [List.cons_subset] at hc; unfold State.regAccess; simp [*]
@[simp ↓] theorem State.msixWrite_blank {ps : List Part} (s : State) (f : Fn) (o : Nat) (v : W32) (hc : [Part.host] ⊆ ps) : (s.msixWrite f o v).blank ps = s.blank ps := by
  simp only [List.cons_subset] at hc; unfold State.msixWrite; simp [*]
@[simp ↓] theorem State.dmaPtrWrite_blank {ps : List Part} (s : State) (r : Requester) (n o : Nat) (v : W32) (hc : [Part.dma] ⊆ ps) : (s.dmaPtrWrite r n o v).blank ps = s.blank ps := by
  simp only [List.cons_subset] at hc; unfold State.dmaPtrWrite; simp [*]
@[simp ↓] theorem State.plainWrite_blank {ps : List Part} (s : State) (r : Requester) (off : Nat) (v : W32) (hc : [Part.regs, .power, .media, .str, .sea, .disp, .memory, .health] ⊆ ps) : (s.plainWrite r off v).blank ps = s.blank ps := by
  simp only [List.cons_subset] at hc; unfold State.plainWrite; (repeat' split) <;> simp [*]
@[simp] theorem stateAfter_next (s t : State) : stateAfter s (.next t) = t := rfl
@[simp ↓] theorem execRelease_after_blank {ps : List Part} (r : PortReq) (s : State) (hc : [Part.regs, .sys, .power, .host, .ns, .ftl, .media, .str, .sea, .dgs, .lynx, .dma, .disp, .hrt, .memory, .boot, .firmware, .health, .free] ⊆ ps) : (stateAfter s (execRelease r s)).blank ps = s.blank ps := by
  simp only [List.cons_subset] at hc; unfold execRelease
  (try dsimp only)
  (repeat' split) <;> simp [hc]
@[simp ↓] theorem execClaim_after_blank {ps : List Part} (r : PortReq) (s : State) (hc : [Part.regs, .sys, .power, .host, .ns, .ftl, .media, .str, .sea, .dgs, .lynx, .dma, .disp, .hrt, .memory, .boot, .firmware, .health, .free] ⊆ ps) : (stateAfter s (execClaim r s)).blank ps = s.blank ps := by
  simp only [List.cons_subset] at hc; unfold execClaim
  (try dsimp only)
  (repeat' split) <;> simp [hc]
@[simp ↓] theorem execPortStart_after_blank {ps : List Part} (r : PortReq) (value : W32) (s : State) (hc : [Part.regs, .sys, .power, .host, .ns, .ftl, .media, .str, .sea, .dgs, .lynx, .dma, .disp, .hrt, .memory, .boot, .firmware, .health, .free] ⊆ ps) : (stateAfter s (execPortStart r value s)).blank ps = s.blank ps := by
  simp only [List.cons_subset] at hc; unfold execPortStart
  (try dsimp only)
  (repeat' split) <;> simp [hc]
@[simp ↓] theorem execPortData_after_blank {ps : List Part} (r : PortReq) (word : W32) (s : State) (hc : [Part.regs, .sys, .power, .host, .ns, .ftl, .media, .str, .sea, .dgs, .lynx, .dma, .disp, .hrt, .memory, .boot, .firmware, .health, .free] ⊆ ps) : (stateAfter s (execPortData r word s)).blank ps = s.blank ps := by
  simp only [List.cons_subset] at hc; unfold execPortData
  (try dsimp only)
  (repeat' split) <;> simp [hc]
@[simp ↓] theorem execPortFinish_after_blank {ps : List Part} (r : PortReq) (value : W32) (seen : Comparators) (s : State) (hc : [Part.regs, .sys, .power, .host, .ns, .ftl, .media, .str, .sea, .dgs, .lynx, .dma, .disp, .hrt, .memory, .boot, .firmware, .health, .free] ⊆ ps) : (stateAfter s (execPortFinish r value seen s)).blank ps = s.blank ps := by
  simp only [List.cons_subset] at hc; unfold execPortFinish
  (try dsimp only)
  (repeat' split) <;> simp [hc]
@[simp ↓] theorem execReshapeAbort_after_blank {ps : List Part} (r : Requester) (value : W32) (s : State) (hc : [Part.regs, .sys, .host, .ns, .ftl, .media, .str, .sea, .disp, .hrt, .health] ⊆ ps) : (stateAfter s (execReshapeAbort r value s)).blank ps = s.blank ps := by
  simp only [List.cons_subset] at hc; unfold execReshapeAbort
  (try dsimp only)
  (repeat' split) <;> simp [hc]
@[simp ↓] theorem execReshapeStart_after_blank {ps : List Part} (r : Requester) (value : W32) (s : State) (hc : [Part.regs, .sys, .host, .media, .str, .health] ⊆ ps) : (stateAfter s (execReshapeStart r value s)).blank ps = s.blank ps := by
  simp only [List.cons_subset] at hc; unfold execReshapeStart
  (try dsimp only)
  (repeat' split) <;> simp [hc]
@[simp ↓] theorem execLnxEntRead_after_blank {ps : List Part} (r : Requester) (value : W32) (s : State) (hc : [Part.regs, .sys, .power, .host, .ns, .ftl, .media, .str, .sea, .dgs, .lynx, .dma, .disp, .hrt, .memory, .boot, .firmware, .health, .free] ⊆ ps) : (stateAfter s (execLnxEntRead r value s)).blank ps = s.blank ps := by
  simp only [List.cons_subset] at hc; unfold execLnxEntRead
  (try dsimp only)
  (repeat' split) <;> simp [hc]
@[simp ↓] theorem execLnxEntWrite_after_blank {ps : List Part} (r : Requester) (value : W32) (s : State) (hc : [Part.regs, .sys, .power, .host, .ns, .ftl, .media, .str, .sea, .dgs, .lynx, .dma, .disp, .hrt, .memory, .boot, .firmware, .health, .free] ⊆ ps) : (stateAfter s (execLnxEntWrite r value s)).blank ps = s.blank ps := by
  simp only [List.cons_subset] at hc; unfold execLnxEntWrite
  split
  · split
    · simp [hc]
    · dsimp only; split <;> rw [stateAfter_next] <;> simp [hc]
  · simp [hc]
@[simp ↓] theorem execLnxEntDelete_after_blank {ps : List Part} (r : Requester) (value : W32) (s : State) (hc : [Part.regs, .sys, .power, .host, .ns, .ftl, .media, .str, .sea, .dgs, .lynx, .dma, .disp, .hrt, .memory, .boot, .firmware, .health, .free] ⊆ ps) : (stateAfter s (execLnxEntDelete r value s)).blank ps = s.blank ps := by
  simp only [List.cons_subset] at hc; unfold execLnxEntDelete
  (try dsimp only)
  (repeat' split) <;> simp [hc]
@[simp ↓] theorem execHmacClear_after_blank {ps : List Part} (r : Requester) (value : W32) (s : State) (hc : [Part.regs, .sys, .power, .host, .ns, .ftl, .media, .str, .sea, .dgs, .lynx, .dma, .disp, .hrt, .memory, .boot, .firmware, .health, .free] ⊆ ps) : (stateAfter s (execHmacClear r value s)).blank ps = s.blank ps := by
  simp only [List.cons_subset] at hc; unfold execHmacClear
  (try dsimp only)
  (repeat' split) <;> simp [hc]
@[simp ↓] theorem execHmacLoad_after_blank {ps : List Part} (r : Requester) (value : W32) (s : State) (hc : [Part.regs, .sys, .power, .host, .ns, .ftl, .media, .str, .sea, .dgs, .lynx, .dma, .disp, .hrt, .memory, .boot, .firmware, .health, .free] ⊆ ps) : (stateAfter s (execHmacLoad r value s)).blank ps = s.blank ps := by
  simp only [List.cons_subset] at hc; unfold execHmacLoad
  (try dsimp only)
  (repeat' split) <;> simp [hc]
@[simp ↓] theorem execLnxTblSelWrite_after_blank {ps : List Part} (r : Requester) (value : W32) (s : State) (hc : [Part.regs, .sys, .power, .host, .ns, .ftl, .media, .str, .sea, .dgs, .lynx, .dma, .disp, .hrt, .memory, .boot, .firmware, .health, .free] ⊆ ps) : (stateAfter s (execLnxTblSelWrite r value s)).blank ps = s.blank ps := by
  simp only [List.cons_subset] at hc; unfold execLnxTblSelWrite
  (try dsimp only)
  (repeat' split) <;> simp [hc]
@[simp ↓] theorem execDefine_after_blank {ps : List Part} (r : Requester) (value : W32) (s : State) (hc : [Part.regs, .sys, .power, .host, .ns, .ftl, .media, .str, .sea, .dgs, .lynx, .dma, .disp, .hrt, .memory, .boot, .firmware, .health, .free] ⊆ ps) : (stateAfter s (execDefine r value s)).blank ps = s.blank ps := by
  simp only [List.cons_subset] at hc; unfold execDefine
  (try dsimp only)
  (repeat' split) <;> simp [hc]
@[simp ↓] theorem execUndefine_after_blank {ps : List Part} (r : Requester) (value : W32) (s : State) (hc : [Part.regs, .sys, .power, .host, .ns, .ftl, .media, .str, .sea, .dgs, .lynx, .dma, .disp, .hrt, .memory, .boot, .firmware, .health, .free] ⊆ ps) : (stateAfter s (execUndefine r value s)).blank ps = s.blank ps := by
  simp only [List.cons_subset] at hc; unfold execUndefine
  (try dsimp only)
  (repeat' split) <;> simp [hc]
@[simp ↓] theorem execEccInjectArm_after_blank {ps : List Part} (r : Requester) (value : W32) (s : State) (hc : [Part.regs, .sys, .power, .host, .ns, .ftl, .media, .str, .sea, .dgs, .lynx, .dma, .disp, .hrt, .memory, .boot, .firmware, .health, .free] ⊆ ps) : (stateAfter s (execEccInjectArm r value s)).blank ps = s.blank ps := by
  simp only [List.cons_subset] at hc; unfold execEccInjectArm
  (try dsimp only)
  (repeat' split) <;> simp [hc]
@[simp ↓] theorem execBridgeErrClear_after_blank {ps : List Part} (r : Requester) (value : W32) (s : State) (hc : [Part.regs, .sys, .power, .host, .ns, .ftl, .media, .str, .sea, .dgs, .lynx, .dma, .disp, .hrt, .memory, .boot, .firmware, .health, .free] ⊆ ps) : (stateAfter s (execBridgeErrClear r value s)).blank ps = s.blank ps := by
  simp only [List.cons_subset] at hc; unfold execBridgeErrClear
  (try dsimp only)
  (repeat' split) <;> simp [hc]
@[simp ↓] theorem execRleErrClear_after_blank {ps : List Part} (r : Requester) (value : W32) (s : State) (hc : [Part.regs, .sys, .power, .host, .ns, .ftl, .media, .str, .sea, .dgs, .lynx, .dma, .disp, .hrt, .memory, .boot, .firmware, .health, .free] ⊆ ps) : (stateAfter s (execRleErrClear r value s)).blank ps = s.blank ps := by
  simp only [List.cons_subset] at hc; unfold execRleErrClear
  (try dsimp only)
  (repeat' split) <;> simp [hc]
@[simp ↓] theorem execEccUeClear_after_blank {ps : List Part} (r : Requester) (value : W32) (s : State) (hc : [Part.regs, .sys, .power, .host, .ns, .ftl, .media, .str, .sea, .dgs, .lynx, .dma, .disp, .hrt, .memory, .boot, .firmware, .health, .free] ⊆ ps) : (stateAfter s (execEccUeClear r value s)).blank ps = s.blank ps := by
  simp only [List.cons_subset] at hc; unfold execEccUeClear
  (try dsimp only)
  (repeat' split) <;> simp [hc]
@[simp ↓] theorem execDmaErrClear_after_blank {ps : List Part} (r : Requester) (value : W32) (s : State) (hc : [Part.regs, .sys, .power, .host, .ns, .ftl, .media, .str, .sea, .dgs, .lynx, .dma, .disp, .hrt, .memory, .boot, .firmware, .health, .free] ⊆ ps) : (stateAfter s (execDmaErrClear r value s)).blank ps = s.blank ps := by
  simp only [List.cons_subset] at hc; unfold execDmaErrClear
  (try dsimp only)
  (repeat' split) <;> simp [hc]
@[simp ↓] theorem execLnxErrClear_after_blank {ps : List Part} (r : Requester) (value : W32) (s : State) (hc : [Part.regs, .sys, .power, .host, .ns, .ftl, .media, .str, .sea, .dgs, .lynx, .dma, .disp, .hrt, .memory, .boot, .firmware, .health, .free] ⊆ ps) : (stateAfter s (execLnxErrClear r value s)).blank ps = s.blank ps := by
  simp only [List.cons_subset] at hc; unfold execLnxErrClear
  (try dsimp only)
  (repeat' split) <;> simp [hc]
@[simp ↓] theorem execUcalCommit_after_blank {ps : List Part} (r : Requester) (island : Nat) (value : W32) (s : State) (hc : [Part.regs, .sys, .power, .host, .ns, .ftl, .media, .str, .sea, .dgs, .lynx, .dma, .disp, .hrt, .memory, .boot, .firmware, .health, .free] ⊆ ps) : (stateAfter s (execUcalCommit r island value s)).blank ps = s.blank ps := by
  simp only [List.cons_subset] at hc; unfold execUcalCommit
  (try dsimp only)
  (repeat' split) <;> simp [hc]
@[simp ↓] theorem execSend_after_blank {ps : List Part} (fn : Fn) (fromManager : Bool) (value : W32) (s : State) (hc : [Part.host, .disp] ⊆ ps) : (stateAfter s (execSend fn fromManager value s)).blank ps = s.blank ps := by
  simp only [List.cons_subset] at hc; unfold execSend
  (try dsimp only)
  (repeat' split) <;> simp [hc]
@[simp ↓] theorem execPop_after_blank {ps : List Part} (fn : Fn) (fromManager : Bool) (value : W32) (s : State) (hc : [Part.host, .disp] ⊆ ps) : (stateAfter s (execPop fn fromManager value s)).blank ps = s.blank ps := by
  simp only [List.cons_subset] at hc; unfold execPop
  (try dsimp only)
  (repeat' split) <;> simp [hc]

@[simp ↓] theorem State.portWrite_blank {ps : List Part} (s : State) (p : PortReq) (off : Nat) (v : W32) (hc : [Part.regs, .sys, .power, .host, .ns, .ftl, .media, .str, .sea, .dgs, .lynx, .dma, .disp, .hrt, .memory, .boot, .firmware, .health, .free] ⊆ ps) : (s.portWrite p off v).blank ps = s.blank ps := by
  simp only [List.cons_subset] at hc; unfold State.portWrite; simp [*]
@[simp ↓] theorem State.reshapeWrite_blank {ps : List Part} (s : State) (r : Requester) (v : W32) (hc : [Part.regs, .sys, .host, .ns, .ftl, .media, .str, .sea, .disp, .hrt, .health] ⊆ ps) : (s.reshapeWrite r v).blank ps = s.blank ps := by
  simp only [List.cons_subset] at hc; unfold State.reshapeWrite; simp [*]
@[simp ↓] theorem State.entryWrite_blank {ps : List Part} (s : State) (r : Requester) (v : W32) (hc : [Part.regs, .sys, .power, .host, .ns, .ftl, .media, .str, .sea, .dgs, .lynx, .dma, .disp, .hrt, .memory, .boot, .firmware, .health, .free] ⊆ ps) : (s.entryWrite r v).blank ps = s.blank ps := by
  simp only [List.cons_subset] at hc; unfold State.entryWrite; simp [*]
@[simp ↓] theorem State.fieldsWrite_blank {ps : List Part} (s : State) (r : Requester) (off : Nat) (v : W32) (hc : [Part.regs, .sys, .power, .host, .ns, .ftl, .media, .str, .sea, .dgs, .lynx, .dma, .disp, .hrt, .memory, .boot, .firmware, .health, .free] ⊆ ps) : (s.fieldsWrite r off v).blank ps = s.blank ps := by
  simp only [List.cons_subset] at hc; unfold State.fieldsWrite; dsimp only
  (repeat' with_reducible refine blank_of_ite ?_ ?_) <;> first | (simp [hc]; done) | (split <;> simp [hc]; done) | (rw [apply_ite (stateAfter s)]; refine blank_of_ite ?_ ?_ <;> simp [hc])
@[simp ↓] theorem State.mbxWrite_blank {ps : List Part} (s : State) (f : Fn) (manager : Bool) (o : Nat) (v : W32) (hc : [Part.host, .disp] ⊆ ps) : (s.mbxWrite f manager o v).blank ps = s.blank ps := by
  simp only [List.cons_subset] at hc; unfold State.mbxWrite; simp [*]
@[simp ↓] theorem State.barWrite_blank {ps : List Part} (s : State) (r : Requester) (off : Nat) (v : W32) (hc : [Part.regs, .sys, .power, .host, .ns, .ftl, .media, .str, .sea, .dgs, .lynx, .dma, .disp, .hrt, .memory, .boot, .firmware, .health, .free] ⊆ ps) : (s.barWrite r off v).blank ps = s.blank ps := by
  simp only [List.cons_subset] at hc; unfold State.barWrite; (repeat' split) <;> simp [*]

end

end Sys2Proof.Machine
end

