-- ==== Sys2Proof/Laws/Memory.lean ====
section
/-! SUPPORT. The laws of tables and of byte memories: a read after a write, what a write leaves alone, and that every operation
keeps the canonical form. -/

namespace Sys2Proof.Machine

variable {α : Type}

@[simp] theorem Tbl.find_nil (k : Nat) : Tbl.find ([] : Tbl α) k = none := rfl

theorem Tbl.find_set (t : Tbl α) (k j : Nat) (x : α) : (Tbl.set t k x).find j = if j = k then some x else t.find j := by
  induction t with
  | nil => simp [Tbl.set, Tbl.find]
  | cons e t ih =>
    obtain ⟨a, v⟩ := e
    simp only [Tbl.set, Tbl.find]
    split
    · simp [Tbl.find]
    · split
      · next h => subst h; simp [Tbl.find]; split <;> simp_all
      · next h => simp only [Tbl.find, ih]; split <;> simp_all <;> omega

@[simp] theorem Tbl.find_set_self (t : Tbl α) (k : Nat) (x : α) : (Tbl.set t k x).find k = some x := by simp [Tbl.find_set]

@[simp] theorem Tbl.find_set_other (t : Tbl α) {k j : Nat} (x : α) (h : j ≠ k) : (Tbl.set t k x).find j = t.find j := by
  simp [Tbl.find_set, h]

theorem Tbl.find_erase (t : Tbl α) (k j : Nat) : (Tbl.erase t k).find j = if j = k then none else t.find j := by
  induction t with
  | nil => simp [Tbl.erase, Tbl.find]
  | cons e t ih =>
    obtain ⟨a, v⟩ := e
    simp only [Tbl.erase] at ih ⊢
    by_cases h : a = k
    · subst h; simp [Tbl.find]; split <;> simp_all
    · simp [h, Tbl.find]; split <;> simp_all

@[simp] theorem Tbl.find_erase_self (t : Tbl α) (k : Nat) : (Tbl.erase t k).find k = none := by simp [Tbl.find_erase]

@[simp] theorem Tbl.find_erase_other (t : Tbl α) {k j : Nat} (h : j ≠ k) : (Tbl.erase t k).find j = t.find j := by
  simp [Tbl.find_erase, h]

theorem Tbl.getD_put [DecidableEq α] (d : α) (t : Tbl α) (k j : Nat) (x : α) :
    (Tbl.put d t k x).getD j d = if j = k then x else t.getD j d := by
  unfold Tbl.put Tbl.getD
  split
  · next h => subst h; rw [Tbl.find_erase]; split <;> rfl
  · rw [Tbl.find_set]; split <;> rfl

@[simp] theorem Tbl.getD_put_self [DecidableEq α] (d : α) (t : Tbl α) (k : Nat) (x : α) : (Tbl.put d t k x).getD k d = x := by
  simp [Tbl.getD_put]

@[simp] theorem Tbl.getD_put_other [DecidableEq α] (d : α) (t : Tbl α) {k j : Nat} (x : α) (h : j ≠ k) :
    (Tbl.put d t k x).getD j d = t.getD j d := by simp [Tbl.getD_put, h]

theorem Tbl.find_modify (t : Tbl α) (k j : Nat) (g : α → α) :
    (Tbl.modify t k g).find j = if j = k then (t.find k).map g else t.find j := by
  unfold Tbl.modify
  split
  · next v h => rw [Tbl.find_set, h]; rfl
  · next h => split
              · next e => simp [e, h]
              · rfl

/-! ## The canonical form -/

theorem Tbl.rising_mono {t : Tbl α} {a b : Nat} (h : b ≤ a) (k : Tbl.risingFrom a t = true) : Tbl.risingFrom b t = true := by
  cases t with
  | nil => rfl
  | cons e t => simp only [Tbl.risingFrom, Bool.and_eq_true, decide_eq_true_eq] at k ⊢; exact ⟨by omega, k.2⟩

theorem Tbl.rising_set {t : Tbl α} {b k : Nat} (x : α) (h : b ≤ k) (r : Tbl.risingFrom b t = true) :
    Tbl.risingFrom b (Tbl.set t k x) = true := by
  induction t generalizing b with
  | nil => simp [Tbl.set, Tbl.risingFrom, h]
  | cons e t ih =>
    obtain ⟨a, v⟩ := e
    simp only [Tbl.risingFrom, Bool.and_eq_true, decide_eq_true_eq] at r
    simp only [Tbl.set]
    split
    · simp [Tbl.risingFrom, h, r.2]; omega
    · split
      · next e => subst e; simp [Tbl.risingFrom, h, r.2]
      · simp only [Tbl.risingFrom, Bool.and_eq_true, decide_eq_true_eq]
        exact ⟨r.1, ih (by omega) r.2⟩

theorem Tbl.rising_filter {t : Tbl α} {b : Nat} (p : Nat × α → Bool) (r : Tbl.risingFrom b t = true) :
    Tbl.risingFrom b (t.filter p) = true := by
  induction t generalizing b with
  | nil => rfl
  | cons e t ih =>
    obtain ⟨a, v⟩ := e
    simp only [Tbl.risingFrom, Bool.and_eq_true, decide_eq_true_eq] at r
    simp only [List.filter]
    split
    · simp only [Tbl.risingFrom, Bool.and_eq_true, decide_eq_true_eq]; exact ⟨r.1, ih r.2⟩
    · exact ih (Tbl.rising_mono (by omega) r.2)

theorem Tbl.wf_set {t : Tbl α} (k : Nat) (x : α) (r : t.wf = true) : (Tbl.set t k x).wf = true := Tbl.rising_set x (Nat.zero_le _) r
theorem Tbl.wf_erase {t : Tbl α} (k : Nat) (r : t.wf = true) : (Tbl.erase t k).wf = true := Tbl.rising_filter _ r
theorem Tbl.wf_keep {t : Tbl α} (p : Nat → α → Bool) (r : t.wf = true) : (Tbl.keep t p).wf = true := Tbl.rising_filter _ r
theorem Tbl.wf_put [DecidableEq α] {t : Tbl α} (d : α) (k : Nat) (x : α) (r : t.wf = true) : (Tbl.put d t k x).wf = true := by
  unfold Tbl.put; split
  · exact Tbl.wf_erase k r
  · exact Tbl.wf_set k x r
theorem Tbl.wf_modify {t : Tbl α} (k : Nat) (g : α → α) (r : t.wf = true) : (Tbl.modify t k g).wf = true := by
  unfold Tbl.modify; split
  · exact Tbl.wf_set _ _ r
  · exact r

/-! ## Byte memories -/

theorem Mem.read_write (m : Mem) (a j : Nat) (b : Byte) : (m.write a b).read j = if j = a then b else m.read j :=
  Tbl.getD_put Mem.unlisted m a j b

@[simp] theorem Mem.read_write_self (m : Mem) (a : Nat) (b : Byte) : (m.write a b).read a = b := by simp [Mem.read_write]

@[simp] theorem Mem.read_write_other (m : Mem) {a j : Nat} (b : Byte) (h : j ≠ a) : (m.write a b).read j = m.read j := by
  simp [Mem.read_write, h]

/-- A write of bytes leaves every byte outside them alone. -/
theorem Mem.read_writeBytes_other (m : Mem) (a j : Nat) (bs : List Byte) (h : j < a ∨ a + bs.length ≤ j) :
    (m.writeBytes a bs).read j = m.read j := by
  induction bs generalizing m a with
  | nil => rfl
  | cons b bs ih =>
    simp only [List.length_cons] at h
    rw [Mem.writeBytes, ih _ _ (by omega), Mem.read_write_other _ _ (by omega)]

/-- What was written is read. -/
theorem Mem.readBytes_writeBytes (m : Mem) (a : Nat) (bs : List Byte) : (m.writeBytes a bs).readBytes a bs.length = bs := by
  induction bs generalizing m a with
  | nil => rfl
  | cons b bs ih =>
    simp only [Mem.writeBytes, List.length_cons, Mem.readBytes]
    rw [Mem.read_writeBytes_other _ _ _ _ (by omega), Mem.read_write_self, ih]

theorem Mem.all_set {t : Mem} (k : Nat) (x : Byte) (hx : x ≠ Mem.unlisted) (h : (t.all fun c => c.2 ≠ Mem.unlisted) = true) :
    ((Tbl.set t k x).all fun c => c.2 ≠ Mem.unlisted) = true := by
  induction t with
  | nil => simpa [Tbl.set] using hx
  | cons e t ih =>
    obtain ⟨a, v⟩ := e
    simp only [List.all_cons, Bool.and_eq_true, decide_eq_true_eq] at h
    simp only [Tbl.set]
    split
    · simp [h.1, hx]; simpa using h.2
    · split
      · simp [hx]; simpa using h.2
      · simp only [List.all_cons, Bool.and_eq_true, decide_eq_true_eq]; exact ⟨h.1, ih h.2⟩

theorem Mem.all_filter {t : Mem} (p : Host.Cell → Bool) (h : (t.all fun c => c.2 ≠ Mem.unlisted) = true) :
    ((t.filter p).all fun c => c.2 ≠ Mem.unlisted) = true := by
  simp only [List.all_eq_true, List.mem_filter] at *
  exact fun x hx => h x hx.1

/-- A write keeps the canonical form. -/
theorem Mem.wf_write {m : Mem} (a : Nat) (b : Byte) (h : m.wf = true) : (m.write a b).wf = true := by
  simp only [Mem.wf, Bool.and_eq_true] at *
  refine ⟨Tbl.wf_put _ _ _ h.1, ?_⟩
  unfold Mem.write Tbl.put
  split
  · exact Mem.all_filter _ h.2
  · next hb => exact Mem.all_set _ _ hb h.2

theorem Mem.wf_writeBytes {m : Mem} (a : Nat) (bs : List Byte) (h : m.wf = true) : (m.writeBytes a bs).wf = true := by
  induction bs generalizing m a with
  | nil => exact h
  | cons b bs ih => exact ih _ (Mem.wf_write _ _ h)

theorem Mem.wf_clear {m : Mem} (a n : Nat) (h : m.wf = true) : (m.clear a n).wf = true := by
  simp only [Mem.wf, Bool.and_eq_true] at *
  exact ⟨Tbl.rising_filter _ h.1, Mem.all_filter _ h.2⟩

end Sys2Proof.Machine
end

