-- ==== Sys2Proof/WellFormed.lean ====
section
/-! DEFINITION. Well-formed commands: every operand fits the field, queue entry, register or port that carries it. The
meanings are total and give the ill-formed ones an effect too; these checks say what a sender can spell. -/

namespace Sys2Proof

/-- A number of so many bits. -/
def below (bits n : Nat) : Bool := decide (n < 2 ^ bits)
/-- Functions 0 to 127 are of Port A, 256 to 383 of Port B (R442). -/
def fnOk (f : Fn) : Bool := decide (f < 128) || (decide (256 ≤ f) && decide (f < 384))
/-- NVMe: 16-bit queue and command identifiers. -/
def Who.ok (w : Who) : Bool := fnOk w.fn && below 16 w.sq && below 16 w.cid
def nsidOk (n : Nat) : Bool := below 32 n
/-- A count of logical blocks, spelled 0's based in 16 bits. -/
def nlbOk (n : Nat) : Bool := decide (1 ≤ n) && decide (n ≤ 65536)
/-- 4,096 flow contexts, at most 16 stages of a Trail, 256 chunk slots (R43, R45, R60). -/
def flowOk (n : Nat) : Bool := below 12 n
def stageOk (n : Nat) : Bool := below 4 n
def cslotOk (n : Nat) : Bool := below 8 n
/-- 64 harts, 64 DMA channels, 32 flash channels, 4 DRAM channels, 4 MEDIA islands. -/
def hartOk (n : Nat) : Bool := below 6 n
def dmaChannelOk (n : Nat) : Bool := below 6 n
def flashChannelOk (n : Nat) : Bool := below 5 n
def dramChannelOk (n : Nat) : Bool := below 2 n
def islandOk (n : Nat) : Bool := below 2 n
/-- At most 2,048 LUNs (R158). -/
def lunOk (n : Nat) : Bool := below 11 n
/-- SMBus, the two VDM endpoints and the two DOE mailboxes. -/
def transportOk (n : Nat) : Bool := decide (n < 5)
/-- An offset of the 64 MiB BAR2 window, and an access of up to the largest PCIe read (R443, R575). -/
def windowOk (n : Nat) : Bool := below 26 n
def widthOk (n : Nat) : Bool := decide (1 ≤ n) && decide (n ≤ 4096)
/-- The 3-bit Select of Get Features. -/
def selectOk (n : Nat) : Bool := below 3 n

def Requester.ok : Requester → Bool
  | .portA => true
  | .portB => true
  | .firmware hart => below 2 hart
  | .security => true
  | .vf fn => fnOk fn

def WakeCause.ok : WakeCause → Bool
  | .link => true
  | .mctp => true
  | .setFeatures w _ _ => w.ok

def BridgeReq.ok : BridgeReq → Bool
  | .trailTask flow stage cslot => flowOk flow && stageOk stage && cslotOk cslot
  | .nvm w => w.ok
  | .bar2Read r offset width => r.ok && windowOk offset && widthOk width
  | .bar2Write r => r.ok
  | .firmware => true
  | .flush slot => below 32 slot

/-- Every operand fits its field. -/
def Instr.wellFormed : Instr → Bool
  | .bridgeTimeout _ _ req => req.ok
  | .setFeaturesMode w _ _ => w.ok
  | .getFeaturesMode w select => w.ok && selectOk select
  | .modeTransitionDone => true
  | .thermalSample _ => true
  | .sprintTick _ => true
  | .sprintLimit => true
  | .ilimNAssert => true
  | .hibernateEntryDone => true
  | .wakeEvent cause => cause.ok
  | .wakeReady => true
  | .trailSubmit w _ _ _ _ => w.ok
  | .trailAdmissionResume w => w.ok
  | .trailQuery w _ _ => w.ok
  | .trailQueryWaitExpiry w => w.ok
  | .trailCancel w _ => w.ok
  | .chunkIssue flow _ => flowOk flow
  | .trailEnd flow seen => flowOk flow && decide (seen.length ≤ 4)
  | .creditGrant flow stage cslot => flowOk flow && stageOk stage && cslotOk cslot
  | .sinkGrant flow cslot => flowOk flow && cslotOk cslot
  | .taskFire flow stage cslot _ => flowOk flow && stageOk stage && cslotOk cslot
  | .unitTaskStart _ _ => true
  | .taskComplete flow stage cslot _ _ => flowOk flow && stageOk stage && cslotOk cslot
  | .engineWatchdogExpiry _ _ => true
  | .orphanCheck => true
  | .squirrelFill hart => hartOk hart
  | .hartTaskStart hart => hartOk hart
  | .exit hart _ => hartOk hart
  | .kernelWritebackDone hart _ => hartOk hart
  | .fail hart _ => hartOk hart
  | .budgetLeft hart _ => hartOk hart
  | .lynxSearch hart _ => hartOk hart
  | .lynxSearchReturn hart _ => hartOk hart
  | .kernelTrailSubmit hart _ _ => hartOk hart
  | .kernelFault hart _ _ => hartOk hart
  | .budgetExpiry hart _ => hartOk hart
  | .hartStopTimeout hart => hartOk hart
  | .hartResetTimeout hart => hartOk hart
  | .moduleLoad w _ _ _ => w.ok
  | .enroll w _ _ => w.ok
  | .moduleMeasureDone => true
  | .moduleSignatureDone => true
  | .moduleUnload w module _ => w.ok && below 16 module
  | .moduleRemove module => below 16 module
  | .clusterEnWrite r _ => r.ok
  | .channelTrainDone channel _ => flashChannelOk channel
  | .targetTempPoll channel _ => flashChannelOk channel
  | .channelRetrainDone channel _ => flashChannelOk channel
  | .suspendDone lun => lunOk lun
  | .suspendBudgetExpiry lun => lunOk lun
  | .writeAgeExpiry lun _ => lunOk lun
  | .senseDone lun => lunOk lun
  | .codewordDecodeDone lun cw _ => lunOk lun && below 8 cw
  | .ladderDeadlineExpiry lun cw => lunOk lun && below 8 cw
  | .firstSenseDeadlineExpiry lun => lunOk lun
  | .programDone lun _ => lunOk lun
  | .eraseDone lun _ => lunOk lun
  | .lunReadyTimeout lun => lunOk lun
  | .ucalCommit r island _ => r.ok && below 2 island
  | .ucalCommitDone island _ => below 2 island
  | .systemAreaMoveDone _ => true
  | .nvmWrite w nsid slba nlb => w.ok && nsidOk nsid && below 64 slba && nlbOk nlb
  | .writeZeroes w nsid slba nlb => w.ok && nsidOk nsid && below 64 slba && nlbOk nlb
  | .nvmRead w nsid slba nlb => w.ok && nsidOk nsid && below 64 slba && nlbOk nlb
  | .datasetManagement w nsid _ _ => w.ok && nsidOk nsid
  | .flush w nsid => w.ok && nsidOk nsid
  | .compare w nsid slba nlb _ => w.ok && nsidOk nsid && below 64 slba && nlbOk nlb
  | .verify w nsid slba nlb => w.ok && nsidOk nsid && below 64 slba && nlbOk nlb
  | .writeAdmit => true
  | .writeDataDone w _ => w.ok
  | .slotFlushStart slot => below 32 slot
  | .stripeCloseTimeout _ _ => true
  | .badgerVictimSelect => true
  | .epochBoundary => true
  | .journalPageTimeout => true
  | .mapSegmentTimeout _ => true
  | .mapSegmentRebuildDone _ => true
  | .rebuildBandStart => true
  | .dumpComplete => true
  | .reshapeStart r _ => r.ok
  | .reshapeAbort r _ => r.ok
  | .reshapeRegionBegin => true
  | .getImportKey w => w.ok
  | .importKeyExpiry _ => true
  | .importKey w _ => w.ok
  | .generate w slot _ => w.ok && below 32 slot
  | .clear w slot _ => w.ok && below 32 slot
  | .restore w => w.ok
  | .slotStatus w => w.ok
  | .opalSecuritySend w _ _ => w.ok
  | .opalSecurityReceive w _ => w.ok
  | .genkey nsid _ => nsidOk nsid
  | .nonceLogWriteDone slot => below 32 slot
  | .alarm _ => true
  | .claim _ => true
  | .release _ => true
  | .portOwnerTimeout => true
  | .portStart _ _ => true
  | .portData _ _ => true
  | .portBlockAbsorbed => true
  | .portFinish _ _ _ => true
  | .hmacLoad r _ => r.ok
  | .hmacLoadDone => true
  | .hmacClear r _ => r.ok
  | .hmacReloadDone slot => below 32 slot
  | .define r _ => r.ok
  | .undefine r _ => r.ok
  | .lnxTblSelWrite r _ => r.ok
  | .lnxEntRead r _ => r.ok
  | .lnxEntWrite r _ => r.ok
  | .lnxEntDelete r _ => r.ok
  | .lynxCompareStep table _ _ => below 8 table
  | .lynxLapComplete _ => true
  | .lapTargetExceeded => true
  | .lynxReloadDone => true
  | .arm r channel _ => r.ok && dmaChannelOk channel
  | .dmaPause r channel _ => r.ok && dmaChannelOk channel
  | .dmaResume r channel _ => r.ok && dmaChannelOk channel
  | .dmaPauseDrained channel _ _ => dmaChannelOk channel
  | .dmaOwnerWrite r channel _ => r.ok && dmaChannelOk channel
  | .dmaDescPtrWrite r channel _ => r.ok && dmaChannelOk channel
  | .dmaDescriptorDone channel _ => dmaChannelOk channel
  | .dmaPaceResume channel => dmaChannelOk channel
  | .dmaBusError channel _ _ _ _ => dmaChannelOk channel
  | .descFetchError _ _ _ => true
  | .dramTrainAttemptDone channel _ => dramChannelOk channel
  | .dqsRecentre channel sc => dramChannelOk channel && below 1 sc
  | .zqCalibration channel sc => dramChannelOk channel && below 1 sc
  | .mr4Poll channel _ _ => dramChannelOk channel
  | .refresh channel sc => dramChannelOk channel && below 1 sc
  | .memRequest _ _ _ => true
  | .memReadDone _ _ _ _ _ _ => true
  | .owlRead _ _ _ _ _ => true
  | .pageRetireDone _ => true
  | .owlLapOverdue => true
  | .eccInjectArm r _ => r.ok
  | .portReset _ => true
  | .perstAssert _ => true
  | .perstDeassert _ => true
  | .linkTrained _ _ _ _ => true
  | .pcieCompletionTimeout req => req.ok
  | .doorbellWrite fn qid _ _ => fnOk fn && below 16 qid
  | .commandFetch fn sq cid => fnOk fn && below 16 sq && below 16 cid
  | .controllerEnable fn _ _ _ _ => fnOk fn
  | .controllerDisable fn => fnOk fn
  | .shutdownNotification fn _ => fnOk fn
  | .nvmSubsystemReset by_ => by_.all fnOk
  | .identify w _ nsid => w.ok && nsidOk nsid
  | .getLogPage w _ nsid _ _ _ _ _ => w.ok && nsidOk nsid
  | .setFeatures w _ nsid _ _ _ => w.ok && nsidOk nsid
  | .getFeatures w _ nsid select _ => w.ok && nsidOk nsid && selectOk select
  | .createIoQueue w _ qid _ _ _ _ _ _ _ => w.ok && below 16 qid
  | .deleteIoQueue w _ qid => w.ok && below 16 qid
  | .abort w sq cid => w.ok && below 16 sq && below 16 cid
  | .asynchronousEventRequest w => w.ok
  | .formatNvm w nsid _ _ => w.ok && nsidOk nsid
  | .sanitize w _ => w.ok
  | .firmwareImageDownload w _ _ => w.ok
  | .firmwareCommitWrite w slot _ _ => w.ok && below 32 slot
  | .firmwareCommitWritePending w slot _ _ => w.ok && below 32 slot
  | .firmwareCommitPending w slot => w.ok && below 32 slot
  | .namespaceCreate w _ => w.ok
  | .namespaceDelete w nsid => w.ok && nsidOk nsid
  | .namespaceResize w nsid _ _ => w.ok && nsidOk nsid
  | .namespaceAttachment w nsid _ _ => w.ok && nsidOk nsid
  | .reservationRegister w nsid _ _ _ _ _ => w.ok && nsidOk nsid
  | .reservationAcquire w nsid _ _ _ _ => w.ok && nsidOk nsid
  | .reservationRelease w nsid _ _ _ => w.ok && nsidOk nsid
  | .reservationReport w nsid => w.ok && nsidOk nsid
  | .kvStore w nsid _ _ _ _ => w.ok && nsidOk nsid
  | .kvRetrieve w nsid _ _ => w.ok && nsidOk nsid
  | .kvDelete w nsid _ => w.ok && nsidOk nsid
  | .kvExist w nsid _ => w.ok && nsidOk nsid
  | .kvList w nsid _ => w.ok && nsidOk nsid
  | .loadProgram w _ _ _ => w.ok
  | .programActivationManagement w _ _ => w.ok
  | .executeProgram w _ _ _ => w.ok
  | .memoryRangeSetManagement w _ _ _ => w.ok
  | .memoryRead w nsid _ _ => w.ok && nsidOk nsid
  | .memoryWrite w nsid _ _ => w.ok && nsidOk nsid
  | .memoryCopy w nsid _ _ => w.ok && nsidOk nsid
  | .ledgerRead w _ _ _ => w.ok
  | .getShare w fn _ => w.ok && fnOk fn
  | .setShare w fn _ _ => w.ok && fnOk fn
  | .assign w fn _ _ => w.ok && fnOk fn
  | .getStatus w fn _ => w.ok && fnOk fn
  | .getMigrationKey w fn _ => w.ok && fnOk fn
  | .migrationKeyExpiry fn => fnOk fn
  | .setMigrationTarget w fn _ => w.ok && fnOk fn
  | .migrateFreeze w fn => w.ok && fnOk fn
  | .thaw w fn => w.ok && fnOk fn
  | .migrateSave w fn _ => w.ok && fnOk fn
  | .migrateRestore w fn _ _ => w.ok && fnOk fn
  | .send fn _ _ => fnOk fn
  | .pop fn _ _ => fnOk fn
  | .functionLevelReset fn => fnOk fn
  | .flrAbortDeadline fn => fnOk fn
  | .flrComplete fn => fnOk fn
  | .readNvmeMiDataStructure transport _ => transportOk transport
  | .nvmSubsystemHealthStatusPoll transport => transportOk transport
  | .controllerHealthStatusPoll transport _ => transportOk transport
  | .configurationSet transport smbusFrequency mtu => transportOk transport && smbusFrequency.all (below 16) && mtu.all (below 16)
  | .configurationGet transport _ => transportOk transport
  | .vpdRead transport _ _ => transportOk transport
  | .vpdWrite transport _ _ => transportOk transport
  | .tunnelledAdminCommand transport _ _ => transportOk transport
  | .basicManagementCommand => true
  | .miResponseTimeout transport => transportOk transport
  | .smbusTimeout => true
  | .spdmRequest transport _ _ => transportOk transport
  | .ledgerGet transport _ _ => transportOk transport
  | .certMldsa transport => transportOk transport
  | .powerOn _ => true
  | .bootHoldXspiRelease => true
  | .trialConfirm => true
  | .trialReadyTimeout => true
  | .ledgerAppendDone _ => true
  | .mgmtHartWatchdogExpiry => true
  | .rootWatchdogExpiry => true
  | .escalationBoundExpiry _ _ _ => true
  | .resetDone _ _ => true
  | .pfailNFall => true
  | .pfailHoldExpiry => true
  | .railDroop _ => true
  | .resetNFall => true
  | .resetNRiseReboot _ => true
  | .tempHistoryTick => true
  | .lifetimeWriteTimer => true
  | .flushLifetime r _ => r.ok
  | .lifetimeWriteDone => true
  | .configAreaWriteDone => true
  | .clrCounters r offset _ => r.ok && windowOk offset
  | .lock r offset _ => r.ok && windowOk offset
  | .bridgeErrClear r _ => r.ok
  | .dmaErrClear r _ => r.ok
  | .rleErrClear r _ => r.ok
  | .eccUeClear r _ => r.ok
  | .lnxErrClear r _ => r.ok
  | .topIrqCfgWrite r _ _ => r.ok
  | .bldEscLastRead r width => r.ok && widthOk width
  | .loRegisterRead r offset width => r.ok && windowOk offset && widthOk width
  | .registerWrite r offset width _ => r.ok && windowOk offset && widthOk width
  | .flowControlCreditReturn _ _ => true
  | .railsFall _ => true
  | .deallocationComplete nsid _ => nsidOk nsid
  | .sanitizeComplete nsid => nsidOk nsid
  | .keepAlive w => w.ok
  | .keepAliveTimerExpiry fn => fnOk fn
  | .msiXUnmask _ fn _ => fnOk fn

/-- The submitter of an NVMe command, and of an event of one. -/
def Instr.who : Instr → Option Who
  | .bridgeTimeout _ _ _ => none
  | .setFeaturesMode w _ _ => some w
  | .getFeaturesMode w _ => some w
  | .modeTransitionDone => none
  | .thermalSample _ => none
  | .sprintTick _ => none
  | .sprintLimit => none
  | .ilimNAssert => none
  | .hibernateEntryDone => none
  | .wakeEvent _ => none
  | .wakeReady => none
  | .trailSubmit w _ _ _ _ => some w
  | .trailAdmissionResume w => some w
  | .trailQuery w _ _ => some w
  | .trailQueryWaitExpiry w => some w
  | .trailCancel w _ => some w
  | .chunkIssue _ _ => none
  | .trailEnd _ _ => none
  | .creditGrant _ _ _ => none
  | .sinkGrant _ _ => none
  | .taskFire _ _ _ _ => none
  | .unitTaskStart _ _ => none
  | .taskComplete _ _ _ _ _ => none
  | .engineWatchdogExpiry _ _ => none
  | .orphanCheck => none
  | .squirrelFill _ => none
  | .hartTaskStart _ => none
  | .exit _ _ => none
  | .kernelWritebackDone _ _ => none
  | .fail _ _ => none
  | .budgetLeft _ _ => none
  | .lynxSearch _ _ => none
  | .lynxSearchReturn _ _ => none
  | .kernelTrailSubmit _ _ _ => none
  | .kernelFault _ _ _ => none
  | .budgetExpiry _ _ => none
  | .hartStopTimeout _ => none
  | .hartResetTimeout _ => none
  | .moduleLoad w _ _ _ => some w
  | .enroll w _ _ => some w
  | .moduleMeasureDone => none
  | .moduleSignatureDone => none
  | .moduleUnload w _ _ => some w
  | .moduleRemove _ => none
  | .clusterEnWrite _ _ => none
  | .channelTrainDone _ _ => none
  | .targetTempPoll _ _ => none
  | .channelRetrainDone _ _ => none
  | .suspendDone _ => none
  | .suspendBudgetExpiry _ => none
  | .writeAgeExpiry _ _ => none
  | .senseDone _ => none
  | .codewordDecodeDone _ _ _ => none
  | .ladderDeadlineExpiry _ _ => none
  | .firstSenseDeadlineExpiry _ => none
  | .programDone _ _ => none
  | .eraseDone _ _ => none
  | .lunReadyTimeout _ => none
  | .ucalCommit _ _ _ => none
  | .ucalCommitDone _ _ => none
  | .systemAreaMoveDone _ => none
  | .nvmWrite w _ _ _ => some w
  | .writeZeroes w _ _ _ => some w
  | .nvmRead w _ _ _ => some w
  | .datasetManagement w _ _ _ => some w
  | .flush w _ => some w
  | .compare w _ _ _ _ => some w
  | .verify w _ _ _ => some w
  | .writeAdmit => none
  | .writeDataDone w _ => some w
  | .slotFlushStart _ => none
  | .stripeCloseTimeout _ _ => none
  | .badgerVictimSelect => none
  | .epochBoundary => none
  | .journalPageTimeout => none
  | .mapSegmentTimeout _ => none
  | .mapSegmentRebuildDone _ => none
  | .rebuildBandStart => none
  | .dumpComplete => none
  | .reshapeStart _ _ => none
  | .reshapeAbort _ _ => none
  | .reshapeRegionBegin => none
  | .getImportKey w => some w
  | .importKeyExpiry _ => none
  | .importKey w _ => some w
  | .generate w _ _ => some w
  | .clear w _ _ => some w
  | .restore w => some w
  | .slotStatus w => some w
  | .opalSecuritySend w _ _ => some w
  | .opalSecurityReceive w _ => some w
  | .genkey _ _ => none
  | .nonceLogWriteDone _ => none
  | .alarm _ => none
  | .claim _ => none
  | .release _ => none
  | .portOwnerTimeout => none
  | .portStart _ _ => none
  | .portData _ _ => none
  | .portBlockAbsorbed => none
  | .portFinish _ _ _ => none
  | .hmacLoad _ _ => none
  | .hmacLoadDone => none
  | .hmacClear _ _ => none
  | .hmacReloadDone _ => none
  | .define _ _ => none
  | .undefine _ _ => none
  | .lnxTblSelWrite _ _ => none
  | .lnxEntRead _ _ => none
  | .lnxEntWrite _ _ => none
  | .lnxEntDelete _ _ => none
  | .lynxCompareStep _ _ _ => none
  | .lynxLapComplete _ => none
  | .lapTargetExceeded => none
  | .lynxReloadDone => none
  | .arm _ _ _ => none
  | .dmaPause _ _ _ => none
  | .dmaResume _ _ _ => none
  | .dmaPauseDrained _ _ _ => none
  | .dmaOwnerWrite _ _ _ => none
  | .dmaDescPtrWrite _ _ _ => none
  | .dmaDescriptorDone _ _ => none
  | .dmaPaceResume _ => none
  | .dmaBusError _ _ _ _ _ => none
  | .descFetchError _ _ _ => none
  | .dramTrainAttemptDone _ _ => none
  | .dqsRecentre _ _ => none
  | .zqCalibration _ _ => none
  | .mr4Poll _ _ _ => none
  | .refresh _ _ => none
  | .memRequest _ _ _ => none
  | .memReadDone _ _ _ _ _ _ => none
  | .owlRead _ _ _ _ _ => none
  | .pageRetireDone _ => none
  | .owlLapOverdue => none
  | .eccInjectArm _ _ => none
  | .portReset _ => none
  | .perstAssert _ => none
  | .perstDeassert _ => none
  | .linkTrained _ _ _ _ => none
  | .pcieCompletionTimeout _ => none
  | .doorbellWrite _ _ _ _ => none
  | .commandFetch _ _ _ => none
  | .controllerEnable _ _ _ _ _ => none
  | .controllerDisable _ => none
  | .shutdownNotification _ _ => none
  | .nvmSubsystemReset _ => none
  | .identify w _ _ => some w
  | .getLogPage w _ _ _ _ _ _ _ => some w
  | .setFeatures w _ _ _ _ _ => some w
  | .getFeatures w _ _ _ _ => some w
  | .createIoQueue w _ _ _ _ _ _ _ _ _ => some w
  | .deleteIoQueue w _ _ => some w
  | .abort w _ _ => some w
  | .asynchronousEventRequest w => some w
  | .formatNvm w _ _ _ => some w
  | .sanitize w _ => some w
  | .firmwareImageDownload w _ _ => some w
  | .firmwareCommitWrite w _ _ _ => some w
  | .firmwareCommitWritePending w _ _ _ => some w
  | .firmwareCommitPending w _ => some w
  | .namespaceCreate w _ => some w
  | .namespaceDelete w _ => some w
  | .namespaceResize w _ _ _ => some w
  | .namespaceAttachment w _ _ _ => some w
  | .reservationRegister w _ _ _ _ _ _ => some w
  | .reservationAcquire w _ _ _ _ _ => some w
  | .reservationRelease w _ _ _ _ => some w
  | .reservationReport w _ => some w
  | .kvStore w _ _ _ _ _ => some w
  | .kvRetrieve w _ _ _ => some w
  | .kvDelete w _ _ => some w
  | .kvExist w _ _ => some w
  | .kvList w _ _ => some w
  | .loadProgram w _ _ _ => some w
  | .programActivationManagement w _ _ => some w
  | .executeProgram w _ _ _ => some w
  | .memoryRangeSetManagement w _ _ _ => some w
  | .memoryRead w _ _ _ => some w
  | .memoryWrite w _ _ _ => some w
  | .memoryCopy w _ _ _ => some w
  | .ledgerRead w _ _ _ => some w
  | .getShare w _ _ => some w
  | .setShare w _ _ _ => some w
  | .assign w _ _ _ => some w
  | .getStatus w _ _ => some w
  | .getMigrationKey w _ _ => some w
  | .migrationKeyExpiry _ => none
  | .setMigrationTarget w _ _ => some w
  | .migrateFreeze w _ => some w
  | .thaw w _ => some w
  | .migrateSave w _ _ => some w
  | .migrateRestore w _ _ _ => some w
  | .send _ _ _ => none
  | .pop _ _ _ => none
  | .functionLevelReset _ => none
  | .flrAbortDeadline _ => none
  | .flrComplete _ => none
  | .readNvmeMiDataStructure _ _ => none
  | .nvmSubsystemHealthStatusPoll _ => none
  | .controllerHealthStatusPoll _ _ => none
  | .configurationSet _ _ _ => none
  | .configurationGet _ _ => none
  | .vpdRead _ _ _ => none
  | .vpdWrite _ _ _ => none
  | .tunnelledAdminCommand _ _ _ => none
  | .basicManagementCommand => none
  | .miResponseTimeout _ => none
  | .smbusTimeout => none
  | .spdmRequest _ _ _ => none
  | .ledgerGet _ _ _ => none
  | .certMldsa _ => none
  | .powerOn _ => none
  | .bootHoldXspiRelease => none
  | .trialConfirm => none
  | .trialReadyTimeout => none
  | .ledgerAppendDone _ => none
  | .mgmtHartWatchdogExpiry => none
  | .rootWatchdogExpiry => none
  | .escalationBoundExpiry _ _ _ => none
  | .resetDone _ _ => none
  | .pfailNFall => none
  | .pfailHoldExpiry => none
  | .railDroop _ => none
  | .resetNFall => none
  | .resetNRiseReboot _ => none
  | .tempHistoryTick => none
  | .lifetimeWriteTimer => none
  | .flushLifetime _ _ => none
  | .lifetimeWriteDone => none
  | .configAreaWriteDone => none
  | .clrCounters _ _ _ => none
  | .lock _ _ _ => none
  | .bridgeErrClear _ _ => none
  | .dmaErrClear _ _ => none
  | .rleErrClear _ _ => none
  | .eccUeClear _ _ => none
  | .lnxErrClear _ _ => none
  | .topIrqCfgWrite _ _ _ => none
  | .bldEscLastRead _ _ => none
  | .loRegisterRead _ _ _ => none
  | .registerWrite _ _ _ _ => none
  | .flowControlCreditReturn _ _ => none
  | .railsFall _ => none
  | .deallocationComplete _ _ => none
  | .sanitizeComplete _ => none
  | .keepAlive w => some w
  | .keepAliveTimerExpiry _ => none
  | .msiXUnmask _ _ _ => none

end Sys2Proof
end

