-- ==== Sys2Proof/Laws/PerInstr.lean ====
section
/-! SUPPORT. Per-command laws: family Rows says that the submitter of a well-formed command is one that queue entries can
name. -/

namespace Sys2Proof.Laws.Rows

/-- A well-formed command's submitter is well-formed. -/
def Statement (i : Instr) : Prop := i.wellFormed = true → ∀ w, i.who = some w → w.ok = true

theorem of_none {i : Instr} (h : i.who = none) : Statement i := fun _ w hw => by rw [h] at hw; cases hw

theorem of_some {i : Instr} {w : Who} (h : i.who = some w) (k : i.wellFormed = true → w.ok = true) : Statement i :=
  fun hf v hv => by rw [h] at hv; cases hv; exact k hf

theorem and1 {a b : Bool} (h : (a && b) = true) : a = true := (Bool.and_eq_true a b ▸ h).1

theorem bridgeTimeout (target source : Island) (req : BridgeReq) : Statement (.bridgeTimeout target source req) :=
  of_none rfl
theorem setFeaturesMode (w : Who) (save : Bool) (cdw11 : W32) : Statement (.setFeaturesMode w save cdw11) :=
  of_some rfl fun h => h
theorem getFeaturesMode (w : Who) (select : Nat) : Statement (.getFeaturesMode w select) :=
  of_some rfl fun h => and1 h
theorem modeTransitionDone : Statement .modeTransitionDone :=
  of_none rfl
theorem thermalSample (raw : List Int) : Statement (.thermalSample raw) :=
  of_none rfl
theorem sprintTick (ilimN : Bool) : Statement (.sprintTick ilimN) :=
  of_none rfl
theorem sprintLimit : Statement .sprintLimit :=
  of_none rfl
theorem ilimNAssert : Statement .ilimNAssert :=
  of_none rfl
theorem hibernateEntryDone : Statement .hibernateEntryDone :=
  of_none rfl
theorem wakeEvent (cause : WakeCause) : Statement (.wakeEvent cause) :=
  of_none rfl
theorem wakeReady : Statement .wakeReady :=
  of_none rfl
theorem trailSubmit (w : Who) (descLen : Nat) (slm : Option (Nat × Nat)) (addr : Nat) (hv : HostView) : Statement (.trailSubmit w descLen slm addr hv) :=
  of_some rfl fun h => h
theorem trailAdmissionResume (w : Who) : Statement (.trailAdmissionResume w) :=
  of_some rfl fun h => h
theorem trailQuery (w : Who) (trailId : W32) (wait : Bool) : Statement (.trailQuery w trailId wait) :=
  of_some rfl fun h => h
theorem trailQueryWaitExpiry (w : Who) : Statement (.trailQueryWaitExpiry w) :=
  of_some rfl fun h => h
theorem trailCancel (w : Who) (trailId : W32) : Statement (.trailCancel w trailId) :=
  of_some rfl fun h => h
theorem chunkIssue (flow : Nat) (hv : HostView) : Statement (.chunkIssue flow hv) :=
  of_none rfl
theorem trailEnd (flow : Nat) (seen : List Comparators) : Statement (.trailEnd flow seen) :=
  of_none rfl
theorem creditGrant (flow stage cslot : Nat) : Statement (.creditGrant flow stage cslot) :=
  of_none rfl
theorem sinkGrant (flow cslot : Nat) : Statement (.sinkGrant flow cslot) :=
  of_none rfl
theorem taskFire (flow stage cslot : Nat) (seen : EntrySeen) : Statement (.taskFire flow stage cslot seen) :=
  of_none rfl
theorem unitTaskStart (cls : UnitClass) (unit : Nat) : Statement (.unitTaskStart cls unit) :=
  of_none rfl
theorem taskComplete (flow stage cslot : Nat) (hv : HostView) (seen : UnitSeen) : Statement (.taskComplete flow stage cslot hv seen) :=
  of_none rfl
theorem engineWatchdogExpiry (cls : UnitClass) (unit : Nat) : Statement (.engineWatchdogExpiry cls unit) :=
  of_none rfl
theorem orphanCheck : Statement .orphanCheck :=
  of_none rfl
theorem squirrelFill (hart : Nat) : Statement (.squirrelFill hart) :=
  of_none rfl
theorem hartTaskStart (hart : Nat) : Statement (.hartTaskStart hart) :=
  of_none rfl
theorem exit (hart : Nat) (run : KernelRun) : Statement (.exit hart run) :=
  of_none rfl
theorem kernelWritebackDone (hart : Nat) (lost : Option Nat) : Statement (.kernelWritebackDone hart lost) :=
  of_none rfl
theorem fail (hart : Nat) (run : KernelRun) : Statement (.fail hart run) :=
  of_none rfl
theorem budgetLeft (hart : Nat) (run : KernelRun) : Statement (.budgetLeft hart run) :=
  of_none rfl
theorem lynxSearch (hart : Nat) (run : KernelRun) : Statement (.lynxSearch hart run) :=
  of_none rfl
theorem lynxSearchReturn (hart : Nat) (seen : UnitSeen) : Statement (.lynxSearchReturn hart seen) :=
  of_none rfl
theorem kernelTrailSubmit (hart : Nat) (run : KernelRun) (hv : HostView) : Statement (.kernelTrailSubmit hart run hv) :=
  of_none rfl
theorem kernelFault (hart : Nat) (run : KernelRun) (trap : KernelTrap) : Statement (.kernelFault hart run trap) :=
  of_none rfl
theorem budgetExpiry (hart : Nat) (run : KernelRun) : Statement (.budgetExpiry hart run) :=
  of_none rfl
theorem hartStopTimeout (hart : Nat) : Statement (.hartStopTimeout hart) :=
  of_none rfl
theorem hartResetTimeout (hart : Nat) : Statement (.hartResetTimeout hart) :=
  of_none rfl
theorem moduleLoad (w : Who) (cdw10 cdw11 : W32) (received : List Byte) : Statement (.moduleLoad w cdw10 cdw11 received) :=
  of_some rfl fun h => h
theorem enroll (w : Who) (cdw10 : W32) (data : List Byte) : Statement (.enroll w cdw10 data) :=
  of_some rfl fun h => h
theorem moduleMeasureDone : Statement .moduleMeasureDone :=
  of_none rfl
theorem moduleSignatureDone : Statement .moduleSignatureDone :=
  of_none rfl
theorem moduleUnload (w : Who) (module : Nat) (force : Bool) : Statement (.moduleUnload w module force) :=
  of_some rfl fun h => and1 h
theorem moduleRemove (module : Nat) : Statement (.moduleRemove module) :=
  of_none rfl
theorem clusterEnWrite (r : Requester) (value : W32) : Statement (.clusterEnWrite r value) :=
  of_none rfl
theorem channelTrainDone (channel : Nat) (pass : Bool) : Statement (.channelTrainDone channel pass) :=
  of_none rfl
theorem targetTempPoll (channel : Nat) (temps : List Int) : Statement (.targetTempPoll channel temps) :=
  of_none rfl
theorem channelRetrainDone (channel : Nat) (pass : Bool) : Statement (.channelRetrainDone channel pass) :=
  of_none rfl
theorem suspendDone (lun : Nat) : Statement (.suspendDone lun) :=
  of_none rfl
theorem suspendBudgetExpiry (lun : Nat) : Statement (.suspendBudgetExpiry lun) :=
  of_none rfl
theorem writeAgeExpiry (lun : Nat) (internalRead : Bool) : Statement (.writeAgeExpiry lun internalRead) :=
  of_none rfl
theorem senseDone (lun : Nat) : Statement (.senseDone lun) :=
  of_none rfl
theorem codewordDecodeDone (lun cw : Nat) (res : DecodeResult) : Statement (.codewordDecodeDone lun cw res) :=
  of_none rfl
theorem ladderDeadlineExpiry (lun cw : Nat) : Statement (.ladderDeadlineExpiry lun cw) :=
  of_none rfl
theorem firstSenseDeadlineExpiry (lun : Nat) : Statement (.firstSenseDeadlineExpiry lun) :=
  of_none rfl
theorem programDone (lun : Nat) (ok : Bool) : Statement (.programDone lun ok) :=
  of_none rfl
theorem eraseDone (lun : Nat) (ok : Bool) : Statement (.eraseDone lun ok) :=
  of_none rfl
theorem lunReadyTimeout (lun : Nat) : Statement (.lunReadyTimeout lun) :=
  of_none rfl
theorem ucalCommit (r : Requester) (island : Nat) (value : W32) : Statement (.ucalCommit r island value) :=
  of_none rfl
theorem ucalCommitDone (island : Nat) (ok : Bool) : Statement (.ucalCommitDone island ok) :=
  of_none rfl
theorem systemAreaMoveDone (copy : Nat) : Statement (.systemAreaMoveDone copy) :=
  of_none rfl
theorem nvmWrite (w : Who) (nsid slba nlb : Nat) : Statement (.nvmWrite w nsid slba nlb) :=
  of_some rfl fun h => and1 (and1 (and1 h))
theorem writeZeroes (w : Who) (nsid slba nlb : Nat) : Statement (.writeZeroes w nsid slba nlb) :=
  of_some rfl fun h => and1 (and1 (and1 h))
theorem nvmRead (w : Who) (nsid slba nlb : Nat) : Statement (.nvmRead w nsid slba nlb) :=
  of_some rfl fun h => and1 (and1 (and1 h))
theorem datasetManagement (w : Who) (nsid : Nat) (deallocate : Bool) (ranges : List LbaRange) : Statement (.datasetManagement w nsid deallocate ranges) :=
  of_some rfl fun h => and1 h
theorem flush (w : Who) (nsid : Nat) : Statement (.flush w nsid) :=
  of_some rfl fun h => and1 h
theorem compare (w : Who) (nsid slba nlb : Nat) (data : Option (List Byte)) : Statement (.compare w nsid slba nlb data) :=
  of_some rfl fun h => and1 (and1 (and1 h))
theorem verify (w : Who) (nsid slba nlb : Nat) : Statement (.verify w nsid slba nlb) :=
  of_some rfl fun h => and1 (and1 (and1 h))
theorem writeAdmit : Statement .writeAdmit :=
  of_none rfl
theorem writeDataDone (w : Who) (data : Option (List Byte)) : Statement (.writeDataDone w data) :=
  of_some rfl fun h => h
theorem slotFlushStart (slot : Nat) : Statement (.slotFlushStart slot) :=
  of_none rfl
theorem stripeCloseTimeout (band stripe : Nat) : Statement (.stripeCloseTimeout band stripe) :=
  of_none rfl
theorem badgerVictimSelect : Statement .badgerVictimSelect :=
  of_none rfl
theorem epochBoundary : Statement .epochBoundary :=
  of_none rfl
theorem journalPageTimeout : Statement .journalPageTimeout :=
  of_none rfl
theorem mapSegmentTimeout (segment : Nat) : Statement (.mapSegmentTimeout segment) :=
  of_none rfl
theorem mapSegmentRebuildDone (segment : Nat) : Statement (.mapSegmentRebuildDone segment) :=
  of_none rfl
theorem rebuildBandStart : Statement .rebuildBandStart :=
  of_none rfl
theorem dumpComplete : Statement .dumpComplete :=
  of_none rfl
theorem reshapeStart (r : Requester) (value : W32) : Statement (.reshapeStart r value) :=
  of_none rfl
theorem reshapeAbort (r : Requester) (value : W32) : Statement (.reshapeAbort r value) :=
  of_none rfl
theorem reshapeRegionBegin : Statement .reshapeRegionBegin :=
  of_none rfl
theorem getImportKey (w : Who) : Statement (.getImportKey w) :=
  of_some rfl fun h => h
theorem importKeyExpiry (importId : Nat) : Statement (.importKeyExpiry importId) :=
  of_none rfl
theorem importKey (w : Who) (data : List Byte) : Statement (.importKey w data) :=
  of_some rfl fun h => h
theorem generate (w : Who) (slot use : Nat) : Statement (.generate w slot use) :=
  of_some rfl fun h => and1 h
theorem clear (w : Who) (slot use : Nat) : Statement (.clear w slot use) :=
  of_some rfl fun h => and1 h
theorem restore (w : Who) : Statement (.restore w) :=
  of_some rfl fun h => h
theorem slotStatus (w : Who) : Statement (.slotStatus w) :=
  of_some rfl fun h => h
theorem opalSecuritySend (w : Who) (protocol : Nat) (method : OpalMethod) : Statement (.opalSecuritySend w protocol method) :=
  of_some rfl fun h => h
theorem opalSecurityReceive (w : Who) (protocol : Nat) : Statement (.opalSecurityReceive w protocol) :=
  of_some rfl fun h => h
theorem genkey (nsid range : Nat) : Statement (.genkey nsid range) :=
  of_none rfl
theorem nonceLogWriteDone (slot : Nat) : Statement (.nonceLogWriteDone slot) :=
  of_none rfl
theorem alarm (cause : AlarmCause) : Statement (.alarm cause) :=
  of_none rfl
theorem claim (r : PortReq) : Statement (.claim r) :=
  of_none rfl
theorem release (r : PortReq) : Statement (.release r) :=
  of_none rfl
theorem portOwnerTimeout : Statement .portOwnerTimeout :=
  of_none rfl
theorem portStart (r : PortReq) (value : W32) : Statement (.portStart r value) :=
  of_none rfl
theorem portData (r : PortReq) (word : W32) : Statement (.portData r word) :=
  of_none rfl
theorem portBlockAbsorbed : Statement .portBlockAbsorbed :=
  of_none rfl
theorem portFinish (r : PortReq) (value : W32) (seen : Comparators) : Statement (.portFinish r value seen) :=
  of_none rfl
theorem hmacLoad (r : Requester) (value : W32) : Statement (.hmacLoad r value) :=
  of_none rfl
theorem hmacLoadDone : Statement .hmacLoadDone :=
  of_none rfl
theorem hmacClear (r : Requester) (value : W32) : Statement (.hmacClear r value) :=
  of_none rfl
theorem hmacReloadDone (slot : Nat) : Statement (.hmacReloadDone slot) :=
  of_none rfl
theorem define (r : Requester) (value : W32) : Statement (.define r value) :=
  of_none rfl
theorem undefine (r : Requester) (value : W32) : Statement (.undefine r value) :=
  of_none rfl
theorem lnxTblSelWrite (r : Requester) (value : W32) : Statement (.lnxTblSelWrite r value) :=
  of_none rfl
theorem lnxEntRead (r : Requester) (value : W32) : Statement (.lnxEntRead r value) :=
  of_none rfl
theorem lnxEntWrite (r : Requester) (value : W32) : Statement (.lnxEntWrite r value) :=
  of_none rfl
theorem lnxEntDelete (r : Requester) (value : W32) : Statement (.lnxEntDelete r value) :=
  of_none rfl
theorem lynxCompareStep (table index : Nat) (seen : CompareSeen) : Statement (.lynxCompareStep table index seen) :=
  of_none rfl
theorem lynxLapComplete (durationUs : Nat) : Statement (.lynxLapComplete durationUs) :=
  of_none rfl
theorem lapTargetExceeded : Statement .lapTargetExceeded :=
  of_none rfl
theorem lynxReloadDone : Statement .lynxReloadDone :=
  of_none rfl
theorem arm (r : Requester) (channel : Nat) (value : W32) : Statement (.arm r channel value) :=
  of_none rfl
theorem dmaPause (r : Requester) (channel : Nat) (value : W32) : Statement (.dmaPause r channel value) :=
  of_none rfl
theorem dmaResume (r : Requester) (channel : Nat) (value : W32) : Statement (.dmaResume r channel value) :=
  of_none rfl
theorem dmaPauseDrained (channel moved : Nat) (hv : HostView) : Statement (.dmaPauseDrained channel moved hv) :=
  of_none rfl
theorem dmaOwnerWrite (r : Requester) (channel : Nat) (value : W32) : Statement (.dmaOwnerWrite r channel value) :=
  of_none rfl
theorem dmaDescPtrWrite (r : Requester) (channel : Nat) (value : W32) : Statement (.dmaDescPtrWrite r channel value) :=
  of_none rfl
theorem dmaDescriptorDone (channel : Nat) (hv : HostView) : Statement (.dmaDescriptorDone channel hv) :=
  of_none rfl
theorem dmaPaceResume (channel : Nat) : Statement (.dmaPaceResume channel) :=
  of_none rfl
theorem dmaBusError (channel code : Nat) (addr : W64) (moved : Nat) (hv : HostView) : Statement (.dmaBusError channel code addr moved hv) :=
  of_none rfl
theorem descFetchError (failing : Option Nat) (lastGrant : Nat) (addr : W64) : Statement (.descFetchError failing lastGrant addr) :=
  of_none rfl
theorem dramTrainAttemptDone (channel : Nat) (pass : Bool) : Statement (.dramTrainAttemptDone channel pass) :=
  of_none rfl
theorem dqsRecentre (channel sc : Nat) : Statement (.dqsRecentre channel sc) :=
  of_none rfl
theorem zqCalibration (channel sc : Nat) : Statement (.zqCalibration channel sc) :=
  of_none rfl
theorem mr4Poll (channel : Nat) (rate : Nat) (overRange : Bool) : Statement (.mr4Poll channel rate overRange) :=
  of_none rfl
theorem refresh (channel sc : Nat) : Statement (.refresh channel sc) :=
  of_none rfl
theorem memRequest (port : Nat) (line : Nat) (write : Option MemWrite) : Statement (.memRequest port line write) :=
  of_none rfl
theorem memReadDone (port line word : Nat) (seen : Syndrome) (held : Held) (latencyNs : Nat) : Statement (.memReadDone port line word seen held latencyNs) :=
  of_none rfl
theorem owlRead (group addr : Nat) (seen : Syndrome) (held : Held) (last : Bool) : Statement (.owlRead group addr seen held last) :=
  of_none rfl
theorem pageRetireDone (page : Nat) : Statement (.pageRetireDone page) :=
  of_none rfl
theorem owlLapOverdue : Statement .owlLapOverdue :=
  of_none rfl
theorem eccInjectArm (r : Requester) (value : W32) : Statement (.eccInjectArm r value) :=
  of_none rfl
theorem portReset (port : Port) : Statement (.portReset port) :=
  of_none rfl
theorem perstAssert (port : Port) : Statement (.perstAssert port) :=
  of_none rfl
theorem perstDeassert (port : Port) : Statement (.perstDeassert port) :=
  of_none rfl
theorem linkTrained (port : Port) (rate width credits : Nat) : Statement (.linkTrained port rate width credits) :=
  of_none rfl
theorem pcieCompletionTimeout (req : BridgeReq) : Statement (.pcieCompletionTimeout req) :=
  of_none rfl
theorem doorbellWrite (fn : Fn) (qid : Nat) (isCq : Bool) (value : Nat) : Statement (.doorbellWrite fn qid isCq value) :=
  of_none rfl
theorem commandFetch (fn : Fn) (sq cid : Nat) : Statement (.commandFetch fn sq cid) :=
  of_none rfl
theorem controllerEnable (fn : Fn) (cc aqa : W32) (asq acq : W64) : Statement (.controllerEnable fn cc aqa asq acq) :=
  of_none rfl
theorem controllerDisable (fn : Fn) : Statement (.controllerDisable fn) :=
  of_none rfl
theorem shutdownNotification (fn : Fn) (abrupt : Bool) : Statement (.shutdownNotification fn abrupt) :=
  of_none rfl
theorem nvmSubsystemReset (by_ : Option Fn) : Statement (.nvmSubsystemReset by_) :=
  of_none rfl
theorem identify (w : Who) (cns nsid : Nat) : Statement (.identify w cns nsid) :=
  of_some rfl fun h => and1 h
theorem getLogPage (w : Who) (lid nsid offset bytes : Nat) (rae : Bool) (lsp uuid : Nat) : Statement (.getLogPage w lid nsid offset bytes rae lsp uuid) :=
  of_some rfl fun h => and1 h
theorem setFeatures (w : Who) (fid nsid : Nat) (save : Bool) (cdw11 : W32) (data : List Byte) : Statement (.setFeatures w fid nsid save cdw11 data) :=
  of_some rfl fun h => and1 h
theorem getFeatures (w : Who) (fid nsid select : Nat) (cdw11 : W32) : Statement (.getFeatures w fid nsid select cdw11) :=
  of_some rfl fun h => and1 (and1 h)
theorem createIoQueue (w : Who) (isCq : Bool) (qid size base cqid vector prio : Nat) (contiguous ien : Bool) : Statement (.createIoQueue w isCq qid size base cqid vector prio contiguous ien) :=
  of_some rfl fun h => and1 h
theorem deleteIoQueue (w : Who) (isCq : Bool) (qid : Nat) : Statement (.deleteIoQueue w isCq qid) :=
  of_some rfl fun h => and1 h
theorem abort (w : Who) (sq cid : Nat) : Statement (.abort w sq cid) :=
  of_some rfl fun h => and1 (and1 h)
theorem asynchronousEventRequest (w : Who) : Statement (.asynchronousEventRequest w) :=
  of_some rfl fun h => h
theorem formatNvm (w : Who) (nsid ses lbaSize : Nat) : Statement (.formatNvm w nsid ses lbaSize) :=
  of_some rfl fun h => and1 h
theorem sanitize (w : Who) (crypto : Bool) : Statement (.sanitize w crypto) :=
  of_some rfl fun h => h
theorem firmwareImageDownload (w : Who) (offset : Nat) (data : List Byte) : Statement (.firmwareImageDownload w offset data) :=
  of_some rfl fun h => h
theorem firmwareCommitWrite (w : Who) (slot : Nat) (mldsaOk ecdsaOk : Bool) : Statement (.firmwareCommitWrite w slot mldsaOk ecdsaOk) :=
  of_some rfl fun h => and1 h
theorem firmwareCommitWritePending (w : Who) (slot : Nat) (mldsaOk ecdsaOk : Bool) : Statement (.firmwareCommitWritePending w slot mldsaOk ecdsaOk) :=
  of_some rfl fun h => and1 h
theorem firmwareCommitPending (w : Who) (slot : Nat) : Statement (.firmwareCommitPending w slot) :=
  of_some rfl fun h => and1 h
theorem namespaceCreate (w : Who) (spec : NsSpec) : Statement (.namespaceCreate w spec) :=
  of_some rfl fun h => h
theorem namespaceDelete (w : Who) (nsid : Nat) : Statement (.namespaceDelete w nsid) :=
  of_some rfl fun h => and1 h
theorem namespaceResize (w : Who) (nsid nsze ncap : Nat) : Statement (.namespaceResize w nsid nsze ncap) :=
  of_some rfl fun h => and1 h
theorem namespaceAttachment (w : Who) (nsid : Nat) (attach : Bool) (controllers : List Nat) : Statement (.namespaceAttachment w nsid attach controllers) :=
  of_some rfl fun h => and1 h
theorem reservationRegister (w : Who) (nsid : Nat) (action : RegisterAction) (crkey nrkey : W64) (iekey : Bool) (cptpl : Nat) : Statement (.reservationRegister w nsid action crkey nrkey iekey cptpl) :=
  of_some rfl fun h => and1 h
theorem reservationAcquire (w : Who) (nsid : Nat) (action : AcquireAction) (type : ResType) (crkey prkey : W64) : Statement (.reservationAcquire w nsid action type crkey prkey) :=
  of_some rfl fun h => and1 h
theorem reservationRelease (w : Who) (nsid : Nat) (clear : Bool) (type : ResType) (crkey : W64) : Statement (.reservationRelease w nsid clear type crkey) :=
  of_some rfl fun h => and1 h
theorem reservationReport (w : Who) (nsid : Nat) : Statement (.reservationReport w nsid) :=
  of_some rfl fun h => and1 h
theorem kvStore (w : Who) (nsid : Nat) (key value : List Byte) (mustExist mustNotExist : Bool) : Statement (.kvStore w nsid key value mustExist mustNotExist) :=
  of_some rfl fun h => and1 h
theorem kvRetrieve (w : Who) (nsid : Nat) (key : List Byte) (bufferBytes : Nat) : Statement (.kvRetrieve w nsid key bufferBytes) :=
  of_some rfl fun h => and1 h
theorem kvDelete (w : Who) (nsid : Nat) (key : List Byte) : Statement (.kvDelete w nsid key) :=
  of_some rfl fun h => and1 h
theorem kvExist (w : Who) (nsid : Nat) (key : List Byte) : Statement (.kvExist w nsid key) :=
  of_some rfl fun h => and1 h
theorem kvList (w : Who) (nsid : Nat) (key : List Byte) : Statement (.kvList w nsid key) :=
  of_some rfl fun h => and1 h
theorem loadProgram (w : Who) (cdw10 cdw11 : W32) (received : List Byte) : Statement (.loadProgram w cdw10 cdw11 received) :=
  of_some rfl fun h => h
theorem programActivationManagement (w : Who) (programId : Nat) (activate : Bool) : Statement (.programActivationManagement w programId activate) :=
  of_some rfl fun h => h
theorem executeProgram (w : Who) (programId rangeSet : Nat) (args : List Byte) : Statement (.executeProgram w programId rangeSet args) :=
  of_some rfl fun h => h
theorem memoryRangeSetManagement (w : Who) (create : Bool) (setId : Nat) (ranges : List MemRange) : Statement (.memoryRangeSetManagement w create setId ranges) :=
  of_some rfl fun h => h
theorem memoryRead (w : Who) (nsid offset length : Nat) : Statement (.memoryRead w nsid offset length) :=
  of_some rfl fun h => and1 h
theorem memoryWrite (w : Who) (nsid offset : Nat) (data : Option (List Byte)) : Statement (.memoryWrite w nsid offset data) :=
  of_some rfl fun h => and1 h
theorem memoryCopy (w : Who) (nsid offset : Nat) (sources : List (Nat × LbaRange)) : Statement (.memoryCopy w nsid offset sources) :=
  of_some rfl fun h => and1 h
theorem ledgerRead (w : Who) (seq count bufferBytes : Nat) : Statement (.ledgerRead w seq count bufferBytes) :=
  of_some rfl fun h => h
theorem getShare (w : Who) (fn : Fn) (bytes : Nat) : Statement (.getShare w fn bytes) :=
  of_some rfl fun h => and1 h
theorem setShare (w : Who) (fn : Fn) (bytes : Nat) (share : Share) : Statement (.setShare w fn bytes share) :=
  of_some rfl fun h => and1 h
theorem assign (w : Who) (fn : Fn) (bytes : Nat) (entries : List AssignEntry) : Statement (.assign w fn bytes entries) :=
  of_some rfl fun h => and1 h
theorem getStatus (w : Who) (fn : Fn) (bytes : Nat) : Statement (.getStatus w fn bytes) :=
  of_some rfl fun h => and1 h
theorem getMigrationKey (w : Who) (fn : Fn) (bytes : Nat) : Statement (.getMigrationKey w fn bytes) :=
  of_some rfl fun h => and1 h
theorem migrationKeyExpiry (fn : Fn) : Statement (.migrationKeyExpiry fn) :=
  of_none rfl
theorem setMigrationTarget (w : Who) (fn : Fn) (record : List Byte) : Statement (.setMigrationTarget w fn record) :=
  of_some rfl fun h => and1 h
theorem migrateFreeze (w : Who) (fn : Fn) : Statement (.migrateFreeze w fn) :=
  of_some rfl fun h => and1 h
theorem thaw (w : Who) (fn : Fn) : Statement (.thaw w fn) :=
  of_some rfl fun h => and1 h
theorem migrateSave (w : Who) (fn : Fn) (bufferBytes : Nat) : Statement (.migrateSave w fn bufferBytes) :=
  of_some rfl fun h => and1 h
theorem migrateRestore (w : Who) (fn : Fn) (bytes : Nat) (blob : List Byte) : Statement (.migrateRestore w fn bytes blob) :=
  of_some rfl fun h => and1 h
theorem send (fn : Fn) (fromManager : Bool) (value : W32) : Statement (.send fn fromManager value) :=
  of_none rfl
theorem pop (fn : Fn) (fromManager : Bool) (value : W32) : Statement (.pop fn fromManager value) :=
  of_none rfl
theorem functionLevelReset (fn : Fn) : Statement (.functionLevelReset fn) :=
  of_none rfl
theorem flrAbortDeadline (fn : Fn) : Statement (.flrAbortDeadline fn) :=
  of_none rfl
theorem flrComplete (fn : Fn) : Statement (.flrComplete fn) :=
  of_none rfl
theorem readNvmeMiDataStructure (transport : Nat) (kind : Nat) : Statement (.readNvmeMiDataStructure transport kind) :=
  of_none rfl
theorem nvmSubsystemHealthStatusPoll (transport : Nat) : Statement (.nvmSubsystemHealthStatusPoll transport) :=
  of_none rfl
theorem controllerHealthStatusPoll (transport : Nat) (controller : Nat) : Statement (.controllerHealthStatusPoll transport controller) :=
  of_none rfl
theorem configurationSet (transport : Nat) (smbusFrequency : Option Nat) (mtu : Option Nat) : Statement (.configurationSet transport smbusFrequency mtu) :=
  of_none rfl
theorem configurationGet (transport : Nat) (mtu : Bool) : Statement (.configurationGet transport mtu) :=
  of_none rfl
theorem vpdRead (transport : Nat) (offset length : Nat) : Statement (.vpdRead transport offset length) :=
  of_none rfl
theorem vpdWrite (transport : Nat) (offset : Nat) (data : List Byte) : Statement (.vpdWrite transport offset data) :=
  of_none rfl
theorem tunnelledAdminCommand (transport : Nat) (opcode : Nat) (arg : Nat) : Statement (.tunnelledAdminCommand transport opcode arg) :=
  of_none rfl
theorem basicManagementCommand : Statement .basicManagementCommand :=
  of_none rfl
theorem miResponseTimeout (transport : Nat) : Statement (.miResponseTimeout transport) :=
  of_none rfl
theorem smbusTimeout : Statement .smbusTimeout :=
  of_none rfl
theorem spdmRequest (transport : Nat) (code : Nat) (nonce : List Byte) : Statement (.spdmRequest transport code nonce) :=
  of_none rfl
theorem ledgerGet (transport : Nat) (seq count : Nat) : Statement (.ledgerGet transport seq count) :=
  of_none rfl
theorem certMldsa (transport : Nat) : Statement (.certMldsa transport) :=
  of_none rfl
theorem powerOn (portSplit : Bool) : Statement (.powerOn portSplit) :=
  of_none rfl
theorem bootHoldXspiRelease : Statement .bootHoldXspiRelease :=
  of_none rfl
theorem trialConfirm : Statement .trialConfirm :=
  of_none rfl
theorem trialReadyTimeout : Statement .trialReadyTimeout :=
  of_none rfl
theorem ledgerAppendDone (ok : Bool) : Statement (.ledgerAppendDone ok) :=
  of_none rfl
theorem mgmtHartWatchdogExpiry : Statement .mgmtHartWatchdogExpiry :=
  of_none rfl
theorem rootWatchdogExpiry : Statement .rootWatchdogExpiry :=
  of_none rfl
theorem escalationBoundExpiry (level : Nat) (island : Island) (unit : Nat) : Statement (.escalationBoundExpiry level island unit) :=
  of_none rfl
theorem resetDone (level : Nat) (island : Island) : Statement (.resetDone level island) :=
  of_none rfl
theorem pfailNFall : Statement .pfailNFall :=
  of_none rfl
theorem pfailHoldExpiry : Statement .pfailHoldExpiry :=
  of_none rfl
theorem railDroop (rail : Rail) : Statement (.railDroop rail) :=
  of_none rfl
theorem resetNFall : Statement .resetNFall :=
  of_none rfl
theorem resetNRiseReboot (portSplit : Bool) : Statement (.resetNRiseReboot portSplit) :=
  of_none rfl
theorem tempHistoryTick : Statement .tempHistoryTick :=
  of_none rfl
theorem lifetimeWriteTimer : Statement .lifetimeWriteTimer :=
  of_none rfl
theorem flushLifetime (r : Requester) (value : W32) : Statement (.flushLifetime r value) :=
  of_none rfl
theorem lifetimeWriteDone : Statement .lifetimeWriteDone :=
  of_none rfl
theorem configAreaWriteDone : Statement .configAreaWriteDone :=
  of_none rfl
theorem clrCounters (r : Requester) (offset : Nat) (value : W32) : Statement (.clrCounters r offset value) :=
  of_none rfl
theorem lock (r : Requester) (offset : Nat) (value : W32) : Statement (.lock r offset value) :=
  of_none rfl
theorem bridgeErrClear (r : Requester) (value : W32) : Statement (.bridgeErrClear r value) :=
  of_none rfl
theorem dmaErrClear (r : Requester) (value : W32) : Statement (.dmaErrClear r value) :=
  of_none rfl
theorem rleErrClear (r : Requester) (value : W32) : Statement (.rleErrClear r value) :=
  of_none rfl
theorem eccUeClear (r : Requester) (value : W32) : Statement (.eccUeClear r value) :=
  of_none rfl
theorem lnxErrClear (r : Requester) (value : W32) : Statement (.lnxErrClear r value) :=
  of_none rfl
theorem topIrqCfgWrite (r : Requester) (port : Port) (value : W32) : Statement (.topIrqCfgWrite r port value) :=
  of_none rfl
theorem bldEscLastRead (r : Requester) (width : Nat) : Statement (.bldEscLastRead r width) :=
  of_none rfl
theorem loRegisterRead (r : Requester) (offset width : Nat) : Statement (.loRegisterRead r offset width) :=
  of_none rfl
theorem registerWrite (r : Requester) (offset width : Nat) (value : W64) : Statement (.registerWrite r offset width value) :=
  of_none rfl
theorem flowControlCreditReturn (port : Port) (credits : Nat) : Statement (.flowControlCreditReturn port credits) :=
  of_none rfl
theorem railsFall (rails : List Rail) : Statement (.railsFall rails) :=
  of_none rfl
theorem deallocationComplete (nsid range : Nat) : Statement (.deallocationComplete nsid range) :=
  of_none rfl
theorem sanitizeComplete (nsid : Nat) : Statement (.sanitizeComplete nsid) :=
  of_none rfl
theorem keepAlive (w : Who) : Statement (.keepAlive w) :=
  of_some rfl fun h => h
theorem keepAliveTimerExpiry (fn : Fn) : Statement (.keepAliveTimerExpiry fn) :=
  of_none rfl
theorem msiXUnmask (port : Port) (fn : Fn) (vector : Nat) : Statement (.msiXUnmask port fn vector) :=
  of_none rfl

end Sys2Proof.Laws.Rows
end

