-- ==== Sys2Proof/Machine/Records.lean ====
section
/-! DEFINITION. The images of the records that redundancy keeps: band records, region descriptors, records of the
stripe-in-flight journal, and the dump (R235, R251, R253). -/

namespace Sys2Proof.Machine

/-! ## Codes -/

/-- STATE of a band record: 0 stands for a band that is not held. -/
def BandState.code : BandState → Nat
  | .opened => 1 | .closed => 2 | .erasePending => 3

/-- KIND of a band record and of a stripe-in-flight record. -/
def BandKind.code : BandKind → Nat
  | .host => 0 | .reloc => 1 | .relocLater => 2 | .map => 3 | .reshape => 4

/-- STATE of a region descriptor. -/
def RegionState.code : RegionState → Nat
  | .empty => 0 | .active => 1 | .reshaping => 2

/-- A mask of slots: bit p for each slot p listed. -/
def slotMask (ps : List Nat) : Nat := ((List.range 64).map fun p => if p ∈ ps then 2 ^ p else 0).sum

/-! ## Bands, regions and stripes in flight (R235, R251) -/

/-- A MEMBERS entry: [31:21] the global LUN number, [20:0] the block number. -/
def memberWord (m : Nat × Nat) : Nat := m.1 % 2 ^ 11 * 2 ^ 21 + m.2 % 2 ^ 21

/-- The record of a band, 192 bytes. -/
def Band.bytes (x : Band) (b : Nat) : List Byte :=
  leBytes 4 b ++ leBytes 1 x.geom ++ leBytes 1 x.st.code ++ leBytes 1 x.kind.code ++ zeros 1 ++ leBytes 4 x.stripes ++ zeros 4 ++
  leBytes 8 (slotMask x.lost) ++ zeros 8 ++ (List.range 34).flatMap (fun i => leBytes 4 ((x.members[i]?.map memberWord).getD 0)) ++ zeros 24

/-- The descriptor of a region, 32 bytes; NEW_GEOM equals GEOM but while RESHAPING. -/
def Region.bytes (x : Region) (r : Nat) : List Byte :=
  leBytes 2 r ++ leBytes 1 x.st.code ++ leBytes 1 x.geom ++ leBytes 1 (if x.st = .reshaping then x.newGeom else x.geom) ++ zeros 3 ++
  leBytes 8 x.dseq ++ leBytes 4 x.cursor ++ zeros 12

/-- A stripe-in-flight record, 32 bytes. -/
def Stripe.bytes (t : Stripe) : List Byte :=
  leBytes 4 t.band ++ leBytes 4 t.stripe ++ leBytes 1 t.geom ++ leBytes 1 t.st ++ leBytes 1 t.kind.code ++ zeros 1 ++
  leBytes 4 (t.seq % 2 ^ 32) ++ leBytes 8 (slotMask t.issued) ++ leBytes 8 (slotMask t.programmed)

/-! ## The slot selector (R504) -/

/-- The first 32 bytes of a copy of the slot selector. -/
def Selector.bytes (x : Selector) : List Byte :=
  let h := leBytes 4 0x534C4354 ++ leBytes 4 (x.sseq % 2 ^ 32) ++ leBytes 1 x.active ++ leBytes 1 x.pending ++ leBytes 1 x.tries ++
    leBytes 1 (bitIf x.failedA 0 + bitIf x.failedB 1) ++ zeros 16
  h ++ leBytes 4 (crc32c h)

/-- What a copy of the slot selector holds. -/
def Boot.selectorCopy (b : Boot) (copy : Nat) : List Byte :=
  if copy = b.selCopy then b.selector.bytes else match b.selOther with | some x => x.bytes | none => []

/-! ## The dump image (R253) -/

/-- The bytes of a slot. -/
def Slot.page (x : Slot) : List Byte := x.mem.readBytes 0 16384

/-- The dump key, which the security island derives from the unique device secret (R281). -/
def dumpKey : List Byte := bytesOf 64 Config.dumpKey

/-- The 16 KiB page of a slot at a page index of the image: XTS in units of 1,024 bytes under the dump key (R281). -/
def Slot.sealedPage (x : Slot) (page : Nat) : List Byte := xtsRun true dumpKey 1024 (page * 16) x.page

/-- The directory entry of a slot, 32 bytes. -/
def Slot.dirBytes (x : Slot) (k : Nat) : List Byte :=
  leBytes 5 x.iu ++ leBytes 1 (if x.flushing then 1 else 0) ++ leBytes 2 k ++ leBytes 4 x.mask.toNat ++ x.prev.bytes ++ zeros 2 ++
  leBytes 4 (crc32c x.page) ++ zeros 8

/-- The map journal tail of a dump, in pages of 1,020 records. -/
def DumpImage.tail (d : DumpImage) : List JournalPage :=
  (List.range (ceilDiv d.journal.length 1020)).map fun i => journalPage ((d.journal.drop (1020 * i)).take 1020)

/-- The header of a copy of a dump, or its trailer, which differs in MAGIC: 64 bytes. -/
def DumpImage.header (d : DumpImage) (copy : Nat) (trailer : Bool) : List Byte :=
  let h := leBytes 4 (if trailer then 0x44554D54 else 0x44554D50) ++ leBytes 1 copy ++ zeros 3 ++ leBytes 8 d.seq ++
    leBytes 4 d.stripes.length ++ leBytes 4 (ceilDiv d.journal.length 1020) ++ leBytes 4 d.slots.length ++ leBytes 4 d.pages ++
    leBytes 8 d.time ++ leBytes 8 d.placeSeq ++ zeros 12
  h ++ leBytes 4 (crc32c h)

/-- The metadata of a codeword of a dump page (R240). -/
def DumpImage.metadata (d : DumpImage) (copy page cw : Nat) : List Byte :=
  leBytes 4 (0xFFFFFFF0 + copy) ++ leBytes 4 page ++ leBytes 1 0 ++ leBytes 1 cw ++ zeros 6 ++ zeros 5 ++ leBytes 6 d.seq ++ zeros 37

/-- The image of a copy of a dump, in 16 KiB pages: header, records, journal pages, directory, slots, trailer. -/
def DumpImage.bytes (d : DumpImage) (copy : Nat) : List Byte :=
  let whole := fun (bs : List Byte) => padTo (ceilDiv bs.length 16384 * 16384) bs
  whole (d.header copy false) ++ whole (d.stripes.flatMap Stripe.bytes) ++ d.tail.flatMap JournalPage.bytes ++
  whole (d.slots.flatMap fun e => e.2.dirBytes e.1) ++ ((d.slots.zipIdx (d.parts + 1 - d.slots.length)).flatMap fun e => e.1.2.sealedPage e.2) ++ whole (d.header copy true)

end Sys2Proof.Machine
end

