-- ==== Sys2Proof/Tests/Slice0.lean ====
section
/-! SUPPORT. The checks of well-formedness with a term that each refuses, the spec's worked examples, and for every clause of every
obligation a state and operands that meet all its hypotheses together (witness_<Name>_<clause>). -/

set_option linter.unusedVariables false
set_option Elab.async false

open Sys2Proof Sys2Proof.Machine

namespace Sys2Proof.Machine.Tests

/-! ## A small running G9 -/

/-- An admin and an I/O command of the manager function of port A. -/
def adm : Who := ⟨0, 0, 1⟩
def io : Who := ⟨0, 1, 2⟩

/-- One channel of four LUNs, with few blocks and pages. -/
def tinyBoard : Board :=
  { Board.reset with channels := 8, targets := 1, luns := 4, blocksPerLun := 64, pagesPerBlock := 3072, dramGibPerChannel := 1 }

/-- A controller that is ready, with one admin and one I/O command outstanding. -/
def readyCtrl (f : Fn) : Ctrl :=
  { Ctrl.reset f with
    cc := 1, rdy := true, fetched := [⟨0, 1, 0, none⟩, ⟨1, 2, 0, none⟩], adminSq := { Queue.admin with size := 32 }
    queues := [{ Queue.admin with qid := 1, isCq := true, size := 16, vector := 1 }, { Queue.admin with qid := 1, size := 16, cqid := 1 }]
    hostId := [1] }

/-- A port whose link is up. -/
def upPort : PortState := { PortState.reset true with linkUp := true, rate := 5, width := 8, credits := 16 }

/-- A namespace of 4,096-byte blocks with one locking range. -/
def rangeA : Range :=
  { id := 0, start := 0, length := 0, slot := 0, readEnabled := false, writeEnabled := false, readLocked := false, writeLocked := false,
    lockOnReset := true, authorities := [], single := none, rekeying := false, deallocating := false }
def nsA : Ns :=
  { kind := .nvm, lbaSize := 4096, nsze := 256, ncap := 256, base := 0, cmode := 0, recordWidth := 0, attached := [0], ranges := [rangeA],
    reservation := Reservation.reset, kvTable := none, kv := [], mem := [], erasing := none }
def nsKv : Ns := { nsA with kind := .kv, lbaSize := 1, nsze := 65536, ncap := 65536, base := 256, kv := [⟨[1, 2], [7, 8, 9], [⟨0, 0, 3⟩]⟩] }
def nsMem : Ns := { nsA with kind := .memory, lbaSize := 1, nsze := 8192, ncap := 8192, ranges := [] }

def slotA : KeySlot :=
  { st := .loaded, use := 3, credential := false, owner := 0, key := List.replicate 64 5, stored := some (List.replicate 64 5), epoch := 0,
    next := 0, reservedTo := 0, logTarget := none }

def on : State :=
  { State.reset with
    sys := { Sys.reset with phase := .running, down := [], bootStep := 12 }
    board := tinyBoard
    host := { HostSide.reset with portA := upPort, ctrls := [(0, readyCtrl 0)] }
    ns := [(1, nsA), (2, nsKv), (3, nsMem)]
    media := { Media.reset with channels := [0, 1, 8, 9, 16, 17, 24, 25].map fun c => (c, { Channel.reset with online := true, rate := 4 }) }
    sea := { Sea.reset with xts := [(0, slotA)], deviceKeys := true }
    boot := { Boot.reset with running := 1, image := some FwImage.factory } }

/-! ## Trails and kernels -/

def trailA : Trail :=
  { ordered := false, nsok := false, skip := false, statusSlm := false, tag := 0, total := 4096, recordSize := 0, limit := 0,
    statusAddr := 0x1000, stages := [.hostSource false 0x2000 4096, .reshuffle 0 2 0 0, .hostSink .direct 0x3000 4096 0] }
def flowA : Flow :=
  { bound := true, generation := 1, owner := 0, trail := trailA, issued := 0, retired := 0, lastIssued := false, chunks := 1,
    unretired := [], delivered := [], lowWater := 0, pools := [4, 4, 4], parked := [], keyReady := [], reserveUsed := false,
    stopped := false, failure := none, failCount := 0, cancelled := false, cancelers := [], queries := [], mismatch := none,
    skipped := 0, firstSkipped := none, bytes := 0, gcmKey := none, nonce := none, expected := [], admittedAt := 0, ended := none,
    gone := false, endStatus := stOk, execBy := none, slotNonces := [] }
/-- An entry of a chunk that has everything it expects. -/
def entryA (stage : Nat) : Task :=
  { index := 0, flow := 0, gen := 1, stage := stage, cslot := 0, chunk := 0, expect := 1, arrived := 1, fromReserve := false, discard := false,
    empty := false, skipped := false, buf := some 0, len := 4096, token := none, out := none }
def flowSgl : Flow := { flowA with trail := { trailA with stages := [.hostSource true 0x2000 16, .hostSink .direct 0x3000 4096 0] }, issued := 1 }
def sglView : HostView := [⟨0x2000, leBytes 8 0x9000 ++ leBytes 4 4096 ++ zeros 4⟩]
def flowing (f : Flow) (es : List Task) : State := { on with disp := { Disp.reset with flows := [(0, f)], entries := es } }

/-- The state that an outcome answers. -/
def stateOf (o : Host.Outcome State Fault Refusal) : State := match o with | .next t => t | _ => on
def stateOfBuf (s : State) : State := match s.allocBuf with | some x => x.2 | none => s

/-- A Trail descriptor: the header, then the stage records. -/
def headBytes (n flags total status : Nat) : List Byte :=
  leBytes 2 1 ++ leBytes 1 n ++ leBytes 1 flags ++ leBytes 4 0 ++ leBytes 8 total ++ leBytes 8 0 ++ leBytes 8 status ++ zeros 32
def stageBytes (kind op low high : Nat) (addr len : Nat) : List Byte :=
  leBytes 1 kind ++ leBytes 1 op ++ leBytes 2 0 ++ leBytes 2 low ++ leBytes 2 high ++ leBytes 8 addr ++ leBytes 8 len ++ zeros 40
def trailBytes : List Byte :=
  headBytes 3 0 4096 0x1000 ++ stageBytes 2 0 0 0 0x2000 4096 ++ stageBytes 0x30 0 2 0 0 0 ++ stageBytes 0x70 0 0 0 0x3000 4096
/-- From local memory to local memory, as a kernel submits it. -/
def trailS : Trail :=
  { trailA with statusSlm := true, total := 64, statusAddr := 3 * 2 ^ 32, stages := [.slmSource 3 128 64, .slmSink .direct 3 192 64 0] }
def trailSBytes : List Byte := headBytes 2 8 64 (3 * 2 ^ 32) ++ stageBytes 3 0 3 0 128 64 ++ stageBytes 0x71 0 3 0 192 64

/-- A module of one kernel, 4 KiB of text, and a signature block. -/
def imageA : List Byte :=
  leBytes 4 0x55524D31 ++ leBytes 2 1 ++ leBytes 2 1 ++ leBytes 4 7700 ++ leBytes 4 0xC0 ++ leBytes 4 4096 ++ leBytes 8 0 ++ leBytes 4 0x80 ++
  leBytes 4 4288 ++ zeros 92 ++ leBytes 8 0 ++ leBytes 4 4096 ++ leBytes 4 4096 ++ leBytes 4 4096 ++ leBytes 4 100 ++ leBytes 4 1000 ++
  leBytes 2 1 ++ leBytes 2 4096 ++ zeros 32 ++ zeros 7508
def submitView : HostView := [⟨0x100, trailBytes⟩]

def sinkFlow : Flow :=
  { flowA with trail := { trailA with stages := [.hostSource false 0x2000 4096, .lbaSink .direct 1 0 1 0] }, issued := 1, unretired := [(0, 0)] }
def sinkEntry : Task := { entryA 1 with expect := 5, empty := true, buf := none, len := 0 }

/-- The reshuffle task waits in the queue of the movers. -/
def queued : State :=
  { flowing flowA [] with disp := { (flowing flowA []).disp with queues := [(.dma, 0, entryA 1)] } }
/-- It runs, and the sink waits for what it makes. -/
def handing : State :=
  { flowing flowA [{ entryA 2 with arrived := 0 }] with
    disp := { (flowing flowA [{ entryA 2 with arrived := 0 }]).disp with running := [⟨.dma, 0, { entryA 1 with out := some 1 }, 0, none⟩], bufs := [(0, ⟨List.replicate 16 3, none⟩), (1, ⟨[], none⟩)] } }

def kernelRec : KernelRec :=
  { outRecords := false, maySubmit := true, mayLynx := true, entry := 0, outWindow := 8192, scratch := 4096, stack := 4096, budgetDefault := 100,
    budgetMax := 1000, recMin := 0, recMax := 0, name := [] }
def moduleA : Module :=
  { st := .loaded, removing := false, name := [], kernels := [kernelRec], visibility := 0, visibleTo := 0, authority := 0, loader := 0, measurement := [], version := 0,
    poolBytes := 4096, text := [], rodata := [], forced := [] }
def flowK : Flow :=
  { flowA with trail := { trailA with stages := [.hostSource false 0x2000 4096, .program 0 0 0 [], .hostSink .direct 0x3000 4096 0] }, issued := 1, unretired := [(0, 0)] }
def kernA : Kernel :=
  { task := { entryA 1 with out := some 1 }, since := 0, stalled := 0, budget := 100, phase := .run, search := none, calling := false,
    block := zeros 128, regs := { hartClear with x := [(2, 0x4000), (10, 1)] }, cycles := 0, instret := 0, lines := [], high := 0 }
/-- What a kernel did up to its call: its integer registers and its stores. -/
def ran (xs : List (Nat × W64)) (st : List (Nat × List Byte)) : KernelRun := ⟨{ hartClear with x := xs }, [], [], st, 10, 5⟩
def kern (k : Option Kernel) : State :=
  { flowing flowK [] with
    disp := { (flowing flowK []).disp with bufs := [(0, ⟨[1, 2], none⟩), (1, ⟨[], none⟩)] }
    hrt := { Hrt.reset with modules := [(0, moduleA)], harts := [(0, { Hart.reset with kernel := k })] } }
def kernDumb : State := { kern (some kernA) with hrt := { (kern (some kernA)).hrt with modules := [(0, { moduleA with kernels := [{ kernelRec with mayLynx := false }] })] } }

def tableA : LynxTable :=
  { banks := 1, width := 1, copies := 1, owner := 0, verify := false, kv := false, entries := [(5, ⟨true, 3, 9, [1, 2, 3, 4, 5, 6, 7, 8], 0⟩)], faulted := false, lost := [], diffs := [], shadowBad := [] }
def lynxA : Lynx := { Lynx.reset with tables := [(1, tableA)] }
def keyA : List Byte := [1, 2, 3, 4, 5, 6, 7, 8]
/-- The shadow word of its entry cannot be corrected. -/
def tableBad : LynxTable := { tableA with verify := true, shadowBad := [5] }
def lynxBad : Lynx := { Lynx.reset with tables := [(1, tableBad)] }
/-- The kernel waits for a search of table 1 for keyA. -/
def searching (l : Lynx) : State := { kern (some { kernA with search := some (1, keyA) }) with lynx := l }
def kernelIn (s : State) : Kernel := ((s.hart 0).kernel).getD kernA
def callIn (s : State) (run : KernelRun) : State := (s.kernelRuns 0 run).callMade 0 kernA
def calledWith (run : KernelRun) : State := callIn (kern (some kernA)) run
/-- It wrote two bytes of its output and exits with 64. -/
def exitRun : KernelRun := ran [(10, 64)] [(0x500000000, [1, 2])]
def longExit : KernelRun := ran [(10, 8193)] []
/-- It searches table 1 for a key in its scratch window. -/
def searchRun : KernelRun := ran [(10, 1), (11, 0x600000000), (12, 8)] [(0x600000000, [1, 2, 3, 4, 5, 6, 7, 8])]
def searchState : State := { kern (some kernA) with lynx := lynxA }
def searchCall : State := callIn searchState searchRun
def dumbCall : State := callIn kernDumb searchRun
/-- It submits a Trail whose descriptor it wrote to its scratch window. -/
def submitRun : KernelRun := ran [(10, 0x600000000), (11, 192)] [(0x600000000, trailSBytes)]
def submitCall : State := callIn (kern (some kernA)) submitRun
def enrolData : List Byte := leBytes 2 3 ++ leBytes 2 1952 ++ leBytes 2 97 ++ List.replicate 2074 0

/-! ## Media, the translation layer and redundancy -/

def lunWith (l : Nat) (x : Lun) : State := { on with media := { on.media with luns := [(l, x)] } }
def readCmd : MediaCmd := { op := .read (.host io) [⟨0, 1, 0, 0, 0⟩], cls := 1, block := 5, page := 0, aged := false }
def progCmd : MediaCmd := { op := .program 7 0 0, cls := 4, block := 5, page := 0, aged := false }
def eraseCmd : MediaCmd := { op := .erase none, cls := 4, block := 5, page := 0, aged := false }
def jobA : ReadJob := { client := .host io, kind := .read, nsid := 1, slba := 0, nlb := 1, wait := 1, failed := none, second := false, again := false }
def reading (x : Lun) : State := { lunWith 0 x with ftl := { on.ftl with reads := [jobA] } }
def bandA : Band :=
  { geom := 1, st := .closed, kind := .host, stripes := 1, lost := [], members := [(0, 5), (1, 5), (2, 5), (3, 5)], fill := 16, dead := [],
    refresh := false, closedAt := 0, erasing := [], shut := false, copied := 0, zeroed := [] }
def banded (x : Band) : State := { on with ftl := { on.ftl with bands := [(7, x)] } }
def chanWith (x : Channel) : State := { on with media := { on.media with channels := [(1, x)] } }
def waitA : WaitingWrite := { who := io, kind := .nvm, nsid := 1, slba := 0, nlb := 1 }
def admitA : AdmittedWrite := { who := io, kind := .nvm, nsid := 1, slba := 0, nlb := 1, pieces := [] }
def slotX : Slot :=
  { iu := 0, nsid := 1, mask := 0xFF, mem := [], prev := MapEntry.unmapped, fn := 0, acked := true, flushing := false, compress := false,
    placed := none, programmed := false, merging := false, key := [] }
def admitting : State := { on with ftl := { on.ftl with admitted := [admitA], slots := [(0, { slotX with acked := false })], map := [(0, ⟨.buffer, 0, 0⟩)] } }
def stripeA : Stripe :=
  { band := 7, stripe := 1, geom := 1, st := 1, kind := .host, seq := 1, issued := [], programmed := [], openedAt := 0 }
/-- A dump of 32 slots is under way, and no page of it is programmed. -/
def dumpRuns : State :=
  { on with
    sys := { on.sys with phase := .dumping }
    str := { on.str with dump := some { seq := 1, time := 0, slots := [(0, slotX)], journal := [], stripes := [], placeSeq := 0, copyA := ⟨true, 0, [], []⟩, copyB := ⟨true, 0, [], []⟩, trailer := false } } }
def reshaping (r : Reshape) : State := { on with str := { on.str with reshape := r, regions := [(0, ⟨.active, 0, 0, 0, 0⟩)] } }

/-! ## Keys -/

def keysWith (x : KeySlot) : State := { on with sea := { on.sea with xts := [(0, x)] } }
def importData : List Byte := leBytes 2 0 ++ leBytes 1 3 ++ leBytes 1 64 ++ leBytes 4 7 ++ zeros 1264
def unlocked : State := { on with sea := { on.sea with opalA := { Opal.reset with session := true, authorities := [0] } } }

/-! ## Engines, DRAM -/

def dgsWith (d : Dgs) : State := { on with dgs := d }
def hmacA : HmacSlot := { HmacSlot.free with owner := some 0, wrap := 3, blob := [1], alg := 1 }
/-- A DIGEST stage of HMAC slot 0, which was cleared after the Trail began. -/
def hmacFlow : Flow := { flowA with trail := { trailA with stages := [.hostSource false 0x2000 4096, .digest 1 false (some 0) 0x5000 false, .hostSink .direct 0x3000 4096 0] } }
def cleared : State := { flowing hmacFlow [entryA 1] with dgs := { Dgs.reset with ctxs := [(0, ⟨1, some 0, [], [], false, true⟩)] } }
def wrapA : KeySlot := { slotA with use := 4, key := List.replicate 32 5, stored := some (List.replicate 32 5) }
def hashed (h : HmacSlot) : State := { on with dgs := { Dgs.reset with hmac := [(0, h)] }, sea := { on.sea with wrap := [(3, wrapA)] } }
def regged (rs : List (Nat × W32)) (s : State) : State := { s with regs := { s.regs with val := rs } }
/-- Table 1 selected; entry 0 selected. -/
def lynxed (rs : List (Nat × W32)) : State := regged ((rLnxTblSel, 1) :: rs) { on with lynx := lynxA }
def dmaWith (c : DmaChan) : State := { on with dma := [(9, c)] }
def mgrChan : DmaChan := { DmaChan.reset with owner := .managerA }
def fwChan : DmaChan := { DmaChan.reset with owner := .firmware }
def descA : DmaDesc :=
  { src := 0, dst := 4096, length := 16, op := 0, srcSpace := 0, dstSpace := 0, fence := false, paramA := 0, paramB := 0, pace := 0, func := 0, next := 0 }
def descBytes : List Byte := leBytes 8 0x10000 ++ leBytes 8 0x20000 ++ leBytes 4 16 ++ zeros 12
def dramOf (m : MemSide) : State := { on with memory := m }
def trainedMem : MemSide :=
  { MemSide.reset with chans := [0, 1, 2, 3].map fun c => (c, { DramChan.reset with trained := true }) }
def bootStep5 (c : DramChan) : State :=
  { on with sys := { on.sys with phase := .booting, bootStep := 5 }, memory := { MemSide.reset with chans := [(3, c)] } }

/-! ## Ports, controllers and namespaces -/

def onCtrl (c : Ctrl) : State := { on with host := { on.host with ctrls := [(0, c)] } }
def onPort (p : PortState) : State := { on with host := { on.host with portA := p } }
def onNs (n : Ns) : State := { on with ns := [(1, n), (2, nsKv), (3, nsMem)] }
/-- One registrant, which may hold the reservation. -/
def resA (holder : Option (List Byte)) : Reservation := { Reservation.reset with registrants := [⟨[1], 9⟩], holder := holder }
def ranges2 : List MemRange := [⟨3, 0, 4096⟩, ⟨3, 4096, 4096⟩]
def ranged : State := { on with host := { on.host with rangeSetsA := [(2, ranges2)] }, hrt := { Hrt.reset with modules := [(0, moduleA)] } }

/-! ## Virtual functions, boot, power and registers -/

/-- With controller 2, function 1 of port A. -/
def vfWith (c : Ctrl) : State := { on with host := { on.host with ctrls := [(0, readyCtrl 0), (1, c)] } }
def heldCert (tr : Nat) : SbReq := ⟨tr, false, .certMldsa⟩
def holding (l : List SbReq) : State := { on with health := { on.health with sideband := l } }
def bootIn (p : Phase) (b : Boot) : State := { on with sys := { on.sys with phase := p }, boot := b }
def appendA : Append := { kind := 1, cause := 0, comps := [], then_ := .nothing }
def appending (l : List Append) : State := { on with boot := { on.boot with appends := l } }
def downloaded : State := { on with boot := { on.boot with download := [(0, zeros 4096)] } }
/-- A staged image of 4 KiB of FSL and 64 KiB of main firmware, with its measurements. -/
def fwHead : List Byte :=
  leBytes 4 0x475A4657 ++ leBytes 2 1 ++ leBytes 2 0 ++ leBytes 4 77140 ++ zeros 12 ++ leBytes 4 4096 ++ leBytes 4 4096 ++ leBytes 4 8192 ++
  leBytes 4 65536 ++ leBytes 4 73728 ++ zeros 4
def fwMeas : List Byte := sha384 (fwHead ++ sha384 (zeros 4096) ++ sha384 (zeros 65536) ++ zeros 48 ++ zeros (73728 - 192))
def fwTail (n : Nat) : List Byte := sha384 (zeros 4096) ++ (sha384 (zeros 65536) ++ (fwMeas ++ zeros n))
def fwPage : List Byte := fwHead ++ fwTail 3904
theorem staged_pages (b : Boot) (p z : List Byte) : Boot.staged { b with download := (0, p) :: (List.range 18).map fun i => (i + 1, z) } = p ++ (List.replicate 18 z).flatten := by
  simp [Boot.staged, List.range, List.range.loop, Tbl.find]
def fwImage : List Byte := fwHead ++ fwTail 77632
theorem staged_image (b : Boot) : Boot.staged { b with download := (0, fwPage) :: (List.range 18).map fun i => (i + 1, zeros 4096) } = fwImage := by
  rw [staged_pages]
  simp only [fwPage, fwImage, fwTail, List.append_assoc, zeros, List.flatten_replicate_replicate, List.replicate_append_replicate]
theorem fwHead_length : fwHead.length = 48 := by decide +kernel
theorem fwTail_drop (n o : Nat) (h : 144 ≤ o) (k : Nat) : slice (fwHead ++ fwTail n) (48 + o) k = zeros k := by
  obtain ⟨j, rfl⟩ := Nat.exists_eq_add_of_le h
  rw [slice_append_right fwHead (fwTail n) (48 + (144 + j)) k (144 + j) (by rw [fwHead_length]), fwTail, slice_append_right _ _ _ k (96 + j) (by rw [sha384_length]; omega),
    slice_append_right _ _ _ k (48 + j) (by rw [sha384_length]; omega), slice_append_right _ _ _ k j (by rw [fwMeas, sha384_length]), slice_zeros]
theorem fwImage_headerOk : fwHeaderOk fwImage = true := by
  have l : fwHead.length = 48 := by decide +kernel
  have h : ∀ o n, o + n ≤ 48 → slice fwImage o n = slice fwHead o n := fun o n h => slice_append_left _ _ o n (by omega)
  have z : ∀ o k, 192 ≤ o → slice fwImage o k = zeros k := fun o k h => by
    have := fwTail_drop 77632 (o - 48) (by omega) k
    rwa [show 48 + (o - 48) = o by omega] at this
  have so : leAt fwImage 0x28 4 = 73728 := by rw [leAt, h _ _ (by omega)]; decide +kernel
  simp only [fwHeaderOk, so]
  simp only [leAt, h 0 4 (by omega), h 4 2 (by omega), h 8 4 (by omega), h 0xC 1 (by omega), h 0xD 1 (by omega), h 0xE 1 (by omega), h 0xF 1 (by omega), h 0x10 8 (by omega), h 0x18 4 (by omega), h 0x1C 4 (by omega), h 0x20 4 (by omega), h 0x24 4 (by omega), h 0x2C 4 (by omega)]
  simp only [Nat.reduceAdd, z 0xC0 64 (by omega), z 73730 2 (by omega), z 77041 3 (by omega)]
  decide +kernel
theorem fwImage_measured : fwMeasured fwImage = true := by
  have l : fwHead.length = 48 := by decide +kernel
  have h : ∀ o n, o + n ≤ 48 → slice fwImage o n = slice fwHead o n := fun o n h => slice_append_left _ _ o n (by omega)
  have z : ∀ o k, 192 ≤ o → slice fwImage o k = zeros k := fun o k h => by
    have := fwTail_drop 77632 (o - 48) (by omega) k
    rwa [show 48 + (o - 48) = o by omega] at this
  have a : ∀ o v, o + 4 ≤ 48 → leAt fwHead o 4 = v → leAt fwImage o 4 = v := fun o v k e => by rw [leAt, h _ _ k]; exact e
  simp only [fwMeasured, a 0x18 4096 (by omega) (by decide +kernel), a 0x1C 4096 (by omega) (by decide +kernel), a 0x20 8192 (by omega) (by decide +kernel),
    a 0x24 65536 (by omega) (by decide +kernel), a 0x28 73728 (by omega) (by decide +kernel), z 4096 _ (by omega), z 8192 _ (by omega)]
  have d1 : slice fwImage 0x30 48 = sha384 (zeros 4096) := by
    rw [fwImage, slice_append_right fwHead _ _ 48 0 l, fwTail, slice_all _ _ _ (sha384_length _)]
  have d2 : slice fwImage 0x60 48 = sha384 (zeros 65536) := by
    rw [fwImage, slice_append_right fwHead _ _ 48 48 (by omega), fwTail, slice_append_right _ _ _ 48 0 (by rw [sha384_length]), slice_all _ _ _ (sha384_length _)]
  have d3 : slice fwImage 0x90 48 = fwMeas := by
    rw [fwImage, slice_append_right fwHead _ _ 48 96 (by omega), fwTail, slice_append_right _ _ _ 48 48 (by rw [sha384_length]),
      slice_append_right _ _ _ 48 0 (by rw [sha384_length]), slice_all _ _ _ (by rw [fwMeas, sha384_length])]
  have e : fwImage = (fwHead ++ sha384 (zeros 4096) ++ sha384 (zeros 65536)) ++ (fwMeas ++ zeros 77632) := by
    simp only [fwImage, fwTail, List.append_assoc]
  have t1 : fwImage.take 0x90 = fwHead ++ sha384 (zeros 4096) ++ sha384 (zeros 65536) := by
    rw [e, List.take_left' (by simp only [List.length_append, sha384_length, l])]
  have e2 : fwImage = (fwHead ++ sha384 (zeros 4096) ++ sha384 (zeros 65536) ++ fwMeas) ++ zeros 77632 := by
    simp only [fwImage, fwTail, List.append_assoc]
  have t2 : (fwImage.take 73728).drop 0xC0 = zeros (73728 - 192) := by
    have n : (fwHead ++ sha384 (zeros 4096) ++ sha384 (zeros 65536) ++ fwMeas).length = 192 := by simp only [List.length_append, sha384_length, l, fwMeas]
    rw [List.drop_take, e2, List.drop_left' n, zeros, List.take_replicate]; rfl
  rw [d1, d2, d3, t1, t2]
  simp [fwMeas]
def fwDownloaded : State :=
  { on with boot := { on.boot with download := (0, fwPage) :: (List.range 18).map fun i => (i + 1, zeros 4096) } }
theorem fwDownloaded_staged : fwDownloaded.boot.staged = fwImage := staged_image _
theorem fwDownloaded_reason : stagedReason fwDownloaded.boot (FwImage.read fwImage true true) = 0 := by
  have h : ∀ o n, o + n ≤ 48 → leAt fwImage o n = leAt fwHead o n := fun o n h => leAt_append_left _ _ o n (by rw [fwHead_length]; omega)
  have so : leAt fwImage 0x28 4 = 73728 := by rw [h 0x28 4 (by omega)]; decide +kernel
  have z : leAt fwImage 73728 2 = 0 := by rw [leAt, show slice fwImage 73728 2 = zeros 2 from fwTail_drop 77632 73680 (by omega) 2]; decide
  have f : downloadFits fwDownloaded.boot (leAt fwHead 8 4) = true := by
    rw [show leAt fwHead 8 4 = 77140 by decide +kernel]; simp [downloadFits, fwDownloaded, List.range, List.range.loop, ceilDiv]
  have r : fwDownloaded.boot.revoked = 0 ∧ fwDownloaded.boot.fuseSvn = 0 := by decide +kernel
  simp only [stagedReason, FwImage.read, fwImage_headerOk, fwImage_measured, so, z, h 8 4 (by omega), h 0xC 1 (by omega), f, r]
  decide +kernel
def sysWith (f : Sys → Sys) : State := { on with sys := f on.sys }
/-- The island at its third bridge error within a millisecond. -/
def thirdError (i : Island) : State := sysWith fun y => { y with bridgeErrs := [(i, 0), (i, 0), (i, 0)] }
def heldPhase : State := { bootIn .hold Boot.reset with power := { on.power with resetN := true } }
def msgA : Msg := { len := 1, mismatch := false, type := 0, tag := 0, payload := [7] }

/-! ## The checks of well-formedness, each with a term it refuses -/

theorem test_wf_accepts : Instr.wellFormed (.nvmRead io 1 0 65536) = true := by decide
theorem test_wf_function : Instr.wellFormed (.functionLevelReset 128) = false := by decide
theorem test_wf_function_gap : fnOk 255 = false ∧ fnOk 256 = true ∧ fnOk 384 = false := by decide
theorem test_wf_sender_queue : Instr.wellFormed (.keepAlive ⟨0, 65536, 0⟩) = false := by decide
theorem test_wf_sender_command : Instr.wellFormed (.keepAlive ⟨0, 0, 65536⟩) = false := by decide
theorem test_wf_nsid : Instr.wellFormed (.nvmRead io (2 ^ 32) 0 1) = false := by decide
theorem test_wf_slba : Instr.wellFormed (.nvmRead io 1 (2 ^ 64) 1) = false := by decide
theorem test_wf_no_blocks : Instr.wellFormed (.nvmRead io 1 0 0) = false := by decide
theorem test_wf_blocks : Instr.wellFormed (.nvmRead io 1 0 65537) = false := by decide
theorem test_wf_flow : Instr.wellFormed (.chunkIssue 4096 []) = false := by decide
theorem test_wf_stage : Instr.wellFormed (.creditGrant 0 16 0) = false := by decide
theorem test_wf_chunk_slot : Instr.wellFormed (.creditGrant 0 0 256) = false := by decide
theorem test_wf_hart : Instr.wellFormed (.hartTaskStart 64) = false := by decide
theorem test_wf_dma_channel : Instr.wellFormed (.dmaPaceResume 64) = false := by decide
theorem test_wf_flash_channel : Instr.wellFormed (.channelTrainDone 32 true) = false := by decide
theorem test_wf_dram_channel : Instr.wellFormed (.zqCalibration 4 0) = false := by decide
theorem test_wf_sub_channel : Instr.wellFormed (.zqCalibration 0 2) = false := by decide
theorem test_wf_island : Instr.wellFormed (.ucalCommitDone 4 true) = false := by decide
theorem test_wf_lun : Instr.wellFormed (.senseDone 2048) = false := by decide
theorem test_wf_transport : Instr.wellFormed (.certMldsa 5) = false := by decide
theorem test_wf_window : Instr.wellFormed (.loRegisterRead .portA 0x4000000 4) = false := by decide
theorem test_wf_width : Instr.wellFormed (.loRegisterRead .portA 0 0) = false := by decide
theorem test_wf_width_long : Instr.wellFormed (.loRegisterRead .portA 0 4097) = false := by decide
theorem test_wf_select : Instr.wellFormed (.getFeaturesMode adm 8) = false := by decide
theorem test_wf_module : Instr.wellFormed (.moduleRemove 65536) = false := by decide
theorem test_wf_slot : Instr.wellFormed (.generate adm (2 ^ 32) 0) = false := by decide
theorem test_wf_requester : Instr.wellFormed (.arm (.vf 200) 0 0) = false := by decide

/-! ## The spec's worked examples -/

/-- Chapter 12, the example after R388: TRANSPOSE with UNIT 2 over 20 bytes. -/
def transposeIn : List Byte := (List.range 8).flatMap (fun t => [BitVec.ofNat 8 t, 0x80]) ++ [0x08, 0x80, 0x09, 0x80]
def transposeOut : List Byte := [0xAA, 0xCC, 0xF0] ++ zeros 12 ++ [0xFF, 0x08, 0x80, 0x09, 0x80]
theorem test_transpose_example : transpose 2 transposeIn = transposeOut := by decide +kernel
theorem test_untranspose_example : untranspose 2 transposeOut = transposeIn := by decide +kernel
/-- R388: two streams of one-byte elements, with one byte left over. -/
theorem test_interleave : interleave 2 1 [1, 2, 3, 0x11, 0x12, 0x13, 9] = [1, 0x11, 2, 0x12, 3, 0x13, 9] := by decide +kernel

/-- Chapter 10, the example of four trade records: the token stream, the header and the three damaged variants. -/
def tradeA : List Byte := (List.range 44).map (fun i => BitVec.ofNat 8 (i + 1)) ++ zeros 52
def tradeB : List Byte := (List.range 44).map (fun i => BitVec.ofNat 8 (i + 101)) ++ zeros 52
def trades : List Byte := tradeA ++ tradeB ++ tradeB ++ tradeA
theorem test_codec_tokens :
    encodeTokens trades 96 384 0 = [0x2B] ++ tradeA.take 44 ++ [0xB1, 0x00, 0x2B] ++ tradeB.take 44 ++ [0xB1, 0x00, 0xE0, 0x01, 0xE0, 0x03] := by
  decide +kernel
theorem test_codec_header :
    (encodeBlock 96 trades).take 12 = [0x10, 0x00, 0x60, 0x00, 0x80, 0x01, 0x00, 0x00, 0x62, 0x00, 0x00, 0x00] ∧ (encodeBlock 96 trades).length = 114 := by
  decide +kernel

/-- Chapter 6, the example "four IUs written, placed and relocated": the entries in the buffer and on the media. -/
theorem test_map_entries :
    MapEntry.word ⟨.buffer, 0, 0x1F40⟩ = 0x400000001F40 ∧ MapEntry.word ⟨.media, 6, 0x1234567880⟩ = 0x261234567880 ∧
      MapEntry.word ⟨.media, 16, 0x1234567886⟩ = 0x301234567886 ∧ MapEntry.word ⟨.media, 4, 0x1234567896⟩ = 0x241234567896 ∧
      MapEntry.word ⟨.media, 1, 0x123456789A⟩ = 0x21123456789A := by decide
/-- R239: products in GF(2^8) with the polynomial 0x11D, and P and Q of three one-byte members worked out by hand. -/
theorem test_gmul : gmul 2 0x80 = 0x1D ∧ gmul 4 0x80 = 0x3A ∧ gmul 1 0xA5 = 0xA5 ∧ gmul 3 5 = 0xF := by decide
theorem test_parity_q : parityQ 1 [[1], [0x80], [0x40]] = [1 ^^^ 0x1D ^^^ 0x1D] := by decide
/-- Chapter 14, the example of the 7-stage scan: context 0x2A7 bound for the fifth time. -/
theorem test_trail_id : trailId 0x2A7 { flowA with generation := 5 } = 0x52A7 := by decide
/-- Chapter 15, the example of instance 3: 4 queue pairs, 12 held writes and one message (its three slots add 144 bytes each). -/
def movingCtrl : Ctrl :=
  { Ctrl.reset 3 with
    queues := List.replicate 8 Queue.admin, held := List.replicate 12 ⟨io, 1, 0, 1, .nvm⟩, mbxIn := [⟨0, false, 0, 0, []⟩] }
theorem test_blob_length : blobLen { on with host := { on.host with ctrls := [(3, movingCtrl)] } } 3 + 144 * 3 = 6960 := by decide +kernel
/-- Chapter 18, the example of level 5 of global LUN 679. -/
theorem test_calibration_entry : calEntry 1 5 679 0xF4 3 0xF5 0xFE = [0x01, 0x05, 0xA7, 0x02, 0xF4, 0x03, 0xF5, 0xFE] := by decide
/-- Chapter 15, the example after R476: the credits of three active functions of weights 100, 300 and 100. -/
theorem test_credits_example : creditsFor 3 500 300 = 9817 ∧ creditsFor 3 500 100 = 3283 ∧ creditsFor 3 300 100 = 5461 := by decide
/-- Chapter 19, the example after R589: three register addresses. -/
theorem test_register_addresses : rMedChStatus 2 5 = 0xE80054 ∧ rDmaChan 60 + 4 = 0x601F04 ∧ rMbx 0x105 + 0x84 = 0x2118584 := by decide

theorem witness_ModeTransitions_1 : ∃ (s : State) (w : Who) (m : Mode), s.adminReady w = true ∧ isManager w.fn = true ∧ s.power.effective ≠ .hibernate ∧ m ≠ .sprint ∧ m ≠ .hibernate ∧ s.power.effective ≠ m ∧ s.power.emberAuto = false ∧ s.power.transition = none ∧ s.power.waiting = [] :=
  ⟨on, adm, .endure, by decide +kernel⟩

theorem witness_ModeTransitions_2 : ∃ (s : State) (x : Transition), s.running = true ∧ s.power.transition = some x ∧ x.target ≠ .hibernate ∧ s.power.waiting = [] :=
  ⟨{ on with power := { on.power with transition := some ⟨.ember, 4, 4, none⟩ } }, ⟨.ember, 4, 4, none⟩, by decide +kernel⟩

theorem witness_ModeTransitions_3 : ∃ (s : State) (w : Who), s.adminReady w = true ∧ isManager w.fn = true ∧ s.power.k ≤ 60000 ∧ s.power.lastCause < 9 :=
  ⟨on, adm, by decide +kernel⟩

theorem witness_SprintAndHibernate_1 : ∃ (s : State) (ilim : Bool), s.sys.phase ≠ .off ∧ s.power.effective = .sprint ∧ s.power.transition = none :=
  ⟨{ on with power := { on.power with effective := .sprint } }, true, by decide +kernel⟩

theorem witness_SprintAndHibernate_2 : ∃ (s : State), s.running = true ∧ s.power.effective = .sprint ∧ s.power.transition = none ∧ (60000 ≤ s.power.t ∨ s.power.k = 0) :=
  ⟨{ on with power := { on.power with effective := .sprint, t := 60000 } }, by decide +kernel⟩

theorem witness_SprintAndHibernate_3 : ∃ (s : State), s.running = true ∧ s.power.effective = .sprint ∧ s.power.transition = none :=
  ⟨{ on with power := { on.power with effective := .sprint } }, by decide +kernel⟩

theorem witness_SprintAndHibernate_4 : ∃ (s : State) (h : HibernateEntry), s.running = true ∧ s.power.hibEntry = some h ∧ s.ftl.slots = [] ∧ s.str.stripes = [] ∧ s.health.writing = false ∧ s.str.rebuild = none ∧ reshapeBusy s = false :=
  ⟨{ on with power := { on.power with hibEntry := some ⟨adm, .balanced⟩ } }, ⟨adm, .balanced⟩, by decide +kernel⟩

theorem witness_SprintAndHibernate_5 : ∃ (s : State), s.running = true ∧ s.power.effective = .hibernate ∧ s.power.waking = none :=
  ⟨{ on with power := { on.power with effective := .hibernate } }, by decide +kernel⟩

theorem witness_SprintAndHibernate_6 : ∃ (s : State), s.power.waking = some .link ∧ s.power.keptDoorbells = [] ∧ s.power.waiting = [] ∧ s.media.luns = [] ∧ s.power.beforeHib ≠ .sprint ∧ (∀ x, hottest s = some x → x < 500) :=
  ⟨{ on with power := { on.power with effective := .hibernate, waking := some .link } }, by simp [hottest, on, State.reset, Power.reset, Media.reset]⟩

theorem witness_TrailsBind_1 : ∃ (s v : State) (w : Who) (descLen : Nat) (slm : Option (Nat × Nat)) (addr : Nat) (hv : HostView) (c : Checked) (i : Nat), s.ioReady w = true ∧ s.up .engine = true ∧ s.asClass w 6 = v ∧ checkSubmit v w.fn descLen slm addr hv = .ok c ∧ admissionWait v w.fn c.trail = false ∧ freeFlow s = some i :=
  ⟨on, on.asClass io 6, io, 256, none, 0x100, submitView, ⟨trailA, none, []⟩, 0, by decide +kernel⟩

theorem witness_TrailsBind_2 : ∃ (s : State) (w : Who) (x : WaitingTrail) (i : Nat), s.ioReady w = true ∧ s.up .engine = true ∧ (s.disp.waiting.find? (fun y => y.who = w) = some x) ∧ x.execBy = false ∧ admissionState s w.fn x.trail = none ∧ admissionKeys s x.trail x.blob = none ∧ admissionWait s w.fn x.trail = false ∧ admissionWait { s with disp := { s.disp with waiting := s.disp.waiting.erase x } } w.fn x.trail = false ∧ freeFlow s = some i :=
  ⟨{ on with disp := { Disp.reset with waiting := [⟨io, trailA, none, [], false⟩] } }, io, ⟨io, trailA, none, [], false⟩, 0, by decide +kernel⟩

theorem witness_TrailsBind_3 : ∃ (i : Nat) (x : Flow), i < 4096 ∧ x.generation < 2 ^ 20 :=
  ⟨4095, { flowA with generation := 1048575 }, by decide +kernel⟩

theorem witness_TrailsBind_4 : ∃ (s : State) (w : Who) (id : W32) (wait : Bool), s.ioReady w = true ∧ namedFlow s w.fn id = none :=
  ⟨on, io, 5, true, by decide +kernel⟩

theorem witness_TrailsBind_5 : ∃ (s : State) (w : Who) (id : W32) (i : Nat) (x : Flow), s.ioReady w = true ∧ namedFlow s w.fn id = some (i, x) ∧ x.bound = true :=
  ⟨flowing flowA [], io, 0x1000, 0, flowA, by decide +kernel⟩

theorem witness_TrailsBind_6 : ∃ (s : State) (w : Who) (id : W32) (i : Nat) (x : Flow), s.ioReady w = true ∧ namedFlow s w.fn id = some (i, x) ∧ x.bound = false :=
  ⟨flowing { flowA with bound := false } [], io, 0x1000, 0, { flowA with bound := false }, by decide +kernel⟩

theorem witness_TrailsBind_7 : ∃ (s : State) (w : Who) (i : Nat) (x : Flow), s.ioReady w = true ∧ ((s.disp.flows.find? fun e => w ∈ e.2.queries) = some (i, x)) ∧ x.bound = true :=
  ⟨flowing { flowA with queries := [io] } [], io, 0, { flowA with queries := [io] }, by decide +kernel⟩

theorem witness_ChunksFlow_1 : ∃ (s : State) (i c : Nat) (hv : HostView) (f : Flow), s.running = true ∧ s.up .engine = true ∧ s.boundFlow i = some f ∧ f.freeSlot = some c ∧ mayIssue s f = true ∧ sglEnd f hv = none :=
  ⟨flowing flowA [], 0, 0, [], flowA, by decide +kernel⟩

theorem witness_ChunksFlow_2 : ∃ (s : State) (i c total : Nat) (hv : HostView) (f : Flow), s.running = true ∧ s.up .engine = true ∧ s.boundFlow i = some f ∧ f.freeSlot = some c ∧ mayIssue s f = true ∧ sglEnd f hv = some total :=
  ⟨flowing flowSgl [], 0, 0, 4096, sglView, flowSgl, by decide +kernel⟩

theorem witness_ChunksFlow_3 : ∃ (s : State) (i : Nat) (f : Flow), s.running = true ∧ s.up .engine = true ∧ s.boundFlow i = some f ∧ mayEnd s i f = true :=
  ⟨flowing { flowA with issued := 1, retired := 1, lastIssued := true } [], 0, { flowA with issued := 1, retired := 1, lastIssued := true }, by decide +kernel⟩

theorem witness_ChunksFlow_4 : ∃ (s t : State) (i : Nat) (hv : HostView) (f x : Flow), s.boundFlow i = some f ∧ f.issued - f.retired ≤ Trail.credit f.trail :=
  ⟨flowing { flowA with issued := 31 } [], stateOf (exec (.chunkIssue 0 []) (flowing { flowA with issued := 31 } [])), 0, [], { flowA with issued := 31 }, ((stateOf (exec (.chunkIssue 0 []) (flowing { flowA with issued := 31 } []))).flow 0).getD flowA, by decide +kernel⟩

theorem witness_CreditsAndGrants_1 : ∃ (s : State) (i stage c : Nat) (f : Flow) (e : Task), dispatching s = true ∧ s.boundFlow i = some f ∧ s.entry i stage c = some e ∧ mayGrant s f e = true :=
  ⟨flowing { flowA with issued := 1, unretired := [(0, 0)] } [entryA 1], 0, 1, 0, { flowA with issued := 1, unretired := [(0, 0)] }, entryA 1, by decide +kernel⟩

theorem witness_CreditsAndGrants_2 : ∃ (s : State) (i c : Nat) (f : Flow) (e : Task) (place : Placement) (nsid slba extent slot a k rest : Nat) (n : Ns), dispatching s = true ∧ s.boundFlow i = some f ∧ flowGoes s f = true ∧ s.entry i (Trail.sinkIx f.trail) c = some e ∧ Trail.stageAt f.trail (Trail.sinkIx f.trail) = some (.lbaSink place nsid slba extent slot) ∧ wantsGrant e = true ∧ s.ns.find nsid = some n ∧ lbaExtent n e place slba extent slot (lbaPlan s f n e place extent slot) = (a, k, rest) :=
  ⟨flowing sinkFlow [sinkEntry], 0, 0, sinkFlow, sinkEntry, .direct, 1, 0, 1, 0, 0, 0, 0, nsA, by decide +kernel⟩

theorem witness_TasksRun_1 : ∃ (s u : State) (i stage c q b : Nat) (f : Flow) (e : Task) (st : Stage), dispatching s = true ∧ flowGoes s f = true ∧ s.boundFlow i = some f ∧ s.entry i stage c = some e ∧ isEntry i stage c e = true ∧ Trail.stageAt f.trail stage = some st ∧ e.ready = true ∧ hmacCleared s f e = false ∧ e.empty = false ∧ makesOutput st = true ∧ fireQueue s f e st = some q ∧ queueTakes s e st.cls q = true ∧ s.allocBuf = some (b, u) :=
  ⟨flowing flowA [entryA 1], stateOfBuf (flowing flowA [entryA 1]), 0, 1, 0, 0, 0, flowA, entryA 1, .reshuffle 0 2 0 0, by decide +kernel⟩

theorem witness_TasksRun_2 : ∃ (s u : State) (cls : UnitClass) (unit : Nat) (x : Task), s.startTransfers = u ∧ dispatching u = true ∧ cls ≠ .media ∧ unitDown u cls unit = none ∧ unitServes u cls unit = true ∧ unitIdle u cls unit = true ∧ (⟨cls, 0⟩ : UnitReset) ∉ u.disp.resetting ∧ (candidates u cls unit).find? (suits u cls unit) = some x :=
  ⟨queued, queued.startTransfers, .dma, 0, entryA 1, by decide +kernel⟩

theorem witness_TasksRun_3 : ∃ (s : State) (i stage c op un n w : Nat) (hv : HostView) (f : Flow) (r : Running) (e : Task), dispatching s = true ∧ ((s.disp.running.find? fun x => isEntry i stage c x.task) = some r) ∧ s.boundFlow r.task.flow = some f ∧ s.boundFlow i = some f ∧ s.taskStage r.task = some (.reshuffle op un n w) ∧ s.entry r.task.flow (r.task.stage + 1) r.task.cslot = some e ∧ e.discard = false ∧ isEntry r.task.flow (r.task.stage + 1) r.task.cslot e = true ∧ f.generation % 16 = r.task.gen % 16 :=
  ⟨handing, 0, 1, 0, 0, 2, 0, 0, [], flowA, ⟨.dma, 0, { entryA 1 with out := some 1 }, 0, none⟩, { entryA 2 with arrived := 0 }, by decide +kernel⟩

theorem witness_TasksRun_4 : ∃ (s : State) (cls : UnitClass) (unit : Nat) (r : Running), dispatching s = true ∧ isEngine cls = false ∧ ((s.disp.running.find? fun x => decide (x.cls = cls) && decide (x.unit = unit)) = some r) :=
  ⟨{ on with disp := { (flowing sinkFlow []).disp with running := [⟨.wbuf, 0, sinkEntry, 0, none⟩] } }, .wbuf, 0, ⟨.wbuf, 0, sinkEntry, 0, none⟩, by decide +kernel⟩

theorem witness_TasksRun_5 : ∃ (s : State), dispatching s = true ∧ s.regBit rDspCtl 16 = true ∧ s.disp.suspects = [] :=
  ⟨{ flowing flowA [entryA 1] with regs := { Regs.reset with val := [(rDspCtl, 0x10000)] } }, by decide +kernel⟩

theorem witness_TasksRun_6 : ∃ (s : State) (h : Nat) (q : UnitClass × Nat × Task), computing s = true ∧ h < 64 ∧ (s.hart h).squirrel = none ∧ ((s.disp.queues.find? fun q => decide (q.1 = .hart) && decide (q.2.1 = h / 8)) = some q) :=
  ⟨{ kern none with disp := { (kern none).disp with queues := [(.hart, 0, entryA 1)] } }, 0, (.hart, 0, entryA 1), by decide +kernel⟩

theorem witness_TasksRun_7 : ∃ (s : State) (h : Nat) (x : SlotTask), computing s = true ∧ h < 64 ∧ (s.hart h).kernel = none ∧ (s.hart h).resetting = false ∧ (s.hart h).squirrel = some x :=
  ⟨{ kern none with hrt := { (kern none).hrt with harts := [(63, { Hart.reset with squirrel := some ⟨entryA 1, [], []⟩ })] } }, 63, ⟨entryA 1, [], []⟩, by decide +kernel⟩

theorem witness_KernelExits_1 : ∃ (s u : State) (h p : Nat) (run : KernelRun) (k0 k : Kernel) (r : KernelRec) (f : Flow), runningKernel s h = some k0 ∧ s.recordOfKernel k0 = some r ∧ s.flow k0.task.flow = some f ∧ (s.kernelRuns h run).callMade h k0 = u ∧ (u.hart h).kernel = some k ∧ exitLength r f.trail.recordSize (regX run.regs 10).toNat k.high = some p :=
  ⟨kern (some kernA), calledWith exitRun, 0, 2, exitRun, kernA, kernelIn (calledWith exitRun), kernelRec, flowK, by decide +kernel⟩

theorem witness_KernelExits_2 : ∃ (s u : State) (h : Nat) (run : KernelRun) (k0 k : Kernel) (r : KernelRec) (f : Flow), runningKernel s h = some k0 ∧ s.recordOfKernel k0 = some r ∧ s.flow k0.task.flow = some f ∧ (s.kernelRuns h run).callMade h k0 = u ∧ (u.hart h).kernel = some k ∧ r.outWindow < (regX run.regs 10).toNat :=
  ⟨kern (some kernA), calledWith longExit, 0, longExit, kernA, kernelIn (calledWith longExit), kernelRec, flowK, by decide +kernel⟩

theorem witness_KernelExits_3 : ∃ (s : State) (h used : Nat) (lost : Option Nat) (k : Kernel) (bs : List Byte), computing s = true ∧ h < 64 ∧ (s.hart h).kernel = some k ∧ k.phase = .writeback bs used :=
  ⟨kern (some { kernA with phase := .writeback [1] 5 }), 0, 5, some 0, { kernA with phase := .writeback [1] 5 }, [1], by decide +kernel⟩

theorem witness_KernelExits_4 : ∃ (r : KernelRec) (rs outLen high p : Nat), 0 < rs ∧ exitLength r rs outLen high = some p :=
  ⟨{ kernelRec with outRecords := true }, 8, 64, 60, 56, by decide +kernel⟩

theorem witness_KernelFailures_1 : ∃ (s : State) (h cause m kern a : Nat) (b : List Byte) (code : W32) (pc addr : W64) (k : Kernel) (f : Flow), s.flow k.task.flow = some f ∧ s.taskStage k.task = some (.program m kern a b) ∧ s.regFld rHrtFaultHead 5 0 < 64 :=
  ⟨kern (some kernA), 0, 1, 0, 0, 0, [], 0, 0, 0, kernA, flowK, by decide +kernel⟩

theorem witness_KernelFailures_2 : ∃ (s : State) (h c : Nat) (run : KernelRun) (trap : KernelTrap) (code : W32) (addr : W64) (k : Kernel), runningKernel s h = some k ∧ trapCause s k trap = some (c, code, addr) :=
  ⟨kern (some kernA), 0, 6, ran [] [], .ecall 7, 0, 0, kernA, by decide +kernel⟩

theorem witness_KernelFailures_5 : ∃ (s : State) (h : Nat) (run : KernelRun) (k : Kernel), runningKernel s h = some k :=
  ⟨kern (some kernA), 0, ran [(10, 7)] [], kernA, by decide +kernel⟩

theorem witness_KernelFailures_6 : ∃ (s : State) (h : Nat) (run : KernelRun) (k : Kernel), computing s = true ∧ h < 64 ∧ (s.hart h).kernel = some k ∧ k.phase = .run :=
  ⟨kern (some kernA), 0, ran [] [], kernA, by decide +kernel⟩

theorem witness_KernelFailures_7 : ∃ (s : State) (h : Nat) (k : Kernel), computing s = true ∧ h < 64 ∧ (s.hart h).kernel = some k ∧ k.phase = .stopping :=
  ⟨kern (some { kernA with phase := .stopping }), 0, { kernA with phase := .stopping }, by decide +kernel⟩

theorem witness_KernelFailures_8 : ∃ (s : State) (h : Nat), resetsWithin s 1 .compute h tSec < 3 :=
  ⟨on, 3, by decide +kernel⟩

theorem witness_KernelFailures_9 : ∃ (s : State) (h : Nat), computing s = true ∧ h < 64 ∧ (s.hart h).resetting = true ∧ s.sys.phase = .running ∧ resetsWithin s 2 .compute 0xFF (60 * tSec) < 2 ∧ .compute ∉ s.sys.down :=
  ⟨{ on with hrt := { Hrt.reset with harts := [(3, { Hart.reset with resetting := true })] } }, 3, by decide +kernel⟩

theorem witness_MonitorCallsReturn_1 : ∃ (s : State) (h : Nat) (run : KernelRun) (k : Kernel), runningKernel s h = some k ∧ k.calling = false :=
  ⟨kern (some kernA), 0, ran [] [], kernA, by decide +kernel⟩

theorem witness_MonitorCallsReturn_2 : ∃ (s u : State) (h us : Nat) (run : KernelRun) (k0 k : Kernel) (m : Module) (r : KernelRec) (f : Flow) (table : Nat) (key : List Byte), runningKernel s h = some k0 ∧ s.taskProgram k0.task = some (m, r, us) ∧ s.flow k0.task.flow = some f ∧ (s.kernelRuns h run).callMade h k0 = u ∧ (u.hart h).kernel = some k ∧ searchAsk u k f m r (regX run.regs 10).toNat (regX run.regs 11).toNat (regX run.regs 12).toNat = .ok (table, key) :=
  ⟨searchState, searchCall, 0, 0, searchRun, kernA, kernelIn searchCall, moduleA, kernelRec, flowK, 1, [1, 2, 3, 4, 5, 6, 7, 8], by decide +kernel⟩

theorem witness_MonitorCallsReturn_3 : ∃ (s u : State) (h us : Nat) (run : KernelRun) (k0 k : Kernel) (m : Module) (r : KernelRec) (f : Flow) (e : W64), runningKernel s h = some k0 ∧ s.taskProgram k0.task = some (m, r, us) ∧ s.flow k0.task.flow = some f ∧ (s.kernelRuns h run).callMade h k0 = u ∧ (u.hart h).kernel = some k ∧ searchAsk u k f m r (regX run.regs 10).toNat (regX run.regs 11).toNat (regX run.regs 12).toNat = .error e :=
  ⟨kernDumb, dumbCall, 0, 0, searchRun, kernA, kernelIn dumbCall, { moduleA with kernels := [{ kernelRec with mayLynx := false }] }, { kernelRec with mayLynx := false }, flowK, errDenied, by decide +kernel⟩

theorem witness_MonitorCallsReturn_5 : ∃ (s u : State) (h table c : Nat) (key : List Byte) (seen : UnitSeen) (k : Kernel) (x : LynxTable) (a : Option Nat), computing s = true ∧ h < 64 ∧ queueFillOf s .lynx 0 < queueRoom .lynx ∧ s.lynx.restoring = false ∧ (s.hart h).kernel = some k ∧ k.phase = .run ∧ k.search = some (table, key) ∧ s.lynxTable table = some x ∧ x.faulted = false ∧ (∀ st, seen ≠ .error st) ∧ (freeCopy s table x.copies (fun t => (s.taskStage t).any Stage.isInsert) = some c) ∧ s.searchCall table c (softOf seen) key = (u, a) :=
  ⟨searching lynxA, ((searching lynxA).searchCall 1 0 [] keyA).1, 0, 1, 0, keyA, .good, { kernA with search := some (1, keyA) }, tableA, ((searching lynxA).searchCall 1 0 [] keyA).2, ⟨by decide +kernel, by decide +kernel, by decide +kernel, by decide +kernel, by decide +kernel, by decide +kernel, by decide +kernel, by decide +kernel, by decide +kernel, fun st => by simp, by decide +kernel, by rfl⟩⟩

theorem witness_MonitorCallsReturn_6 : ∃ (s : State) (table c : Nat) (key : List Byte) (x : LynxTable), s.lynxTable table = some x :=
  ⟨{ on with lynx := lynxA }, 1, 0, keyA, tableA, by decide +kernel⟩

theorem witness_MonitorCallsReturn_7 : ∃ (s u : State) (h us i : Nat) (run : KernelRun) (hv : HostView) (k0 k : Kernel) (m : Module) (r : KernelRec) (f : Flow) (tr : Trail) (c : Checked), runningKernel s h = some k0 ∧ s.taskProgram k0.task = some (m, r, us) ∧ s.flow k0.task.flow = some f ∧ r.maySubmit = true ∧ (s.kernelRuns h run).callMade h k0 = u ∧ (u.hart h).kernel = some k ∧ inScratch r (regX run.regs 10).toNat (regX run.regs 11).toNat = true ∧ (checkDescriptor u f.owner true (regX run.regs 11).toNat ((List.range (regX run.regs 11).toNat).map fun i => kernelByte u m k ((regX run.regs 10).toNat + i)) = .ok tr) ∧ checkTrail u f.owner hv tr = .ok c ∧ contextWait u f.owner = false ∧ hmacWait u c.trail = false ∧ nonceWait u c.trail = false ∧ freeFlow s = some i :=
  ⟨kern (some kernA), submitCall, 0, 0, 1, submitRun, [], kernA, kernelIn submitCall, moduleA, kernelRec, flowK, trailS, ⟨trailS, none, []⟩, by decide +kernel⟩

theorem witness_ModulesAndClusters_1 : ∃ (s : State) (w : Who) (cdw10 cdw11 : W32) (img : List Byte) (v : Nat) (f : Fn), s.adminReady w = true ∧ 0 < cdw10.toNat ∧ cdw10.toNat ≤ 25165824 ∧ fld cdw11 3 0 = 0 ∧ loadVisibility s w.fn cdw11 = some (v, f) ∧ img.length = cdw10.toNat ∧ imageLength img = img.length ∧ headerReason img = 0 ∧ s.hrt.loads = [] :=
  ⟨on, adm, 7700, 0x200, imageA, 2, 0, by decide +kernel⟩

theorem witness_ModulesAndClusters_2 : ∃ (s : State) (l : Load) (rest : List Load), s.running = true ∧ s.hrt.loads = l :: rest ∧ l.step = 2 :=
  ⟨{ on with hrt := { Hrt.reset with loads := [⟨adm, false, 0, [], 0, 0, 2⟩] } }, ⟨adm, false, 0, [], 0, 0, 2⟩, [], by decide +kernel⟩

theorem witness_ModulesAndClusters_3 : ∃ (s : State) (l : Load) (rest : List Load), s.running = true ∧ s.hrt.loads = l :: rest ∧ l.step = 3 :=
  ⟨{ on with hrt := { Hrt.reset with loads := [⟨adm, false, 0, [], 0, 0, 3⟩] } }, ⟨adm, false, 0, [], 0, 0, 3⟩, [], by decide +kernel⟩

theorem witness_ModulesAndClusters_4 : ∃ (s : State) (w : Who) (m : Nat) (x : Module), s.adminReady w = true ∧ s.module m = some x ∧ (w.fn = x.loader ∨ w.fn = managerFn (portOfFn x.loader)) :=
  ⟨kern none, adm, 0, moduleA, by decide +kernel⟩

theorem witness_ModulesAndClusters_5 : ∃ (s : State) (m : Nat) (x : Module), s.module m = some x ∧ x.removing = true ∧ moduleTrails s m = [] ∧ x.forced = [] ∧ s.running = true ∧ s.appendRoom = true :=
  ⟨{ on with hrt := { Hrt.reset with modules := [(255, { moduleA with st := .unloading, removing := true })] } }, 255, { moduleA with st := .unloading, removing := true }, by decide +kernel⟩

theorem witness_ModulesAndClusters_6 : ∃ (s : State) (w : Who) (cdw10 : W32) (data : List Byte), s.adminReady w = true ∧ isManager w.fn = true ∧ cdw10.toNat = 2080 ∧ data.length = 2080 ∧ leAt data 0 2 < 32 ∧ leAt data 2 2 = 1952 ∧ leAt data 4 2 = 97 ∧ leAt data 6 2 = 0 ∧ (∀ b ∈ slice data 0x819 7, b = 0) ∧ s.hrt.authorities.find (leAt data 0 2) = none ∧ s.appendRoom = true ∧ s.hrt.loads = [] :=
  ⟨on, adm, 2080, enrolData, by decide +kernel⟩

theorem witness_ModulesAndClusters_7 : ∃ (s : State) (r : Requester) (v : W32), s.barReaches r rHrtCtl = true :=
  ⟨on, .portA, 0x80000001, by decide +kernel⟩

theorem witness_MediaChannels_1 : ∃ (s : State) (c r : Nat), (s.channel c).trying = some r ∧ s.up (mediaIsland (c / 8)) = true ∧ (s.channel c).retraining = false :=
  ⟨chanWith { Channel.reset with trying := some 4, temp := some 30 }, 1, 4, by decide +kernel⟩

theorem witness_MediaChannels_2 : ∃ (s : State) (c r : Nat), (s.channel c).trying = some (r + 2) ∧ s.up (mediaIsland (c / 8)) = true :=
  ⟨chanWith { Channel.reset with trying := some 4 }, 1, 2, by decide +kernel⟩

theorem witness_MediaChannels_3 : ∃ (s : State) (c : Nat), (s.channel c).trying = some 1 ∧ s.up (mediaIsland (c / 8)) = true :=
  ⟨chanWith { Channel.reset with trying := some 1 }, 1, by decide +kernel⟩

theorem witness_MediaChannels_4 : ∃ (s : State) (c : Nat), (s.channel c).retraining = true ∧ (s.channel c).trying = none ∧ s.up (mediaIsland (c / 8)) = true :=
  ⟨chanWith { Channel.reset with online := true, rate := 4, retraining := true, retrains := 255, temp := some 5 }, 1, by decide +kernel⟩

theorem witness_MediaChannels_5 : ∃ (s : State) (c : Nat) (t0 : Int) (rest : List Int), (s.channel c).online = true ∧ s.up (mediaIsland (c / 8)) = true ∧ rest.length < 8 :=
  ⟨chanWith { Channel.reset with online := true }, 1, 7, [9, 3], by decide +kernel⟩

theorem witness_MediaChannels_6 : ∃ (old : Option Nat) (t : Int), (∀ b, old = some b → b ≤ 15) :=
  ⟨none, 5, by intro b h; cases h⟩

theorem witness_MediaChannels_7 : ∃ (t : Int), -40 ≤ t ∧ t < 120 :=
  ⟨119, by decide +kernel⟩

theorem witness_MediaChannels_8 : ∃ (b : Nat) (t : Int), 10 * (b : Int) - 42 < t ∧ t < 10 * (b : Int) - 28 :=
  ⟨3, -11, by decide +kernel⟩

theorem witness_MediaChannels_9 : ∃ (b : Nat) (t : Int), (t ≤ 10 * (b : Int) - 42 ∨ 10 * (b : Int) - 28 ≤ t) :=
  ⟨3, -12, by decide +kernel⟩

theorem witness_MediaChannels_10 : ∃ (s : State) (l : Nat) (ws : List MediaCmd), s.running = true ∧ lunServes s l = true ∧ (s.lun l).active = ws ∧ ws ≠ [] ∧ ws.any MediaCmd.isRead = false ∧ (s.lun l).suspended = [] ∧ readDue (s.lun l) = true ∧ ranEnough s l = true ∧ s.regBit (rMedCtl (lunIsland l)) 16 = true :=
  ⟨(fun x : State => { x with sys := { x.sys with ticks := 1000000000000 } }) (lunWith 0 { Lun.reset with active := [progCmd], queue := [readCmd] }), 0, [progCmd], by decide +kernel⟩

theorem witness_MediaChannels_11 : ∃ (s : State) (l : Nat), (s.lun l).suspended ≠ [] :=
  ⟨lunWith 0 { Lun.reset with suspended := [progCmd] }, 0, by decide +kernel⟩

theorem witness_MediaChannels_12 : ∃ (s : State) (l : Nat) (c : MediaCmd) (before after : List MediaCmd), (s.lun l).queue = before ++ c :: after ∧ c.cls = 4 ∧ c.aged = false ∧ (∀ x ∈ before, x.cls ≠ 4) :=
  ⟨lunWith 0 { Lun.reset with queue := [readCmd, progCmd] }, 0, progCmd, [readCmd], [], by decide +kernel⟩

theorem witness_SensesAndDecodes_1 : ∃ (s : State) (l : Nat) (c : MediaCmd), (s.lun l).active = [c] ∧ c.isRead = true :=
  ⟨reading { Lun.reset with active := [readCmd] }, 0, readCmd, by decide +kernel⟩

theorem witness_SensesAndDecodes_2 : ∃ (s : State) (x : Lun) (c : MediaCmd) (cl : ReadClient) (cws : List CwState), c.op = .read cl cws ∧ clientWaits s cl = true :=
  ⟨reading Lun.reset, Lun.reset, readCmd, .host io, [⟨0, 1, 0, 0, 0⟩], by decide +kernel⟩

theorem witness_SensesAndDecodes_3 : ∃ (s : State) (l cw n : Nat) (c : MediaCmd) (cl : ReadClient) (w : CwState), ladderAt (s.lun l) cw true = some (c, cl, w) ∧ channelCarries s (l / 64) = true ∧ iterationsOk w.step n = true ∧ w.step = 1 :=
  ⟨reading { Lun.reset with decoding := [readCmd] }, 0, 0, 20, readCmd, .host io, ⟨0, 1, 0, 0, 0⟩, by decide +kernel⟩

theorem witness_SensesAndDecodes_5 : ∃ (s : State) (l cw : Nat) (c : MediaCmd) (cl : ReadClient) (w v : CwState), ladderAt (s.lun l) cw true = some (c, cl, w) ∧ channelCarries s (l / 64) = true ∧ w.next (retryList s w.hint).length = some v :=
  ⟨reading { Lun.reset with decoding := [readCmd] }, 0, 0, readCmd, .host io, ⟨0, 1, 0, 0, 0⟩, ⟨0, 2, 1, 1, 0⟩, by decide +kernel⟩

theorem witness_SensesAndDecodes_6 : ∃ (s : State) (l cw : Nat) (c : MediaCmd) (cl : ReadClient) (w : CwState), ladderAt (s.lun l) cw true = some (c, cl, w) ∧ channelCarries s (l / 64) = true ∧ w.next (retryList s w.hint).length = none :=
  ⟨reading { Lun.reset with decoding := [{ readCmd with op := .read (.host io) [⟨0, 4, 0, 0, 0⟩] }] }, 0, 0, { readCmd with op := .read (.host io) [⟨0, 4, 0, 0, 0⟩] }, .host io, ⟨0, 4, 0, 0, 0⟩, by decide +kernel⟩

theorem witness_SensesAndDecodes_7 : ∃ (s : State) (l cw : Nat) (c : MediaCmd) (cl : ReadClient) (w : CwState), ladderAt (s.lun l) cw false = some (c, cl, w) :=
  ⟨reading { Lun.reset with decoding := [readCmd] }, 0, 0, readCmd, .host io, ⟨0, 1, 0, 0, 0⟩, by decide +kernel⟩

theorem witness_SensesAndDecodes_9 : ∃ (s : State) (l : Nat) (c : MediaCmd) (cl : ReadClient) (cws : List CwState), (((s.lun l).queue.find? fun c => c.direct && wholeStripe s l c) = some c) ∧ c.op = .read cl cws :=
  ⟨{ reading { Lun.reset with queue := [readCmd] } with ftl := { on.ftl with reads := [jobA], bands := [(7, bandA)] } }, 0, readCmd, .host io, [⟨0, 1, 0, 0, 0⟩], by decide +kernel⟩

theorem witness_ProgramsErasesAndLevels_1 : ∃ (s : State) (l b j p : Nat) (c : MediaCmd) (rest : List MediaCmd), (s.lun l).active = c :: rest ∧ c.op = .program b j p :=
  ⟨lunWith 0 { Lun.reset with active := [progCmd] }, 0, 7, 0, 0, progCmd, [], by decide +kernel⟩

theorem witness_ProgramsErasesAndLevels_3 : ∃ (s : State) (l copy : Nat) (ps : List Nat) (c : MediaCmd) (rest : List MediaCmd), (s.lun l).active = c :: rest ∧ c.op = .dump copy ps :=
  ⟨lunWith 0 { Lun.reset with active := [{ progCmd with op := .dump 0 [0] }] }, 0, 0, [0], { progCmd with op := .dump 0 [0] }, [], by decide +kernel⟩

theorem witness_ProgramsErasesAndLevels_4 : ∃ (s : State) (l : Nat) (band : Option Nat) (c : MediaCmd) (rest : List MediaCmd), (s.lun l).active = c :: rest ∧ c.op = .erase band :=
  ⟨lunWith 0 { Lun.reset with active := [eraseCmd] }, 0, none, eraseCmd, [], by decide +kernel⟩

theorem witness_ProgramsErasesAndLevels_5 : ∃ (s : State) (l : Nat), (s.lun l).active ≠ [] :=
  ⟨lunWith 0 { Lun.reset with active := [eraseCmd] }, 0, by decide +kernel⟩

theorem witness_ProgramsErasesAndLevels_6 : ∃ (s : State) (l : Nat), (s.failLun l 2).lun l ≠ s.lun l :=
  ⟨lunWith 0 { Lun.reset with active := [eraseCmd] }, 0, by decide +kernel⟩

theorem witness_ProgramsErasesAndLevels_7 : ∃ (s : State) (r : Requester) (i : Nat) (v : W32), i < 4 ∧ s.barReaches r (rMedUcalCommit i) = true ∧ bitAt v 0 = true ∧ s.locked (rMed i) = false ∧ bitAt v 30 = false :=
  ⟨on, .portA, 3, 1, by decide +kernel⟩

theorem witness_ProgramsErasesAndLevels_8 : ∃ (s : State) (i : Nat), i ∈ s.media.committing ∧ sysWaits s (.commit i) = false :=
  ⟨{ on with media := { on.media with committing := [2], staged := [(2 * 8192, 5)] } }, 2, by decide +kernel⟩

theorem witness_ProgramsErasesAndLevels_9 : ∃ (s : State) (i : Nat), i ∈ s.media.committing ∧ sysWaits s (.commit i) = false :=
  ⟨{ on with media := { on.media with committing := [2], staged := [(2 * 8192, 5)] } }, 2, by decide +kernel⟩

theorem witness_ProgramsErasesAndLevels_10 : ∃ (s : State) (copy l : Nat) (more : List Nat), copy ∈ s.media.moving ∧ sysWaits s (.move copy) = false ∧ systemCandidates s (s.media.systemLun.getD copy 0) = l :: more :=
  ⟨{ on with media := { on.media with moving := [0] } }, 0, (systemCandidates on 0).headD 0, (systemCandidates on 0).tail, by decide +kernel⟩

theorem witness_NvmCommandsEnter_1 : ∃ (s v : State) (w : Who) (nsid slba nlb : Nat) (n : Ns), s.ioReady w = true ∧ s.asClass w 1 = v ∧ v.nvmGate w.fn nsid slba nlb true true = .ok n ∧ v.writeFails n { who := w, kind := .nvm, nsid := nsid, slba := slba, nlb := nlb } = none :=
  ⟨on, on.asClass io 1, io, 1, 255, 1, nsA, by decide +kernel⟩

theorem witness_NvmCommandsEnter_2 : ∃ (s : State) (w : Who) (nsid slba nlb : Nat) (n : Ns), s.ioReady w = true ∧ s.nvmGate w.fn nsid slba nlb true false = .ok n ∧ s.writeFails n { who := w, kind := .zeroes, nsid := nsid, slba := slba, nlb := nlb } = none :=
  ⟨on, io, 1, 0, 256, nsA, by decide +kernel⟩

theorem witness_NvmCommandsEnter_3 : ∃ (s v : State) (w : Who) (nsid slba nlb : Nat) (n : Ns), s.ioReady w = true ∧ s.asClass w 0 = v ∧ v.nvmGate w.fn nsid slba nlb false true = .ok n ∧ v.up .mem = true ∧ segBusy v (iusOf n slba nlb) = false :=
  ⟨on, on.asClass io 0, io, 1, 255, 1, nsA, by decide +kernel⟩

theorem witness_NvmCommandsEnter_4 : ∃ (s : State) (w : Who) (nsid slba nlb : Nat) (n : Ns) (data : List Byte), s.ioReady w = true ∧ s.nvmGate w.fn nsid slba nlb false true = .ok n ∧ s.up .mem = true ∧ segBusy s (iusOf n slba nlb) = false :=
  ⟨on, io, 1, 255, 1, nsA, zeros 4096, by decide +kernel⟩

theorem witness_NvmCommandsEnter_5 : ∃ (s : State) (w : Who) (nsid slba nlb : Nat) (n : Ns), s.ioReady w = true ∧ s.nvmGate w.fn nsid slba nlb false false = .ok n ∧ s.up .mem = true ∧ segBusy s (iusOf n slba nlb) = false :=
  ⟨on, io, 1, 0, 256, nsA, by decide +kernel⟩

theorem witness_NvmCommandsEnter_6 : ∃ (s : State) (w : Who), s.ioReady w = true :=
  ⟨on, io, by decide +kernel⟩

theorem witness_NvmCommandsEnter_7 : ∃ (s : State) (w : Who) (nsid slba nlb : Nat) (st : Status), s.ioReady w = true :=
  ⟨on, io, 1, 256, 1, stLbaRange, by decide +kernel⟩

theorem witness_NvmCommandsEnter_8 : ∃ (s : State) (w : Who) (nsid : Nat) (rs : List LbaRange) (n : Ns), s.ioReady w = true ∧ s.nsGate w.fn nsid .nvm = .ok n ∧ s.reserved w.fn n true = false ∧ rs.findSome? (rangeFails s n) = none :=
  ⟨{ on with ftl := { on.ftl with map := [(0, ⟨.media, 8, 0⟩), (1, ⟨.media, 8, 8⟩)] } }, io, 1, [⟨0, 1⟩], nsA, by decide +kernel⟩

theorem witness_WritesAreAdmitted_1 : ∃ (s : State) (x : WaitingWrite) (n : Ns), admitsWrites s = true ∧ pickWrite s s.ftl.waiting [] false = some (x, n) ∧ x.kind = .nvm :=
  ⟨{ on with ftl := { on.ftl with waiting := [waitA] } }, waitA, nsA, by decide +kernel⟩

theorem witness_WritesAreAdmitted_2 : ∃ (s : State) (w : Who) (data : List Byte) (a : AdmittedWrite) (n : Ns), s.running = true ∧ s.up .host = true ∧ s.up .mem = true ∧ ((s.ftl.admitted.find? fun a => a.who = w && !a.kind.isSink) = some a) ∧ s.ns.find a.nsid = some n ∧ a.kind = .nvm :=
  ⟨admitting, io, List.replicate 4096 3, admitA, nsA, by decide +kernel⟩

theorem witness_WritesAreAdmitted_3 : ∃ (s : State) (w : Who) (a : AdmittedWrite), s.running = true ∧ s.up .host = true ∧ s.up .mem = true ∧ ((s.ftl.admitted.find? fun a => a.who = w && !a.kind.isSink) = some a) :=
  ⟨admitting, io, admitA, by decide +kernel⟩

theorem witness_WritesAreAdmitted_4 : ∃ (s : State) (k : Nat) (x : Slot), s.slot k = some x ∧ s.running = true ∧ s.up .ctrl = true ∧ s.up .engine = true ∧ s.up .mem = true ∧ s.power.writesStopped = false ∧ x.acked = true ∧ x.flushing = false ∧ slotKeyed s x = true ∧ iuAwaited s x.iu = false :=
  ⟨{ on with ftl := { on.ftl with slots := [(0, slotX)], map := [(0, ⟨.buffer, 0, 0⟩)] } }, 0, slotX, by decide +kernel⟩

theorem witness_WritesAreAdmitted_5 : ∃ (s : State) (b j : Nat) (x : Stripe) (y : Band), s.stripe b j = some x ∧ s.band b = some y ∧ s.running = true ∧ s.up .ctrl = true ∧ s.power.writesStopped = false ∧ x.st = 1 ∧ y.fill / (16 * geomD y.geom) = j ∧ y.fill % (16 * geomD y.geom) ≠ 0 :=
  ⟨{ banded { bandA with st := .opened, fill := 16 * geomD 1 + 1 } with str := { on.str with stripes := [stripeA] } }, 7, 1, stripeA, { bandA with st := .opened, fill := 16 * geomD 1 + 1 }, by decide +kernel⟩

theorem witness_GarbageCollection_1 : ∃ (s : State) (e : Nat × Band), ((victims s).find? (fun e => e.2.refresh) = some e) :=
  ⟨banded { bandA with refresh := true }, (7, { bandA with refresh := true }), by decide +kernel⟩

theorem witness_GarbageCollection_2 : ∃ (s : State), (∀ e ∈ victims s, e.2.refresh = false) ∧ freeBelow s (thGcStart s) = false :=
  ⟨banded bandA, by decide +kernel⟩

theorem witness_GarbageCollection_3 : ∃ (s : State) (v : Nat), chooseVictim s = some v :=
  ⟨banded { bandA with refresh := true }, 7, by decide +kernel⟩

theorem witness_GarbageCollection_4 : ∃ (s : State) (v : Nat), s.running = true ∧ s.up .ctrl = true ∧ s.up .mem = true ∧ s.up .engine = true ∧ s.power.writesStopped = false ∧ s.ftl.victim = none ∧ s.ftl.segFirst = false ∧ chooseVictim s = some v ∧ (∀ r, s.str.rebuild = some r → r.band ≠ v) :=
  ⟨banded { bandA with refresh := true }, 7, by decide +kernel⟩

theorem witness_GarbageCollection_5 : ∃ (s : State) (v : Nat), s.running = true ∧ s.up .ctrl = true ∧ s.up .mem = true ∧ s.up .engine = true ∧ s.power.writesStopped = false ∧ s.ftl.victim = some v ∧ s.ftl.segFirst = false :=
  ⟨{ banded { bandA with refresh := true } with ftl := { (banded { bandA with refresh := true }).ftl with victim := some 7 } }, 7, by decide +kernel⟩

theorem witness_GarbageCollection_6 : ∃ (s : State) (v : Nat) (r : Rebuild), s.running = true ∧ s.up .ctrl = true ∧ s.up .mem = true ∧ s.up .engine = true ∧ s.power.writesStopped = false ∧ s.ftl.victim = none ∧ s.ftl.segFirst = false ∧ chooseVictim s = some v ∧ s.str.rebuild = some r ∧ r.band = v :=
  ⟨{ banded { bandA with refresh := true } with str := { on.str with rebuild := some ⟨7, 2, 3, 4, 0, 0⟩ } }, 7, ⟨7, 2, 3, 4, 0, 0⟩, by decide +kernel⟩

theorem witness_GarbageCollection_7 : ∃ (s : State) (es : List (Nat × Band)) (b v : Nat), greedyBand s es none = some (b, v) :=
  ⟨on, [(7, bandA)], 7, 0, by decide +kernel⟩

theorem witness_JournalAndEpoch_1 : ∃ (s : State), s.running = true ∧ s.power.writesStopped = false :=
  ⟨on, by decide +kernel⟩

theorem witness_JournalAndEpoch_2 : ∃ (s u : State) (g a : Nat), s.running = true ∧ s.up .mem = true ∧ s.power.writesStopped = false ∧ segmentDirty s g = true ∧ g ∉ s.ftl.segRebuild ∧ s.takeUnits .map 16 3 = (u, some a) :=
  ⟨{ on with ftl := { on.ftl with dirty := [(0, 5)] } }, ({ on with ftl := { on.ftl with dirty := [(0, 5)] } }.takeUnits .map 16 3).1, 0, ({ on with ftl := { on.ftl with dirty := [(0, 5)] } }.takeUnits .map 16 3).2.getD 0, by decide +kernel⟩

theorem witness_JournalAndEpoch_3 : ∃ (s : State) (g a : Nat), g < firstBlockSegment :=
  ⟨on, 0, 5, by decide +kernel⟩

theorem witness_JournalAndEpoch_4 : ∃ (s : State) (g : Nat), g ∈ s.ftl.segRebuild :=
  ⟨{ on with ftl := { on.ftl with segRebuild := [3] } }, 3, by decide +kernel⟩

theorem witness_JournalAndEpoch_5 : ∃ (s : State), s.running = true ∧ s.up .ctrl = true ∧ s.sys.rtcBase ≤ s.sys.ticks :=
  ⟨on, by decide +kernel⟩

theorem witness_RebuildAndReshape_1 : ∃ (s : State) (b : Nat) (x : Band) (rest : List (Nat × Band)) (p l k : Nat), redundancyRuns s = true ∧ s.str.rebuild = none ∧ rebuildOrder s = (b, x) :: rest ∧ x.lost.head? = some p ∧ replacementLun s x = some l ∧ pickBlock s l = some k :=
  ⟨banded { bandA with lost := [2] }, 7, { bandA with lost := [2] }, [], 2, (replacementLun (banded { bandA with lost := [2] }) { bandA with lost := [2] }).getD 0, (pickBlock (banded { bandA with lost := [2] }) ((replacementLun (banded { bandA with lost := [2] }) { bandA with lost := [2] }).getD 0)).getD 0, by decide +kernel⟩

theorem witness_RebuildAndReshape_2 : ∃ (s : State) (g : Nat) (l : List Nat), reshapeLeft s g = l ∧ l ≠ [] ∧ reshapeRefusal s g = none :=
  ⟨reshaping Str.reset.reshape, 1, [0], by decide +kernel⟩

theorem witness_RebuildAndReshape_3 : ∃ (s : State) (r : Requester) (v : W32), s.barReaches r rStrReshapeCtl = true ∧ fld v 1 0 ≠ 3 ∧ s.str.reshape.active = false ∧ bitAt v 31 = true :=
  ⟨on, .portA, 0x80000001, by decide +kernel⟩

theorem witness_RebuildAndReshape_4 : ∃ (s : State) (r : Requester) (v : W32), s.barReaches r rStrReshapeCtl = true ∧ fld v 1 0 ≠ 3 ∧ s.str.reshape.active = true ∧ s.str.reshape.region = none ∧ s.str.reshape.newBands = [] ∧ bitAt v 30 = true :=
  ⟨reshaping { Str.reset.reshape with active := true, left := [0] }, .portA, 0x40000001, by decide +kernel⟩

theorem witness_RebuildAndReshape_5 : ∃ (s : State) (g : Nat) (left : List Nat), redundancyRuns s = true ∧ s.str.reshape.active = true ∧ reshapeBusy s = false ∧ s.str.reshape.switching = false ∧ s.str.reshape.region = none ∧ s.str.reshape.left = g :: left ∧ (∀ v, s.ftl.victim = some v → v / 4096 ≠ g) :=
  ⟨reshaping { Str.reset.reshape with active := true, left := [0] }, 0, [], by decide +kernel⟩

theorem witness_RebuildAndReshape_6 : ∃ (s : State) (g : Nat), redundancyRuns s = true ∧ s.str.reshape.active = true ∧ reshapeBusy s = false ∧ s.str.reshape.switching = false ∧ s.str.reshape.region = some g :=
  ⟨reshaping { Str.reset.reshape with active := true, left := [0], region := some 0 }, 0, by decide +kernel⟩

theorem witness_RebuildAndReshape_7 : ∃ (s : State), s.sys.phase = .dumping ∧ (copyWritten s 0 = false ∨ copyWritten s 1 = false) :=
  ⟨dumpRuns, by decide +kernel⟩

theorem witness_RebuildAndReshape_8 : ∃ (s : State), s.sys.phase = .dumping ∧ copyWritten s 0 = true ∧ copyWritten s 1 = true :=
  ⟨{ on with sys := { on.sys with phase := .dumping } }, by decide +kernel⟩

theorem witness_KeySlotCommands_1 : ∃ (s : State) (w : Who), s.adminReady w = true :=
  ⟨on, adm, by decide +kernel⟩

theorem witness_KeySlotCommands_3 : ∃ (s : State) (w : Who) (slot use : Nat), s.adminReady w = true ∧ s.slotAllowed w.fn use slot = true ∧ epochSpent s use = false ∧ s.appendRoom = true :=
  ⟨keysWith { slotA with st := .empty, key := [], stored := none }, adm, 0, 3, by decide +kernel⟩

theorem witness_KeySlotCommands_4 : ∃ (s : State) (w : Who) (data : List Byte) (k : ImportKey), s.adminReady w = true ∧ data.length = 1272 ∧ s.slotAllowed w.fn (leAt data 2 1) (leAt data 0 2) = true ∧ leAt data 3 1 = slotKeyLen (leAt data 2 1) ∧ importReservedOk data (leAt data 3 1) = true ∧ epochSpent s (leAt data 2 1) = false ∧ s.appendRoom = true ∧ ((s.sea.importKeys.find? fun k => k.id = leAt data 4 4 && k.fn = w.fn) = some k) :=
  ⟨{ keysWith { slotA with st := .empty, key := [], stored := none } with sea := { on.sea with xts := [(0, { slotA with st := .empty, key := [], stored := none })], importKeys := [⟨7, 0, []⟩] } }, adm, importData, ⟨7, 0, []⟩, by decide +kernel⟩

theorem witness_KeySlotCommands_5 : ∃ (s : State) (a : Append) (rest : List Append) (w : Who) (use slot : Nat) (key : List Byte), s.running = true ∧ s.boot.appends = a :: rest ∧ sysWaits s .ledger = false ∧ a.then_ = .loadKey w use slot key :=
  ⟨appending [{ appendA with then_ := .loadKey adm 3 1 (List.replicate 64 5) }], { appendA with then_ := .loadKey adm 3 1 (List.replicate 64 5) }, [], adm, 3, 1, List.replicate 64 5, by decide +kernel⟩

theorem witness_KeySlotCommands_6 : ∃ (s : State) (w : Who) (slot use : Nat), s.adminReady w = true ∧ s.slotAllowed w.fn use slot = true ∧ s.appendRoom = true :=
  ⟨on, adm, 0, 3, by decide +kernel⟩

theorem witness_RestoreAndNonces_1 : ∃ (s : State) (w : Who) (x : Nat × Nat) (k : List Byte), s.adminReady w = true ∧ isManager w.fn = true ∧ alarmActive s = false ∧ s.appendRoom = true ∧ erasedKeySlots s (portOfFn w.fn) = [x] ∧ (s.slotOf x.1 x.2).stored = some k :=
  ⟨keysWith { slotA with st := .erased, key := [] }, adm, (3, 0), List.replicate 64 5, by decide +kernel⟩

theorem witness_RestoreAndNonces_2 : ∃ (s : State) (w : Who), s.adminReady w = true :=
  ⟨on, adm, by decide +kernel⟩

theorem witness_RestoreAndNonces_3 : ∃ (s : State) (slot x : Nat), s.running = true ∧ sysWaits s (.nonce slot) = false ∧ (s.wrapSlot slot).logTarget = some x :=
  ⟨{ on with sea := { on.sea with wrap := [(3, { slotA with use := 4, logTarget := some 65536 })] } }, 3, 65536, by decide +kernel⟩

theorem witness_AlarmErasesKeys_2 : ∃ (s : State) (a : AlarmCause), s.sys.phase = .running ∧ alarmCan s a = true ∧ s.disp.flows = [] ∧ a ≠ .overtemp :=
  ⟨on, .voltage, by decide +kernel⟩

theorem witness_AlarmErasesKeys_3 : ∃ (s : State) (a : AlarmCause), s.sys.phase ≠ .off ∧ s.sys.phase ≠ .hold ∧ alarmCan s a = true :=
  ⟨on, .fuse, by decide +kernel⟩

theorem witness_AlarmErasesKeys_4 : ∃ (s : State) (a : AlarmCause), (s.sys.phase = .off ∨ alarmCan s a = false) :=
  ⟨{ on with sys := { on.sys with phase := .off } }, .voltage, by decide +kernel⟩

theorem witness_OpalLocking_1 : ∃ (s : State) (w : Who) (nsid id : Nat) (rd wr : Bool) (n : Ns) (r : Range), s.adminReady w = true ∧ isManager w.fn = true ∧ s.opalRange (portOfFn w.fn) nsid id = some (n, r) ∧ (s.opal (portOfFn w.fn)).mayLock r = true :=
  ⟨unlocked, adm, 1, 0, true, true, nsA, rangeA, by decide +kernel⟩

theorem witness_OpalLocking_2 : ∃ (s : State) (w : Who) (nsid id : Nat) (rd wr : Bool) (n : Ns) (r : Range), s.adminReady w = true ∧ isManager w.fn = true ∧ s.opalRange (portOfFn w.fn) nsid id = some (n, r) ∧ (s.opal (portOfFn w.fn)).mayLock r = false :=
  ⟨on, adm, 1, 0, true, true, nsA, rangeA, by decide +kernel⟩

theorem witness_OpalLocking_3 : ∃ (s : State) (w : Who), s.adminReady w = true ∧ isManager w.fn = true :=
  ⟨on, adm, by decide +kernel⟩

theorem witness_OpalLocking_4 : ∃ (s : State) (w : Who) (off len : Nat), s.adminReady w = true ∧ isManager w.fn = true ∧ (s.opal (portOfFn w.fn)).session = true ∧ off + len ≤ mbrBytes :=
  ⟨unlocked, adm, 134217720, 8, by decide +kernel⟩

theorem witness_OpalLocking_6 : ∃ (s : State) (nsid range : Nat) (n : Ns) (r : Range), s.ns.find nsid = some n ∧ ((n.ranges.find? fun r => r.id = range) = some r) ∧ s.running = true ∧ s.up .ctrl = true ∧ (s.opal (portOfFn (s.xts r.slot).owner)).mayLock r = true ∧ r.rekeying = false :=
  ⟨unlocked, 1, 0, nsA, rangeA, by decide +kernel⟩

theorem witness_OpalLocking_7 : ∃ (s : State) (nsid range : Nat), s.running = true :=
  ⟨{ on with ns := [(1, { nsA with ranges := [{ rangeA with deallocating := true }] })] }, 1, 0, by decide +kernel⟩

theorem witness_OwnerTimesOut_1 : ∃ (s : State) (o : PortReq), s.dgs.owner = some o :=
  ⟨{ on with dgs := { Dgs.reset with owner := some .security, claims := [.mgmt1], msgOn := true, msg := [1] } }, .security, by decide +kernel⟩

theorem witness_DigestPort_1 : ∃ (s : State) (r : PortReq), portReqReaches s r = true ∧ s.dgs.owner = none :=
  ⟨on, .managerA, by decide +kernel⟩

theorem witness_DigestPort_2 : ∃ (s : State) (r o : PortReq), portReqReaches s r = true ∧ s.dgs.owner = some o ∧ o ≠ r :=
  ⟨dgsWith { Dgs.reset with owner := some .security }, .managerA, .security, by decide +kernel⟩

theorem witness_DigestPort_3 : ∃ (s : State) (r : PortReq), portReqReaches s r = true ∧ s.dgs.owner = some r :=
  ⟨dgsWith { Dgs.reset with owner := some .managerA, claims := [.mgmt0, .mgmt1] }, .managerA, by decide +kernel⟩

theorem witness_DigestPort_4 : ∃ (s : State) (r : PortReq) (v : W32), portReqReaches s r = true ∧ s.dgs.owner = some r ∧ bitAt v 31 = true ∧ algValid (fld v 3 0) = true ∧ bitAt v 16 = false :=
  ⟨dgsWith { Dgs.reset with owner := some .managerA }, .managerA, 0x80020006, by decide +kernel⟩

theorem witness_DigestPort_5 : ∃ (s : State) (r : PortReq) (word : W32), portReqReaches s r = true ∧ s.dgs.owner = some r ∧ s.dgs.msgOn = true ∧ s.dgs.done = false ∧ s.dgs.busy = false :=
  ⟨dgsWith { Dgs.reset with owner := some .managerA, msgOn := true, alg := 1, msg := zeros 60 }, .managerA, 5, by decide +kernel⟩

theorem witness_DigestPort_6 : ∃ (s : State) (r : PortReq) (word : W32), portReqReaches s r = true ∧ s.dgs.owner = some r ∧ s.dgs.msgOn = true ∧ s.dgs.done = false ∧ s.dgs.busy = true :=
  ⟨dgsWith { Dgs.reset with owner := some .managerA, msgOn := true, alg := 1, busy := true }, .managerA, 5, by decide +kernel⟩

theorem witness_DigestPort_7 : ∃ (s : State), s.dgs.busy = true ∧ s.up .engine = true ∧ 0 < modeCores s.power.effective :=
  ⟨dgsWith { Dgs.reset with owner := some .managerA, msgOn := true, alg := 1, busy := true }, by decide +kernel⟩

theorem witness_DigestPort_8 : ∃ (s : State) (r : PortReq) (v : W32), portReqReaches s r = true ∧ s.dgs.owner = some r ∧ bitAt v 31 = true ∧ fld v 2 0 ≤ 4 ∧ s.dgs.msgOn = true :=
  ⟨dgsWith { Dgs.reset with owner := some .managerA, msgOn := true, alg := 1, msg := [1, 2, 3, 4] }, .managerA, 0x80000004, by decide +kernel⟩

theorem witness_DigestPort_9 : ∃ (s : State) (r : PortReq) (v : W32), portReqReaches s r = true ∧ s.dgs.owner = some r ∧ bitAt v 31 = true ∧ fld v 2 0 ≤ 4 ∧ s.dgs.msgOn = true ∧ s.dgs.dropped = false ∧ s.dgs.hmacSlot = none ∧ s.dgs.msg ≠ [] :=
  ⟨dgsWith { Dgs.reset with owner := some .managerA, msgOn := true, alg := 1, msg := [0x61, 0x62, 0x63, 0] }, .managerA, 0x80000003, by decide +kernel⟩

theorem witness_HmacSlots_1 : ∃ (s : State) (r : Requester) (v : W32), s.barReaches r rDgsHmacLoad = true ∧ hmacAllowed s r (hmacSel s) = true ∧ bitAt v 31 = true ∧ algHmac (fld v 3 0) = true ∧ s.dgs.loading = none :=
  ⟨hashed hmacA, .portA, 0x80200301, by decide +kernel⟩

theorem witness_HmacSlots_2 : ∃ (s : State) (l : HmacLoading), s.dgs.loading = some l :=
  ⟨dgsWith { Dgs.reset with loading := some ⟨255, 1, 3, [1], [2], .empty⟩ }, ⟨255, 1, 3, [1], [2], .empty⟩, by decide +kernel⟩

theorem witness_HmacSlots_3 : ∃ (s : State) (r : Requester) (v : W32), s.barReaches r rDgsHmacLoad = true ∧ hmacAllowed s r (hmacSel s) = true ∧ bitAt v 30 = true :=
  ⟨hashed { hmacA with st := .loaded }, .portA, 0x40000000, by decide +kernel⟩

theorem witness_HmacSlots_4 : ∃ (s : State) (i : Nat), hmacReloadable s i = true ∧ s.up .engine = true :=
  ⟨hashed { hmacA with st := .erased }, 0, by decide +kernel⟩

theorem witness_HmacSlots_5 : ∃ (s : State) (f : Flow) (e : Task) (d : Nat) (c : DigestCtx) (st : Stage), dispatching s = true ∧ flowGoes s f = true ∧ s.boundFlow e.flow = some f ∧ s.entry e.flow e.stage e.cslot = some e ∧ e.ready = true ∧ Trail.stageAt f.trail e.stage = some st ∧ (digestStages f.trail).findIdx? (· = e.stage) = some d ∧ s.dgs.ctxs.find (4 * e.flow + d) = some c ∧ c.cleared = true :=
  ⟨cleared, hmacFlow, entryA 1, 0, ⟨1, some 0, [], [], false, true⟩, .digest 1 false (some 0) 0x5000 false, by decide +kernel⟩

theorem witness_CodecRoundTrip_1 : ∃ (w : Nat) (payload : List Byte), w ≤ 4096 ∧ payload ≠ [] :=
  ⟨4096, [1, 1, 1, 1, 1, 1, 1, 1, 2], by decide +kernel⟩

theorem witness_UntransposeInverts_1 : ∃ (u : Nat) (bs : List Byte), 1 ≤ u :=
  ⟨2, (List.range 21).map fun i => BitVec.ofNat 8 (i * 37), by decide +kernel⟩

theorem witness_UntransposeInverts_2 : ∃ (u : Nat) (bs : List Byte), 1 ≤ u :=
  ⟨2, (List.range 21).map fun i => BitVec.ofNat 8 (i * 37), by decide +kernel⟩

theorem witness_InterleaveInverts_1 : ∃ (st e : Nat) (bs : List Byte), 1 ≤ st ∧ 1 ≤ e :=
  ⟨3, 2, (List.range 20).map fun i => BitVec.ofNat 8 i, by decide +kernel⟩

theorem witness_LynxTables_1 : ∃ (s : State) (r : Requester) (v : W32) (m : Fn), requesterFn r = some m ∧ s.barReaches r rLnxTblCfg = true ∧ bitAt v 31 = true ∧ lynxHeld (s.lynxStageCfg v) m (lynxSel (s.lynxStageCfg v)) = false ∧ lynxBadDefinition (s.lynxStageCfg v) m (lynxSel (s.lynxStageCfg v)) (lynxStaged (s.lynxStageCfg v)) = false :=
  ⟨regged [(rLnxTblBanks, 0xC)] on, .portA, 0x80000200, 0, by decide +kernel⟩

theorem witness_LynxTables_2 : ∃ (s : State) (r : Requester) (v : W32) (m : Fn), requesterFn r = some m ∧ s.barReaches r rLnxTblCfg = true ∧ bitAt v 31 = false ∧ bitAt v 30 = true ∧ lynxHeld (s.lynxStageCfg v) m (lynxSel (s.lynxStageCfg v)) = false :=
  ⟨lynxed [], .portA, 0x40000000, 0, by decide +kernel⟩

theorem witness_LynxTables_3 : ∃ (s : State) (r : Requester) (v : W32), s.barReaches r rLnxTblSel = true :=
  ⟨on, .portA, 15, by decide +kernel⟩

theorem witness_LynxTables_4 : ∃ (s : State) (r : Requester) (v : W32) (x : LynxTable) (i : Nat), s.barReaches r rLnxEntCmd = true ∧ lynxOnly v 31 = true ∧ lynxEntTarget s = .ok (x, i) :=
  ⟨lynxed [(rLnxEntSel, 5)], .portA, 0x80000000, tableA, 5, by decide +kernel⟩

theorem witness_LynxTables_5 : ∃ (s : State) (r : Requester) (v : W32) (x : LynxTable) (i : Nat), s.barReaches r rLnxEntCmd = true ∧ lynxOnly v 30 = true ∧ lynxEntTarget s = .ok (x, i) ∧ s.regBit rLnxEntAttr 31 = false :=
  ⟨lynxed [(rLnxEntSel, 16383)], .portA, 0x40000000, tableA, 16383, by decide +kernel⟩

theorem witness_LynxTables_6 : ∃ (s : State) (r : Requester) (v : W32) (x : LynxTable) (i : Nat), s.barReaches r rLnxEntCmd = true ∧ lynxOnly v 29 = true ∧ lynxEntTarget s = .ok (x, i) :=
  ⟨lynxed [(rLnxEntSel, 5)], .portA, 0x20000000, tableA, 5, by decide +kernel⟩

theorem witness_LynxTables_7 : ∃ (s : State) (r : Requester) (v : W32) (x : LynxTable) (i j : Nat) (e : LynxEntry), s.barReaches r rLnxEntCmd = true ∧ lynxOnly v 30 = true ∧ lynxEntTarget s = .ok (x, i) ∧ s.regBit rLnxEntAttr 31 = true ∧ (j, e) ∈ x.entries ∧ j ≠ i ∧ e.valid = true ∧ e.key = lynxEntKey s x :=
  ⟨lynxed [(rLnxEntSel, 6), (rLnxEntAttr, 0x80000000), (rLnxEntKey 0, 0x04030201), (rLnxEntKey 1, 0x08070605)], .portA, 0x40000000, tableA, 6, 5, ⟨true, 3, 9, [1, 2, 3, 4, 5, 6, 7, 8], 0⟩, by decide +kernel⟩

theorem witness_LynxCompare_1 : ∃ (s : State) (table i : Nat) (x : LynxTable), s.lynxTable table = some x ∧ lynxCompares s = true ∧ i < x.capacity :=
  ⟨lynxed [], 1, 5, tableA, by decide +kernel⟩

theorem witness_LynxCompare_2 : ∃ (s : State) (table i : Nat) (x : LynxTable), s.lynxTable table = some x ∧ lynxCompares s = true ∧ i < x.capacity :=
  ⟨lynxed [], 1, 5, tableA, by decide +kernel⟩

theorem witness_LynxCompare_3 : ∃ (s : State) (table i : Nat) (x : LynxTable), s.lynxTable table = some x ∧ lynxCompares s = true ∧ i < x.capacity ∧ x.copies ≤ 1 :=
  ⟨{ on with lynx := lynxA }, 1, 5, tableA, by decide +kernel⟩

theorem witness_LynxCompare_4 : ∃ (s : State) (table i : Nat), s.lynxTable table = none ∧ lynxCompares s = true ∧ freeUnit s i = true :=
  ⟨on, 1, 262143, by decide +kernel⟩

theorem witness_LynxCompare_5 : ∃ (s : State) (table i : Nat) (x : LynxTable), s.lynxTable table = some x ∧ lynxCompares s = true ∧ i < x.capacity ∧ x.kv = false :=
  ⟨lynxed [], 1, 5, tableA, by decide +kernel⟩

theorem witness_LynxCompare_6 : ∃ (s : State) (us : Nat), lynxCompares s = true :=
  ⟨on, 11000000, by decide +kernel⟩

theorem witness_LynxCompare_7 : ∃ (s : State), lynxCompares s = true :=
  ⟨on, by decide +kernel⟩

theorem witness_LynxCompare_8 : ∃ (s : State), s.lynx.restoring = true ∧ s.up .engine = true ∧ s.up .mem = true ∧ s.power.effective ≠ .hibernate :=
  ⟨{ on with lynx := { lynxA with restoring := true } }, by decide +kernel⟩

theorem witness_LynxCompare_10 : ∃ (t : LynxTable) (copy : Nat) (key : List Byte) (w : Nat), (∀ x ∈ t.diffs, x.1 ≠ copy) ∧ t.shadowBad = [] ∧ (t.search copy true key).word = some w :=
  ⟨tableA, 0, keyA, (tableA.search 0 true keyA).word.getD 0, by decide +kernel⟩

theorem witness_DmaChannelsStart_1 : ∃ (s : State) (r : Requester) (n : Nat) (v : W32), s.barReaches r (rDmaChan n) = true ∧ n < 64 ∧ (s.chan n).owner = .dispatch ∧ dmaOwnerOf (fld v 29 28) = requesterOwner r ∧ dmaTaken s < 8 ∧ s.regBit rDmaGlbCtl 31 = false ∧ bitAt v 30 = false ∧ bitAt v 31 = false :=
  ⟨on, .portA, 63, 0x20000000, by decide +kernel⟩

theorem witness_DmaChannelsStart_2 : ∃ (s : State) (r : Requester) (n : Nat) (v : W32), s.barReaches r (rDmaChan n) = true ∧ n < 64 ∧ (s.chan n).owner = requesterOwner r ∧ dmaOwnerOf (fld v 29 28) = requesterOwner r ∧ bitAt v 30 = true ∧ bitAt v 31 = false :=
  ⟨dmaWith mgrChan, .portA, 9, 0x60000000, by decide +kernel⟩

theorem witness_DmaChannelsStart_3 : ∃ (s : State) (r : Requester) (n : Nat) (v : W32), s.barReaches r (rDmaChan n) = true ∧ n < 64 ∧ (s.chan n).owner = requesterOwner r ∧ dmaOwnerOf (fld v 29 28) = requesterOwner r ∧ bitAt v 30 = false ∧ bitAt v 31 = false :=
  ⟨dmaWith { mgrChan with pause := true, paused := true }, .portA, 9, 0x20000000, by decide +kernel⟩

theorem witness_DmaChannelsStart_4 : ∃ (s : State) (r : Requester) (n : Nat) (v : W32), s.barReaches r (rDmaChan n) = true ∧ n < 64 ∧ dmaMayDrive s r n = true ∧ dmaBusy s n = false ∧ (s.chan n).pause = false :=
  ⟨dmaWith { mgrChan with ptrHi := 0xFFFF }, .portA, 9, 0xFFFFFFE0, by decide +kernel⟩

theorem witness_DmaChannelsStart_5 : ∃ (s : State) (r : Requester) (n : Nat) (v : W32), s.barReaches r (rDmaChan n) = true ∧ n < 64 ∧ (s.chan n).owner = requesterOwner r ∧ dmaOwnerOf (fld v 29 28) = requesterOwner r ∧ bitAt v 30 = false ∧ bitAt v 31 = true ∧ dmaBusy s n = false ∧ s.regBit rDmaErrStatus 30 = false :=
  ⟨dmaWith { mgrChan with err := true, errCode := 4 }, .portA, 9, 0xA0000000, by decide +kernel⟩

theorem witness_DmaChannelsStart_6 : ∃ (s : State) (n : Nat) (b : List Byte), dmaFetch s (s.chan n).owner (s.chan n).ptr = some b ∧ (dmaDescOf b).op ≠ 0x0F ∧ (s.chan n).ptr % 32 = 0 ∧ dmaReservedOk b = true ∧ dmaDataOk s (s.chan n).owner (dmaDescOf b) = true :=
  ⟨{ dmaWith { fwChan with ptr := 0x1000 } with memory := { trainedMem with dram := Mem.writeBytes [] 0x1000 descBytes } }, 9, descBytes, by decide +kernel⟩

theorem witness_DmaChannelsStart_7 : ∃ (s : State) (n : Nat), dmaFetch s (s.chan n).owner (s.chan n).ptr = none :=
  ⟨dmaWith { mgrChan with ptr := 2 ^ 41 }, 9, by decide +kernel⟩

theorem witness_DmaMovesData_1 : ∃ (s : State) (hv : HostView) (d : DmaDesc) (a b n : Nat), s.up .mem = true ∧ d.op = 0 ∧ d.srcSpace = 0 ∧ d.dstSpace = 0 ∧ s.memory.poison = [] ∧ (a + n ≤ b ∨ b + n ≤ a) :=
  ⟨on, [], descA, 0, 4096, 4096, by decide +kernel⟩

theorem witness_DmaMovesData_2 : ∃ (s u : State) (n : Nat) (hv : HostView) (d : DmaDesc), (s.chan n).desc = some d ∧ s.up .engine = true ∧ (s.chan n).busy = true ∧ (s.chan n).paused = false ∧ (s.chan n).held = false ∧ (s.chan n).paceWait = false ∧ d.next = 0 ∧ (s.chan n).declared = none ∧ s.dmaMove hv d (s.chan n).src (s.chan n).dst (s.chan n).remain = (u, 0, none) :=
  ⟨dmaWith { fwChan with desc := some descA, busy := true, src := 0, dst := 4096, remain := 16 }, ((dmaWith { fwChan with desc := some descA, busy := true, src := 0, dst := 4096, remain := 16 }).dmaMove [] descA 0 4096 16).1, 9, [], descA, by decide +kernel⟩

theorem witness_DmaMovesData_3 : ∃ (s : State) (n : Nat) (hv : HostView), s.up .engine = true ∧ (s.chan n).pause = true ∧ (s.chan n).paused = false ∧ (s.chan n).err = false ∧ dmaTask s n = none ∧ (s.chan n).quiet = true :=
  ⟨dmaWith { mgrChan with pause := true }, 9, [], by decide +kernel⟩

theorem witness_DmaMovesData_4 : ∃ (s : State) (n : Nat), (s.chan n).paceWait = true ∧ dmaBusy s n = true ∧ paceLow s (paceTarget s n) = true :=
  ⟨dmaWith { fwChan with desc := some descA, busy := true, paceWait := true }, 9, by decide +kernel⟩

theorem witness_DmaMovesData_5 : ∃ (s : State) (n code moved : Nat) (addr : W64) (hv : HostView) (d : DmaDesc), s.up .engine = true ∧ (code = 2 ∨ code = 3 ∨ code = 5) ∧ dmaTask s n = none ∧ (s.chan n).desc = some d ∧ (s.chan n).busy = true ∧ (s.chan n).held = false ∧ (s.chan n).paceWait = false ∧ moved ≤ (s.chan n).remain :=
  ⟨dmaWith { fwChan with desc := some descA, busy := true, remain := 16 }, 9, 2, 4, 0x77, [], descA, by decide +kernel⟩

theorem witness_DmaMovesData_6 : ∃ (s : State) (failing : Option Nat) (last : Nat) (addr : W64), s.up .engine = true :=
  ⟨on, some 9, 9, 0x55, by decide +kernel⟩

theorem witness_DramAndMemory_1 : ∃ (s : State) (c : Nat), c < 4 ∧ s.sys.phase = .booting ∧ s.sys.bootStep = 5 ∧ (s.dramChan c).trained = false ∧ (s.dramChan c).attempts < 3 ∧ dramSupported s.board c = true :=
  ⟨{ bootStep5 { DramChan.reset with attempts := 2 } with board := Board.reset }, 3, by decide +kernel⟩

theorem witness_DramAndMemory_2 : ∃ (s : State) (c : Nat), c < 4 ∧ s.sys.phase = .booting ∧ s.sys.bootStep = 5 ∧ (s.dramChan c).trained = false ∧ (s.dramChan c).attempts < 2 :=
  ⟨bootStep5 { DramChan.reset with attempts := 1 }, 3, by decide +kernel⟩

theorem witness_DramAndMemory_3 : ∃ (s : State) (c sc : Nat), dramServes s c = true ∧ sc < 2 :=
  ⟨dramOf trainedMem, 3, 1, by decide +kernel⟩

theorem witness_DramAndMemory_4 : ∃ (s : State) (c rate : Nat) (hot : Bool), dramServes s c = true :=
  ⟨dramOf trainedMem, 0, 4, true, by decide +kernel⟩

theorem witness_DramAndMemory_5 : ∃ (s : State) (p line : Nat), p < 8 ∧ s.up .mem = true ∧ 64 * line + 64 ≤ dramBytes s.board ∧ (copiesOf s p line).any (lineOpen s s.memory.reads) = true :=
  ⟨dramOf trainedMem, 7, 67108863, by decide +kernel⟩

theorem witness_DramAndMemory_6 : ∃ (s : State) (p line : Nat) (w : MemWrite), p < 8 ∧ s.up .mem = true ∧ 64 * line + 64 ≤ dramBytes s.board ∧ (copiesOf s p line).all (lineOpen s s.memory.writes) = true ∧ w.offset + w.bytes.length ≤ 64 ∧ s.memory.poison = [] :=
  ⟨dramOf trainedMem, 0, 0, ⟨60, [1,2,3,4], .unallocated⟩, by decide +kernel⟩

theorem witness_DramAndMemory_7 : ∃ (s : State) (p line word ns : Nat) (held : Held) (r : MemReq), ((s.memory.reads.find? fun r => r.port = p && decide (line ∈ copiesOf s p r.line)) = some r) ∧ dramServes s (channelOfAddr s (64 * line)) = true ∧ (wholeLineQueued s line = true ∨ nextRead s (channelOfAddr s (64 * line)) = some r) ∧ s.memory.poison = [] ∧ s.memory.flips = [] :=
  ⟨dramOf { trainedMem with reads := [⟨0, 0, none, 0, zeros 64⟩] }, 0, 0, 0, 50, .unallocated, ⟨0, 0, none, 0, zeros 64⟩, by decide +kernel⟩

theorem witness_MemoryProtection_1 : ∃ (s : State) (g a : Nat) (held : Held), owlReads s g a = true ∧ g < 4 ∧ s.memory.poison = [] ∧ s.memory.flips = [] ∧ s.memory.rewrites = [] :=
  ⟨dramOf trainedMem, 0, 64, .unallocated, by decide +kernel⟩

theorem witness_MemoryProtection_2 : ∃ (s : State) (g a bit : Nat), ((s.memory.logs.filter fun l => l.group = g) = []) :=
  ⟨on, 2, 64, 71, by decide +kernel⟩

theorem witness_MemoryProtection_3 : ∃ (s : State) (page k : Nat), s.memory.retiring.find page = some k ∧ s.up .mem = true :=
  ⟨dramOf { trainedMem with retiring := [(5, 2)] }, 5, 2, by decide +kernel⟩

theorem witness_MemoryProtection_4 : ∃ (s : State), s.memory.owlOverdue = false ∧ owlStopped s = false :=
  ⟨dramOf trainedMem, by decide +kernel⟩

theorem witness_MemoryProtection_5 : ∃ (s : State) (r : Requester) (v : W32), s.barReaches r rEccInject = true ∧ bitAt v 31 = true ∧ s.locked rEccInject = false :=
  ⟨on, .portA, 0x80000000, by decide +kernel⟩

theorem witness_CompletionsPost_1 : ∃ (s : State) (w : Who) (st : Status) (d0 d1 : W32), s.outstanding w = true ∧ moreOf st = false ∧ isMediaError st = false ∧ (s.port (portOfFn w.fn)).linkUp = true ∧ 0 < (s.port (portOfFn w.fn)).credits ∧ (s.port (portOfFn w.fn)).stalled = [] ∧ cqInterrupts (s.ctrl w.fn) (cqOf (s.ctrl w.fn) w.sq) = false :=
  ⟨onCtrl { readyCtrl 0 with queues := [{ Queue.admin with qid := 1, isCq := true, size := 16, ien := false }, { Queue.admin with qid := 1, size := 16, cqid := 1 }] }, io, stOk, 7, 0, by decide +kernel⟩

theorem witness_CompletionsPost_2 : ∃ (s : State) (w : Who) (st : Status) (d0 d1 : W32), s.outstanding w = false :=
  ⟨on, ⟨0, 1, 9⟩, stOk, 0, 0, by decide +kernel⟩

theorem witness_CompletionsPost_4 : ∃ (s : State) (p : Port) (o : Out), (s.port p).linkUp = true ∧ (s.port p).credits = 0 :=
  ⟨onPort { upPort with credits := 0 }, .a, .completion 0 1 2 0 0 0, by decide +kernel⟩

theorem witness_CompletionsPost_5 : ∃ (s : State) (p : Port) (n : Nat), portsLive s = true ∧ (s.port p).linkUp = true :=
  ⟨onPort { upPort with credits := 0, stalled := [.completion 0 1 2 0 0 0, .msix 0 1] }, .a, 1, by decide +kernel⟩

theorem witness_PortsAndLinks_1 : ∃ (s : State) (p : Port), portsLive s = true ∧ (s.port p).present = true :=
  ⟨on, .a, by decide +kernel⟩

theorem witness_PortsAndLinks_2 : ∃ (s : State) (p : Port), portsLive s = true ∧ (s.port p).present = true :=
  ⟨on, .a, by decide +kernel⟩

theorem witness_PortsAndLinks_3 : ∃ (s : State) (p : Port), portsLive s = true ∧ (s.port p).present = true ∧ (s.port p).linkUp = false :=
  ⟨onPort { upPort with linkUp := false, perstN := false }, .a, by decide +kernel⟩

theorem witness_PortsAndLinks_4 : ∃ (s : State) (p : Port) (rate width credits : Nat), portsLive s = true ∧ (s.port p).training = true ∧ linkFits s rate width = true :=
  ⟨onPort { upPort with linkUp := false, training := true }, .a, 64, 16, 32, by decide +kernel⟩

theorem witness_PortsAndLinks_5 : ∃ (s : State) (w : Who), s.running = true :=
  ⟨on, io, by decide +kernel⟩

theorem witness_PortsAndLinks_6 : ∃ (s : State) (f : Fn) (v : Nat), portsLive s = true ∧ s.fnExists f = true ∧ v < 64 ∧ v ∉ (s.ctrl f).msixHeld :=
  ⟨on, 0, 63, by decide +kernel⟩

theorem witness_PortsAndLinks_7 : ∃ (s : State) (f : Fn) (v : Nat), portsLive s = true ∧ s.fnExists f = true ∧ v < 64 ∧ v ∈ (s.ctrl f).msixHeld ∧ (s.port (portOfFn f)).linkUp = true ∧ 0 < (s.port (portOfFn f)).credits ∧ (s.port (portOfFn f)).stalled = [] :=
  ⟨onCtrl { readyCtrl 0 with msixHeld := [63] }, 0, 63, by decide +kernel⟩

theorem witness_Controllers_1 : ∃ (s : State) (f : Fn) (cc aqa : W32) (asq acq : W64), reachable s f = true ∧ s.up .ctrl = true ∧ (s.ctrl f).freeze = .none ∧ bitAt cc 0 = true ∧ bitAt (s.ctrl f).cc 0 = false :=
  ⟨onCtrl (Ctrl.reset 0), 0, 1, 0x001F001F, 4096, 8192, by decide +kernel⟩

theorem witness_Controllers_2 : ∃ (s : State) (f : Fn), reachable s f = true ∧ (s.ctrl f).freeze = .none ∧ bitAt (s.ctrl f).cc 0 = true :=
  ⟨on, 0, by decide +kernel⟩

theorem witness_Controllers_3 : ∃ (s : State) (f : Fn) (abrupt : Bool), reachable s f = true ∧ (s.ctrl f).freeze = .none ∧ bitAt (s.ctrl f).cc 0 = true ∧ isManager f = false :=
  ⟨{ on with host := { on.host with ctrls := [(1, readyCtrl 1)] } }, 1, true, by decide +kernel⟩

theorem witness_Controllers_5 : ∃ (s : State) (w : Who), s.adminReady w = true :=
  ⟨on, adm, by decide +kernel⟩

theorem witness_Controllers_6 : ∃ (s : State) (f : Fn), reachable s f = true ∧ (s.ctrl f).rdy = true ∧ (s.ctrl f).keepAlive = true ∧ (s.ctrl f).freeze = .none :=
  ⟨onCtrl { readyCtrl 0 with keepAlive := true }, 0, by decide +kernel⟩

theorem witness_Controllers_7 : ∃ (s : State) (f : Fn), s.running = true ∧ s.up .host = true ∧ s.fnExists f = true :=
  ⟨on, 1, by decide +kernel⟩

theorem witness_Controllers_8 : ∃ (s : State) (f : Fn), s.running = true ∧ (s.ctrl f).flr = some 1 :=
  ⟨onCtrl { readyCtrl 0 with flr := some 1 }, 0, by decide +kernel⟩

theorem witness_Controllers_9 : ∃ (s : State) (f : Fn) (k : Nat), s.running = true ∧ (s.ctrl f).flr = some k :=
  ⟨onCtrl { readyCtrl 0 with flr := some 2 }, 0, 2, by decide +kernel⟩

theorem witness_QueuesAndFetching_1 : ∃ (s : State) (f : Fn) (v : Nat), reachable s f = true ∧ (s.ctrl f).rdy = true ∧ v < (s.ctrl f).adminSq.size ∧ s.power.effective ≠ .hibernate ∧ s.lynx.restoring = false :=
  ⟨on, 0, 31, by decide +kernel⟩

theorem witness_QueuesAndFetching_2 : ∃ (s : State) (f : Fn) (v : Nat), reachable s f = true ∧ (s.ctrl f).rdy = true ∧ v < (s.ctrl f).adminSq.size ∧ s.power.effective ≠ .hibernate ∧ s.lynx.restoring = true :=
  ⟨{ on with lynx := { lynxA with restoring := true } }, 0, 31, by decide +kernel⟩

theorem witness_QueuesAndFetching_3 : ∃ (s : State) (f : Fn) (sq cid : Nat), mayFetch s f sq cid = true :=
  ⟨onCtrl { readyCtrl 0 with credits := 8, queues := [{ Queue.admin with qid := 1, isCq := true, size := 16, vector := 1 }, { Queue.admin with qid := 1, size := 16, cqid := 1, tail := 3 }] }, 0, 1, 40, by decide +kernel⟩

theorem witness_QueuesAndFetching_4 : ∃ (s : State) (f : Fn) (cid : Nat), mayFetch s f 0 cid = true :=
  ⟨onCtrl { readyCtrl 0 with adminSq := { Queue.admin with size := 32, head := 31, tail := 2 } }, 0, 40, by decide +kernel⟩

theorem witness_QueuesAndFetching_5 : ∃ (s : State) (w : Who) (isCq : Bool) (qid size base cqid vector prio : Nat) (ien : Bool), s.adminReady w = true ∧ queueRefused (s.ctrl w.fn) w.fn isCq qid size base cqid vector true = none :=
  ⟨on, adm, false, 2, 65536, 4096, 1, 0, 0, true, by decide +kernel⟩

theorem witness_QueuesAndFetching_6 : ∃ (s : State) (w : Who) (qid : Nat), s.adminReady w = true ∧ qid ≠ 0 ∧ hasQueue (s.ctrl w.fn) true qid = true ∧ (∀ q ∈ (s.ctrl w.fn).queues, q.isCq = false → q.cqid ≠ qid) :=
  ⟨onCtrl { readyCtrl 0 with queues := [{ Queue.admin with qid := 1, isCq := true, size := 16, vector := 1 }] }, adm, 1, by decide +kernel⟩

theorem witness_QueuesAndFetching_7 : ∃ (s : State) (w : Who) (sq cid : Nat), s.adminReady w = true ∧ (∀ x ∈ s.disp.waiting, x.who ≠ ⟨w.fn, sq, cid⟩) ∧ (∀ e ∈ s.disp.flows, (⟨w.fn, sq, cid⟩ : Who) ∉ e.2.queries) :=
  ⟨on, adm, 1, 77, by decide +kernel⟩

theorem witness_QueuesAndFetching_8 : ∃ (s : State) (w : Who) (sq cid : Nat) (x : WaitingTrail), s.adminReady w = true ∧ x ∈ s.disp.waiting ∧ x.who = ⟨w.fn, sq, cid⟩ ∧ x.execBy = false :=
  ⟨{ on with disp := { Disp.reset with waiting := [⟨io, trailA, none, [], false⟩] } }, adm, 1, 2, ⟨io, trailA, none, [], false⟩, by decide +kernel⟩

theorem witness_QueuesAndFetching_9 : ∃ (s : State) (w : Who) (sq cid : Nat) (e : Nat × Flow), s.adminReady w = true ∧ (∀ x ∈ s.disp.waiting, x.who ≠ ⟨w.fn, sq, cid⟩) ∧ e ∈ s.disp.flows ∧ (⟨w.fn, sq, cid⟩ : Who) ∈ e.2.queries :=
  ⟨flowing { flowA with queries := [io] } [], adm, 1, 2, (0, { flowA with queries := [io] }), by decide +kernel⟩

theorem witness_QueuesAndFetching_10 : ∃ (s : State) (w : Who), s.adminReady w = true ∧ (s.ctrl w.fn).aers.length < 16 ∧ (s.ctrl w.fn).events = [] :=
  ⟨on, adm, by decide +kernel⟩

theorem witness_QueuesAndFetching_11 : ∃ (s : State) (w : Who), s.adminReady w = true ∧ 16 ≤ (s.ctrl w.fn).aers.length :=
  ⟨onCtrl { readyCtrl 0 with aers := List.range 16 }, adm, by decide +kernel⟩

theorem witness_IdentifyLogsAndFeatures_1 : ∃ (s : State) (w : Who) (cns nsid : Nat) (bs : List Byte), s.adminReady w = true ∧ identifyData s w.fn cns nsid = .ok bs :=
  ⟨on, adm, 2, 0, nsidList [1, 2, 3] 0, ⟨by decide +kernel, rfl⟩⟩

theorem witness_IdentifyLogsAndFeatures_2 : ∃ (s : State) (w : Who) (page : List Byte) (lid offset bytes : Nat) (rae : Bool) (lsp uuid : Nat), s.adminReady w = true ∧ lid < 0xC0 ∧ lid ≠ 2 ∧ standardPage s w.fn lid = some page :=
  ⟨on, adm, supportedPage, 0, 0, 512, true, 0, 0, by decide +kernel⟩

theorem witness_IdentifyLogsAndFeatures_3 : ∃ (s : State) (w : Who) (fid nsid : Nat) (v : W32) (data : List Byte), s.adminReady w = true ∧ plainFeature fid = true :=
  ⟨on, adm, 4, 0, 0x123, [], by decide +kernel⟩

theorem witness_IdentifyLogsAndFeatures_4 : ∃ (s : State) (w : Who) (fid nsid : Nat) (v : W32), s.adminReady w = true ∧ plainFeature fid = true :=
  ⟨on, adm, 4, 0, 0x123, by decide +kernel⟩

theorem witness_IdentifyLogsAndFeatures_5 : ∃ (s : State) (w : Who) (nsid : Nat) (v : W32), s.adminReady w = true :=
  ⟨on, adm, 0, 0, by decide +kernel⟩

theorem witness_IdentifyLogsAndFeatures_6 : ∃ (s : State) (w : Who) (fid nsid : Nat) (v : W32) (data : List Byte), s.adminReady w = true ∧ knownFeature fid = true :=
  ⟨on, adm, 0x82, 0, 0, [], by decide +kernel⟩

theorem witness_NamespacesAndErases_1 : ∃ (s : State) (w : Who) (x : NsSpec) (nsid slot : Nat), s.adminReady w = true ∧ isManager w.fn = true ∧ specOk x = true ∧ x.kind = .memory ∧ x.kvflags = 0 ∧ s.ns.lowestFree 1 512 = some nsid ∧ s.freeXts = some slot ∧ poolSmall s = false ∧ (capacityOk ((s.random 64).2.onNs fun t => t.set nsid (newNs (s.random 64).2 x slot none)) = true) :=
  ⟨on, adm, { kind := .memory, lbaSize := 1, nsze := memUnit, ncap := memUnit, cmode := 0, kvflags := 0, recordWidth := 0, reserved := 0 }, 4, 1, by decide +kernel⟩

theorem witness_NamespacesAndErases_2 : ∃ (s : State) (w : Who) (nsid : Nat) (n : Ns), s.adminReady w = true ∧ isManager w.fn = true ∧ nsid ≠ 0xFFFFFFFF ∧ s.ns.find nsid = some n ∧ trailNamesNs s nsid = false ∧ n.erasing = none :=
  ⟨on, adm, 1, nsA, by decide +kernel⟩

theorem witness_NamespacesAndErases_3 : ∃ (s : State) (w : Who) (nsid nsze ncap : Nat) (n : Ns), s.adminReady w = true ∧ isManager w.fn = true ∧ s.ns.find nsid = some n ∧ trailNamesNs s nsid = false ∧ nsze ≠ 0 ∧ nsze ≤ n.nsze ∧ ncap ≤ nsze ∧ n.kind = .nvm ∧ n.erasing = none ∧ (capacityOk (s.onNs fun t => t.set nsid (n.resized nsze ncap)) = true) :=
  ⟨on, adm, 1, 128, 128, nsA, by decide +kernel⟩

theorem witness_NamespacesAndErases_4 : ∃ (s : State) (w : Who) (nsid : Nat) (f : Fn) (c : Nat) (n : Ns), s.adminReady w = true ∧ isManager w.fn = true ∧ s.ns.find nsid = some n ∧ fnOfController s c = some f ∧ f ∉ n.attached :=
  ⟨on, adm, 1, 2, 3, nsA, by decide +kernel⟩

theorem witness_NamespacesAndErases_5 : ∃ (s : State) (w : Who) (nsid : Nat) (n : Ns), s.adminReady w = true ∧ s.ns.find nsid = some n ∧ w.fn ∈ n.attached ∧ n.erasing = none ∧ s.reserved w.fn n true = false ∧ n.kind = .nvm :=
  ⟨on, adm, 1, nsA, by decide +kernel⟩

theorem witness_NamespacesAndErases_6 : ∃ (s : State) (w : Who), s.adminReady w = true ∧ isManager w.fn = true ∧ (∀ e ∈ s.ns, e.2.erasing = none) :=
  ⟨on, adm, by decide +kernel⟩

theorem witness_NamespacesAndErases_7 : ∃ (s : State) (nsid : Nat) (n : Ns) (x : Erasing), s.running = true ∧ s.up .ctrl = true ∧ s.sea.rekeys = [] ∧ s.ns.find nsid = some n ∧ n.erasing = some x ∧ x.crypto = false ∧ x.who = none ∧ n.kind = .kv ∧ n.kvTable = none :=
  ⟨{ on with ns := [(2, { nsKv with erasing := some ⟨0, none, true, false, 1⟩ })] }, 2, { nsKv with erasing := some ⟨0, none, true, false, 1⟩ }, ⟨0, none, true, false, 1⟩, by decide +kernel⟩

theorem witness_Reservations_1 : ∃ (s : State) (w : Who) (nsid : Nat) (crkey nrkey : W64) (n : Ns), s.ioReady w = true ∧ s.resGate w.fn nsid = .ok n ∧ n.reservation.entry (s.ctrl w.fn).hostId = none :=
  ⟨on, io, 1, 0, 9, nsA, by decide +kernel⟩

theorem witness_Reservations_2 : ∃ (s : State) (w : Who) (nsid : Nat) (type : ResType) (crkey prkey : W64) (n : Ns) (x : Registrant), s.ioReady w = true ∧ s.resGate w.fn nsid = .ok n ∧ n.reservation.entry (s.ctrl w.fn).hostId = some x ∧ x.key = crkey ∧ n.reservation.holder = none :=
  ⟨onNs { nsA with reservation := resA none }, io, 1, .exclusiveAccess, 9, 0, { nsA with reservation := resA none }, ⟨[1], 9⟩, by decide +kernel⟩

theorem witness_Reservations_3 : ∃ (s : State) (w : Who) (nsid : Nat) (type : ResType) (crkey : W64) (n : Ns) (x : Registrant), s.ioReady w = true ∧ s.resGate w.fn nsid = .ok n ∧ n.reservation.entry (s.ctrl w.fn).hostId = some x ∧ x.key = crkey ∧ n.reservation.holds (s.ctrl w.fn).hostId = true ∧ n.reservation.type = type :=
  ⟨onNs { nsA with reservation := resA (some [1]) }, io, 1, .writeExclusive, 9, { nsA with reservation := resA (some [1]) }, ⟨[1], 9⟩, by decide +kernel⟩

theorem witness_Reservations_4 : ∃ (s : State) (w : Who) (nsid : Nat) (n : Ns), s.ioReady w = true ∧ s.anyNs w.fn nsid = .ok n :=
  ⟨on, io, 1, nsA, by decide +kernel⟩

theorem witness_Reservations_5 : ∃ (s : State) (w : Who) (nsid : Nat) (r : Reservation) (n : Ns), s.ns.find nsid = some n :=
  ⟨on, io, 1, resA none, nsA, by decide +kernel⟩

theorem witness_Reservations_6 : ∃ (r : Reservation) (host h : List Byte) (type : ResType) (crkey prkey : W64), r.holder = some h ∧ heldByAll r.type = false ∧ h ≠ host :=
  ⟨resA (some [1]), [2], [1], .exclusiveAccess, 9, 0, by decide +kernel⟩

theorem witness_Reservations_7 : ∃ (r q : Reservation) (host : List Byte) (clear : Bool) (type : ResType) (crkey : W64), r.holds host = false ∧ clear = false ∧ r.release host clear type crkey = .ok q :=
  ⟨{ resA (some [2]) with registrants := [⟨[1], 9⟩] }, { resA (some [2]) with registrants := [⟨[1], 9⟩] }, [1], false, .exclusiveAccess, 9, by decide +kernel⟩

theorem witness_Reservations_8 : ∃ (r q : Reservation) (host : List Byte) (crkey nrkey : W64) (action : RegisterAction) (iekey : Bool), r.register host action crkey nrkey iekey = .ok q :=
  ⟨resA (some [1]), { resA (some [1]) with registrants := [⟨[1], 9⟩, ⟨[2], 5⟩] }, [2], 0, 5, .register, false, by decide +kernel⟩

theorem witness_KeyValueCommands_1 : ∃ (s : State) (w : Who) (nsid : Nat) (key value : List Byte) (n : Ns), s.ioReady w = true ∧ s.kvGate w.fn nsid key true = .ok n ∧ value.length ≤ 2 ^ 20 ∧ readOnly s = false ∧ n.kvBytes - ((n.kvFind key).getD []).length + value.length ≤ n.nsze :=
  ⟨on, io, 2, [3], [1], nsKv, by decide +kernel⟩

theorem witness_KeyValueCommands_2 : ∃ (s u : State) (w : Who) (nsid k : Nat) (key v : List Byte) (n : Ns) (j : ReadJob), s.ioReady w = true ∧ s.kvGate w.fn nsid key false = .ok n ∧ n.kvFind key = some v ∧ u = (s.asClass w 2).kvLookup n key true ∧ u.up .mem = true ∧ j = { client := .host w, kind := .kv key k, nsid := nsid, slba := 0, nlb := 0, wait := 0, failed := none, second := false, again := false } ∧ segBusy u ((jobNeeds u j).map (·.1)) = false :=
  ⟨on, (on.asClass io 2).kvLookup nsKv [1, 2] true, io, 2, 3, [1, 2], [7, 8, 9], nsKv, { client := .host io, kind := .kv [1, 2] 3, nsid := 2, slba := 0, nlb := 0, wait := 0, failed := none, second := false, again := false }, by decide +kernel⟩

theorem witness_KeyValueCommands_3 : ∃ (s : State) (w : Who) (k : Nat) (key : List Byte) (n : Ns) (r : KvRec) (needs : List (Nat × BitVec 32)), ((n.kv.find? fun e => e.key = key) = some r) ∧ (∀ x ∈ needs, ∃ bs, iuBytes s x.1 x.2 = .ok bs) :=
  ⟨on, io, 3, [1, 2], nsKv, ⟨[1, 2], [7, 8, 9], [⟨0, 0, 3⟩]⟩, [], ⟨by decide +kernel, by simp⟩⟩

theorem witness_KeyValueCommands_4 : ∃ (s : State) (w : Who) (nsid : Nat) (key v : List Byte) (n : Ns), s.ioReady w = true ∧ s.kvGate w.fn nsid key true = .ok n ∧ readOnly s = false ∧ n.kvFind key = some v ∧ s.ns.find nsid = some n :=
  ⟨on, io, 2, [1, 2], [7, 8, 9], nsKv, by decide +kernel⟩

theorem witness_KeyValueCommands_5 : ∃ (s : State) (w : Who) (nsid : Nat) (key : List Byte) (n : Ns), s.ioReady w = true ∧ s.kvGate w.fn nsid key false = .ok n :=
  ⟨on, io, 2, [1], nsKv, by decide +kernel⟩

theorem witness_KeyValueCommands_6 : ∃ (s : State) (w : Who) (nsid : Nat) (key : List Byte) (n : Ns), s.ioReady w = true ∧ s.nsGate w.fn nsid .kv = .ok n ∧ key.length ≤ 16 ∧ s.reserved w.fn n false = false ∧ readBar s n 0 1 = none :=
  ⟨on, io, 2, [], nsKv, by decide +kernel⟩

theorem witness_ComputeAndLocalMemory_1 : ∃ (s : State) (w : Who) (cdw10 cdw11 : W32) (img : List Byte), s.ready w = true ∧ fld cdw11 3 0 = 0 :=
  ⟨on, io, 0, 0, imageA, by decide +kernel⟩

theorem witness_ComputeAndLocalMemory_2 : ∃ (s : State) (w : Who) (id : Nat), s.ready w = true ∧ (programKernel s w.fn id).isSome = true :=
  ⟨ranged, adm, 0, by decide +kernel⟩

theorem witness_ComputeAndLocalMemory_3 : ∃ (s : State) (w : Who) (create : Nat) (rs : List MemRange), s.ready w = true ∧ rs ≠ [] ∧ rs.length ≤ 8 ∧ rs.all (memRangeOk s w.fn) = true ∧ (s.rangeSets (portOfFn w.fn)).lowestFree 1 256 = some create :=
  ⟨ranged, adm, 1, ranges2, by decide +kernel⟩

theorem witness_ComputeAndLocalMemory_4 : ∃ (s : State) (w : Who) (set : Nat) (rs : List MemRange), s.ready w = true ∧ (s.rangeSets (portOfFn w.fn)).find set = some rs :=
  ⟨ranged, adm, 2, ranges2, by decide +kernel⟩

theorem witness_ComputeAndLocalMemory_5 : ∃ (s : State) (w : Who) (id set : Nat) (args : List Byte) (a b : MemRange) (more : List MemRange) (k : KernelRec), s.ioReady w = true ∧ (s.rangeSets (portOfFn w.fn)).find set = some (a :: b :: more) ∧ programKernel s w.fn id = some k ∧ slmRunBad s a.nsid a.offset a.length = false ∧ slmRunBad s b.nsid b.offset b.length = false :=
  ⟨ranged, io, 0, 2, [], ⟨3, 0, 4096⟩, ⟨3, 4096, 4096⟩, [], kernelRec, by decide +kernel⟩

theorem witness_ComputeAndLocalMemory_6 : ∃ (s : State) (w : Who) (nsid off : Nat) (data : List Byte) (n : Ns), s.ioReady w = true ∧ s.up .mem = true ∧ s.memGate w.fn nsid off data.length true = .ok n :=
  ⟨on, io, 3, 8190, [1, 2], nsMem, by decide +kernel⟩

theorem witness_ComputeAndLocalMemory_7 : ∃ (s : State) (w : Who) (nsid off len : Nat) (n : Ns), s.ioReady w = true ∧ s.up .mem = true ∧ s.memGate w.fn nsid off len false = .ok n :=
  ⟨on, io, 3, 8190, 2, nsMem, by decide +kernel⟩

theorem witness_ComputeAndLocalMemory_8 : ∃ (s : State) (w : Who) (nsid off : Nat) (src : List (Nat × LbaRange)) (n : Ns), s.ioReady w = true ∧ s.up .mem = true ∧ s.memGate w.fn nsid off 0 true = .ok n ∧ src ≠ [] ∧ src.length ≤ 128 ∧ src.findSome? (sourceFails s w.fn) = none ∧ s.slmFits nsid off (sourceLength s src) = true ∧ segBusy s ((copyNeeds s src).map (·.1)) = false :=
  ⟨on, io, 3, 0, [(1, ⟨0, 1⟩), (1, ⟨2, 1⟩)], nsMem, by decide +kernel⟩

theorem witness_InstancesAreConfigured_1 : ∃ (s : State) (w : Who) (seq count room : Nat), s.adminReady w = true ∧ 1 ≤ count ∧ count ≤ 64 ∧ 16384 ≤ room ∧ room ≤ 1048576 :=
  ⟨on, adm, 0, 64, 16384, by decide +kernel⟩

theorem witness_InstancesAreConfigured_2 : ∃ (s : State) (w : Who) (f : Fn), s.adminReady w = true ∧ s.instanceGate w f 16 16 = none :=
  ⟨vfWith (Ctrl.reset 1), adm, 1, by decide +kernel⟩

theorem witness_InstancesAreConfigured_3 : ∃ (s : State) (w : Who) (f : Fn) (x : Share), s.adminReady w = true ∧ s.instanceGate w f 16 16 = none ∧ shareOk s f x = true ∧ queuePairs (s.ctrl f) ≤ x.queuePairs :=
  ⟨vfWith (Ctrl.reset 1), adm, 1, ⟨2, 1000, 32768, 0xFF, 4096⟩, by decide +kernel⟩

theorem witness_InstancesAreConfigured_4 : ∃ (s : State) (w : Who) (f : Fn) (i : Nat), s.adminReady w = true ∧ s.instanceGate w f 16 16 = none ∧ i < 1024 ∧ (s.ctrl f).freeze ≠ .frozen ∧ (s.xts i).use = 0 :=
  ⟨vfWith (Ctrl.reset 1), adm, 1, 1023, by decide +kernel⟩

theorem witness_InstancesAreConfigured_5 : ∃ (s : State) (w : Who) (f : Fn), s.adminReady w = true ∧ s.instanceGate w f 32 32 = none :=
  ⟨vfWith (Ctrl.reset 1), adm, 1, by decide +kernel⟩

theorem witness_InstancesAreConfigured_6 : ∃ (s : State) (f : Fn) (v : W32), mailboxReached s f true = true ∧ bitAt v 31 = true ∧ bitAt v 30 = false ∧ (s.ctrl f).flr = none ∧ s.regBit rVinCtl 0 = true ∧ (s.ctrl f).mbxIn.length < 8 :=
  ⟨regged [(rVinCtl, 1)] (vfWith { Ctrl.reset 1 with mbxIn := List.replicate 7 msgA }), 1, 0x80000000, by decide +kernel⟩

theorem witness_InstancesAreConfigured_7 : ∃ (s : State) (f : Fn) (v : W32), mailboxReached s f true = true ∧ bitAt v 31 = true ∧ bitAt v 30 = false ∧ (s.ctrl f).flr = none ∧ s.regBit rVinCtl 0 = true ∧ 8 ≤ (s.ctrl f).mbxIn.length :=
  ⟨regged [(rVinCtl, 1)] (vfWith { Ctrl.reset 1 with mbxIn := List.replicate 8 msgA }), 1, 0x80000000, by decide +kernel⟩

theorem witness_InstancesAreConfigured_8 : ∃ (s : State) (f : Fn) (v : W32), mailboxReached s f false = true ∧ bitAt v 30 = true ∧ bitAt v 31 = false :=
  ⟨vfWith { Ctrl.reset 1 with mbxIn := [msgA] }, 1, 0x40000000, by decide +kernel⟩

theorem witness_InstancesMigrate_1 : ∃ (s : State) (w : Who) (f : Fn), s.adminReady w = true ∧ s.instanceGate w f 6560 6560 = none :=
  ⟨vfWith (Ctrl.reset 1), adm, 1, by decide +kernel⟩

theorem witness_InstancesMigrate_3 : ∃ (s : State) (w : Who) (f : Fn) (record : List Byte), s.adminReady w = true ∧ s.instanceGate w f record.length 6560 = none ∧ leAt record 4 2 ≤ compatLevel s ∧ compatLevel s ≤ leAt record 6 2 :=
  ⟨vfWith (Ctrl.reset 1), adm, 1, zeros 6560, by decide +kernel⟩

theorem witness_InstancesMigrate_4 : ∃ (s : State) (w : Who) (f : Fn), s.adminReady w = true ∧ s.migrateGate w f = true ∧ (s.ctrl f).flr = none ∧ (s.ctrl f).freeze = .none :=
  ⟨vfWith (readyCtrl 1), adm, 1, by decide +kernel⟩

theorem witness_InstancesMigrate_5 : ∃ (s : State) (w : Who) (f : Fn), s.adminReady w = true ∧ s.migrateGate w f = true ∧ (s.ctrl f).flr = none ∧ (s.ctrl f).freeze = .none ∧ (∀ x ∈ s.disp.waiting, x.who.fn ≠ f) ∧ flowsOf s f = [] ∧ (∀ x ∈ s.ftl.waiting, x.freezable f = false) ∧ w.fn ≠ f ∧ (∀ x ∈ (s.ctrl f).fetched, x.sq = 0 ∧ x.cid ∈ (s.ctrl f).aers) :=
  ⟨vfWith { readyCtrl 1 with fetched := [⟨0, 3, 0, none⟩], aers := [3] }, adm, 1, by decide +kernel⟩

theorem witness_InstancesMigrate_6 : ∃ (s : State) (w : Who) (f : Fn), s.adminReady w = true ∧ s.migrateGate w f = true ∧ (s.ctrl f).flr = none ∧ (s.ctrl f).freeze = .frozen ∧ (s.ctrl f).held = [] :=
  ⟨vfWith { readyCtrl 1 with freeze := .frozen }, adm, 1, by decide +kernel⟩

theorem witness_InstancesMigrate_7 : ∃ (s : State) (w : Who) (f : Fn) (room : Nat) (k : MigTarget), s.adminReady w = true ∧ s.migrateGate w f = true ∧ (s.ctrl f).flr = none ∧ (s.ctrl f).freeze = .frozen ∧ (s.ctrl f).migTarget = some k ∧ room ≤ 16777216 ∧ blobLen s f ≤ room :=
  ⟨vfWith { readyCtrl 1 with freeze := .frozen, migTarget := some ⟨1, zeros 1184, zeros 97⟩ }, adm, 1, 16777216, ⟨1, zeros 1184, zeros 97⟩, by decide +kernel⟩

theorem witness_InstancesMigrate_8 : ∃ (s : State) (w : Who) (f : Fn) (blob : List Byte) (k : MigKey), s.adminReady w = true ∧ s.migrateGate w f = true ∧ blob.length ≤ 16777216 ∧ (s.ctrl f).migKey = some k :=
  ⟨vfWith { Ctrl.reset 1 with migKey := some ⟨0, zeros 32⟩ }, adm, 1, leBytes 4 0x4D494752 ++ leBytes 2 1 ++ leBytes 2 0 ++ leBytes 4 1248 ++ zeros 1236, ⟨0, zeros 32⟩, by decide +kernel⟩

theorem witness_SidebandRequests_1 : ∃ (s : State) (tr : Nat), transportUp s tr = true ∧ sbServes s = true ∧ sbHeld s tr = [] :=
  ⟨on, 0, by decide +kernel⟩

theorem witness_SidebandRequests_2 : ∃ (s : State) (tr : Nat), transportUp s tr = true ∧ s.power.effective ≠ .hibernate ∧ (sbServes s = false ∨ sbHeld s tr ≠ []) :=
  ⟨holding (List.replicate 5 (heldCert 3)), 3, by decide +kernel⟩

theorem witness_SidebandRequests_3 : ∃ (s : State), s.sys.phase ≠ .off :=
  ⟨{ on with sys := { on.sys with phase := .booting } }, by decide +kernel⟩

theorem witness_SidebandRequests_4 : ∃ (s : State) (tr : Nat) (q : SbReq) (qs : List SbReq), sbHeld s tr = q :: qs :=
  ⟨holding [⟨1, true, .certMldsa⟩, heldCert 1], 1, ⟨1, true, .certMldsa⟩, [heldCert 1], by decide +kernel⟩

theorem witness_SidebandRequests_5 : ∃ (s : State) (q : SbReq) (qs : List SbReq), sbHeld s 0 = q :: qs :=
  ⟨holding [heldCert 0], heldCert 0, [], by decide +kernel⟩

theorem witness_PowerOnAndTrials_1 : ∃ (s : State) (split : Bool), (s.sys.phase = .off ∨ s.sys.phase = .bootHold ∨ s.sys.phase = .thermalShutdown ∨ s.sys.phase = .hold) :=
  ⟨State.reset, true, by decide +kernel⟩

theorem witness_PowerOnAndTrials_2 : ∃ (s : State), s.sys.phase = .bootHold :=
  ⟨bootIn .bootHold Boot.reset, by decide +kernel⟩

theorem witness_PowerOnAndTrials_3 : ∃ (s : State) (i : FwImage), s.running = true ∧ s.boot.trial = true ∧ s.boot.image = some i :=
  ⟨{ on with boot := { on.boot with trial := true } }, FwImage.factory, by decide +kernel⟩

theorem witness_PowerOnAndTrials_4 : ∃ (s : State), s.sys.phase = .booting ∧ s.boot.running ≠ 0 ∧ s.boot.running = s.boot.selector.pending :=
  ⟨bootIn .booting { Boot.reset with running := 2, selector := { Boot.reset.selector with pending := 2 } }, by decide +kernel⟩

theorem witness_LedgerAppends_1 : ∃ (s : State) (a : Append) (rest : List Append), s.running = true ∧ s.boot.appends = a :: rest ∧ s.boot.ledger.length < 65536 ∧ sysWaits s .ledger = false :=
  ⟨appending [appendA, appendA], appendA, [appendA], by decide +kernel⟩

theorem witness_LedgerAppends_2 : ∃ (s : State) (a : Append) (rest : List Append), s.running = true ∧ s.boot.appends = a :: rest ∧ sysWaits s .ledger = false :=
  ⟨appending [appendA], appendA, [], by decide +kernel⟩

theorem witness_LedgerAppends_3 : ∃ (s : State) (ok : Bool), sysWaits s .ledger = true :=
  ⟨{ appending [appendA] with media := { on.media with sysHeld := [.ledger] } }, true, by decide +kernel⟩

theorem witness_FirmwareIsCommitted_1 : ∃ (s : State) (w : Who) (off : Nat) (data : List Byte), s.adminReady w = true ∧ isManager w.fn = true ∧ off % 4096 = 0 ∧ data.length % 4096 = 0 ∧ off + data.length ≤ 12 * 2 ^ 20 :=
  ⟨on, adm, 4096, zeros 4096, by decide +kernel⟩

theorem witness_FirmwareIsCommitted_2 : ∃ (s : State) (w : Who) (slot : Nat) (m e : Bool) (i : FwImage), s.adminReady w = true ∧ isManager w.fn = true ∧ (slot = 1 ∨ slot = 2) ∧ slot ≠ s.boot.running ∧ i = FwImage.read s.boot.staged m e ∧ stagedReason s.boot i = 0 ∧ s.appendRoom = true :=
  ⟨fwDownloaded, adm, 2, true, true, FwImage.read fwImage true true, by decide +kernel, by decide +kernel, by decide, by decide +kernel, by rw [fwDownloaded_staged], fwDownloaded_reason, by decide +kernel⟩

theorem witness_FirmwareIsCommitted_3 : ∃ (s : State) (c : CommitJob) (rest : List CommitJob), s.running = true ∧ s.up .ctrl = true ∧ s.boot.commits = c :: rest ∧ (c.slot = 1 ∨ c.slot = 2) :=
  ⟨{ on with boot := { on.boot with commits := [⟨adm, 1, 2, FwImage.factory⟩] } }, ⟨adm, 1, 2, FwImage.factory⟩, [], by decide +kernel⟩

theorem witness_FirmwareIsCommitted_4 : ∃ (s : State) (w : Who) (slot : Nat) (i : FwImage), s.adminReady w = true ∧ isManager w.fn = true ∧ (slot = 1 ∨ slot = 2) ∧ slot ≠ s.boot.running ∧ s.boot.slotImage slot = some i ∧ imageValid s.boot i = true ∧ s.appendRoom = true :=
  ⟨{ on with boot := { on.boot with slotB := some FwImage.factory } }, adm, 2, FwImage.factory, by decide +kernel⟩

theorem witness_FirmwareIsCommitted_5 : ∃ (s : State) (w : Who) (slot : Nat) (m e : Bool) (i : FwImage), s.adminReady w = true ∧ isManager w.fn = true ∧ (slot = 1 ∨ slot = 2) ∧ slot ≠ s.boot.running ∧ i = FwImage.read s.boot.staged m e ∧ stagedReason s.boot i ≠ 0 :=
  ⟨downloaded, adm, 2, true, true, FwImage.read downloaded.boot.staged true true, by decide +kernel⟩

theorem witness_LadderEscalates_1 : ∃ (s : State), s.running = true ∧ s.up .ctrl = true ∧ resetsWithin s 3 .ctrl 0xFF (3600 * tSec) < 2 :=
  ⟨on, by decide +kernel⟩

theorem witness_LadderEscalates_2 : ∃ (s : State), s.running = true ∧ s.power.writesStopped = false ∧ dumpNeeded s = true ∧ setServes s 0 = true :=
  ⟨{ on with ftl := { on.ftl with slots := [(0, slotX)] } }, by decide +kernel⟩

theorem witness_LadderEscalates_3 : ∃ (s u : State) (i : Island) (unit : Nat), recovering s 1 i unit = true ∧ (u = (s.onSys fun y => { y with recovering := y.recovering.erase ⟨1, i, unit⟩ })) :=
  ⟨sysWith fun y => { y with recovering := [⟨1, .engine, 3⟩] }, (sysWith fun y => { y with recovering := [⟨1, .engine, 3⟩] }).onSys fun y => { y with recovering := y.recovering.erase ⟨1, .engine, 3⟩ }, .engine, 3, by decide +kernel⟩

theorem witness_LadderEscalates_4 : ∃ (s : State) (i : Island) (unit : Nat), recovering s 2 i unit = true :=
  ⟨sysWith fun y => { y with recovering := [⟨2, .media0, 0xFF⟩] }, .media0, 0xFF, by decide +kernel⟩

theorem witness_LadderEscalates_5 : ∃ (s : State) (i : Island) (unit : Nat), recovering s 3 i unit = true :=
  ⟨sysWith fun y => { y with recovering := [⟨3, .ctrl, 0xFF⟩] }, .ctrl, 0xFF, by decide +kernel⟩

theorem witness_LadderEscalates_6 : ∃ (s : State) (i : Island) (r : Recovery), (s.sys.recovering.find? (fun r => r.level = 1 ∧ r.island = i) = some r) ∧ i ≠ .compute :=
  ⟨sysWith fun y => { y with recovering := [⟨1, .engine, 3⟩] }, .engine, ⟨1, .engine, 3⟩, by decide +kernel⟩

theorem witness_LadderEscalates_7 : ∃ (s : State) (i : Island) (r : Recovery), (s.sys.recovering.find? (fun r => r.level = 2 ∧ r.island = i) = some r) :=
  ⟨sysWith fun y => { y with recovering := [⟨2, .engine, 0xFF⟩], down := [.engine] }, .engine, ⟨2, .engine, 0xFF⟩, by decide +kernel⟩

theorem witness_LadderEscalates_8 : ∃ (s : State) (r : Recovery), (s.sys.recovering.find? (fun r => r.level = 3 ∧ r.island = .ctrl) = some r) :=
  ⟨sysWith fun y => { y with recovering := [⟨3, .ctrl, 0xFF⟩], down := [.ctrl] }, ⟨3, .ctrl, 0xFF⟩, by decide +kernel⟩

theorem witness_BridgeErrors_1 : ∃ (s : State) (target source : Island) (req : BridgeReq), s.running = true :=
  ⟨on, .engine, .compute, .trailTask 0 1 0, by decide +kernel⟩

theorem witness_BridgeErrors_5 : ∃ (s : State) (g : Island) (k : Nat) (x : Slot), s.ftl.slots.find k = some x :=
  ⟨{ on with ftl := { on.ftl with slots := [(0, slotX)] } }, .mem, 0, slotX, by decide +kernel⟩

theorem witness_BridgeErrors_7 : ∃ (s : State) (target : Island), bridgeRecent s target < 3 :=
  ⟨sysWith fun y => { y with bridgeErrs := [(.engine, 0), (.engine, 0)] }, .engine, by decide +kernel⟩

theorem witness_BridgeErrors_8 : ∃ (s : State) (i : Island), s.running = true ∧ i ≠ .aon ∧ i ≠ .sec ∧ i ≠ .ctrl ∧ i ∉ s.sys.down ∧ 3 ≤ bridgeRecent s i ∧ resetsWithin s 2 i 0xFF (60 * tSec) < 2 :=
  ⟨thirdError .engine, .engine, by decide +kernel⟩

theorem witness_HeatAndPowerLoss_1 : ∃ (s : State) (raw : List Int), raw.length = 16 ∧ s.sys.phase ≠ .off :=
  ⟨{ on with power := { on.power with readings := [] } }, List.replicate 16 500, by decide +kernel⟩

theorem witness_HeatAndPowerLoss_4 : ∃ (s : State), s.running = true :=
  ⟨on, by decide +kernel⟩

theorem witness_HeatAndPowerLoss_5 : ∃ (s : State), s.sys.phase = .hold ∧ s.power.resetN = true ∧ s.board.fuseOk = true ∧ s.boot.usable s.boot.first = true ∧ s.boot.selector.tries < 2 :=
  ⟨heldPhase, by decide +kernel⟩

theorem witness_HeatAndPowerLoss_6 : ∃ (s : State) (split : Bool), s.sys.phase = .hold ∧ s.power.resetN = false ∧ s.power.pfailN = true ∧ s.power.railsBad = [] ∧ s.board.fuseOk = true ∧ s.boot.usable s.boot.first = true ∧ s.boot.selector.tries < 2 :=
  ⟨{ heldPhase with power := { on.power with resetN := false } }, true, by decide +kernel⟩

theorem witness_HeatAndPowerLoss_7 : ∃ (s : State) (rs : List Rail), (s.sys.phase = .dumping ∨ s.sys.phase = .hold) :=
  ⟨heldPhase, [.vddCore], by decide +kernel⟩

theorem witness_LifetimeRecords_1 : ∃ (s : State), s.sys.phase ≠ .off ∧ s.power.resetN = true :=
  ⟨{ on with power := { on.power with resetN := true, readings := [312, 400] } }, by decide +kernel⟩

theorem witness_LifetimeRecords_2 : ∃ (s : State), s.running = true ∧ s.health.writing = false ∧ s.power.writesStopped = false :=
  ⟨on, by decide +kernel⟩

theorem witness_LifetimeRecords_3 : ∃ (s : State), s.running = true ∧ (s.health.writing = true ∨ s.power.writesStopped = true) :=
  ⟨{ on with health := { on.health with writing := true } }, by decide +kernel⟩

theorem witness_LifetimeRecords_4 : ∃ (s : State) (r : Requester) (v : W32), s.barReaches r rTlmCtl = true ∧ bitAt v 0 = true ∧ s.health.writing = false ∧ s.power.writesStopped = false :=
  ⟨on, .portA, 1, by decide +kernel⟩

theorem witness_LifetimeRecords_5 : ∃ (s : State), s.running = true ∧ s.health.writing = true ∧ s.power.writesStopped = false :=
  ⟨{ on with health := { on.health with writing := true, flushAgain := true } }, by decide +kernel⟩

theorem witness_LifetimeRecords_6 : ∃ (s : State) (off : Nat) (v : W32) (rest : List CfgWrite), s.running = true ∧ s.up .ctrl = true ∧ sysWaits s .config = false ∧ s.health.cfg = .register off v :: rest :=
  ⟨{ on with health := { on.health with cfg := [.register 8 5, .note] } }, 8, 5, [.note], by decide +kernel⟩

theorem witness_LifetimeRecords_7 : ∃ (s : State) (w : Who) (st : Status) (dw0 : W32) (rest : List CfgWrite), s.running = true ∧ s.up .ctrl = true ∧ sysWaits s .config = false ∧ s.health.cfg = .complete w st dw0 :: rest :=
  ⟨{ on with health := { on.health with cfg := [.complete adm stOk 4] } }, adm, stOk, 4, [], by decide +kernel⟩

theorem witness_RegistersRead_1 : ∃ (s : State) (r : Requester) (off width : Nat), s.arrives r off = true :=
  ⟨on, .portA, 0x3FFFFFC, 4, by decide +kernel⟩

theorem witness_RegistersRead_2 : ∃ (s : State) (off v : Nat), s.arrives .portA off = true ∧ s.answers .portA off = true ∧ pairValue s off = some v ∧ off ≠ rBldEscLast ∧ off % 4 = 0 :=
  ⟨on, rStrSeedLo, on.str.seed.toNat, by decide +kernel⟩

theorem witness_RegistersRead_3 : ∃ (s : State) (r : Requester), (∀ f, r ≠ .vf f) ∧ s.arrives r rBldEscLast = true ∧ s.answers r rBldEscLast = true :=
  ⟨on, .portA, ⟨fun _ => by simp, by decide +kernel⟩⟩

theorem witness_RegistersRead_4 : ∃ (s : State) (r : Requester) (off : Nat), (∀ f, r ≠ .vf f) ∧ s.arrives r off = true ∧ s.answers r off = false ∧ off % 4 = 0 :=
  ⟨sysWith fun y => { y with down := [.engine] }, .portA, 0x100000, ⟨fun _ => by simp, by decide +kernel⟩⟩

theorem witness_RegistersWrite_1 : ∃ (s : State) (r : Requester) (v : W64), (∀ f, r ≠ .vf f) ∧ s.barReaches r rTopScratch = true :=
  ⟨on, .portA, 0x55, ⟨fun _ => by simp, by decide +kernel⟩⟩

theorem witness_RegistersWrite_2 : ∃ (s : State) (r : Requester) (off width : Nat) (v : W64), width ≠ 4 ∧ width ≠ 8 :=
  ⟨on, .portA, 0, 2, 1, by decide +kernel⟩

theorem witness_RegistersWrite_3 : ∃ (s : State) (r : Requester) (off : Nat) (v : W64), s.arrives r off = true ∧ off % 8 = 0 :=
  ⟨on, .vf 1, 0, 1, by decide +kernel⟩

theorem witness_RegistersWrite_4 : ∃ (s : State) (r : Requester) (v : W64), (∀ f, r ≠ .vf f) ∧ s.barReaches r rDspThresh = true ∧ s.locked rDspThresh = true :=
  ⟨regged [(rDspCtl, 0x80000000)] on, .portA, 7, ⟨fun _ => by simp, by decide +kernel⟩⟩

theorem witness_RegistersWrite_5 : ∃ (s : State) (r : Requester) (v : W64) (off : Nat), (∀ f, r ≠ .vf f) ∧ s.barReaches r off = true ∧ isCtl off = true ∧ s.regBit off 31 = true :=
  ⟨regged [(rDspCtl, 0x80000000)] on, .portA, 0, rDspCtl, ⟨fun _ => by simp, by decide +kernel⟩⟩

theorem witness_RegistersWrite_6 : ∃ (s : State) (r : Requester) (off : Nat) (v : W32), isCtl off = true ∧ bitAt v 31 = true ∧ s.barReaches r off = true :=
  ⟨on, .portA, rDspCtl, 0x80000000, by decide +kernel⟩

theorem witness_RegistersWrite_7 : ∃ (s : State) (r : Requester) (off b : Nat) (v : W32), clrBit off = some b ∧ bitAt v b = true ∧ s.barReaches r off = true :=
  ⟨on, .portA, rDspCtl, 0, 1, by decide +kernel⟩

theorem witness_RegistersWrite_8 : ∃ (s : State) (r : Requester) (p : Port) (v : W32), s.barReaches r (rTopIrqCfg p) = true ∧ s.locked (rTopIrqCfg p) = false ∧ (p = .a ∨ s.sys.portSplit = true) :=
  ⟨on, .portA, .a, 0xFFFFFFFF, by decide +kernel⟩

theorem witness_RegistersWrite_9 : ∃ (s : State) (r : Requester) (v : W32), s.barReaches r rBridgeErr = true :=
  ⟨on, .portA, 0x80000000, by decide +kernel⟩

theorem witness_RegistersWrite_10 : ∃ (s : State) (r : Requester) (v : W32), s.barReaches r rDmaErrStatus = true :=
  ⟨on, .portA, 0x80000000, by decide +kernel⟩

theorem witness_RegistersWrite_11 : ∃ (s : State) (r : Requester) (v : W32), s.barReaches r rRleErr = true :=
  ⟨on, .portA, 0x80000000, by decide +kernel⟩

theorem witness_RegistersWrite_12 : ∃ (s : State) (r : Requester) (v : W32), s.barReaches r rEccUeStatus = true :=
  ⟨on, .portA, 0x80000000, by decide +kernel⟩

theorem witness_RegistersWrite_13 : ∃ (s : State) (r : Requester) (v : W32), s.barReaches r rLnxErr = true ∧ bitAt v 31 = true ∧ lowestLost s = none :=
  ⟨on, .portA, 0x80000000, by decide +kernel⟩

theorem witness_StepRunsTheFrontCommand_1 : ∃ (c : Instr) (s : State) (rest : List Instr), s.pending = c :: rest :=
  ⟨.portReset .a, { on with pending := [.portReset .a, .portReset .b] }, [.portReset .b], by decide +kernel⟩

theorem witness_StepRunsTheFrontCommand_2 : ∃ (s : State), s.pending = [] :=
  ⟨on, by decide +kernel⟩

theorem witness_FirmwareStaysSecure_1 : ∃ (s t : State), SecureFirmware s ∧ step s = .next t :=
  ⟨{ on with boot := { on.boot with trial := true }, pending := [.trialConfirm] }, stateOf (step { on with boot := { on.boot with trial := true }, pending := [.trialConfirm] }), ⟨fun i h => by cases h; decide, rfl⟩⟩

theorem witness_CreditsAndGrants_2_emptyChunk : ∃ (s : State) (i c : Nat) (f : Flow) (e : Task) (place : Placement) (nsid slba extent slot a k rest : Nat) (n : Ns), dispatching s = true ∧ s.boundFlow i = some f ∧ flowGoes s f = true ∧ s.entry i (Trail.sinkIx f.trail) c = some e ∧ Trail.stageAt f.trail (Trail.sinkIx f.trail) = some (.lbaSink place nsid slba extent slot) ∧ wantsGrant e = true ∧ s.ns.find nsid = some n ∧ lbaExtent n e place slba extent slot (lbaPlan s f n e place extent slot) = (a, k, rest) ∧ e.empty = true ∧ sinkWaits s e = false ∧ (s.nvmGate f.owner nsid a (k + rest) true false).isOk = true ∧ s.writeFails n { who := ⟨f.owner, 0, 0⟩, kind := .sink e.flow e.cslot rest, nsid := nsid, slba := a, nlb := k } = none ∧ k + rest ≠ 0 :=
  ⟨flowing ({ sinkFlow with trail := { sinkFlow.trail with stages := [.hostSource false 0x2000 4096, .lbaSink .slotted 1 0 16 8] } }) [sinkEntry], 0, 0, { sinkFlow with trail := { sinkFlow.trail with stages := [.hostSource false 0x2000 4096, .lbaSink .slotted 1 0 16 8] } }, sinkEntry, .slotted, 1, 0, 16, 8, 0, 0, 8, nsA, by decide +kernel⟩

theorem witness_CreditsAndGrants_2_refused : ∃ (s : State) (i c : Nat) (f : Flow) (e : Task) (place : Placement) (nsid slba extent slot a k rest : Nat) (n : Ns), dispatching s = true ∧ s.boundFlow i = some f ∧ flowGoes s f = true ∧ s.entry i (Trail.sinkIx f.trail) c = some e ∧ Trail.stageAt f.trail (Trail.sinkIx f.trail) = some (.lbaSink place nsid slba extent slot) ∧ wantsGrant e = true ∧ s.ns.find nsid = some n ∧ lbaExtent n e place slba extent slot (lbaPlan s f n e place extent slot) = (a, k, rest) ∧ k + rest ≠ 0 ∧ sinkWaits s e = false ∧ s.nvmGate f.owner nsid a (k + rest) true false = .error stLbaRange :=
  ⟨flowing ({ sinkFlow with trail := { sinkFlow.trail with stages := [.hostSource false 0x2000 4096, .lbaSink .slotted 1 250 16 8] } }) [sinkEntry], 0, 0, { sinkFlow with trail := { sinkFlow.trail with stages := [.hostSource false 0x2000 4096, .lbaSink .slotted 1 250 16 8] } }, sinkEntry, .slotted, 1, 250, 16, 8, 250, 0, 8, nsA, by decide +kernel⟩

theorem witness_MonitorCallsReturn_5_unverified : ∃ (s u : State) (h table c : Nat) (key : List Byte) (seen : UnitSeen) (k : Kernel) (x : LynxTable) (a : Option Nat), computing s = true ∧ h < 64 ∧ queueFillOf s .lynx 0 < queueRoom .lynx ∧ s.lynx.restoring = false ∧ (s.hart h).kernel = some k ∧ k.phase = .run ∧ k.search = some (table, key) ∧ s.lynxTable table = some x ∧ x.faulted = false ∧ (∀ st, seen ≠ .error st) ∧ (freeCopy s table x.copies (fun t => (s.taskStage t).any Stage.isInsert) = some c) ∧ s.searchCall table c (softOf seen) key = (u, a) ∧ a = none :=
  ⟨searching lynxBad, ((searching lynxBad).searchCall 1 0 [] keyA).1, 0, 1, 0, keyA, .good, { kernA with search := some (1, keyA) }, tableBad, none, ⟨by decide +kernel, by decide +kernel, by decide +kernel, by decide +kernel, by decide +kernel, by decide +kernel, by decide +kernel, by decide +kernel, by decide +kernel, fun st => by simp, by decide +kernel, by decide +kernel, rfl⟩⟩

theorem witness_AlarmErasesKeys_4_noClass : ∃ (s : State) (a : AlarmCause), (s.sys.phase = .off ∨ alarmCan s a = false) ∧ s.sys.phase ≠ .off :=
  ⟨regged [(rSeaFaultCfg, 0)] on, .invMismatch, by decide +kernel⟩

end Sys2Proof.Machine.Tests
end

section
/-! PROOFS. The scope statements: modules and clusters (O10), bridge errors (O52) and register writes (O56), with the laws of the
shared operations that they use. -/

open Sys2Proof Sys2Proof.Machine

namespace Sys2Proof.Machine

/-! ## Tables, registers and bits -/

theorem Tbl.find_mapVals {α : Type} (t : Tbl α) (f : Nat → α → α) (k : Nat) : (t.mapVals f).find k = (t.find k).map (f k) := by
  induction t with
  | nil => rfl
  | cons e t ih =>
    obtain ⟨a, v⟩ := e
    by_cases h : k = a
    · subst h; simp [Tbl.mapVals, Tbl.find]
    · simpa [Tbl.mapVals, Tbl.find, h] using ih

theorem Tbl.find_put {α : Type} [DecidableEq α] (d : α) (t : Tbl α) (k j : Nat) (x : α) :
    (Tbl.put d t k x).find j = if j = k then (if x = d then none else some x) else t.find j := by
  unfold Tbl.put
  split
  · simp [Tbl.find_erase]
  · simp [Tbl.find_set]

/-- A stored register reads as it was stored, and every other as before. -/
theorem State.reg_setReg (s : State) (off j : Nat) (v : W32) : (s.setReg off v).reg j = if j = off then v else s.reg j := by
  by_cases h : j = off
  · subst h; simp [State.reg, State.setReg]
  · simp [State.reg, State.setReg, Tbl.getD, Tbl.find_put, h]

@[simp] theorem State.reg_setReg_self (s : State) (off : Nat) (v : W32) : (s.setReg off v).reg off = v := by simp [State.reg_setReg]

theorem State.reg_of_regs {s t : State} (h : t.regs = s.regs) (off : Nat) : t.reg off = s.reg off := by
  simp [State.reg, h]

/-- The flags' messages leave every register alone. -/
@[simp] theorem State.irq_regs (s : State) : s.irq.regs = s.regs :=
  only_of_blank (s.irq_blank (ps := [.sys, .host]) (by simp)) .regs (by simp)

@[simp] theorem State.reg_irq (s : State) (off : Nat) : s.irq.reg off = s.reg off := State.reg_of_regs (State.irq_regs s) off

theorem irqSend_sys (s : State) (p : Port) (seen : BitVec 10) : (irqSend s p seen).sys = s.sys :=
  only_of_blank (irqSend_blank (ps := [.host]) s p seen (by simp)) .sys (by simp)

/-- Of the system state the flags' messages change what was seen of the conditions. -/
theorem State.irq_sys (s : State) : s.irq.sys = { s.sys with irqSeenA := irqCond s .a, irqSeenB := irqCond s .b } := by
  simp [State.irq, irqSend_sys]

/-- Two registers whose bits of a field agree hold the same field. -/
theorem fld_congr {a b : W32} {hi lo : Nat} (h : ∀ i, lo ≤ i → i ≤ hi → bitAt a i = bitAt b i) : fld a hi lo = fld b hi lo := by
  refine Nat.eq_of_testBit_eq fun j => ?_
  simp only [fld, bitsOf, Nat.testBit_mod_two_pow, Nat.testBit_div_two_pow]
  by_cases hj : j < hi + 1 - lo
  · simpa [hj, bitAt, BitVec.getLsbD] using h (j + lo) (by omega) (by omega)
  · simp [hj]

@[simp] theorem bitAt_or (a b : W32) (i : Nat) : bitAt (a ||| b) i = (bitAt a i || bitAt b i) := BitVec.getLsbD_or

@[simp] theorem bitAt_and (a b : W32) (i : Nat) : bitAt (a &&& b) i = (bitAt a i && bitAt b i) := BitVec.getLsbD_and

/-! ## What the shared operations leave alone -/

theorem State.addLife_only (s : State) (key n : Nat) : OnlyChanges [.health] s (s.addLife key n) :=
  only_of_blank (s.addLife_blank (ps := [.health]) key n (by simp))

theorem State.requestAppend_only (s : State) (a : Append) : OnlyChanges [.media, .boot] s (s.requestAppend a) :=
  only_of_blank (s.requestAppend_blank a (by simp))

theorem State.sysBegin_only (s : State) (w : SysWrite) : OnlyChanges [.media] s (s.sysBegin w) :=
  only_of_blank (s.sysBegin_blank w (by simp))

theorem State.requestAppend_appends (s : State) (a : Append) : (s.requestAppend a).boot.appends = s.boot.appends ++ [a] := by
  unfold State.requestAppend
  extract_lets s1
  split
  · exact congrArg Boot.appends (State.sysBegin_only s1 .ledger .boot (by simp))
  · rfl

theorem State.requestAppend_hrt (s : State) (a : Append) : (s.requestAppend a).hrt = s.hrt := State.requestAppend_only s a .hrt (by simp)

theorem State.cfgWrite_cfg (s : State) (c : CfgWrite) : (s.cfgWrite c).health.cfg = s.health.cfg ++ [c] := by
  unfold State.cfgWrite
  extract_lets s1
  split
  · exact congrArg Health.cfg (State.sysBegin_only s1 .config .health (by simp))
  · rfl

theorem State.cfgWrite_hrt (s : State) (c : CfgWrite) : (s.cfgWrite c).hrt = s.hrt :=
  only_of_blank (s.cfgWrite_blank (ps := [.media, .health]) c (by simp)) .hrt (by simp)

/-! ## The write buffer across a withdrawal of reads -/

theorem State.beginOp_blank_media_str (s : State) (l : Nat) (g : List MediaCmd) (reads : Nat) :
    (s.beginOp l g reads).blank [.media, .str] = s.blank [.media, .str] := by
  simp [State.beginOp]

theorem State.lunNext_blank_media_str (s : State) (l : Nat) : (s.lunNext l).blank [.media, .str] = s.blank [.media, .str] := by
  unfold State.lunNext
  extract_lets x
  split
  case isTrue => rfl
  case isFalse =>
    split
    case isTrue => simp
    case isFalse =>
      cases nextResense s l with
      | some c => simp
      | none =>
        dsimp only
        split
        case isTrue =>
          split
          case isTrue => split <;> simp
          case isFalse => cases arbiter x.queue false <;> simp [State.beginOp_blank_media_str]
        case isFalse =>
          cases arbiter (startable s l) (writesAllowed s && channelCarries s (l / 64)) <;> simp [State.beginOp_blank_media_str]

theorem State.withdraw_slots (s : State) (p : ReadClient → Bool) : (s.withdraw p).ftl.slots = s.ftl.slots := by
  have wake (u : State) : u.wakeAll.ftl = u.ftl := by
    refine only_of_blank (ps := [.media, .str]) ?_ .ftl (by simp)
    exact blank_foldl _ State.lunNext_blank_media_str _ _
  simp [State.withdraw, wake]

theorem State.find_onSlot (s : State) (k : Nat) (g : Slot → Slot) : (s.onSlot k g).ftl.slots.find k = (s.ftl.slots.find k).map g := by
  simp [State.onSlot, Tbl.find_modify]

/-! ## Bridge errors (R16 to R19) -/

/-- Of the system state a bridge error that is counted changes nothing before it joins the errors of the last 1 ms. -/
theorem State.countBridge_sys (s : State) (target source : Island) (key : Nat) :
    ((s.recordBridge target source).addLife key 1).sys = s.sys :=
  only_of_blank (ps := [.regs, .health]) (by simp) .sys (by simp)

theorem State.noteBridge_reg (s : State) (target source : Island) (off : Nat) :
    (s.noteBridge target source).reg off = (s.recordBridge target source).reg off := by
  unfold State.noteBridge
  rw [State.reg_irq]
  exact State.reg_of_regs (State.addLife_only _ _ _ .regs (by simp)) off

theorem State.noteBridge_only (s : State) (target source : Island) :
    OnlyChanges [.regs, .sys, .health, .host] s (s.noteBridge target source) :=
  only_of_blank (s.noteBridge_blank target source (by simp))

/-- R19: the first error since the record was cleared names its islands. -/
theorem State.noteBridge_records_first (s : State) (target source : Island) (h : s.regBit rBridgeErr 31 = false) :
    (s.noteBridge target source).reg rBridgeErr = w32 (2 ^ 31 + islandCode target * 16 + islandCode source) := by
  rw [State.noteBridge_reg]
  simp [State.recordBridge, h]

theorem State.noteBridge_bridgeErrs (s : State) (target source : Island) :
    (s.noteBridge target source).sys.bridgeErrs =
      (s.sys.bridgeErrs.filter fun e => decide (s.now < e.2 + tMs)) ++ [(target, s.now)] := by
  simp only [State.noteBridge, State.irq_sys, State.onSys_sys, State.countBridge_sys]

theorem State.noteBridge_now (s : State) (target source : Island) : (s.noteBridge target source).now = s.now := by
  simp only [State.now, State.noteBridge, State.irq_sys, State.onSys_sys, State.countBridge_sys]

theorem bridgeRecent_noteBridge (s : State) (target source : Island) :
    bridgeRecent (s.noteBridge target source) target = bridgeRecent s target + 1 := by
  have now_recent : s.now < s.now + tMs := by simp [tMs]
  simp [bridgeRecent, State.noteBridge_bridgeErrs, State.noteBridge_now, List.filter_append, List.filter_filter, now_recent]

/-- A flush that meets a bridge error keeps the data of its slot (R17). -/
theorem State.bridgeAnswer_flush_keeps (s : State) (g : Island) (k : Nat) (x : Slot) (h : s.ftl.slots.find k = some x) :
    ∃ y, (s.bridgeAnswer g (.flush k)).ftl.slots.find k = some y ∧ y.mem = x.mem ∧ y.iu = x.iu ∧ y.mask = x.mask := by
  have hs : s.slot k = some x := h
  simp only [State.bridgeAnswer, hs]
  split
  · rw [State.find_onSlot, State.withdraw_slots, h, Option.map_some]
    exact ⟨_, rfl, rfl, rfl, rfl⟩
  · exact ⟨x, h, rfl, rfl, rfl⟩

/-! ## Escalation -/

/-- The reset of an island that resets alone leaves it down. -/
theorem State.l2Reset_downs (s : State) (i : Island) (unit cause : Nat) (hrun : s.running = true) (hAon : i ≠ .aon) (hSec : i ≠ .sec)
    (hCtrl : i ≠ .ctrl) (hUp : i ∉ s.sys.down) (hFew : resetsWithin s 2 i 0xFF (60 * tSec) < 2) :
    i ∈ (s.l2Reset i unit cause).sys.down := by
  have hphase : s.sys.phase = .running := by simpa [State.running] using hrun
  have hNot : ¬ 2 ≤ resetsWithin s 2 i 0xFF (60 * tSec) := by omega
  simp only [State.l2Reset, hphase, hAon, hSec, hCtrl, hUp, hNot, State.irq_sys, State.onSys_sys, ne_eq, not_true_eq_false, or_self, if_false]
  unfold addOnce
  split
  · assumption
  · simp

/-- Settles O52: each clause is one of the laws above, and the answers to a requester are the model's equations. -/
theorem bridgeErrors : Obligations.BridgeErrors := by
  unfold Obligations.BridgeErrors
  refine ⟨?runs, fun _ _ _ _ _ => rfl, fun _ _ _ => rfl, fun _ _ _ => rfl, State.bridgeAnswer_flush_keeps, ?notes, ?few, ?third⟩
  case runs =>
    intro s target source req hrun
    simp [exec, execBridgeTimeout, hrun, State.bridgeError]
  case notes =>
    exact fun s target source =>
      ⟨State.noteBridge_only s target source, State.noteBridge_records_first s target source, bridgeRecent_noteBridge s target source⟩
  case few =>
    intro s target h
    simp [State.bridgeEscalate, Nat.not_le.mpr h]
  case third =>
    intro s i hrun hAon hSec hCtrl hUp hRecent hFew
    simp only [State.bridgeEscalate, hRecent, if_true, State.irq_sys]
    exact State.l2Reset_downs _ i 0xFF 3 hrun hAon hSec hCtrl hUp hFew

/-! ## The queue of loads (R144, R145) -/

/-- The first load of the queue begins, where its container passes the length and the header check (R144, R145). -/
theorem State.loadServe_begins (s : State) (l : Load) (rest : List Load) (hl : s.hrt.loads = l :: rest) (hstep : l.step = 0)
    (hkind : l.enrol = false) (hlen : imageLength l.image = l.image.length) (hhead : headerReason l.image = 0) :
    s.loadServe = s.onHrt fun h => { h with loads := { l with step := 2 } :: rest } := by
  simp [State.loadServe, State.loadNext, hl, hstep, hkind, hlen, hhead]

/-- The first load of the queue is an enrolment that passes its checks: the authority changes, and the record is requested (R144, R460). -/
theorem State.loadServe_enrols (s : State) (l : Load) (rest : List Load) (hl : s.hrt.loads = l :: rest) (hstep : l.step = 0)
    (hkind : l.enrol = true) (hpass : s.enrolRefused l = none) :
    s.loadServe = (s.enrol l).onHrt fun h => { h with loads := { l with step := 4 } :: rest } := by
  simp [State.loadServe, State.loadNext, hl, hstep, hkind, hpass]

theorem moduleLoad_begins (s : State) (w : Who) (cdw10 cdw11 : W32) (img : List Byte) (v : Nat) (f : Fn)
    (hready : s.adminReady w = true) (hpos : 0 < cdw10.toNat) (hmax : cdw10.toNat ≤ 25165824) (hop : fld cdw11 3 0 = 0)
    (hvis : loadVisibility s w.fn cdw11 = some (v, f)) (hlen : img.length = cdw10.toNat) (himg : imageLength img = img.length)
    (hhead : headerReason img = 0) (hnone : s.hrt.loads = []) :
    Completes (.moduleLoad w cdw10 cdw11 img) s fun t =>
      t.hrt = { s.hrt with loads := [{ who := w, enrol := false, declared := cdw10.toNat, image := img, visibility := v, visibleTo := f, step := 2 }] } ∧
      OnlyChanges [.hrt] s t := by
  have hall : img.take cdw10.toNat = img := by rw [← hlen, List.take_length]
  have taken : ¬ (cdw10.toNat = 0 ∨ 25165824 < cdw10.toNat ∨ 1 < fld cdw11 3 0) := by omega
  have load : fld cdw11 3 0 ≠ 1 := by omega
  refine ⟨s.moduleLoad w cdw10 cdw11 img, by simp [exec, execModuleLoad, hready], ?_⟩
  rw [State.moduleLoad, if_neg taken, if_neg load]
  simp only [hvis, hall]
  rw [State.loadServe_begins _ _ [] (by simp only [State.onHrt_hrt, hnone, List.nil_append]; rfl) rfl rfl himg hhead]
  exact ⟨rfl, only_of_blank (by simp)⟩

theorem moduleMeasureDone_compares (s : State) (l : Load) (rest : List Load) (hrun : s.running = true)
    (hl : s.hrt.loads = l :: rest) (hstep : l.step = 2) :
    Completes .moduleMeasureDone s fun t =>
      (measureImage l.image = imageMeasurement l.image →
        t.hrt = { s.hrt with loads := { l with step := 3 } :: rest } ∧ OnlyChanges [.hrt] s t) ∧
      (measureImage l.image ≠ imageMeasurement l.image → t = s.rejectLoad l 3) := by
  by_cases hm : measureImage l.image = imageMeasurement l.image
  · exact ⟨s.onHrt fun h => { h with loads := { l with step := 3 } :: rest }, by simp [exec, execModuleMeasureDone, hl, hstep, hrun, hm],
      fun _ => ⟨rfl, only_of_blank (by simp)⟩, fun h => absurd hm h⟩
  · exact ⟨s.rejectLoad l 3, by simp [exec, execModuleMeasureDone, hl, hstep, hrun, hm], fun h => absurd h hm, fun _ => rfl⟩

theorem moduleSignatureDone_verifies (s : State) (l : Load) (rest : List Load) (hrun : s.running = true)
    (hl : s.hrt.loads = l :: rest) (hstep : l.step = 3) :
    Completes .moduleSignatureDone s fun t =>
      (signatureReason s l = 0 → t.hrt = { s.hrt with loads := { l with step := 4 } :: rest } ∧
        t.boot.appends = s.boot.appends ++ [loadAppend s l] ∧ OnlyChanges [.hrt, .media, .boot] s t) ∧
      (signatureReason s l ≠ 0 → t = s.rejectLoad l (signatureReason s l)) := by
  by_cases hr : signatureReason s l = 0
  · refine ⟨(s.requestAppend (loadAppend s l)).onHrt fun h => { h with loads := { l with step := 4 } :: rest },
      by simp [exec, execModuleSignatureDone, hl, hstep, hrun, hr], fun _ => ⟨?_, ?_, only_of_blank (by simp)⟩, fun h => absurd hr h⟩
    · simp [State.requestAppend_hrt]
    · simp [State.requestAppend_appends]
  · exact ⟨s.rejectLoad l (signatureReason s l), by simp [exec, execModuleSignatureDone, hl, hstep, hrun, hr],
      fun h => absurd h hr, fun _ => rfl⟩

/-! ## Unload and removal -/

theorem moduleUnload_marks (s : State) (w : Who) (m : Nat) (x : Module) (hready : s.adminReady w = true) (hm : s.module m = some x)
    (hwho : w.fn = x.loader ∨ w.fn = managerFn (portOfFn x.loader)) :
    exec (.moduleUnload w m false) s =
      .next ((s.onHrt fun h => { h with modules := h.modules.set m { x with st := .unloading, removing := true } }).admin w stOk 0) := by
  simp only [exec, execModuleUnload, hready, hm]
  rw [if_neg (by simp), if_neg (by simp only [hwho]; decide)]
  rfl

theorem State.dropModuleLines_kernel (s : State) (m h : Nat) : ((s.dropModuleLines m).hart h).kernel = (s.hart h).kernel := by
  simp only [State.hart, State.dropModuleLines, State.onHrt_hrt, Tbl.getD, Tbl.find_mapVals]
  cases s.hrt.harts.find h <;> rfl

theorem moduleRemove_removes (s : State) (m : Nat) (x : Module) (hm : s.module m = some x) (hx : x.removing = true)
    (hidle : moduleTrails s m = []) (hforced : x.forced = []) (hrun : s.running = true) (hroom : s.appendRoom = true) :
    Completes (.moduleRemove m) s fun t =>
      t.hrt.modules = s.hrt.modules.erase m ∧ (∀ h, (t.hart h).kernel = (s.hart h).kernel) ∧
      (∃ a, t.boot.appends = s.boot.appends ++ [a] ∧ a.kind = 2) ∧ OnlyChanges [.hrt, .media, .boot] s t := by
  have hexec : exec (.moduleRemove m) s =
      .next (((s.dropModuleLines m).onHrt fun h => { h with modules := h.modules.erase m }).requestAppend
        { kind := 2, cause := 0, then_ := .nothing, comps := [moduleComponent m x.visibleTo x.version.toNat x.measurement] }) := by
    simp [exec, execModuleRemove, hm, hx, hidle, hforced, hrun, hroom]
  refine ⟨_, hexec, ?_, fun h => ?_, ⟨_, State.requestAppend_appends _ _, rfl⟩, only_of_blank (by simp)⟩
  · rw [State.requestAppend_hrt]; rfl
  · rw [← State.dropModuleLines_kernel s m h]
    simp only [State.hart, State.requestAppend_hrt, State.onHrt_hrt]

/-! ## Enrolment -/

/-- The check of an enrolment passes for an authority that no port has enrolled (R460). -/
theorem State.enrolRefused_eq_none (s : State) (l : Load) (hdecl : l.declared = l.image.length) (hlen : l.image.length = 2080)
    (hindex : leAt l.image 0 2 < 32) (hmldsa : leAt l.image 2 2 = 1952) (hecdsa : leAt l.image 4 2 = 97) (hzero : leAt l.image 6 2 = 0)
    (hpad : ∀ b ∈ slice l.image 0x819 7, b = 0) (hnew : s.hrt.authorities.find (leAt l.image 0 2) = none)
    (hroom : s.appendRoom = true) : s.enrolRefused l = none := by
  have index : ¬ 32 ≤ leAt l.image 0 2 := by omega
  simpa [State.enrolRefused, hdecl, hlen, index, hmldsa, hecdsa, hzero, hnew, hroom] using hpad

/-- An enrolment with keys keeps both of them for the port (R459). -/
theorem State.enrol_authorities (s : State) (l : Load) (hmldsa : leAt l.image 2 2 ≠ 0) :
    (s.enrol l).hrt.authorities = s.hrt.authorities.set (leAt l.image 0 2)
      { mldsa := slice l.image 0x018 1952, ecdsa := slice l.image 0x7B8 97, port := portOfFn l.who.fn, loaders := loadersOf l.image } := by
  simp [State.enrol, State.cfgWrite_hrt, hmldsa]

/-- An enrolment with keys requests its ledger record (R459). -/
theorem State.enrol_cfg (s : State) (l : Load) (hmldsa : leAt l.image 2 2 ≠ 0) :
    ∃ e, (s.enrol l).health.cfg = s.health.cfg ++ [.append e] ∧ e.kind = 3 ∧ e.cause = 0 ∧ e.then_ = .enrolled :=
  ⟨_, State.cfgWrite_cfg _ _, rfl, if_neg hmldsa, rfl⟩

/-- The load that ENROLL puts in the queue. -/
def enrolLoad (w : Who) (cdw10 : W32) (data : List Byte) : Load :=
  { who := w, enrol := true, declared := cdw10.toNat, image := data, visibility := 0, visibleTo := w.fn, step := 0 }

theorem enroll_keeps_keys (s : State) (w : Who) (cdw10 : W32) (data : List Byte) (hready : s.adminReady w = true)
    (hmgr : isManager w.fn = true) (hcdw : cdw10.toNat = 2080) (hlen : data.length = 2080) (hindex : leAt data 0 2 < 32)
    (hmldsa : leAt data 2 2 = 1952) (hecdsa : leAt data 4 2 = 97) (hzero : leAt data 6 2 = 0) (hpad : ∀ b ∈ slice data 0x819 7, b = 0)
    (hnew : s.hrt.authorities.find (leAt data 0 2) = none) (hroom : s.appendRoom = true) (hnone : s.hrt.loads = []) :
    Completes (.enroll w cdw10 data) s fun t =>
      t.hrt.authorities = s.hrt.authorities.set (leAt data 0 2)
        { mldsa := slice data 0x018 1952, ecdsa := slice data 0x7B8 97, port := portOfFn w.fn, loaders := loadersOf data } ∧
      (∃ l, t.hrt.loads = [l] ∧ l.who = w ∧ l.step = 4) ∧
      (∃ e, t.health.cfg = s.health.cfg ++ [.append e] ∧ e.kind = 3 ∧ e.cause = 0 ∧ e.then_ = .enrolled) := by
  have keys : leAt data 2 2 ≠ 0 := by omega
  have taken : ¬ (!isManager w.fn ∨ cdw10.toNat = 0 ∨ 25165824 < cdw10.toNat) := by simp [hmgr, hcdw]
  refine ⟨s.enroll w cdw10 data, by simp [exec, execEnroll, hready], ?_⟩
  rw [State.enroll, if_neg taken, State.loadServe_enrols _ (enrolLoad w cdw10 data) [] ?queue rfl rfl ?passes]
  case queue => simp [hnone, enrolLoad]
  case passes => exact State.enrolRefused_eq_none _ _ (hcdw.trans hlen.symm) hlen hindex hmldsa hecdsa hzero hpad hnew hroom
  exact ⟨State.enrol_authorities _ (enrolLoad w cdw10 data) keys, ⟨_, rfl, rfl, rfl⟩, State.enrol_cfg _ (enrolLoad w cdw10 data) keys⟩

/-! ## CLUSTER_EN (R7, R149) -/

/-- A write of HRT_CTL puts the RWL bits [7:0] that it carries in place, unless the block is locked (R7, R149). -/
theorem State.writeFields_hrtCtl (s : State) (v : W32) :
    (s.writeFields rHrtCtl v).reg rHrtCtl =
      if s.locked rHrtCtl then s.reg rHrtCtl else (s.reg rHrtCtl &&& ~~~0xFF#32) ||| (v &&& 0xFF#32) := by
  have noRw : rwMask rHrtCtl = 0 := by decide
  have rwl : rwlMask rHrtCtl = 0xFF#32 := by decide
  have taken : writeTaken s rHrtCtl v = true := rfl
  have value : writeValue s rHrtCtl v = v := rfl
  have unsaved (t : State) : t.saveField rHrtCtl = t := rfl
  cases hl : s.locked rHrtCtl <;> simp [State.writeFields, noRw, rwl, taken, value, unsaved, hl, State.setBits]

/-- CLR_COUNTERS of HRT leaves HRT_CTL itself. -/
theorem State.clrBlock_hrtCtl (s : State) : (s.clrBlock rHrtCtl).reg rHrtCtl = s.reg rHrtCtl :=
  (State.reg_setReg s rHrtFaultHead rHrtCtl _).trans (if_neg (by decide))

/-- LOCK and CLR_COUNTERS of HRT_CTL leave bits [30:0] as the fields of the write left them (R7). -/
theorem State.ctlWrite_hrtCtl (s : State) (v : W32) :
    (s.ctlWrite rHrtCtl v).reg rHrtCtl = (s.writeFields rHrtCtl v).reg rHrtCtl ||| (if bitAt v 31 then 0x80000000#32 else 0#32) := by
  have clr : clrBit rHrtCtl = some 8 := by decide
  simp only [State.ctlWrite, clr]
  split <;> split <;> simp [State.clrBlock_hrtCtl]

/-- A write of HRT_CTL: LOCK keeps CLUSTER_EN, and where it is clear CLUSTER_EN takes what was written (R7, R149). -/
theorem clusterEnWrite_acts (s : State) (r : Requester) (v : W32) (hr : s.barReaches r rHrtCtl = true) :
    Completes (.clusterEnWrite r v) s fun t =>
      (s.locked rHrtCtl = true → t.regFld rHrtCtl 7 0 = s.regFld rHrtCtl 7 0) ∧
      (s.locked rHrtCtl = false → bitAt v 8 = false → t.regFld rHrtCtl 7 0 = fld v 7 0) ∧
      (bitAt v 31 = true → t.locked rHrtCtl = true) := by
  have lockBit : ∀ i ≤ 7, bitAt (if bitAt v 31 then 0x80000000#32 else 0#32) i = false := by
    split <;> decide
  have enBits : ∀ i ≤ 7, bitAt 0xFF#32 i = true ∧ bitAt (~~~0xFF#32) i = false := by decide
  refine ⟨s.ctlWrite rHrtCtl v, by simp [exec, execClusterEnWrite, hr], fun hlock => ?_, fun hopen _ => ?_, fun hv => ?_⟩
  · refine fld_congr fun i _ hi => ?_
    rw [State.ctlWrite_hrtCtl, State.writeFields_hrtCtl, if_pos hlock, bitAt_or, lockBit i hi, Bool.or_false]
  · refine fld_congr fun i _ hi => ?_
    obtain ⟨inEn, notOut⟩ := enBits i hi
    simp only [State.ctlWrite_hrtCtl, State.writeFields_hrtCtl, hopen, Bool.false_eq_true, if_false, bitAt_or, bitAt_and, lockBit i hi, inEn, notOut,
      Bool.and_false, Bool.and_true, Bool.or_false, Bool.false_or]
  · show bitAt ((s.ctlWrite rHrtCtl v).reg rHrtCtl) 31 = true
    rw [State.ctlWrite_hrtCtl, if_pos hv, bitAt_or, Bool.or_eq_true]
    exact .inr (by decide)

/-- Settles O10: a lemma for each command of the load, the unload, the removal, the enrolment and the write of HRT_CTL. -/
theorem modulesAndClusters : Obligations.ModulesAndClusters := by
  unfold Obligations.ModulesAndClusters
  exact ⟨moduleLoad_begins, moduleMeasureDone_compares, moduleSignatureDone_verifies, moduleUnload_marks, moduleRemove_removes,
    enroll_keeps_keys, clusterEnWrite_acts⟩

/-! ## Writes that must reach the configuration area (R166, R580) -/

/-- A G9 that runs while heat has stopped its writes (R166, R539), with its manager's link up and nothing waiting for the configuration
area. -/
def hotG9 : State :=
  { State.reset with
    sys := { Sys.reset with phase := .running, down := [] }
    host := { HostSide.reset with portA := { PortState.reset true with linkUp := true } }
    power := { Power.reset with writesStopped := true } }

/-- CLR_COUNTERS and GEOM 1 in one write of STR_CTL: GEOM is a saved field (R264, R580), and the write of the configuration area that it asks
for waits among the system writes of the media part while writes are stopped. -/
theorem clrCounters_holds_configWrite :
    ∃ t, exec (.clrCounters .portA rStrCtl 0x101) hotG9 = .next t ∧ t.media.sysHeld = [.config] :=
  ⟨_, rfl, by decide⟩

/-- Refutes O56: its clause on CLR_COUNTERS leaves the media part out of what the write may change, but the RWL fields of the same write
can be saved ones, whose write to the configuration area then waits there. -/
theorem not_registersWrite : ¬ Obligations.RegistersWrite := by
  unfold Obligations.RegistersWrite
  intro ⟨_, _, _, _, _, _, hclr, _⟩
  obtain ⟨t, ht, _, _, _, _, only⟩ := hclr hotG9 .portA rStrCtl 8 0x101 (by decide) (by decide) (by decide)
  obtain ⟨u, hu, held⟩ := clrCounters_holds_configWrite
  obtain rfl : t = u := Host.Outcome.next.inj (ht.symm.trans hu)
  have same : t.media = hotG9.media := only .media (by decide)
  rw [same] at held
  exact absurd held (by decide)

end Sys2Proof.Machine
end

section
/-! PROOFS. The statements on modes: transitions and the mode dword (O1), SPRINT and HIBERNATE (O2) and the state after reset (O59),
with the laws of the shared operations that they use. -/

open Sys2Proof Sys2Proof.Machine

namespace Sys2Proof.Machine

/-! ## Registers and counts -/

/-- A table of registers that holds nothing reads as the reset values. -/
theorem State.reg_of_val_nil {s : State} (h : s.regs.val = []) (off : Nat) : s.reg off = resetValue off := by
  rw [State.reg, h]; rfl

theorem State.cnt_of_regs {s t : State} (h : t.regs = s.regs) (off : Nat) : t.cnt off = s.cnt off := by
  simp only [State.cnt, h]

@[simp] theorem State.cnt_addCnt_self (s : State) (off n : Nat) : (s.addCnt off n).cnt off = (s.cnt off + n) % 2 ^ 64 :=
  Tbl.getD_put_self 0 _ off _

@[simp] theorem State.cnt_onPower (s : State) (f : Power → Power) (off : Nat) : (s.onPower f).cnt off = s.cnt off := rfl

@[simp] theorem State.addCnt_power (s : State) (off n : Nat) : (s.addCnt off n).power = s.power := rfl

@[simp] theorem State.addLife_power (s : State) (key n : Nat) : (s.addLife key n).power = s.power :=
  State.addLife_only s key n .power (by decide)

@[simp] theorem State.cnt_addLife (s : State) (key n off : Nat) : (s.addLife key n).cnt off = s.cnt off :=
  State.cnt_of_regs (State.addLife_only s key n .regs (by decide)) off

/-- Settles O59: each part of the reset state is as its own reset writes it. -/
theorem resetState : Obligations.ResetState := by
  unfold Obligations.ResetState
  refine ⟨rfl, rfl, rfl, rfl, rfl, rfl, rfl, State.reg_of_val_nil rfl, by decide, fun i hi => ?_⟩
  have noImage : State.reset.boot.image = none := rfl
  rw [noImage] at hi
  cases hi

/-! ## The mode requests that wait (R28) -/

/-- With no request waiting there is none to serve. -/
theorem serveWaiting_of_waiting_nil (s : State) (h : s.power.waiting = []) : serveWaiting s.power.waiting s = s := by
  have same : { s.power with waiting := [] } = s.power := by rw [← h]
  rw [h, serveWaiting, State.onPower, same]

/-! ## Codes of modes and the mode dword (R27) -/

@[simp] theorem modeOf_modeCode (m : Mode) : modeOf (modeCode m) = some m := by cases m <;> rfl

theorem modeCode_lt (m : Mode) : modeCode m < 8 := by cases m <;> decide

/-- Dword 11 of a request holds the mode in bits [2:0] and nothing above them. -/
theorem fld_w32_modeCode (m : Mode) : fld (w32 (modeCode m)) 2 0 = modeCode m ∧ fld (w32 (modeCode m)) 31 3 = 0 := by
  cases m <;> decide

section
variable {s : State} {r e : Nat} (hk : s.power.k ≤ 60000) (hl : s.power.lastCause < 9) (hr : r < 8) (he : e < 8)
include hk hl hr he

/-- The parts of the mode dword do not overlap and fit the dword. -/
theorem modeDw0_toNat : (modeDw0 s r e).toNat = s.power.k / 1000 * 2 ^ 16 + s.power.lastCause * 2 ^ 12 + e * 2 ^ 4 + r := by
  rw [modeDw0, w32, BitVec.toNat_ofNat, sprintCredit]
  omega

theorem modeDw0_fields :
    fld (modeDw0 s r e) 2 0 = r ∧ bitAt (modeDw0 s r e) 3 = false ∧ fld (modeDw0 s r e) 6 4 = e ∧ fld (modeDw0 s r e) 11 7 = 0 ∧
    fld (modeDw0 s r e) 15 12 = s.power.lastCause ∧ fld (modeDw0 s r e) 23 16 = s.power.k / 1000 ∧ fld (modeDw0 s r e) 31 24 = 0 := by
  have parts := modeDw0_toNat hk hl hr he
  simp only [fld, bitsOf, bitAt, BitVec.getLsbD, Nat.testBit_eq_decide_div_mod_eq, parts, decide_eq_false_iff_not]
  omega

end

/-! ## Mode requests and transitions (R27 to R29, R365) -/

/-- The transition that an accepted request begins (R29, R37). -/
def requestedTransition (w : Who) (m : Mode) : Transition := { target := m, cause := 0, rank := 7, who := some w }

/-- A request for another mode than SPRINT and HIBERNATE, outside the automatic EMBER, begins its transition (R29). -/
theorem State.serveMode_begins (s : State) (w : Who) (m : Mode) (hsprint : m ≠ .sprint) (hhib : m ≠ .hibernate)
    (hother : s.power.effective ≠ m) (hauto : s.power.emberAuto = false) :
    s.serveMode w m = s.onPower fun p => { p with requested := m, transition := some (requestedTransition w m) } := by
  simp [State.serveMode, requestedTransition, hsprint, hhib, hother, hauto]

theorem setFeaturesMode_begins (s : State) (w : Who) (m : Mode) (hready : s.adminReady w = true) (hmgr : isManager w.fn = true)
    (hawake : s.power.effective ≠ .hibernate) (hsprint : m ≠ .sprint) (hhib : m ≠ .hibernate) (hother : s.power.effective ≠ m)
    (hauto : s.power.emberAuto = false) (hnone : s.power.transition = none) (hwait : s.power.waiting = []) :
    Completes (.setFeaturesMode w false (w32 (modeCode m))) s fun t =>
      t.power = { s.power with requested := m, transition := some { target := m, cause := 0, rank := 7, who := some w } } ∧
      OnlyChanges [.power] s t := by
  obtain ⟨low, high⟩ := fld_w32_modeCode m
  have served : exec (.setFeaturesMode w false (w32 (modeCode m))) s = .next (s.serveMode w m) := by
    simp [exec, execSetFeaturesMode, State.modeCommand, State.modeRequest, hready, hawake, hmgr, low, high, hnone, hwait]
  rw [State.serveMode_begins s w m hsprint hhib hother hauto] at served
  exact ⟨_, served, rfl, only_of_blank (by simp)⟩

/-- The power state once a transition has ended. -/
def endedPower (p : Power) (x : Transition) : Power :=
  { p with transition := none, effective := x.target, lastCause := x.cause, emberAuto := decide (x.cause = 4) }

/-- A transition that ends, but for the requests that waited behind it: the effective mode, auto-verify, the counts, the report and the
completion. -/
def State.transitionEnds (s : State) (x : Transition) : State :=
  let old := s.power.effective
  let s1 := (((s.onPower fun p => endedPower p x).sprintVerifies x.target).countChange x.cause old x.target).reportChange x.cause old x.target
  match x.who with
  | some w => s1.admin w stOk 0
  | none => s1

/-- After the effective mode and auto-verify a transition's end changes only counts, logs and what the host sees. -/
theorem State.transitionEnds_after_mode (s : State) (x : Transition) :
    OnlyChanges [.regs, .host, .health] ((s.onPower fun p => endedPower p x).sprintVerifies x.target) (s.transitionEnds x) := by
  refine only_of_blank ?_
  unfold State.transitionEnds
  cases x.who <;> simp

theorem State.transitionEnds_power (s : State) (x : Transition) : (s.transitionEnds x).power = endedPower s.power x := by
  have kept : (s.transitionEnds x).power = ((s.onPower fun p => endedPower p x).sprintVerifies x.target).power :=
    s.transitionEnds_after_mode x .power (by decide)
  rw [kept, State.sprintVerifies]
  split <;> rfl

theorem State.transitionEnds_lynx (s : State) (x : Transition) :
    (s.transitionEnds x).lynx = if x.target = .sprint then { s.lynx with autoVerify := true } else s.lynx := by
  have kept : (s.transitionEnds x).lynx = ((s.onPower fun p => endedPower p x).sprintVerifies x.target).lynx :=
    s.transitionEnds_after_mode x .lynx (by decide)
  rw [kept, State.sprintVerifies]
  split <;> rfl

theorem State.transitionEnds_frame (s : State) (x : Transition) :
    OnlyChanges [.regs, .power, .host, .lynx, .health] s (s.transitionEnds x) := by
  refine only_of_blank ?_
  unfold State.transitionEnds
  cases x.who <;> simp

theorem modeTransitionDone_ends (s : State) (x : Transition) (hrun : s.running = true) (hx : s.power.transition = some x)
    (htarget : x.target ≠ .hibernate) (hwait : s.power.waiting = []) :
    Completes .modeTransitionDone s fun t =>
      t.power = { s.power with transition := none, effective := x.target, lastCause := x.cause, emberAuto := decide (x.cause = 4) } ∧
      t.lynx = (if x.target = .sprint then { s.lynx with autoVerify := true } else s.lynx) ∧
      OnlyChanges [.regs, .power, .host, .lynx, .health] s t := by
  have noneWaits : (s.transitionEnds x).power.waiting = [] := by rw [State.transitionEnds_power]; exact hwait
  have runs : exec .modeTransitionDone s = .next (serveWaiting (s.transitionEnds x).power.waiting (s.transitionEnds x)) := by
    simp only [exec, execModeTransitionDone, hx, htarget, hrun]
    rfl
  rw [serveWaiting_of_waiting_nil _ noneWaits] at runs
  exact ⟨_, runs, s.transitionEnds_power x, s.transitionEnds_lynx x, s.transitionEnds_frame x⟩

theorem getFeaturesMode_reports (s : State) (w : Who) (hready : s.adminReady w = true) (hmgr : isManager w.fn = true)
    (hk : s.power.k ≤ 60000) (hl : s.power.lastCause < 9) :
    ∃ d e : W32,
      exec (.getFeaturesMode w 0) s = .next (s.admin w stOk d) ∧ exec (.getFeaturesMode w 2) s = .next (s.admin w stOk d) ∧
      exec (.getFeaturesMode w 1) s = .next (s.admin w stOk e) ∧
      fld d 2 0 = modeCode s.power.requested ∧ bitAt d 3 = false ∧ fld d 6 4 = modeCode s.power.effective ∧ fld d 11 7 = 0 ∧
      fld d 15 12 = s.power.lastCause ∧ fld d 23 16 = s.power.k / 1000 ∧ fld d 31 24 = 0 ∧
      fld e 2 0 = 0 ∧ fld e 6 4 = 0 ∧ fld e 15 12 = s.power.lastCause ∧ fld e 23 16 = s.power.k / 1000 := by
  obtain ⟨requested, res3, effective, res11, cause, credit, res31⟩ :=
    modeDw0_fields hk hl (modeCode_lt s.power.requested) (modeCode_lt s.power.effective)
  obtain ⟨defRequested, -, defEffective, -, defCause, defCredit, -⟩ := modeDw0_fields hk hl (r := 0) (e := 0) (by decide) (by decide)
  refine ⟨modeDw0 s (modeCode s.power.requested) (modeCode s.power.effective), modeDw0 s 0 0, ?_, ?_, ?_, requested, res3, effective, res11,
    cause, credit, res31, defRequested, defEffective, defCause, defCredit⟩ <;>
  simp [exec, execGetFeaturesMode, hready, hmgr]

/-- Settles O1: a lemma for the request, for the end of a transition and for Get Features. -/
theorem modeTransitions : Obligations.ModeTransitions := by
  unfold Obligations.ModeTransitions
  exact ⟨setFeaturesMode_begins, modeTransitionDone_ends, getFeaturesMode_reports⟩

/-! ## SPRINT and its ends (R35, R535, R536) -/

theorem sprintTick_spends (s : State) (ilim : Bool) (hon : s.sys.phase ≠ .off) (heff : s.power.effective = .sprint)
    (hnone : s.power.transition = none) :
    Completes (.sprintTick ilim) s fun t =>
      t.power = { s.power with k := s.power.k - 1, t := Nat.min 60000 (s.power.t + 1), ilimN := ilim } ∧
      t.cnt (rPwrCount 0) = (s.cnt (rPwrCount 0) + 1) % 2 ^ 64 ∧ OnlyChanges [.regs, .power, .health] s t := by
  have runs : exec (.sprintTick ilim) s = .next (((s.onPower fun p =>
      { p with k := p.k - 1, t := Nat.min 60000 (p.t + 1), ilimN := ilim }).addCnt (rPwrCount 0) 1).addLife (lifeC3 (0x9F0 + 48)) 1) := by
    simp [exec, execSprintTick, State.onPower, sprintMs, hon, heff, hnone]
  exact ⟨_, runs, by simp, by simp, only_of_blank (by simp)⟩

/-- With no transition in progress an automatic change begins at once (R37). -/
theorem State.autoChange_of_idle (s : State) (m : Mode) (cause rank : Nat) (h : s.power.transition = none) :
    s.autoChange m cause rank =
      s.onPower fun p => { p with transition := some { target := m, cause := cause, rank := rank, who := none } } := by
  simp [State.autoChange, h]

/-- With no transition in progress the end of SPRINT makes BALANCED both requested and the target (R35). -/
theorem State.endSprint_of_idle (s : State) (cause rank : Nat) (h : s.power.transition = none) :
    s.endSprint cause rank = s.onPower fun p =>
      { p with requested := .balanced, transition := some { target := .balanced, cause := cause, rank := rank, who := none } } := by
  simp [State.endSprint, State.autoChange_of_idle s _ _ _ h, State.onPower]

theorem sprintLimit_ends (s : State) (hrun : s.running = true) (heff : s.power.effective = .sprint) (hnone : s.power.transition = none)
    (hlimit : 60000 ≤ s.power.t ∨ s.power.k = 0) :
    Completes .sprintLimit s fun t =>
      t.power = { s.power with requested := .balanced, transition := some { target := .balanced, cause := 1, rank := 5, who := none } } ∧
      OnlyChanges [.power] s t := by
  have runs : exec .sprintLimit s = .next (s.endSprint 1 5) := by
    simp [exec, execSprintLimit, hrun, heff, hnone, hlimit]
  rw [State.endSprint_of_idle s 1 5 hnone] at runs
  exact ⟨_, runs, rfl, only_of_blank (by simp)⟩

theorem State.not_off_of_running {s : State} (h : s.running = true) : s.sys.phase ≠ .off := by
  have running : s.sys.phase = .running := by simpa [State.running] using h
  simp [running]

/-- ILIM_N falls: the input reads low, and the fall is counted (R536). -/
def State.ilimFalls (s : State) : State := ((s.onPower fun p => { p with ilimN := false }).addCnt (rPwrCount 1) 1).addLife (lifeEvent 1) 1

theorem ilimNAssert_ends (s : State) (hrun : s.running = true) (heff : s.power.effective = .sprint) (hnone : s.power.transition = none) :
    Completes .ilimNAssert s fun t =>
      t.power = { s.power with
        ilimN := false, requested := .balanced,
        transition := some { target := .balanced, cause := 3, rank := 3, who := none } } ∧
      t.cnt (rPwrCount 1) = (s.cnt (rPwrCount 1) + 1) % 2 ^ 64 ∧ OnlyChanges [.regs, .power, .health] s t := by
  have runs : exec .ilimNAssert s = .next (s.ilimFalls.endSprint 3 3) := by
    simp [exec, execIlimNAssert, State.ilimFalls, State.not_off_of_running hrun, hrun, heff]
  have powerAfter : s.ilimFalls.power = { s.power with ilimN := false } := by simp [State.ilimFalls]
  have counted : s.ilimFalls.cnt (rPwrCount 1) = (s.cnt (rPwrCount 1) + 1) % 2 ^ 64 := by simp [State.ilimFalls]
  rw [State.endSprint_of_idle _ 3 3 (by rw [powerAfter]; exact hnone)] at runs
  refine ⟨_, runs, by rw [State.onPower_power, powerAfter], ?_, only_of_blank (by simp [State.ilimFalls])⟩
  rw [← counted]; rfl

/-! ## HIBERNATE (R39 to R41, R366, R542) -/

/-- A digest core that holds a port block completes it (R32, R327). -/
theorem State.absorbBlock_dgs (s : State) : s.absorbBlock.dgs = { s.dgs with busy := false } := by
  unfold State.absorbBlock
  split
  case isTrue => rfl
  case isFalse h => rw [← Bool.eq_false_iff.mpr h]

/-- What entry into HIBERNATE does before the mode changes: the block, the gates, self-refresh and the journal. -/
def State.hibernateSettles (s : State) : State :=
  (((s.absorbBlock.onSys fun y => { y with gated := hibernateGated }).dramSleep true).onMem fun m => { m with rows := [] }).journalFlush

theorem State.hibernateSettles_blank {ps : List Part} (s : State) (hc : [Part.regs, .sys, .ftl, .dgs, .memory] ⊆ ps) :
    s.hibernateSettles.blank ps = s.blank ps := by
  simp only [List.cons_subset] at hc
  simp [State.hibernateSettles, *]

theorem State.hibernateSettles_power (s : State) : s.hibernateSettles.power = s.power :=
  only_of_blank (s.hibernateSettles_blank (ps := [.regs, .sys, .ftl, .dgs, .memory]) (by simp)) .power (by decide)

/-- After the gates entry changes only memory and the journal. -/
theorem State.hibernateSettles_after_gates (s : State) :
    OnlyChanges [.ftl, .memory] (s.absorbBlock.onSys fun y => { y with gated := hibernateGated }) s.hibernateSettles :=
  only_of_blank (by simp [State.hibernateSettles])

theorem State.hibernateSettles_sys (s : State) : s.hibernateSettles.sys = { s.sys with gated := hibernateGated } := by
  have absorbed : s.absorbBlock.sys = s.sys :=
    only_of_blank (s.absorbBlock_blank (ps := [.regs, .dgs]) (by simp)) .sys (by decide)
  have settled : s.hibernateSettles.sys = { s.absorbBlock.sys with gated := hibernateGated } :=
    s.hibernateSettles_after_gates .sys (by decide)
  rw [settled, absorbed]

theorem State.hibernateSettles_dgs (s : State) : s.hibernateSettles.dgs = { s.dgs with busy := false } := by
  have settled : s.hibernateSettles.dgs = s.absorbBlock.dgs := s.hibernateSettles_after_gates .dgs (by decide)
  rw [settled, State.absorbBlock_dgs]

/-- The power state once HIBERNATE has been entered. -/
def hibernatedPower (p : Power) : Power :=
  { p with effective := .hibernate, emberAuto := false, lastCause := 0, transition := none, hibEntry := none }

/-- Entry ends: the mode, its command's completion, and the links that go to L1.2 (R39). -/
def State.hibernateEnters (s : State) (w : Who) : State :=
  (((s.hibernateSettles.onPower hibernatedPower).admin w stOk 0).onPort .a enterL12).onPort .b enterL12

/-- After the mode has changed the completion and the links change only what the host sees, and its counts. -/
theorem State.hibernateEnters_after_mode (s : State) (w : Who) :
    OnlyChanges [.host, .health] (s.hibernateSettles.onPower hibernatedPower) (s.hibernateEnters w) :=
  only_of_blank (by simp [State.hibernateEnters])

theorem hibernateEntryDone_enters (s : State) (h : HibernateEntry) (hrun : s.running = true) (hentry : s.power.hibEntry = some h)
    (hslots : s.ftl.slots = []) (hstripes : s.str.stripes = []) (hwriting : s.health.writing = false) (hrebuild : s.str.rebuild = none)
    (hreshape : reshapeBusy s = false) :
    Completes .hibernateEntryDone s fun t =>
      t.power = { s.power with effective := .hibernate, emberAuto := false, lastCause := 0, transition := none, hibEntry := none } ∧
      t.sys = { s.sys with gated := [.compute, .engine, .media0, .media1, .media2, .media3] } ∧ t.dgs = { s.dgs with busy := false } ∧
      OnlyChanges [.regs, .sys, .power, .host, .ftl, .dgs, .memory, .health] s t := by
  have runs : exec .hibernateEntryDone s = .next (s.hibernateEnters h.who) := by
    simp only [exec, execHibernateEntryDone, hentry, hrun, hslots, hstripes, hwriting, hrebuild, hreshape]
    rfl
  have hpower : (s.hibernateEnters h.who).power = hibernatedPower s.hibernateSettles.power := s.hibernateEnters_after_mode h.who .power (by decide)
  have hsys : (s.hibernateEnters h.who).sys = s.hibernateSettles.sys := s.hibernateEnters_after_mode h.who .sys (by decide)
  have hdgs : (s.hibernateEnters h.who).dgs = s.hibernateSettles.dgs := s.hibernateEnters_after_mode h.who .dgs (by decide)
  refine ⟨_, runs, ?_, ?_, ?_, only_of_blank (by simp [State.hibernateEnters, State.hibernateSettles_blank])⟩
  · rw [hpower, State.hibernateSettles_power]; rfl
  · rw [hsys, State.hibernateSettles_sys]; rfl
  · rw [hdgs, State.hibernateSettles_dgs]

theorem State.wakeBy_link_port (s : State) (q : Port) :
    ((s.wakeBy .link).port q).l12 = false ∧ ((s.wakeBy .link).port q).linkUp = (s.port q).linkUp := by
  cases q <;> exact ⟨Bool.and_false _, rfl⟩

theorem wakeEvent_link_wakes (s : State) (hrun : s.running = true) (hhib : s.power.effective = .hibernate) (hasleep : s.power.waking = none) :
    Completes (.wakeEvent .link) s fun t => t.power = { s.power with waking := some .link } ∧
      (∀ q, (t.port q).l12 = false ∧ (t.port q).linkUp = (s.port q).linkUp) ∧ t.lynx = { s.lynx with restoring := true } ∧
      OnlyChanges [.power, .host, .lynx] s t := by
  have runs : exec (.wakeEvent .link) s = .next (s.wakeBy .link) := by
    simp [exec, execWakeEvent, hrun, hhib, hasleep]
  exact ⟨_, runs, rfl, s.wakeBy_link_port, rfl, only_of_blank (by simp)⟩

/-- With no doorbell kept there is none to ring. -/
theorem State.ringKept_of_nil (s : State) (h : s.power.keptDoorbells = []) : s.ringKept = s := by
  have same : { s.power with keptDoorbells := [] } = s.power := by rw [← h]
  rw [State.ringKept, h, List.foldl_nil, State.onPower, same]

/-- The hottest reading is at or above 125 °C (R34). -/
def isHot (s : State) : Bool := match hottest s with | some t => decide ((500 : Int) ≤ t) | none => false

theorem isHot_eq_false (s : State) (h : ∀ x, hottest s = some x → x < 500) : isHot s = false := by
  unfold isHot
  cases hs : hottest s with
  | none => rfl
  | some x => exact decide_eq_false (Int.not_le.mpr (h x hs))

/-- The islands, DRAM and the links are back, and Lynx has been reloaded (R40, R366). -/
def State.wokenParts (s : State) : State :=
  ((((s.onSys fun y => { y with gated := [] }).dramSleep false).onPort .a fun q => { q with l12 := false }).onPort .b fun q =>
    { q with l12 := false }).lynxReloaded

/-- The power state of a G9 that has woken to a mode, or to automatic EMBER where it is hot (R34, R40). -/
def wokenPower (m : Mode) (hot : Bool) (p : Power) : Power :=
  { p with requested := m, effective := if hot then .ember else m, emberAuto := hot && decide (m ≠ .ember), lastCause := 6, waking := none }

/-- What a wake serves once the G9 is ready: the kept doorbells, the LUNs and the mode requests that waited. -/
def State.wakeServes (s : State) : State :=
  let s1 := s.ringKept
  let s2 := (s1.media.luns.map (·.1)).foldl State.lunNext s1
  serveWaiting s2.power.waiting s2

/-- Where nothing waited for the wake, there is nothing to serve. -/
theorem State.wakeServes_of_idle (s : State) (hkept : s.power.keptDoorbells = []) (hluns : s.media.luns = [])
    (hwait : s.power.waiting = []) : s.wakeServes = s := by
  simp only [State.wakeServes, State.ringKept_of_nil s hkept, hluns, List.map_nil, List.foldl_nil]
  exact serveWaiting_of_waiting_nil s hwait

theorem wakeReady_wakes (s : State) (hwaking : s.power.waking = some .link) (hkept : s.power.keptDoorbells = [])
    (hwait : s.power.waiting = []) (hluns : s.media.luns = []) (hsprint : s.power.beforeHib ≠ .sprint)
    (hcool : ∀ x, hottest s = some x → x < 500) :
    Completes .wakeReady s fun t =>
      t.power = { s.power with
        requested := s.power.beforeHib, effective := s.power.beforeHib, emberAuto := false, lastCause := 6, waking := none,
        keptDoorbells := [] } ∧
      t.sys = { s.sys with gated := [] } ∧ t.lynx.restoring = false ∧ t.lynx.lapStart = s.now ∧
      OnlyChanges [.sys, .power, .host, .memory, .lynx] s t := by
  have runs : exec .wakeReady s = .next (s.wokenParts.onPower (wokenPower s.power.beforeHib (isHot s))).wakeServes := by
    simp only [exec, execWakeReady, hwaking, hsprint, if_false]
    rfl
  have idle := State.wakeServes_of_idle (s.wokenParts.onPower (wokenPower s.power.beforeHib false)) hkept hluns hwait
  rw [isHot_eq_false s hcool, idle] at runs
  refine ⟨_, runs, ?_, rfl, rfl, rfl, only_of_blank (by simp [State.wokenParts])⟩
  rw [← hkept]
  rfl

/-- Settles O2: a lemma for each of the commands that spend SPRINT credit, end SPRINT, enter HIBERNATE and wake. -/
theorem sprintAndHibernate : Obligations.SprintAndHibernate := by
  unfold Obligations.SprintAndHibernate
  exact ⟨sprintTick_spends, sprintLimit_ends, ilimNAssert_ends, hibernateEntryDone_enters, wakeEvent_link_wakes, wakeReady_wakes⟩

end Sys2Proof.Machine
end

section
/-! PROOFS. The statements on Trails: chunks and the end of a Trail (O4), and the binding of Trails (O3), with what the operations that
they use do to flow contexts. -/

open Sys2Proof Sys2Proof.Machine

namespace Sys2Proof.Machine

/-! ## Flow contexts and entries -/

@[simp] theorem State.flow_onFlow_self (s : State) (i : Nat) (g : Flow → Flow) : (s.onFlow i g).flow i = (s.flow i).map g := by
  simp [State.flow, State.onFlow, Tbl.find_modify]

@[simp] theorem State.entries_onFlow (s : State) (i : Nat) (g : Flow → Flow) : (s.onFlow i g).disp.entries = s.disp.entries := rfl

theorem State.flow_of_disp {s t : State} (h : t.disp = s.disp) (i : Nat) : t.flow i = s.flow i := by
  simp [State.flow, h]

theorem State.flow_of_boundFlow {s : State} {i : Nat} {f : Flow} (h : s.boundFlow i = some f) : s.flow i = some f := by
  unfold State.boundFlow at h
  split at h
  next x hx =>
    split at h
    · rw [hx, h]
    · cases h
  next => cases h

/-- Of the dispatcher an update of the shared pool changes only whether sources are stopped (R107). -/
theorem State.poolUpdate_disp (s : State) : ∃ stopped, s.poolUpdate.disp = { s.disp with sourcesStopped := stopped } := by
  unfold State.poolUpdate
  extract_lets used stop resume s1 all s2
  have peaks : OnlyChanges [.regs] s1 (unitClasses.foldl (fun t c => t.queuePeak c (queueFill t c)) s2) := only_of_blank (by simp [s2])
  exact ⟨_, peaks .disp (by decide)⟩

@[simp] theorem State.poolUpdate_flow (s : State) (i : Nat) : s.poolUpdate.flow i = s.flow i := by
  obtain ⟨_, h⟩ := s.poolUpdate_disp
  simp [State.flow, h]

@[simp] theorem State.poolUpdate_entries (s : State) : s.poolUpdate.disp.entries = s.disp.entries := by
  obtain ⟨_, h⟩ := s.poolUpdate_disp
  simp [h]

/-- What a new entry takes from its flow context: the reserve, and the parked token of its stage (R87). -/
def Flow.givenTo (e : Task) (reserve : Bool) (f : Flow) : Flow :=
  { f with reserveUsed := f.reserveUsed || reserve, parked := if e.token.isSome then f.parked.erase e.stage else f.parked }

section
variable (s : State) (i stage c k : Nat) (reserve : Bool)

theorem State.addEntry_flow {f : Flow} (hf : s.flow i = some f) :
    (s.addEntry i stage c k reserve).flow i = some (f.givenTo (newEntry f (newIndex s i reserve) i stage c k reserve) reserve) := by
  have kept (g : Disp → List Task) : (s.onDisp fun d => { d with entries := g d }).flow i = some f := hf
  simp only [State.addEntry, hf, State.poolUpdate_flow, State.flow_onFlow_self, kept]
  rfl

theorem State.addEntry_entries {f : Flow} (hf : s.flow i = some f) :
    (s.addEntry i stage c k reserve).disp.entries = s.disp.entries ++ [newEntry f (newIndex s i reserve) i stage c k reserve] := by
  simp [State.addEntry, hf]

theorem State.addEntry_blank_regs_disp : (s.addEntry i stage c k reserve).blank [.regs, .disp] = s.blank [.regs, .disp] := by
  unfold State.addEntry
  split <;> simp

end

/-! ## The source (R60, R61, R70) -/

/-- The flow context once its next chunk is issued into a chunk slot. -/
def Flow.issueInto (c : Nat) (f : Flow) : Flow :=
  { f with issued := f.issued + 1, unretired := f.unretired ++ [(c, f.issued)], lastIssued := decide (f.chunks ≤ f.issued + 1) }

/-- The next chunk of a flow is issued into a chunk slot, with an entry at stage 0. -/
def State.issueChunk (s : State) (i c : Nat) (f : Flow) : State := (s.onFlow i (Flow.issueInto c)).addEntry i 0 c f.issued false

/-- The chunk and its slot stand in the flow context, which changes no further than its tokens (R60, R87). -/
theorem State.issueChunk_flow (s : State) (i c : Nat) {f : Flow} (hf : s.flow i = some f) :
    ∃ e, (s.issueChunk i c f).flow i = some ((f.issueInto c).givenTo e false) :=
  ⟨_, State.addEntry_flow _ i 0 c f.issued false (by simp [hf])⟩

theorem State.issueChunk_entries (s : State) (i c : Nat) {f : Flow} (hf : s.flow i = some f) :
    ∃ e, (s.issueChunk i c f).disp.entries = s.disp.entries ++ [e] ∧ e.flow = i ∧ e.stage = 0 ∧ e.cslot = c ∧ e.chunk = f.issued :=
  ⟨_, State.addEntry_entries _ i 0 c f.issued false (f := f.issueInto c) (by simp [hf]), rfl, rfl, rfl, rfl⟩

theorem State.issueChunk_only (s : State) (i c : Nat) (f : Flow) : OnlyChanges [.regs, .disp] s (s.issueChunk i c f) :=
  only_of_blank (by simp [State.issueChunk, State.addEntry_blank_regs_disp])

/-- A source that ends issues nothing more; a total that is not the declared one leaves a mismatch (R70). -/
theorem State.sourceEnds_flow (s : State) (i : Nat) (total : Nat) {f : Flow} (hf : s.flow i = some f) :
    ∃ m, (s.sourceEnds i f total).flow i = some { f with lastIssued := true, mismatch := m } ∧
      (total ≠ f.trail.total → m.isSome = true) := by
  unfold State.sourceEnds
  extract_lets s1
  have hs1 : s1.flow i = some { f with lastIssued := true } := by simp [s1, hf]
  by_cases same : total = f.trail.total
  · rw [if_pos same, hs1]
    exact ⟨f.mismatch, rfl, fun differs => absurd same differs⟩
  · rw [if_neg same, State.mismatch, State.flow_onFlow_self, hs1, Option.map_some]
    dsimp only
    split
    next had => exact ⟨f.mismatch, rfl, fun _ => had⟩
    next => exact ⟨_, rfl, fun _ => rfl⟩

theorem State.sourceEnds_entries (s : State) (i : Nat) (f : Flow) (total : Nat) :
    (s.sourceEnds i f total).disp.entries = s.disp.entries := by
  unfold State.sourceEnds
  extract_lets s1
  split <;> rfl

theorem room_of_mayIssue {s : State} {f : Flow} (h : mayIssue s f = true) : f.issued - f.retired < Trail.credit f.trail := by
  simp only [mayIssue, Bool.and_eq_true, decide_eq_true_eq] at h
  tauto

section
variable {s : State} {i : Nat} {f : Flow} (hf : s.boundFlow i = some f)
include hf

/-- A source that may not issue does nothing; one that may either ends or issues its next chunk into the lowest free slot (R60). -/
theorem exec_chunkIssue_cases (hv : HostView) {t : State} (ht : exec (.chunkIssue i hv) s = .next t) :
    t = s ∨ (∃ total, t = s.sourceEnds i f total) ∨ (∃ c, mayIssue s f = true ∧ t = s.issueChunk i c f) := by
  obtain rfl := Host.Outcome.next.inj ht
  simp only [hf]
  split
  next c _ =>
    split
    next may =>
      obtain ⟨_, _, hmay⟩ := may
      split
      next total _ => exact .inr (.inl ⟨total, rfl⟩)
      next => exact .inr (.inr ⟨c, hmay, rfl⟩)
    next => exact .inl rfl
  next => exact .inl rfl

section
variable {c : Nat} (hv : HostView) (hrun : s.running = true) (hup : s.up .engine = true) (hslot : f.freeSlot = some c)
  (hmay : mayIssue s f = true)
include hrun hup hslot hmay

theorem exec_chunkIssue_of_more (hmore : sglEnd f hv = none) : exec (.chunkIssue i hv) s = .next (s.issueChunk i c f) := by
  simp only [exec, execChunkIssue, hf, hslot, hrun, hup, hmay, hmore]
  rfl

theorem exec_chunkIssue_of_end {total : Nat} (hend : sglEnd f hv = some total) :
    exec (.chunkIssue i hv) s = .next (s.sourceEnds i f total) := by
  simp only [exec, execChunkIssue, hf, hslot, hrun, hup, hmay, hend]
  rfl

end

/-- The source keeps the chunks that are not retired within the credit limit (R60). -/
theorem chunkIssue_keeps_credit (hv : HostView) {t : State} {x : Flow} (hlimit : f.issued - f.retired ≤ Trail.credit f.trail)
    (ht : exec (.chunkIssue i hv) s = .next t) (hx : t.flow i = some x) : x.issued - x.retired ≤ Trail.credit x.trail := by
  have hflow := State.flow_of_boundFlow hf
  obtain rfl | ⟨total, rfl⟩ | ⟨c, hmay, rfl⟩ := exec_chunkIssue_cases hf hv ht
  · obtain rfl : f = x := Option.some.inj (hflow.symm.trans hx)
    exact hlimit
  · obtain ⟨_, hend, _⟩ := s.sourceEnds_flow i total hflow
    obtain rfl := Option.some.inj (hend.symm.trans hx)
    exact hlimit
  · obtain ⟨_, hissued⟩ := s.issueChunk_flow i c hflow
    obtain rfl := Option.some.inj (hissued.symm.trans hx)
    have room := room_of_mayIssue hmay
    show f.issued + 1 - f.retired ≤ Trail.credit f.trail
    omega

end

/-! ## The end of a Trail (R71) -/

theorem disp_foldl {α : Type} (g : State → α → State) (h : ∀ s x, (g s x).disp = s.disp) (l : List α) (s : State) :
    (l.foldl g s).disp = s.disp := by
  induction l generalizing s with
  | nil => rfl
  | cons x l ih => rw [List.foldl_cons, ih, h]

/-- A write to host memory or to local memory leaves the dispatcher alone. -/
@[simp] theorem State.writeAt_disp (s : State) (f : Fn) (slm : Bool) (addr : Nat) (bs : List Byte) : (s.writeAt f slm addr bs).disp = s.disp := by
  refine only_of_blank (ps := [.host, .ns]) ?_ .disp (by decide)
  unfold State.writeAt dmaWrite
  split
  · rfl
  · cases slm <;> simp

theorem State.writeDigest_disp (s : State) (i : Nat) (f : Flow) (seen : List Comparators) (e : Nat × Nat) :
    (s.writeDigest i f seen e).disp = s.disp := by
  unfold State.writeDigest
  split
  · split
    · exact (State.writeAt_disp ..).trans (only_of_blank (State.countVerdict_blank (ps := [.regs, .health]) _ _ (by simp)) .disp (by decide))
    · exact State.writeAt_disp ..
  · rfl

@[simp] theorem State.withdraw_disp (s : State) (p : ReadClient → Bool) : (s.withdraw p).disp = s.disp := by
  have wake (u : State) : u.wakeAll.disp = u.disp :=
    only_of_blank (ps := [.media, .str]) (blank_foldl _ State.lunNext_blank_media_str _ _) .disp (by decide)
  simp [State.withdraw, wake]

theorem State.undoSlot_blank_ftl {ps : List Part} (s : State) (iu : Nat) (hc : [Part.host, .ftl, .str, .health] ⊆ ps) :
    (s.undoSlot iu).blank ps = s.blank ps := by
  simp only [List.cons_subset] at hc
  unfold State.undoSlot
  split
  · split
    · rfl
    · simp [*]
  · rfl

theorem State.discardWrite_disp (s : State) (a : AdmittedWrite) : (s.discardWrite a).disp = s.disp := by
  refine only_of_blank (ps := [.host, .ftl, .str, .health]) ?_ .disp (by decide)
  unfold State.discardWrite
  extract_lets s1
  split
  · rw [blank_foldl _ fun s iu => s.undoSlot_blank_ftl iu (by simp)]
    simp [s1]
  · simp [s1]

theorem State.freeFlowParts_disp (s : State) (i : Nat) : (s.freeFlowParts i).disp = s.disp := by
  simp [State.freeFlowParts, disp_foldl _ State.discardWrite_disp]

theorem State.rekeyAdvance_disp (s : State) : s.rekeyAdvance.disp = s.disp := by
  refine only_of_blank (ps := [.host, .ns, .ftl, .media, .str, .sea, .health]) ?_ .disp (by decide)
  unfold State.rekeyAdvance
  extract_lets due
  refine blank_foldl _ (fun t r => ?_) _ _
  cases r.who <;> simp

theorem State.forcedAll_disp (s : State) : s.forcedAll.disp = s.disp :=
  only_of_blank (s.forcedAll_blank (ps := [.host, .hrt, .health]) (by simp)) .disp (by decide)

theorem State.answerEnd_disp (s : State) (i : Nat) (f : Flow) (st : Status) : (s.answerEnd i f st).disp = s.disp :=
  only_of_blank (s.answerEnd_blank (ps := [.host, .health]) i f st (by simp)) .disp (by decide)

theorem State.addLatency_disp (s : State) (cls ticks : Nat) : (s.addLatency cls ticks).disp = s.disp :=
  only_of_blank (s.addLatency_blank (ps := [.health]) cls ticks (by simp)) .disp (by decide)

theorem State.countRecord_disp (s : State) (st : Status) (cancelled : Bool) : (s.countRecord st cancelled).disp = s.disp :=
  only_of_blank (s.countRecord_blank (ps := [.regs]) st cancelled (by simp)) .disp (by decide)

/-- A Trail that ends leaves its flow context free, under the same generation and with the status of its record. -/
theorem State.endTrail_flow (s : State) (i : Nat) (seen : List Comparators) {f : Flow} (hf : s.flow i = some f) :
    ∃ x, (s.endTrail i f seen).flow i = some x ∧ x.bound = false ∧ x.generation = f.generation ∧
      x.endStatus = (endStatusOf f (endFailure s i f)).1 := by
  unfold State.endTrail
  extract_lets fail
  split
  next st _ hst =>
  extract_lets s1 s2 s3 n s4
  have digests : s1.disp = s.disp := by
    simp only [s1]
    split
    · exact disp_foldl _ (fun t e => t.writeDigest_disp i f seen e) _ s
    · rfl
  have record : s2.disp = s.disp := by
    simp only [s2]
    split
    · exact digests
    · rw [State.countRecord_disp, State.writeAt_disp, digests]
  have freed : (s3.freeFlowParts i).disp = s.disp := by
    rw [State.freeFlowParts_disp, State.answerEnd_disp, State.addLatency_disp, record]
  have rest : s4.forcedAll.rekeyAdvance.disp = s4.disp := by rw [State.rekeyAdvance_disp, State.forcedAll_disp]
  rw [State.flow_of_disp rest i, show s4.flow i = _ from State.flow_onFlow_self _ i _, State.flow_of_disp freed i, hf]
  exact ⟨_, rfl, rfl, rfl, (congrArg Prod.fst hst).symm⟩

theorem trailEnd_frees (s : State) (i : Nat) (f : Flow) (hrun : s.running = true) (hup : s.up .engine = true) (hf : s.boundFlow i = some f)
    (hmay : mayEnd s i f = true) (seen : List Comparators) :
    Completes (.trailEnd i seen) s fun t =>
      ∃ x, t.flow i = some x ∧ x.bound = false ∧ x.generation = f.generation ∧ x.endStatus = (endStatusOf f (endFailure s i f)).1 := by
  refine ⟨s.endTrail i f seen, ?_, s.endTrail_flow i seen (State.flow_of_boundFlow hf)⟩
  simp [exec, execTrailEnd, hf, hrun, hup, hmay]

/-- Settles O4: what an issue and the end of a source do, that an issue keeps to the credit limit, and what the end of a Trail does. -/
theorem chunksFlow : Obligations.ChunksFlow := by
  unfold Obligations.ChunksFlow
  refine ⟨?issues, ?stops, trailEnd_frees, fun s t i hv f x hf hlimit ht hx => chunkIssue_keeps_credit hf hv hlimit ht hx⟩
  case issues =>
    intro s i c hv f hrun hup hf hslot hmay hmore
    have hflow := State.flow_of_boundFlow hf
    obtain ⟨e, hissued⟩ := s.issueChunk_flow i c hflow
    exact ⟨_, exec_chunkIssue_of_more hf hv hrun hup hslot hmay hmore, ⟨_, hissued, rfl, rfl, rfl⟩, s.issueChunk_entries i c hflow,
      s.issueChunk_only i c f⟩
  case stops =>
    intro s i c total hv f hrun hup hf hslot hmay hend
    obtain ⟨m, hflow, hmismatch⟩ := s.sourceEnds_flow i total (State.flow_of_boundFlow hf)
    exact ⟨_, exec_chunkIssue_of_end hf hv hrun hup hslot hmay hend, ⟨_, hflow, rfl, rfl, hmismatch⟩, s.sourceEnds_entries i f total,
      only_of_blank (s.sourceEnds_blank i f total (by simp))⟩

/-! ## Nonces that a binding reserves (R59, R293) -/

/-- A Trail that seals host memory into host memory under wrap slot 0. -/
def sealingTrail : Trail :=
  { ordered := false, nsok := false, skip := false, statusSlm := false, tag := 0, total := 4096, recordSize := 0, limit := 0, statusAddr := 0x1000,
    stages := [.hostSource false 0x2000 4096, .gcm true 0 0 0x5000 false [], .hostSink .slotted 0x8000 8192 8192] }

/-- Its TRAIL_SUBMIT, which has waited in admission. Its key blob is the integrity value alone, which unwraps under every
key: it stands for a blob of 40 bytes, since what a binding holds back does not depend on the key, and no AES block has to be evaluated. -/
def sealingSubmit : WaitingTrail := { who := ⟨0, 1, 2⟩, trail := sealingTrail, blob := some kwIv, expected := [], execBy := false }

/-- A wrap slot of function 0 with 16 blocks of counters left below its durable limit: its next run starts a log write (R293). -/
def lowWrapSlot : KeySlot :=
  { KeySlot.free with st := .loaded, use := 4, key := zeros 32, next := 48 * nonceBlock, reservedTo := 64 * nonceBlock }

/-- A G9 that runs while heat has stopped its writes (R166, R539), with that Trail waiting in admission. -/
def hotSealing : State :=
  { hotG9 with
    host := { hotG9.host with ctrls := [(0, { Ctrl.reset 0 with rdy := true, fetched := [⟨1, 2, 0, none⟩] })] }
    sea := { Sea.reset with wrap := [(0, lowWrapSlot)] }
    disp := { Disp.reset with waiting := [sealingSubmit] } }

theorem State.io_media (s : State) (w : Who) (st : Status) (dw0 : W32) : (s.io w st dw0).media = s.media :=
  only_of_blank (s.io_blank (ps := [.host, .health]) w st dw0 (by simp)) .media (by decide)

/-- The Trail is bound, and the write of the nonce reservation log that its run asks for waits among the system writes of the media part. -/
theorem trailAdmissionResume_holds_logWrite :
    ∃ t, exec (.trailAdmissionResume sealingSubmit.who) hotSealing = .next t ∧ t.media.sysHeld = [.nonce 0] :=
  ⟨_, rfl, by decide⟩

/-- Refutes O3: its clause on a Trail that waited leaves the media part out of what the binding may change, but the run of nonces of a GCM
ENCRYPT stage can ask for a write of the nonce reservation log (R293), which waits there while heat has stopped writes (R166). -/
theorem not_trailsBind : ¬ Obligations.TrailsBind := by
  unfold Obligations.TrailsBind
  intro ⟨_, hresume, _⟩
  obtain ⟨u, _, hu, _, _, _, _, _, only⟩ := hresume hotSealing sealingSubmit.who sealingSubmit 0 (by decide) (by decide) (by decide) rfl
    (by decide) (by decide) (by decide) (by decide) (by decide)
  obtain ⟨t, ht, held⟩ := trailAdmissionResume_holds_logWrite
  obtain rfl := Host.Outcome.next.inj (ht.symm.trans hu)
  have bound : u.media = hotSealing.media := only .media (by decide)
  rw [State.io_media, bound] at held
  exact absurd held (by decide)

end Sys2Proof.Machine
end

section
/-! PROOFS. The statements on the dispatcher: credits and sink grants (O5), and how tasks fire, run on units, hand on their output and
start on harts (O6), with what the operations that they use do to the dispatcher's state. -/

open Sys2Proof Sys2Proof.Machine

namespace Sys2Proof.Machine

/-! ## Entries of the matching store -/

theorem State.entry_names {s : State} {i stage c : Nat} {e : Task} (h : s.entry i stage c = some e) :
    e.flow = i ∧ e.stage = stage ∧ e.cslot = c := by
  simpa [isEntry, and_assoc] using List.find?_some h

theorem State.entry_of_entries {s t : State} (h : t.disp.entries = s.disp.entries) (i stage c : Nat) : t.entry i stage c = s.entry i stage c := by
  simp [State.entry, h]

/-- An update of an entry that keeps its place is read back there. -/
theorem State.entry_onEntry_self (s : State) {i stage c : Nat} {g : Task → Task} (hg : ∀ x, isEntry i stage c (g x) = isEntry i stage c x) :
    (s.onEntry i stage c g).entry i stage c = (s.entry i stage c).map g := by
  have keeps : (isEntry i stage c ∘ fun x => if isEntry i stage c x then g x else x) = isEntry i stage c := by
    funext x
    by_cases h : isEntry i stage c x = true <;> simp [h, hg]
  simp only [State.entry, State.onEntry, State.onDisp_disp, List.find?_map, keeps]
  cases h : s.disp.entries.find? (isEntry i stage c) with
  | none => rfl
  | some e => simp [List.find?_some h]

/-- What a token that arrives leaves in the entry that its tag names (R82, R84). -/
theorem State.entry_arrive_self (s : State) (tag : Tag) {g : Task → Task}
    (hg : ∀ x, isEntry tag.flow tag.stage tag.cslot (g x) = isEntry tag.flow tag.stage tag.cslot x) :
    (s.arrive tag g).entry tag.flow tag.stage tag.cslot =
      (s.entry tag.flow tag.stage tag.cslot).map fun e => g { e with arrived := e.arrived ||| tag.bit } :=
  s.entry_onEntry_self fun _ => hg _

theorem State.entry_dropEntry_self (s : State) (i stage c : Nat) : (s.dropEntry i stage c).entry i stage c = none := by
  unfold State.dropEntry
  split
  · simp [State.entry]
  · assumption

/-! ## Credits (R89) -/

theorem State.creditToken_entries (s : State) (e : Task) :
    (s.creditToken e).disp.entries =
      s.disp.entries.map fun x => if isEntry e.flow e.stage e.cslot x then { x with arrived := x.arrived ||| 4 } else x := rfl

/-- A grant before its token: the boundary's pool gives a credit, and the flow has had its turn at the shared pool. -/
def State.spendCredit (s : State) (f : Flow) (i stage : Nat) : State :=
  let s1 := if stage + 1 = Trail.sinkIx f.trail then s else s.takeCredit i stage
  if sharedFree s = 0 then s1 else s1.served poolArb f.owner i

theorem State.spendCredit_flow (s : State) {f : Flow} {i : Nat} (stage : Nat) (hf : s.flow i = some f) :
    ∃ x, (s.spendCredit f i stage).flow i = some x := by
  have taken : ∃ x, (s.takeCredit i stage).flow i = some x := ⟨_, by rw [State.takeCredit, State.flow_onFlow_self, hf]; rfl⟩
  have turn (u : State) : (u.served poolArb f.owner i).flow i = u.flow i := rfl
  unfold State.spendCredit
  extract_lets s1
  have first : ∃ x, s1.flow i = some x := by
    simp only [s1]
    split
    · exact ⟨f, hf⟩
    · exact taken
  split
  · exact first
  · rwa [turn]

theorem State.spendCredit_blank {ps : List Part} (s : State) (f : Flow) (i stage : Nat) (hc : [Part.disp] ⊆ ps) :
    (s.spendCredit f i stage).blank ps = s.blank ps := by
  unfold State.spendCredit
  split <;> split <;> simp [hc]

theorem creditGrant_takes_entry (s : State) (i stage c : Nat) (f : Flow) (e : Task) (hgo : dispatching s = true) (hf : s.boundFlow i = some f)
    (he : s.entry i stage c = some e) (hmay : mayGrant s f e = true) :
    Completes (.creditGrant i stage c) s fun t =>
      (∃ x ∈ t.disp.entries, x.flow = i ∧ x.stage = stage + 1 ∧ x.cslot = c ∧ x.chunk = e.chunk ∧
        x.fromReserve = decide (sharedFree s = 0)) ∧
      OnlyChanges [.regs, .disp] s t := by
  have runs : exec (.creditGrant i stage c) s =
      .next (((s.spendCredit f i stage).creditToken e).addEntry i (stage + 1) c e.chunk (decide (sharedFree s = 0))) := by
    simp only [exec, execCreditGrant, hf, he, hgo, hmay]
    rfl
  obtain ⟨x, hx⟩ := s.spendCredit_flow stage (State.flow_of_boundFlow hf)
  have token : ((s.spendCredit f i stage).creditToken e).flow i = some x := hx
  have entries := State.addEntry_entries _ i (stage + 1) c e.chunk (decide (sharedFree s = 0)) token
  have added := entries ▸ List.mem_append_right _ List.mem_cons_self
  exact ⟨_, runs, ⟨_, added, rfl, rfl, rfl, rfl, rfl⟩, only_of_blank (by simp [State.addEntry_blank_regs_disp, State.spendCredit_blank])⟩

/-! ## Sink grants (R91, R99) -/

section
variable {s : State} {f : Flow} {e : Task} {place : Placement} {nsid slba extent slot a k rest : Nat} {n : Ns}
  (hn : s.ns.find nsid = some n) (hx : lbaExtent n e place slba extent slot (lbaPlan s f n e place extent slot) = (a, k, rest))
include hn hx

theorem State.grantSink_of_nothing (hnone : k + rest = 0) : s.grantSink f e place nsid slba extent slot = s.creditToken e := by
  simp only [State.grantSink, hn, hx, hnone, if_true]

section
variable (hsome : k + rest ≠ 0) (hwait : sinkWaits s e = false)
include hsome hwait

theorem State.grantSink_of_refused {st : Status} (hgate : s.nvmGate f.owner nsid a (k + rest) true false = .error st) :
    s.grantSink f e place nsid slba extent slot = s.failSink e st := by
  simp only [State.grantSink, hn, hx, hsome, hwait, hgate, if_false, Bool.false_eq_true]

theorem State.grantSink_of_empty (hempty : e.empty = true) (hgate : (s.nvmGate f.owner nsid a (k + rest) true false).isOk = true)
    (hwrite : s.writeFails n { who := ⟨f.owner, 0, 0⟩, kind := .sink e.flow e.cslot rest, nsid := nsid, slba := a, nlb := k } = none) :
    s.grantSink f e place nsid slba extent slot = s.creditToken e := by
  cases passes : s.nvmGate f.owner nsid a (k + rest) true false with
  | error st => simp [passes, Except.isOk, Except.toBool] at hgate
  | ok x => simp only [State.grantSink, hn, hx, hsome, hwait, passes, hwrite, hempty, if_false, if_true, Bool.false_eq_true]

end

end

theorem exec_sinkGrant {s : State} {i c : Nat} {f : Flow} {e : Task} {place : Placement} {nsid slba extent slot : Nat}
    (hgo : dispatching s = true) (hf : s.boundFlow i = some f) (hflow : flowGoes s f = true)
    (he : s.entry i (Trail.sinkIx f.trail) c = some e)
    (hst : Trail.stageAt f.trail (Trail.sinkIx f.trail) = some (.lbaSink place nsid slba extent slot)) (hwants : wantsGrant e = true) :
    exec (.sinkGrant i c) s = .next (s.grantSink f e place nsid slba extent slot) := by
  simp [exec, execSinkGrant, hf, he, hst, hgo, hflow, hwants]

/-- Settles O5: a credit takes an entry with it, and a sink's grant comes at once or ends with the status of the check that it fails. -/
theorem creditsAndGrants : Obligations.CreditsAndGrants := by
  unfold Obligations.CreditsAndGrants
  refine ⟨creditGrant_takes_entry, ?_⟩
  intro s i c f e place nsid slba extent slot a k rest n hgo hf hflow he hst hwants hn hx
  have runs := exec_sinkGrant hgo hf hflow he hst hwants
  refine ⟨fun hgrant => ?_, fun st hsome hwait hgate => ?_⟩
  · have granted : s.grantSink f e place nsid slba extent slot = s.creditToken e := by
      by_cases hnone : k + rest = 0
      · exact State.grantSink_of_nothing hn hx hnone
      · obtain ⟨hempty, hwait, hgate, hwrite⟩ := hgrant.resolve_left hnone
        exact State.grantSink_of_empty hn hx hnone hwait hempty hgate hwrite
    exact ⟨_, granted ▸ runs, s.creditToken_entries e, only_of_blank (by simp)⟩
  · rw [runs, State.grantSink_of_refused hn hx hsome hwait hgate]

/-! ## Firing (R93, R104) -/

theorem State.dropEntry_disp (s : State) (i stage c : Nat) :
    ∃ es fs, (s.dropEntry i stage c).disp = { s.disp with entries := es, flows := fs } := by
  unfold State.dropEntry
  split
  · exact ⟨_, _, rfl⟩
  · exact ⟨_, _, rfl⟩

/-- Of the dispatcher a task that fires changes its entry and its flow context. -/
theorem State.fired_disp (s : State) (f : Flow) (e : Task) : ∃ es fs, (s.fired f e).disp = { s.disp with entries := es, flows := fs } := by
  obtain ⟨_, _, dropped⟩ := s.dropEntry_disp e.flow e.stage e.cslot
  unfold State.fired
  extract_lets s1
  split
  · exact ⟨_, _, by rw [State.returnCredit, State.onFlow, State.onDisp_disp, show s1.disp = _ from dropped]⟩
  · exact ⟨_, _, dropped⟩

theorem State.fired_entry (s : State) (f : Flow) (e : Task) : (s.fired f e).entry e.flow e.stage e.cslot = none := by
  have dropped := s.entry_dropEntry_self e.flow e.stage e.cslot
  unfold State.fired
  extract_lets s1
  split
  · exact dropped
  · exact dropped

@[simp] theorem State.paceHold_disp (s : State) : s.paceHold.disp = s.disp :=
  only_of_blank (s.paceHold_blank (ps := [.dma]) (by simp)) .disp (by decide)

theorem isEngine_of_prefetcher {s : State} {cls : UnitClass} {t : Task} {u : Nat} (h : prefetcher s cls t = some u) : isEngine cls = true := by
  unfold prefetcher at h
  split at h
  next hc => exact (Bool.and_eq_true_iff.mp hc).1
  next => cases h

/-- A task that is sent joins its queue; or, of a class of engines of which nothing is queued, a prefetch stage takes it (R104). -/
theorem State.sendTask_cases (s : State) (f : Flow) (e : Task) (cls : UnitClass) (queue : Nat) (out : Option Nat) :
    ((s.sendTask f e cls queue out).disp.queues = s.disp.queues ++ [(cls, queue, { e with out := out })] ∧
      (s.sendTask f e cls queue out).disp.prefetch = s.disp.prefetch) ∨
    (isEngine cls = true ∧ (∀ x ∈ s.disp.queues, x.1 ≠ cls) ∧ (s.sendTask f e cls queue out).disp.queues = s.disp.queues ∧
      ∃ p, (s.sendTask f e cls queue out).disp.prefetch = s.disp.prefetch ++ [p] ∧ p.cls = cls ∧ p.task = { e with out := out }) := by
  obtain ⟨es, fs, fired⟩ := s.fired_disp f e
  unfold State.sendTask
  extract_lets t s1
  have queues : s1.disp.queues = s.disp.queues := (congrArg Disp.queues fired :)
  have prefetch : s1.disp.prefetch = s.disp.prefetch := (congrArg Disp.prefetch fired :)
  split
  next u hu =>
    obtain ⟨_, hpool⟩ := (s1.prefetchTask cls u t).poolUpdate_disp
    rw [hpool]
    split at hu
    next => cases hu
    next hany =>
      refine .inr ⟨isEngine_of_prefetcher hu, ?_, queues, ⟨_, congrArg (· ++ [_]) prefetch, rfl, rfl⟩⟩
      rintro x hx rfl
      exact hany (List.any_eq_true.mpr ⟨x, queues ▸ hx, decide_eq_true rfl⟩)
  next =>
    obtain ⟨_, hpool⟩ := ((s1.onDisp fun d => { d with queues := d.queues ++ [(cls, queue, t)] }).paceHold).poolUpdate_disp
    rw [hpool, State.paceHold_disp]
    exact .inl ⟨congrArg (· ++ [_]) queues, prefetch⟩

theorem State.sendTask_entry (s : State) (f : Flow) (e : Task) (cls : UnitClass) (queue : Nat) (out : Option Nat) :
    (s.sendTask f e cls queue out).entry e.flow e.stage e.cslot = none := by
  refine .trans (State.entry_of_entries ?_ ..) (s.fired_entry f e)
  unfold State.sendTask
  extract_lets t s1
  rw [State.poolUpdate_entries]
  split
  · rfl
  · rw [State.paceHold_disp]; rfl

theorem State.allocBuf_disp {s u : State} {b : Nat} (h : s.allocBuf = some (b, u)) : ∃ bs, u.disp = { s.disp with bufs := bs } := by
  unfold State.allocBuf at h
  split at h
  · cases h; exact ⟨_, rfl⟩
  · cases h

theorem taskFire_fires (s u : State) (i stage c q b : Nat) (f : Flow) (e : Task) (st : Stage) (hgo : dispatching s = true)
    (hflow : flowGoes s f = true) (hf : s.boundFlow i = some f) (he : s.entry i stage c = some e) (_hplace : isEntry i stage c e = true)
    (hst : Trail.stageAt f.trail stage = some st) (hready : e.ready = true) (hkey : hmacCleared s f e = false) (hdata : e.empty = false)
    (hout : makesOutput st = true) (hq : fireQueue s f e st = some q) (hroom : queueTakes s e st.cls q = true)
    (hbuf : s.allocBuf = some (b, u)) :
    Completes (.taskFire i stage c .good) s fun t =>
      ((t.disp.queues = s.disp.queues ++ [(st.cls, q, { e with out := some b })] ∧ t.disp.prefetch = s.disp.prefetch) ∨
        (t.disp.queues = s.disp.queues ∧
          ∃ p, t.disp.prefetch = s.disp.prefetch ++ [p] ∧ p.cls = st.cls ∧ p.task = { e with out := some b })) ∧
      ((isEngine st.cls = false ∨ ∃ x ∈ s.disp.queues, x.1 = st.cls) → t.disp.prefetch = s.disp.prefetch) ∧
      t.entry i stage c = none ∧ OnlyChanges [.regs, .dma, .disp] s t := by
  obtain ⟨rfl, rfl, rfl⟩ := State.entry_names he
  have runs : exec (.taskFire e.flow e.stage e.cslot .good) s = .next (s.fireTask f e st) := by
    simp [exec, execTaskFire, hf, he, hst, hgo, hflow, hready, hkey, hdata]
  have sent : s.fireTask f e st = u.sendTask f e st.cls q (some b) := by
    simp [State.fireTask, hq, hroom, hout, hbuf]
  obtain ⟨_, alloc⟩ := State.allocBuf_disp hbuf
  have queues : u.disp.queues = s.disp.queues := (congrArg Disp.queues alloc :)
  have prefetch : u.disp.prefetch = s.disp.prefetch := (congrArg Disp.prefetch alloc :)
  have frame : OnlyChanges [.regs, .dma, .disp] s (s.fireTask f e st) := only_of_blank (s.fireTask_blank f e st (by simp))
  have goes := u.sendTask_cases f e st.cls q (some b)
  rw [queues, prefetch] at goes
  rw [sent] at runs frame
  refine ⟨_, runs, ?_, ?_, u.sendTask_entry .., frame⟩
  · exact goes.imp_right fun ⟨_, _, same, stage⟩ => ⟨same, stage⟩
  · intro noStage
    obtain ⟨_, same⟩ | ⟨engine, free, _⟩ := goes
    · exact same
    · obtain noEngine | ⟨x, hx, cls⟩ := noStage
      · exact absurd engine (by simp [noEngine])
      · exact absurd cls (free x hx)

/-! ## Transfers of the NVM path (R96, R273) -/

theorem State.keyUse_blank_regs_sea {ps : List Part} (s : State) (pipeline key : Nat) (hc : [Part.regs, .sea] ⊆ ps) :
    (s.keyUse pipeline key).blank ps = s.blank ps := by
  simp only [List.cons_subset] at hc
  unfold State.keyUse
  extract_lets old s1
  simp only [s1]
  split <;> simp [*]

@[simp] theorem State.keyUse_disp (s : State) (pipeline key : Nat) : (s.keyUse pipeline key).disp = s.disp :=
  only_of_blank (s.keyUse_blank_regs_sea (ps := [.regs, .sea]) pipeline key (by simp)) .disp (by decide)

theorem State.startTransfer_disp (s : State) (t : Transfer) : ∃ ts, (s.startTransfer t).disp = { s.disp with transfers := ts } := by
  unfold State.startTransfer
  extract_lets free us s1
  split
  · exact ⟨_, rfl⟩
  · exact ⟨_, disp_foldl _ (fun u p => disp_foldl _ (fun v k => v.keyUse_disp p k) t.keys u) us s1⟩

/-- Of the dispatcher the transfers that begin and end change themselves alone. -/
theorem State.startTransfers_disp (s : State) : ∃ ts, s.startTransfers.disp = { s.disp with transfers := ts } := by
  have all (l : List Transfer) (u : State) : ∃ ts, (l.foldl State.startTransfer u).disp = { u.disp with transfers := ts } := by
    induction l generalizing u with
    | nil => exact ⟨_, rfl⟩
    | cons t l ih =>
      obtain ⟨_, first⟩ := u.startTransfer_disp t
      obtain ⟨ts, others⟩ := ih (u.startTransfer t)
      exact ⟨ts, by rw [List.foldl_cons, others, first]⟩
  unfold State.startTransfers
  extract_lets s1
  obtain ⟨ts, started⟩ := all (s1.disp.transfers.filter fun t => t.units.isEmpty) s1
  exact ⟨ts, started⟩

theorem State.startTransfer_blank_regs_sea_disp (s : State) (t : Transfer) :
    (s.startTransfer t).blank [.regs, .sea, .disp] = s.blank [.regs, .sea, .disp] := by
  unfold State.startTransfer
  extract_lets free us s1
  split
  · rfl
  · rw [blank_foldl _ fun u p => blank_foldl _ (fun v k => v.keyUse_blank_regs_sea p k (by simp)) t.keys u]
    simp [s1]

theorem State.startTransfers_now (s : State) : s.startTransfers.now = s.now := by
  have frame : s.startTransfers.blank [.regs, .sea, .disp] = s.blank [.regs, .sea, .disp] := by
    unfold State.startTransfers
    rw [blank_foldl _ State.startTransfer_blank_regs_sea_disp]
    simp
  exact congrArg Sys.ticks (only_of_blank frame .sys (by decide))

/-! ## The start of a task on a unit (R94, R105) -/

theorem State.prefetchNext_disp (s : State) (cls : UnitClass) (unit : Nat) :
    ∃ qs ps, (s.prefetchNext cls unit).disp = { s.disp with queues := qs, prefetch := ps } := by
  unfold State.prefetchNext
  split
  · split
    · split
      · exact ⟨_, _, rfl⟩
      · exact ⟨_, _, rfl⟩
    · exact ⟨_, _, rfl⟩
  · exact ⟨_, _, rfl⟩

/-- A unit of another class than MEDIA that starts a task runs it from now on; a task of another class than the ciphers takes no second
unit. -/
theorem State.startTask_running (s : State) {cls : UnitClass} (hcls : cls ≠ .media) (unit : Nat) (t : Task) :
    ∃ p, (s.startTask cls unit t).disp.running = s.disp.running ++ [⟨cls, unit, t, s.now, p⟩] ∧ (cls ≠ .cipher → p = none) := by
  unfold State.startTask
  extract_lets s1
  split
  next => exact absurd rfl hcls
  next cls _ _ pair s2 _ =>
    obtain ⟨_, _, prefetched⟩ :=
      (s1.onDisp fun d => { d with running := d.running ++ [⟨cls, unit, t, s.now, pair⟩] }).prefetchNext_disp cls unit
    have runs : s2.disp.running = s.disp.running ++ [⟨cls, unit, t, s.now, pair⟩] := (congrArg Disp.running prefetched :)
    refine ⟨pair, ?_, fun h => by simp [pair, h]⟩
    split
    · rw [disp_foldl _ fun u p => u.keyUse_disp p _, State.keyUse_disp, runs]
    · exact runs
    · exact runs

theorem unitTaskStart_runs (s u : State) (cls : UnitClass) (unit : Nat) (x : Task) (hu : s.startTransfers = u) (hgo : dispatching u = true)
    (hcls : cls ≠ .media) (hup : unitDown u cls unit = none) (hserves : unitServes u cls unit = true) (hidle : unitIdle u cls unit = true)
    (hreset : (⟨cls, 0⟩ : UnitReset) ∉ u.disp.resetting) (hx : (candidates u cls unit).find? (suits u cls unit) = some x) :
    Completes (.unitTaskStart cls unit) s fun t =>
      (∃ p, t.disp.running = s.disp.running ++ [⟨cls, unit, x, s.now, p⟩] ∧ (cls ≠ .cipher → p = none)) ∧
      OnlyChanges [.regs, .sys, .host, .ns, .ftl, .media, .str, .sea, .dma, .disp, .hrt, .health] s t := by
  subst hu
  have runs : exec (.unitTaskStart cls unit) s = .next (s.startTransfers.startTask cls unit x) := by
    simp [exec, execUnitTaskStart, State.unitStart, hup, hgo, hserves, hidle, hreset, hx]
  obtain ⟨_, transfers⟩ := s.startTransfers_disp
  have started := s.startTransfers.startTask_running hcls unit x
  rw [s.startTransfers_now, show s.startTransfers.disp.running = s.disp.running from (congrArg Disp.running transfers :)] at started
  exact ⟨_, runs, started, only_of_blank (by simp)⟩

/-! ## A task's output (R100) -/

theorem State.flow_onFlow (s : State) (i j : Nat) (g : Flow → Flow) :
    (s.onFlow i g).flow j = if j = i then (s.flow i).map g else s.flow j := by
  simp [State.flow, State.onFlow, Tbl.find_modify]

/-- A token is stale or not by the binding and the generation of its flow context alone (R109). -/
theorem staleTag_eq (s : State) (t : Tag) :
    staleTag s t = (s.flow t.flow).all fun f => !f.bound || decide (f.generation % 16 ≠ t.gen) := by
  unfold staleTag State.boundFlow
  cases s.flow t.flow with
  | none => rfl
  | some f => cases hb : f.bound <;> simp [hb]

theorem staleTag_of_flows {s t : State} (h : t.disp.flows = s.disp.flows) (tag : Tag) : staleTag t tag = staleTag s tag := by
  simp [staleTag, State.boundFlow, State.flow, h]

theorem State.mismatch_staleTag (s : State) (i stage declared actual : Nat) (t : Tag) :
    staleTag (s.mismatch i stage declared actual) t = staleTag s t := by
  rw [staleTag_eq, staleTag_eq, State.mismatch, State.flow_onFlow]
  split
  next h =>
    rw [h]
    cases s.flow i with
    | none => rfl
    | some f => simp only [Option.map_some, Option.all_some]; split <;> rfl
  next => rfl

theorem State.freeBuf_disp (s : State) (b : Option Nat) : ∃ bs, (s.freeBuf b).disp = { s.disp with bufs := bs } := by
  cases b <;> exact ⟨_, rfl⟩

/-- A data token that is not stale arrives at the entry that its tag names (R84). -/
theorem State.dataToken_arrives (s : State) {tag : Tag} {e : Task} (buf : Option Nat) (len : Nat) (skipped : Bool)
    (hfresh : staleTag s tag = false) (he : s.entry tag.flow tag.stage tag.cslot = some e) (hkept : e.discard = false) :
    (s.dataToken tag buf len skipped).disp.running = s.disp.running ∧
      ∃ y, (s.dataToken tag buf len skipped).entry tag.flow tag.stage tag.cslot = some y ∧ y.arrived = e.arrived ||| tag.bit := by
  unfold State.dataToken
  simp only [hfresh, he, hkept, Bool.false_eq_true, if_false]
  have freed : ∃ bs, (if len = 0 then s.freeBuf buf else s).disp = { s.disp with bufs := bs } := by
    split
    · exact s.freeBuf_disp buf
    · exact ⟨_, rfl⟩
  obtain ⟨bs, freed⟩ := freed
  refine ⟨(congrArg Disp.running freed :), ?_⟩
  rw [State.entry_arrive_self _ _ ?place, State.entry_of_entries (congrArg Disp.entries freed :), he]
  case place => exact fun _ => rfl
  exact ⟨_, rfl, rfl⟩

/-- A task that publishes its output sends a data token to the next stage's entry (R100). -/
theorem State.emit_arrives (s : State) {t e : Task} (p : Payload) (skipped : Bool) (hfresh : staleTag s t.dataTag = false)
    (he : s.entry t.flow (t.stage + 1) t.cslot = some e) (hkept : e.discard = false) :
    (s.emit t p skipped).disp.running = s.disp.running ∧
      ∃ y, (s.emit t p skipped).entry t.flow (t.stage + 1) t.cslot = some y ∧ y.arrived = e.arrived ||| 1 := by
  unfold State.emit
  extract_lets full kept s1 s2 s3
  have cut : s1.disp.running = s.disp.running ∧ s1.disp.entries = s.disp.entries ∧ staleTag s1 t.dataTag = staleTag s t.dataTag := by
    simp only [s1]
    split
    · exact ⟨rfl, rfl, s.mismatch_staleTag ..⟩
    · exact ⟨rfl, rfl, rfl⟩
  obtain ⟨_, input⟩ : ∃ bs, s2.disp = { s1.disp with bufs := bs } := s1.freeBuf_disp t.buf
  have output : ∃ bs, s3.disp = { s1.disp with bufs := bs } := by
    simp only [s3]
    split
    · split
      · exact ⟨_, input⟩
      · exact ⟨_, by rw [State.setBuf, State.onDisp_disp, input]⟩
    · exact ⟨_, input⟩
  obtain ⟨bs, output⟩ := output
  obtain ⟨running, entries, stale⟩ := cut
  have fresh : staleTag s3 t.dataTag = false := by
    rw [staleTag_of_flows (congrArg Disp.flows output :), stale, hfresh]
  have there : s3.entry t.flow (t.stage + 1) t.cslot = some e := by
    rw [State.entry_of_entries ((congrArg Disp.entries output).trans entries), he]
  obtain ⟨hrunning, arrives⟩ := s3.dataToken_arrives (tag := t.dataTag) t.out kept.length skipped fresh there hkept
  exact ⟨hrunning.trans ((congrArg Disp.running output).trans running), arrives⟩

theorem State.countDma_disp (s : State) (n : Nat) : (s.countDma n).disp = s.disp :=
  only_of_blank (ps := [.regs]) (by simp) .disp (by decide)

theorem State.dmaTaskEnds_disp (s : State) (n : Nat) : (s.dmaTaskEnds n).disp = s.disp :=
  only_of_blank (s.dmaTaskEnds_blank (ps := [.dma]) n (by simp)) .disp (by decide)

/-- The task has left its unit, and what the NVM path's transfers hold is up to date. -/
def State.unitLeft (s : State) (r : Running) : State := (s.onDisp fun d => { d with running := d.running.erase r }).startTransfers

theorem State.unitLeft_disp (s : State) (r : Running) :
    ∃ ts, (s.unitLeft r).disp = { s.disp with running := s.disp.running.erase r, transfers := ts } :=
  (s.onDisp fun d => { d with running := d.running.erase r }).startTransfers_disp

/-- After a task's output its channel, if it ran on one, and the key changes that waited go on. -/
def State.afterTask (s : State) (r : Running) : State := (if r.cls = .dma then s.dmaTaskEnds r.unit else s).rekeyAdvance

theorem State.afterTask_disp (s : State) (r : Running) : (s.afterTask r).disp = s.disp := by
  unfold State.afterTask
  rw [State.rekeyAdvance_disp]
  split
  · rw [State.dmaTaskEnds_disp]
  · rfl

/-- A reshuffle's output arrives at the next stage's entry (R100). -/
theorem State.runReshuffle_arrives (s : State) {t e : Task} (op un n w : Nat) (hfresh : staleTag s t.dataTag = false)
    (he : s.entry t.flow (t.stage + 1) t.cslot = some e) (hkept : e.discard = false) :
    (s.runReshuffle t op un n w).disp.running = s.disp.running ∧
      ∃ y, (s.runReshuffle t op un n w).entry t.flow (t.stage + 1) t.cslot = some y ∧ y.arrived = e.arrived ||| 1 := by
  have counted := s.countDma_disp (taskInput s t).bytes.length
  rw [← congrArg Disp.running counted]
  refine State.emit_arrives _ _ false ?_ ?_ hkept
  · rw [staleTag_of_flows (congrArg Disp.flows counted :), hfresh]
  · rw [State.entry_of_entries (congrArg Disp.entries counted :), he]

theorem taskComplete_hands_on (s : State) (i stage c op un n w : Nat) (hv : HostView) (f : Flow) (r : Running) (e : Task)
    (hgo : dispatching s = true) (hr : (s.disp.running.find? fun x => isEntry i stage c x.task) = some r)
    (hown : s.boundFlow r.task.flow = some f) (hf : s.boundFlow i = some f) (hst : s.taskStage r.task = some (.reshuffle op un n w))
    (he : s.entry r.task.flow (r.task.stage + 1) r.task.cslot = some e) (hkept : e.discard = false)
    (_hplace : isEntry r.task.flow (r.task.stage + 1) r.task.cslot e = true) (hgen : f.generation % 16 = r.task.gen % 16) :
    Completes (.taskComplete i stage c hv .good) s fun t =>
      t.disp.running = s.disp.running.erase r ∧
      ∃ y, t.entry r.task.flow (r.task.stage + 1) r.task.cslot = some y ∧ y.arrived = e.arrived ||| 1 := by
  have runs : exec (.taskComplete i stage c hv .good) s = .next (((s.unitLeft r).runReshuffle r.task op un n w).afterTask r) := by
    simp [exec, execTaskComplete, hr, hf, hst, hgo, mayComplete, State.runStage, State.unitLeft, State.afterTask]
  obtain ⟨ts, left⟩ := s.unitLeft_disp r
  have fresh : staleTag (s.unitLeft r) r.task.dataTag = false := by
    rw [staleTag_of_flows (congrArg Disp.flows left :)]
    simp [staleTag, Task.dataTag, hown, hgen]
  have there : (s.unitLeft r).entry r.task.flow (r.task.stage + 1) r.task.cslot = some e := by
    rw [State.entry_of_entries (congrArg Disp.entries left :), he]
  obtain ⟨running, y, hy, arrived⟩ := (s.unitLeft r).runReshuffle_arrives op un n w fresh there hkept
  have after := ((s.unitLeft r).runReshuffle r.task op un n w).afterTask_disp r
  refine ⟨_, runs, ?_, y, ?_, arrived⟩
  · rw [after, running, left]
  · rw [State.entry_of_entries (congrArg Disp.entries after :), hy]

/-! ## The watchdog and the orphan check (R109) -/

theorem engineWatchdogExpiry_fails (s : State) (cls : UnitClass) (unit : Nat) (r : Running) (hgo : dispatching s = true)
    (hcls : isEngine cls = false) (hr : (s.disp.running.find? fun x => decide (x.cls = cls) && decide (x.unit = unit)) = some r) :
    Completes (.engineWatchdogExpiry cls unit) s fun t =>
      t = ((((s.recordEsc 0 .engine (clsCode cls) 1).onDisp fun d => { d with running := d.running.erase r }).withdraw fun c =>
        c = .trail r.task.flow r.task.cslot).failTask r.task stEngineTimeout) :=
  ⟨_, by simp [exec, execEngineWatchdogExpiry, hr, hgo, hcls], rfl⟩

theorem orphanCheck_suspects (s : State) (hgo : dispatching s = true) (hon : s.regBit rDspCtl 16 = true) (hnone : s.disp.suspects = []) :
    Completes .orphanCheck s fun t =>
      t.disp = { s.disp with suspects := (s.disp.entries.filter (isOrphan s)).map fun e => (e.flow, e.stage, e.cslot) } ∧
      OnlyChanges [.disp] s t := by
  have runs : exec .orphanCheck s = .next (s.onDisp fun d =>
      { d with suspects := (s.disp.entries.filter (isOrphan s)).map fun e => (e.flow, e.stage, e.cslot) }) := by
    simp [exec, execOrphanCheck, hgo, hon, hnone]
  exact ⟨_, runs, rfl, only_of_blank (by simp)⟩

/-! ## Squirrel slots and harts (R101, R102, R126) -/

@[simp] theorem State.hart_onHart_self (s : State) (h : Nat) (g : Hart → Hart) : (s.onHart h g).hart h = g (s.hart h) := by
  simp [State.hart, State.onHart, State.setHart]

@[simp] theorem State.hart_onHart_other (s : State) {h j : Nat} (g : Hart → Hart) (hj : j ≠ h) : (s.onHart h g).hart j = s.hart j := by
  simp [State.hart, State.onHart, State.setHart, hj]

theorem State.hart_of_hrt {s t : State} (h : t.hrt = s.hrt) (j : Nat) : t.hart j = s.hart j := by
  simp [State.hart, h]

theorem State.poolUpdate_hrt (s : State) : s.poolUpdate.hrt = s.hrt :=
  only_of_blank (s.poolUpdate_blank (ps := [.regs, .disp]) (by simp)) .hrt (by decide)

/-- The oldest task of the queue of a hart's cluster moves into its Squirrel slot. -/
def State.fillSquirrel (s : State) (h : Nat) (q : UnitClass × Nat × Task) : State :=
  (s.onDisp fun d => { d with queues := d.queues.erase q }).onHart h fun x =>
    { x with squirrel := some ⟨q.2.2, taskDescriptor s q.2.2, taskOperand s q.2.2⟩ }

theorem squirrelFill_takes_oldest (s : State) (h : Nat) (q : UnitClass × Nat × Task) (hgo : computing s = true) (hh : h < 64)
    (hfree : (s.hart h).squirrel = none)
    (hq : (s.disp.queues.find? fun q => decide (q.1 = .hart) && decide (q.2.1 = h / 8)) = some q) :
    Completes (.squirrelFill h) s fun t =>
      (t.hart h).squirrel = some ⟨q.2.2, taskDescriptor s q.2.2, taskOperand s q.2.2⟩ ∧ t.disp.queues = s.disp.queues.erase q ∧
      OnlyChanges [.regs, .disp, .hrt] s t := by
  have runs : exec (.squirrelFill h) s = .next (s.fillSquirrel h q).poolUpdate := by
    simp [exec, execSquirrelFill, hgo, hh, hfree, hq, State.fillSquirrel]
  obtain ⟨_, pool⟩ := (s.fillSquirrel h q).poolUpdate_disp
  refine ⟨_, runs, ?_, congrArg Disp.queues pool, only_of_blank (by simp [State.fillSquirrel])⟩
  rw [State.hart_of_hrt (State.poolUpdate_hrt _), State.fillSquirrel, State.hart_onHart_self]

/-- A hart without the lines that a test drops. -/
def Hart.dropLines (p : CacheLine → Bool) (x : Hart) : Hart :=
  { x with icache := x.icache.filter fun l => !p l, dcache := x.dcache.filter fun l => !p l }

theorem State.hart_dropLines_self (s : State) (h : Nat) (p : CacheLine → Bool) : (s.dropLines h p).hart h = (s.hart h).dropLines p :=
  s.hart_onHart_self h (Hart.dropLines p)

theorem State.hart_dropLines_other (s : State) {h j : Nat} (p : CacheLine → Bool) (hj : j ≠ h) : (s.dropLines h p).hart j = s.hart j :=
  s.hart_onHart_other (Hart.dropLines p) hj

/-- No line of a kernel's input, output, scratch and stack windows is left in the data cache of its hart (R131, R137). -/
theorem State.invalidate_drops (s : State) (h : Nat) : ∀ l ∈ ((s.invalidate h).hart h).dcache, ¬(l.owner = h ∧ 2 ^ 34 ≤ l.line * 64) := by
  intro l hl
  rw [State.invalidate, State.hart_dropLines_self] at hl
  have kept := (List.mem_filter.mp hl).2
  simp only [Bool.not_eq_true', Bool.and_eq_false_iff, decide_eq_false_iff_not] at kept
  omega

/-- A hart that begins a kernel for the task of its Squirrel slot. -/
def Hart.begin (k : Kernel) (x : Hart) : Hart := { x with squirrel := none, kernel := some k }

theorem hartTaskStart_begins (s : State) (h : Nat) (x : SlotTask) (hgo : computing s = true) (hh : h < 64)
    (hfree : (s.hart h).kernel = none) (hreset : (s.hart h).resetting = false) (hx : (s.hart h).squirrel = some x) :
    Completes (.hartTaskStart h) s fun t =>
      (t.hart h).squirrel = none ∧
      (∃ k, (t.hart h).kernel = some k ∧ k.task = x.task ∧ k.since = s.now ∧ k.budget = s.taskBudget x.task ∧ k.phase = .run ∧
        k.block = taskBlock s x.task ∧ k.lines = [] ∧ k.high = 0 ∧
        (∀ y, s.taskKernel x.task = some y → k.regs = entryRegs y.1 x.task.len)) ∧
      (∀ l ∈ (t.hart h).dcache, ¬(l.owner = h ∧ 2 ^ 34 ≤ l.line * 64)) ∧
      (∀ j, j ≠ h → t.hart j = s.hart j) ∧ OnlyChanges [.hrt] s t := by
  have runs : exec (.hartTaskStart h) s = .next ((s.invalidate h).onHart h (Hart.begin (s.beginKernel x.task))) := by
    simp [exec, execHartTaskStart, hgo, hh, hfree, hreset, hx]
    rfl
  have self := (s.invalidate h).hart_onHart_self h (Hart.begin (s.beginKernel x.task))
  refine ⟨_, runs, congrArg Hart.squirrel self,
    ⟨s.beginKernel x.task, congrArg Hart.kernel self, rfl, rfl, rfl, rfl, rfl, rfl, rfl, fun y hy => by simp [State.beginKernel, hy]⟩,
    ?_, fun j hj => ?_, only_of_blank (by simp)⟩
  · rw [self]
    exact s.invalidate_drops h
  · rw [State.hart_onHart_other _ _ hj, State.invalidate, State.hart_dropLines_other _ _ hj]

/-- Settles O6: a lemma for each of the commands that fire, start, end, time out, check and move tasks. -/
theorem tasksRun : Obligations.TasksRun := by
  unfold Obligations.TasksRun
  exact ⟨taskFire_fires, unitTaskStart_runs, taskComplete_hands_on, engineWatchdogExpiry_fails, orphanCheck_suspects,
    squirrelFill_takes_oldest, hartTaskStart_begins⟩
end Sys2Proof.Machine
end

section
/-! PROOFS. The statements on kernels: EXIT and the windows (O7), failures, budgets and resets of harts (O8), and the monitor calls that
return (O9), with what a kernel's run and its calls do to the kernel of their hart. -/

open Sys2Proof Sys2Proof.Machine

namespace Sys2Proof.Machine

/-! ## The kernel of a hart -/

@[simp] theorem State.kernel_onKernel_self (s : State) (h : Nat) (g : Kernel → Kernel) :
    ((s.onKernel h g).hart h).kernel = (s.hart h).kernel.map g := by
  rw [State.onKernel, State.hart_onHart_self]

theorem State.hart_setHart_self (s : State) (h : Nat) (x : Hart) : (s.setHart h x).hart h = x := Tbl.getD_put_self Hart.reset _ h x

theorem State.hart_setL2 (s : State) (c j : Nat) (ls : List CacheLine) : (s.setL2 c ls).hart j = s.hart j := rfl

theorem State.kernel_touchLine_self (s : State) (h : Nat) (code : Bool) (l : CacheLine) :
    ((s.touchLine h code l).hart h).kernel = (s.hart h).kernel := by
  unfold State.touchLine
  extract_lets x
  obtain ⟨kept, gone⟩ := fillCache l1Lines (if code then x.icache else x.dcache) l
  dsimp only
  rw [State.hart_setL2, State.hart_setHart_self]
  cases code <;> rfl

theorem State.kernel_foldl_touchLine_self (s : State) (h : Nat) (code : Bool) (g : Nat → CacheLine) (ls : List Nat) :
    ((ls.foldl (fun t l => t.touchLine h code (g l)) s).hart h).kernel = (s.hart h).kernel := by
  induction ls generalizing s with
  | nil => rfl
  | cons l ls ih => rw [List.foldl_cons, ih, State.kernel_touchLine_self]

@[simp] theorem State.kernel_endKernel_self (s : State) (h : Nat) : ((s.endKernel h).hart h).kernel = none := by
  simp [State.endKernel]

/-- A kernel with other lines written and another high-water mark. -/
def Kernel.written (k : Kernel) (lines : Tbl (List Byte)) (high : Nat) : Kernel := { k with lines := lines, high := high }

/-- Updates that each change the lines written and the mark alone change, one after another, those alone. -/
theorem Kernel.foldl_written {α : Type} (g : Kernel → α → Kernel) (hg : ∀ k x, ∃ ls n, g k x = k.written ls n) (xs : List α) (k : Kernel) :
    ∃ ls n, xs.foldl g k = k.written ls n := by
  induction xs generalizing k with
  | nil => exact ⟨k.lines, k.high, rfl⟩
  | cons x xs ih =>
    obtain ⟨ls, n, first⟩ := hg k x
    obtain ⟨ls', n', others⟩ := ih (g k x)
    exact ⟨ls', n', by rw [List.foldl_cons, others, first]; rfl⟩

/-- A store changes the lines that the kernel has written and its high-water mark alone (R124, R131). -/
theorem Kernel.store_written (m : Module) (r : KernelRec) (k : Kernel) (st : Nat × List Byte) : ∃ ls n, k.store m r st = k.written ls n := by
  unfold Kernel.store
  split
  · exact ⟨k.lines, k.high, rfl⟩
  · exact Kernel.foldl_written _ (fun _ _ => ⟨_, _, rfl⟩) _ k

/-- A kernel as a run leaves it, with the lines and the mark that its stores make. -/
def Kernel.ran (k : Kernel) (run : KernelRun) (lines : Tbl (List Byte)) (high : Nat) : Kernel :=
  { k with lines := lines, high := high, regs := run.regs, cycles := run.cycles, instret := run.instret }

/-- Of its kernel a run changes the registers, the counters, the lines written and the high-water mark. -/
theorem State.kernelRuns_kernel {s : State} {h : Nat} {k : Kernel} (hk : (s.hart h).kernel = some k) (run : KernelRun) :
    ∃ ls n, ((s.kernelRuns h run).hart h).kernel = some (k.ran run ls n) := by
  unfold State.kernelRuns
  rw [hk]
  dsimp only
  split
  · exact ⟨k.lines, k.high, by simp [hk]; rfl⟩
  · next m r _ _ =>
    obtain ⟨ls, n, stored⟩ := Kernel.foldl_written _ (Kernel.store_written m r)
      (run.stores.filter fun st => !st.2.isEmpty && (accessCause m r .store st.1 st.2.length).isNone) k
    refine ⟨ls, n, ?_⟩
    rw [State.kernel_foldl_touchLine_self, State.kernel_foldl_touchLine_self, State.kernel_foldl_touchLine_self,
      State.kernel_onKernel_self, hk, Option.map_some, stored]
    rfl

/-- A call that is made marks its kernel as calling (R151). -/
theorem State.callMade_kernel {s : State} {h : Nat} {k x : Kernel} (hx : (s.hart h).kernel = some x) (hsame : x.calling = k.calling) :
    ((s.callMade h k).hart h).kernel = some { x with calling := true } := by
  unfold State.callMade
  split
  next called => rw [hx, ← hsame.trans called]
  next =>
    have counted : ((s.addCnt (rHrtCount 3) 1).hart h).kernel = some x := hx
    rw [State.kernel_onKernel_self, counted, Option.map_some]

/-- A call that returns leaves its results in a0 and a1, and its kernel in no call (R128). -/
theorem State.callReturns_kernel {s : State} {h : Nat} {k : Kernel} (hk : (s.hart h).kernel = some k) (a0 a1 : Option W64) :
    ((s.callReturns h a0 a1).hart h).kernel = some { k.results a0 a1 with calling := false, search := none } := by
  rw [State.callReturns, State.kernel_onKernel_self, hk, Option.map_some]

theorem regX_results_a0 (k : Kernel) (v : W64) : regX (k.results (some v) none).regs 10 = v := by
  simp [Kernel.results, regX, Tbl.getD]

theorem regX_results_other (k : Kernel) (v : W64) {i : Nat} (hi : i ≠ 10) : regX (k.results (some v) none).regs i = regX k.regs i := by
  simp [Kernel.results, regX, Tbl.getD, Tbl.find_set_other _ _ hi]

theorem runningKernel_spec {s : State} {h : Nat} {k : Kernel} (hk : runningKernel s h = some k) :
    computing s = true ∧ h < 64 ∧ (s.hart h).kernel = some k ∧ k.phase = .run ∧ k.search = none := by
  unfold runningKernel at hk
  split at hk
  next able =>
    split at hk
    next x hx =>
      split at hk
      next runs =>
        obtain rfl := Option.some.inj hk
        exact ⟨able.1, able.2, hx, runs.1, Option.isNone_iff_eq_none.mp runs.2⟩
      next => cases hk
    next => cases hk
  next => cases hk

/-- A running kernel that makes a call, as it stands when the call is served (R128, R151). -/
def Kernel.called (k : Kernel) (run : KernelRun) (lines : Tbl (List Byte)) (high : Nat) : Kernel :=
  { k.ran run lines high with calling := true }

theorem runningKernel_calls {s : State} {h : Nat} {k : Kernel} (hk : runningKernel s h = some k) (run : KernelRun) :
    ∃ ls n, (((s.kernelRuns h run).callMade h k).hart h).kernel = some (k.called run ls n) := by
  obtain ⟨_, _, there, _, _⟩ := runningKernel_spec hk
  obtain ⟨ls, n, ran⟩ := State.kernelRuns_kernel there run
  exact ⟨ls, n, State.callMade_kernel ran rfl⟩

theorem kernel_of_call {s : State} {h : Nat} {run : KernelRun} {k0 k : Kernel} (hk0 : runningKernel s h = some k0)
    (hk : (((s.kernelRuns h run).callMade h k0).hart h).kernel = some k) : ∃ ls n, k = k0.called run ls n := by
  obtain ⟨ls, n, called⟩ := runningKernel_calls hk0 run
  exact ⟨ls, n, Option.some.inj (hk.symm.trans called)⟩

/-! ## EXIT and its write-back (R124, R131, R132, R136) -/

theorem exitLength_eq_none {r : KernelRec} {outLen : Nat} (hlong : r.outWindow < outLen) (rs high : Nat) :
    exitLength r rs outLen high = none := if_pos (.inl hlong)

/-- A payload is neither longer than declared nor longer than written, is whole records where the output is records, and is all that was
declared where all of it was written (R131, R132). -/
theorem exitLength_bounds (r : KernelRec) (rs outLen high p : Nat) (_hrs : 0 < rs) (hp : exitLength r rs outLen high = some p) :
    p ≤ outLen ∧ p ≤ high ∧ (r.outRecords = true → p % rs = 0) ∧ (high = outLen → p = outLen) := by
  unfold exitLength at hp
  split at hp
  next => cases hp
  next passes =>
    have declared : Nat.min outLen high ≤ outLen := Nat.min_le_left outLen high
    have written : Nat.min outLen high ≤ high := Nat.min_le_right outLen high
    have all (h : high = outLen) : Nat.min outLen high = outLen := h ▸ Nat.min_self high
    generalize Nat.min outLen high = bytes at hp declared written all
    obtain rfl := Option.some.inj hp
    split
    next records =>
      have whole : outLen % rs = 0 := Classical.not_not.mp fun part => passes (.inr ⟨records, part⟩)
      have cut : bytes / rs * rs ≤ bytes := Nat.div_mul_le_self bytes rs
      refine ⟨cut.trans declared, cut.trans written, fun _ => Nat.mul_mod_left _ _, fun h => ?_⟩
      rw [all h, Nat.div_mul_cancel (Nat.dvd_of_mod_eq_zero whole)]
    next noRecords => exact ⟨declared, written, fun records => absurd records noRecords, all⟩

/-- A byte of the output that lies in no line written reads as 0 (R124). -/
theorem outputBytes_unwritten (k : Kernel) (n : Nat) {a : Nat} (ha : a < n) (hnone : k.lines.find ((Window.output.base + a) / 64) = none) :
    (outputBytes k n)[a]? = some 0 := by
  simp [outputBytes, ha, Tbl.getD, hnone]

/-- EXIT notes that the length declared is not the length written (R70, R132). -/
def State.noteLength (s : State) (k : Kernel) (outLen : Nat) : State :=
  if outLen = k.high then s else s.mismatch k.task.flow k.task.stage outLen k.high

theorem State.kernel_noteLength (s : State) (h : Nat) (k : Kernel) (outLen : Nat) :
    ((s.noteLength k outLen).hart h).kernel = (s.hart h).kernel := by
  unfold State.noteLength
  split <;> rfl

section
variable {s u : State} {h : Nat} {run : KernelRun} {k0 k : Kernel} {r : KernelRec} {f : Flow} (hk0 : runningKernel s h = some k0)
  (hr : s.recordOfKernel k0 = some r) (hf : s.flow k0.task.flow = some f) (hu : (s.kernelRuns h run).callMade h k0 = u)
  (hk : (u.hart h).kernel = some k)
include hk0 hr hf hu hk

theorem exit_writes_back {p : Nat} (hp : exitLength r f.trail.recordSize (regX run.regs 10).toNat k.high = some p) :
    Completes (.exit h run) s fun t =>
      (∃ x used, (t.hart h).kernel = some x ∧ x.phase = .writeback (outputBytes k p) used ∧ x.task = k0.task ∧ x.since = k0.since) ∧
      OnlyChanges [.regs, .disp, .hrt] s t := by
  have runs : exec (.exit h run) s = .next ((u.noteLength k (regX run.regs 10).toNat).onKernel h fun k =>
      { k with phase := .writeback (outputBytes k p) (usedTicks s k) }) := by
    subst hu
    simp only [exec, execExit, hk0, hr, hf, hk, hp]
    rfl
  have there := (u.kernel_noteLength h k (regX run.regs 10).toNat).trans hk
  subst hu
  obtain ⟨_, _, rfl⟩ := kernel_of_call hk0 hk
  exact ⟨_, runs, ⟨_, _, (State.kernel_onKernel_self ..).trans (congrArg _ there), rfl, rfl, rfl⟩, only_of_blank (by simp [State.noteLength])⟩

theorem exit_too_long_faults (hlong : r.outWindow < (regX run.regs 10).toNat) :
    exec (.exit h run) s = .next (u.kernelFails h k 8 0 run.regs.pc 0) := by
  subst hu
  simp only [exec, execExit, hk0, hr, hf, hk, exitLength_eq_none hlong]

end

section
variable {s : State} {h used : Nat} {lost : Option Nat} {k : Kernel} {bs : List Byte} (hgo : computing s = true) (hh : h < 64)
  (hk : (s.hart h).kernel = some k) (hphase : k.phase = .writeback bs used)
include hgo hh hk hphase

theorem kernelWritebackDone_hands_on (hkept : outputLost s h bs.length lost = none) :
    exec (.kernelWritebackDone h lost) s =
      .next (((s.addCnt (rHrtCount 0) 1).endKernel h).emit k.task { bytes := bs, sealed := none } false) := by
  simp [exec, execKernelWritebackDone, hgo, hh, hk, hphase, hkept]

theorem kernelWritebackDone_faults {a : Nat} (hlost : outputLost s h bs.length lost = some a) :
    exec (.kernelWritebackDone h lost) s = .next (s.kernelFails h k 10 0 k.regs.pc (BitVec.ofNat 64 a)) := by
  simp [exec, execKernelWritebackDone, hgo, hh, hk, hphase, hlost]

end

/-! ## The cause of an access (R123, R134) -/

section
variable {m : Module} {r : KernelRec} {addr : Nat}

theorem accessCause_fetch_outside (len : Nat) (hout : windowAt m r addr ≠ some .code) : accessCause m r .fetch addr len = some 3 := by
  unfold accessCause
  cases hw : windowAt m r addr with
  | none => rfl
  | some w =>
    cases w
    case code => exact absurd hw hout
    all_goals rfl

theorem accessCause_data_outside {kind : AccessKind} (hkind : kind ≠ .fetch) (len : Nat) (hnone : windowAt m r addr = none) :
    accessCause m r kind addr len = some 1 := by
  unfold accessCause
  rw [hnone]
  cases kind
  case fetch => exact absurd rfl hkind
  all_goals rfl

/-- A load or a store in a window must end in it, and a store needs one that is writable (R123). -/
theorem accessCause_data_inside {kind : AccessKind} (hkind : kind ≠ .fetch) (len : Nat) {w : Window} (hw : windowAt m r addr = some w) :
    accessCause m r kind addr len =
      if w.base + w.size m r < addr + len then some 1 else if kind = .load ∨ w.writable then none else some 2 := by
  unfold accessCause
  rw [hw]
  cases kind
  case fetch => exact absurd rfl hkind
  all_goals rfl

end

/-- Settles O7: a lemma for EXIT, for the end of its write-back, for the payload's length and its bytes, and for the cause of an access. -/
theorem kernelExits : Obligations.KernelExits := by
  unfold Obligations.KernelExits
  refine ⟨fun s u h p run k0 k r f hk0 hr hf hu hk hp => exit_writes_back hk0 hr hf hu hk hp,
    fun s u h run k0 k r f hk0 hr hf hu hk hlong => exit_too_long_faults hk0 hr hf hu hk hlong, ?done, exitLength_bounds, ?payload, ?cause⟩
  case done =>
    exact fun s h used lost k bs hgo hh hk hphase =>
      ⟨kernelWritebackDone_hands_on hgo hh hk hphase, fun a => kernelWritebackDone_faults hgo hh hk hphase, s.kernel_endKernel_self h⟩
  case payload => exact fun k n => ⟨by simp [outputBytes], fun a => outputBytes_unwritten k n⟩
  case cause =>
    intro m r addr len
    refine ⟨accessCause_fetch_outside len, fun hnone => ?_, fun w hw => ?_⟩
    · exact ⟨accessCause_data_outside (by decide) len hnone, accessCause_data_outside (by decide) len hnone⟩
    · rw [accessCause_data_inside (kind := .load) (by decide) len hw, accessCause_data_inside (kind := .store) (by decide) len hw]
      refine ⟨fun hpast => ?_, fun hin => ?_⟩
      · rw [if_pos hpast, if_pos hpast]
        exact ⟨rfl, rfl⟩
      · rw [if_neg (Nat.not_lt.mpr hin), if_neg (Nat.not_lt.mpr hin)]
        simp

/-! ## The fault log and the end of a failed kernel (R134, R154, R155) -/

theorem State.bumpGen_hrt (s : State) (page : Nat) : (s.bumpGen page).hrt = s.hrt :=
  only_of_blank (s.bumpGen_blank (ps := [.health]) page (by simp)) .hrt (by decide)

/-- The entry stands in the log at NEXT (R155). -/
theorem State.logFault_entry (s : State) (h cause m kern a : Nat) (b : List Byte) (code : W32) (pc addr : W64) (k : Kernel) (f : Flow)
    (hf : s.flow k.task.flow = some f) (hst : s.taskStage k.task = some (.program m kern a b))
    (_hnext : s.regFld rHrtFaultHead 5 0 < 64) :
    (s.logFault h k cause code pc addr).hrt.faults.find (s.regFld rHrtFaultHead 5 0) = some
      { trailId := trailId k.task.flow f, stage := k.task.stage, cause := cause, fn := f.owner, chunk := k.task.chunk, module := m,
        kernel := kern, hart := h, code := code, pc := pc, addr := addr, runUs := usedTicks s k / tUs } := by
  unfold State.logFault
  simp only [hf, hst, State.bumpGen_hrt]
  exact Tbl.find_set_self _ _ _

/-- A fault that is logged leaves every hart alone. -/
theorem State.hart_logFault (s : State) (h j : Nat) (k : Kernel) (cause : Nat) (code : W32) (pc addr : W64) :
    (s.logFault h k cause code pc addr).hart j = s.hart j := by
  unfold State.logFault
  split
  · rw [State.hart_of_hrt (State.bumpGen_hrt _ _)]; rfl
  · rfl

theorem kernelFault_fails (s : State) (h c : Nat) (run : KernelRun) (trap : KernelTrap) (code : W32) (addr : W64) (k : Kernel)
    (hk : runningKernel s h = some k) (htrap : trapCause s k trap = some (c, code, addr)) :
    exec (.kernelFault h run trap) s = .next ((s.kernelRuns h run).kernelFails h k c code run.regs.pc addr) := by
  simp only [exec, execKernelFault, hk, htrap]

theorem trapCause_ecall_unknown (s : State) (k : Kernel) {n : W64} (hn : 4 < n.toNat) : trapCause s k (.ecall n) = some (6, 0, 0) :=
  if_neg (Nat.not_le.mpr hn)

theorem State.kernelFails_programFault (s : State) (h : Nat) {c : Nat} (k : Kernel) (code : W32) (pc addr : W64) (hc : c ≠ 10) :
    s.kernelFails h k c code pc addr =
      (((s.logFault h k c code pc addr).endKernel h).addCnt (rHrtCount 2) 1).failTask k.task stProgramFault := if_neg hc

theorem fail_fails (s : State) (h : Nat) (run : KernelRun) (k : Kernel) (hk : runningKernel s h = some k) :
    exec (.fail h run) s = .next ((s.callMade h k).kernelFails h k 7 ((regX run.regs 10).setWidth 32) run.regs.pc 0) := by
  simp only [exec, execFail, hk]

/-! ## The budget and the reset of a hart (R133, R136, R523) -/

theorem State.recordEsc_hrt (s : State) (level : Nat) (i : Island) (unit cause : Nat) : (s.recordEsc level i unit cause).hrt = s.hrt :=
  only_of_blank (s.recordEsc_blank (ps := [.regs, .sys, .host, .health]) level i unit cause (by simp)) .hrt (by decide)

theorem State.addCnt_hrt (s : State) (off n : Nat) : (s.addCnt off n).hrt = s.hrt := rfl

theorem State.faults_onKernel (s : State) (h : Nat) (g : Kernel → Kernel) : (s.onKernel h g).hrt.faults = s.hrt.faults := rfl

/-- A kernel that its budget stops: the hart has yet to stop it. -/
def Kernel.stopping (k : Kernel) : Kernel := { k with phase := .stopping, search := none }

/-- What a budget that is used up does before the task fails: the log, the counts, and the kernel that is to stop (R133, R134). -/
def State.budgetEnds (s : State) (h : Nat) (k : Kernel) (pc : W64) : State :=
  (((s.logFault h k 9 0 pc 0).addCnt (rHrtCount 1) 1).recordEsc 0 .compute h 1).onKernel h Kernel.stopping

theorem State.budgetEnds_kernel {s : State} {h : Nat} {x : Kernel} (hx : (s.hart h).kernel = some x) (k : Kernel) (pc : W64) :
    ((s.budgetEnds h k pc).hart h).kernel = some x.stopping := by
  have logged : (((s.logFault h k 9 0 pc 0).addCnt (rHrtCount 1) 1).hart h).kernel = some x :=
    (congrArg Hart.kernel (s.hart_logFault h h k 9 0 pc 0)).trans hx
  rw [State.budgetEnds, State.kernel_onKernel_self, State.hart_of_hrt (State.recordEsc_hrt _ _ _ _ _), logged, Option.map_some]

theorem State.budgetEnds_faults (s : State) (h : Nat) (k : Kernel) (pc : W64) :
    (s.budgetEnds h k pc).hrt.faults = (s.logFault h k 9 0 pc 0).hrt.faults := by
  have escalated := State.recordEsc_hrt ((s.logFault h k 9 0 pc 0).addCnt (rHrtCount 1) 1) 0 .compute h 1
  rw [State.budgetEnds, State.faults_onKernel, escalated, State.addCnt_hrt]

theorem budgetExpiry_fails (s : State) (h : Nat) (run : KernelRun) (k : Kernel) (hgo : computing s = true) (hh : h < 64)
    (hk : (s.hart h).kernel = some k) (hphase : k.phase = .run) :
    ∃ u : State, exec (.budgetExpiry h run) s = .next (u.failFlow k.task.flow k.task.chunk k.task.stage stProgramBudget) ∧
      (∃ x, (u.hart h).kernel = some x ∧ x.phase = .stopping ∧ x.search = none ∧ x.task = k.task) ∧
      u.hrt.faults = ((s.kernelRuns h run).logFault h k 9 0 run.regs.pc 0).hrt.faults := by
  have runs : exec (.budgetExpiry h run) s = .next (((s.kernelRuns h run).budgetEnds h k run.regs.pc).failFlow
      k.task.flow k.task.chunk k.task.stage stProgramBudget) := by
    simp only [exec, execBudgetExpiry, hgo, hh, hk, hphase, and_self, if_true]
    rfl
  obtain ⟨_, _, ran⟩ := State.kernelRuns_kernel hk run
  exact ⟨_, runs, ⟨_, State.budgetEnds_kernel ran k run.regs.pc, rfl, rfl, rfl⟩, State.budgetEnds_faults _ _ _ _⟩

theorem hartStopTimeout_resets (s : State) (h : Nat) (k : Kernel) (hgo : computing s = true) (hh : h < 64)
    (hk : (s.hart h).kernel = some k) (hphase : k.phase = .stopping) :
    exec (.hartStopTimeout h) s = .next ((s.kernelStops h k).l1Hart h 2) := by
  simp [exec, execHartStopTimeout, hgo, hh, hk, hphase]

/-- A hart with fewer than three resets in the last second is reset alone (R133, R523). -/
theorem State.l1Hart_resets (s : State) (h : Nat) (hfew : resetsWithin s 1 .compute h tSec < 3) : ((s.l1Hart h 2).hart h).resetting = true := by
  rw [State.l1Hart, if_neg (Nat.not_le.mpr hfew)]
  simp [State.hart, Tbl.getD]

/-! ## What a task that fails leaves alone -/

theorem sys_foldl {α : Type} (g : State → α → State) (h : ∀ s x, (g s x).sys = s.sys) (l : List α) (s : State) :
    (l.foldl g s).sys = s.sys := by
  induction l generalizing s with
  | nil => rfl
  | cons x l ih => rw [List.foldl_cons, ih, h]

theorem freeTask_sys (s : State) (t : Task) : (freeTask s t).sys = s.sys := by
  unfold freeTask
  cases t.buf <;> cases t.out <;> rfl

theorem freeTasks_sys (s : State) (ts : List Task) : (freeTasks s ts).sys = s.sys := sys_foldl freeTask freeTask_sys ts s

theorem State.poolUpdate_sys (s : State) : s.poolUpdate.sys = s.sys :=
  only_of_blank (s.poolUpdate_blank (ps := [.regs, .disp]) (by simp)) .sys (by decide)

theorem State.withdraw_sys (s : State) (p : ReadClient → Bool) : (s.withdraw p).sys = s.sys := by
  have wake (u : State) : u.wakeAll.sys = u.sys :=
    only_of_blank (ps := [.media, .str]) (blank_foldl _ State.lunNext_blank_media_str _ _) .sys (by decide)
  rw [State.withdraw, wake]
  rfl

theorem State.discardFlow_sys (s : State) (flow : Nat) : (s.discardFlow flow).sys = s.sys := by
  simp [State.discardFlow, State.poolUpdate_sys, State.onFlow, freeTasks_sys]

theorem State.failFlow_sys (s : State) (flow chunk stage : Nat) (st : Status) : (s.failFlow flow chunk stage st).sys = s.sys := by
  unfold State.failFlow State.stopSource
  extract_lets s1 mine s2
  rw [State.discardFlow_sys, State.withdraw_sys, State.onDisp_sys]
  refine (freeTasks_sys _ _).trans ?_
  rw [State.onFlow, State.onDisp_sys]
  simp only [s1]
  split
  · exact State.addLife_only s _ 1 .sys (by decide)
  · rfl

theorem State.endKernel_sys (s : State) (h : Nat) : (s.endKernel h).sys = s.sys := rfl

/-- A kernel that a reset stops leaves the system state alone: what is down, the resets so far, the time. -/
theorem State.abortKernel_sys (s : State) (h : Nat) (st : Status) : (s.abortKernel h st).sys = s.sys := by
  unfold State.abortKernel
  split
  · dsimp only
    split
    · rw [State.discardFlow_sys, freeTask_sys, State.endKernel_sys]
    · rw [State.failTask, State.failFlow_sys, freeTask_sys, State.endKernel_sys]
  · rfl

/-- The state in which COMPUTE is reset because a hart's reset did not complete: every kernel has been stopped. -/
def State.hartsAborted (s : State) (h : Nat) : State :=
  let s1 := s.onSys fun y => { y with recovering := y.recovering.filter fun r => r ≠ ⟨1, .compute, h⟩ }
  (s1.hrt.harts.map (·.1)).foldl (fun t h => t.abortKernel h stBusError) s1

theorem State.hartsAborted_sys (s : State) (h : Nat) :
    (s.hartsAborted h).sys = { s.sys with recovering := s.sys.recovering.filter fun r => r ≠ ⟨1, .compute, h⟩ } :=
  sys_foldl _ (fun t j => t.abortKernel_sys j stBusError) _ _

theorem resetsWithin_hartsAborted (s : State) (h level : Nat) (i : Island) (unit window : Nat) :
    resetsWithin (s.hartsAborted h) level i unit window = resetsWithin s level i unit window := by
  rw [resetsWithin, State.now, State.hartsAborted_sys]
  rfl

theorem hartResetTimeout_downs (s : State) (h : Nat) (hgo : computing s = true) (hh : h < 64) (hreset : (s.hart h).resetting = true)
    (hrun : s.sys.phase = .running) (hfew : resetsWithin s 2 .compute 0xFF (60 * tSec) < 2) (hup : .compute ∉ s.sys.down) :
    Completes (.hartResetTimeout h) s fun t => .compute ∈ t.sys.down := by
  have runs : exec (.hartResetTimeout h) s = .next ((s.hartsAborted h).l2Reset .compute h 5) := by
    simp only [exec, execHartResetTimeout, hgo, hh, hreset]
    rfl
  have sys := s.hartsAborted_sys h
  refine ⟨_, runs, State.l2Reset_downs _ .compute h 5 ?_ (by decide) (by decide) (by decide) ?_ ?_⟩
  · simp [State.running, sys, hrun]
  · rw [sys]; exact hup
  · rwa [resetsWithin_hartsAborted]

/-- Settles O8: a lemma for the fault log, for each way in which a kernel fails, for its budget, and for the resets of a hart. -/
theorem kernelFailures : Obligations.KernelFailures := by
  unfold Obligations.KernelFailures
  exact ⟨State.logFault_entry, kernelFault_fails, fun s k w n a => ⟨rfl, rfl, trapCause_ecall_unknown s k, rfl⟩,
    fun s h c k code pc addr => ⟨s.kernelFails_programFault h k code pc addr, rfl⟩, fail_fails, budgetExpiry_fails, hartStopTimeout_resets,
    State.l1Hart_resets, hartResetTimeout_downs⟩

/-! ## Calls that return at once (R128, R129) -/

theorem State.kernelRuns_regs (s : State) (h : Nat) (run : KernelRun) : (s.kernelRuns h run).regs = s.regs :=
  only_of_blank (s.kernelRuns_blank (ps := [.hrt]) h run (by simp)) .regs (by decide)

theorem State.cnt_callReturns (s : State) (h : Nat) (a0 a1 : Option W64) (off : Nat) : (s.callReturns h a0 a1).cnt off = s.cnt off := rfl

/-- A call that its kernel has not waited in is counted (R151). -/
theorem State.cnt_callMade (s : State) (h : Nat) {k : Kernel} (hk : k.calling = false) :
    (s.callMade h k).cnt (rHrtCount 3) = (s.cnt (rHrtCount 3) + 1) % 2 ^ 64 := by
  rw [State.callMade, hk]
  exact s.cnt_addCnt_self (rHrtCount 3) 1

theorem budgetLeft_returns (s : State) (h : Nat) (run : KernelRun) (k : Kernel) (hk : runningKernel s h = some k)
    (hcalling : k.calling = false) :
    Completes (.budgetLeft h run) s fun t =>
      (∃ x, (t.hart h).kernel = some x ∧ x.task = k.task ∧ x.phase = .run ∧ x.search = none ∧ x.calling = false ∧
        regX x.regs 10 = BitVec.ofNat 64 ((k.budget * tUs - usedTicks s k) / tUs) ∧ ∀ i, i ≠ 10 → regX x.regs i = regX run.regs i) ∧
      t.cnt (rHrtCount 3) = (s.cnt (rHrtCount 3) + 1) % 2 ^ 64 ∧ OnlyChanges [.regs, .hrt] s t := by
  have runs : exec (.budgetLeft h run) s = .next (((s.kernelRuns h run).callMade h k).callReturns h
      (some (BitVec.ofNat 64 ((k.budget * tUs - usedTicks s k) / tUs))) none) := by
    simp only [exec, execBudgetLeft, hk]
  obtain ⟨_, _, _, phase, _⟩ := runningKernel_spec hk
  obtain ⟨_, _, called⟩ := runningKernel_calls hk run
  refine ⟨_, runs, ⟨_, State.callReturns_kernel called _ none, rfl, phase, rfl, rfl, regX_results_a0 _ _,
    fun _ hi => regX_results_other _ _ hi⟩, ?_, only_of_blank (by simp)⟩
  rw [State.cnt_callReturns, State.cnt_callMade _ h hcalling, State.cnt_of_regs (State.kernelRuns_regs s h run)]

section
variable {s u : State} {h us : Nat} {run : KernelRun} {k0 k : Kernel} {m : Module} {r : KernelRec} {f : Flow}
  (hk0 : runningKernel s h = some k0) (hprog : s.taskProgram k0.task = some (m, r, us)) (hf : s.flow k0.task.flow = some f)
  (hu : (s.kernelRuns h run).callMade h k0 = u) (hk : (u.hart h).kernel = some k)
include hk0 hprog hf hu hk

theorem lynxSearch_waits {table : Nat} {key : List Byte}
    (hask : searchAsk u k f m r (regX run.regs 10).toNat (regX run.regs 11).toNat (regX run.regs 12).toNat = .ok (table, key)) :
    Completes (.lynxSearch h run) s fun t =>
      (t.hart h).kernel = some { k with search := some (table, key) } ∧ OnlyChanges [.regs, .hrt] s t := by
  subst hu
  have runs : exec (.lynxSearch h run) s = .next (((s.kernelRuns h run).callMade h k0).onKernel h fun k =>
      { k with search := some (table, key) }) := by
    simp only [exec, execLynxSearch, hk0, hprog, hf, hk, hask]
  exact ⟨_, runs, (State.kernel_onKernel_self ..).trans (congrArg _ hk), only_of_blank (by simp)⟩

theorem lynxSearch_refuses {e : W64}
    (hask : searchAsk u k f m r (regX run.regs 10).toNat (regX run.regs 11).toNat (regX run.regs 12).toNat = .error e) :
    Completes (.lynxSearch h run) s fun t =>
      (∃ x, (t.hart h).kernel = some x ∧ regX x.regs 10 = e ∧ x.search = none ∧ x.calling = false) ∧ OnlyChanges [.regs, .hrt] s t := by
  subst hu
  have runs : exec (.lynxSearch h run) s = .next (((s.kernelRuns h run).callMade h k0).callReturns h (some e) none) := by
    simp only [exec, execLynxSearch, hk0, hprog, hf, hk, hask]
  exact ⟨_, runs, ⟨_, State.callReturns_kernel hk _ none, regX_results_a0 _ _, rfl, rfl⟩, only_of_blank (by simp)⟩

end

section
variable (s : State) (k : Kernel) (f : Flow) (m : Module) {r : KernelRec} (table addr : Nat) {len : Nat}

theorem searchAsk_denied (hr : r.mayLynx = false) : searchAsk s k f m r table addr len = .error (BitVec.ofInt 64 (-3)) := by
  simp [searchAsk, hr, errDenied]

theorem searchAsk_bad_length (hr : r.mayLynx = true) (h8 : len ≠ 8) (h16 : len ≠ 16) (h32 : len ≠ 32) :
    searchAsk s k f m r table addr len = .error (BitVec.ofInt 64 (-1)) := by
  simp [searchAsk, hr, h8, h16, h32, errInvalid]

theorem searchAsk_ok {key : List Byte} {x : LynxTable} (hr : r.mayLynx = true) (hlen : len = 8 ∨ len = 16 ∨ len = 32)
    (hkey : kernelRead s m r k addr len = some key) (hx : tableOf s f.owner table = some x) (hwidth : x.keyLen = len) :
    searchAsk s k f m r table addr len = .ok (table, key) := by
  have taken : ¬(len ≠ 8 ∧ len ≠ 16 ∧ len ≠ 32) := by omega
  rw [searchAsk, hr, if_neg (by decide), if_neg taken]
  simp only [hkey, hx, hwidth, ne_eq, not_true, if_false]

end

/-! ## The return of a search (R357, R363, R364) -/

theorem State.searchCall_hrt (s : State) (table copy : Nat) (soft : List SoftEntry) (key : List Byte) :
    (s.searchCall table copy soft key).1.hrt = s.hrt :=
  only_of_blank (s.searchCall_blank (ps := [.regs, .lynx, .health]) table copy soft key (by simp)) .hrt (by decide)

/-- A search whose copy shows no soft error comes to what the table's search comes to (R364). -/
theorem State.searchCall_word (s : State) (table c : Nat) (key : List Byte) (x : LynxTable) (hx : s.lynxTable table = some x) :
    (s.searchCall table c [] key).2 = (x.search c (lynxVerifies s x) key).word := by
  have unchanged : s.lynxSoft table c [] = s := rfl
  simp only [State.searchCall, unchanged, hx]
  rfl

section
variable {s u : State} {h table c : Nat} {key : List Byte} {seen : UnitSeen} {k : Kernel} {x : LynxTable} {a : Option Nat}
  (hgo : computing s = true) (hh : h < 64) (hroom : queueFillOf s .lynx 0 < queueRoom .lynx) (hloaded : s.lynx.restoring = false)
  (hk : (s.hart h).kernel = some k) (hphase : k.phase = .run) (hsearch : k.search = some (table, key)) (hx : s.lynxTable table = some x)
  (hsound : x.faulted = false) (hseen : ∀ st, seen ≠ .error st)
  (hcopy : freeCopy s table x.copies (fun t => (s.taskStage t).any Stage.isInsert) = some c)
  (hcall : s.searchCall table c (softOf seen) key = (u, a))
include hgo hh hroom hloaded hk hphase hsearch hx hsound hseen hcopy hcall

theorem exec_lynxSearchReturn :
    exec (.lynxSearchReturn h seen) s = .next (match a with
      | some w => u.callReturns h (some (BitVec.ofNat 64 w)) none
      | none => u.searchFails h k stSearchParity) := by
  cases seen
  case error st => exact absurd rfl (hseen st)
  all_goals
    cases a <;> simp [exec, execLynxSearchReturn, hgo, hh, hroom, hloaded, hk, hphase, hsearch, hx, hsound, hcopy, hcall]

theorem lynxSearchReturn_returns {w : Nat} (hw : a = some w) :
    Completes (.lynxSearchReturn h seen) s fun t =>
      ∃ y, (t.hart h).kernel = some y ∧ y.search = none ∧ y.calling = false ∧ y.task = k.task ∧ regX y.regs 10 = BitVec.ofNat 64 w := by
  have runs := exec_lynxSearchReturn hgo hh hroom hloaded hk hphase hsearch hx hsound hseen hcopy hcall
  subst hw
  have there : (u.hart h).kernel = some k := by
    have same := s.searchCall_hrt table c (softOf seen) key
    rw [hcall] at same
    rw [State.hart_of_hrt same, hk]
  exact ⟨_, runs, _, State.callReturns_kernel there _ none, rfl, rfl, rfl, regX_results_a0 _ _⟩

end

/-! ## A Trail that a kernel submits (R128, R130) -/

theorem State.openContexts_disp (s : State) (i : Nat) (t : Trail) : (s.openContexts i t).disp = s.disp :=
  only_of_blank (s.openContexts_blank (ps := [.dgs]) i t (by simp)) .disp (by decide)

theorem State.nonceTake_disp (s : State) (slot chunks : Nat) : (s.nonceTake slot chunks).disp = s.disp :=
  only_of_blank (s.nonceTake_blank (ps := [.media, .sea]) slot chunks (by simp)) .disp (by decide)

theorem State.wrapUse_disp (s : State) (slot : Nat) : (s.wrapUse slot).disp = s.disp := State.keyUse_disp _ _ _

/-- The free context holds the Trail, under the identifier that is answered (R44, R45). -/
theorem State.bindTrail_flow {s : State} {i : Nat} (hi : freeFlow s = some i) (f : Fn) (c : Checked) (execBy : Option Who) :
    ∃ y, (s.bindTrail f c execBy).1.flow i = some y ∧ y.bound = true ∧ y.owner = f ∧ y.trail = c.trail ∧
      (s.bindTrail f c execBy).2 = trailId i y := by
  generalize hbind : s.bindTrail f c execBy = bound
  unfold State.bindTrail at hbind
  split at hbind
  next hnone => cases hi.symm.trans hnone
  next j hj =>
    obtain rfl := Option.some.inj (hj.symm.trans hi)
    extract_lets gen x s1 s2 s3 at hbind
    subst hbind
    have opened : s1.disp = { s.disp with flows := s.disp.flows.set j x } := State.openContexts_disp _ _ _
    have reserved : s2.disp = s1.disp := by
      simp only [s2]
      split
      · exact State.nonceTake_disp _ _ _
      · rfl
    have unwrapped : s3.disp = s2.disp := by
      simp only [s3]
      split
      · exact State.wrapUse_disp _ _
      · rfl
    have disp : (s3.addCnt (rTrlCount 0) 1).disp = { s.disp with flows := s.disp.flows.set j x } :=
      unwrapped.trans (reserved.trans opened)
    refine ⟨x, ?_, rfl, rfl, rfl, rfl⟩
    rw [State.flow, disp]
    exact Tbl.find_set_self _ _ _

/-- A binding changes its context, the digest contexts, its nonces with the write of their log, and the counts (R59, R287, R293). -/
theorem State.bindTrail_blank_narrow {ps : List Part} (s : State) (f : Fn) (c : Checked) (execBy : Option Who)
    (hc : [Part.regs, .media, .sea, .dgs, .disp] ⊆ ps) : (s.bindTrail f c execBy).1.blank ps = s.blank ps := by
  simp only [List.cons_subset] at hc
  unfold State.bindTrail
  split
  · rfl
  · extract_lets gen x s1 s2 s3
    have reserved : s2.blank ps = s1.blank ps := by
      simp only [s2]
      split <;> simp [*]
    have unwrapped : s3.blank ps = s2.blank ps := by
      simp only [s3]
      split
      · exact State.keyUse_blank_regs_sea _ _ _ (by simp [*])
      · rfl
    simp [s1, *]

theorem freeFlow_of_disp {s t : State} (h : t.disp = s.disp) : freeFlow t = freeFlow s := by
  simp only [freeFlow, h]

section
variable {s u : State} {h us i : Nat} {run : KernelRun} {hv : HostView} {k0 k : Kernel} {m : Module} {r : KernelRec} {f : Flow} {tr : Trail}
  {c : Checked} (hk0 : runningKernel s h = some k0) (hprog : s.taskProgram k0.task = some (m, r, us)) (hf : s.flow k0.task.flow = some f)
  (hmay : r.maySubmit = true) (hu : (s.kernelRuns h run).callMade h k0 = u) (hk : (u.hart h).kernel = some k)
  (hscratch : inScratch r (regX run.regs 10).toNat (regX run.regs 11).toNat = true)
  (hdesc : checkDescriptor u f.owner true (regX run.regs 11).toNat
    ((List.range (regX run.regs 11).toNat).map fun i => kernelByte u m k ((regX run.regs 10).toNat + i)) = .ok tr)
  (hcheck : checkTrail u f.owner hv tr = .ok c) (hcontext : contextWait u f.owner = false) (hhmac : hmacWait u c.trail = false)
  (hnonce : nonceWait u c.trail = false)
include hk0 hprog hf hmay hu hk hscratch hdesc hcheck hcontext hhmac hnonce

theorem exec_kernelTrailSubmit :
    exec (.kernelTrailSubmit h run hv) s =
      .next ((u.bindTrail f.owner c none).1.callReturns h (some ((u.bindTrail f.owner c none).2.setWidth 64)) none) := by
  subst hu
  simp only [exec, execKernelTrailSubmit, hk0, hprog, hf, hk, hmay, hscratch, hdesc, hcheck, hcontext, hhmac, hnonce]
  rfl

theorem kernelTrailSubmit_binds (hi : freeFlow s = some i) :
    Completes (.kernelTrailSubmit h run hv) s fun t =>
      ∃ (x : Kernel) (y : Flow), t.flow i = some y ∧ y.bound = true ∧ y.owner = f.owner ∧ y.trail = c.trail ∧
        (t.hart h).kernel = some x ∧ regX x.regs 10 = (trailId i y).setWidth 64 ∧ regX x.regs 11 = regX run.regs 11 ∧
        OnlyChanges [.regs, .media, .sea, .dgs, .disp, .hrt] s t := by
  have runs := exec_kernelTrailSubmit hk0 hprog hf hmay hu hk hscratch hdesc hcheck hcontext hhmac hnonce
  have called : OnlyChanges [.regs, .hrt] s u := hu ▸ only_of_blank (by simp)
  have free : freeFlow u = some i := (freeFlow_of_disp (called .disp (by decide))).trans hi
  obtain ⟨y, bound, isBound, owner, trail, id⟩ := State.bindTrail_flow free f.owner c none
  have there : ((u.bindTrail f.owner c none).1.hart h).kernel = some k := by
    rw [State.hart_of_hrt (only_of_blank (u.bindTrail_blank_narrow f.owner c none (List.Subset.refl _)) .hrt (by decide)), hk]
  rw [id] at runs
  refine ⟨_, runs, _, y, bound, isBound, owner, trail, State.callReturns_kernel there _ none, regX_results_a0 _ _, ?_, ?_⟩
  · obtain ⟨_, _, ran⟩ := kernel_of_call hk0 (hu ▸ hk)
    rw [regX_results_other _ _ (by decide), ran]
    rfl
  · subst hu
    exact only_of_blank (by simp [State.bindTrail_blank_narrow])

end

/-- Settles O9: a lemma for each call that returns, for what a search asks and comes to, and for a Trail that a kernel submits. -/
theorem monitorCallsReturn : Obligations.MonitorCallsReturn := by
  unfold Obligations.MonitorCallsReturn
  refine ⟨budgetLeft_returns, fun s u h us run k0 k m r f table key hk0 hprog hf hu hk hask => lynxSearch_waits hk0 hprog hf hu hk hask,
    fun s u h us run k0 k m r f e hk0 hprog hf hu hk hask => lynxSearch_refuses hk0 hprog hf hu hk hask, ?asks, ?searches,
    State.searchCall_word, ?submits⟩
  case asks =>
    exact fun s k f m r table addr len => ⟨searchAsk_denied s k f m table addr, searchAsk_bad_length s k f m table addr,
      fun key x => searchAsk_ok s k f m table addr⟩
  case searches =>
    intro s u h table c key seen k x a hgo hh hroom hloaded hk hphase hsearch hx hsound hseen hcopy hcall
    refine ⟨fun w hw => lynxSearchReturn_returns hgo hh hroom hloaded hk hphase hsearch hx hsound hseen hcopy hcall hw, ?_⟩
    rintro rfl
    exact exec_lynxSearchReturn hgo hh hroom hloaded hk hphase hsearch hx hsound hseen hcopy hcall
  case submits =>
    intro s u h us i run hv k0 k m r f tr c hk0 hprog hf hmay hu hk hscratch hdesc hcheck hcontext hhmac hnonce hi
    exact kernelTrailSubmit_binds hk0 hprog hf hmay hu hk hscratch hdesc hcheck hcontext hhmac hnonce hi

end Sys2Proof.Machine
end

section
/-! PROOFS. The statements on the flash channels (O11) and on senses and decodes (O12), with what an update of a channel or of a LUN
does. -/

open Sys2Proof Sys2Proof.Machine

namespace Sys2Proof.Machine

/-! ## Channels and LUNs -/

@[simp] theorem State.channel_onChannel_self (s : State) (c : Nat) (g : Channel → Channel) : (s.onChannel c g).channel c = g (s.channel c) := by
  simp [State.channel, State.onChannel]

theorem State.channel_onChannel_other (s : State) {c d : Nat} (g : Channel → Channel) (hd : d ≠ c) :
    (s.onChannel c g).channel d = s.channel d := by
  simp [State.channel, State.onChannel, hd]

theorem State.onChannel_only (s : State) (c : Nat) (g : Channel → Channel) : OnlyChanges [.media] s (s.onChannel c g) :=
  only_of_blank (s.onChannel_blank c g (by simp))

@[simp] theorem State.lun_setLun_self (s : State) (l : Nat) (x : Lun) : (s.setLun l x).lun l = x := by
  simp [State.lun, State.setLun]

@[simp] theorem State.lun_onLun_self (s : State) (l : Nat) (g : Lun → Lun) : (s.onLun l g).lun l = g (s.lun l) := by
  simp [State.onLun]

theorem State.setLun_only (s : State) (l : Nat) (x : Lun) : OnlyChanges [.media] s (s.setLun l x) :=
  only_of_blank (s.setLun_blank l x (by simp))

theorem State.onLun_only (s : State) (l : Nat) (g : Lun → Lun) : OnlyChanges [.media] s (s.onLun l g) := s.setLun_only l _

/-! ## Training (R161, R163) -/

/-- A channel that has trained at a rate (R161). -/
def Channel.trainedAt (r : Nat) (x : Channel) : Channel :=
  { x with online := true, trained := true, rate := r, trying := none, trainedTemp := x.temp }

/-- A channel whose retraining has passed (R163). -/
def Channel.retrained (x : Channel) : Channel :=
  { x with retraining := false, trainedTemp := x.temp, retrains := Nat.min 255 (x.retrains + 1) }

section
variable {s : State} {c r : Nat} (hup : s.up (mediaIsland (c / 8)) = true)
include hup

theorem channelTrainDone_passes (htry : (s.channel c).trying = some r) (hfirst : (s.channel c).retraining = false) :
    ∃ u : State, exec (.channelTrainDone c true) s = .next ((u.wakeLuns c).mediaReady) ∧
      u.channel c = (s.channel c).trainedAt r ∧ OnlyChanges [.media] s u := by
  refine ⟨s.onChannel c fun x => { x with
    online := true, trained := true, rate := r, trying := none, trainedTemp := x.temp, retraining := false,
    retrains := if x.retraining then satAdd 0xFF x.retrains 1 else x.retrains }, ?_, ?_, s.onChannel_only c _⟩
  · simp [exec, execChannelTrainDone, htry, hup]
  · simp [Channel.trainedAt, hfirst]

theorem channelTrainDone_fails_to_lower_rate (htry : (s.channel c).trying = some (r + 2)) :
    Completes (.channelTrainDone c false) s fun t =>
      t.channel c = { s.channel c with trying := some (r + 1) } ∧ OnlyChanges [.media] s t :=
  ⟨s.onChannel c fun x => { x with trying := some (r + 1) }, by simp [exec, execChannelTrainDone, htry, hup],
    s.channel_onChannel_self c _, s.onChannel_only c _⟩

theorem channelTrainDone_fails_at_lowest_rate (htry : (s.channel c).trying = some 1) :
    exec (.channelTrainDone c false) s = .next ((s.channelOffline c).mediaReady) := by
  simp [exec, execChannelTrainDone, htry, hup]

theorem channelRetrainDone_passes (hre : (s.channel c).retraining = true) (htry : (s.channel c).trying = none) :
    ∃ u : State, exec (.channelRetrainDone c true) s = .next (u.wakeLuns c) ∧ u.channel c = (s.channel c).retrained ∧
      (∀ d, d ≠ c → u.channel d = s.channel d) ∧ OnlyChanges [.media] s u :=
  ⟨s.onChannel c Channel.retrained, by simp [exec, execChannelRetrainDone, hre, htry, hup]; rfl, s.channel_onChannel_self c _,
    fun _ hd => s.channel_onChannel_other _ hd, s.onChannel_only c _⟩

end

/-! ## Temperatures and bands (R163, R172) -/

theorem bandOfTemp_le (t : Int) : bandOfTemp t ≤ 15 := by
  unfold bandOfTemp clampInt
  split
  · decide
  · split <;> omega

theorem bandOfTemp_bounds {t : Int} (hlo : -40 ≤ t) (hhi : t < 120) :
    10 * (bandOfTemp t : Int) - 40 ≤ t ∧ t < 10 * (bandOfTemp t : Int) - 30 := by
  have inside : (bandOfTemp t : Int) = (t + 40) / 10 := by
    unfold bandOfTemp clampInt
    rw [if_neg (by omega), if_neg (by omega)]
    omega
  omega

/-- Within 2 °C of its bounds a band stays; past them it is the band of the reading (R172). -/
theorem nextBand_some (b : Nat) (t : Int) :
    nextBand (some b) t = if t ≤ 10 * (b : Int) - 42 ∨ 10 * (b : Int) - 28 ≤ t then bandOfTemp t else b := by
  unfold nextBand
  refine if_congr ?_ rfl rfl
  omega

theorem nextBand_le {old : Option Nat} (t : Int) (h : ∀ b, old = some b → b ≤ 15) : nextBand old t ≤ 15 := by
  cases old with
  | none => exact bandOfTemp_le t
  | some b =>
    rw [nextBand_some]
    split
    · exact bandOfTemp_le t
    · exact h b rfl

theorem Tbl.find_foldl_set_of_lt {α : Type} (v : Nat → α) (k : Nat) {n i : Nat} (hi : i < n) (t : Tbl α) :
    ((List.range n).foldl (fun b i => b.set (k + i) (v i)) t).find (k + i) = some (v i) := by
  induction n with
  | zero => cases hi
  | succ n ih =>
    rw [List.range_succ, List.foldl_append, List.foldl_cons, List.foldl_nil]
    by_cases h : i = n
    · subst h; exact Tbl.find_set_self _ _ _
    · rw [Tbl.find_set_other _ _ (by omega)]
      exact ih (by omega)

/-- The bands of a channel's targets after a poll (R172). -/
def Media.polled (c : Nat) (t0 : Int) (temps : List Int) (m : Media) : Media :=
  { m with bands := (List.range temps.length).foldl (fun b i =>
      b.set (c * 8 + i) (nextBand (m.bands.find (c * 8 + i)) (temps.getD i t0))) m.bands }

/-- The bands after a poll, and the generation of their page where one has moved (R172). -/
def State.polled (s : State) (c : Nat) (t0 : Int) (temps : List Int) : State :=
  let u := s.onMedia (Media.polled c t0 temps)
  if u.media.bands = s.media.bands then u else u.bumpGen 0xC6

/-- A channel after a poll whose hottest target is so hot (R163). -/
def Channel.polled (hot : Int) (x : Channel) : Channel :=
  { x with temp := some hot, trainedTemp := some (x.trainedTemp.getD hot),
           retraining := x.retraining || decide (20 ≤ (hot - x.trainedTemp.getD hot).natAbs) }

theorem State.bumpGen_media (s : State) (page : Nat) : (s.bumpGen page).media = s.media :=
  only_of_blank (s.bumpGen_blank (ps := [.health]) page (by simp)) .media (by decide)

theorem State.polled_media (s : State) (c : Nat) (t0 : Int) (temps : List Int) : (s.polled c t0 temps).media = s.media.polled c t0 temps := by
  unfold State.polled
  extract_lets u
  split
  · rfl
  · exact u.bumpGen_media 0xC6

theorem State.polled_blank {ps : List Part} (s : State) (c : Nat) (t0 : Int) (temps : List Int) (hc : [Part.media, .health] ⊆ ps) :
    (s.polled c t0 temps).blank ps = s.blank ps := by
  simp only [List.cons_subset] at hc
  unfold State.polled
  extract_lets u
  split <;> simp [u, hc]

theorem targetTempPoll_records (s : State) (c : Nat) (t0 : Int) (rest : List Int) (hon : (s.channel c).online = true)
    (hup : s.up (mediaIsland (c / 8)) = true) (hfew : rest.length < 8) :
    Completes (.targetTempPoll c (t0 :: rest)) s fun t =>
      (t.channel c).temp = some (maxInt t0 rest) ∧
      (∀ i x, (t0 :: rest)[i]? = some x → t.media.bands.find (c * 8 + i) = some (nextBand (s.media.bands.find (c * 8 + i)) x)) ∧
      OnlyChanges [.media, .health] s t := by
  have few : ¬ 8 < rest.length + 1 := by omega
  refine ⟨(s.polled c t0 (t0 :: rest)).onChannel c (Channel.polled (maxInt t0 rest)), ?_, by simp [Channel.polled], ?_,
    only_of_blank (by simp [State.polled_blank])⟩
  · simp only [exec, execTargetTempPoll, hon, hup, List.length_cons, few]
    rfl
  · intro i x hx
    have hi : i < (t0 :: rest).length := (List.getElem?_eq_some_iff.mp hx).1
    have hget : (t0 :: rest).getD i t0 = x := by rw [List.getD_eq_getElem?_getD, hx]; rfl
    show (s.polled c t0 (t0 :: rest)).media.bands.find (c * 8 + i) = _
    rw [State.polled_media, ← hget]
    exact Tbl.find_foldl_set_of_lt _ _ hi _

/-! ## Suspend and age (R164, R167) -/

/-- A LUN whose running commands have suspended for reads (R167). -/
def Lun.suspends (x : Lun) : Lun := { x with suspended := x.active, active := [], readsBegun := 0, budgetOver := false }

theorem suspendDone_suspends (s : State) (l : Nat) (hrun : s.running = true) (hserves : lunServes s l = true)
    (hactive : (s.lun l).active ≠ []) (hwrites : (s.lun l).active.any MediaCmd.isRead = false) (hnone : (s.lun l).suspended = [])
    (hdue : readDue (s.lun l) = true) (hran : ranEnough s l = true) (hon : s.regBit (rMedCtl (lunIsland l)) 16 = true) :
    exec (.suspendDone l) s = .next ((s.setLun l (s.lun l).suspends).lunNext l) := by
  simp only [exec, execSuspendDone]
  rw [if_pos (by simp [*])]
  rfl

theorem ageFirst_append (cls : Nat) (before after : List MediaCmd) (c : MediaCmd) (hc : c.cls = cls) (hyoung : c.aged = false)
    (hbefore : ∀ x ∈ before, x.cls ≠ cls) : ageFirst cls (before ++ c :: after) = before ++ { c with aged := true } :: after := by
  induction before with
  | nil => simp [ageFirst, hc, hyoung]
  | cons x before ih =>
    rw [List.forall_mem_cons] at hbefore
    simp [ageFirst, hbefore.1, ih hbefore.2]

/-- Settles O11: a lemma for the end of a training and of a retraining, for the poll, for the bands, and for suspends and age. -/
theorem mediaChannels : Obligations.MediaChannels := by
  unfold Obligations.MediaChannels
  refine ⟨fun s c r htry hup hfirst => channelTrainDone_passes hup htry hfirst,
    fun s c r htry hup => channelTrainDone_fails_to_lower_rate hup htry,
    fun s c htry hup => channelTrainDone_fails_at_lowest_rate hup htry,
    fun s c hre htry hup => channelRetrainDone_passes hup hre htry, targetTempPoll_records, fun old t => nextBand_le t,
    fun t => bandOfTemp_bounds, ?stays, ?moves, ?suspends, ?budget, ?ages⟩
  case stays => exact fun b t hlo hhi => (nextBand_some b t).trans (if_neg (by omega))
  case moves => exact fun b t hpast => (nextBand_some b t).trans (if_pos hpast)
  case suspends =>
    rintro s l _ hrun hserves rfl hactive hwrites hnone hdue hran hon
    exact ⟨_, suspendDone_suspends s l hrun hserves hactive hwrites hnone hdue hran hon, s.setLun_only l _, s.lun_setLun_self l _⟩
  case budget =>
    intro s l hsusp
    exact ⟨s.onLun l fun x => { x with budgetOver := true }, by simp [exec, execSuspendBudgetExpiry, hsusp], s.onLun_only l _,
      s.lun_onLun_self l _⟩
  case ages =>
    intro s l c before after hqueue hcls hyoung hbefore
    refine ⟨_, rfl, s.onLun_only l _, ?_⟩
    rw [State.lun_onLun_self, hqueue]
    exact ageFirst_append 4 before after c hcls hyoung hbefore

/-! ## Senses (R168) -/

theorem State.lun_of_media {s t : State} (h : t.media = s.media) (l : Nat) : t.lun l = s.lun l := by
  simp [State.lun, h]

theorem State.addLife_media (s : State) (key n : Nat) : (s.addLife key n).media = s.media := State.addLife_only s key n .media (by decide)

@[simp] theorem State.lun_addLife (s : State) (key n l : Nat) : (s.addLife key n).lun l = s.lun l :=
  State.lun_of_media (s.addLife_media key n) l

@[simp] theorem State.lun_addCnt (s : State) (off n l : Nat) : (s.addCnt off n).lun l = s.lun l := rfl

@[simp] theorem State.cnt_onLun (s : State) (l : Nat) (g : Lun → Lun) (off : Nat) : (s.onLun l g).cnt off = s.cnt off := rfl

/-- A read that somebody waits for goes to the decoders (R168). -/
theorem Lun.sensed_of_waits (s : State) (x : Lun) (c : MediaCmd) {cl : ReadClient} {cws : List CwState} (hc : c.op = .read cl cws)
    (hwaits : clientWaits s cl = true) : x.sensed s c = { x with decoding := x.decoding ++ [c] } := by
  simp [Lun.sensed, hc, hwaits]

theorem senseDone_hands_on (s : State) (l : Nat) (c : MediaCmd) (hactive : (s.lun l).active = [c]) (hread : c.isRead = true) :
    ∃ u : State, exec (.senseDone l) s = .next ((u.sense l c.block).lunNext l) ∧ OnlyChanges [.media] s u ∧
      u.lun l = Lun.sensed s { s.lun l with active := [] } c :=
  ⟨s.setLun l (Lun.sensed s { s.lun l with active := [] } c), by simp [exec, execSenseDone, hactive, hread], s.setLun_only l _,
    s.lun_setLun_self l _⟩

/-! ## The decode ladder (R169, R170) -/

section
variable {w : CwState} {n : Nat}

theorem CwState.next_of_retries_left (hstep : w.step ≤ 2) (hleft : w.tried < n) :
    w.next n = some { w with step := 2, tried := w.tried + 1, senses := 1 } := by
  simp [CwState.next, hstep, hleft]

theorem CwState.next_of_retries_spent (hstep : w.step ≤ 2) (hspent : n ≤ w.tried) :
    w.next n = some { w with step := 3, tried := 0, senses := 2 } := by
  simp [CwState.next, hstep, Nat.not_lt.mpr hspent]

theorem CwState.next_of_step_three (hstep : w.step = 3) : w.next n = some { w with step := 4, tried := 0, senses := 4 } := by
  simp [CwState.next, hstep]

theorem CwState.next_of_last_step (hstep : 4 ≤ w.step) : w.next n = none := by
  simp only [CwState.next]
  rw [if_neg (by omega), if_neg (by omega), if_neg (by omega)]

end

/-- A decode that ends at step 1 is counted at that step (R170). -/
theorem State.cnt_countDecode_first (s : State) (l n : Nat) :
    (s.countDecode l 1 n).cnt (rMedLadder (lunIsland l) 0) = (s.cnt (rMedLadder (lunIsland l) 0) + 1) % 2 ^ 64 := by
  simp [State.countDecode]

theorem State.cwDecoded_first (s : State) (l : Nat) (c : MediaCmd) (cl : ReadClient) (w : CwState) (n : Nat) (hstep : w.step = 1) :
    s.cwDecoded l c cl w n =
      ((((s.countDecode l 1 n).onLun l fun x => { x with erasedPages := [] }).setCw l c w none).cwDelivered cl l c.block w.cw) := by
  simp [State.cwDecoded, hstep]

section
variable {s : State} {l cw : Nat} {c : MediaCmd} {cl : ReadClient} {w : CwState} (hat : ladderAt (s.lun l) cw true = some (c, cl, w))
  (hcarries : channelCarries s (l / 64) = true)
include hat hcarries

theorem codewordDecodeDone_delivers {n : Nat} (hn : iterationsOk w.step n = true) (hstep : w.step = 1) :
    ∃ u : State, exec (.codewordDecodeDone l cw (.decoded n)) s = .next ((u.setCw l c w none).cwDelivered cl l c.block w.cw) ∧
      u.cnt (rMedLadder (lunIsland l) 0) = (s.cnt (rMedLadder (lunIsland l) 0) + 1) % 2 ^ 64 ∧ (u.lun l).erasedPages = [] := by
  refine ⟨(s.countDecode l 1 n).onLun l fun x => { x with erasedPages := [] }, ?_, ?_, ?_⟩
  · simp [exec, execCodewordDecodeDone, hat, hcarries, hn, State.cwDecoded_first s l c cl w n hstep]
  · rw [State.cnt_onLun, State.cnt_countDecode_first]
  · rw [State.lun_onLun_self]

theorem codewordDecodeDone_fails : exec (.codewordDecodeDone l cw .failed) s = .next (s.cwFailed l c cl w) := by
  simp [exec, execCodewordDecodeDone, hat, hcarries]

theorem codewordDecodeDone_goes_on {v : CwState} (hnext : w.next (retryList s w.hint).length = some v) :
    exec (.codewordDecodeDone l cw .failed) s = .next (s.setCw l c w (some v)) := by
  rw [codewordDecodeDone_fails hat hcarries, State.cwFailed, hnext]

theorem codewordDecodeDone_erases (hnext : w.next (retryList s w.hint).length = none) :
    exec (.codewordDecodeDone l cw .failed) s = .next (s.cwErased l c cl w) := by
  rw [codewordDecodeDone_fails hat hcarries, State.cwFailed, hnext]

end

/-! ## Erasures (R170, R241) -/

theorem mem_addOnce {α : Type} [DecidableEq α] (xs : List α) (x : α) : x ∈ addOnce xs x := by
  unfold addOnce
  split
  · assumption
  · simp

/-- The counts of a codeword that ends as an erasure, and its page among those of the LUN (R170, R241). -/
def State.noteErasure (s : State) (l : Nat) (c : MediaCmd) : State :=
  (((s.addCnt (rMedLadder (lunIsland l) 4) 1).addLife (lifeC3 (0x620 + 8 * 64)) 1).addLife (lifeErr 1 true) 1).onLun l fun x =>
    { x with erasedPages := addOnce x.erasedPages (c.block, c.page) }

theorem State.cwErased_erases (s : State) (l : Nat) (c : MediaCmd) (cl : ReadClient) (w : CwState) : ∃ u v : State,
    v = (u.setCw l c w none).erase cl l c.block c.page [w.cw] ∧
    (s.cwErased l c cl w = if 16 ≤ (v.lun l).erasedPages.length then v.failLun l 3 else v) ∧
    (c.block, c.page) ∈ (u.lun l).erasedPages ∧
    u.cnt (rMedLadder (lunIsland l) 4) = (s.cnt (rMedLadder (lunIsland l) 4) + 1) % 2 ^ 64 := by
  refine ⟨s.noteErasure l c, _, rfl, rfl, ?_, by simp [State.noteErasure]⟩
  rw [State.noteErasure, State.lun_onLun_self]
  exact mem_addOnce _ _

/-- A LUN without a command of its queue, whose place the backlog fills (R164). -/
def Lun.without (c : MediaCmd) (x : Lun) : Lun := { x with queue := x.queue.erase c }.refill

theorem firstSenseDeadlineExpiry_reads_through_redundancy (s : State) (l : Nat) (c : MediaCmd) (cl : ReadClient) (cws : List CwState)
    (hc : ((s.lun l).queue.find? fun c => c.direct && wholeStripe s l c) = some c) (hop : c.op = .read cl cws) :
    ∃ u v : State, exec (.firstSenseDeadlineExpiry l) s = .next (v.erase cl l c.block c.page (cws.map (·.cw))) ∧
      v.cnt (rMedLadder (lunIsland l) 5) = ((u.lunNext l).cnt (rMedLadder (lunIsland l) 5) + 1) % 2 ^ 64 ∧
      u.lun l = { s.lun l with queue := (s.lun l).queue.erase c }.refill ∧ OnlyChanges [.media] s u := by
  refine ⟨s.onLun l (Lun.without c), (((s.onLun l (Lun.without c)).lunNext l).addCnt (rMedLadder (lunIsland l) 5) 1).addLife (lifeErr 17 false) 1,
    ?_, by simp, s.lun_onLun_self l _, s.onLun_only l _⟩
  simp only [exec, execFirstSenseDeadlineExpiry, hc, hop]
  rfl

/-- Settles O12: a lemma for the senses, for each way in which a decode ends, for the ladder's steps, and for what erases a codeword. -/
theorem sensesAndDecodes : Obligations.SensesAndDecodes := by
  unfold Obligations.SensesAndDecodes
  refine ⟨senseDone_hands_on, ?sensed, fun s l cw n c cl w hat hcarries hn hstep => codewordDecodeDone_delivers hat hcarries hn hstep, ?next,
    fun s l cw c cl w v hat hcarries hnext => codewordDecodeDone_goes_on hat hcarries hnext,
    fun s l cw c cl w hat hcarries hnext => codewordDecodeDone_erases hat hcarries hnext, ?deadline, State.cwErased_erases,
    firstSenseDeadlineExpiry_reads_through_redundancy⟩
  case sensed =>
    intro s x c cl cws hop hwaits
    rw [Lun.sensed_of_waits s x c hop hwaits]
    exact ⟨rfl, rfl, rfl⟩
  case next =>
    exact fun w n => ⟨CwState.next_of_retries_left, CwState.next_of_retries_spent, CwState.next_of_step_three, CwState.next_of_last_step⟩
  case deadline =>
    intro s l cw c cl w hat
    simp [exec, execLadderDeadlineExpiry, hat]

end Sys2Proof.Machine
end

section
/-! PROOFS. The statements on the ledger (O49) and on the lifetime records and the configuration area (O54), with what each of the
once-per-second counts leaves alone. -/

open Sys2Proof Sys2Proof.Machine

namespace Sys2Proof.Machine

/-! ## Ledger appends (R515, R516, R519) -/

@[simp] theorem State.areaWrite_boot (s : State) (area : Nat) : (s.areaWrite area).boot = s.boot := rfl

@[simp] theorem State.sysBegin_boot (s : State) (w : SysWrite) : (s.sysBegin w).boot = s.boot := State.sysBegin_only s w .boot (by decide)

theorem State.sysBegin_sys (s : State) (w : SysWrite) : (s.sysBegin w).sys = s.sys := State.sysBegin_only s w .sys (by decide)

/-- While the G9 runs, what an append lets go on leaves the ledger and the appends that wait alone (R516). -/
theorem State.afterAppend_boot (s : State) (a : Append) (hrun : s.running = true) : (s.afterAppend a).boot = s.boot := by
  have notBooting : s.sys.phase ≠ .booting := by simp [show s.sys.phase = .running by simpa [State.running] using hrun]
  unfold State.afterAppend
  split
  case h_1 => simp [notBooting]
  case h_2 => exact only_of_blank (ps := [.host, .health]) (by simp) .boot (by decide)
  case h_3 => exact only_of_blank (State.moduleUsable_blank _ _ (List.Subset.refl _)) .boot (by decide)
  case h_4 => exact only_of_blank (State.enrolled_blank _ _ (List.Subset.refl _)) .boot (by decide)
  case h_5 => exact only_of_blank (ps := [.host, .media, .sea, .health]) (by simp) .boot (by decide)

theorem lastN_append_singleton {α : Type} {n : Nat} {xs : List α} (x : α) (h : xs.length < n) : lastN n (xs ++ [x]) = xs ++ [x] := by
  rw [lastN, List.length_append, List.length_singleton, Nat.sub_eq_zero_of_le h, List.drop_zero]

/-- The ledger with the oldest append's record (R515). -/
def State.appended (s : State) (a : Append) (rest : List Append) : State :=
  (s.areaWrite areaLedger).onBoot fun b =>
    { b with appends := rest, appendFail := false, nextSeq := b.nextSeq + 1, ledger := lastN 65536 (b.ledger ++ [recordOf s a]) }

theorem State.appended_boot {s : State} (a : Append) (rest : List Append) (hroom : s.boot.ledger.length < 65536) :
    (s.appended a rest).boot = { s.boot with
      appends := rest, appendFail := false, nextSeq := s.boot.nextSeq + 1, ledger := s.boot.ledger ++ [recordOf s a] } := by
  simp [State.appended, lastN_append_singleton _ hroom]

section
variable {s : State} {a : Append} {rest : List Append} (hrun : s.running = true) (happ : s.boot.appends = a :: rest)
  (hgo : sysWaits s .ledger = false)
include hrun happ hgo

theorem ledgerAppendDone_appends (hroom : s.boot.ledger.length < 65536) :
    Completes (.ledgerAppendDone true) s fun t =>
      t.boot = { s.boot with
        appends := rest, appendFail := false, nextSeq := s.boot.nextSeq + 1, ledger := s.boot.ledger ++ [recordOf s a] } := by
  have running : s.sys.phase = .running := by simpa [State.running] using hrun
  let u := if rest.isEmpty then s.appended a rest else (s.appended a rest).sysBegin .ledger
  have queued : u.boot = (s.appended a rest).boot ∧ u.sys = s.sys := by
    simp only [u]
    split
    · exact ⟨rfl, rfl⟩
    · exact ⟨State.sysBegin_boot _ _, State.sysBegin_sys _ _⟩
  obtain ⟨boot, sys⟩ := queued
  have runs : exec (.ledgerAppendDone true) s = .next (u.afterAppend a) := by
    simp only [exec, execLedgerAppendDone, happ, running, hgo]
    rfl
  have still : u.running = true := by rw [State.running, sys]; exact hrun
  exact ⟨_, runs, (State.afterAppend_boot u a still).trans (boot.trans (State.appended_boot a rest hroom))⟩

theorem ledgerAppendDone_fails :
    Completes (.ledgerAppendDone false) s fun t => t.boot = { s.boot with appendFail := true } ∧ OnlyChanges [.boot, .media] s t := by
  have running : s.sys.phase = .running := by simpa [State.running] using hrun
  refine ⟨(s.onBoot fun b => { b with appendFail := true }).sysBegin .ledger, ?_, State.sysBegin_boot _ _, only_of_blank (by simp)⟩
  simp [exec, execLedgerAppendDone, happ, running, hgo]

end

theorem ledgerAppendDone_waits (s : State) (ok : Bool) (hwaits : sysWaits s .ledger = true) :
    exec (.ledgerAppendDone ok) s = .next s := by
  simp only [exec, execLedgerAppendDone, hwaits]
  cases s.boot.appends <;> simp

/-- A record names the digest of the record before it, and but for a boot record carries on its chain (R515, R519). -/
theorem recordOf_chained (s : State) (a : Append) {p : LedgerRec} (hp : s.boot.ledger.getLast? = some p) :
    (recordOf s a).prev = sha384 p.bytes ∧ (a.kind ≠ 0 → (recordOf s a).chain = chainAfter p.chain (recordOf s a).comps) := by
  refine ⟨by simp [recordOf, hp], fun hkind => by simp [recordOf, hp, hkind]⟩

/-- A boot record begins a chain (R519). -/
theorem recordOf_boot_chain (s : State) {a : Append} (hkind : a.kind = 0) :
    (recordOf s a).chain = chainAfter (zeros 48) (recordOf s a).comps := by
  simp [recordOf, hkind]

/-- Settles O49: what an append that completes adds, that one which fails waits, and that a stopped one is not made. -/
theorem ledgerAppends : Obligations.LedgerAppends := by
  unfold Obligations.LedgerAppends
  refine ⟨?appends, fun s a rest hrun happ hgo => ledgerAppendDone_fails hrun happ hgo, ledgerAppendDone_waits⟩
  intro s a rest hrun happ hroom hgo
  obtain ⟨t, runs, boot⟩ := ledgerAppendDone_appends hrun happ hgo hroom
  refine ⟨t, runs, recordOf s a, ?_⟩
  rw [boot]
  exact ⟨rfl, rfl, rfl, fun _ _ => rfl, rfl, rfl, fun p => recordOf_chained s a, recordOf_boot_chain s⟩

/-! ## Lifetime counts (R560, R565) -/

/-- The lifetime records without their counts and without the generations of their pages. -/
def Health.uncounted (h : Health) : Health := { h with life := [], gens := [] }

theorem State.bumpGen_life (s : State) (page key : Nat) : (s.bumpGen page).life key = s.life key := by
  unfold State.bumpGen
  split <;> rfl

theorem State.bumpGen_uncounted (s : State) (page : Nat) : (s.bumpGen page).health.uncounted = s.health.uncounted := by
  unfold State.bumpGen
  split <;> rfl

@[simp] theorem State.addLife_uncounted (s : State) (key n : Nat) : (s.addLife key n).health.uncounted = s.health.uncounted :=
  State.bumpGen_uncounted _ _

@[simp] theorem State.setLife_uncounted (s : State) (key v : Nat) : (s.setLife key v).health.uncounted = s.health.uncounted :=
  State.bumpGen_uncounted _ _

theorem State.life_addLife_self (s : State) (key n : Nat) : (s.addLife key n).life key = satAdd (2 ^ 64 - 1) (s.life key) n := by
  rw [State.addLife, State.bumpGen_life]
  exact Tbl.getD_put_self 0 _ _ _

theorem State.life_addLife_other (s : State) {key k : Nat} (n : Nat) (h : k ≠ key) : (s.addLife key n).life k = s.life k := by
  rw [State.addLife, State.bumpGen_life]
  exact Tbl.getD_put_other 0 _ _ h

theorem State.life_setLife_other (s : State) {key k : Nat} (v : Nat) (h : k ≠ key) : (s.setLife key v).life k = s.life k := by
  rw [State.setLife, State.bumpGen_life]
  exact Tbl.getD_put_other 0 _ _ h

/-- The 176 bytes of a sensor's block of the temperature history (R560). -/
def tempBlock (i : Nat) : Nat := lifeC2 (32 + 176 * i)

/-- The count of a bin in a sensor's block (R560). -/
def tempCount (i : Nat) (t : Int) : Nat := tempBlock i + 8 + 4 * tempBin t

theorem tempBin_le (t : Int) : tempBin t ≤ 39 := by
  unfold tempBin clampInt
  split
  · decide
  · split <;> omega

/-- A second of a block counts in its bin; the block's extremes and its hot seconds lie elsewhere. -/
theorem State.life_tempSecond (s : State) (i : Nat) (t : Int) {k : Nat} (hhigh : k ≠ tempBlock i) (hlow : k ≠ tempBlock i + 2)
    (hhot : k ≠ tempBlock i + 0xA8) (hhotter : k ≠ tempBlock i + 0xAC) :
    (s.tempSecond i t).life k = (s.addLife (tempCount i t) 1).life k := by
  have kept {c : Prop} [Decidable c] {u v : State} (h : u.life k = v.life k) : (if c then u else v).life k = v.life k := by
    split
    · exact h
    · rfl
  unfold State.tempSecond
  extract_lets base s1 s2 low s3 s4
  calc (if 600 < t then s4.addLife (base + 0xAC) 1 else s4).life k = s4.life k := kept (State.life_addLife_other _ _ hhotter)
    _ = s3.life k := kept (State.life_addLife_other _ _ hhot)
    _ = s2.life k := kept (State.life_setLife_other _ _ hlow)
    _ = s1.life k := kept (State.life_setLife_other _ _ hhigh)

/-- A second of a block leaves the counts of every other block alone. -/
theorem State.life_tempSecond_other (s : State) (i : Nat) (t : Int) {k : Nat} (hk : k < tempBlock i ∨ tempBlock i + 176 ≤ k) :
    (s.tempSecond i t).life k = s.life k := by
  have bin := tempBin_le t
  rw [State.life_tempSecond s i t (by omega) (by omega) (by omega) (by omega)]
  exact State.life_addLife_other s 1 (by unfold tempCount; omega)

theorem State.life_tempSecond_self (s : State) (i : Nat) (t : Int) :
    (s.tempSecond i t).life (tempCount i t) = satAdd (2 ^ 64 - 1) (s.life (tempCount i t)) 1 := by
  have bin := tempBin_le t
  rw [State.life_tempSecond s i t (by unfold tempCount; omega) (by unfold tempCount; omega) (by unfold tempCount; omega)
    (by unfold tempCount; omega)]
  exact State.life_addLife_self s _ 1

theorem tempCount_outside {i j : Nat} (t : Int) (h : i ≠ j) : tempCount i t < tempBlock j ∨ tempBlock j + 176 ≤ tempCount i t := by
  have bin := tempBin_le t
  simp only [tempCount, tempBlock, lifeC2]
  omega

/-- A second of each of the first `n` blocks adds one to a count of the block it belongs to (R560). -/
theorem State.life_foldl_tempSecond (s : State) (v : Nat → Int) (i n : Nat) :
    ((List.range n).foldl (fun t i => t.tempSecond i (v i)) s).life (tempCount i (v i)) =
      if i < n then satAdd (2 ^ 64 - 1) (s.life (tempCount i (v i))) 1 else s.life (tempCount i (v i)) := by
  induction n with
  | zero => rfl
  | succ n ih =>
    rw [List.range_succ, List.foldl_append, List.foldl_cons, List.foldl_nil]
    by_cases h : i = n
    · subst h
      rw [State.life_tempSecond_self, ih, if_neg (Nat.lt_irrefl i), if_pos (Nat.lt_succ_self i)]
    · rw [State.life_tempSecond_other _ _ _ (tempCount_outside _ h), ih]
      exact if_congr (by omega) rfl rfl

@[simp] theorem State.tempSecond_uncounted (s : State) (i : Nat) (t : Int) :
    (s.tempSecond i t).health.uncounted = s.health.uncounted := by
  unfold State.tempSecond
  extract_lets base s1 s2 low s3 s4
  simp [apply_ite State.health, apply_ite Health.uncounted, s4, s3, s2, s1]

theorem uncounted_foldl {α : Type} (g : State → α → State) (h : ∀ s x, (g s x).health.uncounted = s.health.uncounted) (l : List α)
    (s : State) : (l.foldl g s).health.uncounted = s.health.uncounted := by
  induction l generalizing s with
  | nil => rfl
  | cons x l ih => rw [List.foldl_cons, ih, h]

theorem life_foldl {α : Type} (k : Nat) (g : State → α → State) (h : ∀ s x, (g s x).life k = s.life k) (l : List α) (s : State) :
    (l.foldl g s).life k = s.life k := by
  induction l generalizing s with
  | nil => rfl
  | cons x l ih => rw [List.foldl_cons, ih, h]

/-- Every controller with an I/O command outstanding is busy in this minute (R557). -/
def State.markBusy (s : State) : State :=
  s.host.ctrls.foldl (fun t e => if e.2.fetched.any fun x => x.sq ≠ 0 then t.setLife (lifeSmart e.1 6) 1 else t) s

theorem State.markBusy_uncounted (s : State) : s.markBusy.health.uncounted = s.health.uncounted :=
  uncounted_foldl _ (fun t e => by split <;> simp) _ _

theorem State.busySecond_uncounted (s : State) : s.busySecond.health.uncounted = s.health.uncounted := by
  unfold State.busySecond
  extract_lets s1
  have marked : s1.health.uncounted = s.health.uncounted := s.markBusy_uncounted
  split
  · rw [uncounted_foldl _ (fun t e => by simp) _ _, marked]
  · exact marked

theorem ne_lifeSmart {k : Nat} (hk : k < 0x100000) (f : Fn) (i : Nat) : k ≠ lifeSmart f i := by
  unfold lifeSmart
  omega

theorem State.life_markBusy (s : State) {k : Nat} (hk : k < 0x100000) : s.markBusy.life k = s.life k := by
  refine life_foldl k _ (fun t e => ?_) _ _
  split
  · exact State.life_setLife_other _ _ (ne_lifeSmart hk _ _)
  · rfl

/-- The busy minutes of the controllers are none of the counts of the temperature history (R557). -/
theorem State.life_busySecond (s : State) {k : Nat} (hk : k < 0x100000) : s.busySecond.life k = s.life k := by
  unfold State.busySecond
  extract_lets s1
  have marked : s1.life k = s.life k := s.life_markBusy hk
  split
  · refine (life_foldl k _ (fun t e => ?_) _ _).trans marked
    exact (State.life_setLife_other _ _ (ne_lifeSmart hk _ _)).trans (State.life_addLife_other _ _ (ne_lifeSmart hk _ _))
  · exact marked

/-- A second of every reading's block (R560). -/
def State.sensorSeconds (s : State) : State :=
  (List.range s.power.readings.length).foldl (fun t i => t.tempSecond i (s.power.readings.getD i 0)) s

/-- A second of the device, which counts as one of operation while its rails are good, and towards the next lifetime write. -/
def State.deviceSecond (s : State) (good : Bool) : State :=
  (if good then s.addLife (lifeDev 3) 1 else s).onHealth fun h => { h with sinceWrite := Nat.min 0xFFFF (h.sinceWrite + 1) }

/-- A second of the hottest reading, with the device's hot seconds. -/
def State.hottestSecond (s : State) (t : Int) : State :=
  let a := s.tempSecond 16 t
  let b := if 500 ≤ t then a.addLife (lifeDev 4) 1 else a
  if 600 ≤ t then b.addLife (lifeDev 5) 1 else b

/-- The once-per-second tick up to the controllers' busy minutes. -/
def State.secondPasses (s : State) : State :=
  let s2 := s.sensorSeconds.deviceSecond s.power.railsBad.isEmpty
  let s3 := match hottest s with | some t => s2.hottestSecond t | none => s2
  if s.running then s3.addLife (lifeC3 (0x9F0 + 8 * modeCode s.power.effective)) 1 else s3

theorem exec_tempHistoryTick {s : State} (hon : s.sys.phase ≠ .off) (hup : s.power.resetN = true) :
    exec .tempHistoryTick s = .next s.secondPasses.busySecond := by
  simp only [exec, execTempHistoryTick]
  rw [if_neg (by simp [hon, hup])]
  rfl

theorem State.sensorSeconds_uncounted (s : State) : s.sensorSeconds.health.uncounted = s.health.uncounted :=
  uncounted_foldl _ (fun t i => t.tempSecond_uncounted i _) _ s

theorem State.life_sensorSeconds (s : State) {i : Nat} {x : Int} (hx : s.power.readings[i]? = some x) :
    s.sensorSeconds.life (tempCount i x) = satAdd (2 ^ 64 - 1) (s.life (tempCount i x)) 1 := by
  have hi : i < s.power.readings.length := (List.getElem?_eq_some_iff.mp hx).1
  have hget : s.power.readings.getD i 0 = x := by rw [List.getD_eq_getElem?_getD, hx]; rfl
  have counted := s.life_foldl_tempSecond (fun i => s.power.readings.getD i 0) i s.power.readings.length
  rw [if_pos hi, hget] at counted
  exact counted

theorem State.deviceSecond_uncounted (s : State) (good : Bool) :
    (s.deviceSecond good).health.uncounted =
      { s.health.uncounted with sinceWrite := Nat.min 0xFFFF (s.health.uncounted.sinceWrite + 1) } := by
  cases good
  · rfl
  · rw [← s.addLife_uncounted (lifeDev 3) 1]
    rfl

theorem State.life_deviceSecond (s : State) (good : Bool) {k : Nat} (hk : k < 0x30000) : (s.deviceSecond good).life k = s.life k := by
  cases good
  · rfl
  · exact State.life_addLife_other s 1 (by unfold lifeDev; omega)

theorem State.hottestSecond_uncounted (s : State) (t : Int) : (s.hottestSecond t).health.uncounted = s.health.uncounted := by
  unfold State.hottestSecond
  extract_lets a b
  simp [apply_ite State.health, apply_ite Health.uncounted, a, b]

theorem State.life_hottestSecond (s : State) (t : Int) {k : Nat} (hk : k < tempBlock 16) : (s.hottestSecond t).life k = s.life k := by
  have device (i : Nat) : k ≠ lifeDev i := by unfold lifeDev; simp only [tempBlock, lifeC2] at hk; omega
  have block := s.life_tempSecond_other 16 t (.inl hk)
  unfold State.hottestSecond
  extract_lets a b
  have hot : b.life k = s.life k := by
    simp only [b]
    split
    · exact (State.life_addLife_other _ _ (device 4)).trans block
    · exact block
  split
  · exact (State.life_addLife_other _ _ (device 5)).trans hot
  · exact hot

theorem State.secondPasses_uncounted (s : State) :
    s.secondPasses.health.uncounted = { s.health.uncounted with sinceWrite := Nat.min 0xFFFF (s.health.sinceWrite + 1) } := by
  have device := s.sensorSeconds.deviceSecond_uncounted s.power.railsBad.isEmpty
  rw [s.sensorSeconds_uncounted] at device
  unfold State.secondPasses
  extract_lets s2 s3
  have hot : s3.health.uncounted = s2.health.uncounted := by
    simp only [s3]
    cases hottest s with
    | none => rfl
    | some t => exact s2.hottestSecond_uncounted t
  split
  · rw [State.addLife_uncounted, hot, device]; rfl
  · rw [hot, device]; rfl

theorem State.life_secondPasses (s : State) {i : Nat} {x : Int} (hi : i < 16) (hx : s.power.readings[i]? = some x) :
    s.secondPasses.life (tempCount i x) = satAdd (2 ^ 64 - 1) (s.life (tempCount i x)) 1 := by
  have bin := tempBin_le x
  have low : tempCount i x < tempBlock 16 := by simp only [tempCount, tempBlock, lifeC2]; omega
  have lowC3 : tempBlock 16 < 0x30000 := by decide
  have device := (s.sensorSeconds.life_deviceSecond s.power.railsBad.isEmpty (low.trans lowC3)).trans (s.life_sensorSeconds hx)
  unfold State.secondPasses
  extract_lets s2 s3
  have hot : s3.life (tempCount i x) = s2.life (tempCount i x) := by
    simp only [s3]
    cases hottest s with
    | none => rfl
    | some t => exact s2.life_hottestSecond t low
  split
  · rw [State.life_addLife_other _ _ (by unfold lifeC3; omega), hot, device]
  · rw [hot, device]

theorem State.secondPasses_blank {ps : List Part} (s : State) (hc : [Part.health] ⊆ ps) : s.secondPasses.blank ps = s.blank ps := by
  simp only [List.cons_subset] at hc
  unfold State.secondPasses State.hottestSecond
  cases hottest s <;> simp [State.deviceSecond, State.sensorSeconds, hc]

theorem tempHistoryTick_counts (s : State) (hon : s.sys.phase ≠ .off) (hup : s.power.resetN = true) :
    Completes .tempHistoryTick s fun t =>
      t.health.sinceWrite = Nat.min 0xFFFF (s.health.sinceWrite + 1) ∧ t.health.lifeSaved = s.health.lifeSaved ∧
      (∀ i x, i < s.power.readings.length → i < 16 → s.power.readings[i]? = some x →
        t.life (tempCount i x) = Nat.min (2 ^ 64 - 1) (s.life (tempCount i x) + 1)) ∧ OnlyChanges [.health] s t := by
  have runs := exec_tempHistoryTick hon hup
  have rest := s.secondPasses.busySecond_uncounted.trans s.secondPasses_uncounted
  refine ⟨_, runs, (congrArg Health.sinceWrite rest :), (congrArg Health.lifeSaved rest :), fun i x _ hi hx => ?_,
    only_of_blank (by simp [State.secondPasses_blank])⟩
  have low : tempCount i x < 0x100000 := by
    have bin := tempBin_le x
    simp only [tempCount, tempBlock, lifeC2]
    omega
  exact (State.life_busySecond _ low).trans (s.life_secondPasses hi hx)

/-! ## Lifetime writes (R565, R567, R568) -/

theorem State.beginLife_of_free {s : State} (hfree : s.health.writing = false) (hgo : s.power.writesStopped = false) :
    s.beginLife = s.onHealth fun h => { h with writing := true } := by
  simp [State.beginLife, State.onHealth, hfree, hgo]

theorem State.beginLife_of_busy {s : State} (hbusy : s.health.writing = true ∨ s.power.writesStopped = true) :
    s.beginLife = s.onHealth fun h => { h with flushAgain := true } := by
  obtain h | h := hbusy <;> simp [State.beginLife, State.onHealth, h]

/-- TLM_CTL holds no field but LOCK (R7). -/
theorem State.ctlWrite_tlmCtl_blank {ps : List Part} (s : State) (v : W32) (hc : [Part.regs] ⊆ ps) :
    (s.ctlWrite rTlmCtl v).blank ps = s.blank ps := by
  have noFields : s.writeFields rTlmCtl v = s := by
    have noRw : rwMask rTlmCtl = 0 := by decide
    have noRwl : rwlMask rTlmCtl = 0 := by decide
    simp [State.writeFields, noRw, noRwl]
  have noClr : clrBit rTlmCtl = none := by decide
  rw [State.ctlWrite, noFields, noClr]
  simp only [List.cons_subset] at hc
  simp [hc]

theorem flushLifetime_writes (s : State) (r : Requester) (v : W32) (hr : s.barReaches r rTlmCtl = true) (hv : bitAt v 0 = true)
    (hfree : s.health.writing = false) (hgo : s.power.writesStopped = false) :
    Completes (.flushLifetime r v) s fun t => t.health.writing = true ∧ OnlyChanges [.regs, .health] s t := by
  have ctl : OnlyChanges [.regs] s (s.ctlWrite rTlmCtl v) := only_of_blank (s.ctlWrite_tlmCtl_blank v (by simp))
  have health : (s.ctlWrite rTlmCtl v).health = s.health := ctl .health (by decide)
  have power : (s.ctlWrite rTlmCtl v).power = s.power := ctl .power (by decide)
  refine ⟨(s.ctlWrite rTlmCtl v).beginLife, by simp [exec, execFlushLifetime, hr, hv], ?_,
    only_of_blank ((State.beginLife_blank _ (by simp)).trans (s.ctlWrite_tlmCtl_blank v (by simp)))⟩
  rw [State.beginLife_of_free (health ▸ hfree) (power ▸ hgo)]
  rfl

theorem lifetimeWriteDone_saves (s : State) (hrun : s.running = true) (hwriting : s.health.writing = true)
    (hgo : s.power.writesStopped = false) :
    Completes .lifetimeWriteDone s fun t =>
      t.health.lifeSaved = s.health.life ∧ t.health.eventsSaved = s.health.events ∧ t.health.sinceWrite = 0 ∧
      t.health.writing = s.health.flushAgain ∧ t.health.flushAgain = false ∧ t.health.life = s.health.life ∧
      OnlyChanges [.media, .health] s t := by
  have runs : exec .lifetimeWriteDone s = .next ((s.areaWrite areaLifetime).onHealth fun h =>
      { h with lifeSaved := h.life, eventsSaved := h.events, writing := h.flushAgain, flushAgain := false, sinceWrite := 0,
               copy0Ok := true, copy1Ok := true }) := by
    simp [exec, execLifetimeWriteDone, hrun, hwriting, hgo]
  exact ⟨_, runs, rfl, rfl, rfl, rfl, rfl, rfl, only_of_blank (by simp)⟩

/-! ## Writes of the configuration area (R176) -/

/-- The oldest write of the configuration area has left the list, and the next one begins (R176). -/
def State.cfgWritten (s : State) (rest : List CfgWrite) : State :=
  let u := (s.areaWrite areaConfig).onHealth fun h => { h with cfg := rest }
  if rest.isEmpty then u else u.sysBegin .config

theorem State.cfgWritten_blank {ps : List Part} (s : State) (rest : List CfgWrite) (hc : [Part.media, .health] ⊆ ps) :
    (s.cfgWritten rest).blank ps = s.blank ps := by
  simp only [List.cons_subset] at hc
  simp [State.cfgWritten, hc]

theorem State.cfgWritten_health (s : State) (rest : List CfgWrite) : (s.cfgWritten rest).health = { s.health with cfg := rest } := by
  unfold State.cfgWritten
  extract_lets u
  split
  · rfl
  · exact u.sysBegin_only .config .health (by decide)

section
variable {s : State} {rest : List CfgWrite} (hrun : s.running = true) (hup : s.up .ctrl = true) (hgo : sysWaits s .config = false)
include hrun hup hgo

theorem configAreaWriteDone_keeps_register {off : Nat} {v : W32} (hcfg : s.health.cfg = .register off v :: rest) :
    Completes .configAreaWriteDone s fun t =>
      t.health.cfg = rest ∧ t.regs.durable.getD off (resetValue off) = v ∧ OnlyChanges [.regs, .media, .health] s t := by
  have runs : exec .configAreaWriteDone s = .next ((s.cfgWritten rest).onRegs fun r =>
      { r with durable := Tbl.put (resetValue off) r.durable off v }) := by
    simp only [exec, execConfigAreaWriteDone, hcfg, hrun, hup, hgo]
    rfl
  exact ⟨_, runs, congrArg Health.cfg (s.cfgWritten_health rest), Tbl.getD_put_self _ _ _ _, only_of_blank (by simp [State.cfgWritten_blank])⟩

theorem configAreaWriteDone_completes {w : Who} {st : Status} {dw0 : W32} (hcfg : s.health.cfg = .complete w st dw0 :: rest) :
    exec .configAreaWriteDone s = .next ((s.cfgWritten rest).admin w st dw0) := by
  simp only [exec, execConfigAreaWriteDone, hcfg, hrun, hup, hgo]
  rfl

end

/-- Settles O54: a lemma for the tick of the temperature history, for each command of a lifetime write, and for the configuration area. -/
theorem lifetimeRecords : Obligations.LifetimeRecords := by
  unfold Obligations.LifetimeRecords
  refine ⟨tempHistoryTick_counts, ?begins, ?waits, flushLifetime_writes, lifetimeWriteDone_saves,
    fun s off v rest hrun hup hgo hcfg => configAreaWriteDone_keeps_register hrun hup hgo hcfg, ?completes⟩
  case begins =>
    intro s hrun hfree hgo
    rw [← State.beginLife_of_free hfree hgo]
    simp [exec, execLifetimeWriteTimer, hrun]
  case waits =>
    intro s hrun hbusy
    rw [← State.beginLife_of_busy hbusy]
    simp [exec, execLifetimeWriteTimer, hrun]
  case completes =>
    exact fun s w st dw0 rest hrun hup hgo hcfg => ⟨_, configAreaWriteDone_completes hrun hup hgo hcfg, s.cfgWritten_health rest,
      only_of_blank (s.cfgWritten_blank rest (by simp))⟩

end Sys2Proof.Machine
end

section
/-! PROOFS. The statement on programs, erases and read levels (O13), with the law that a failed LUN stays failed under every operation
that the failure of a LUN makes. -/

open Sys2Proof Sys2Proof.Machine

namespace Sys2Proof.Machine

/-! ## Failed LUNs stay failed (R241)

The failure of a LUN sets off reads, programs, reconstructions and a reshape's next steps. None of these fails or mends a LUN. Each law
below says so for one operation, of the state with every part but the media put back to reset: there the frame laws of `State.blank`
take away each operation that leaves the media alone, and only those that change the media need a law here. -/

/-- Every part of the state but the media. -/
def notMedia : List Part :=
  [.regs, .sys, .power, .board, .host, .ns, .ftl, .str, .sea, .dgs, .lynx, .dma, .disp, .hrt, .memory, .boot, .firmware, .health, .free, .queue]

@[simp] theorem mem_notMedia (p : Part) : p ∈ notMedia ↔ p ≠ .media := by cases p <;> decide

/-- Which LUNs have failed. -/
def State.failures (s : State) (l : Nat) : Bool := (s.lun l).failed

theorem State.failures_blank (s : State) : (s.blank notMedia).failures = s.failures := by
  funext l
  simp [State.failures, State.lun, State.blank]

@[simp] theorem failures_ite {c : Prop} [Decidable c] (a b : State) :
    (if c then a else b).failures = if c then a.failures else b.failures := by
  split <;> rfl

@[simp] theorem failures_foldl {α : Type} (g : State → α → State)
    (h : ∀ s x, ((g s x).blank notMedia).failures = (s.blank notMedia).failures) (l : List α) (s : State) :
    ((l.foldl g s).blank notMedia).failures = (s.blank notMedia).failures := by
  induction l generalizing s with
  | nil => rfl
  | cons x l ih => rw [List.foldl_cons, ih, h]

theorem failures_foldl_fst {α β : Type} (g : State × β → α → State × β)
    (h : ∀ a x, ((g a x).1.blank notMedia).failures = (a.1.blank notMedia).failures) (l : List α) (a : State × β) :
    ((l.foldl g a).1.blank notMedia).failures = (a.1.blank notMedia).failures := by
  induction l generalizing a with
  | nil => rfl
  | cons x l ih => rw [List.foldl_cons, ih, h]

theorem failures_of_fst {β : Type} {s t : State} {p : State × β} {b : β} (h : p = (t, b))
    (hp : (p.1.blank notMedia).failures = (s.blank notMedia).failures) : (t.blank notMedia).failures = (s.blank notMedia).failures := by
  rw [h] at hp
  exact hp

@[simp] theorem State.setLun_failures (s : State) (l : Nat) (x : Lun) (h : x.failed = (s.lun l).failed) :
    ((s.setLun l x).blank notMedia).failures = (s.blank notMedia).failures := by
  rw [State.failures_blank, State.failures_blank]
  funext j
  by_cases hj : j = l
  · subst hj
    rw [State.failures, State.lun_setLun_self, h, State.failures]
  · simp [State.failures, State.lun, State.setLun, hj]

@[simp] theorem Lun.refill_failed (x : Lun) : x.refill.failed = x.failed := by
  unfold Lun.refill
  generalize x.backlog = cs
  suffices ∀ y : Lun, (cs.foldl (fun y c => if (y.queue.filter fun d => d.cls = c.cls).length < 8 then
      { y with queue := y.queue ++ [c], backlog := y.backlog.erase c } else y) y).failed = y.failed from this x
  induction cs with
  | nil => exact fun _ => rfl
  | cons c cs ih =>
    intro y
    rw [List.foldl_cons, ih]
    split <;> rfl

/-- An update of every LUN that fails none. -/
theorem State.failures_mapLuns (s : State) (g : Nat → Lun → Lun) (h : ∀ l x, (g l x).failed = x.failed) :
    ((s.onMedia fun m => { m with luns := m.luns.mapVals g }).blank notMedia).failures = (s.blank notMedia).failures := by
  rw [State.failures_blank, State.failures_blank]
  funext l
  simp only [State.failures, State.lun, State.onMedia_media, Tbl.getD, Tbl.find_mapVals]
  cases s.media.luns.find l with
  | none => rfl
  | some x => exact h l x

@[simp] theorem State.onLun_failures (s : State) (l : Nat) (g : Lun → Lun) (h : (g (s.lun l)).failed = (s.lun l).failed) :
    ((s.onLun l g).blank notMedia).failures = (s.blank notMedia).failures := s.setLun_failures l _ h

/-! ### Queues, operations and withdrawals -/

@[simp] theorem State.sysBegin_failures (s : State) (w : SysWrite) :
    ((s.sysBegin w).blank notMedia).failures = (s.blank notMedia).failures := by
  unfold State.sysBegin
  split
  · rw [State.failures_blank, State.failures_blank]; rfl
  · rfl

@[simp] theorem State.cfgWrite_failures (s : State) (c : CfgWrite) :
    ((s.cfgWrite c).blank notMedia).failures = (s.blank notMedia).failures := by simp [State.cfgWrite]

@[simp] theorem State.dumpNext_failures (s : State) (l : Nat) :
    ((s.dumpNext l).blank notMedia).failures = (s.blank notMedia).failures := by
  unfold State.dumpNext
  (repeat' split) <;> simp

@[simp] theorem State.beginOp_failures (s : State) (l : Nat) (g : List MediaCmd) (reads : Nat) :
    ((s.beginOp l g reads).blank notMedia).failures = (s.blank notMedia).failures := by simp [State.beginOp]

@[simp] theorem State.lunNext_failures (s : State) (l : Nat) : ((s.lunNext l).blank notMedia).failures = (s.blank notMedia).failures := by
  unfold State.lunNext
  extract_lets x
  split
  case isTrue => rfl
  case isFalse =>
    split
    case isTrue => simp
    case isFalse =>
      cases nextResense s l with
      | some c => simp [x]
      | none =>
        dsimp only
        split
        case isTrue =>
          split
          case isTrue => split <;> simp [x]
          case isFalse => cases arbiter x.queue false <;> simp
        case isFalse => cases arbiter (startable s l) (writesAllowed s && channelCarries s (l / 64)) <;> simp

@[simp] theorem State.enqueue_failures (s : State) (l : Nat) (c : MediaCmd) :
    ((s.enqueue l c).blank notMedia).failures = (s.blank notMedia).failures := by simp [State.enqueue]

@[simp] theorem State.wakeAll_failures (s : State) :
    (s.wakeAll.blank notMedia).failures = (s.blank notMedia).failures := by simp [State.wakeAll]

@[simp] theorem State.withdraw_failures (s : State) (p : ReadClient → Bool) :
    ((s.withdraw p).blank notMedia).failures = (s.blank notMedia).failures := by
  unfold State.withdraw
  extract_lets q
  rw [State.wakeAll_failures, State.onStr_blank _ _ (by simp), State.onFtl_blank _ _ (by simp)]
  exact s.failures_mapLuns _ fun _ x => Lun.refill_failed _

/-! ### Flow contexts that fail -/

@[simp] theorem State.freeBuf_failures (s : State) (b : Option Nat) :
    ((s.freeBuf b).blank notMedia).failures = (s.blank notMedia).failures := by
  unfold State.freeBuf
  split <;> simp

@[simp] theorem freeTask_failures (s : State) (t : Task) :
    ((freeTask s t).blank notMedia).failures = (s.blank notMedia).failures := by simp [freeTask]

@[simp] theorem freeTasks_failures (s : State) (ts : List Task) :
    ((freeTasks s ts).blank notMedia).failures = (s.blank notMedia).failures := by simp [freeTasks]

@[simp] theorem State.discardFlow_failures (s : State) (flow : Nat) :
    ((s.discardFlow flow).blank notMedia).failures = (s.blank notMedia).failures := by simp [State.discardFlow]

@[simp] theorem State.stopSource_failures (s : State) (flow : Nat) :
    ((s.stopSource flow).blank notMedia).failures = (s.blank notMedia).failures := by simp [State.stopSource]

@[simp] theorem State.failFlow_failures (s : State) (flow chunk stage : Nat) (st : Status) :
    ((s.failFlow flow chunk stage st).blank notMedia).failures = (s.blank notMedia).failures := by simp [State.failFlow]

@[simp] theorem State.failTask_failures (s : State) (t : Task) (st : Status) :
    ((s.failTask t st).blank notMedia).failures = (s.blank notMedia).failures := by simp [State.failTask]

/-! ### Transfers of the NVM path -/

@[simp] theorem State.keyUse_failures (s : State) (pipeline key : Nat) :
    ((s.keyUse pipeline key).blank notMedia).failures = (s.blank notMedia).failures := by simp [State.keyUse]

@[simp] theorem State.startTransfer_failures (s : State) (t : Transfer) :
    ((s.startTransfer t).blank notMedia).failures = (s.blank notMedia).failures := by simp [State.startTransfer]

@[simp] theorem State.startTransfers_failures (s : State) :
    (s.startTransfers.blank notMedia).failures = (s.blank notMedia).failures := by simp [State.startTransfers]

@[simp] theorem State.transfer_failures (s : State) (cls : UnitClass) (keys : List Nat) (bytes : Nat) :
    ((s.transfer cls keys bytes).blank notMedia).failures = (s.blank notMedia).failures := by simp [State.transfer]

/-! ### Spare capacity and bands -/

@[simp] theorem State.failSink_failures (s : State) (e : Task) (st : Status) :
    ((s.failSink e st).blank notMedia).failures = (s.blank notMedia).failures := by simp [State.failSink]

@[simp] theorem State.failWaiting_failures (s : State) (st : Status) :
    ((s.failWaiting st).blank notMedia).failures = (s.blank notMedia).failures := by
  refine (failures_foldl _ (fun t w => ?_) _ _).trans (by simp)
  split
  · (repeat' split) <;> simp
  · simp

@[simp] theorem State.spareUpdate_failures (s : State) :
    (s.spareUpdate.blank notMedia).failures = (s.blank notMedia).failures := by simp [State.spareUpdate]

theorem State.bandSlot_failures (s : State) (g : Nat) :
    ∀ r, s.bandSlot g = some r → (r.1.blank notMedia).failures = (s.blank notMedia).failures := by
  unfold State.bandSlot
  (repeat' split) <;> simp

@[simp] theorem State.noBand_failures (s : State) :
    (s.noBand.blank notMedia).failures = (s.blank notMedia).failures := by simp [State.noBand]

theorem State.slotFor_failures (s : State) (kind : BandKind) (g : Nat) :
    ∀ r, s.slotFor kind g = some r → (r.1.blank notMedia).failures = (s.blank notMedia).failures := by
  intro r hr
  unfold State.slotFor at hr
  split at hr
  · obtain rfl := Option.some.inj hr; rfl
  · exact State.bandSlot_failures s g r hr

@[simp] theorem State.openBand_failures (s : State) (kind : BandKind) :
    ((s.openBand kind).1.blank notMedia).failures = (s.blank notMedia).failures := by
  unfold State.openBand
  extract_lets g p
  split
  · rfl
  split
  · simp
  split
  next => simp
  next s1 b hslot =>
    have slot := State.slotFor_failures s kind g _ hslot
    split
    · simp
    · simp [slot]

@[simp] theorem State.mediaWork_failures (s : State) (es : List MapEntry) :
    ((s.mediaWork es).blank notMedia).failures = (s.blank notMedia).failures := by simp [State.mediaWork]

@[simp] theorem State.storeWork_failures (s : State) (x : Slot) (bytes : List Byte) (units : Nat) :
    ((s.storeWork x bytes units).blank notMedia).failures = (s.blank notMedia).failures := by simp [State.storeWork]

/-! ### Stripes -/

@[simp] theorem State.dropCopy_failures (s : State) (c : Copy) :
    ((s.dropCopy c).blank notMedia).failures = (s.blank notMedia).failures := by simp [State.dropCopy]

@[simp] theorem State.flipCopy_failures (s : State) (c : Copy) :
    ((s.flipCopy c).blank notMedia).failures = (s.blank notMedia).failures := by
  unfold State.flipCopy
  split <;> simp

@[simp] theorem State.victimCheck_failures (s : State) : (s.victimCheck.blank notMedia).failures = (s.blank notMedia).failures := by
  unfold State.victimCheck
  (repeat' split) <;> simp

@[simp] theorem State.closeStripe_failures (s : State) (b j : Nat) :
    ((s.closeStripe b j).blank notMedia).failures = (s.blank notMedia).failures := by
  unfold State.closeStripe
  split <;> simp

@[simp] theorem State.pageDone_failures (s : State) (b j p : Nat) :
    ((s.pageDone b j p).blank notMedia).failures = (s.blank notMedia).failures := by simp [State.pageDone]

@[simp] theorem State.issueMember_failures (s : State) (b j p : Nat) :
    ((s.issueMember b j p).blank notMedia).failures = (s.blank notMedia).failures := by
  unfold State.issueMember
  extract_lets s1
  have marked : (s1.blank notMedia).failures = (s.blank notMedia).failures := by simp [s1]
  split
  · split
    · split <;> simp [marked]
    · exact marked
  · exact marked

@[simp] theorem State.issuePage_failures (s : State) (b g q : Nat) :
    ((s.issuePage b g q).blank notMedia).failures = (s.blank notMedia).failures := by simp [State.issuePage]

@[simp] theorem State.fillTo_failures (s : State) (b new : Nat) :
    ((s.fillTo b new).blank notMedia).failures = (s.blank notMedia).failures := by
  unfold State.fillTo
  split <;> simp

@[simp] theorem State.fillStripe_failures (s : State) (b : Nat) :
    ((s.fillStripe b).blank notMedia).failures = (s.blank notMedia).failures := by
  unfold State.fillStripe
  split <;> simp

@[simp] theorem State.fillBand_failures (s : State) (b : Nat) :
    ((s.fillBand b).blank notMedia).failures = (s.blank notMedia).failures := by
  unfold State.fillBand
  split <;> simp

@[simp] theorem State.shutBand_failures (s : State) (b : Nat) :
    ((s.shutBand b).blank notMedia).failures = (s.blank notMedia).failures := by
  unfold State.shutBand
  split <;> simp

/-! ### Placing -/

@[simp] theorem State.takeUnits_failures (s : State) (kind : BandKind) (units fuel : Nat) :
    ((s.takeUnits kind units fuel).1.blank notMedia).failures = (s.blank notMedia).failures := by
  induction fuel generalizing s with
  | zero => rfl
  | succ n ih =>
    unfold State.takeUnits
    dsimp only
    split
    · split
      · rfl
      · split <;> simp [ih]
    · split
      · rfl
      · split
        next hopen =>
          have opened := failures_of_fst hopen (s.openBand_failures kind)
          split <;> simp [opened]
        next hopen => exact failures_of_fst hopen (s.openBand_failures kind)

@[simp] theorem State.place_failures (s : State) (kind : BandKind) (iu units : Nat) (bytes : List Byte) (later : Bool) :
    ((s.place kind iu units bytes later).1.blank notMedia).failures = (s.blank notMedia).failures := by
  unfold State.place
  extract_lets d
  split
  next h => simp [failures_of_fst h (s.takeUnits_failures kind units 3)]
  next h => exact failures_of_fst h (s.takeUnits_failures kind units 3)

@[simp] theorem State.placeSlot_failures (s : State) (k : Nat) :
    ((s.placeSlot k).blank notMedia).failures = (s.blank notMedia).failures := by
  unfold State.placeSlot
  split
  next => rfl
  next x _ =>
    extract_lets under cause s1
    split
    next => simp
    next =>
      split
      next => split <;> simp [s1]
      next bytes _ =>
        split
        split <;> rename_i h <;> simp [failures_of_fst (s := s) h (by simp)]

@[simp] theorem State.placeCopy_failures (s : State) (iu : Nat) :
    ((s.placeCopy iu).blank notMedia).failures = (s.blank notMedia).failures := by
  unfold State.placeCopy
  split
  next => rfl
  next c _ =>
    split
    next => simp
    next =>
      split
      next => simp
      next d _ =>
        extract_lets kind
        split
        next h => simp [failures_of_fst h (s.place_failures kind iu d.units d.bytes true)]
        next h => exact failures_of_fst h (s.place_failures kind iu d.units d.bytes true)

@[simp] theorem State.writeSegment_failures (s : State) (segment : Nat) :
    ((s.writeSegment segment).blank notMedia).failures = (s.blank notMedia).failures := by
  unfold State.writeSegment
  split
  next h => simp [failures_of_fst h (s.takeUnits_failures .map 16 3)]
  next h => exact failures_of_fst h (s.takeUnits_failures .map 16 3)

@[simp] theorem State.rekeyAdvance_failures (s : State) : (s.rekeyAdvance.blank notMedia).failures = (s.blank notMedia).failures := by
  refine failures_foldl _ (fun t r => ?_) _ _
  dsimp only
  split <;> simp

/-! ### Reads and reconstructions -/

@[simp] theorem State.reconGo_failures (s : State) (r : Recon) :
    ((s.reconGo r).1.blank notMedia).failures = (s.blank notMedia).failures := by
  unfold State.reconGo
  split
  next => rfl
  next x _ =>
    extract_lets n
    split
    next =>
      refine failures_foldl _ (fun t q => ?_) _ _
      split <;> simp
    next => rfl

@[simp] theorem State.reconStart_failures (s : State) (client : ReadClient) (b j p cw : Nat) :
    ((s.reconStart client b j p cw).1.blank notMedia).failures = (s.blank notMedia).failures := by
  unfold State.reconStart
  extract_lets lost r
  have gone : (((s.onStr fun t => { t with reconSeq := t.reconSeq + 1 }).reconGo r).1.blank notMedia).failures =
      (s.blank notMedia).failures := by simp
  split
  next h =>
    have gone := failures_of_fst h gone
    split <;> simp [gone]

@[simp] theorem State.issueEntry_failures (s : State) (client : ReadClient) (e : MapEntry) :
    ((s.issueEntry client e).1.blank notMedia).failures = (s.blank notMedia).failures := by
  refine failures_foldl_fst _ (fun a q => ?_) _ _
  obtain ⟨t, n, bad⟩ := a
  dsimp only
  split
  next => rfl
  next x _ =>
    split
    next => rfl
    next m _ =>
      split
      next =>
        refine failures_foldl_fst _ (fun a cw => ?_) _ _
        split <;> rename_i h <;> exact failures_of_fst h (State.reconStart_failures ..)
      next => split <;> simp

@[simp] theorem State.startJob_failures (s : State) (job : ReadJob) (es : List MapEntry) :
    ((s.startJob job es).blank notMedia).failures = (s.blank notMedia).failures := by
  unfold State.startJob
  split
  next s1 n bad h =>
    have issued : (s1.blank notMedia).failures = (s.blank notMedia).failures := by
      refine failures_of_fst h (failures_foldl_fst _ (fun a e => ?_) _ _)
      split
      next he => exact failures_of_fst he (a.1.issueEntry_failures job.client e)
    simp [issued]

@[simp] theorem State.issueErased_failures (s : State) (client : ReadClient) (es : List MapEntry) :
    ((s.issueErased client es).1.blank notMedia).failures = (s.blank notMedia).failures := by
  refine failures_foldl_fst _ (fun a q => ?_) _ _
  refine failures_foldl_fst _ (fun a cw => ?_) _ _
  split <;> rename_i h <;> exact failures_of_fst h (State.reconStart_failures ..)

@[simp] theorem State.decodeRead_failures (s : State) (w : Who) (j : ReadJob) (n : Ns) :
    ((s.decodeRead w j n).blank notMedia).failures = (s.blank notMedia).failures := by
  unfold State.decodeRead
  extract_lets es bad
  split
  · simp
  split
  · simp
  split
  next h =>
    have issued := failures_of_fst (s := s) h (by simp)
    split
    · simp [issued]
    · split <;> simp [issued]

@[simp] theorem State.finishHost_failures (s : State) (w : Who) (j : ReadJob) :
    ((s.finishHost w j).blank notMedia).failures = (s.blank notMedia).failures := by
  unfold State.finishHost
  split <;> simp

/-! ### Reshape reads and new blocks -/

@[simp] theorem State.reshapeProgram_failures (s : State) : (s.reshapeProgram.blank notMedia).failures = (s.blank notMedia).failures := by
  unfold State.reshapeProgram
  extract_lets h
  (repeat' split) <;> simp

@[simp] theorem State.reshapeCheck_failures (s : State) : (s.reshapeCheck.blank notMedia).failures = (s.blank notMedia).failures := by
  unfold State.reshapeCheck
  split
  next => simp
  next k j _ =>
    extract_lets s1
    split
    next => simp [s1]
    next x _ =>
      extract_lets ps
      refine (failures_foldl _ (fun t p => ?_) _ _).trans (by simp [s1])
      split <;> simp

@[simp] theorem State.eraseBlocks_failures (s : State) (ms : List (Nat × Nat)) :
    ((s.eraseBlocks ms).blank notMedia).failures = (s.blank notMedia).failures := failures_foldl _ (fun _ _ => by simp) _ s

@[simp] theorem State.reshapeDying_failures (s : State) (k : Nat) (x : Band) (ms : List (Nat × Nat)) :
    ((s.reshapeDying k x ms).blank notMedia).failures = (s.blank notMedia).failures := by
  unfold State.reshapeDying
  extract_lets good
  split <;> simp

@[simp] theorem State.reshapeFresh_failures (s : State) (k p pages : Nat) :
    ((s.reshapeFresh k p pages).blank notMedia).failures = (s.blank notMedia).failures := by
  unfold State.reshapeFresh
  split
  next => rfl
  next x _ =>
    split
    next => rfl
    next m _ =>
      extract_lets s1
      split <;> simp [s1]

@[simp] theorem State.reshapeMismatch_failures (s : State) (k j : Nat) :
    ((s.reshapeMismatch k j).blank notMedia).failures = (s.blank notMedia).failures := by
  unfold State.reshapeMismatch
  split <;> simp

@[simp] theorem State.reshapeRead_failures (s : State) (failed : Bool) :
    ((s.reshapeRead failed).blank notMedia).failures = (s.blank notMedia).failures := by
  unfold State.reshapeRead
  split <;> simp

/-! ### The end of reads -/

@[simp] theorem State.mergeRead_failures (s : State) (j : ReadJob) (k : Nat) :
    ((s.mergeRead j k).blank notMedia).failures = (s.blank notMedia).failures := by simp [State.mergeRead]

@[simp] theorem State.finishJob_failures (s : State) (j : ReadJob) :
    ((s.finishJob j).blank notMedia).failures = (s.blank notMedia).failures := by
  unfold State.finishJob
  (repeat' split) <;> simp

@[simp] theorem State.jobPart_failures (s : State) (client : ReadClient) (n : Nat) (bad : Option Status) :
    ((s.jobPart client n bad).blank notMedia).failures = (s.blank notMedia).failures := by
  unfold State.jobPart
  split <;> simp

@[simp] theorem State.rebuildCol_failures (s : State) (cw : Nat) (good : Bool) :
    ((s.rebuildCol cw good).blank notMedia).failures = (s.blank notMedia).failures := by
  unfold State.rebuildCol
  split <;> simp

@[simp] theorem State.deliver_failures (s : State) (client : ReadClient) (cw : Nat) (bad : Option Status) :
    ((s.deliver client cw bad).blank notMedia).failures = (s.blank notMedia).failures := by
  unfold State.deliver
  split <;> simp

@[simp] theorem State.reconFor_failures (s : State) (client : ReadClient) (b j p cw : Nat) :
    ((s.reconFor client b j p cw).blank notMedia).failures = (s.blank notMedia).failures := by
  unfold State.reconFor
  have started := s.reconStart_failures client b j p cw
  split <;> rename_i h <;> simp [failures_of_fst h started]

@[simp] theorem State.reconPart_failures (s : State) (id slot : Nat) (good : Bool) :
    ((s.reconPart id slot good).blank notMedia).failures = (s.blank notMedia).failures := by
  unfold State.reconPart
  split
  next => rfl
  next r _ =>
    extract_lets r0 r1 rest
    split
    next s1 r2 e h =>
      have gone := failures_of_fst h (s.reconGo_failures r1)
      split <;> simp [rest, gone]

@[simp] theorem State.systemRead_failures (s : State) (area copy : Nat) :
    ((s.systemRead area copy).blank notMedia).failures = (s.blank notMedia).failures := by
  unfold State.systemRead
  split <;> simp

@[simp] theorem State.runJob_failures (s : State) (job : ReadJob) (es : List MapEntry) :
    ((s.runJob job es).blank notMedia).failures = (s.blank notMedia).failures := by
  unfold State.runJob
  extract_lets s1
  split <;> simp [s1]

@[simp] theorem State.erase_failures (s : State) (client : ReadClient) (lun block page : Nat) (cws : List Nat) :
    ((s.erase client lun block page cws).blank notMedia).failures = (s.blank notMedia).failures := by
  unfold State.erase
  split <;> simp

/-! ### Placing again -/

@[simp] theorem State.dropPrograms_failures (s : State) (lun block : Nat) :
    ((s.dropPrograms lun block).blank notMedia).failures = (s.blank notMedia).failures := by
  unfold State.dropPrograms
  extract_lets x hit s1
  refine (failures_foldl _ (fun t c => ?_) _ _).trans (by simp [s1, x])
  split <;> simp

@[simp] theorem State.copyAgain_failures (s : State) (b : Nat) (stripes : List Nat) :
    ((s.copyAgain b stripes).blank notMedia).failures = (s.blank notMedia).failures := by simp [State.copyAgain]

@[simp] theorem State.placeAgain_failures (s : State) (b p : Nat) (stripes : List Nat) :
    ((s.placeAgain b p stripes).blank notMedia).failures = (s.blank notMedia).failures := by
  unfold State.placeAgain
  extract_lets hitSlots hitCopies hitPages s1 s2 s3 s4 s5 s6
  have dropped : (s3.blank notMedia).failures = (s2.blank notMedia).failures := by
    simp only [s3]
    split
    · split <;> simp
    · rfl
  simp [s6, s5, s4, dropped, s2, s1]

/-! ### The course of a reshape -/

@[simp] theorem State.reshapeMaps_failures (s : State) :
    (s.reshapeMaps.blank notMedia).failures = (s.blank notMedia).failures := by simp [State.reshapeMaps]

@[simp] theorem State.reshapeSwitch_failures (s : State) (r : Nat) :
    ((s.reshapeSwitch r).blank notMedia).failures = (s.blank notMedia).failures := by
  unfold State.reshapeSwitch
  split
  · rfl
  extract_lets old x s1 s2 s3 s4
  split <;> simp [s4, s3, s2, s1]

@[simp] theorem State.reshapeIssue_failures (s : State) : (s.reshapeIssue.blank notMedia).failures = (s.blank notMedia).failures := by
  unfold State.reshapeIssue
  (repeat' split) <;> simp

@[simp] theorem State.reshapeMark_failures (s : State) (r from_ upto : Nat) :
    ((s.reshapeMark r from_ upto).blank notMedia).failures = (s.blank notMedia).failures := by simp [State.reshapeMark]

@[simp] theorem State.reshapeOpen_failures (s : State) (r k : Nat) :
    ((s.reshapeOpen r k).blank notMedia).failures = (s.blank notMedia).failures := by
  unfold State.reshapeOpen
  extract_lets g
  split
  next => simp
  next k1 _ =>
    split
    next => rfl
    next => split <;> simp

@[simp] theorem State.reshapeStripe_failures (s : State) (r j : Nat) (x : Band) :
    ((s.reshapeStripe r j x).blank notMedia).failures = (s.blank notMedia).failures := by simp [State.reshapeStripe]

@[simp] theorem State.reshapePage_failures (s : State) : (s.reshapePage.blank notMedia).failures = (s.blank notMedia).failures := by
  unfold State.reshapePage
  extract_lets h
  split
  next =>
    extract_lets s1
    split <;> simp [s1]
  next =>
    extract_lets g j i s1
    split <;> simp [s1]
  next => rfl

/-! ### The failure of a LUN -/

@[simp] theorem State.moveSystem_failures (s : State) (l : Nat) :
    ((s.moveSystem l).blank notMedia).failures = (s.blank notMedia).failures := by
  unfold State.moveSystem
  extract_lets homes s1
  have moved : (s1.blank notMedia).failures = (s.blank notMedia).failures := by
    refine (failures_foldl _ (fun t k => by simp) _ _).trans ?_
    rw [State.failures_blank, State.failures_blank]
    rfl
  refine (failures_foldl _ (fun t e => ?_) _ _).trans moved
  split <;> simp

@[simp] theorem State.eraseOfBand_failures (s : State) (band : Option Nat) (lun block : Nat) :
    ((s.eraseOfBand band lun block).blank notMedia).failures = (s.blank notMedia).failures := by
  unfold State.eraseOfBand
  (repeat' split) <;> simp

@[simp] theorem State.reshapeSkip_failures (s : State) : (s.reshapeSkip.blank notMedia).failures = (s.blank notMedia).failures := by
  unfold State.reshapeSkip
  extract_lets kept s1
  split
  next =>
    split
    next => split <;> simp [s1]
    next => simp [s1]
  next => simp [s1]

@[simp] theorem State.dumpBack_failures (s : State) (copy : Nat) (pages : List Nat) :
    ((s.dumpBack copy pages).blank notMedia).failures = (s.blank notMedia).failures := by simp [State.dumpBack]

@[simp] theorem State.bootReady_failures (s : State) :
    (s.bootReady.blank notMedia).failures = (s.blank notMedia).failures := by simp [State.bootReady]

@[simp] theorem State.recoverDone_failures (s : State) :
    (s.recoverDone.blank notMedia).failures = (s.blank notMedia).failures := by simp [State.recoverDone]

/-- A LUN as its failure leaves it (R241). -/
def Lun.fallen (cause : Nat) : Lun := { Lun.reset with failed := true, cause := cause }

/-- The failure of a LUN fails that LUN alone: all that it makes afterwards leaves every LUN as failed as it was (R241). -/
theorem State.failLun_failures (s : State) (l cause : Nat) (hsound : (s.lun l).failed = false) (hl : l ∈ boardLuns s) :
    ((s.failLun l cause).blank notMedia).failures = ((s.setLun l (Lun.fallen cause)).blank notMedia).failures := by
  unfold State.failLun
  extract_lets x none_ held hit sound s1 s2 old s3 s5 s6
  have starts : ¬(x.failed ∨ !(l ∈ boardLuns s)) := by simp [x, hsound, hl]
  have commands : (s6.blank notMedia).failures = (s5.blank notMedia).failures := by
    refine failures_foldl _ (fun t c => ?_) _ _
    split
    case h_4 => split <;> simp
    all_goals simp
  have falls : (s1.blank notMedia).failures = ((s.setLun l (Lun.fallen cause)).blank notMedia).failures :=
    congrArg State.failures (State.onStr_blank _ _ (by simp))
  rw [if_neg starts]
  simp [commands, s5, s3, s2, falls]

theorem State.failLun_failed (s : State) (l cause : Nat) (hchanged : (s.failLun l cause).lun l ≠ s.lun l) :
    ((s.failLun l cause).lun l).failed = true := by
  by_cases hstays : (s.lun l).failed ∨ !(l ∈ boardLuns s)
  · exact absurd (by rw [State.failLun, if_pos hstays]) hchanged
  simp only [not_or, Bool.not_eq_true, Bool.not_eq_true', decide_eq_false_iff_not, not_not] at hstays
  obtain ⟨hsound, hl⟩ := hstays
  have failures := s.failLun_failures l cause hsound hl
  rw [State.failures_blank, State.failures_blank] at failures
  have fallen := congrFun failures l
  rw [State.failures, State.failures, State.lun_setLun_self] at fallen
  exact fallen

/-! ## Programs and erases (R197, R206, R241, R253) -/

theorem State.countProgram_only (s : State) (b j p : Nat) : OnlyChanges [.regs] s (s.countProgram b j p) :=
  only_of_blank (s.countProgram_blank b j p (by simp))

/-- A LUN whose oldest running command has ended. -/
def Lun.ended (rest : List MediaCmd) (x : Lun) : Lun := { x with active := rest }

/-- What waits for a place is placed, and the LUN and then every LUN that waits to erase looks for work (R206, R255). -/
def State.afterErase (s : State) (l : Nat) : State :=
  let t := s.placeWaiting.lunNext l
  ((t.media.luns.filter fun e => e.2.queue.any MediaCmd.isErase).map (·.1)).foldl State.lunNext t

section
variable {s : State} {l : Nat} {c : MediaCmd} {rest : List MediaCmd} (hactive : (s.lun l).active = c :: rest)
include hactive

theorem programDone_ends {b j p : Nat} (hop : c.op = .program b j p) :
    ∃ u : State, exec (.programDone l true) s = .next (((((u.countProgram b j p).pageDone b j p).placeWaiting).lunNext l).recoverDone) ∧
      exec (.programDone l false) s = .next ((((u.writeFailed l c).placeWaiting).lunNext l).recoverDone) ∧
      u.lun l = { s.lun l with active := rest } ∧ OnlyChanges [.media] s u := by
  refine ⟨s.onLun l (Lun.ended rest), ?_, ?_, s.lun_onLun_self l _, s.onLun_only l _⟩ <;>
  · simp only [exec, execProgramDone, hactive, hop]
    rfl

theorem programDone_of_dump {copy : Nat} {ps : List Nat} (hop : c.op = .dump copy ps) :
    ∃ u : State, exec (.programDone l true) s = .next ((u.onRun copy fun r => { r with done := r.done ++ ps }).lunNext l) ∧
      exec (.programDone l false) s = .next ((u.writeFailed l c).lunNext l) ∧
      u.lun l = { s.lun l with active := rest } ∧ OnlyChanges [.media] s u := by
  refine ⟨s.onLun l (Lun.ended rest), ?_, ?_, s.lun_onLun_self l _, s.onLun_only l _⟩ <;>
  · simp only [exec, execProgramDone, hactive, hop]
    rfl

theorem eraseDone_ends {band : Option Nat} (hop : c.op = .erase band) :
    exec (.eraseDone l true) s = .next (((s.onLun l (Lun.ended rest)).eraseOk l c.block band).afterErase l) ∧
      exec (.eraseDone l false) s = .next (((s.onLun l (Lun.ended rest)).eraseFailed l c.block band).afterErase l) := by
  constructor <;>
  · simp only [exec, execEraseDone, hactive, hop]
    rfl

end

theorem lunReadyTimeout_fails (s : State) (l : Nat) (hactive : (s.lun l).active ≠ []) :
    exec (.lunReadyTimeout l) s = .next (s.failLun l 2) := by
  simp [exec, execLunReadyTimeout, hactive]

/-! ## User read levels (R173, R183) -/

theorem State.sysBegin_committing (s : State) (w : SysWrite) : (s.sysBegin w).media.committing = s.media.committing := by
  unfold State.sysBegin
  split <;> rfl

section
variable {i : Nat} (hi : i < 4)
include hi

/-- A write of MED_UCAL_COMMIT clears FAIL alone, which its island's LOCK does not lie in. -/
theorem State.locked_writeClears_ucal (s : State) (v : W32) :
    ((s.writeClears (rMedUcalCommit i) v).irq).locked (rMed i) = s.locked (rMed i) := by
  have clears : s.writeClears (rMedUcalCommit i) v = s.clearOnes (rMedUcalCommit i) 0x40000000#32 v := by
    interval_cases i <;> rfl
  have lock : lockReg (rMed i) = some (rMedCtl i) := by interval_cases i <;> rfl
  have apart : rMedCtl i ≠ rMedUcalCommit i := by simp [rMedCtl, rMedUcalCommit]
  rw [State.locked, State.locked, lock]
  simp [State.regBit, clears, State.clearOnes, State.reg_setReg, apart]

theorem ucalCommit_begins (s : State) (r : Requester) (v : W32) (hr : s.barReaches r (rMedUcalCommit i) = true) (hv : bitAt v 0 = true)
    (hopen : s.locked (rMed i) = false) : Completes (.ucalCommit r i v) s fun t => i ∈ t.media.committing := by
  have runs : exec (.ucalCommit r i v) s = .next (((s.writeClears (rMedUcalCommit i) v).irq.onMedia fun m =>
      { m with committing := addOnce m.committing i }).sysBegin (.commit i)) := by
    have unlocked := (s.locked_writeClears_ucal hi v).trans hopen
    simp only [exec, execUcalCommit, Nat.not_le.mpr hi, hr, hv, unlocked]
    rfl
  refine ⟨_, runs, ?_⟩
  simp only [State.sysBegin_committing]
  exact mem_addOnce _ _

end

/-- The commit of an island's read levels is no longer under way. -/
def Media.commitEnds (i : Nat) (m : Media) : Media := { m with committing := m.committing.filter fun c => c ≠ i }

theorem Media.not_mem_commitEnds (i : Nat) (m : Media) : i ∉ (m.commitEnds i).committing := by simp [Media.commitEnds]

section
variable {s : State} {i : Nat} (hi : i ∈ s.media.committing) (hgo : sysWaits s (.commit i) = false)
include hi hgo

theorem ucalCommitDone_takes_effect :
    Completes (.ucalCommitDone i true) s fun t =>
      i ∉ t.media.committing ∧ t.media.committed = ofIsland i s.media.staged s.media.committed ∧ OnlyChanges [.media, .health] s t := by
  let u := ((s.onMedia (Media.commitEnds i)).onMedia fun m => { m with committed := ofIsland i m.staged m.committed }).areaWrite areaConfig
  have runs : exec (.ucalCommitDone i true) s = .next (u.bumpGen 0xC6) := by
    simp only [exec, execUcalCommitDone, hi, hgo]
    rfl
  refine ⟨_, runs, ?_, ?_, only_of_blank (by simp [u])⟩ <;> rw [State.bumpGen_media]
  · exact s.media.not_mem_commitEnds i
  · rfl

theorem ucalCommitDone_fails :
    Completes (.ucalCommitDone i false) s fun t =>
      i ∉ t.media.committing ∧ t.media.committed = s.media.committed ∧ t.regBit (rMedUcalCommit i) 30 = true := by
  let u := (s.onMedia (Media.commitEnds i)).setBits (rMedUcalCommit i) 0x40000000#32 0x40000000#32
  have runs : exec (.ucalCommitDone i false) s = .next u.irq := by
    simp only [exec, execUcalCommitDone, hi, hgo]
    rfl
  have media : u.irq.media = s.media.commitEnds i := only_of_blank (u.irq_blank (ps := [.sys, .host]) (by simp)) .media (by decide)
  refine ⟨_, runs, ?_, ?_, ?_⟩
  · rw [media]; exact s.media.not_mem_commitEnds i
  · rw [media]; rfl
  · have failBit : bitAt (0x40000000#32 &&& 0x40000000#32) 30 = true := by decide
    have reg := (u.reg_irq (rMedUcalCommit i)).trans (State.reg_setReg_self _ _ _)
    rw [State.regBit, reg, bitAt_or, failBit, Bool.or_true]

end

/-! ## System areas (R176) -/

theorem systemAreaMoveDone_moves (s : State) (copy l : Nat) (more : List Nat) (hcopy : copy ∈ s.media.moving)
    (hgo : sysWaits s (.move copy) = false) (hnext : systemCandidates s (s.media.systemLun.getD copy 0) = l :: more) :
    Completes (.systemAreaMoveDone copy) s fun t =>
      t.media.systemLun.find copy = some l ∧ copy ∉ t.media.moving ∧ OnlyChanges [.media] s t := by
  have runs : exec (.systemAreaMoveDone copy) s = .next (s.onMedia fun m =>
      { m with moving := m.moving.filter fun c => c ≠ copy, systemLun := m.systemLun.set copy l }) := by
    simp [exec, execSystemAreaMoveDone, hcopy, hgo, hnext]
  exact ⟨_, runs, Tbl.find_set_self _ _ _, by simp, only_of_blank (by simp)⟩

/-- Settles O13: a lemma for each command of a program, of an erase, of a LUN that does not answer, of the read levels and of the system
areas; that a LUN which fails is failed is the law of failed LUNs above. -/
theorem programsErasesAndLevels : Obligations.ProgramsErasesAndLevels := by
  unfold Obligations.ProgramsErasesAndLevels
  refine ⟨fun s l b j p c rest hactive hop => programDone_ends hactive hop, State.countProgram_only,
    fun s l copy ps c rest hactive hop => programDone_of_dump hactive hop, ?erases, lunReadyTimeout_fails, fun s l => s.failLun_failed l 2,
    fun s r i v hi hr hv hopen _ => ucalCommit_begins hi s r v hr hv hopen, fun s i hi hgo => ucalCommitDone_takes_effect hi hgo,
    fun s i hi hgo => ucalCommitDone_fails hi hgo, systemAreaMoveDone_moves⟩
  intro s l band c rest hactive hop
  obtain ⟨ends, fails⟩ := eraseDone_ends hactive hop
  exact ⟨_, _, _, ends, fails, rfl, rfl, s.lun_onLun_self l _, s.onLun_only l _⟩

end Sys2Proof.Machine
end

section
/-! PROOFS. Relocation (O16) and the map's journal with the arbitration epoch (O17): the choice of a victim, the journal's pages, the
segments of the map, and what a whole millisecond of the counter does. -/

open Sys2Proof Sys2Proof.Machine

namespace Sys2Proof.Machine

/-! ## The choice of a victim (R200, R201) -/

/-- A candidate (band, valid units) is the least of the bands seen so far. -/
def LeastOf (s : State) (seen : List (Nat × Band)) (x : Nat × Nat) : Prop :=
  x.2 = validUnits s x.1 ∧ (∃ e ∈ seen, e.1 = x.1) ∧ ∀ e ∈ seen, x.2 ≤ validUnits s e.1

theorem leastOf_singleton (s : State) (e : Nat × Band) : LeastOf s [e] (e.1, validUnits s e.1) := by simp [LeastOf]

/-- A band with fewer valid units than the least becomes the least. -/
theorem LeastOf.replace {s : State} {seen : List (Nat × Band)} {x : Nat × Nat} (h : LeastOf s seen x) {e : Nat × Band}
    (hlt : validUnits s e.1 < x.2) : LeastOf s (seen ++ [e]) (e.1, validUnits s e.1) := by
  obtain ⟨-, -, least⟩ := h
  refine ⟨rfl, ⟨e, by simp, rfl⟩, fun d hd => ?_⟩
  rcases List.mem_append.mp hd with old | new
  · exact Nat.le_of_lt (Nat.lt_of_lt_of_le hlt (least d old))
  · rw [List.mem_singleton.mp new]

/-- A band with as many valid units or more leaves the least as it is. -/
theorem LeastOf.keep {s : State} {seen : List (Nat × Band)} {x : Nat × Nat} (h : LeastOf s seen x) {e : Nat × Band}
    (hle : x.2 ≤ validUnits s e.1) : LeastOf s (seen ++ [e]) x := by
  obtain ⟨units, ⟨d, hd, hband⟩, least⟩ := h
  refine ⟨units, ⟨d, List.mem_append_left _ hd, hband⟩, fun c hc => ?_⟩
  rcases List.mem_append.mp hc with old | new
  · exact least c old
  · rw [List.mem_singleton.mp new]; exact hle

/-- The greedy choice goes on from the least of what it has seen to the least of all. -/
theorem greedyBand_goes_on (s : State) (es : List (Nat × Band)) {seen : List (Nat × Band)} {x y : Nat × Nat} (hx : LeastOf s seen x)
    (h : greedyBand s es (some x) = some y) : LeastOf s (seen ++ es) y := by
  induction es generalizing seen x with
  | nil =>
    rw [greedyBand, Option.some.injEq] at h
    rw [List.append_nil, ← h]
    exact hx
  | cons e es ih =>
    rw [greedyBand] at h
    rw [List.append_cons]
    split at h
    case isTrue fewer => exact ih (hx.replace fewer) h
    case isFalse more => exact ih (hx.keep (Nat.le_of_not_lt more)) h

/-- R200: the greedy choice is the least of the bands offered. -/
theorem greedyBand_least {s : State} {es : List (Nat × Band)} {y : Nat × Nat} (h : greedyBand s es none = some y) : LeastOf s es y := by
  cases es with
  | nil => cases h
  | cons e es => exact greedyBand_goes_on s es (leastOf_singleton s e) h

/-- The choice by benefit is one of the bands offered, or the best so far. -/
theorem benefitBand_mem (s : State) (es : List (Nat × Band)) {best : Option (Nat × Nat × Nat)} {y : Nat × Nat × Nat}
    (h : benefitBand s es best = some y) : (∃ e ∈ es, e.1 = y.1) ∨ best = some y := by
  induction es generalizing best with
  | nil => exact .inr h
  | cons e es ih =>
    rcases ih h with ⟨d, hd, hband⟩ | chosen
    · exact .inl ⟨d, List.mem_cons_of_mem e hd, hband⟩
    · cases best with
      | none =>
        rw [← Option.some.inj chosen]
        exact .inl ⟨e, List.mem_cons_self, rfl⟩
      | some x =>
        dsimp only at chosen
        split at chosen
        · rw [← Option.some.inj chosen]
          exact .inl ⟨e, List.mem_cons_self, rfl⟩
        · exact .inr chosen

theorem closed_of_mem_victims {s : State} {e : Nat × Band} (h : e ∈ victims s) : e.2.st = .closed := by
  have ⟨_, hst⟩ := List.mem_filter.mp h
  rw [Bool.and_eq_true] at hst
  exact of_decide_eq_true hst.1

/-- R201: a refresh candidate comes before every other band. -/
theorem chooseVictim_of_refresh {s : State} {e : Nat × Band} (h : (victims s).find? (fun e => e.2.refresh) = some e) :
    chooseVictim s = some e.1 := by
  simp [chooseVictim, h]

/-- R200: without a refresh candidate nothing is chosen while the free level is at or above GC_START. -/
theorem chooseVictim_of_free {s : State} (hnone : ∀ e ∈ victims s, e.2.refresh = false) (hfree : freeBelow s (thGcStart s) = false) :
    chooseVictim s = none := by
  have noRefresh : (victims s).find? (fun e => e.2.refresh) = none := List.find?_eq_none.mpr fun e he => by simp [hnone e he]
  simp [chooseVictim, noRefresh, hfree]

/-- Each of the four ways to choose chooses among the victims. -/
theorem mem_victims_of_chooseVictim {s : State} {v : Nat} (h : chooseVictim s = some v) : ∃ e ∈ victims s, e.1 = v := by
  unfold chooseVictim at h
  extract_lets vs at h
  split at h
  case h_1 e refresh => exact ⟨e, List.mem_of_find?_eq_some refresh, Option.some.inj h⟩
  case h_2 =>
    split at h
    case isTrue => cases h
    case isFalse =>
      split at h
      case h_1 e retired => exact ⟨e, List.mem_of_find?_eq_some retired, Option.some.inj h⟩
      case h_2 =>
        split at h
        case isTrue =>
          obtain ⟨y, chosen, hy⟩ := Option.map_eq_some_iff.mp h
          rw [← hy]
          exact (benefitBand_mem s vs chosen).resolve_right (by simp)
        case isFalse =>
          obtain ⟨y, chosen, hy⟩ := Option.map_eq_some_iff.mp h
          obtain ⟨-, mem, -⟩ := greedyBand_least chosen
          rw [← hy]
          exact mem

theorem chooseVictim_closed {s : State} {v : Nat} (h : chooseVictim s = some v) : ∃ x : Band, (v, x) ∈ victims s ∧ x.st = .closed := by
  obtain ⟨⟨_, x⟩, hmem, rfl⟩ := mem_victims_of_chooseVictim h
  exact ⟨x, hmem, closed_of_mem_victims hmem⟩

/-! ## Badger takes its victim (R200 to R202) -/

section
variable {s : State} {v : Nat} (hrun : s.running = true) (hctrl : s.up .ctrl = true) (hmem : s.up .mem = true)
  (hengine : s.up .engine = true) (hwrites : s.power.writesStopped = false) (hseg : s.ftl.segFirst = false)
include hrun hctrl hmem hengine hwrites hseg

/-- R202: while a victim is being copied, the copies that found no place go on. -/
theorem badgerVictimSelect_places (hvictim : s.ftl.victim = some v) : exec .badgerVictimSelect s = .next s.placeWaiting := by
  simp [exec, execBadgerVictimSelect, hrun, hctrl, hmem, hengine, hwrites, hseg, hvictim]

theorem badgerVictimSelect_begins (hnone : s.ftl.victim = none) (hchoice : chooseVictim s = some v)
    (hother : ∀ r, s.str.rebuild = some r → r.band ≠ v) : exec .badgerVictimSelect s = .next (s.beginVictim v) := by
  cases hrebuild : s.str.rebuild with
  | none => simp [exec, execBadgerVictimSelect, hrun, hctrl, hmem, hengine, hwrites, hseg, hnone, hchoice, hrebuild]
  | some r => simp [exec, execBadgerVictimSelect, hrun, hctrl, hmem, hengine, hwrites, hseg, hnone, hchoice, hrebuild, hother r hrebuild]

/-- The rebuild of the chosen band ends first, and the block that it filled is erased. -/
theorem badgerVictimSelect_ends_rebuild {r : Rebuild} (hnone : s.ftl.victim = none) (hchoice : chooseVictim s = some v)
    (hrebuild : s.str.rebuild = some r) (hband : r.band = v) :
    exec .badgerVictimSelect s = .next ((s.dropRebuild.eraseBlocks [(r.lun, r.block)]).beginVictim v) := by
  simp [exec, execBadgerVictimSelect, hrun, hctrl, hmem, hengine, hwrites, hseg, hnone, hchoice, hrebuild, hband]

end

/-- Settles O16: the laws of the choice, of the greedy minimum, and of what Badger does with its choice. -/
theorem garbageCollection : Obligations.GarbageCollection := by
  unfold Obligations.GarbageCollection
  refine ⟨fun _ _ => chooseVictim_of_refresh, fun _ => chooseVictim_of_free, fun _ _ => chooseVictim_closed, ?begins, ?places, ?rebuild,
    ?least⟩
  case begins =>
    exact fun _ _ hrun hctrl hmem hengine hwrites hnone hseg => badgerVictimSelect_begins hrun hctrl hmem hengine hwrites hseg hnone
  case places =>
    exact fun _ _ hrun hctrl hmem hengine hwrites hvictim hseg => badgerVictimSelect_places hrun hctrl hmem hengine hwrites hseg hvictim
  case rebuild =>
    exact fun _ _ _ hrun hctrl hmem hengine hwrites hnone hseg =>
      badgerVictimSelect_ends_rebuild hrun hctrl hmem hengine hwrites hseg hnone
  case least => exact fun _ _ _ _ => greedyBand_least

/-! ## The journal's pages (R216 to R218) -/

theorem ceilDiv_mul_ge {b : Nat} (hb : 0 < b) (a : Nat) : a ≤ b * ceilDiv a b := by
  rw [ceilDiv, if_neg (Nat.ne_of_gt hb)]
  have := Nat.lt_mul_div_succ (a + b - 1) hb
  rw [Nat.mul_add] at this
  omega

/-- The first pieces of a list, of equal size, put together again. -/
theorem flatMap_pieces_eq_take {α : Type} (xs : List α) (c n : Nat) :
    ((List.range n).flatMap fun i => (xs.drop (c * i)).take c) = xs.take (c * n) := by
  induction n with
  | zero => simp
  | succ n ih => rw [List.range_succ, List.flatMap_append, ih, List.flatMap_singleton, Nat.mul_succ, List.take_add]

/-- The pages of some records hold them all, in order. -/
theorem journalPages_recs (js : List JournalRec) : (journalPages js).flatMap (·.recs) = js := by
  have pieces : (journalPages js).flatMap (·.recs) = js.take (1020 * ceilDiv js.length 1020) := by
    rw [← flatMap_pieces_eq_take, journalPages, List.flatMap_map]
    rfl
  rw [pieces, List.take_of_length_le (ceilDiv_mul_ge (by decide) js.length)]

theorem Ftl.journalOut_journal (f : Ftl) : f.journalOut.journal = [] := by
  unfold Ftl.journalOut
  split
  case isTrue empty => exact List.isEmpty_iff.mp empty
  case isFalse => rfl

theorem Ftl.journalOut_recs (f : Ftl) :
    f.journalOut.journalOnFlash.flatMap (·.recs) = f.journalOnFlash.flatMap (·.recs) ++ f.journal := by
  unfold Ftl.journalOut
  split
  case isTrue empty => rw [List.isEmpty_iff.mp empty, List.append_nil]
  case isFalse =>
    dsimp only [Ftl.precedence]
    rw [List.flatMap_append, journalPages_recs]

theorem Ftl.journalOut_map (f : Ftl) : f.journalOut.map = f.map := by
  unfold Ftl.journalOut
  split <;> rfl

theorem journalPageTimeout_writes (s : State) (hrun : s.running = true) (hwrites : s.power.writesStopped = false) :
    Completes .journalPageTimeout s fun t =>
      t.ftl.journal = [] ∧ t.ftl.journalOnFlash.flatMap (·.recs) = s.ftl.journalOnFlash.flatMap (·.recs) ++ s.ftl.journal ∧
      t.ftl.map = s.ftl.map ∧ OnlyChanges [.ftl] s t := by
  have runs : exec .journalPageTimeout s = .next (s.onFtl Ftl.journalOut) := by
    simp [exec, execJournalPageTimeout, State.journalFlush, hrun, hwrites]
  exact ⟨_, runs, s.ftl.journalOut_journal, s.ftl.journalOut_recs, s.ftl.journalOut_map, only_of_blank (by simp)⟩

/-! ## Segments of the map (R219 to R221) -/

/-- A segment has been written to a page of a map band: its page is listed, and it is dirty no more. -/
def Ftl.segmentWritten (f : Ftl) (g : Nat) (p : MapPage) : Ftl :=
  { f with mapPages := f.mapPages ++ [p], dirty := f.dirty.erase g,
           blockDirty := if firstBlockSegment ≤ g then f.blockDirty.erase (g - firstBlockSegment) else f.blockDirty }

theorem mapSegmentTimeout_writes (s u : State) (g a : Nat) (hrun : s.running = true) (hmem : s.up .mem = true)
    (hwrites : s.power.writesStopped = false) (hdirty : segmentDirty s g = true) (hready : g ∉ s.ftl.segRebuild)
    (htake : s.takeUnits .map 16 3 = (u, some a)) :
    ∃ v : State, exec (.mapSegmentTimeout g) s = .next v.flipSegments ∧ v.ftl.mapPages = u.ftl.mapPages ++ [segmentNow u g a] ∧
      v.ftl.dirty = u.ftl.dirty.erase g ∧ v.ftl.map = u.ftl.map ∧ OnlyChanges [.ftl] u v := by
  refine ⟨u.onFtl fun f => f.segmentWritten g (segmentNow u g a), ?_, rfl, rfl, rfl, only_of_blank (by simp)⟩
  simp only [exec, execMapSegmentTimeout, State.writeSegment, htake, hrun, hmem, hwrites, hdirty, hready]
  rfl

theorem segmentNow_of_map_segment (s : State) (g a : Nat) (hmap : g < firstBlockSegment) :
    (segmentNow s g a).entries = s.ftl.map.filter (fun e => e.1 / 2720 = g) ∧ (segmentNow s g a).jseq = s.ftl.jseq ∧
    (segmentNow s g a).addr = a ∧ (segmentNow s g a).segment = g ∧ (segmentNow s g a).done = false := by
  simp [segmentNow, Nat.not_le.mpr hmap]

theorem mapSegmentRebuildDone_runs (s : State) (g : Nat) (hg : g ∈ s.ftl.segRebuild) :
    ∃ u v : State, exec (.mapSegmentRebuildDone g) s = .next v.startHeldReads ∧
      u.ftl = { s.ftl with segRebuild := s.ftl.segRebuild.erase g } ∧ OnlyChanges [.ftl] s u ∧
      v = (let u2 := u.ftl.slots.foldl (fun t e => t.flipSlot e.1) u
           ((u2.ftl.copies.foldl (fun t c => t.flipCopy c) u2).freeSlots).victimCheck) := by
  refine ⟨s.onFtl fun f => { f with segRebuild := f.segRebuild.erase g }, _, ?_, rfl, only_of_blank (by simp), rfl⟩
  simp only [exec, execMapSegmentRebuildDone, if_pos hg]

/-! ## The arbitration epoch (R477) -/

/-- The ticks to the next whole millisecond of the counter. -/
def State.toBoundary (s : State) : Nat := tMs - s.rtc % tMs

/-- The epoch at its boundary: the time to the whole millisecond has passed, and VIN_EPOCH is one higher. -/
def State.epochBegins (s : State) : State :=
  let s1 := (s.countStalls s.toBoundary).passTime s.toBoundary
  s1.setReg rVinEpoch (s1.reg rVinEpoch + 1)

theorem exec_epochBoundary {s : State} (hrun : s.running = true) (hctrl : s.up .ctrl = true) :
    exec .epochBoundary s =
      .next ((((((s.epochBegins.applyShares).portCredits .a).portCredits .b).spareUpdate).epochBudgets).commitStep) := by
  simp [exec, execEpochBoundary, State.epochBegins, State.toBoundary, hrun, hctrl]

theorem State.reg_of_val {s t : State} (h : t.regs.val = s.regs.val) (off : Nat) : t.reg off = s.reg off := by simp [State.reg, h]

/-- What each step of an iteration keeps, the iteration keeps. -/
theorem iterate_keeps {α β : Type} (p : α → β) (f : Nat → α → α) (h : ∀ k a, p (f k a) = p a) (n : Nat) (a : α) :
    p (iterate f n a) = p a := by
  induction n with
  | zero => rfl
  | succ n ih => rw [iterate, h, ih]

/-- The counts of stalls are no registers. -/
theorem State.countStalls_val (s : State) (n : Nat) : (s.countStalls n).regs.val = s.regs.val := by
  unfold State.countStalls
  split
  · refine iterate_keeps (fun t : State => t.regs.val) _ (fun k t => ?_) 8 s
    split <;> rfl
  · rfl

theorem State.countStalls_sys (s : State) (n : Nat) : (s.countStalls n).sys = s.sys :=
  only_of_blank (s.countStalls_blank (ps := [.regs]) n (by simp)) .sys (by decide)

theorem State.passTime_val (s : State) (n : Nat) : (s.passTime n).regs.val = s.regs.val := by
  simp only [State.passTime, State.onSys_regs, State.onMem_regs]
  split <;> rfl

theorem State.passTime_sys (s : State) (n : Nat) : (s.passTime n).sys = { s.sys with ticks := s.sys.ticks + n } := by
  simp only [State.passTime, State.onSys_sys, State.onMem_sys]
  split <;> rfl

theorem State.epochBegins_epoch (s : State) : s.epochBegins.reg rVinEpoch = s.reg rVinEpoch + 1 := by
  have kept := State.reg_of_val ((State.passTime_val _ s.toBoundary).trans (s.countStalls_val s.toBoundary)) rVinEpoch
  rw [State.epochBegins, State.reg_setReg_self, kept]

/-- Time passes to the boundary. -/
theorem State.epochBegins_rtc {s : State} (hbase : s.sys.rtcBase ≤ s.sys.ticks) : s.epochBegins.rtc = s.rtc + s.toBoundary := by
  have time : s.epochBegins.sys = { s.sys with ticks := s.sys.ticks + s.toBoundary } := by
    rw [← s.countStalls_sys s.toBoundary, ← State.passTime_sys]
    rfl
  rw [State.rtc, time, State.rtc]
  dsimp only
  omega

theorem epochBoundary_begins (s : State) (hrun : s.running = true) (hctrl : s.up .ctrl = true) (hbase : s.sys.rtcBase ≤ s.sys.ticks) :
    ∃ u : State,
      exec .epochBoundary s = .next ((((((u.applyShares).portCredits .a).portCredits .b).spareUpdate).epochBudgets).commitStep) ∧
      u.reg rVinEpoch = s.reg rVinEpoch + 1 ∧ u.rtc % tMs = 0 ∧ s.rtc < u.rtc ∧ u.rtc ≤ s.rtc + tMs := by
  have within : s.rtc % tMs < tMs := Nat.mod_lt _ (by decide)
  refine ⟨s.epochBegins, exec_epochBoundary hrun hctrl, s.epochBegins_epoch, ?_, ?_, ?_⟩ <;>
    rw [State.epochBegins_rtc hbase, State.toBoundary]
  · unfold tMs at *; omega
  · omega
  · omega

/-- Settles O17: a lemma for the journal's pages, for a segment that is written, for one that is rebuilt, and for the boundary of an
epoch. -/
theorem journalAndEpoch : Obligations.JournalAndEpoch := by
  unfold Obligations.JournalAndEpoch
  exact ⟨journalPageTimeout_writes, mapSegmentTimeout_writes, segmentNow_of_map_segment, mapSegmentRebuildDone_runs, epochBoundary_begins⟩

end Sys2Proof.Machine
end

section
/-! PROOFS. The NVM commands that enter their paths (O14) and the admission of writes (O15), with the laws of the map that they use: what
an entry reads after a write of the map, and that the journal touches nothing else of the translation layer. -/

open Sys2Proof Sys2Proof.Machine

namespace Sys2Proof.Machine

/-! ## Entries of the map (R187, R188, R217) -/

/-- The translation layer without what the journal holds. -/
def Ftl.unjournaled (f : Ftl) : Ftl := { f with journal := [], jseq := 0, journalOnFlash := [], segFirst := false }

theorem Ftl.journalOut_unjournaled (f : Ftl) : f.journalOut.unjournaled = f.unjournaled := by
  unfold Ftl.journalOut
  split <;> rfl

/-- A record of the journal changes nothing else of the translation layer. -/
theorem State.journal_unjournaled (s : State) (kind target erases : Nat) (e : MapEntry) :
    (s.journal kind target erases e).ftl.unjournaled = s.ftl.unjournaled := by
  rw [State.journal, State.onFtl_ftl]
  extract_lets f1
  split
  · rfl
  · exact f1.journalOut_unjournaled

theorem State.badRemove_ftl (s : State) (nsid slba nlb : Nat) : (s.badRemove nsid slba nlb).ftl = s.ftl :=
  only_of_blank (s.badRemove_blank (ps := [.host, .str, .health]) nsid slba nlb (by simp)) .ftl (by decide)

/-- That a BAD entry leaves the log is no change of the translation layer. -/
theorem State.replaceEntry_ftl (s : State) (iu : Nat) (e : MapEntry) : (s.replaceEntry iu e).ftl = (s.setMap iu e).ftl := by
  unfold State.replaceEntry
  extract_lets old s1
  split
  · split
    · exact s1.badRemove_ftl _ _ _
    · rfl
  · rfl

theorem State.entryOf_of_map {s t : State} (h : t.ftl.map = s.ftl.map) (iu : Nat) : t.entryOf iu = s.entryOf iu := by
  simp [State.entryOf, h]

theorem State.setMap_map (s : State) (iu : Nat) (e : MapEntry) : (s.setMap iu e).ftl.map = Tbl.put MapEntry.unmapped s.ftl.map iu e :=
  congrArg Ftl.map (State.journal_unjournaled _ 0 iu 0 e)

theorem State.entryOf_replaceEntry (s : State) (iu j : Nat) (e : MapEntry) :
    (s.replaceEntry iu e).entryOf j = if j = iu then e else s.entryOf j := by
  rw [State.entryOf, State.replaceEntry_ftl, State.setMap_map, Tbl.getD_put]
  rfl

/-! ## Deallocation (R188) -/

theorem State.entryOf_deallocIu (s : State) (iu j : Nat) :
    (s.deallocIu iu).entryOf j = if j = iu then MapEntry.unmapped else s.entryOf j := State.entryOf_replaceEntry _ iu j _

theorem State.entryOf_foldl_deallocIu (s : State) (ius : List Nat) (j : Nat) :
    (ius.foldl State.deallocIu s).entryOf j = if j ∈ ius then MapEntry.unmapped else s.entryOf j := by
  induction ius generalizing s with
  | nil => simp
  | cons iu ius ih =>
    rw [List.foldl_cons, ih, State.entryOf_deallocIu]
    by_cases hj : j = iu <;> simp [hj]

theorem Tbl.find_eq_none_of_not_mem {α : Type} {t : Tbl α} {k : Nat} (h : k ∉ t.map (·.1)) : t.find k = none := by
  induction t with
  | nil => rfl
  | cons e t ih =>
    obtain ⟨hne, hrest⟩ := not_or.mp fun hk => h (List.mem_cons.mpr hk)
    rw [Tbl.find, if_neg hne, ih hrest]

/-- Only mapped IUs need a change: the others are UNMAPPED already. -/
theorem State.entryOf_unmapIus (s : State) (ius : List Nat) (j : Nat) :
    (s.unmapIus ius).entryOf j = if j ∈ ius then MapEntry.unmapped else s.entryOf j := by
  rw [State.unmapIus, State.entryOf_foldl_deallocIu]
  by_cases hj : j ∈ ius
  · by_cases mapped : j ∈ s.ftl.map.map (·.1)
    · obtain ⟨e, he, rfl⟩ := List.mem_map.mp mapped
      rw [if_pos (List.mem_map_of_mem (List.mem_filter.mpr ⟨he, by simpa using hj⟩)), if_pos hj]
    · simp [State.entryOf, Tbl.getD, Tbl.find_eq_none_of_not_mem mapped, hj]
  · rw [if_neg hj, if_neg]
    intro listed
    obtain ⟨e, he, rfl⟩ := List.mem_map.mp listed
    exact hj (by simpa using (List.mem_filter.mp he).2)

theorem State.entryOf_foldl_unmapIus {α : Type} (s : State) (ius : α → List Nat) (rs : List α) (j : Nat) :
    (rs.foldl (fun t r => t.unmapIus (ius r)) s).entryOf j = if ∃ r ∈ rs, j ∈ ius r then MapEntry.unmapped else s.entryOf j := by
  induction rs generalizing s with
  | nil => simp
  | cons r rs ih =>
    rw [List.foldl_cons, ih, State.entryOf_unmapIus]
    by_cases hj : j ∈ ius r <;> simp [hj]

theorem datasetManagement_unmaps (s : State) (w : Who) (nsid : Nat) (rs : List LbaRange) (n : Ns) (hready : s.ioReady w = true)
    (hgate : s.nsGate w.fn nsid .nvm = .ok n) (hfree : s.reserved w.fn n true = false) (hpass : rs.findSome? (rangeFails s n) = none) :
    ∃ u : State, exec (.datasetManagement w nsid true rs) s = .next (u.io w stOk 0) ∧
      (∀ r ∈ rs, ∀ iu ∈ wholeIus n r, (u.entryOf iu).st = .unmapped) ∧
      (∀ iu, (∀ r ∈ rs, iu ∉ wholeIus n r) → u.entryOf iu = s.entryOf iu) := by
  refine ⟨rs.foldl (fun t r => t.unmapIus (wholeIus n r)) s, ?_, fun r hr iu hiu => ?_, fun iu hiu => ?_⟩
  · simp [exec, execDatasetManagement, hready, hgate, hfree, hpass]
  · rw [State.entryOf_foldl_unmapIus, if_pos ⟨r, hr, hiu⟩]
    rfl
  · rw [State.entryOf_foldl_unmapIus, if_neg]
    rintro ⟨r, hr, covered⟩
    exact hiu r hr covered

/-! ## Commands that enter (R188, R194, R452) -/

theorem dramMiss_of_up {s : State} (h : s.up .mem = true) (ports : List Nat) : dramMiss s ports = none := by simp [dramMiss, h]

section
variable {s : State} {w : Who} {nsid slba nlb : Nat}

theorem State.submitWrite_enters {kind : WriteKind} {mdts : Bool} {n : Ns} (hgate : s.nvmGate w.fn nsid slba nlb true mdts = .ok n)
    (hpass : s.writeFails n { who := w, kind := kind, nsid := nsid, slba := slba, nlb := nlb } = none) :
    s.submitWrite w kind nsid slba nlb mdts = s.enterWrite w kind nsid slba nlb := by
  simp [State.submitWrite, hgate, hpass]

theorem State.submitWrite_fails {kind : WriteKind} {mdts : Bool} {st : Status} (hgate : s.nvmGate w.fn nsid slba nlb true mdts = .error st) :
    s.submitWrite w kind nsid slba nlb mdts = s.io w st 0 := by
  simp [State.submitWrite, hgate]

theorem State.submitRead_fails {kind : ReadKind} {mdts : Bool} {st : Status} (hgate : s.nvmGate w.fn nsid slba nlb false mdts = .error st) :
    s.submitRead w kind nsid slba nlb mdts = s.io w st 0 := by
  simp [State.submitRead, hgate]

/-- The job of a host's read that begins. -/
def hostJob (w : Who) (kind : ReadKind) (nsid slba nlb : Nat) : ReadJob :=
  { client := .host w, kind := kind, nsid := nsid, slba := slba, nlb := nlb, wait := 0, failed := none, second := false, again := false }

theorem State.submitRead_runs {kind : ReadKind} {mdts : Bool} {n : Ns} (hgate : s.nvmGate w.fn nsid slba nlb false mdts = .ok n)
    (hmem : s.up .mem = true) (hseg : segBusy s (iusOf n slba nlb) = false) :
    s.submitRead w kind nsid slba nlb mdts = s.runJob (hostJob w kind nsid slba nlb) (mediaEntries s (needsOf n slba nlb)) := by
  simp [State.submitRead, hgate, dramMiss_of_up hmem, hseg, hostJob]

variable (hready : s.ioReady w = true)
include hready

theorem exec_nvmWrite : exec (.nvmWrite w nsid slba nlb) s = .next ((s.asClass w 1).submitWrite w .nvm nsid slba nlb true) := by
  simp [exec, execNvmWrite, hready]

theorem exec_nvmRead : exec (.nvmRead w nsid slba nlb) s = .next ((s.asClass w 0).submitRead w .read nsid slba nlb true) := by
  simp [exec, execNvmRead, hready]

theorem nvmWrite_waits {n : Ns} (hgate : (s.asClass w 1).nvmGate w.fn nsid slba nlb true true = .ok n)
    (hpass : (s.asClass w 1).writeFails n { who := w, kind := .nvm, nsid := nsid, slba := slba, nlb := nlb } = none) :
    Completes (.nvmWrite w nsid slba nlb) s fun t =>
      t.ftl = { s.ftl with waiting := s.ftl.waiting ++ [{ who := w, kind := .nvm, nsid := nsid, slba := slba, nlb := nlb }] } ∧
      OnlyChanges [.ftl, .host] s t := by
  have runs := exec_nvmWrite (nsid := nsid) (slba := slba) (nlb := nlb) hready
  rw [State.submitWrite_enters hgate hpass] at runs
  exact ⟨_, runs, rfl, only_of_blank (by simp)⟩

theorem writeZeroes_waits {n : Ns} (hgate : s.nvmGate w.fn nsid slba nlb true false = .ok n)
    (hpass : s.writeFails n { who := w, kind := .zeroes, nsid := nsid, slba := slba, nlb := nlb } = none) :
    Completes (.writeZeroes w nsid slba nlb) s fun t =>
      t.ftl = { s.ftl with waiting := s.ftl.waiting ++ [{ who := w, kind := .zeroes, nsid := nsid, slba := slba, nlb := nlb }] } ∧
      OnlyChanges [.ftl] s t := by
  have runs : exec (.writeZeroes w nsid slba nlb) s = .next (s.submitWrite w .zeroes nsid slba nlb false) := by
    simp [exec, execWriteZeroes, hready]
  rw [State.submitWrite_enters hgate hpass] at runs
  exact ⟨_, runs, rfl, only_of_blank (by simp)⟩

theorem nvmRead_runs {n : Ns} (hgate : (s.asClass w 0).nvmGate w.fn nsid slba nlb false true = .ok n)
    (hmem : (s.asClass w 0).up .mem = true) (hseg : segBusy (s.asClass w 0) (iusOf n slba nlb) = false) :
    exec (.nvmRead w nsid slba nlb) s =
      .next ((s.asClass w 0).runJob (hostJob w .read nsid slba nlb) (mediaEntries (s.asClass w 0) (needsOf n slba nlb))) := by
  rw [exec_nvmRead hready, State.submitRead_runs hgate hmem hseg]

theorem compare_runs {n : Ns} {data : List Byte} (hgate : s.nvmGate w.fn nsid slba nlb false true = .ok n) (hmem : s.up .mem = true)
    (hseg : segBusy s (iusOf n slba nlb) = false) :
    exec (.compare w nsid slba nlb (some data)) s =
      .next (s.runJob (hostJob w (.compare data) nsid slba nlb) (mediaEntries s (needsOf n slba nlb))) := by
  simp [exec, execCompare, hready, State.submitRead_runs hgate hmem hseg]

theorem verify_runs {n : Ns} (hgate : s.nvmGate w.fn nsid slba nlb false false = .ok n) (hmem : s.up .mem = true)
    (hseg : segBusy s (iusOf n slba nlb) = false) :
    exec (.verify w nsid slba nlb) s =
      .next (s.runJob (hostJob w .verify nsid slba nlb) (mediaEntries s (needsOf n slba nlb))) := by
  simp [exec, execVerify, hready, State.submitRead_runs hgate hmem hseg]

theorem flush_completes : exec (.flush w 0xFFFFFFFF) s = .next (s.io w stOk 0) := by
  simp [exec, execFlush, hready]

end

/-- Settles O14: a lemma for each command that enters its path, for the two that a check fails, and the deallocation's law of the map. -/
theorem nvmCommandsEnter : Obligations.NvmCommandsEnter := by
  unfold Obligations.NvmCommandsEnter
  refine ⟨?write, fun _ _ _ _ _ _ hready => writeZeroes_waits hready, ?read, fun _ _ _ _ _ _ _ hready => compare_runs hready,
    fun _ _ _ _ _ _ hready => verify_runs hready, fun _ _ => flush_completes, ?failing, datasetManagement_unmaps⟩
  case write =>
    rintro s _ w nsid slba nlb n hready rfl
    exact nvmWrite_waits hready
  case read =>
    rintro s _ w nsid slba nlb n hready rfl
    exact nvmRead_runs hready
  case failing =>
    intro s w nsid slba nlb st hready
    exact ⟨fun hgate => by rw [exec_nvmWrite hready, State.submitWrite_fails hgate],
      fun hgate => by rw [exec_nvmRead hready, State.submitRead_fails hgate]⟩

/-! ## Admission (R194) -/

/-- The writes that wait and those admitted. -/
def State.writeQueues (s : State) : List WaitingWrite × List AdmittedWrite := (s.ftl.waiting, s.ftl.admitted)

theorem State.writeQueues_of_ftl {s t : State} (h : t.ftl = s.ftl) : t.writeQueues = s.writeQueues := by simp [State.writeQueues, h]

theorem State.replaceEntry_writeQueues (s : State) (iu : Nat) (e : MapEntry) : (s.replaceEntry iu e).writeQueues = s.writeQueues := by
  rw [State.writeQueues_of_ftl (s.replaceEntry_ftl iu e)]
  exact congrArg (fun f => (f.waiting, f.admitted)) (State.journal_unjournaled _ 0 iu 0 e)

theorem State.takeSlot_writeQueues (s : State) (nsid : Nat) (f : Fn) (iu : Nat) : (s.takeSlot nsid f iu).writeQueues = s.writeQueues := by
  unfold State.takeSlot
  split
  · exact State.replaceEntry_writeQueues _ iu _
  · rfl

theorem State.foldl_takeSlot_writeQueues (s : State) (nsid : Nat) (f : Fn) (ius : List Nat) :
    (ius.foldl (fun t iu => t.takeSlot nsid f iu) s).writeQueues = s.writeQueues := by
  induction ius generalizing s with
  | nil => rfl
  | cons iu ius ih => rw [List.foldl_cons, ih, State.takeSlot_writeQueues]

theorem State.charge_ftl (s : State) (f : Fn) (bytes : Nat) : (s.charge f bytes).ftl = s.ftl :=
  only_of_blank (s.charge_blank (ps := [.host]) f bytes (by simp)) .ftl (by decide)

theorem State.bufPeak_ftl (s : State) : s.bufPeak.ftl = s.ftl :=
  only_of_blank (s.bufPeak_blank (ps := [.regs]) (by simp)) .ftl (by decide)

/-- A write of LBAs that is admitted moves from those that wait to those admitted. -/
theorem State.admitWrite_writeQueues (s : State) (x : WaitingWrite) (n : Ns) (hkind : x.kind = .nvm) :
    (s.admitWrite x n).writeQueues = (s.ftl.waiting.erase x,
      s.ftl.admitted ++ [{ who := x.who, kind := .nvm, nsid := x.nsid, slba := x.slba, nlb := x.nlb, pieces := x.pieces s n }]) := by
  simp only [State.admitWrite, hkind]
  set s1 := (s.onFtl fun f => { f with waiting := f.waiting.erase x }).charge x.who.fn (chargedBytes s n x)
  set s2 := ((slotIus s n x).foldl (fun t iu => t.takeSlot x.nsid x.who.fn iu) s1).bufPeak
  have queues : s2.writeQueues = (s.ftl.waiting.erase x, s.ftl.admitted) := calc
    s2.writeQueues = s1.writeQueues :=
      (State.writeQueues_of_ftl (State.bufPeak_ftl _)).trans (s1.foldl_takeSlot_writeQueues x.nsid x.who.fn _)
    _ = _ := State.writeQueues_of_ftl (State.charge_ftl _ _ _)
  obtain ⟨waiting, admitted⟩ := Prod.mk.inj queues
  exact Prod.ext waiting (congrArg (· ++ _) admitted)

theorem writeAdmit_admits (s : State) (x : WaitingWrite) (n : Ns) (hgo : admitsWrites s = true)
    (hpick : pickWrite s s.ftl.waiting [] false = some (x, n)) (hkind : x.kind = .nvm) :
    Completes .writeAdmit s fun t =>
      t.ftl.waiting = s.ftl.waiting.erase x ∧
      t.ftl.admitted =
        s.ftl.admitted ++ [{ who := x.who, kind := .nvm, nsid := x.nsid, slba := x.slba, nlb := x.nlb, pieces := x.pieces s n }] := by
  have runs : exec .writeAdmit s = .next (s.admitWrite x n) := by
    simp [exec, execWriteAdmit, hgo, hpick]
  exact ⟨_, runs, Prod.mk.inj (s.admitWrite_writeQueues x n hkind)⟩

/-! ## Data, flushes and closes (R195, R197) -/

section
variable {s : State} {w : Who} {a : AdmittedWrite} (hrun : s.running = true) (hhost : s.up .host = true) (hmem : s.up .mem = true)
  (ha : (s.ftl.admitted.find? fun a => a.who = w && !a.kind.isSink) = some a)
include hrun hhost hmem ha

theorem writeDataDone_completes {data : List Byte} {n : Ns} (hn : s.ns.find a.nsid = some n) (hkind : a.kind = .nvm) :
    exec (.writeDataDone w (some data)) s =
      .next (((((s.writeArrived a n data).countWrite w.fn (a.nlb * n.lbaSize)).io w stOk 0).bufPeak).rekeyAdvance) := by
  simp only [exec, execWriteDataDone, hrun, hhost, ha, dramMiss_of_up hmem, hn, hkind]
  rfl

theorem writeDataDone_discards :
    exec (.writeDataDone w none) s = .next ((s.discardWrite a).io w stDataTransfer 0).rekeyAdvance := by
  simp only [exec, execWriteDataDone, hrun, hhost, ha, dramMiss_of_up hmem]
  rfl

end

theorem slotFlushStart_flushes (s : State) (k : Nat) (x : Slot) (hx : s.slot k = some x) (hrun : s.running = true)
    (hctrl : s.up .ctrl = true) (hengine : s.up .engine = true) (hmem : s.up .mem = true) (hwrites : s.power.writesStopped = false)
    (hacked : x.acked = true) (hflushing : x.flushing = false) (hkey : slotKeyed s x = true) (hawaited : iuAwaited s x.iu = false) :
    exec (.slotFlushStart k) s = .next (s.flushSlot k) := by
  simp [exec, execSlotFlushStart, hx, hrun, hctrl, hengine, hmem, hwrites, hacked, hflushing, hkey, hawaited]

theorem stripeCloseTimeout_fills (s : State) (b j : Nat) (x : Stripe) (y : Band) (hx : s.stripe b j = some x) (hy : s.band b = some y)
    (hrun : s.running = true) (hctrl : s.up .ctrl = true) (hwrites : s.power.writesStopped = false) (hopen : x.st = 1)
    (hstripe : y.fill / (16 * geomD y.geom) = j) (hpart : y.fill % (16 * geomD y.geom) ≠ 0) :
    exec (.stripeCloseTimeout b j) s = .next (s.fillStripe b) := by
  simp [exec, execStripeCloseTimeout, hx, hy, hrun, hctrl, hwrites, hopen, hstripe, hpart]

/-- Settles O15: a lemma for the admission, for the two ends of the data, for the flush and for the close. -/
theorem writesAreAdmitted : Obligations.WritesAreAdmitted := by
  unfold Obligations.WritesAreAdmitted
  exact ⟨writeAdmit_admits, fun _ _ _ _ _ hrun hhost hmem ha => writeDataDone_completes hrun hhost hmem ha,
    fun _ _ _ => writeDataDone_discards, slotFlushStart_flushes, stripeCloseTimeout_fills⟩

end Sys2Proof.Machine
end

section
/-! PROOFS. The statement on namespaces (O41): how they are created, deleted, made smaller and attached, and how Format NVM and Sanitize
erase them. -/

open Sys2Proof Sys2Proof.Machine

namespace Sys2Proof.Machine

/-! ## Create and delete (R275, R454 to R456) -/

@[simp] theorem State.xts_setXts_self (s : State) (i : Nat) (k : KeySlot) : (s.setXts i k).xts i = k := Tbl.getD_put_self _ _ _ _

/-- The slot of a new namespace's key, with its copy wrapped under the device's key (R275). -/
def nsKeySlot (w : Who) (key : List Byte) : KeySlot :=
  { KeySlot.free with
    st := .loaded, use := 1, owner := managerFn (portOfFn w.fn), key := key,
    stored := some (kwWrap (bytesOf 32 Config.deviceKek) key) }

/-- A new namespace without a hot index stands in the table, and its key in its slot. -/
def State.nsMade (s : State) (w : Who) (x : NsSpec) (nsid slot : Nat) : State :=
  ((s.random 64).2.onNs fun t => t.set nsid (newNs (s.random 64).2 x slot none)).setXts slot (nsKeySlot w (s.random 64).1)

/-- Whichever table and bank of Lynx are free, a namespace without the flag of a hot index takes none. -/
theorem State.createNs_makes {s : State} {x : NsSpec} {nsid slot : Nat} (w : Who) (hflags : x.kvflags = 0)
    (hid : s.ns.lowestFree 1 512 = some nsid) (hslot : s.freeXts = some slot) (hpool : poolSmall s = false)
    (hroom : capacityOk ((s.random 64).2.onNs fun t => t.set nsid (newNs (s.random 64).2 x slot none)) = true) :
    s.createNs w x = ((s.nsMade w x nsid slot).cfgWrite (.complete w stOk (w32 nsid))).spareUpdate := by
  simp only [State.createNs, hid, hslot, hpool, hflags]
  cases Tbl.lowestFree s.lynx.tables 0 16 <;> cases freeBank s <;> simp [hroom, State.nsMade, nsKeySlot]

theorem State.nsMade_only (s : State) (w : Who) (x : NsSpec) (nsid slot : Nat) : OnlyChanges [.ns, .sea] s (s.nsMade w x nsid slot) :=
  only_of_blank (by simp [State.nsMade])

theorem State.find_nsMade (s : State) (w : Who) (x : NsSpec) (nsid slot k : Nat) :
    (s.nsMade w x nsid slot).ns.find k = if k = nsid then some (newNs (s.random 64).2 x slot none) else s.ns.find k :=
  Tbl.find_set _ _ _ _

theorem namespaceCreate_creates (s : State) (w : Who) (x : NsSpec) (nsid slot : Nat) (hready : s.adminReady w = true)
    (hmgr : isManager w.fn = true) (hspec : specOk x = true) (hkind : x.kind = .memory) (hflags : x.kvflags = 0)
    (hid : s.ns.lowestFree 1 512 = some nsid) (hslot : s.freeXts = some slot) (hpool : poolSmall s = false)
    (hroom : capacityOk ((s.random 64).2.onNs fun t => t.set nsid (newNs (s.random 64).2 x slot none)) = true) :
    ∃ u : State, exec (.namespaceCreate w x) s = .next (u.cfgWrite (.complete w stOk (w32 nsid))).spareUpdate ∧
      (∃ n, u.ns.find nsid = some n ∧ n.kind = x.kind ∧ n.nsze = x.nsze ∧ n.ncap = x.ncap ∧ n.attached = [] ∧ n.mem = []) ∧
      (u.xts slot).st = .loaded ∧ (u.xts slot).stored = some (kwWrap (bytesOf 32 Config.deviceKek) (u.xts slot).key) ∧
      (∀ k, k ≠ nsid → u.ns.find k = s.ns.find k) ∧ OnlyChanges [.ns, .sea] s u := by
  have key : (s.nsMade w x nsid slot).xts slot = nsKeySlot w (s.random 64).1 := State.xts_setXts_self _ _ _
  refine ⟨s.nsMade w x nsid slot, ?_, ⟨newNs (s.random 64).2 x slot none, ?_, rfl, rfl, rfl, rfl, rfl⟩, ?_, ?_, fun k hk => ?_,
    s.nsMade_only w x nsid slot⟩
  · rw [← State.createNs_makes w hflags hid hslot hpool hroom]
    simp [exec, execNamespaceCreate, hready, hmgr, hspec, hkind]
  · rw [State.find_nsMade, if_pos rfl]
  · rw [key]; rfl
  · rw [key]; rfl
  · rw [State.find_nsMade, if_neg hk]

theorem State.deleteNs_find (s : State) (nsid : Nat) : (s.deleteNs nsid).ns.find nsid = none := by
  unfold State.deleteNs
  split
  case h_1 absent => exact absent
  case h_2 => exact Tbl.find_erase_self _ _

theorem namespaceDelete_deletes (s : State) (w : Who) (nsid : Nat) (n : Ns) (hready : s.adminReady w = true) (hmgr : isManager w.fn = true)
    (hone : nsid ≠ 0xFFFFFFFF) (hn : s.ns.find nsid = some n) (htrail : trailNamesNs s nsid = false) (hidle : n.erasing = none) :
    exec (.namespaceDelete w nsid) s = .next ((((s.deleteNs nsid).cfgWrite (.complete w stOk 0)).spareUpdate).rekeyAdvance) ∧
      (s.deleteNs nsid).ns.find nsid = none := by
  refine ⟨?_, s.deleteNs_find nsid⟩
  simp [exec, execNamespaceDelete, hready, hmgr, hone, hn, htrail, hidle]

/-! ## Resize and attachment (R455, R456) -/

theorem State.find_modifyNs (s : State) (nsid k : Nat) (g : Ns → Ns) :
    (s.onNs fun t => t.modify nsid g).ns.find k = if k = nsid then (s.ns.find nsid).map g else s.ns.find k := Tbl.find_modify _ _ _ _

theorem namespaceResize_resizes (s : State) (w : Who) (nsid nsze ncap : Nat) (n : Ns) (hready : s.adminReady w = true)
    (hmgr : isManager w.fn = true) (hn : s.ns.find nsid = some n) (htrail : trailNamesNs s nsid = false) (hsome : nsze ≠ 0)
    (hsmaller : nsze ≤ n.nsze) (hcap : ncap ≤ nsze) (hkind : n.kind = .nvm) (hidle : n.erasing = none)
    (hroom : capacityOk (s.onNs fun t => t.set nsid (n.resized nsze ncap)) = true) :
    ∃ u : State, exec (.namespaceResize w nsid nsze ncap) s = .next ((((u.cfgWrite .note).spareUpdate).admin w stOk 0).rekeyAdvance) ∧
      ∀ m, u.ns.find nsid = some m → m.nsze = nsze ∧ m.ncap = ncap := by
  let cut := (iusOf n nsze (n.nsze - nsze)).filter fun iu => coversIu n nsze (n.nsze - nsze) iu
  let shrunk := (s.endNsWork nsid nsze false stLbaRange).unmapIus (if nsze < n.nsze then cut else [])
  refine ⟨shrunk.onNs fun t => t.modify nsid fun m => m.resized nsze ncap, ?_, fun m hm => ?_⟩
  · simp [exec, execNamespaceResize, hready, hmgr, hn, htrail, hsome, Nat.not_lt.mpr hsmaller, Nat.not_lt.mpr hcap, hkind, hidle, hroom,
      shrunk, cut]
  · rw [State.find_modifyNs, if_pos rfl] at hm
    obtain ⟨old, -, rfl⟩ := Option.map_eq_some_iff.mp hm
    exact ⟨rfl, rfl⟩

theorem namespaceAttachment_attaches (s : State) (w : Who) (nsid : Nat) (f : Fn) (c : Nat) (n : Ns) (hready : s.adminReady w = true)
    (hmgr : isManager w.fn = true) (hn : s.ns.find nsid = some n) (hf : fnOfController s c = some f) (hnew : f ∉ n.attached) :
    ∃ u : State, exec (.namespaceAttachment w nsid true [c]) s = .next ((u.cfgWrite .note).admin w stOk 0) ∧
      (∃ m, u.ns.find nsid = some m ∧ f ∈ m.attached ∧ m.nsze = n.nsze) ∧ OnlyChanges [.ns] s u := by
  refine ⟨s.onNs fun t => t.modify nsid fun m => { m with attached := addOnce m.attached f }, ?_,
    ⟨{ n with attached := addOnce n.attached f }, ?_, mem_addOnce _ _, rfl⟩, only_of_blank (by simp)⟩
  · simp [exec, execNamespaceAttachment, hready, hmgr, hn, hf, hnew]
  · rw [State.find_modifyNs, if_pos rfl, hn]
    rfl

/-! ## Format NVM and Sanitize (R213, R286, R451, R472, R526) -/

/-- An erase that is not cryptographic begins with a mark on its namespace alone. -/
theorem State.beginErase_of_plain (s : State) (nsid : Nat) {x : Erasing} (h : x.crypto = false) :
    s.beginErase nsid x = s.onNs fun t => t.modify nsid fun n => { n with erasing := some x } := by
  simp [State.beginErase, h]

theorem State.firstFormat_ns (s : State) : s.firstFormat.ns = s.ns :=
  only_of_blank (s.firstFormat_blank (ps := [.ftl, .str]) (by simp)) .ns (by decide)

/-- The first format takes S0 (R211). -/
theorem State.firstFormat_first {s : State} (h : s.str.formatted = false) :
    s.firstFormat.str.formatted = true ∧ s.firstFormat.ftl.spare0 = spareBlocks s := by
  simp [State.firstFormat, h]

/-- The erase that a Format NVM with user data erase begins (R213). -/
def formatErase (w : Who) (lbaSize : Nat) : Erasing :=
  { by_ := w.fn, who := some w, sanitize := false, crypto := false, lbaSize := lbaSize }

theorem formatNvm_begins (s : State) (w : Who) (nsid : Nat) (n : Ns) (hready : s.adminReady w = true) (hn : s.ns.find nsid = some n)
    (hattached : w.fn ∈ n.attached) (hidle : n.erasing = none) (hfree : s.reserved w.fn n true = false) (hkind : n.kind = .nvm) :
    ∃ u : State, exec (.formatNvm w nsid 1 4096) s = .next u.rekeyAdvance ∧ OnlyChanges [.ns, .str, .ftl] s u ∧
      (s.str.formatted = false → u.str.formatted = true ∧ u.ftl.spare0 = spareBlocks s) ∧
      u.ns.find nsid = some { n with erasing := some { by_ := w.fn, who := some w, sanitize := false, crypto := false, lbaSize := 4096 } } := by
  have begins := s.firstFormat.beginErase_of_plain nsid (x := formatErase w 4096) rfl
  refine ⟨s.firstFormat.beginErase nsid (formatErase w 4096), ?_, ?_, fun first => ?_, ?_⟩
  · simp [exec, execFormatNvm, hready, hn, hattached, hidle, hfree, hkind, formatErase]
  · rw [begins]
    exact only_of_blank (by simp)
  · rw [begins]
    exact State.firstFormat_first first
  · rw [begins, State.find_modifyNs, if_pos rfl, State.firstFormat_ns, hn]
    rfl

theorem Tbl.mem_keys_of_find {α : Type} {t : Tbl α} {k : Nat} {x : α} (h : t.find k = some x) : k ∈ t.map (·.1) := by
  by_contra absent
  rw [Tbl.find_eq_none_of_not_mem absent] at h
  cases h

/-- The mark of a Sanitize without key erase on a namespace (R472). -/
def sanitizeErase (w : Who) (n : Ns) : Erasing := { by_ := w.fn, who := none, sanitize := true, crypto := false, lbaSize := n.lbaSize }

/-- Every namespace listed is marked, and of those that are not the mark stays. -/
theorem State.erasing_of_foldl_beginErase (w : Who) (es : Tbl Ns) (s : State)
    (h : ∀ k n, s.ns.find k = some n → n.erasing.isSome = true ∨ k ∈ es.map (·.1)) (k : Nat) (n : Ns)
    (hn : (es.foldl (fun t e => t.beginErase e.1 (sanitizeErase w e.2)) s).ns.find k = some n) : n.erasing.isSome = true := by
  induction es generalizing s with
  | nil => exact (h k n hn).resolve_right (by simp)
  | cons e es ih =>
    refine ih (s.beginErase e.1 (sanitizeErase w e.2)) (fun j m hm => ?_) hn
    rw [State.beginErase_of_plain _ _ rfl, State.find_modifyNs] at hm
    split at hm
    case isTrue =>
      obtain ⟨old, -, rfl⟩ := Option.map_eq_some_iff.mp hm
      exact .inl rfl
    case isFalse other => exact (h j m hm).imp_right fun listed => (List.mem_cons.mp listed).resolve_left other

theorem sanitize_begins (s : State) (w : Who) (hready : s.adminReady w = true) (hmgr : isManager w.fn = true)
    (hidle : ∀ e ∈ s.ns, e.2.erasing = none) :
    ∃ u : State, exec (.sanitize w false) s = .next (u.admin w stOk 0).rekeyAdvance ∧ u.host.sanAction = 2 ∧
      (∀ k n, u.ns.find k = some n → n.erasing.isSome = true) ∧ OnlyChanges [.ns, .host] s u := by
  let marked := s.ns.foldl (fun t e => t.beginErase e.1 (sanitizeErase w e.2)) s
  have noneErasing : (s.ns.any fun e => e.2.erasing.isSome) = false := List.any_eq_false.mpr fun e he => by simp [hidle e he]
  refine ⟨marked.onHost fun h => { h with sanAction := 2 }, ?_, rfl, fun k n hn => ?_, only_of_blank ?_⟩
  · simp only [exec, execSanitize, hready, hmgr, noneErasing]
    rfl
  · exact State.erasing_of_foldl_beginErase w s.ns s (fun _ _ found => .inr (Tbl.mem_keys_of_find found)) k n hn
  · rw [State.onHost_blank _ _ (by simp)]
    refine blank_foldl _ (fun t e => ?_) _ _
    rw [State.beginErase_of_plain _ _ rfl]
    simp

theorem State.rekeyAdvance_of_nil {s : State} (h : s.sea.rekeys = []) : s.rekeyAdvance = s := by simp [State.rekeyAdvance, h]

theorem State.unmapIus_ns (s : State) (ius : List Nat) : (s.unmapIus ius).ns = s.ns :=
  only_of_blank (s.unmapIus_blank (ps := [.host, .ftl, .str, .health]) ius (by simp)) .ns (by decide)

theorem sanitizeComplete_erases (s : State) (nsid : Nat) (n : Ns) (x : Erasing) (hrun : s.running = true) (hctrl : s.up .ctrl = true)
    (hkeys : s.sea.rekeys = []) (hn : s.ns.find nsid = some n) (hx : n.erasing = some x) (hplain : x.crypto = false) (hwho : x.who = none)
    (hkind : n.kind = .kv) (htable : n.kvTable = none) :
    Completes (.sanitizeComplete nsid) s fun t =>
      ∃ m, t.ns.find nsid = some m ∧ m.kv = [] ∧ m.mem = [] ∧ m.erasing = none ∧ m.lbaSize = x.lbaSize := by
  have runs : exec (.sanitizeComplete nsid) s =
      .next ((s.unmapIus (iusOf n 0 n.nsze)).onNs fun t => t.modify nsid fun m => m.erased x) := by
    simp [exec, execSanitizeComplete, State.rekeyAdvance_of_nil hkeys, hrun, hctrl, hn, hx, hplain, hwho, hkind, htable]
  refine ⟨_, runs, n.erased x, ?_, rfl, rfl, rfl, rfl⟩
  rw [State.find_modifyNs, if_pos rfl, State.unmapIus_ns, hn]
  rfl

/-- Settles O41: a lemma for each command on namespaces, for the beginning of each erase, and for its end. -/
theorem namespacesAndErases : Obligations.NamespacesAndErases := by
  unfold Obligations.NamespacesAndErases
  exact ⟨namespaceCreate_creates, namespaceDelete_deletes, namespaceResize_resizes, namespaceAttachment_attaches, formatNvm_begins,
    sanitize_begins, sanitizeComplete_erases⟩

end Sys2Proof.Machine
end

section
/-! PROOFS. The statement on rebuild, reshape and the end of the dump (O18): what an abort of a reshape takes from the LUNs, the region
that a reshape begins, and the dump that is written. -/

open Sys2Proof Sys2Proof.Machine

namespace Sys2Proof.Machine

/-! ## What one operation after another leaves alone -/

theorem OnlyChanges.mono {ps qs : List Part} {s t : State} (h : OnlyChanges ps s t) (hsub : ps ⊆ qs) : OnlyChanges qs s t :=
  fun p hp => h p (mt (@hsub p) hp)

theorem Part.same_trans {p : Part} {s t u : State} (h : p.same s t) (k : p.same t u) : p.same s u := by
  cases p
  case firmware =>
    obtain ⟨image, svn, revoked⟩ := h
    obtain ⟨image', svn', revoked'⟩ := k
    exact ⟨image'.trans image, svn'.trans svn, revoked'.trans revoked⟩
  all_goals exact Eq.trans k h

theorem OnlyChanges.trans {ps : List Part} {s t u : State} (h : OnlyChanges ps s t) (k : OnlyChanges ps t u) : OnlyChanges ps s u :=
  fun p hp => Part.same_trans (h p hp) (k p hp)

theorem State.wakeAll_only (s : State) : OnlyChanges [.media, .str] s s.wakeAll :=
  only_of_blank (blank_foldl _ State.lunNext_blank_media_str _ _)

theorem State.withdraw_only (s : State) (p : ReadClient → Bool) : OnlyChanges [.media, .ftl, .str] s (s.withdraw p) :=
  OnlyChanges.trans (only_of_blank (by simp)) ((State.wakeAll_only _).mono (by simp))

theorem State.reshapeStop_only (s : State) : OnlyChanges [.media, .ftl, .str, .health] s s.reshapeStop := by
  unfold State.reshapeStop
  extract_lets s1
  have withdrawn : OnlyChanges [.media, .ftl, .str] s s1 := OnlyChanges.trans (only_of_blank (by simp)) (State.withdraw_only _ _)
  exact (withdrawn.mono (by simp)).trans (only_of_blank (by simp))

/-! ## No LUN waits to write for a reshape that has stopped (R262)

A LUN that looks for work takes commands from its queue, and its queue is filled from its backlog: no command comes to wait there. -/

/-- No command that waits for a LUN writes a page of a reshape. -/
def Lun.NoReshape (x : Lun) : Prop := ∀ c ∈ x.queue ++ x.backlog, isReshapeOp c = false

/-- No LUN waits to write a page of a reshape. -/
def State.NoReshape (s : State) : Prop := ∀ l, (s.lun l).NoReshape

theorem Lun.noReshape_reset : Lun.reset.NoReshape := by simp [Lun.NoReshape, Lun.reset]

/-- A LUN whose waiting commands are among another's. -/
theorem Lun.NoReshape.of_subset {x y : Lun} (h : x.NoReshape) (hqueue : y.queue ⊆ x.queue) (hbacklog : y.backlog ⊆ x.backlog) :
    y.NoReshape := fun c hc =>
  h c (List.mem_append.mpr ((List.mem_append.mp hc).imp (@hqueue c) (@hbacklog c)))

/-- R164: the queue is filled from the backlog. -/
theorem Lun.NoReshape.refill {x : Lun} (h : x.NoReshape) : x.refill.NoReshape := by
  unfold Lun.refill
  have hwaits : ∀ c ∈ x.backlog, isReshapeOp c = false := fun c hc => h c (List.mem_append_right _ hc)
  generalize x.backlog = cs at hwaits
  induction cs generalizing x with
  | nil => exact h
  | cons c cs ih =>
    obtain ⟨hc, hcs⟩ := List.forall_mem_cons.mp hwaits
    refine ih ?_ hcs
    dsimp only
    split
    case isTrue =>
      intro d hd
      simp only [List.mem_append, List.mem_singleton] at hd
      rcases hd with (queued | rfl) | waits
      · exact h d (List.mem_append_left _ queued)
      · exact hc
      · exact h d (List.mem_append_right _ (List.mem_of_mem_erase waits))
    case isFalse => exact h

@[simp] theorem State.noReshape_onFtl (s : State) (f : Ftl → Ftl) : (s.onFtl f).NoReshape ↔ s.NoReshape := Iff.rfl

@[simp] theorem State.noReshape_onStr (s : State) (f : Str → Str) : (s.onStr f).NoReshape ↔ s.NoReshape := Iff.rfl

@[simp] theorem State.noReshape_onHealth (s : State) (f : Health → Health) : (s.onHealth f).NoReshape ↔ s.NoReshape := Iff.rfl

@[simp] theorem State.noReshape_onRun (s : State) (copy : Nat) (g : DumpRun → DumpRun) : (s.onRun copy g).NoReshape ↔ s.NoReshape :=
  Iff.rfl

theorem State.NoReshape.setLun {s : State} (h : s.NoReshape) (l : Nat) {x : Lun} (hx : x.NoReshape) : (s.setLun l x).NoReshape := by
  intro j
  by_cases hj : j = l
  · rw [hj, State.lun_setLun_self]
    exact hx
  · rw [State.lun, State.setLun, State.onMedia_media, Tbl.getD_put_other _ _ _ hj]
    exact h j

/-- An update of every LUN that leaves none of them waiting to write a page of a reshape. -/
theorem State.noReshape_mapLuns (s : State) (g : Nat → Lun → Lun) (h : ∀ l, (g l (s.lun l)).NoReshape) :
    (s.onMedia fun m => { m with luns := m.luns.mapVals g }).NoReshape := by
  intro l
  have hl := h l
  simp only [State.lun, State.onMedia_media, Tbl.getD, Tbl.find_mapVals] at hl ⊢
  cases hfind : s.media.luns.find l with
  | none => exact Lun.noReshape_reset
  | some x => rw [hfind] at hl; exact hl

theorem State.NoReshape.dumpNext {s : State} (h : s.NoReshape) (l : Nat) : (s.dumpNext l).NoReshape := by
  unfold State.dumpNext
  split
  case h_1 => exact h
  case h_2 d _ =>
    split
    case h_1 => exact h
    case h_2 =>
      rw [State.noReshape_onRun]
      exact h.setLun l (h l)

theorem State.NoReshape.beginOp {s : State} (h : s.NoReshape) (l : Nat) (g : List MediaCmd) (reads : Nat) :
    (s.beginOp l g reads).NoReshape := by
  have hqueue : g.foldl List.erase (s.lun l).queue ⊆ (s.lun l).queue := by
    rw [← List.diff_eq_foldl]
    exact List.diff_subset _ _
  exact h.setLun l (Lun.NoReshape.refill ((h l).of_subset hqueue (List.Subset.refl _)))

theorem State.NoReshape.lunNext {s : State} (h : s.NoReshape) (l : Nat) : (s.lunNext l).NoReshape := by
  unfold State.lunNext
  extract_lets x
  split
  case isTrue => exact h
  case isFalse =>
    split
    case isTrue => exact h.dumpNext l
    case isFalse =>
      cases nextResense s l with
      | some c => exact h.setLun l (h l)
      | none =>
        dsimp only
        split
        case isTrue =>
          split
          case isTrue =>
            split
            case isTrue => exact h.setLun l (h l)
            case isFalse => exact h
          case isFalse =>
            cases arbiter x.queue false with
            | some c => exact h.beginOp l _ _
            | none => exact h
        case isFalse =>
          cases arbiter (startable s l) (writesAllowed s && channelCarries s (l / 64)) with
          | some c => exact h.beginOp l _ _
          | none => exact h

theorem State.NoReshape.wakeAll {s : State} (h : s.NoReshape) : s.wakeAll.NoReshape := by
  unfold State.wakeAll
  generalize (s.media.luns.filter fun e => !e.2.suspended.isEmpty).map (·.1) = ls
  induction ls generalizing s with
  | nil => exact h
  | cons l ls ih => exact ih (h.lunNext l)

/-- R177: what is withdrawn leaves the LUNs, and nothing else comes to wait. -/
theorem State.NoReshape.withdraw {s : State} (h : s.NoReshape) (p : ReadClient → Bool) : (s.withdraw p).NoReshape := by
  unfold State.withdraw
  extract_lets q
  refine State.NoReshape.wakeAll ?_
  rw [State.noReshape_onStr, State.noReshape_onFtl]
  refine s.noReshape_mapLuns _ fun l => Lun.NoReshape.refill ?_
  exact (h l).of_subset (List.filter_subset_self _) (List.filter_subset_self _)

/-- R262: after a stop no LUN waits to write a page of the reshape. -/
theorem State.reshapeStop_noReshape (s : State) : s.reshapeStop.NoReshape := by
  unfold State.reshapeStop
  extract_lets s1
  rw [State.noReshape_onHealth, State.noReshape_onStr]
  apply State.NoReshape.withdraw
  refine s.noReshape_mapLuns _ fun l => Lun.NoReshape.refill ?_
  intro c hc
  rcases List.mem_append.mp hc with queued | waits
  · simpa using List.of_mem_filter queued
  · simpa using List.of_mem_filter waits

/-! ## The course of a reshape (R258 to R262) -/

/-- The reshape of the regions listed to a geometry, before it takes the first. -/
def Reshape.begun (g : Nat) (l : List Nat) : Reshape :=
  { active := true, refused := false, reason := 0, target := g, region := none, cursor := 0, left := l, newBands := [], slotIx := 0,
    page := 0, redo := [], back := none, switching := false }

/-- R258: a reshape that is not refused has before it every region of another geometry. -/
theorem State.reshapeBegin_begins (s : State) (g : Nat) (l : List Nat) (hleft : reshapeLeft s g = l) (hsome : l ≠ [])
    (hgoes : reshapeRefusal s g = none) :
    ∃ u : State, s.reshapeBegin g = u.irq ∧ OnlyChanges [.str] s u ∧ u.str.reshape = .begun g l := by
  refine ⟨s.onStr fun t => { t with reshape := .begun g l }, ?_, only_of_blank (by simp), rfl⟩
  simp [State.reshapeBegin, hleft, hsome, hgoes, Reshape.begun]

theorem reshapeStart_begins (s : State) (r : Requester) (v : W32) (hr : s.barReaches r rStrReshapeCtl = true) (htarget : fld v 1 0 ≠ 3)
    (hidle : s.str.reshape.active = false) (hstart : bitAt v 31 = true) :
    ∃ u : State, exec (.reshapeStart r v) s = .next (u.reshapeBegin (u.regFld rStrReshapeCtl 1 0)) ∧
      u = s.writeFields rStrReshapeCtl v := by
  refine ⟨_, ?_, rfl⟩
  simp [exec, execReshapeStart, hr, htarget, hidle, hstart]

/-- The reshape has ended; no region is left to it, and none is in progress. -/
def Reshape.ended (x : Reshape) : Reshape :=
  { x with active := false, region := none, cursor := 0, left := [], newBands := [], slotIx := 0, page := 0, redo := [], back := none,
           switching := false }

theorem reshapeAbort_ends (s : State) (r : Requester) (v : W32) (hr : s.barReaches r rStrReshapeCtl = true) (htarget : fld v 1 0 ≠ 3)
    (hactive : s.str.reshape.active = true) (hregion : s.str.reshape.region = none) (hbands : s.str.reshape.newBands = [])
    (habort : bitAt v 30 = true) :
    ∃ u : State, exec (.reshapeAbort r v) s = .next (u.eraseBlocks []) ∧ u.str.reshape.active = false ∧ u.str.reshape.left = [] ∧
      (∀ i, ∀ c ∈ (u.lun i).queue, isReshapeOp c = false) ∧ OnlyChanges [.media, .ftl, .str, .health] s u := by
  refine ⟨s.reshapeStop.onStr fun t => { t with reshape := t.reshape.ended }, ?_, rfl, rfl, fun i c hc => ?_, ?_⟩
  · simp [exec, execReshapeAbort, hr, htarget, hactive, hregion, hbands, habort, Reshape.ended]
  · exact s.reshapeStop_noReshape i c (List.mem_append_left _ hc)
  · exact s.reshapeStop_only.trans (only_of_blank (by simp))

section
variable {s : State} {g : Nat} (hruns : redundancyRuns s = true) (hactive : s.str.reshape.active = true)
  (hbusy : reshapeBusy s = false) (hswitching : s.str.reshape.switching = false)
include hruns hactive hbusy hswitching

/-- R259: the next region is begun once Badger has no victim there. -/
theorem reshapeRegionBegin_begins {left : List Nat} (hnone : s.str.reshape.region = none) (hleft : s.str.reshape.left = g :: left)
    (hvictim : ∀ v, s.ftl.victim = some v → v / 4096 ≠ g) :
    exec .reshapeRegionBegin s = .next ((s.reshapeRegion g).reshapeResume g) := by
  have hother : (s.ftl.victim.any fun v => v / 4096 = g) = false := by simpa [Option.any_eq_false] using hvictim
  simp only [exec, execReshapeRegionBegin, hruns, hactive, hbusy, hswitching, hnone, hleft, hother]
  rfl

theorem reshapeRegionBegin_resumes (hregion : s.str.reshape.region = some g) :
    exec .reshapeRegionBegin s = .next (s.reshapeResume g) := by
  simp [exec, execReshapeRegionBegin, hruns, hactive, hbusy, hswitching, hregion]

end

theorem State.cfgWrite_str (s : State) (c : CfgWrite) : (s.cfgWrite c).str = s.str :=
  only_of_blank (s.cfgWrite_blank (ps := [.media, .health]) c (by simp)) .str (by decide)

theorem State.reshapeRegion_region (s : State) (g : Nat) : (s.reshapeRegion g).str.reshape.region = some g := by
  rw [State.reshapeRegion, State.cfgWrite_str]
  rfl

/-- The descriptor of a region that a reshape begins. -/
def State.reshapingRegion (s : State) (g : Nat) : Region :=
  { s.region g with st := .reshaping, newGeom := s.str.reshape.target, cursor := 0 }

/-- The reshape stands at the start of a region. -/
def Reshape.atRegion (g : Nat) (x : Reshape) : Reshape :=
  { x with region := some g, cursor := 0, newBands := [], slotIx := 0, page := 0, redo := [], back := none, switching := false }

/-- R259 step 1: with no band of the region open, none is closed; its descriptor and the place of the reshape are all that is set. -/
theorem State.reshapeRegion_of_settled {s : State} {g : Nat}
    (hopen : s.ftl.bands.filter (fun e => e.1 / 4096 = g && e.2.st = .opened) = []) :
    s.reshapeRegion g =
      ((s.setRegion g (s.reshapingRegion g)).onStr fun t => { t with reshape := t.reshape.atRegion g }).cfgWrite .note := by
  have hbands : (s.setRegion g (s.reshapingRegion g)).ftl.bands.filter (fun e => e.1 / 4096 = g && e.2.st = .opened) = [] := hopen
  simp only [State.reshapingRegion] at hbands
  simp only [State.reshapeRegion, hbands, List.map_nil, List.foldl_nil]
  rfl

theorem State.region_setRegion_self (s : State) (g : Nat) (x : Region) :
    (s.setRegion g x).region g = { x with dseq := (s.region g).dseq + 1 } := by
  simp [State.region, State.setRegion, Tbl.getD]

theorem State.reshapeRegion_marks {s : State} {g : Nat}
    (hopen : s.ftl.bands.filter (fun e => e.1 / 4096 = g && e.2.st = .opened) = []) :
    ((s.reshapeRegion g).region g).st = .reshaping ∧ ((s.reshapeRegion g).region g).newGeom = s.str.reshape.target ∧
      OnlyChanges [.media, .str, .health] s (s.reshapeRegion g) := by
  have region : (s.reshapeRegion g).region g = { s.reshapingRegion g with dseq := (s.region g).dseq + 1 } := by
    rw [← State.region_setRegion_self, State.reshapeRegion_of_settled hopen, State.region, State.cfgWrite_str]
    rfl
  refine ⟨by rw [region]; rfl, by rw [region]; rfl, ?_⟩
  rw [State.reshapeRegion_of_settled hopen]
  exact only_of_blank (by simp)

/-! ## The end of the dump (R253, R254) -/

theorem dumpComplete_waits (s : State) (hmissing : copyWritten s 0 = false ∨ copyWritten s 1 = false) :
    exec .dumpComplete s = .next s := by
  rcases hmissing with first | second
  · simp [exec, execDumpComplete, first]
  · simp [exec, execDumpComplete, second]

theorem State.cnt_onStr (s : State) (f : Str → Str) (off : Nat) : (s.onStr f).cnt off = s.cnt off := rfl

/-- R254: the trailers stand, and the dump is counted. -/
theorem dumpComplete_ends (s : State) (hdumping : s.sys.phase = .dumping) (hfirst : copyWritten s 0 = true)
    (hsecond : copyWritten s 1 = true) :
    ∃ u : State, exec .dumpComplete s = .next u.afterDump ∧ u.cnt (rStrCount 4) = (s.cnt (rStrCount 4) + 1) % 2 ^ 64 ∧
      u.str.dump = s.str.dump.map fun d => { d with trailer := true } := by
  let ended := s.onStr fun t => { t with dump := t.dump.map fun d => { d with trailer := true } }
  refine ⟨(ended.addCnt (rStrCount 4) 1).addLife (lifeEvent 4) 1, ?_, ?_, ?_⟩
  · simp [exec, execDumpComplete, hdumping, hfirst, hsecond, ended]
  · rw [State.cnt_addLife, State.cnt_addCnt_self, State.cnt_onStr]
  · exact congrArg Str.dump (State.addLife_only _ _ _ .str (by decide))

/-! ## Rebuild (R247) -/

theorem rebuildBandStart_takes (s : State) (b : Nat) (x : Band) (rest : List (Nat × Band)) (p l k : Nat)
    (hruns : redundancyRuns s = true) (hidle : s.str.rebuild = none) (horder : rebuildOrder s = (b, x) :: rest)
    (hlost : x.lost.head? = some p) (hlun : replacementLun s x = some l) (hblock : pickBlock s l = some k) :
    exec .rebuildBandStart s =
      .next ((s.holdBlocks [(l, k)]).rebuildNext { band := b, slot := p, lun := l, block := k, next := 0, cols := 0 }) := by
  simp [exec, execRebuildBandStart, hruns, hidle, horder, hlost, hlun, hblock]

/-- Settles O18: a lemma for the rebuild's next band, for the start, the abort and the regions of a reshape, and for the end of the dump. -/
theorem rebuildAndReshape : Obligations.RebuildAndReshape := by
  unfold Obligations.RebuildAndReshape
  refine ⟨rebuildBandStart_takes, State.reshapeBegin_begins, reshapeStart_begins, reshapeAbort_ends, ?begins, ?resumes,
    fun s _ => dumpComplete_waits s, dumpComplete_ends⟩
  case begins =>
    exact fun s g left hruns hactive hbusy hswitching hnone hleft hvictim =>
      ⟨reshapeRegionBegin_begins hruns hactive hbusy hswitching hnone hleft hvictim, s.reshapeRegion_region g,
        State.reshapeRegion_marks⟩
  case resumes =>
    exact fun s g hruns hactive hbusy hswitching => reshapeRegionBegin_resumes hruns hactive hbusy hswitching

end Sys2Proof.Machine
end

section
/-! PROOFS. The statements on the seal cipher: what an alarm erases (O21), the commands on key slots (O19), RESTORE with the nonce log
(O20) and Opal locking (O22), with the laws of completions and of the key store that they use. -/

open Sys2Proof Sys2Proof.Machine

namespace Sys2Proof.Machine

/-! ## Operations one after another -/

/-- What every step of a fold keeps, the fold keeps. -/
theorem foldl_keeps {α β γ : Type} (p : β → γ) (g : β → α → β) (h : ∀ b x, p (g b x) = p b) (l : List α) (b : β) :
    p (l.foldl g b) = p b := by
  induction l generalizing b with
  | nil => rfl
  | cons x l ih => rw [List.foldl_cons, ih, h]

theorem OnlyChanges.refl (ps : List Part) (s : State) : OnlyChanges ps s s := only_of_blank rfl

theorem OnlyChanges.foldl {α : Type} {ps : List Part} {g : State → α → State} (h : ∀ s x, OnlyChanges ps s (g s x)) (l : List α)
    (s : State) : OnlyChanges ps s (l.foldl g s) := by
  induction l generalizing s with
  | nil => exact OnlyChanges.refl ps s
  | cons x l ih => exact (h s x).trans (ih (g s x))

/-! ## Completions leave the configuration area's queue alone -/

theorem State.complete_only (s : State) (w : Who) (st : Status) (dw0 dw1 : W32) : OnlyChanges [.host, .health] s (s.complete w st dw0 dw1) :=
  only_of_blank (s.complete_blank w st dw0 dw1 (by simp))

theorem State.onCtrl_health (s : State) (f : Fn) (g : Ctrl → Ctrl) : (s.onCtrl f g).health = s.health := rfl

theorem State.post_health (s : State) (p : Port) (o : Out) : (s.post p o).health = s.health :=
  only_of_blank (s.post_blank (ps := [.host]) p o (by simp)) .health (by decide)

theorem State.msix_health (s : State) (f : Fn) (v : Nat) : (s.msix f v).health = s.health :=
  only_of_blank (s.msix_blank (ps := [.host]) f v (by simp)) .health (by decide)

theorem State.countCmd_uncounted (s : State) (w : Who) : (s.countCmd w).health.uncounted = s.health.uncounted := by
  unfold State.countCmd
  split
  case h_1 => rfl
  case h_2 => split <;> simp [State.addLatency]

theorem State.logError_uncounted (s : State) (w : Who) (st : Status) : (s.logError w st).health.uncounted = s.health.uncounted :=
  State.addLife_uncounted _ _ _

/-- Of the health records a completion changes the lifetime counts alone. -/
theorem State.complete_uncounted (s : State) (w : Who) (st : Status) (dw0 dw1 : W32) :
    (s.complete w st dw0 dw1).health.uncounted = s.health.uncounted := by
  unfold State.complete
  split
  case isTrue => rfl
  case isFalse =>
    extract_lets c cq s1 s2 s3 s4 s5
    have counted : s1.health.uncounted = s.health.uncounted := s.countCmd_uncounted w
    have logged : s2.health.uncounted = s1.health.uncounted := by
      simp only [s2]
      split
      · exact s1.logError_uncounted w st
      · rfl
    have posted : s5.health.uncounted = s2.health.uncounted := by
      simp only [s5, State.post_health, s4, State.onCtrl_health, s3]
      split
      · exact s2.addLife_uncounted _ _
      · rfl
    split
    · rw [State.msix_health, posted, logged, counted]
    · rw [posted, logged, counted]

theorem State.complete_cfg (s : State) (w : Who) (st : Status) (dw0 dw1 : W32) : (s.complete w st dw0 dw1).health.cfg = s.health.cfg :=
  (congrArg Health.cfg (s.complete_uncounted w st dw0 dw1) :)

theorem State.raiseEvent_cfg (s : State) (f : Fn) (e : Aen) : (s.raiseEvent f e).health.cfg = s.health.cfg := by
  unfold State.raiseEvent
  extract_lets c
  split
  case isTrue => rfl
  case isFalse =>
    split
    · exact State.complete_cfg _ _ _ _ _
    · rfl

theorem State.bumpGen_cfg (s : State) (page : Nat) : (s.bumpGen page).health.cfg = s.health.cfg :=
  (congrArg Health.cfg (s.bumpGen_uncounted page) :)

theorem State.logEvent_cfg (s : State) (type sub fn : Nat) (d0 : W32) (d1 : Nat) : (s.logEvent type sub fn d0 d1).health.cfg = s.health.cfg := by
  rw [State.logEvent, State.bumpGen_cfg, State.onHealth_health]

/-! ## Key slots (R274) -/

theorem State.xts_of_sea {s t : State} (h : t.sea = s.sea) (i : Nat) : t.xts i = s.xts i := by rw [State.xts, State.xts, h]

theorem State.wrapSlot_of_sea {s t : State} (h : t.sea = s.sea) (i : Nat) : t.wrapSlot i = s.wrapSlot i := by
  rw [State.wrapSlot, State.wrapSlot, h]

/-! ## Keys after an alarm (R299, R300) -/

theorem Tbl.getD_mapVals {α : Type} {f : α → α} {d : α} (hd : f d = d) (t : Tbl α) (k : Nat) :
    (t.mapVals fun _ => f).getD k d = f (t.getD k d) := by
  rw [Tbl.getD, Tbl.getD, Tbl.find_mapVals]
  cases t.find k with
  | none => exact hd.symm
  | some x => rfl

theorem KeySlot.erased_not_loaded (k : KeySlot) : k.erased.st ≠ .loaded := by
  unfold KeySlot.erased
  dsimp only
  split <;> decide

theorem State.xts_eraseKeys (s : State) (a : AlarmCause) (i : Nat) : (s.eraseKeys a).xts i = (s.xts i).erased :=
  Tbl.getD_mapVals (f := KeySlot.erased) rfl s.sea.xts i

theorem State.wrapSlot_eraseKeys (s : State) (a : AlarmCause) (i : Nat) : (s.eraseKeys a).wrapSlot i = (s.wrapSlot i).erased :=
  Tbl.getD_mapVals (f := KeySlot.erased) rfl s.sea.wrap i

/-- An HMAC slot whose key was loaded, or was about to be, is erased. -/
def HmacSlot.dropped (h : HmacSlot) : HmacSlot := if h.st = .loaded ∨ h.st = .loading then { h with st := .erased, key := [] } else h

/-- An HMAC slot after an alarm: the one that a load was changing is what it was before, or erased (R322). -/
def HmacSlot.alarmed (loading : Option HmacLoading) (i : Nat) (h : HmacSlot) : HmacSlot :=
  match loading with
  | some l => if l.slot = i then { h with st := if l.prior = .loaded then .erased else l.prior, key := [], lastErr := 0xC5 } else h.dropped
  | none => h.dropped

theorem HmacSlot.dropped_not_loaded (h : HmacSlot) : h.dropped.st ≠ .loaded := by
  unfold HmacSlot.dropped
  split
  · exact HmacState.noConfusion
  · next other => exact fun loaded => other (.inl loaded)

theorem HmacSlot.alarmed_not_loaded (loading : Option HmacLoading) (i : Nat) (h : HmacSlot) : (h.alarmed loading i).st ≠ .loaded := by
  cases loading with
  | none => exact h.dropped_not_loaded
  | some l =>
    simp only [HmacSlot.alarmed]
    split
    · dsimp only
      split
      · decide
      · assumption
    · exact h.dropped_not_loaded

theorem State.digestAlarm_hmac (s : State) : s.digestAlarm.dgs.hmac = s.dgs.hmac.mapVals (HmacSlot.alarmed s.dgs.loading) := by
  rw [State.digestAlarm, State.onDgs_dgs]
  extract_lets keyed d1
  split <;> rfl

theorem State.hmacSlot_digestAlarm_not_loaded (s : State) (i : Nat) : (s.digestAlarm.hmacSlot i).st ≠ .loaded := by
  rw [State.hmacSlot, State.digestAlarm_hmac, Tbl.getD, Tbl.find_mapVals]
  cases s.dgs.hmac.find i with
  | none => exact (by decide : HmacSlot.free.st ≠ .loaded)
  | some h => exact h.alarmed_not_loaded _ i

theorem State.eraseKeys_only (s : State) (a : AlarmCause) : OnlyChanges [.sea, .dgs] s (s.eraseKeys a) :=
  only_of_blank (s.eraseKeys_blank a (by simp))

theorem eraseKeys_erases (s : State) (a : AlarmCause) :
    (∀ i, ((s.eraseKeys a).xts i).key = [] ∧ ((s.eraseKeys a).xts i).st ≠ .loaded) ∧
    (∀ i, ((s.eraseKeys a).wrapSlot i).key = [] ∧ ((s.eraseKeys a).wrapSlot i).st ≠ .loaded) ∧
    (∀ i, ((s.eraseKeys a).hmacSlot i).st ≠ .loaded) ∧
    (s.eraseKeys a).sea.caches = [] ∧ a ∈ (s.eraseKeys a).sea.alarms ∧
    (∀ i, ((s.eraseKeys a).xts i).stored = (s.xts i).stored) ∧ OnlyChanges [.sea, .dgs] s (s.eraseKeys a) := by
  refine ⟨fun i => ?_, fun i => ?_, fun i => State.hmacSlot_digestAlarm_not_loaded _ i, rfl, mem_addOnce _ _, fun i => ?_, s.eraseKeys_only a⟩
  · rw [State.xts_eraseKeys]
    exact ⟨rfl, KeySlot.erased_not_loaded _⟩
  · rw [State.wrapSlot_eraseKeys]
    exact ⟨rfl, KeySlot.erased_not_loaded _⟩
  · rw [State.xts_eraseKeys]
    rfl

/-! ## What an alarm does after the keys are gone (R300, R303) -/

theorem State.failImports_only (s : State) : OnlyChanges [.host, .boot, .health] s s.failImports :=
  only_of_blank (s.failImports_blank (by simp))

theorem State.failImports_cfg (s : State) : s.failImports.health.cfg = s.health.cfg.filter (fun c => c.importer.isNone) :=
  foldl_keeps (fun t : State => t.health.cfg) _ (fun t _ => t.complete_cfg _ _ _ _) _ _

theorem State.failImports_appends (s : State) : s.failImports.boot.appends = s.boot.appends.filter (fun a => a.importer.isNone) :=
  foldl_keeps (fun t : State => t.boot.appends) _ (fun t _ => congrArg Boot.appends (t.complete_only _ _ _ _ .boot (by decide))) _ _

theorem State.failReads_only (s : State) : OnlyChanges [.host, .ftl, .media, .str, .health] s s.failReads :=
  OnlyChanges.foldl (fun t _ => ((t.withdraw_only _).mono (by simp)).trans ((State.complete_only _ _ _ _ _).mono (by simp))) _ s

theorem State.failReads_cfg (s : State) : s.failReads.health.cfg = s.health.cfg :=
  foldl_keeps (fun t : State => t.health.cfg) _
    (fun t _ => (State.complete_cfg _ _ _ _ _).trans (congrArg Health.cfg (t.withdraw_only _ .health (by decide)))) _ s

theorem State.failReads_slots (s : State) : s.failReads.ftl.slots = s.ftl.slots :=
  foldl_keeps (fun t : State => t.ftl.slots) _
    (fun t _ => (congrArg Ftl.slots (State.complete_only _ _ _ _ _ .ftl (by decide))).trans (t.withdraw_slots _)) _ s

theorem State.irq_only (s : State) : OnlyChanges [.sys, .host] s s.irq := only_of_blank (s.irq_blank (by simp))

theorem State.alarmReport_only (s : State) : OnlyChanges [.sys, .host, .media, .boot, .health] s s.alarmReport :=
  only_of_blank (s.alarmReport_blank (by simp))

theorem State.alarmReport_cfg (s : State) : s.alarmReport.health.cfg = s.health.cfg := by
  have queued (t : State) (e : Append) : (t.requestAppend e).health = t.health := t.requestAppend_only e .health (by decide)
  rw [State.alarmReport, State.irq_only _ .health (by decide), queued, State.raiseManagers, State.raiseEvent_cfg,
    State.raiseEvent_cfg, State.logEvent_cfg]

/-- R300: the alarm's record waits for the ledger behind the others. -/
theorem State.alarmReport_appends (s : State) : ∃ e, s.alarmReport.boot.appends = s.boot.appends ++ [e] ∧ e.kind = 6 := by
  have reported : ((s.logEvent 2 0 0xFFFF (w32 (alarmBits s)) 0).raiseManagers evAlarm).boot = s.boot :=
    only_of_blank (ps := [.host, .health]) (by simp) .boot (by decide)
  rw [State.alarmReport, State.irq_only _ .boot (by decide), State.requestAppend_appends, reported]
  exact ⟨_, rfl, rfl⟩

/-- What an alarm does once the keys are erased, while the G9 runs and no flow context stands. -/
def State.afterErasure (s : State) : State := s.forgetKeys.failImports.failReads.alarmReport

theorem State.afterErasure_only (s : State) : OnlyChanges [.sys, .host, .ftl, .media, .str, .disp, .boot, .health] s s.afterErasure := by
  have forgets : OnlyChanges [.ftl, .disp] s s.forgetKeys := only_of_blank (s.forgetKeys_blank (by simp))
  exact (forgets.mono (by decide)).trans (((State.failImports_only _).mono (by decide)).trans
    (((State.failReads_only _).mono (by decide)).trans ((State.alarmReport_only _).mono (by decide))))

theorem State.afterErasure_slots (s : State) : ∀ e ∈ s.afterErasure.ftl.slots, e.2.key = [] := by
  have slots : s.afterErasure.ftl.slots = s.forgetKeys.ftl.slots := calc
    s.afterErasure.ftl.slots = s.forgetKeys.failImports.failReads.ftl.slots :=
      congrArg Ftl.slots (State.alarmReport_only _ .ftl (by decide))
    _ = s.forgetKeys.failImports.ftl.slots := State.failReads_slots _
    _ = s.forgetKeys.ftl.slots := congrArg Ftl.slots (State.failImports_only _ .ftl (by decide))
  intro e he
  rw [slots] at he
  obtain ⟨x, -, rfl⟩ := List.mem_map.mp he
  rfl

theorem State.afterErasure_cfg (s : State) : s.afterErasure.health.cfg = s.health.cfg.filter (fun c => c.importer.isNone) := by
  rw [State.afterErasure, State.alarmReport_cfg, State.failReads_cfg, State.failImports_cfg]
  rfl

theorem State.afterErasure_appends (s : State) :
    ∃ e, s.afterErasure.boot.appends = s.boot.appends.filter (fun a => a.importer.isNone) ++ [e] ∧ e.kind = 6 := by
  obtain ⟨e, appended, kind⟩ := s.forgetKeys.failImports.failReads.alarmReport_appends
  refine ⟨e, ?_, kind⟩
  rw [State.afterErasure, appended, State.failReads_only _ .boot (by decide), State.failImports_appends]
  rfl

theorem State.alarmReport_phase (s : State) : s.alarmReport.sys.phase = s.sys.phase := by
  have reported (e : Append) : (((s.logEvent 2 0 0xFFFF (w32 (alarmBits s)) 0).raiseManagers evAlarm).requestAppend e).sys = s.sys :=
    only_of_blank (ps := [.host, .media, .boot, .health]) (by simp) .sys (by decide)
  simp only [State.alarmReport, State.irq_sys, reported]

/-- While the G9 runs and no flow context stands, an alarm that is not of the temperature erases the keys, fails and reports. -/
theorem State.alarm_of_running {s : State} {a : AlarmCause} (hrun : s.sys.phase = .running) (hflows : s.disp.flows = []) (ha : a ≠ .overtemp) :
    s.alarm a = (s.eraseKeys a).afterErasure := by
  have noFlows : (s.eraseKeys a).forgetKeys.failImports.disp.flows = [] :=
    (congrArg Disp.flows (State.failImports_only _ .disp (by decide))).trans hflows
  have running : (s.eraseKeys a).forgetKeys.failImports.failReads.alarmReport.sys.phase = .running := by
    rw [State.alarmReport_phase, State.failReads_only _ .sys (by decide), State.failImports_only _ .sys (by decide)]
    exact hrun
  simp [State.alarm, State.afterErasure, noFlows, running, ha]

/-! ## The alarm's command (R297, R299) -/

theorem State.countMismatch_only (s : State) (a : AlarmCause) : OnlyChanges [.regs] s (s.countMismatch a) :=
  only_of_blank (s.countMismatch_blank a (by simp))

theorem State.cnt_countMismatch (s : State) (a : AlarmCause) :
    (s.countMismatch a).cnt (rSeaCount 3) = if a = .dupMismatch ∨ a = .invMismatch then (s.cnt (rSeaCount 3) + 1) % 2 ^ 64
      else s.cnt (rSeaCount 3) := by
  cases a <;> simp [State.countMismatch]

theorem exec_alarm {s : State} {a : AlarmCause} (hoff : s.sys.phase ≠ .off) (hhold : s.sys.phase ≠ .hold) (hcan : alarmCan s a = true) :
    exec (.alarm a) s = .next ((s.countMismatch a).alarm a) := by
  simp [exec, execAlarm, hoff, hhold, hcan]

theorem alarm_ignored (s : State) (a : AlarmCause) (h : s.sys.phase = .off ∨ alarmCan s a = false) : exec (.alarm a) s = .next s := by
  rcases h with off | cannot
  · simp [exec, execAlarm, off]
  · simp [exec, execAlarm, cannot]

theorem checkSet_iff (s : State) (k : Nat) :
    checkSet s k = true ↔ ∃ c, c < 3 ∧ s.regFld rSeaFaultCfg (2 * c + 1) (2 * c) = k := by
  simp [checkSet]

theorem State.eraseKeys_countMismatch (s : State) (a : AlarmCause) : (s.countMismatch a).eraseKeys a = (s.eraseKeys a).countMismatch a := by
  cases a <;> rfl

theorem alarm_erases (s : State) (a : AlarmCause) (hrun : s.sys.phase = .running) (hcan : alarmCan s a = true) (hflows : s.disp.flows = [])
    (ha : a ≠ .overtemp) :
    Completes (.alarm a) s fun t => t.sea = (s.eraseKeys a).sea ∧ t.dgs = (s.eraseKeys a).dgs ∧
      (∀ i, (t.xts i).key = [] ∧ (t.xts i).st ≠ .loaded) ∧ (∀ i, (t.wrapSlot i).key = []) ∧ a ∈ t.sea.alarms ∧
      (∀ e ∈ t.ftl.slots, e.2.key = []) ∧ t.health.cfg = s.health.cfg.filter (fun c => c.importer.isNone) ∧
      (∃ e, t.boot.appends = s.boot.appends.filter (fun a => a.importer.isNone) ++ [e] ∧ e.kind = 6) := by
  have counted := s.countMismatch_only a
  obtain ⟨xtsErased, wrapErased, -, -, recorded, -, -⟩ := eraseKeys_erases s a
  have runs := exec_alarm (s := s) (a := a) (by simp [hrun]) (by simp [hrun]) hcan
  rw [State.alarm_of_running ((congrArg Sys.phase (counted .sys (by decide))).trans hrun)
    ((congrArg Disp.flows (counted .disp (by decide))).trans hflows) ha] at runs
  have after := State.afterErasure_only ((s.countMismatch a).eraseKeys a)
  have erased := (s.eraseKeys a).countMismatch_only a
  rw [← State.eraseKeys_countMismatch] at erased
  have sea := (after .sea (by decide)).trans (erased .sea (by decide))
  refine ⟨_, runs, sea, (after .dgs (by decide)).trans (erased .dgs (by decide)), fun i => ?_, fun i => ?_, ?_,
    State.afterErasure_slots _, ?_, ?_⟩
  · rw [State.xts_of_sea sea]
    exact xtsErased i
  · rw [State.wrapSlot_of_sea sea]
    exact (wrapErased i).1
  · rw [sea]
    exact recorded
  · rw [State.afterErasure_cfg, erased .health (by decide)]
    rfl
  · obtain ⟨e, appended, kind⟩ := State.afterErasure_appends ((s.countMismatch a).eraseKeys a)
    exact ⟨e, by rw [appended, erased .boot (by decide)]; rfl, kind⟩

/-- Settles O21: what the erasure of the keys leaves, what an alarm does after it, and when a mismatch is an alarm. -/
theorem alarmErasesKeys : Obligations.AlarmErasesKeys := by
  unfold Obligations.AlarmErasesKeys
  exact ⟨eraseKeys_erases, alarm_erases,
    fun s a hoff hhold hcan => ⟨exec_alarm hoff hhold hcan, s.cnt_countMismatch a, s.countMismatch_only a⟩, alarm_ignored,
    fun s => ⟨checkSet_iff s 1, checkSet_iff s 2⟩⟩

/-! ## What the slots read after each operation (R274, R277, R292) -/

theorem State.slotOf_of_tables {s t : State} (hxts : t.sea.xts = s.sea.xts) (hwrap : t.sea.wrap = s.sea.wrap) (use i : Nat) :
    t.slotOf use i = s.slotOf use i := by
  simp only [State.slotOf, State.xts, State.wrapSlot, hxts, hwrap]

theorem State.slotOf_of_sea {s t : State} (h : t.sea = s.sea) (use i : Nat) : t.slotOf use i = s.slotOf use i :=
  State.slotOf_of_tables (congrArg Sea.xts h) (congrArg Sea.wrap h) use i

theorem State.slotOf_setSlot (s : State) (use i j : Nat) (k : KeySlot) :
    (s.setSlot use i k).slotOf use j = if j = i then k else s.slotOf use j := by
  by_cases h : use = 4
  · subst h
    exact Tbl.getD_put _ _ _ _ _
  · rw [State.setSlot, if_neg h, State.slotOf, if_neg h, State.slotOf, if_neg h]
    exact Tbl.getD_put _ _ _ _ _

theorem State.wrapSlot_setWrap (s : State) (i j : Nat) (k : KeySlot) :
    (s.setWrap i k).wrapSlot j = if j = i then k else s.wrapSlot j := Tbl.getD_put _ _ _ _ _

theorem State.slotOf_four (s : State) (i : Nat) : s.slotOf 4 i = s.wrapSlot i := rfl

/-- The cipher's caches are no part of the slots. -/
theorem State.slotOf_uncache (s : State) (use slot u i : Nat) : (s.uncache use slot).slotOf u i = s.slotOf u i :=
  State.slotOf_of_tables rfl rfl u i

theorem State.cfgWrite_sea (s : State) (c : CfgWrite) : (s.cfgWrite c).sea = s.sea :=
  only_of_blank (s.cfgWrite_blank (ps := [.media, .health]) c (by simp)) .sea (by decide)

/-- The nonce log's records are no part of the slots. -/
theorem Sea.nonceRecord_tables (e : Sea) (r : NonceRec) : (e.nonceRecord r).xts = e.xts ∧ (e.nonceRecord r).wrap = e.wrap := by
  unfold Sea.nonceRecord
  extract_lets log e1 fresh
  split <;> exact ⟨rfl, rfl⟩

/-- A slot after a key is loaded into it, DEVICE-bound: a wrap slot takes the next epoch (R292). -/
def State.loadedSlot (s : State) (use i : Nat) (key : List Byte) : KeySlot :=
  let k := { s.slotOf use i with
    st := .loaded, credential := false, key := key, stored := some (kwWrap (bytesOf 32 Config.deviceKek) key) }
  if use = 4 then { k with epoch := s.sea.epochMax + 1, next := 0, reservedTo := 0, logTarget := none } else k

theorem State.slotOf_loadSlot (s : State) (use i j : Nat) (key : List Byte) :
    (s.loadSlot use i key).slotOf use j = if j = i then s.loadedSlot use i key else s.slotOf use j := by
  by_cases h : use = 4
  · subst h
    have wrap : (s.loadSlot 4 i key).sea.wrap = (s.setWrap i (s.loadedSlot 4 i key)).sea.wrap := (Sea.nonceRecord_tables _ _).2
    rw [State.slotOf_four, State.slotOf_four, State.wrapSlot, wrap]
    exact s.wrapSlot_setWrap i j _
  · have loads : s.loadSlot use i key = s.setSlot use i (s.loadedSlot use i key) := by
      simp [State.loadSlot, State.setSlot, State.loadedSlot, h]
    rw [loads, State.slotOf_setSlot]

/-- R274, R275: the key is loaded, and stored wrapped under the device's key. -/
theorem State.loadedSlot_holds (s : State) (use i : Nat) (key : List Byte) :
    (s.loadedSlot use i key).st = .loaded ∧ (s.loadedSlot use i key).owner = (s.slotOf use i).owner ∧ (s.loadedSlot use i key).key = key ∧
      (s.loadedSlot use i key).credential = false ∧
      (s.loadedSlot use i key).stored = some (kwWrap (bytesOf 32 Config.deviceKek) key) := by
  unfold State.loadedSlot
  split <;> exact ⟨rfl, rfl, rfl, rfl, rfl⟩

/-! ## Import keys (R277) -/

theorem getImportKey_makes (s : State) (w : Who) (hready : s.adminReady w = true) :
    ∃ (u : State) (bs : List Byte), exec (.getImportKey w) s = .next ((u.dataOut w bs).admin w stOk 0) ∧
      (∃ x, u.sea.importKeys = s.sea.importKeys ++ [x] ∧ x.id = s.host.nextImport % 2 ^ 32 ∧ x.fn = w.fn) ∧
      u.host.nextImport = s.host.nextImport + 1 ∧ OnlyChanges [.host, .sea] s u := by
  let drawn := (s.random 64).2.onHost fun h => { h with nextImport := h.nextImport + 1 }
  let body := importKeyBytes (s.random 64).1 (s.host.nextImport % 2 ^ 32)
  let made : ImportKey := ⟨s.host.nextImport % 2 ^ 32, w.fn, (s.random 64).1⟩
  refine ⟨drawn.onSea fun e => { e with importKeys := e.importKeys ++ [made] }, body ++ drawn.aliasSign body, ?_, ⟨made, rfl, rfl, rfl⟩, rfl,
    only_of_blank (by simp [drawn])⟩
  simp only [exec, execGetImportKey, hready]
  rfl

theorem importKeyExpiry_drops (s : State) (id : Nat) : Completes (.importKeyExpiry id) s fun t =>
    (∀ k ∈ t.sea.importKeys, k.id ≠ id) ∧ (∀ k ∈ s.sea.importKeys, k.id ≠ id → k ∈ t.sea.importKeys) ∧
    OnlyChanges [.sea] s t := by
  refine ⟨s.onSea fun e => { e with importKeys := e.importKeys.filter fun k => k.id ≠ id }, rfl, fun k hk => ?_, fun k hk hid => ?_,
    only_of_blank (by simp)⟩
  · simpa using (List.mem_filter.mp hk).2
  · exact List.mem_filter.mpr ⟨hk, by simpa using hid⟩

@[simp] theorem State.appendRoom_onSea (s : State) (f : Sea → Sea) : (s.onSea f).appendRoom = s.appendRoom := rfl

@[simp] theorem epochSpent_onSea (s : State) (f : Sea → Sea) (use : Nat) (h : (f s.sea).epochMax = s.sea.epochMax) :
    epochSpent (s.onSea f) use = epochSpent s use := by
  rw [epochSpent, State.onSea_sea, h, epochSpent]

/-- An import key that a record names is used up. -/
def State.importKeySpent (s : State) (k : ImportKey) : State :=
  s.onSea fun e => { e with importKeys := e.importKeys.filter fun x => x ≠ k }

/-- An IMPORT whose record names an import key, by the key that it unwraps. -/
def State.importAnswer (s : State) (w : Who) (use slot : Nat) : Option (List Byte) → State
  | none => s.admin w stTagFail 0
  | some key =>
    if halvesEqual use key then s.admin w stInvalidField 0
    else s.cfgWrite (.append (slotAppend s 1 use slot (.loadKey w use slot key)))

theorem State.importAnswer_only (s : State) (w : Who) (use slot : Nat) (key : Option (List Byte)) :
    OnlyChanges [.host, .media, .health] s (s.importAnswer w use slot key) := by
  refine only_of_blank ?_
  cases key with
  | none => simp [State.importAnswer]
  | some key =>
    simp only [State.importAnswer]
    split <;> simp

section
variable {s : State} {w : Who} {data : List Byte} {k : ImportKey} (hlen : data.length = 1272)
  (hslot : s.slotAllowed w.fn (leAt data 2 1) (leAt data 0 2) = true) (hkeyLen : leAt data 3 1 = slotKeyLen (leAt data 2 1))
  (hreserved : importReservedOk data (leAt data 3 1) = true) (hepoch : epochSpent s (leAt data 2 1) = false) (hroom : s.appendRoom = true)
  (hk : (s.sea.importKeys.find? fun k => k.id = leAt data 4 4 && k.fn = w.fn) = some k)
include hlen hslot hkeyLen hreserved hepoch hroom hk

theorem State.importSlot_answers : s.importSlot w data =
    (s.importKeySpent k).importAnswer w (leAt data 2 1) (leAt data 0 2) (importedKey k.secret data (leAt data 3 1)) := by
  simp only [State.importSlot, hk]
  cases importedKey k.secret data (leAt data 3 1) <;>
    simp [State.importAnswer, State.importKeySpent, hlen, hslot, ← hkeyLen, hreserved, hepoch, hroom]

theorem importKey_spends (hready : s.adminReady w = true) : Completes (.importKey w data) s fun t =>
    (∀ x ∈ t.sea.importKeys, x ≠ k) ∧
    (∀ key, importedKey k.secret data (leAt data 3 1) = some key → halvesEqual (leAt data 2 1) key = false →
      (∀ use i, t.slotOf use i = s.slotOf use i) ∧
      ∃ a, t.health.cfg = s.health.cfg ++ [.append a] ∧ a.kind = 4 ∧ a.cause = 1 ∧
        a.then_ = .loadKey w (leAt data 2 1) (leAt data 0 2) key) ∧
    OnlyChanges [.sea, .media, .health, .host] s t := by
  have runs : exec (.importKey w data) s = .next (s.importSlot w data) := by simp [exec, execImportKey, hready]
  rw [State.importSlot_answers hlen hslot hkeyLen hreserved hepoch hroom hk] at runs
  have answered := (s.importKeySpent k).importAnswer_only w (leAt data 2 1) (leAt data 0 2) (importedKey k.secret data (leAt data 3 1))
  have sea := answered .sea (by decide)
  have spent : OnlyChanges [.sea] s (s.importKeySpent k) := only_of_blank (by simp [State.importKeySpent])
  refine ⟨_, runs, fun x hx => ?_, fun key hkey hhalves => ⟨fun use i => ?_, ?_⟩, (spent.mono (by decide)).trans (answered.mono (by decide))⟩
  · rw [sea] at hx
    simpa using (List.mem_filter.mp hx).2
  · rw [State.slotOf_of_sea sea]
    exact State.slotOf_of_tables rfl rfl use i
  · rw [hkey, State.importAnswer, if_neg (by simp [hhalves]), State.cfgWrite_cfg]
    exact ⟨_, rfl, rfl, rfl, rfl⟩

end

/-! ## GENERATE and CLEAR (R277, R303) -/

/-- The ledger record of a slot operation waits for the configuration area. -/
theorem State.slotDone_cfg (s : State) (w : Who) (cause use slot : Nat) :
    ∃ a, (s.slotDone w cause use slot).health.cfg = s.health.cfg ++ [.append a] ∧ a.kind = 4 ∧ a.cause = cause ∧
      a.then_ = .complete w stOk 0 :=
  ⟨_, s.cfgWrite_cfg _, rfl, rfl, rfl⟩

theorem State.slotDone_sea (s : State) (w : Who) (cause use slot : Nat) : (s.slotDone w cause use slot).sea = s.sea := s.cfgWrite_sea _

theorem State.slotDone_only (s : State) (w : Who) (cause use slot : Nat) : OnlyChanges [.media, .health] s (s.slotDone w cause use slot) :=
  only_of_blank (s.cfgWrite_blank _ (by simp))

theorem generate_loads (s : State) (w : Who) (slot use : Nat) (hready : s.adminReady w = true) (hslot : s.slotAllowed w.fn use slot = true)
    (hepoch : epochSpent s use = false) (hroom : s.appendRoom = true) : Completes (.generate w slot use) s fun t =>
      (t.slotOf use slot).st = .loaded ∧ (t.slotOf use slot).owner = (s.slotOf use slot).owner ∧
      (t.slotOf use slot).key = (s.random (slotKeyLen use)).1 ∧ (t.slotOf use slot).credential = false ∧
      (t.slotOf use slot).stored = some (kwWrap (bytesOf 32 Config.deviceKek) (s.random (slotKeyLen use)).1) ∧
      (∀ i, i ≠ slot → t.slotOf use i = s.slotOf use i) ∧
      (∃ a, t.health.cfg = s.health.cfg ++ [.append a] ∧ a.kind = 4 ∧ a.cause = 2 ∧ a.then_ = .complete w stOk 0) ∧
      OnlyChanges [.sea, .media, .health] s t := by
  let drawn := (s.random (slotKeyLen use)).2
  let key := (s.random (slotKeyLen use)).1
  let u := (drawn.loadSlot use slot key).uncache use slot
  have runs : exec (.generate w slot use) s = .next (u.slotDone w 2 use slot) := by
    simp [exec, execGenerate, hready, hslot, hepoch, hroom, u, drawn, key]
  have loads : OnlyChanges [.sea, .media] s u := only_of_blank (by simp [u, drawn])
  have slots (i : Nat) : (u.slotDone w 2 use slot).slotOf use i = if i = slot then drawn.loadedSlot use slot key else s.slotOf use i := by
    rw [State.slotOf_of_sea (u.slotDone_sea w 2 use slot), State.slotOf_uncache, State.slotOf_loadSlot]
    rfl
  obtain ⟨st, owner, holds, credential, stored⟩ := drawn.loadedSlot_holds use slot key
  refine ⟨_, runs, ?_⟩
  beta_reduce
  rw [slots slot, if_pos rfl]
  refine ⟨st, owner, holds, credential, stored, fun i hi => by rw [slots, if_neg hi], ?_,
    (loads.mono (by decide)).trans ((u.slotDone_only w 2 use slot).mono (by decide))⟩
  rw [← loads .health (by decide)]
  exact u.slotDone_cfg w 2 use slot

theorem clear_empties (s : State) (w : Who) (slot use : Nat) (hready : s.adminReady w = true) (hslot : s.slotAllowed w.fn use slot = true)
    (hroom : s.appendRoom = true) : ∃ u : State,
      exec (.clear w slot use) s = .next ((u.failSlotUsers (Stage.usesSlot use slot)).slotDone w 3 use slot) ∧
      (u.slotOf use slot).st = .empty ∧ (u.slotOf use slot).key = [] ∧ (u.slotOf use slot).stored = none ∧
      (u.slotOf use slot).owner = (s.slotOf use slot).owner ∧ OnlyChanges [.sea] s u := by
  refine ⟨(s.setSlot use slot (s.slotOf use slot).cleared).uncache use slot, ?_, ?_⟩
  · simp [exec, execClear, hready, hslot, hroom]
  · rw [State.slotOf_uncache, State.slotOf_setSlot, if_pos rfl]
    exact ⟨rfl, rfl, rfl, rfl, only_of_blank (by simp)⟩

/-! ## The record of an IMPORT (R303) -/

/-- The ledger with the oldest append's record, and the next append begun. -/
def State.appendedNext (s : State) (a : Append) (rest : List Append) : State :=
  if rest.isEmpty then s.appended a rest else (s.appended a rest).sysBegin .ledger

theorem State.appended_only (s : State) (a : Append) (rest : List Append) : OnlyChanges [.media, .boot] s (s.appended a rest) :=
  only_of_blank ((State.onBoot_blank _ _ (by simp) rfl rfl rfl).trans (by simp))

theorem State.appendedNext_only (s : State) (a : Append) (rest : List Append) : OnlyChanges [.media, .boot] s (s.appendedNext a rest) := by
  unfold State.appendedNext
  split
  · exact s.appended_only a rest
  · exact (s.appended_only a rest).trans ((State.sysBegin_only _ _).mono (by decide))

theorem exec_ledgerAppendDone_true {s : State} {a : Append} {rest : List Append} (hrun : s.running = true) (happ : s.boot.appends = a :: rest)
    (hgo : sysWaits s .ledger = false) : exec (.ledgerAppendDone true) s = .next ((s.appendedNext a rest).afterAppend a) := by
  have running : s.sys.phase = .running := by simpa [State.running] using hrun
  simp only [exec, execLedgerAppendDone, happ, running, hgo]
  rfl

theorem ledgerAppendDone_loads_key (s : State) (a : Append) (rest : List Append) (w : Who) (use slot : Nat) (key : List Byte)
    (hrun : s.running = true) (happ : s.boot.appends = a :: rest) (hgo : sysWaits s .ledger = false)
    (hthen : a.then_ = .loadKey w use slot key) :
    ∃ u : State, exec (.ledgerAppendDone true) s = .next (u.admin w stOk 0) ∧ (u.slotOf use slot).st = .loaded ∧
      (u.slotOf use slot).key = key ∧ (u.slotOf use slot).stored = some (kwWrap (bytesOf 32 Config.deviceKek) key) ∧
      (∀ i, i ≠ slot → u.slotOf use i = s.slotOf use i) ∧ OnlyChanges [.sea, .media, .boot] s u := by
  let made := s.appendedNext a rest
  have appends : OnlyChanges [.media, .boot] s made := s.appendedNext_only a rest
  have slots (i : Nat) : ((made.loadSlot use slot key).uncache use slot).slotOf use i =
      if i = slot then made.loadedSlot use slot key else s.slotOf use i := by
    rw [State.slotOf_uncache, State.slotOf_loadSlot, State.slotOf_of_sea (appends .sea (by decide))]
  obtain ⟨st, -, holds, -, stored⟩ := made.loadedSlot_holds use slot key
  refine ⟨(made.loadSlot use slot key).uncache use slot, ?_, ?_⟩
  · rw [exec_ledgerAppendDone_true hrun happ hgo, State.afterAppend, hthen]
  · rw [slots slot, if_pos rfl]
    exact ⟨st, holds, stored, fun i hi => by rw [slots, if_neg hi], (appends.mono (by decide)).trans (only_of_blank (by simp))⟩

/-- Settles O19: a lemma for each command on import keys and slots, and for the record that ends an IMPORT. -/
theorem keySlotCommands : Obligations.KeySlotCommands := by
  unfold Obligations.KeySlotCommands
  exact ⟨getImportKey_makes, importKeyExpiry_drops, generate_loads,
    fun _ _ _ _ hready hlen hslot hkeyLen hreserved hepoch hroom hk =>
      importKey_spends hlen hslot hkeyLen hreserved hepoch hroom hk hready,
    ledgerAppendDone_loads_key, clear_empties⟩

/-! ## RESTORE and SLOT_STATUS (R277, R278) -/

theorem State.restored_of_stored {s : State} {use i : Nat} {k : List Byte} (hk : (s.slotOf use i).stored = some k) :
    s.restored use i = { s.slotOf use i with st := .loaded, key := (kwUnwrap (s.slotKek use i) k).getD [] } := by
  simp [State.restored, hk]

/-- The records of a RESTORE of one slot are one, which completes the command. -/
theorem restoreAppends_singleton (s : State) (w : Who) (x : Nat × Nat) :
    restoreAppends s w [x] = [slotAppend s 4 x.1 x.2 (.complete w stOk 0)] := rfl

theorem restore_loads (s : State) (w : Who) (x : Nat × Nat) (k : List Byte) (hready : s.adminReady w = true) (hmgr : isManager w.fn = true)
    (halarm : alarmActive s = false) (hroom : s.appendRoom = true) (herased : erasedKeySlots s (portOfFn w.fn) = [x])
    (hk : (s.slotOf x.1 x.2).stored = some k) : Completes (.restore w) s fun t =>
      (t.slotOf x.1 x.2).st = .loaded ∧ (t.slotOf x.1 x.2).key = (kwUnwrap (s.slotKek x.1 x.2) k).getD [] ∧
      (∃ a, t.health.cfg = s.health.cfg ++ [.append a] ∧ a.kind = 4 ∧ a.cause = 4 ∧ a.then_ = .complete w stOk 0) ∧
      OnlyChanges [.sea, .media, .health] s t := by
  let u := s.setSlot x.1 x.2 (s.restored x.1 x.2)
  have runs : exec (.restore w) s = .next (u.slotDone w 4 x.1 x.2) := by
    simp [exec, execRestore, hready, hmgr, halarm, hroom, herased, restoreAppends_singleton, State.slotDone, u]
  have loads : OnlyChanges [.sea] s u := only_of_blank (by simp [u])
  have slot : (u.slotDone w 4 x.1 x.2).slotOf x.1 x.2 = s.restored x.1 x.2 := by
    rw [State.slotOf_of_sea (u.slotDone_sea w 4 x.1 x.2), State.slotOf_setSlot, if_pos rfl]
  refine ⟨_, runs, ?_⟩
  beta_reduce
  rw [slot, State.restored_of_stored hk]
  rw [← loads .health (by decide)]
  exact ⟨rfl, rfl, u.slotDone_cfg w 4 x.1 x.2, (loads.mono (by decide)).trans ((u.slotDone_only w 4 x.1 x.2).mono (by decide))⟩

/-- Every slot that SLOT_STATUS lists takes four bytes. -/
theorem slotStatus_length (s : State) (f : Fn) : (slotStatus s f).length % 4 = 0 := by
  have four (t : Tbl KeySlot) (g : Nat × KeySlot → Nat) : (t.flatMap fun e => leBytes 4 (g e)).length = 4 * t.length := by
    simp [List.length_flatMap, leBytes_length, Nat.mul_comm]
  simp only [slotStatus, List.length_append, four]
  omega

theorem slotStatus_answers (s : State) (w : Who) (hready : s.adminReady w = true) :
    exec (.slotStatus w) s = .next ((s.dataOut w (slotStatus s w.fn)).admin w stOk 0) := by
  simp [exec, execSlotStatus, hready]

/-! ## The nonce log (R293, R296) -/

/-- A record of a log that is not seven eighths full takes the next sequence number. -/
theorem Sea.nonceRecord_of_room (e : Sea) (r : NonceRec) (h : e.nonceLog.length < 458751) :
    (e.nonceRecord r).lseq = e.lseq + 1 ∧ (e.nonceRecord r).nonceLog = e.nonceLog ++ [{ r with lseq := e.lseq + 1 }] := by
  have room : (e.nonceLog ++ e.numbered [r]).length < 458752 := by
    simp [Sea.numbered]
    omega
  unfold Sea.nonceRecord
  extract_lets log e1 fresh
  rw [if_pos room]
  exact ⟨rfl, rfl⟩

/-- The check of a slot's counters may begin a log write; what the log and the other slots hold stays. -/
theorem State.nonceCheck_sea (s : State) (slot need : Nat) : (s.nonceCheck slot need).sea = s.sea ∨
    ∃ target, (s.nonceCheck slot need).sea = (s.setWrap slot { s.wrapSlot slot with logTarget := target }).sea := by
  unfold State.nonceCheck
  extract_lets k
  split
  · exact .inr ⟨_, State.sysBegin_only _ _ .sea (by decide)⟩
  · exact .inl rfl

theorem State.nonceCheck_log (s : State) (slot need : Nat) :
    (s.nonceCheck slot need).sea.lseq = s.sea.lseq ∧ (s.nonceCheck slot need).sea.nonceLog = s.sea.nonceLog := by
  rcases s.nonceCheck_sea slot need with same | ⟨target, set⟩
  · rw [same]
    exact ⟨rfl, rfl⟩
  · rw [set]
    exact ⟨rfl, rfl⟩

theorem State.wrapSlot_nonceCheck_self (s : State) (slot need : Nat) :
    ∃ target, (s.nonceCheck slot need).wrapSlot slot = { s.wrapSlot slot with logTarget := target } := by
  rcases s.nonceCheck_sea slot need with same | ⟨target, set⟩
  · exact ⟨_, State.wrapSlot_of_sea same slot⟩
  · exact ⟨target, by rw [State.wrapSlot_of_sea set, State.wrapSlot_setWrap, if_pos rfl]⟩

theorem State.wrapSlot_nonceCheck_other (s : State) (slot need : Nat) {i : Nat} (hi : i ≠ slot) :
    (s.nonceCheck slot need).wrapSlot i = s.wrapSlot i := by
  rcases s.nonceCheck_sea slot need with same | ⟨target, set⟩
  · exact State.wrapSlot_of_sea same i
  · rw [State.wrapSlot_of_sea set, State.wrapSlot_setWrap, if_neg hi]

/-- The record that reserves a slot's counters up to a limit is programmed. -/
def State.nonceProgrammed (s : State) (slot limit : Nat) : State :=
  ((s.setWrap slot { s.wrapSlot slot with reservedTo := limit, logTarget := none }).areaWrite areaNonce).onSea fun e =>
    e.nonceRecord { slot := slot, kind := 0, epoch := (s.wrapSlot slot).epoch, reservedTo := limit, lseq := 0 }

theorem State.wrapSlot_nonceProgrammed (s : State) (slot limit i : Nat) : (s.nonceProgrammed slot limit).wrapSlot i =
    if i = slot then { s.wrapSlot slot with reservedTo := limit, logTarget := none } else s.wrapSlot i := by
  have wrap : (s.nonceProgrammed slot limit).sea.wrap =
      (s.setWrap slot { s.wrapSlot slot with reservedTo := limit, logTarget := none }).sea.wrap := (Sea.nonceRecord_tables _ _).2
  rw [State.wrapSlot, wrap]
  exact s.wrapSlot_setWrap slot i _

theorem nonceLogWriteDone_raises (s : State) (slot x : Nat) (hrun : s.running = true) (hgo : sysWaits s (.nonce slot) = false)
    (hx : (s.wrapSlot slot).logTarget = some x) : Completes (.nonceLogWriteDone slot) s fun t =>
      (t.wrapSlot slot).reservedTo = x ∧ (t.wrapSlot slot).next = (s.wrapSlot slot).next ∧ (t.wrapSlot slot).key = (s.wrapSlot slot).key ∧
      (s.sea.nonceLog.length < 458751 → t.sea.lseq = s.sea.lseq + 1 ∧
        ∃ r ∈ t.sea.nonceLog, r.slot = slot ∧ r.kind = 0 ∧ r.reservedTo = x) ∧ (∀ i, i ≠ slot → t.wrapSlot i = s.wrapSlot i) ∧
      OnlyChanges [.media, .sea] s t := by
  let u := s.nonceProgrammed slot x
  have runs : exec (.nonceLogWriteDone slot) s = .next (u.nonceCheck slot 0) := by
    simp [exec, execNonceLogWriteDone, hrun, hgo, hx, u, State.nonceProgrammed]
  obtain ⟨target, checked⟩ := u.wrapSlot_nonceCheck_self slot 0
  rw [State.wrapSlot_nonceProgrammed, if_pos rfl] at checked
  obtain ⟨lseq, log⟩ := u.nonceCheck_log slot 0
  refine ⟨_, runs, ?_⟩
  beta_reduce
  rw [checked, lseq, log]
  refine ⟨rfl, rfl, rfl, fun room => ?_, fun i hi => ?_, only_of_blank (by simp [u, State.nonceProgrammed])⟩
  · obtain ⟨next, recorded⟩ := Sea.nonceRecord_of_room
      (s.setWrap slot { s.wrapSlot slot with reservedTo := x, logTarget := none }).sea
      { slot := slot, kind := 0, epoch := (s.wrapSlot slot).epoch, reservedTo := x, lseq := 0 } room
    exact ⟨next, _, (congrArg _ recorded).mpr List.mem_concat_self, rfl, rfl, rfl⟩
  · rw [u.wrapSlot_nonceCheck_other slot 0 hi, State.wrapSlot_nonceProgrammed, if_neg hi]

/-- Settles O20: a lemma for RESTORE, for SLOT_STATUS and for the nonce log's write. -/
theorem restoreAndNonces : Obligations.RestoreAndNonces := by
  unfold Obligations.RestoreAndNonces
  exact ⟨restore_loads, fun s w hready => ⟨slotStatus_answers s w hready, slotStatus_length s w.fn⟩, nonceLogWriteDone_raises⟩

/-! ## The Opal side of a port (R284) -/

@[simp] theorem State.opal_onOpal_self (s : State) (p : Port) (g : Opal → Opal) : (s.onOpal p g).opal p = g (s.opal p) := by cases p <;> rfl

@[simp] theorem State.xts_onOpal (s : State) (p : Port) (g : Opal → Opal) (i : Nat) : (s.onOpal p g).xts i = s.xts i := by cases p <;> rfl

@[simp] theorem State.ns_onOpal (s : State) (p : Port) (g : Opal → Opal) : (s.onOpal p g).ns = s.ns := rfl

@[simp] theorem State.opal_onRange (s : State) (nsid id : Nat) (g : Range → Range) (p : Port) : (s.onRange nsid id g).opal p = s.opal p := by
  cases p <;> rfl

theorem State.opalRange_onOpal (s : State) (p : Port) (g : Opal → Opal) (q : Port) (nsid range : Nat) :
    (s.onOpal p g).opalRange q nsid range = s.opalRange q nsid range := by
  simp [State.opalRange]

/-- A method's response and the bytes that it read are gone as the next begins. -/
def State.opalAsked (s : State) (p : Port) : State := s.onOpal p fun o => { o with out := [] }

/-- The status of a method is what the port's ComID returns next. -/
def State.opalAnswered (s : State) (p : Port) (status : Nat) : State := s.onOpal p fun o => { o with response := status }

theorem State.opalAnswered_response (s : State) (p : Port) (status : Nat) : ((s.opalAnswered p status).opal p).response = status := by
  simp [State.opalAnswered]

section
variable {s t : State} {w : Who} {m : OpalMethod} {r : Nat} (hready : s.adminReady w = true) (hmgr : isManager w.fn = true)
  (hprotocol : opalProtocol m = 1) (hm : (s.opalAsked (portOfFn w.fn)).opalMethod (portOfFn w.fn) m = (t, r))
include hready hmgr hprotocol hm

theorem opalSecuritySend_keeps (hr : r = opalOk) (hkept : opalKept m = true) :
    exec (.opalSecuritySend w 1 m) s = .next ((t.opalAnswered (portOfFn w.fn) r).cfgWrite (.complete w stOk 0)) := by
  simp only [State.opalAsked] at hm
  simp [exec, execOpalSecuritySend, hready, hmgr, hprotocol, hm, hr, hkept, State.opalAnswered]

theorem opalSecuritySend_answers (hplain : r ≠ opalOk ∨ opalKept m = false) :
    exec (.opalSecuritySend w 1 m) s = .next ((t.opalAnswered (portOfFn w.fn) r).admin w stOk 0) := by
  have notKept : ¬(r = opalOk ∧ opalKept m = true) := by
    rintro ⟨ok, kept⟩
    exact hplain.elim (· ok) (by simp [kept])
  simp only [State.opalAsked] at hm
  simp [exec, execOpalSecuritySend, hready, hmgr, hprotocol, hm, notKept, State.opalAnswered]

end

/-! ## Locks (R284, R285) -/

section
variable {s : State} {p : Port} {nsid id : Nat} {n : Ns} {r : Range} (rd wr : Bool) (hrange : s.opalRange p nsid id = some (n, r))
include hrange

theorem State.opalMethod_setLocked_locks (hmay : (s.opal p).mayLock r = true) : s.opalMethod p (.setLocked nsid id rd wr) =
    (s.onRange nsid id fun r => { r with readLocked := rd, writeLocked := wr }, opalOk) := by
  simp [State.opalMethod, State.opalOn, hrange, hmay]

theorem State.opalMethod_setLocked_refuses (hmay : (s.opal p).mayLock r = false) :
    s.opalMethod p (.setLocked nsid id rd wr) = (s, opalNotAuthorized) := by
  simp [State.opalMethod, State.opalOn, hrange, hmay]

end

theorem State.mayLock_opalAsked (s : State) (p : Port) (r : Range) : ((s.opalAsked p).opal p).mayLock r = (s.opal p).mayLock r := by
  rw [State.opalAsked, State.opal_onOpal_self]
  rfl

theorem setLocked_locks (s : State) (w : Who) (nsid id : Nat) (rd wr : Bool) (n : Ns) (r : Range) (hready : s.adminReady w = true)
    (hmgr : isManager w.fn = true) (hrange : s.opalRange (portOfFn w.fn) nsid id = some (n, r))
    (hmay : (s.opal (portOfFn w.fn)).mayLock r = true) :
    ∃ u : State, exec (.opalSecuritySend w 1 (.setLocked nsid id rd wr)) s = .next (u.cfgWrite (.complete w stOk 0)) ∧
      u.ns = s.ns.modify nsid (fun n => { n with
        ranges := n.ranges.map fun r => if r.id = id then { r with readLocked := rd, writeLocked := wr } else r }) ∧
      (u.opal (portOfFn w.fn)).response = 0 ∧ OnlyChanges [.ns, .sea] s u := by
  have locks := State.opalMethod_setLocked_locks rd wr ((s.opalRange_onOpal _ _ _ _ _).trans hrange) ((s.mayLock_opalAsked _ r).trans hmay)
  exact ⟨_, opalSecuritySend_keeps hready hmgr rfl locks rfl rfl, rfl, State.opalAnswered_response _ _ _,
    only_of_blank (by simp [State.opalAnswered])⟩

theorem setLocked_refuses (s : State) (w : Who) (nsid id : Nat) (rd wr : Bool) (n : Ns) (r : Range) (hready : s.adminReady w = true)
    (hmgr : isManager w.fn = true) (hrange : s.opalRange (portOfFn w.fn) nsid id = some (n, r))
    (hmay : (s.opal (portOfFn w.fn)).mayLock r = false) :
    ∃ u : State, exec (.opalSecuritySend w 1 (.setLocked nsid id rd wr)) s = .next (u.admin w stOk 0) ∧
      u.ns = s.ns ∧ (u.opal (portOfFn w.fn)).response = 1 ∧ OnlyChanges [.sea] s u := by
  have refuses := State.opalMethod_setLocked_refuses rd wr ((s.opalRange_onOpal _ _ _ _ _).trans hrange)
    ((s.mayLock_opalAsked _ r).trans hmay)
  exact ⟨_, opalSecuritySend_answers hready hmgr rfl refuses (.inl (by decide)), rfl, State.opalAnswered_response _ _ _,
    only_of_blank (by simp [State.opalAnswered])⟩

/-! ## Responses and the Shadow MBR (R284) -/

theorem opalSecurityReceive_answers (s : State) (w : Who) (hready : s.adminReady w = true) (hmgr : isManager w.fn = true) :
    exec (.opalSecurityReceive w 1) s = .next ((s.dataOut w (opalResponse s (portOfFn w.fn))).admin w stOk 0) := by
  simp [exec, execOpalSecurityReceive, hready, hmgr]

theorem readMbr_reads (s : State) (w : Who) (off len : Nat) (hready : s.adminReady w = true) (hmgr : isManager w.fn = true)
    (hsession : (s.opal (portOfFn w.fn)).session = true) (hinside : off + len ≤ mbrBytes) :
    ∃ u : State, exec (.opalSecuritySend w 1 (.readMbr off len)) s = .next (u.admin w stOk 0) ∧
      (u.opal (portOfFn w.fn)).out = Mem.readBytes (s.opal (portOfFn w.fn)).mbr off len ∧
      (u.opal (portOfFn w.fn)).response = 0 ∧ OnlyChanges [.sea] s u := by
  let p := portOfFn w.fn
  have reads : (s.opalAsked p).opalMethod p (.readMbr off len) =
      ((s.opalAsked p).onOpal p fun o => { o with out := Mem.readBytes (s.opal p).mbr off len }, opalOk) := by
    simp [State.opalMethod, State.tableRead, State.opalAsked, hinside, p, hsession]
  refine ⟨_, opalSecuritySend_answers hready hmgr rfl reads (.inr rfl), ?_, State.opalAnswered_response _ _ _,
    only_of_blank (by simp [State.opalAnswered, State.opalAsked])⟩
  simp [State.opalAnswered, p]

theorem mbrOver_off (s : State) (f : Fn) (n : Ns) (slba : Nat) (bs : List Byte)
    (h : (s.opal (portOfFn f)).mbrEnabled = false ∨ (s.opal (portOfFn f)).mbrDone = true) : mbrOver s f n slba bs = bs := by
  rcases h with disabled | done
  · simp [mbrOver, disabled]
  · simp [mbrOver, done]

/-- A read that ends inside the MBR table sees the table alone. -/
theorem mbrOver_on (s : State) (f : Fn) (n : Ns) (slba : Nat) (bs : List Byte) (henabled : (s.opal (portOfFn f)).mbrEnabled = true)
    (hdone : (s.opal (portOfFn f)).mbrDone = false) (hinside : slba * n.lbaSize + bs.length ≤ mbrBytes) (hsome : bs ≠ []) :
    mbrOver s f n slba bs = Mem.readBytes (s.opal (portOfFn f)).mbr (slba * n.lbaSize) bs.length := by
  have short : bs.length ≤ mbrBytes - slba * n.lbaSize := by omega
  have low : slba * n.lbaSize < mbrBytes := by
    have := List.length_pos_iff.mpr hsome
    omega
  simp [mbrOver, henabled, hdone, low, Nat.min_eq_left short, List.drop_eq_nil_of_le short]

/-! ## New keys and deallocation (R286) -/

theorem genkey_asks (s : State) (nsid range : Nat) (n : Ns) (r : Range) (hn : s.ns.find nsid = some n)
    (hr : (n.ranges.find? fun r => r.id = range) = some r) (hrun : s.running = true) (hctrl : s.up .ctrl = true)
    (hmay : (s.opal (portOfFn (s.xts r.slot).owner)).mayLock r = true) (hidle : r.rekeying = false) :
    ∃ u : State, exec (.genkey nsid range) s = .next u.rekeyAdvance ∧
      u.sea.rekeys = s.sea.rekeys ++ [⟨nsid, range, none⟩] ∧ OnlyChanges [.ns, .sea] s u := by
  refine ⟨s.askRekey nsid range none, ?_, rfl, only_of_blank (by simp)⟩
  simp [exec, execGenkey, hn, hr, hrun, hctrl, hmay, hidle]

theorem deallocationComplete_ends (s : State) (nsid range : Nat) (hrun : s.running = true) :
    Completes (.deallocationComplete nsid range) s fun t =>
      OnlyChanges [.ns] s t ∧ ∀ n r, t.ns.find nsid = some n → r ∈ n.ranges → r.id = range → r.deallocating = false := by
  refine ⟨s.onRange nsid range fun r => { r with deallocating := false }, ?_, only_of_blank (by simp), fun n r hn hr hid => ?_⟩
  · simp [exec, execDeallocationComplete, hrun]
  · rw [State.onRange, State.find_modifyNs, if_pos rfl] at hn
    obtain ⟨old, -, rfl⟩ := Option.map_eq_some_iff.mp hn
    obtain ⟨x, -, rfl⟩ := List.mem_map.mp hr
    by_cases named : x.id = range
    · rw [if_pos named]
    · rw [if_neg named] at hid
      exact absurd hid named

/-- Settles O22: a lemma for the lock that is set and the one refused, for what is received and read, and for new keys. -/
theorem opalLocking : Obligations.OpalLocking := by
  unfold Obligations.OpalLocking
  exact ⟨setLocked_locks, setLocked_refuses, fun s w hready hmgr => ⟨opalSecurityReceive_answers s w hready hmgr, rfl⟩, readMbr_reads,
    fun s f n slba bs => ⟨mbrOver_off s f n slba bs, mbrOver_on s f n slba bs⟩, genkey_asks, deallocationComplete_ends⟩

end Sys2Proof.Machine
end

section
/-! PROOFS. The statement on Key Value commands (O43): what the hash index finds after a value is put or deleted, and what each command
does once its checks have passed. -/

open Sys2Proof Sys2Proof.Machine

namespace Sys2Proof.Machine

/-! ## The hash index (R368) -/

/-- The namespace without what is stored under a key. -/
def Ns.kvWithout (n : Ns) (key : List Byte) : Ns := { n with kv := n.kv.filter fun r => r.key ≠ key }

theorem Ns.kvFind_without_self (n : Ns) (key : List Byte) : (n.kvWithout key).kvFind key = none := by
  simp [Ns.kvFind, Ns.kvWithout, List.find?_filter]

theorem Ns.kvFind_without_other (n : Ns) {key k : List Byte} (hk : k ≠ key) : (n.kvWithout key).kvFind k = n.kvFind k := by
  have same (r : KvRec) : (r.key ≠ key ∧ r.key = k) ↔ r.key = k := and_iff_right_of_imp fun h => h ▸ hk
  simp [Ns.kvFind, Ns.kvWithout, List.find?_filter, same]

theorem Ns.kvFind_put_self (n : Ns) (r : KvRec) : (n.kvPut r).kvFind r.key = some r.value := by
  have absent : (n.kvWithout r.key).kv.find? (fun e => e.key = r.key) = none := by simp [Ns.kvWithout, List.find?_filter]
  rw [Ns.kvWithout] at absent
  rw [Ns.kvFind, Ns.kvPut, List.find?_append, absent]
  simp

theorem Ns.kvFind_put_other (n : Ns) (r : KvRec) {k : List Byte} (hk : k ≠ r.key) : (n.kvPut r).kvFind k = n.kvFind k := by
  rw [← n.kvFind_without_other hk]
  simp [Ns.kvFind, Ns.kvPut, Ns.kvWithout, List.find?_append, Ne.symm hk]

/-! ## Checks (R452) -/

theorem State.ctrl_onCtrl (s : State) (f k : Fn) (g : Ctrl → Ctrl) : (s.onCtrl f g).ctrl k = if k = f then g (s.ctrl f) else s.ctrl k := by
  by_cases h : k = f
  · rw [if_pos h, h]
    exact Tbl.getD_put_self _ _ _ _
  · rw [if_neg h]
    exact congrArg (Option.getD · _) ((Tbl.find_put _ _ _ _ _).trans (if_neg h))

theorem State.hostId_asClass (s : State) (w : Who) (cls : Nat) (f : Fn) : ((s.asClass w cls).ctrl f).hostId = (s.ctrl f).hostId := by
  rw [State.asClass, State.ctrl_onCtrl]
  split
  case isTrue h => rw [h]
  case isFalse => rfl

/-- The class of a command is no part of its checks. -/
theorem State.kvGate_asClass (s : State) (w : Who) (cls : Nat) (f : Fn) (nsid : Nat) (key : List Byte) (write : Bool) :
    (s.asClass w cls).kvGate f nsid key write = s.kvGate f nsid key write := by
  have reserved (n : Ns) : (s.asClass w cls).reserved f n write = s.reserved f n write := by
    rw [State.reserved, State.hostId_asClass, State.reserved]
  simp only [State.kvGate, reserved]
  rfl

/-! ## Store, Retrieve, Exist and List (R279, R368, R452) -/

section
variable {s : State} {w : Who} {nsid : Nat} {key : List Byte} {n : Ns} (hready : s.ioReady w = true)
include hready

theorem kvStore_waits {value : List Byte} (hgate : s.kvGate w.fn nsid key true = .ok n) (hsize : value.length ≤ 2 ^ 20)
    (hwritable : readOnly s = false) (hroom : n.kvBytes - ((n.kvFind key).getD []).length + value.length ≤ n.nsze) :
    Completes (.kvStore w nsid key value false false) s fun t =>
      t.ftl = { s.ftl with waiting := s.ftl.waiting ++ [{ who := w, kind := .kv key value, nsid := nsid, slba := 0, nlb := 1 }] } ∧
      t.host = (s.asClass w 3).host ∧ OnlyChanges [.host, .ftl] s t := by
  have writable : readOnly (s.asClass w 3) = false := hwritable
  have size : ¬1048576 < value.length := Nat.not_lt.mpr hsize
  have runs : exec (.kvStore w nsid key value false false) s = .next ((s.asClass w 3).enterWrite w (.kv key value) nsid 0 1) := by
    simp [exec, execKvStore, hready, State.kvGate_asClass, hgate, size, State.storeValue, writable, Nat.not_lt.mpr hroom]
  exact ⟨_, runs, rfl, rfl, only_of_blank (by simp)⟩

theorem kvRetrieve_reads {u : State} {k : Nat} {v : List Byte} {j : ReadJob} (hgate : s.kvGate w.fn nsid key false = .ok n)
    (hv : n.kvFind key = some v) (hu : u = (s.asClass w 2).kvLookup n key true) (hmem : u.up .mem = true)
    (hj : j = { client := .host w, kind := .kv key k, nsid := nsid, slba := 0, nlb := 0, wait := 0, failed := none, second := false, again := false })
    (hseg : segBusy u ((jobNeeds u j).map (·.1)) = false) :
    exec (.kvRetrieve w nsid key k) s = .next (u.runJob j (mediaEntries u (jobNeeds u j))) := by
  subst hu hj
  simp [exec, execKvRetrieve, hready, State.kvGate_asClass, hgate, hv, hmem, hseg]

theorem kvExist_answers (hgate : s.kvGate w.fn nsid key false = .ok n) : exec (.kvExist w nsid key) s =
    .next ((s.kvLookup n key false).io w (if (n.kvFind key).isSome then stOk else stKvKeyAbsent) 0) := by
  simp [exec, execKvExist, hready, hgate]

theorem kvList_answers (hgate : s.nsGate w.fn nsid .kv = .ok n) (hsize : key.length ≤ 16) (hfree : s.reserved w.fn n false = false)
    (hbar : readBar s n 0 1 = none) : exec (.kvList w nsid key) s =
      .next ((s.dataOut w (leBytes 4 (kvKeysFrom n key).length ++ (kvKeysFrom n key).flatMap kvListEntry)).io w stOk 0) := by
  simp [exec, execKvList, hready, hgate, Nat.not_lt.mpr hsize, hfree, hbar]

end

/-- A value goes to the host from the IUs that hold it, once each of them can be read. -/
theorem State.finishKv_answers (s : State) (w : Who) (k : Nat) (key : List Byte) (n : Ns) (r : KvRec) (needs : List (Nat × BitVec 32))
    (hr : (n.kv.find? fun e => e.key = key) = some r) (hread : ∀ x ∈ needs, ∃ bs, iuBytes s x.1 x.2 = .ok bs) :
    s.finishKv w n key k needs = ((s.dataOut w ((kvBytes s n r.pieces).take k)).countRead w.fn ((kvBytes s n r.pieces).take k).length).io w
      stOk (w32 r.value.length) := by
  unfold State.finishKv
  split
  case h_1 st failed =>
    obtain ⟨x, hx, fails⟩ := List.exists_of_findSome?_eq_some failed
    obtain ⟨bs, read⟩ := hread x hx
    simp [read] at fails
  case h_2 => rw [hr]

/-! ## Delete (R368) -/

theorem State.kvFreed_only (s : State) (n : Ns) (before : List Nat) : OnlyChanges [.host, .ftl, .str, .health] s (s.kvFreed n before) :=
  only_of_blank (s.kvFreed_blank n before (by simp))

/-- The value of a key goes: from the namespace, and from the map the IUs that hold nothing else. -/
def State.kvForgotten (s : State) (nsid : Nat) (n : Ns) (key : List Byte) : State :=
  (s.onNs fun t => t.set nsid (n.kvWithout key)).kvFreed (n.kvWithout key)
    (kvIus n ((n.kv.filter fun r => r.key = key).flatMap (·.pieces)))

/-- The hot index forgets a key. -/
def State.kvUnindexed (s : State) (key : List Byte) : Option Nat → State
  | some table => s.kvIndexDelete table key
  | none => s

theorem State.kvUnindexed_only (s : State) (key : List Byte) (table : Option Nat) : OnlyChanges [.lynx] s (s.kvUnindexed key table) := by
  refine only_of_blank ?_
  cases table <;> simp [State.kvUnindexed]

theorem kvDelete_deletes (s : State) (w : Who) (nsid : Nat) (key v : List Byte) (n : Ns) (hready : s.ioReady w = true)
    (hgate : s.kvGate w.fn nsid key true = .ok n) (hwritable : readOnly s = false) (hv : n.kvFind key = some v) :
    ∃ u : State, exec (.kvDelete w nsid key) s = .next (u.io w stOk 0) ∧ OnlyChanges [.host, .ns, .ftl, .str, .lynx, .health] s u ∧
      ∃ m, u.ns.find nsid = some m ∧ m.kvFind key = none ∧ ∀ k, k ≠ key → m.kvFind k = n.kvFind k := by
  let u := (s.kvForgotten nsid n key).kvUnindexed key n.kvTable
  have freed : OnlyChanges [.host, .ftl, .str, .health] (s.onNs fun t => t.set nsid (n.kvWithout key)) (s.kvForgotten nsid n key) :=
    State.kvFreed_only _ _ _
  have unindexed : OnlyChanges [.lynx] (s.kvForgotten nsid n key) u := State.kvUnindexed_only _ _ _
  refine ⟨u, ?_, ?_, n.kvWithout key, ?_, n.kvFind_without_self key, fun k hk => n.kvFind_without_other hk⟩
  · simp only [exec, execKvDelete, hready, hgate, hwritable, hv]
    rfl
  · exact OnlyChanges.trans (only_of_blank (by simp)) ((freed.mono (by decide)).trans (unindexed.mono (by decide)))
  · rw [unindexed .ns (by decide), freed .ns (by decide)]
    exact Tbl.find_set_self _ _ _

/-- Settles O43: a lemma for each command, for the bytes that a Retrieve answers, and the law of what is found after a value is put. -/
theorem keyValueCommands : Obligations.KeyValueCommands := by
  unfold Obligations.KeyValueCommands
  exact ⟨fun _ _ _ _ _ _ hready => kvStore_waits hready, fun _ _ _ _ _ _ _ _ _ hready => kvRetrieve_reads hready,
    State.finishKv_answers, fun s w nsid key v n hready hgate hwritable hv _ => kvDelete_deletes s w nsid key v n hready hgate hwritable hv,
    fun _ _ _ _ _ hready => kvExist_answers hready,
    fun _ _ _ _ _ hready => kvList_answers hready, fun n r => ⟨n.kvFind_put_self r, fun _ hk => n.kvFind_put_other r hk⟩⟩

end Sys2Proof.Machine
end

section
/-! PROOFS. The statements on the digest engine: its port's timeout (O23), the port (O24) and the HMAC slots (O25). -/

open Sys2Proof Sys2Proof.Machine

namespace Sys2Proof.Machine

/-! ## The port's owner (R323, R324) -/

theorem portOwnerTimeout_passes (s : State) (o : PortReq) (hown : s.dgs.owner = some o) :
    Completes .portOwnerTimeout s fun t =>
      t.dgs.owner = s.dgs.claims.head? ∧ t.dgs.claims = s.dgs.claims.tail ∧ t.dgs.msgOn = false ∧ t.dgs.msg = [] ∧
      t.dgs.endStatus = 0xCE ∧ OnlyChanges [.dgs] s t :=
  ⟨_, if_pos (by simp [hown]), rfl, rfl, rfl, rfl, rfl, only_of_blank (by simp)⟩

/-- Settles O23: the timeout passes the port on as a release does, and leaves its end status. -/
theorem ownerTimesOut : Obligations.OwnerTimesOut := by
  unfold Obligations.OwnerTimesOut
  exact portOwnerTimeout_passes

section
variable {s : State} {r : PortReq} (hreach : portReqReaches s r = true)
include hreach

theorem claim_takes_free (hfree : s.dgs.owner = none) :
    Completes (.claim r) s fun t => t.dgs.owner = some r ∧ t.dgs.msgOn = false ∧ OnlyChanges [.dgs] s t :=
  ⟨_, if_pos hreach, by simp [hfree], by simp [hfree], only_of_blank (by simp)⟩

theorem claim_waits {o : PortReq} (hown : s.dgs.owner = some o) (hother : o ≠ r) :
    Completes (.claim r) s fun t => t.dgs.owner = some o ∧ r ∈ t.dgs.claims ∧ OnlyChanges [.dgs] s t :=
  ⟨_, if_pos hreach, by simp [hown, hother], by simp [hown, hother, mem_addOnce], only_of_blank (by simp)⟩

/-! ## A message at the port (R325, R331) -/

variable (hown : s.dgs.owner = some r)
include hown

theorem release_passes : Completes (.release r) s fun t =>
    t.dgs.owner = s.dgs.claims.head? ∧ t.dgs.claims = s.dgs.claims.tail ∧ t.dgs.msg = [] ∧ OnlyChanges [.dgs] s t :=
  ⟨_, if_pos ⟨hreach, hown⟩, rfl, rfl, rfl, only_of_blank (by simp)⟩

theorem portStart_begins {v : W32} (hgo : bitAt v 31 = true) (halg : algValid (fld v 3 0) = true) (hplain : bitAt v 16 = false) :
    Completes (.portStart r v) s fun t =>
      t.dgs.msgOn = true ∧ t.dgs.msg = [] ∧ t.dgs.alg = fld v 3 0 ∧ t.dgs.hmacSlot = none ∧ t.dgs.compare = bitAt v 17 ∧
      t.dgs.done = false ∧ OnlyChanges [.regs, .dgs] s t := by
  have runs : exec (.portStart r v) s = .next (portBegin (s.setReg rDgsStart (v &&& portStartMask)) r v) :=
    (if_pos ⟨hreach, hown⟩).trans (if_pos ⟨hgo, halg⟩)
  refine ⟨_, runs, ?_, rfl, rfl, ?_, rfl, ?_, only_of_blank (by simp)⟩ <;> simp [portBegin, hplain]

section
variable (hon : s.dgs.msgOn = true) (hopen : s.dgs.done = false)
include hon hopen

theorem portData_joins (word : W32) (hidle : s.dgs.busy = false) :
    Completes (.portData r word) s fun t =>
      t.dgs.msg = s.dgs.msg ++ leBytes 4 word.toNat ∧ t.dgs.dropped = s.dgs.dropped ∧
      t.dgs.busy = decide ((s.dgs.msg.length + 4) % algBlock s.dgs.alg = 0) ∧ OnlyChanges [.dgs] s t := by
  have length : (s.dgs.msg ++ leBytes 4 word.toNat).length = s.dgs.msg.length + 4 := by simp [leBytes_length]
  refine ⟨_, if_pos ⟨hreach, hown, hon, by simp [hopen]⟩, ?_, ?_, ?_, only_of_blank (by simp)⟩
  · simp [hidle]
  · simp [hidle]
  · simp only [State.onDgs_dgs, hidle, length]; rfl

theorem portData_drops (word : W32) (hbusy : s.dgs.busy = true) :
    Completes (.portData r word) s fun t => t.dgs = { s.dgs with dropped := true } ∧ OnlyChanges [.dgs] s t :=
  ⟨_, if_pos ⟨hreach, hown, hon, by simp [hopen]⟩, by simp [hbusy], only_of_blank (by simp)⟩

end

theorem exec_portFinish {v : W32} (hgo : bitAt v 31 = true) (hlast : fld v 2 0 ≤ 4) (hon : s.dgs.msgOn = true) (seen : Comparators) :
    exec (.portFinish r v seen) s = .next (portEnd (s.setReg rDgsFinish (w32 (fld v 2 0))) (fld v 2 0) seen) :=
  (if_pos ⟨hreach, hown⟩).trans (if_pos ⟨hgo, hlast, hon⟩)

end

theorem portBlockAbsorbed_counts (s : State) (hbusy : s.dgs.busy = true) (hup : s.up .engine = true)
    (hcores : 0 < modeCores s.power.effective) :
    Completes .portBlockAbsorbed s fun t =>
      t.dgs = { s.dgs with busy := false } ∧ t.cnt (rDgsCount 1) = (s.cnt (rDgsCount 1) + algBlock s.dgs.alg) % 2 ^ 64 ∧
      OnlyChanges [.regs, .dgs] s t := by
  have counts : s.absorbBlock.cnt (rDgsCount 1) = (s.cnt (rDgsCount 1) + algBlock s.dgs.alg) % 2 ^ 64 := by
    rw [State.absorbBlock, if_pos hbusy, State.cnt_addCnt_self]
    rfl
  exact ⟨s.absorbBlock, if_pos ⟨hup, hcores⟩, s.absorbBlock_dgs, counts, only_of_blank (by simp)⟩

/-! ## The end of a message (R318, R325, R332) -/

@[simp] theorem State.setReg_dgs (s : State) (off : Nat) (v : W32) : (s.setReg off v).dgs = s.dgs := rfl

@[simp] theorem State.setDigest_dgs (s : State) (bs : List Byte) : (s.setDigest bs).dgs = s.dgs :=
  only_of_blank (s.setDigest_blank (ps := [.regs]) bs (by simp)) .dgs (by decide)

@[simp] theorem State.countVerdict_dgs (s : State) (v : W32) : (s.countVerdict v).dgs = s.dgs :=
  only_of_blank (s.countVerdict_blank (ps := [.regs, .health]) v (by simp)) .dgs (by decide)

/-- A message that ends leaves the port done, whether or not a word was dropped. -/
theorem portEnd_dgs (s : State) (last : Nat) (seen : Comparators) :
    (portEnd s last seen).dgs = { s.dgs with msgOn := false, busy := false, done := true, endStatus := 0 } := by
  unfold portEnd
  extract_lets d msg out left s1 eq s2
  have ended : s1.dgs = { s.dgs with msgOn := false, busy := false, done := true, endStatus := 0 } := by
    simp only [s1, State.onDgs_dgs]
    rfl
  split
  · rw [State.setReg_dgs, State.setDigest_dgs, ended]
  · split
    · rw [State.countVerdict_dgs, State.setReg_dgs, State.setDigest_dgs, ended]
    · rw [State.setDigest_dgs, ended]

theorem rDgsDigest_inj {m n : Nat} : rDgsDigest m = rDgsDigest n ↔ m = n := by unfold rDgsDigest; omega

theorem State.reg_setDigest (s : State) (bs : List Byte) {n : Nat} (hn : n < 16) :
    (s.setDigest bs).reg (rDgsDigest n) = w32 (leAt bs (4 * n) 4) := by
  have upTo (k : Nat) (hk : n < k) :
      (iterate (fun n t => t.setReg (rDgsDigest n) (w32 (leAt bs (4 * n) 4))) k s).reg (rDgsDigest n) = w32 (leAt bs (4 * n) 4) := by
    induction k with
    | zero => cases hk
    | succ k ih =>
      simp only [iterate, State.reg_setReg, rDgsDigest_inj]
      split
      case isTrue h => rw [h]
      case isFalse h => exact ih (by omega)
  exact upTo 16 hn

/-- The counts of verdicts and of faults are no registers. -/
@[simp] theorem State.reg_countVerdict (s : State) (v : W32) (off : Nat) : (s.countVerdict v).reg off = s.reg off := by
  unfold State.countVerdict
  extract_lets s1
  split
  · exact State.reg_of_regs (State.addLife_only s1 _ _ .regs (by decide)) off
  · rfl

/-- The EXPECT registers are all that the expected value is read from. -/
theorem portExpect_setReg (s : State) {off : Nat} (v : W32) (n : Nat) (hoff : ∀ i, rDgsExpect i ≠ off) :
    portExpect (s.setReg off v) n = portExpect s n := by
  simp [portExpect, State.reg_setReg, hoff]

section
variable {s : State} (last : Nat) (seen : Comparators) (hkept : s.dgs.dropped = false) (hplain : s.dgs.hmacSlot = none)
  (hmsg : s.dgs.msg ≠ [])
include hkept hplain hmsg

/-- A plain message with every word taken ends with its digest in place and, where it was to be compared, its verdict. -/
theorem portEnd_of_plain {out : List Byte} (hout : out = hashOf s.dgs.alg (s.dgs.msg.take (s.dgs.msg.length - 4 + last))) :
    ∃ u : State, portEnd s last seen = if s.dgs.compare = true then
      ((u.setDigest out).setReg rDgsVerdict (verdictOf seen (decide (portExpect s (algOut s.dgs.alg) = out)))).countVerdict
        (verdictOf seen (decide (portExpect s (algOut s.dgs.alg) = out)))
      else u.setDigest out := by
  have some_word : s.dgs.msg.isEmpty = false := by simpa using hmsg
  subst hout
  unfold portEnd
  simp only [hkept, hplain, some_word]
  exact ⟨_, rfl⟩

theorem portEnd_digest {n : Nat} (hn : n < 16) : (portEnd s last seen).reg (rDgsDigest n) =
    w32 (leAt (hashOf s.dgs.alg (s.dgs.msg.take (s.dgs.msg.length - 4 + last))) (4 * n) 4) := by
  have apart : rDgsDigest n ≠ rDgsVerdict := by unfold rDgsDigest rDgsVerdict; omega
  obtain ⟨u, ends⟩ := portEnd_of_plain last seen hkept hplain hmsg rfl
  rw [ends]
  split
  · rw [State.reg_countVerdict, State.reg_setReg, if_neg apart, State.reg_setDigest _ _ hn]
  · exact State.reg_setDigest _ _ hn

theorem portEnd_verdict (hcompare : s.dgs.compare = true) : (portEnd s last seen).reg rDgsVerdict =
    verdictOf seen (decide (portExpect s (algOut s.dgs.alg) =
      hashOf s.dgs.alg (s.dgs.msg.take (s.dgs.msg.length - 4 + last)))) := by
  obtain ⟨u, ends⟩ := portEnd_of_plain last seen hkept hplain hmsg rfl
  rw [ends, if_pos hcompare, State.reg_countVerdict, State.reg_setReg_self]

end

section
variable {s : State} {r : PortReq} {v : W32} (hreach : portReqReaches s r = true) (hown : s.dgs.owner = some r)
  (hgo : bitAt v 31 = true) (hlast : fld v 2 0 ≤ 4) (hon : s.dgs.msgOn = true)
include hreach hown hgo hlast hon

theorem portFinish_ends (seen : Comparators) :
    Completes (.portFinish r v seen) s fun t =>
      t.dgs.done = true ∧ t.dgs.msgOn = false ∧ t.dgs.endStatus = 0 ∧ OnlyChanges [.regs, .dgs, .health] s t := by
  refine ⟨_, exec_portFinish hreach hown hgo hlast hon seen, ?_, ?_, ?_, only_of_blank (by simp)⟩ <;> rw [portEnd_dgs]

theorem portFinish_answers (hkept : s.dgs.dropped = false) (hplain : s.dgs.hmacSlot = none) (hmsg : s.dgs.msg ≠ [])
    (seen : Comparators) :
    Completes (.portFinish r v seen) s fun t =>
      (∀ n, n < 16 → t.reg (rDgsDigest n) =
        w32 (leAt (hashOf s.dgs.alg (s.dgs.msg.take (s.dgs.msg.length - 4 + fld v 2 0))) (4 * n) 4)) ∧
      (s.dgs.compare = true → t.reg rDgsVerdict = verdictOf seen (decide (portExpect s (algOut s.dgs.alg) =
        hashOf s.dgs.alg (s.dgs.msg.take (s.dgs.msg.length - 4 + fld v 2 0))))) := by
  have apart (i : Nat) : rDgsExpect i ≠ rDgsFinish := by unfold rDgsExpect rDgsFinish; omega
  let u := s.setReg rDgsFinish (w32 (fld v 2 0))
  refine ⟨_, exec_portFinish hreach hown hgo hlast hon seen, fun n hn => ?_, fun hcompare => ?_⟩
  · rw [portEnd_digest (s := u) _ seen hkept hplain hmsg hn, State.setReg_dgs]
  · rw [portEnd_verdict (s := u) _ seen hkept hplain hmsg hcompare, portExpect_setReg _ _ _ apart, State.setReg_dgs]

end

/-- Comparators that disagree make a word that is neither of the two verdicts (R318). -/
theorem verdictRead_verdictOf (seen : Comparators) (eq : Bool) :
    verdictRead (verdictOf seen eq) = if seen = .agree then some eq else none := by
  cases seen <;> cases eq <;> decide

/-- Settles O24: a lemma for each command of the port, and what is read of the word that the comparators make. -/
theorem digestPort : Obligations.DigestPort := by
  unfold Obligations.DigestPort
  exact ⟨fun _ _ => claim_takes_free, fun _ _ _ hreach => claim_waits hreach, fun _ _ => release_passes,
    fun _ _ _ hreach hown => portStart_begins hreach hown,
    fun _ _ word hreach hown hon hopen => portData_joins hreach hown hon hopen word,
    fun _ _ word hreach hown hon hopen => portData_drops hreach hown hon hopen word, portBlockAbsorbed_counts,
    fun _ _ _ => portFinish_ends, fun _ _ _ => portFinish_answers, verdictRead_verdictOf⟩

/-! ## HMAC slots (R320, R333) -/

theorem State.hmacSlot_of_dgs {s t : State} (h : t.dgs = s.dgs) (i : Nat) : t.hmacSlot i = s.hmacSlot i := by
  rw [State.hmacSlot, State.hmacSlot, h]

/-- The load under way is no part of a slot. -/
theorem State.hmacSlot_loading (s : State) (l : Option HmacLoading) (i : Nat) :
    (s.onDgs fun d => { d with loading := l }).hmacSlot i = s.hmacSlot i := rfl

@[simp] theorem State.hmacSlot_setHmac_self (s : State) (i : Nat) (h : HmacSlot) : (s.setHmac i h).hmacSlot i = h :=
  Tbl.getD_put_self _ _ _ _

theorem State.hmacSlot_setHmac_other (s : State) {i j : Nat} (h : HmacSlot) (hj : j ≠ i) : (s.setHmac i h).hmacSlot j = s.hmacSlot j :=
  Tbl.getD_put_other _ _ _ hj

/-- A key that is unwrapped changes the pipelines' caches and their counts (R273). -/
theorem State.wrapUse_blank_regs_sea {ps : List Part} (s : State) (slot : Nat) (hc : [Part.regs, .sea] ⊆ ps) :
    (s.wrapUse slot).blank ps = s.blank ps := s.keyUse_blank_regs_sea _ _ hc

@[simp] theorem State.wrapUse_dgs (s : State) (slot : Nat) : (s.wrapUse slot).dgs = s.dgs :=
  only_of_blank (s.wrapUse_blank_regs_sea (ps := [.regs, .sea]) slot (by simp)) .dgs (by decide)

@[simp] theorem State.cfgWrite_boot (s : State) (c : CfgWrite) : (s.cfgWrite c).boot = s.boot :=
  only_of_blank (s.cfgWrite_blank (ps := [.media, .health]) c (by simp)) .boot (by decide)

/-- A slot that a requester may clear is assigned, and the requester is a manager function of its port. -/
theorem hmacAllowed_iff {s : State} {r : Requester} {slot : Nat} :
    hmacAllowed s r slot = true ↔
      ∃ m f, requesterFn r = some m ∧ (s.hmacSlot slot).owner = some f ∧ portOfFn m = portOfFn f := by
  unfold hmacAllowed
  cases requesterFn r <;> cases (s.hmacSlot slot).owner <;> simp

theorem hmacWritable_of_allowed {s : State} {r : Requester} {slot : Nat} (h : hmacAllowed s r slot = true) :
    hmacWritable s r slot = true := by
  obtain ⟨m, f, fn, owner, same⟩ := hmacAllowed_iff.mp h
  simp [hmacWritable, fn, owner, same]

/-! ## Load (R320, R321) -/

/-- What the check of a load finds that a value asks for, of the selected slot. -/
def hmacAsked (s : State) (v : W32) : Except Nat (List Byte) :=
  hmacLoadCheck s (hmacSel s) (fld v 3 0) (fld v 23 16) (fld v 15 8) (hmacBlob s (fld v 23 16 + 8))

/-- A load as its check answers: the selected slot takes the error, or the load of the key begins. -/
def State.hmacAnswered (s : State) (v : W32) : Except Nat (List Byte) → State
  | .error e => (s.setReg rDgsHmacLoad (v &&& 0xFFFF0F#32)).setHmac (hmacSel s) { s.hmacSlot (hmacSel s) with lastErr := e }
  | .ok key =>
    (((s.setReg rDgsHmacLoad (v &&& 0xFFFF0F#32)).setHmac (hmacSel s) { s.hmacSlot (hmacSel s) with st := .loading }).wrapUse
      (fld v 15 8)).onDgs fun d =>
        { d with loading := some { slot := hmacSel s, alg := fld v 3 0, wrap := fld v 15 8, key := key,
                                   blob := hmacBlob s (fld v 23 16 + 8), prior := (s.hmacSlot (hmacSel s)).st } }

theorem State.hmacAnswered_error (s : State) (v : W32) (e : Nat) :
    (s.hmacAnswered v (.error e)).hmacSlot (hmacSel s) = { s.hmacSlot (hmacSel s) with lastErr := e } :=
  State.hmacSlot_setHmac_self _ _ _

theorem State.hmacAnswered_ok (s : State) (v : W32) (key : List Byte) :
    ((s.hmacAnswered v (.ok key)).hmacSlot (hmacSel s)).st = .loading ∧
      ∃ l, (s.hmacAnswered v (.ok key)).dgs.loading = some l ∧ l.slot = hmacSel s ∧ l.key = key := by
  refine ⟨?_, _, rfl, rfl, rfl⟩
  rw [State.hmacAnswered, State.hmacSlot_loading, State.hmacSlot_of_dgs (State.wrapUse_dgs _ _), State.hmacSlot_setHmac_self]

theorem State.hmacAnswered_only (s : State) (v : W32) (k : Except Nat (List Byte)) :
    OnlyChanges [.regs, .sea, .dgs] s (s.hmacAnswered v k) := by
  cases k <;> exact only_of_blank (by simp [State.hmacAnswered, State.wrapUse_blank_regs_sea])

section
variable {s : State} {r : Requester} {v : W32} (hreach : s.barReaches r rDgsHmacLoad = true)
  (hallowed : hmacAllowed s r (hmacSel s) = true)
include hreach hallowed

theorem exec_hmacLoad (hgo : bitAt v 31 = true) (halg : algHmac (fld v 3 0) = true) (hnone : s.dgs.loading = none) :
    exec (.hmacLoad r v) s = .next (s.hmacAnswered v (hmacAsked s v)) := by
  obtain ⟨m, _, fn, _, _⟩ := hmacAllowed_iff.mp hallowed
  have goes : bitAt v 31 = true ∧ (requesterFn r).isSome = true ∧ algHmac (fld v 3 0) = true ∧ s.dgs.loading.isNone = true :=
    ⟨hgo, by simp [fn], halg, by simp [hnone]⟩
  refine (if_pos hreach).trans ((if_pos (hmacWritable_of_allowed hallowed)).trans ((if_pos goes).trans ?_))
  split
  next e asked => rw [hmacAsked, asked, State.hmacAnswered]
  next key asked => rw [hmacAsked, asked, State.hmacAnswered]

theorem hmacLoad_answers (hgo : bitAt v 31 = true) (halg : algHmac (fld v 3 0) = true) (hnone : s.dgs.loading = none) :
    Completes (.hmacLoad r v) s fun t =>
      (∀ key, hmacAsked s v = .ok key →
        (t.hmacSlot (hmacSel s)).st = .loading ∧ ∃ l, t.dgs.loading = some l ∧ l.slot = hmacSel s ∧ l.key = key) ∧
      (∀ e, hmacAsked s v = .error e → t.hmacSlot (hmacSel s) = { s.hmacSlot (hmacSel s) with lastErr := e }) ∧
      OnlyChanges [.regs, .sea, .dgs] s t := by
  refine ⟨_, exec_hmacLoad hreach hallowed hgo halg hnone, fun key asked => ?_, fun e asked => ?_, s.hmacAnswered_only v _⟩
  · rw [asked]; exact s.hmacAnswered_ok v key
  · rw [asked]; exact s.hmacAnswered_error v e

/-! ## Clear (R321) -/

theorem hmacClear_clears (hclear : bitAt v 30 = true) :
    ∃ (u : State) (p : Stage → Bool) (a : Append),
      exec (.hmacClear r v) s = .next (((u.failSlotUsers p).cfgWrite .note).requestAppend a) ∧ a.kind = 5 ∧ a.cause = 1 ∧
      u.hmacSlot (hmacSel s) = { HmacSlot.free with owner := (s.hmacSlot (hmacSel s)).owner } ∧ OnlyChanges [.regs, .dgs] s u := by
  refine ⟨_, _, _, (if_pos hreach).trans ((if_pos (hmacWritable_of_allowed hallowed)).trans (if_pos ⟨hclear, hallowed⟩)), rfl, rfl,
    ?_, only_of_blank (by simp)⟩
  exact State.hmacSlot_setHmac_self _ _ _

end

/-- The slot of a load as it ends holds the key and keeps the blob, and no load is under way. -/
def State.hmacLoaded (s : State) (l : HmacLoading) : State :=
  (s.setHmac l.slot { s.hmacSlot l.slot with
    st := .loaded, alg := l.alg, wrap := l.wrap, key := l.key, blob := l.blob, lastErr := 0 }).onDgs fun d => { d with loading := none }

theorem hmacLoadDone_loads (s : State) (l : HmacLoading) (hl : s.dgs.loading = some l) :
    Completes .hmacLoadDone s fun t =>
      t.hmacSlot l.slot = { s.hmacSlot l.slot with
        st := .loaded, alg := l.alg, wrap := l.wrap, key := l.key, blob := l.blob, lastErr := 0 } ∧
      t.dgs.loading = none ∧ (∃ a, t.boot.appends = s.boot.appends ++ [a] ∧ a.kind = 5 ∧ a.cause = 0) ∧
      OnlyChanges [.dgs, .boot, .media, .health] s t := by
  let a : Append :=
    { kind := 5, cause := 0, comps := [componentOf 8 0 ((s.hmacSlot l.slot).owner.getD 0xFFFF) l.slot], then_ := .nothing }
  have runs : exec .hmacLoadDone s = .next (((s.hmacLoaded l).cfgWrite .note).requestAppend a) := by
    simp only [exec, execHmacLoadDone, hl]
    rfl
  have dgs : (((s.hmacLoaded l).cfgWrite .note).requestAppend a).dgs = (s.hmacLoaded l).dgs :=
    only_of_blank (ps := [.media, .boot, .health]) (by simp) .dgs (by decide)
  refine ⟨_, runs, ?_, ?_, ⟨a, ?_, rfl, rfl⟩, only_of_blank (by simp [State.hmacLoaded])⟩
  · rw [State.hmacSlot_of_dgs dgs, State.hmacLoaded, State.hmacSlot_loading, State.hmacSlot_setHmac_self]
  · rw [dgs]; rfl
  · rw [State.requestAppend_appends, State.cfgWrite_boot]; rfl

/-! ## Reload (R322) -/

theorem hmacReloadDone_reloads (s : State) (i : Nat) (hmay : hmacReloadable s i = true) (hup : s.up .engine = true) :
    Completes (.hmacReloadDone i) s fun t =>
      (∀ key, kwUnwrap (s.wrapSlot (s.hmacSlot i).wrap).key (s.hmacSlot i).blob = some key →
        t.hmacSlot i = { s.hmacSlot i with st := .loaded, key := key }) ∧
      (t.hmacSlot i).owner = (s.hmacSlot i).owner ∧ (∀ j, j ≠ i → t.hmacSlot j = s.hmacSlot j) ∧
      OnlyChanges [.regs, .sea, .dgs] s t := by
  refine ⟨_, if_pos ⟨hmay, hup⟩, fun key hkey => ?_, ?_, fun j hj => ?_, ?_⟩
  · rw [State.hmacSlot_setHmac_self, hkey]
  · rw [State.hmacSlot_setHmac_self]
    split <;> rfl
  · rw [State.hmacSlot_setHmac_other _ _ hj, State.hmacSlot_of_dgs (s.wrapUse_dgs _)]
  · exact only_of_blank (by simp [State.wrapUse_blank_regs_sea])

/-! ## A cleared slot's tasks (R321) -/

theorem hmacCleared_of_context {s : State} {f : Flow} {e : Task} {d : Nat} {c : DigestCtx}
    (hd : (digestStages f.trail).findIdx? (· = e.stage) = some d) (hc : s.dgs.ctxs.find (4 * e.flow + d) = some c)
    (hcleared : c.cleared = true) : hmacCleared s f e = true := by
  rw [hmacCleared, hd]
  simp only [hc, hcleared]

theorem taskFire_fails_of_cleared {s : State} {f : Flow} {e : Task} {st : Stage} (hgo : dispatching s = true)
    (hflow : flowGoes s f = true) (hf : s.boundFlow e.flow = some f) (he : s.entry e.flow e.stage e.cslot = some e)
    (hready : e.ready = true) (hst : Trail.stageAt f.trail e.stage = some st) (hkey : hmacCleared s f e = true) :
    exec (.taskFire e.flow e.stage e.cslot .good) s = .next (s.failFlow e.flow e.chunk e.stage stKeySlotEmpty) := by
  simp [exec, execTaskFire, hf, he, hst, hgo, hflow, hready, hkey]

/-- Settles O25: a lemma for the load and its end, for the clear, for the reload, and for a task of a Trail whose slot was cleared. -/
theorem hmacSlots : Obligations.HmacSlots := by
  unfold Obligations.HmacSlots
  exact ⟨fun _ _ _ => hmacLoad_answers, hmacLoadDone_loads, fun _ _ _ => hmacClear_clears, hmacReloadDone_reloads,
    fun _ _ _ _ _ _ hgo hflow hf he hready hst hd hc hcleared =>
      taskFire_fails_of_cleared hgo hflow hf he hready hst (hmacCleared_of_context hd hc hcleared)⟩

end Sys2Proof.Machine
end

section
/-! PROOFS. The statement on the run-length codec (O26): which token does what at the decoder, that each part of the encoder's stream
brings the decoder's output on by the bytes it encodes, and what the decoder reads of a block's header. -/

open Sys2Proof Sys2Proof.Machine

namespace Sys2Proof.Machine

/-! ## Number fields and the CRC -/

theorem ofLe_leBytes (n v : Nat) : ofLe (leBytes n v) = v % 256 ^ n := by
  induction n generalizing v with
  | zero => simp [leBytes, ofLe, Nat.mod_one]
  | succ n ih =>
    rw [leBytes, ofLe, ih, BitVec.toNat_ofNat, pow_succ' 256 n]
    exact Nat.mod_mul.symm

theorem ofLe_leBytes_of_lt {n v : Nat} (h : v < 256 ^ n) : ofLe (leBytes n v) = v := by
  rw [ofLe_leBytes, Nat.mod_eq_of_lt h]

/-- A field is read as it was written, wherever it stands. -/
theorem leAt_leBytes {n v o : Nat} (a b : List Byte) (ho : a.length = o) (hv : v < 256 ^ n) : leAt (a ++ (leBytes n v ++ b)) o n = v := by
  rw [leAt, slice_append_right a _ o n 0 ho, slice_all _ _ _ (leBytes_length n v), ofLe_leBytes_of_lt hv]

theorem crcBits_lt (n : Nat) {c : Nat} (h : c < 2 ^ 32) : crcBits n c < 2 ^ 32 := by
  induction n generalizing c with
  | zero => exact h
  | succ n ih =>
    have half : c / 2 < 2 ^ 32 := by omega
    refine ih ?_
    split
    · exact Nat.xor_lt_two_pow half (by decide)
    · exact half

theorem crc32c_lt (bs : List Byte) : crc32c bs < 2 ^ 32 := by
  refine Nat.xor_lt_two_pow ?_ (by decide)
  exact List.foldlRecOn (motive := (· < 2 ^ 32)) bs _ (by decide) fun c hc b _ =>
    crcBits_lt 8 (Nat.xor_lt_two_pow hc (b.isLt.trans (by decide)))

/-! ## What the decoder makes of a stream (R338, R341) -/

/-- The decoder reads a token: with the output at `out`, the token brings it to `out'`, whatever follows in the stream. -/
def Reads (w orig : Nat) (out tok out' : List Byte) : Prop :=
  ∀ rest, tokenStep w orig out (tok ++ rest) = .go tok.length out'

theorem Reads.ne_nil {w orig : Nat} {out tok out' : List Byte} (h : Reads w orig out tok out') : tok ≠ [] := by
  rintro rfl
  exact absurd (h []) (by simp [tokenStep])

/-- A stream is tokens that the decoder reads one after the other, and they bring the output from `out` to `out'`. -/
inductive Decodes (w orig : Nat) : List Byte → List Byte → List Byte → Prop where
  | done (out : List Byte) : Decodes w orig out [] out
  | token {out tok mid stream out' : List Byte} (first : Reads w orig out tok mid) (others : Decodes w orig mid stream out') :
      Decodes w orig out (tok ++ stream) out'

section
variable {w orig : Nat} {out : List Byte}

theorem Reads.decodes {tok out' : List Byte} (h : Reads w orig out tok out') : Decodes w orig out tok out' := by
  simpa using Decodes.token h (.done out')

theorem Decodes.append {a mid b out' : List Byte} (ha : Decodes w orig out a mid) (hb : Decodes w orig mid b out') :
    Decodes w orig out (a ++ b) out' := by
  induction ha with
  | done => exact hb
  | token first _ ih => rw [List.append_assoc]; exact .token first (ih hb)

theorem Decodes.decodeTokens_eq {stream out' : List Byte} (h : Decodes w orig out stream out') {fuel : Nat} (off : Nat)
    (hfuel : stream.length ≤ fuel) : decodeTokens w orig fuel off out stream = .ok (out', none) := by
  induction h generalizing fuel off with
  | done => cases fuel <;> simp [decodeTokens]
  | @token out tok mid stream _ first _ ih =>
    have pos := List.length_pos_iff.mpr first.ne_nil
    rw [List.length_append] at hfuel
    obtain ⟨fuel, rfl⟩ : ∃ k, fuel = k + 1 := ⟨fuel - 1, by omega⟩
    simp only [decodeTokens, List.isEmpty_iff, List.append_eq_nil_iff, first.ne_nil, false_and, if_false, first stream, List.drop_left]
    exact ih _ (by omega)

theorem Decodes.nil_eq {out' : List Byte} (h : Decodes w orig out [] out') : out = out' := by
  simpa [decodeTokens] using h.decodeTokens_eq (fuel := 0) 0 le_rfl

/-! ## Literals and runs (R338, R340 step 2) -/

theorem reads_literal {c : List Byte} (hne : c ≠ []) (hmax : c.length ≤ 128) (hfit : out.length + c.length ≤ orig) :
    Reads w orig out (BitVec.ofNat 8 (c.length - 1) :: c) (out ++ c) := by
  intro rest
  have pos := List.length_pos_iff.mpr hne
  have first : (BitVec.ofNat 8 (c.length - 1)).toNat = c.length - 1 := by rw [BitVec.toNat_ofNat]; omega
  have room : out.length ≠ orig := by omega
  have kind : c.length - 1 < 0x80 := by omega
  have len : c.length - 1 + 1 = c.length := by omega
  have fits : ¬ orig < out.length + (c.length - 1) + 1 := by omega
  simp [tokenStep, first, room, kind, fits, len]

theorem decodes_chunks (fuel : Nat) {bs : List Byte} (hfuel : bs.length ≤ fuel) (hfit : out.length + bs.length ≤ orig) :
    Decodes w orig out ((chunksFuel 128 fuel bs).map fun c => BitVec.ofNat 8 (c.length - 1) :: c).flatten (out ++ bs) := by
  induction fuel generalizing out bs with
  | zero =>
    obtain rfl : bs = [] := List.length_eq_zero_iff.mp (by omega)
    simpa [chunksFuel] using Decodes.done out
  | succ fuel ih =>
    by_cases hbs : bs = []
    · subst hbs
      simpa [chunksFuel] using Decodes.done out
    · have pos := List.length_pos_iff.mpr hbs
      have first : Reads w orig out _ (out ++ bs.take 128) :=
        reads_literal (by simp [hbs]) (by simp) (by rw [List.length_take]; omega)
      have others := ih (out := out ++ bs.take 128) (bs := bs.drop 128) (by rw [List.length_drop]; omega) (by simp; omega)
      rw [List.append_assoc, List.take_append_drop] at others
      simpa [chunksFuel, hbs] using Decodes.token first others

theorem decodes_literals {bs : List Byte} (hfit : out.length + bs.length ≤ orig) : Decodes w orig out (literals bs) (out ++ bs) :=
  decodes_chunks _ le_rfl hfit

theorem reads_runToken {n : Nat} (v : Byte) (hmin : 3 ≤ n) (hmax : n ≤ 65536) (hfit : out.length + n ≤ orig) :
    Reads w orig out (runToken n v) (out ++ List.replicate n v) := by
  intro rest
  have room : out.length ≠ orig := by omega
  have fits : ¬ orig < out.length + n := by omega
  by_cases short : n ≤ 66
  · have first : (BitVec.ofNat 8 (0x80 + (n - 3))).toNat = 0x80 + (n - 3) := by rw [BitVec.toNat_ofNat]; omega
    have kind : 0x80 + (n - 3) < 0xC0 := by omega
    rw [runToken, if_pos short]
    simp [tokenStep, first, room, kind, Nat.sub_add_cancel hmin, fits]
  · have len : ofLe (leBytes 2 (n - 1)) + 1 = n := by rw [ofLe_leBytes_of_lt (by omega)]; omega
    rw [runToken, if_neg short]
    simp only [leBytes] at len ⊢
    simp [tokenStep, room, len, fits]

/-- A list begins with the run that `runLen` counts. -/
theorem replicate_runLen_append_drop (b : Byte) (rest : List Byte) :
    List.replicate (runLen (b :: rest)) b ++ (b :: rest).drop (runLen (b :: rest)) = b :: rest := by
  induction rest with
  | nil => rfl
  | cons c rest ih =>
    by_cases h : b = c
    · subst h
      simpa [runLen, List.replicate_succ] using ih
    · simp [runLen, h]

/-- The bytes of a record, after those gathered before them. -/
theorem decodes_encodeRuns (horig : orig ≤ 65536) (fuel : Nat) (lit : List Byte) {bs : List Byte} (hfuel : bs.length ≤ fuel)
    (hfit : out.length + lit.length + bs.length ≤ orig) : Decodes w orig out (encodeRuns fuel lit bs) (out ++ lit ++ bs) := by
  induction fuel generalizing out lit bs with
  | zero =>
    have gathered : Decodes w orig out (literals lit) (out ++ lit) := decodes_literals (by omega)
    obtain rfl : bs = [] := List.length_eq_zero_iff.mp (by omega)
    simpa [encodeRuns] using gathered
  | succ fuel ih =>
    have gathered : Decodes w orig out (literals lit) (out ++ lit) := decodes_literals (by omega)
    match bs with
    | [] => simpa [encodeRuns] using gathered
    | b :: rest =>
      have begins := replicate_runLen_append_drop b rest
      rw [encodeRuns]
      generalize runLen (b :: rest) = n at begins ⊢
      have lens := congrArg List.length begins
      rw [List.length_append, List.length_replicate, List.length_drop] at lens
      rw [List.length_cons] at hfuel hfit lens
      by_cases long : 3 ≤ n
      · have run : Decodes w orig (out ++ lit) (runToken n b) (out ++ lit ++ List.replicate n b) :=
          (reads_runToken b long (by omega) (by rw [List.length_append]; omega)).decodes
        have others := ih (out := out ++ lit ++ List.replicate n b) [] (bs := (b :: rest).drop n) (by simp; omega) (by simp; omega)
        rw [List.append_nil, List.append_assoc _ _ (List.drop _ _), begins] at others
        simpa [long] using (gathered.append run).append others
      · have others := ih (out := out) (lit ++ [b]) (bs := rest) (by omega) (by simp; omega)
        simpa [long] using others

/-! ## Record-repeats (R339, R340 step 1) -/

/-- The token of a record-repeat of `c` records at distance `d`, as the encoder writes it. -/
def repeatToken (c d : Nat) : List Byte :=
  if c ≤ 31 then [BitVec.ofNat 8 (0xE0 + (c - 1)), BitVec.ofNat 8 d] else 0xFF :: BitVec.ofNat 8 d :: leBytes 2 (c - 1)

theorem repeatStep_go {d c : Nat} (used : Nat) (hw : w ≠ 0) (hrecord : out.length % w = 0) (hd : d ≠ 0) (hback : d * w ≤ out.length)
    (hfit : out.length + c * w ≤ orig) :
    repeatStep w orig out (some d) (some c) used = .go used (copyBack (d * w) (c * w) out) := by
  simp [repeatStep, hw, hrecord, hd, Nat.not_lt.mpr hback, Nat.not_lt.mpr hfit]

theorem reads_repeatToken {d c : Nat} (hw : w ≠ 0) (hrecord : out.length % w = 0) (hd : d ≠ 0) (hdist : d ≤ 255)
    (hback : d * w ≤ out.length) (hc : 1 ≤ c) (hmax : c ≤ 65536) (hfit : out.length + c * w ≤ orig) :
    Reads w orig out (repeatToken c d) (copyBack (d * w) (c * w) out) := by
  intro rest
  have room : out.length ≠ orig := by have := Nat.mul_pos hc (Nat.pos_of_ne_zero hw); omega
  have dist : (BitVec.ofNat 8 d).toNat = d := by rw [BitVec.toNat_ofNat]; omega
  have go := fun used => repeatStep_go used hw hrecord hd hback hfit
  by_cases short : c ≤ 31
  · have first : (BitVec.ofNat 8 (0xE0 + (c - 1))).toNat = 0xE0 + (c - 1) := by rw [BitVec.toNat_ofNat]; omega
    have literal : ¬ 0xE0 + (c - 1) < 0x80 := by omega
    have run : ¬ 0xE0 + (c - 1) < 0xC0 := by omega
    have longRun : 0xE0 + (c - 1) ≠ 0xC0 := by omega
    have kind : 0xE0 + (c - 1) < 0xFF := by omega
    rw [repeatToken, if_pos short]
    simp [tokenStep, first, room, literal, run, longRun, kind, dist, Nat.sub_add_cancel hc, go]
  · have len : ofLe (leBytes 2 (c - 1)) + 1 = c := by rw [ofLe_leBytes_of_lt (by omega)]; omega
    rw [repeatToken, if_neg short]
    simp only [leBytes] at len ⊢
    simp [tokenStep, room, dist, len, go]

end

theorem commonLen_le (a b : List Byte) : commonLen a b ≤ b.length := by
  fun_induction commonLen a b <;> simp [*]

theorem getElem?_eq_of_lt_commonLen {a b : List Byte} {i : Nat} (h : i < commonLen a b) : a[i]? = b[i]? := by
  induction a generalizing b i with
  | nil => simp [commonLen] at h
  | cons x a ih =>
    cases b with
    | nil => simp [commonLen] at h
    | cons y b =>
      by_cases hxy : x = y
      · cases i with
        | zero => simp [hxy]
        | succ i => exact ih (by simpa [commonLen, hxy] using h)
      · simp [commonLen, hxy] at h

/-- A copy goes on along the input as long as each of its bytes stands `dist` back too. -/
theorem copyBack_take {input : List Byte} {dist p : Nat} (n : Nat) (hd : 0 < dist) (hp : dist ≤ p) (hn : p + n ≤ input.length)
    (hsame : ∀ i < n, input[p - dist + i]? = input[p + i]?) : copyBack dist n (input.take p) = input.take (p + n) := by
  induction n generalizing p with
  | zero => rfl
  | succ n ih =>
    have here : (input.take p).getD ((input.take p).length - dist) 0 = input[p] := by
      have same := hsame 0 (by omega)
      rw [Nat.add_zero, Nat.add_zero, List.getElem?_eq_getElem (by omega : p < input.length)] at same
      rw [List.length_take_of_le (by omega), List.getD_eq_getElem?_getD, List.getElem?_take_of_lt (by omega), same, Option.getD_some]
    rw [copyBack, here, List.take_append_getElem, ih (by omega) (by omega), Nat.add_assoc, Nat.add_comm 1]
    intro i hi
    have next := hsame (i + 1) (by omega)
    rwa [show p - dist + (i + 1) = p + 1 - dist + i by omega, ← Nat.add_assoc, Nat.add_right_comm] at next

theorem repeatCount_fits (input : List Byte) (w p d : Nat) : repeatCount input w p d * w ≤ input.length - p :=
  (Nat.div_mul_le_self _ _).trans ((commonLen_le _ _).trans_eq List.length_drop)

/-- The records that `repeatCount` counts are those that R339 copies. -/
theorem copyBack_repeatCount {input : List Byte} {w p d : Nat} (hw : w ≠ 0) (hd : d ≠ 0) (hback : d * w ≤ p) (hp : p ≤ input.length) :
    copyBack (d * w) (repeatCount input w p d * w) (input.take p) = input.take (p + repeatCount input w p d * w) := by
  have fits := repeatCount_fits input w p d
  refine copyBack_take _ (by positivity) hback (by omega) fun i hi => ?_
  simpa using getElem?_eq_of_lt_commonLen (hi.trans_le (Nat.div_mul_le_self _ _))

theorem bestRepeat_counts {input : List Byte} {w p k d c : Nat} (h : bestRepeat input w p k = (d, c)) (hc : 1 ≤ c) :
    d ≠ 0 ∧ d ≤ k ∧ c = repeatCount input w p d := by
  induction k with
  | zero => simp [bestRepeat] at h; omega
  | succ k ih =>
    rw [bestRepeat] at h
    split at h
    · simp only [Prod.mk.injEq] at h
      obtain ⟨rfl, rfl⟩ := h
      exact ⟨by omega, le_rfl, rfl⟩
    · obtain ⟨hd, le, counts⟩ := ih h
      exact ⟨hd, by omega, counts⟩

/-! ## The token stream (R340) -/

/-- What the encoder does at a position: a record-repeat, or the bytes up to a boundary as runs and literals. -/
theorem encodeTokens_step (input : List Byte) (w fuel : Nat) {p : Nat} (hp : p < input.length) :
    (∃ d, w ≠ 0 ∧ p % w = 0 ∧ d ≠ 0 ∧ d ≤ 255 ∧ d * w ≤ p ∧ 1 ≤ repeatCount input w p d ∧
      encodeTokens input w (fuel + 1) p = repeatToken (repeatCount input w p d) d ++
        encodeTokens input w fuel (p + repeatCount input w p d * w)) ∨
    (∃ n, 1 ≤ n ∧ p + n ≤ input.length ∧
      encodeTokens input w (fuel + 1) p = encodeRuns n [] ((input.drop p).take n) ++ encodeTokens input w fuel (p + n)) := by
  simp only [encodeTokens, hp.not_ge, if_false]
  generalize hbest : (if w ≠ 0 ∧ p % w = 0 then bestRepeat input w p (Nat.min 255 (p / w)) else (0, 0)) = best
  obtain ⟨d, c⟩ := best
  by_cases hc : 1 ≤ c
  · have found : w ≠ 0 ∧ p % w = 0 := by
      by_contra none
      rw [if_neg none, Prod.mk.injEq] at hbest
      omega
    rw [if_pos found] at hbest
    obtain ⟨hd, hmax, rfl⟩ := bestRepeat_counts hbest hc
    obtain ⟨hdist, hquot⟩ := Nat.le_min.mp hmax
    exact .inl ⟨d, found.1, found.2, hd, hdist, (Nat.le_div_iff_mul_le (Nat.pos_of_ne_zero found.1)).mp hquot, hc, if_pos hc⟩
  · refine .inr ⟨_, ?_, ?_, if_neg hc⟩
    · split
      · omega
      · exact Nat.le_min.mpr ⟨by omega, by omega⟩
    · split
      · omega
      · have least : Nat.min w (input.length - p) ≤ input.length - p := Nat.min_le_right _ _
        omega

theorem decodes_encodeTokens {input : List Byte} (w : Nat) (hmax : input.length ≤ 65536) (fuel : Nat) {p : Nat} (hp : p ≤ input.length)
    (hfuel : input.length ≤ p + fuel) : Decodes w input.length (input.take p) (encodeTokens input w fuel p) input := by
  induction fuel generalizing p with
  | zero =>
    rw [encodeTokens, List.take_of_length_le (by omega)]
    exact .done input
  | succ fuel ih =>
    obtain rfl | hlt := hp.eq_or_lt
    · simpa [encodeTokens] using Decodes.done (input.take input.length)
    have len : (input.take p).length = p := List.length_take_of_le hp
    obtain ⟨d, hw, hrecord, hd, hdist, hback, hc, runs⟩ | ⟨n, hn, hfit, runs⟩ := encodeTokens_step input w fuel hlt
    · have fits := repeatCount_fits input w p d
      have pos := Nat.pos_of_ne_zero hw
      have least := Nat.le_mul_of_pos_right (repeatCount input w p d) pos
      have first : Reads w input.length (input.take p) _ _ :=
        reads_repeatToken hw (by rwa [len]) hd hdist (by rwa [len]) hc (by omega) (by rw [len]; omega)
      rw [copyBack_repeatCount hw hd hback hp] at first
      rw [runs]
      exact .token first (ih (by omega) (by omega))
    · have first := decodes_encodeRuns (w := w) (out := input.take p) hmax n [] (bs := (input.drop p).take n) (by simp) (by simp; omega)
      rw [List.append_nil, ← List.take_add] at first
      rw [runs]
      exact first.append (ih hfit (by omega))

/-! ## The block (R336, R337, R343) -/

theorem blockHeader_length (kind w orig coded crc : Nat) : (blockHeader kind w orig coded crc).length = 16 := by
  simp [blockHeader, leBytes_length]

/-- The fields of a header are read as they were written (R336). -/
theorem blockHeader_fields {kind w orig coded crc : Nat} (stream : List Byte) (hkind : kind ≤ 1) (hw : w ≤ 4096) (horig : orig < 2 ^ 32)
    (hcoded : coded < 2 ^ 32) (hcrc : crc < 2 ^ 32) {block : List Byte} (hblock : block = blockHeader kind w orig coded crc ++ stream) :
    (block.headD 0).toNat = 0x10 + kind ∧ block.getD 1 0 = 0 ∧ leAt block 2 2 = w ∧ leAt block 4 4 = orig ∧ leAt block 8 4 = coded ∧
      leAt block 12 4 = crc := by
  let start : List Byte := [BitVec.ofNat 8 (0x10 + kind), 0]
  have cut : block = start ++ (leBytes 2 w ++ (leBytes 4 orig ++ (leBytes 4 coded ++ (leBytes 4 crc ++ stream)))) := by
    simp only [hblock, blockHeader, List.append_assoc, start]
  refine ⟨?kind, ?reserved, ?width, ?orig, ?coded, ?crc⟩
  case kind =>
    have first : block.headD 0 = BitVec.ofNat 8 (0x10 + kind) := by rw [cut]; rfl
    rw [first, BitVec.toNat_ofNat]; omega
  case reserved => rw [cut]; rfl
  case width => rw [cut]; exact leAt_leBytes start _ rfl (by omega)
  case orig => simpa only [cut, List.append_assoc] using leAt_leBytes (o := 4) (start ++ leBytes 2 w) _ rfl horig
  case coded => simpa only [cut, List.append_assoc] using leAt_leBytes (o := 8) (start ++ leBytes 2 w ++ leBytes 4 orig) _ rfl hcoded
  case crc =>
    simpa only [cut, List.append_assoc] using leAt_leBytes (o := 12) (start ++ leBytes 2 w ++ leBytes 4 orig ++ leBytes 4 coded) stream rfl hcrc

/-- A block whose header tells the truth of its stream decodes to what the stream holds. -/
theorem decodeBlock_blockHeader {kind w : Nat} {stream input : List Byte} (hkind : kind ≤ 1) (hw : w ≤ 4096) (hne : input ≠ [])
    (hmax : input.length ≤ 65536) (hstream : stream ≠ []) (hlen : stream.length ≤ input.length)
    (hholds : if kind = 1 then stream = input else Decodes w input.length [] stream input) :
    decodeBlock w (blockHeader kind w input.length stream.length (crc32c input) ++ stream) = .ok input := by
  have posOrig := List.length_pos_iff.mpr hne
  have posCoded := List.length_pos_iff.mpr hstream
  generalize hblock : blockHeader kind w input.length stream.length (crc32c input) ++ stream = block
  obtain ⟨first, reserved, width, orig, coded, crc⟩ :=
    blockHeader_fields stream hkind hw (by omega) (by omega) (crc32c_lt input) hblock.symm
  have len : block.length = 16 + stream.length := by rw [← hblock, List.length_append, blockHeader_length]
  have behind : (block.drop 16).take stream.length = stream := by
    rw [← hblock, List.drop_left' (blockHeader_length ..), List.take_length]
  have tokens : (if kind = 1 then .ok (stream, none) else decodeTokens w input.length stream.length 0 [] stream) =
      (.ok (input, none) : Except (Status × Nat × Nat) (List Byte × Option Nat)) := by
    split at hholds
    next stored => rw [if_pos stored, hholds]
    next tokens => rw [if_neg tokens, hholds.decodeTokens_eq 0 le_rfl]
  have kindOf : (0x10 + kind) % 16 = kind := by omega
  have version : (0x10 + kind) / 16 = 1 := by omega
  have storedLen : kind = 1 → stream.length = input.length := by
    intro stored
    rw [if_pos stored] at hholds
    rw [hholds]
  simp only [decodeBlock, first, reserved, width, orig, coded, crc, len, behind, tokens, kindOf, version]
  rw [if_neg, if_neg (by simp), if_neg (lt_irrefl _), if_pos trivial]
  simp [hstream, hne]
  omega

theorem encodeBlock_length_le (w : Nat) (payload : List Byte) :
    (encodeBlock w payload).length ≤ Nat.min payload.length 65536 + 16 := by
  have len : (payload.take 65536).length = Nat.min payload.length 65536 := (List.length_take ..).trans (Nat.min_comm ..)
  simp only [encodeBlock]
  split <;> rw [List.length_append, blockHeader_length] <;> omega

theorem decodeBlock_encodeBlock (w : Nat) (payload : List Byte) (hw : w ≤ 4096) (hne : payload ≠ []) :
    decodeBlock w (encodeBlock w payload) = .ok (payload.take 65536) := by
  have nonempty : payload.take 65536 ≠ [] := by simp [hne]
  have most : (payload.take 65536).length ≤ 65536 := by simp
  have stream := decodes_encodeTokens w most (payload.take 65536).length (Nat.zero_le _) (by omega)
  rw [List.take_zero] at stream
  simp only [encodeBlock]
  split
  next shorter =>
    refine decodeBlock_blockHeader (by omega) hw nonempty most (fun empty => nonempty ?_) (by omega) stream
    rw [empty] at stream
    exact stream.nil_eq.symm
  next => exact decodeBlock_blockHeader le_rfl hw nonempty most nonempty le_rfl rfl

/-- Settles O26: the round trip of a block, and the bound on its length. -/
theorem codecRoundTrip : Obligations.CodecRoundTrip := by
  unfold Obligations.CodecRoundTrip
  exact ⟨decodeBlock_encodeBlock, encodeBlock_length_le⟩

end Sys2Proof.Machine
end
section
/-! PROOFS. The statements on byte shuffles: TRANSPOSE and UNTRANSPOSE (O27), INTERLEAVE and DE-INTERLEAVE (O28). -/

namespace Sys2Proof.Machine

/-! ## Bytes from bits -/

/-- The sum of the bits up to `n` has just those bits. -/
theorem testBit_foldl_bitIf (p : Nat → Bool) (n : Nat) :
    (List.range n).foldl (fun v k => v + bitIf (p k) k) 0 < 2 ^ n ∧
    ∀ i, ((List.range n).foldl (fun v k => v + bitIf (p k) k) 0).testBit i = (decide (i < n) && p i) := by
  induction n with
  | zero => simp
  | succ n ih =>
    rw [List.range_succ, List.foldl_append, List.foldl_cons, List.foldl_nil]
    generalize (List.range n).foldl (fun v k => v + bitIf (p k) k) 0 = v at ih
    obtain ⟨small, bits⟩ := ih
    cases hp : p n with
    | false =>
      refine ⟨by simp only [bitIf]; grind, fun i => ?_⟩
      simp only [bitIf, Bool.false_eq_true, if_false, Nat.add_zero, bits]
      rcases Nat.lt_trichotomy i n with h | rfl | h
      · simp [h, Nat.lt_succ_of_lt h]
      · simp [hp]
      · simp [Nat.not_lt_of_lt h, show ¬ i < n + 1 by omega]
    | true =>
      refine ⟨by simp only [bitIf, if_true]; omega, fun i => ?_⟩
      simp only [bitIf, if_true, Nat.add_comm v]
      rcases Nat.lt_trichotomy i n with h | rfl | h
      · simp [Nat.testBit_two_pow_add_gt h, bits, h, Nat.lt_succ_of_lt h]
      · simp [Nat.testBit_two_pow_add_eq, bits, hp]
      · have large : 2 ^ n + v < 2 ^ i := lt_of_lt_of_le (by omega) (Nat.pow_le_pow_right two_pos h)
        simp [Nat.testBit_lt_two_pow large, show ¬ i < n + 1 by omega]

theorem getLsbD_foldl_bitIf (p : Nat → Bool) {i : Nat} (hi : i < 8) :
    (BitVec.ofNat 8 ((List.range 8).foldl (fun v k => v + bitIf (p k) k) 0)).getLsbD i = p i := by
  rw [BitVec.getLsbD_ofNat, (testBit_foldl_bitIf p 8).2 i]
  simp [hi]

theorem byte_ext {a b : Byte} (h : ∀ i < 8, a.getLsbD i = b.getLsbD i) : a = b := BitVec.eq_of_getLsbD_eq h

/-! ## Lists that are moved up to a place and copied from there -/

theorem getD_map_range {f : Nat → Byte} {n i : Nat} (rest : List Byte) (h : i < n) : ((List.range n).map f ++ rest).getD i 0 = f i := by
  simp [List.getD, List.getElem?_append, h]

theorem mul_add_lt {q a n m : Nat} (hq : q < a) (hm : m < n) : q * n + m < a * n := by
  rw [Nat.mul_comm q]
  exact Nat.mul_add_lt_mul_of_lt_of_lt hq hm

theorem mul_add_div_of_lt {a n x : Nat} (hx : x < n) : (a * n + x) / n = a := by
  rw [Nat.mul_comm, Nat.mul_add_div (by omega), Nat.div_eq_of_lt hx, Nat.add_zero]

theorem mul_add_mod_of_lt {a n x : Nat} (hx : x < n) : (a * n + x) % n = x := by rw [Nat.mul_add_mod', Nat.mod_eq_of_lt hx]

theorem flatten_map_range (f : Nat → Nat → Byte) (a n : Nat) :
    ((List.range a).map fun q => (List.range n).map (f q)).flatten = (List.range (a * n)).map fun i => f (i / n) (i % n) := by
  induction a with
  | zero => simp
  | succ a ih =>
    rw [List.range_succ, List.map_append, List.flatten_append, ih, Nat.succ_mul, List.range_add, List.map_append]
    congr 1
    rw [List.map_cons, List.map_nil, List.flatten_cons, List.flatten_nil, List.append_nil, List.map_map]
    refine List.map_congr_left fun m hm => ?_
    simp only [Function.comp_apply, mul_add_div_of_lt (List.mem_range.1 hm), mul_add_mod_of_lt (List.mem_range.1 hm)]

/-- Two lists that agree up to a place and from there. -/
theorem eq_of_getD_of_drop {a b : List Byte} {n : Nat} (hlen : a.length = b.length) (hdrop : a.drop n = b.drop n)
    (h : ∀ i < n, a.getD i 0 = b.getD i 0) : a = b := by
  refine List.ext_getElem hlen fun i ha hb => ?_
  rcases Nat.lt_or_ge i n with hi | hi
  · simpa [ha, hb] using h i hi
  · have tail := congrArg (fun l => l.getD (i - n) 0) hdrop
    simpa [List.getD, List.getElem?_drop, Nat.add_sub_cancel' hi, ha, hb] using tail

theorem moved_length {f : Nat → Byte} {n : Nat} {bs : List Byte} (h : n ≤ bs.length) : ((List.range n).map f ++ bs.drop n).length = bs.length := by
  simp; omega

theorem moved_drop {f : Nat → Byte} {n : Nat} {bs : List Byte} : ((List.range n).map f ++ bs.drop n).drop n = bs.drop n := by
  simp

/-! ## TRANSPOSE and UNTRANSPOSE (R386, R387) -/

/-- The bytes of the whole groups of 8 units. -/
def groupBytes (u len : Nat) : Nat := 8 * (len / u / 8) * u

theorem groupBytes_le (u len : Nat) : groupBytes u len ≤ len :=
  calc 8 * (len / u / 8) * u ≤ len / u * u := Nat.mul_le_mul_right u (Nat.mul_div_le _ 8)
    _ ≤ len := Nat.div_mul_le_self len u

section
variable (u : Nat) (bs : List Byte)

/-- The byte of a plane: bit k is a bit of unit 8m + k. -/
def planeByte (q m : Nat) : Byte :=
  BitVec.ofNat 8 ((List.range 8).foldl (fun v k => v + bitIf ((bs.getD ((8 * m + k) * u + q / 8) 0).getLsbD (q % 8)) k) 0)

/-- Byte j of unit t: bit b comes from plane 8j + b. -/
def unitByte (t j : Nat) : Byte :=
  BitVec.ofNat 8 ((List.range 8).foldl (fun v b =>
    v + bitIf ((bs.getD ((8 * j + b) * (bs.length / u / 8) + t / 8) 0).getLsbD (t % 8)) b) 0)

theorem transpose_eq : transpose u bs = (List.range (groupBytes u bs.length)).map (fun i =>
      planeByte u bs (i / (bs.length / u / 8)) (i % (bs.length / u / 8))) ++ bs.drop (groupBytes u bs.length) := by
  have planes : 8 * u * (bs.length / u / 8) = groupBytes u bs.length := by unfold groupBytes; ring
  rw [← planes, ← flatten_map_range (planeByte u bs), planes]
  simp only [transpose, shuffleGroup, groupBytes, Nat.mul_div_cancel_left _ (show 0 < 8 by decide)]
  rfl

theorem untranspose_eq : untranspose u bs = (List.range (groupBytes u bs.length)).map (fun i => unitByte u bs (i / u) (i % u)) ++
    bs.drop (groupBytes u bs.length) := by
  simp only [untranspose, shuffleGroup, unitByte, groupBytes, Nat.mul_div_cancel_left _ (show 0 < 8 by decide)]

@[simp] theorem transpose_length : (transpose u bs).length = bs.length := by
  rw [transpose_eq, moved_length (groupBytes_le u _)]

@[simp] theorem untranspose_length : (untranspose u bs).length = bs.length := by
  rw [untranspose_eq, moved_length (groupBytes_le u _)]

theorem transpose_drop : (transpose u bs).drop (groupBytes u bs.length) = bs.drop (groupBytes u bs.length) := by
  rw [transpose_eq, moved_drop]

theorem untranspose_drop : (untranspose u bs).drop (groupBytes u bs.length) = bs.drop (groupBytes u bs.length) := by
  rw [untranspose_eq, moved_drop]

variable {u bs} {m k j b : Nat} (hm : m < bs.length / u / 8) (hk : k < 8) (hj : j < u) (hb : b < 8)
include hm hk hj hb

theorem transpose_bit : ((transpose u bs).getD ((8 * j + b) * (bs.length / u / 8) + m) 0).getLsbD k =
    (bs.getD ((8 * m + k) * u + j) 0).getLsbD b := by
  have place : (8 * j + b) * (bs.length / u / 8) + m < groupBytes u bs.length :=
    calc (8 * j + b) * (bs.length / u / 8) + m < 8 * u * (bs.length / u / 8) := mul_add_lt (by omega) hm
      _ = groupBytes u bs.length := Nat.mul_right_comm ..
  rw [transpose_eq, getD_map_range _ place, mul_add_div_of_lt hm, mul_add_mod_of_lt hm, planeByte, getLsbD_foldl_bitIf _ hk]
  rw [show (8 * j + b) / 8 = j by omega, show (8 * j + b) % 8 = b by omega]

theorem untranspose_bit : ((untranspose u bs).getD ((8 * m + k) * u + j) 0).getLsbD b =
    (bs.getD ((8 * j + b) * (bs.length / u / 8) + m) 0).getLsbD k := by
  have place : (8 * m + k) * u + j < groupBytes u bs.length := mul_add_lt (by omega) hj
  rw [untranspose_eq, getD_map_range _ place, mul_add_div_of_lt hj, mul_add_mod_of_lt hj, unitByte, getLsbD_foldl_bitIf _ hb]
  rw [show (8 * m + k) / 8 = m by omega, show (8 * m + k) % 8 = k by omega]
end

theorem untranspose_transpose {u : Nat} (bs : List Byte) (hu : 1 ≤ u) : untranspose u (transpose u bs) = bs := by
  have len : (transpose u bs).length = bs.length := transpose_length u bs
  refine eq_of_getD_of_drop (n := groupBytes u bs.length) (by simp) ?_ fun i hi => byte_ext fun b hb => ?_
  · have := untranspose_drop u (transpose u bs)
    rwa [len, transpose_drop] at this
  · have hm : i / u / 8 < bs.length / u / 8 := by
      rw [Nat.div_lt_iff_lt_mul (by decide), Nat.div_lt_iff_lt_mul hu]; unfold groupBytes at hi; rwa [Nat.mul_comm _ 8]
    have hk : i / u % 8 < 8 := Nat.mod_lt _ (by decide)
    have hj : i % u < u := Nat.mod_lt _ hu
    have there := untranspose_bit (bs := transpose u bs) (by rwa [len]) hk hj hb
    rw [len, transpose_bit hm hk hj hb, Nat.div_add_mod, Nat.div_add_mod'] at there
    exact there

theorem transpose_untranspose (u : Nat) (bs : List Byte) : transpose u (untranspose u bs) = bs := by
  have len : (untranspose u bs).length = bs.length := untranspose_length u bs
  refine eq_of_getD_of_drop (n := groupBytes u bs.length) (by simp) ?_ fun i hi => byte_ext fun k hk => ?_
  · have := transpose_drop u (untranspose u bs)
    rwa [len, untranspose_drop] at this
  · have planes : i < 8 * u * (bs.length / u / 8) := by rwa [Nat.mul_right_comm]
    have groups : 0 < bs.length / u / 8 := Nat.pos_of_ne_zero fun zero => by simp [zero] at planes
    have hm : i % (bs.length / u / 8) < bs.length / u / 8 := Nat.mod_lt _ groups
    have hj : i / (bs.length / u / 8) / 8 < u := by
      rw [Nat.div_lt_iff_lt_mul (by decide), Nat.div_lt_iff_lt_mul groups]; rwa [Nat.mul_comm u 8]
    have hb : i / (bs.length / u / 8) % 8 < 8 := Nat.mod_lt _ (by decide)
    have there := transpose_bit (bs := untranspose u bs) (by rwa [len]) hk hj hb
    rw [len, untranspose_bit hm hk hj hb, Nat.div_add_mod, Nat.div_add_mod'] at there
    exact there

/-! ## INTERLEAVE and DE-INTERLEAVE (R388) -/

section
variable (st e : Nat) (bs : List Byte)

/-- The bytes of the whole rounds of one element of each stream. -/
def roundBytes (st e len : Nat) : Nat := st * (len / (st * e)) * e

theorem roundBytes_le (len : Nat) : roundBytes st e len ≤ len := by
  unfold roundBytes
  rw [Nat.mul_right_comm]
  exact Nat.mul_div_le len (st * e)

@[simp] theorem interleave_length : (interleave st e bs).length = bs.length := moved_length (roundBytes_le st e _)

@[simp] theorem deinterleave_length : (deinterleave st e bs).length = bs.length := moved_length (roundBytes_le st e _)

theorem interleave_drop : (interleave st e bs).drop (roundBytes st e bs.length) = bs.drop (roundBytes st e bs.length) := moved_drop

theorem deinterleave_drop : (deinterleave st e bs).drop (roundBytes st e bs.length) = bs.drop (roundBytes st e bs.length) := moved_drop

end

section
variable {st e : Nat} {bs : List Byte} {k i x : Nat} (hk : k < bs.length / (st * e)) (hi : i < st) (hx : x < e)
include hk hi hx

theorem interleave_getD :
    (interleave st e bs).getD ((k * st + i) * e + x) 0 = bs.getD (i * (bs.length / (st * e)) * e + k * e + x) 0 := by
  have place : (k * st + i) * e + x < st * (bs.length / (st * e)) * e := by
    rw [Nat.mul_comm st]; exact mul_add_lt (mul_add_lt hk hi) hx
  simp only [interleave]
  rw [getD_map_range _ place]
  simp only [mul_add_div_of_lt hx, mul_add_mod_of_lt hx, mul_add_div_of_lt hi, mul_add_mod_of_lt hi]

theorem deinterleave_getD :
    (deinterleave st e bs).getD (i * (bs.length / (st * e)) * e + k * e + x) 0 = bs.getD ((k * st + i) * e + x) 0 := by
  rw [← Nat.add_mul]
  simp only [deinterleave]
  rw [getD_map_range _ (mul_add_lt (mul_add_lt hi hk) hx)]
  simp only [mul_add_div_of_lt hx, mul_add_mod_of_lt hx, mul_add_div_of_lt hk, mul_add_mod_of_lt hk]

end

theorem deinterleave_interleave (st : Nat) {e : Nat} (bs : List Byte) (he : 1 ≤ e) : deinterleave st e (interleave st e bs) = bs := by
  have len : (interleave st e bs).length = bs.length := interleave_length st e bs
  refine eq_of_getD_of_drop (n := roundBytes st e bs.length) (by simp) ?_ fun p hp => ?_
  · have := deinterleave_drop st e (interleave st e bs)
    rwa [len, interleave_drop] at this
  · have rounds : 0 < bs.length / (st * e) := Nat.pos_of_ne_zero fun zero => by simp [roundBytes, zero] at hp
    have hk : p / e % (bs.length / (st * e)) < bs.length / (st * e) := Nat.mod_lt _ rounds
    have hi : p / e / (bs.length / (st * e)) < st := by
      rw [Nat.div_lt_iff_lt_mul rounds, Nat.div_lt_iff_lt_mul he]; exact hp
    have hx : p % e < e := Nat.mod_lt _ he
    have there := deinterleave_getD (bs := interleave st e bs) (by rwa [len]) hi hx
    rw [len, interleave_getD hk hi hx, ← Nat.add_mul, Nat.div_add_mod', Nat.div_add_mod'] at there
    exact there

theorem interleave_deinterleave {st e : Nat} (bs : List Byte) (hst : 1 ≤ st) (he : 1 ≤ e) : interleave st e (deinterleave st e bs) = bs := by
  have len : (deinterleave st e bs).length = bs.length := deinterleave_length st e bs
  refine eq_of_getD_of_drop (n := roundBytes st e bs.length) (by simp) ?_ fun p hp => ?_
  · have := interleave_drop st e (deinterleave st e bs)
    rwa [len, deinterleave_drop] at this
  · have hk : p / e / st < bs.length / (st * e) := by
      rw [Nat.div_lt_iff_lt_mul hst, Nat.div_lt_iff_lt_mul he, Nat.mul_comm _ st]; exact hp
    have hi : p / e % st < st := Nat.mod_lt _ hst
    have hx : p % e < e := Nat.mod_lt _ he
    have there := interleave_getD (bs := deinterleave st e bs) (by rwa [len]) hi hx
    rw [len, deinterleave_getD hk hi hx, Nat.div_add_mod', Nat.div_add_mod'] at there
    exact there

/-- Settles O27: each bit moves where its index map sends it, and the two maps undo each other. -/
theorem untransposeInverts : Obligations.UntransposeInverts := by
  unfold Obligations.UntransposeInverts
  exact ⟨fun u bs hu => ⟨untranspose_transpose bs hu, untranspose_length u bs, untranspose_drop u bs, fun _ _ _ _ hm hk hj hb =>
      untranspose_bit hm hk hj hb⟩,
    fun u bs _ => ⟨transpose_untranspose u bs, transpose_length u bs, transpose_drop u bs, fun _ _ _ _ hm hk hj hb =>
      transpose_bit hm hk hj hb⟩⟩

/-- Settles O28: each element moves where its index map sends it, and the two maps undo each other. -/
theorem interleaveInverts : Obligations.InterleaveInverts := by
  unfold Obligations.InterleaveInverts
  exact fun st e bs hst he => ⟨deinterleave_interleave st bs he, interleave_deinterleave bs hst he, interleave_length st e bs,
    interleave_drop st e bs, fun _ _ _ hk hi hx => interleave_getD hk hi hx, deinterleave_length st e bs, deinterleave_drop st e bs,
    fun _ _ _ hk hi hx => deinterleave_getD hk hi hx⟩

end Sys2Proof.Machine
end
section
/-! PROOFS. The statement on the winner of a Lynx search (O29). -/

namespace Sys2Proof.Machine

/-! ## The winner of a search (R355, R356) -/

/-- A match that wins against another: higher PRIO, or the same and no higher index. -/
def Wins (x y : Nat × LynxEntry) : Prop := y.2.prio ≤ x.2.prio ∧ (y.2.prio = x.2.prio → x.1 ≤ y.1)

theorem lynxBetter_some_wins {x b y : Nat × LynxEntry} (h : lynxBetter (some x) b = some y) :
    (y = x ∨ y = b) ∧ Wins y b ∧ ∀ z, Wins x z → Wins y z := by
  simp only [lynxBetter] at h
  split at h <;> cases h <;> simp only [Wins] <;> grind

theorem foldl_lynxBetter_wins (l : List (Nat × LynxEntry)) :
    (l.foldl lynxBetter none = none → l = []) ∧ ∀ x, l.foldl lynxBetter none = some x → x ∈ l ∧ ∀ z ∈ l, Wins x z := by
  induction l using List.reverseRecOn with
  | nil => simp
  | append_singleton l b ih =>
    rw [List.foldl_append, List.foldl_cons, List.foldl_nil]
    cases hl : l.foldl lynxBetter none with
    | none =>
      obtain rfl := ih.1 hl
      simp [lynxBetter, Wins]
    | some x =>
      obtain ⟨hx, best⟩ := ih.2 x hl
      refine ⟨fun h => ?_, fun y hy => ?_⟩
      · simp only [lynxBetter] at h
        split at h <;> cases h
      · obtain ⟨which, overB, overRest⟩ := lynxBetter_some_wins hy
        refine ⟨by rcases which with rfl | rfl <;> simp [hx], fun z hz => ?_⟩
        rcases List.mem_append.1 hz with hz | hz
        · exact overRest z (best z hz)
        · rwa [List.mem_singleton.1 hz]

theorem LynxTable.mem_hits {t : LynxTable} {key : List Byte} {x : Nat × LynxEntry} :
    x ∈ t.hits key ↔ x ∈ t.entries ∧ x.2.valid = true ∧ x.2.key = key := by
  simp [LynxTable.hits]

theorem LynxTable.winner_wins {t : LynxTable} {key : List Byte} {i : Nat} {e : LynxEntry} (h : t.winner key = some (i, e)) :
    ((i, e) ∈ t.entries ∧ e.valid = true ∧ e.key = key) ∧
    ∀ x ∈ t.entries, x.2.valid = true → x.2.key = key → x.2.prio ≤ e.prio ∧ (x.2.prio = e.prio → i ≤ x.1) := by
  obtain ⟨hit, best⟩ := (foldl_lynxBetter_wins (t.hits key)).2 _ h
  exact ⟨LynxTable.mem_hits.1 hit, fun x hx hv hk => best x (LynxTable.mem_hits.2 ⟨hx, hv, hk⟩)⟩

theorem LynxTable.winner_eq_none_iff (t : LynxTable) (key : List Byte) :
    t.winner key = none ↔ ∀ x ∈ t.entries, ¬(x.2.valid = true ∧ x.2.key = key) := by
  have empty : t.winner key = none ↔ t.hits key = [] :=
    ⟨(foldl_lynxBetter_wins (t.hits key)).1, fun h => by rw [LynxTable.winner, h]; rfl⟩
  rw [empty, List.eq_nil_iff_forall_not_mem]
  simp only [LynxTable.mem_hits, not_and]

theorem LynxTable.countAt_eq (t : LynxTable) (key : List Byte) (p : Nat) : t.countAt key p =
    Nat.min 255 (t.entries.filter fun x => x.2.valid && decide (x.2.key = key) && decide (x.2.prio = p)).length := by
  rw [LynxTable.countAt, LynxTable.hits, List.filter_filter]
  congr 3
  funext x
  rw [Bool.and_comm]

theorem LynxTable.countAt_le (t : LynxTable) (key : List Byte) (p : Nat) : t.countAt key p ≤ 255 := Nat.min_le_left ..

theorem LynxTable.result_of_none {t : LynxTable} {key : List Byte} (v : Bool) (h : t.winner key = none) : t.result key v = 0 := by
  simp only [LynxTable.result, h]

theorem LynxTable.result_of_some {t : LynxTable} {key : List Byte} {i : Nat} {e : LynxEntry} (v : Bool) (h : t.winner key = some (i, e)) :
    t.result key v = 2 ^ 62 + (if 2 ≤ t.countAt key e.prio then 1 else 0) * 2 ^ 61 + (if v then 1 else 0) * 2 ^ 60 + e.prio % 8 * 2 ^ 57 +
      t.countAt key e.prio * 2 ^ 48 + i % 2 ^ 18 * 2 ^ 24 + e.value % 2 ^ 24 := by
  simp only [LynxTable.result, h, bitIf, decide_eq_true_eq, ite_mul, one_mul, zero_mul]

/-- Fields that fit their places are read back from their sum. -/
theorem resultFields {m c p n i x : Nat} (hm : m ≤ 1) (hc : c ≤ 1) (hp : p < 8) (hn : n ≤ 255) (hi : i < 2 ^ 18) (hx : x < 2 ^ 24) {w : Nat}
    (hw : w = 2 ^ 62 + m * 2 ^ 61 + c * 2 ^ 60 + p * 2 ^ 57 + n * 2 ^ 48 + i * 2 ^ 24 + x) :
    w < 2 ^ 63 ∧ w / 2 ^ 62 = 1 ∧ w / 2 ^ 61 % 2 = m ∧ w / 2 ^ 60 % 2 = c ∧ w / 2 ^ 57 % 8 = p ∧ w / 2 ^ 48 % 2 ^ 9 = n ∧
      w / 2 ^ 24 % 2 ^ 24 = i ∧ w % 2 ^ 24 = x := by
  omega

theorem LynxTable.result_lt (t : LynxTable) (key : List Byte) (v : Bool) : t.result key v < 2 ^ 63 := by
  cases h : t.winner key with
  | none => rw [LynxTable.result_of_none v h]; decide
  | some w =>
    have few := t.countAt_le key w.2.prio
    exact (resultFields (by split <;> decide) (by split <;> decide) (Nat.mod_lt _ (by decide)) few (Nat.mod_lt _ (by decide))
      (Nat.mod_lt _ (by decide)) (LynxTable.result_of_some v h)).1

/-- Settles O29: the fold keeps the best match so far, and the fields of the result word do not overlap. -/
theorem lynxWinner : Obligations.LynxWinner := by
  unfold Obligations.LynxWinner
  refine ⟨fun t key => ⟨fun i e h => ?_, t.winner_eq_none_iff key⟩, fun t key v => ⟨t.result_lt key v, t.result_of_none v, ?_⟩⟩
  · obtain ⟨⟨mem, valid, keyed⟩, best⟩ := t.winner_wins h
    exact ⟨mem, valid, keyed, best, t.countAt_eq key e.prio⟩
  · intro i e h hp hi hx
    have word := LynxTable.result_of_some v h
    rw [Nat.mod_eq_of_lt hp, Nat.mod_eq_of_lt hi, Nat.mod_eq_of_lt hx] at word
    exact (resultFields (by split <;> decide) (by split <;> decide) hp (t.countAt_le key e.prio) hi hx word).2

end Sys2Proof.Machine
end
section
/-! PROOFS. The statements on steps (O57), the queue (O58) and the firmware that runs (O60): a relation between two states, which each
operation that boots and each command keeps. -/

namespace Sys2Proof.Machine

/-! ## What is kept -/

/-- The parts of a state other than its queue and what runs, with what the fuses allow. -/
def unwatched : List Part :=
  [.regs, .sys, .power, .board, .host, .ns, .ftl, .media, .str, .sea, .dgs, .lynx, .dma, .disp, .hrt, .memory, .boot, .health, .free]
@[simp] theorem mem_unwatched (p : Part) : p ∈ unwatched ↔ p ≠ .firmware ∧ p ≠ .queue := by cases p <;> decide

/-- From one state to the other the queue stays, and the firmware is as secure as it was (R506). -/
structure Kept (a t : State) : Prop where
  pending : t.pending = a.pending
  secure : SecureFirmware a → SecureFirmware t
  svn : a.boot.fuseSvn ≤ t.boot.fuseSvn
  revoked : ∀ n, a.boot.revoked.getLsbD n = true → t.boot.revoked.getLsbD n = true

theorem Kept.refl (s : State) : Kept s s := ⟨rfl, id, le_refl _, fun _ => id⟩
theorem Kept.trans {a s t : State} (h : Kept a s) (k : Kept s t) : Kept a t :=
  ⟨k.pending.trans h.pending, k.secure ∘ h.secure, h.svn.trans k.svn, fun n => k.revoked n ∘ h.revoked n⟩

/-- Which firmware is valid depends on the fuses only. -/
theorem imageValid_congr {b b' : Boot} (hf : b'.fuseSvn = b.fuseSvn) (hr : b'.revoked = b.revoked) (i : FwImage) :
    imageValid b' i = imageValid b i := by
  unfold imageValid; rw [hf, hr]

/-- A change of what is not watched, or of the image for none or for a valid one. -/
theorem kept_of_same {s t : State} (hq : t.pending = s.pending) (hf : t.boot.fuseSvn = s.boot.fuseSvn)
    (hr : t.boot.revoked = s.boot.revoked)
    (hi : ∀ i, t.boot.image = some i → s.boot.image = some i ∨ imageValid s.boot i = true) : Kept s t where
  pending := hq
  secure hs i h := by
    rw [imageValid_congr hf hr]
    exact (hi i h).elim (hs i) id
  svn := hf.ge
  revoked n h := by rwa [hr]

/-- The parts that are not watched do not matter. -/
theorem kept_blank {a t : State} : Kept a (t.blank unwatched) ↔ Kept a t := by
  have e : (t.blank unwatched).boot.image = t.boot.image := by simp [State.blank]
  have f : (t.blank unwatched).boot.fuseSvn = t.boot.fuseSvn := by simp [State.blank]
  have r : (t.blank unwatched).boot.revoked = t.boot.revoked := by simp [State.blank]
  have q : (t.blank unwatched).pending = t.pending := by simp [State.blank]
  exact ⟨fun h => h.trans (kept_of_same q.symm f.symm r.symm fun i h => .inl (e ▸ h)),
    fun h => h.trans (kept_of_same q f r fun i h => .inl (e ▸ h))⟩

theorem kept_of_blank {s t : State} (h : t.blank unwatched = s.blank unwatched) : Kept s t :=
  kept_blank.1 (h ▸ kept_blank.2 (Kept.refl s))

@[simp] theorem kept_ite {a s t : State} {c : Prop} [Decidable c] : Kept a (if c then s else t) ↔ if c then Kept a s else Kept a t := by
  split <;> rfl

theorem kept_foldl {α : Type} {a : State} {g : State → α → State}
    (hg : ∀ t x, Kept a (t.blank unwatched) → Kept a ((g t x).blank unwatched)) (l : List α) (s : State)
    (h : Kept a (s.blank unwatched)) : Kept a ((l.foldl g s).blank unwatched) := by
  induction l generalizing s with
  | nil => exact h
  | cons x l ih => exact ih _ (hg s x h)

/-! ## Boots and resets -/

/-- Another choice of the slot to boot leaves what runs and the fuses. -/
theorem Boot.ite_select (c : Prop) [Decidable c] (b : Boot) (g : Selector → Selector) :
    let d := if c then b.select g else b
    d.fuseSvn = b.fuseSvn ∧ d.revoked = b.revoked ∧ d.image = b.image := by
  dsimp only; split <;> exact ⟨rfl, rfl, rfl⟩

/-- The slot that the boot ROM chooses is usable; the choice leaves what runs and the fuses. -/
theorem Boot.choose_usable (b : Boot) : (b.choose.1.fuseSvn = b.fuseSvn ∧ b.choose.1.revoked = b.revoked ∧
    b.choose.1.image = b.image) ∧ ∀ n, b.choose.2 = some n → b.choose.1.usable n = true := by
  unfold Boot.choose
  extract_lets b1 c b2
  obtain ⟨f1, r1, i1⟩ : b1.fuseSvn = b.fuseSvn ∧ b1.revoked = b.revoked ∧ b1.image = b.image := Boot.ite_select ..
  obtain ⟨f2, r2, i2⟩ : b2.fuseSvn = b1.fuseSvn ∧ b2.revoked = b1.revoked ∧ b2.image = b1.image := Boot.ite_select ..
  have kept2 := And.intro (f2.trans f1) (And.intro (r2.trans r1) (i2.trans i1))
  split
  · next first => exact ⟨⟨f1, r1, i1⟩, fun n hn => Option.some.inj hn ▸ first⟩
  · split
    · next other => exact ⟨kept2, fun n hn => Option.some.inj hn ▸ other⟩
    · exact ⟨kept2, fun n hn => nomatch hn⟩

theorem Boot.valid_of_usable {b : Boot} {n : Nat} {i : FwImage} (h : b.usable n = true) (hi : b.slotImage n = some i) :
    imageValid b i = true := by
  simp only [Boot.usable, hi, Bool.and_eq_true] at h
  exact h.2

@[simp ↓] theorem State.tellFirmware_blank_unwatched (s : State) (i : Island) : (s.tellFirmware i).blank unwatched = s.blank unwatched := by
  simp [State.tellFirmware]

theorem State.coldReset_kept (s : State) (powerOn : Bool) : Kept s (s.coldReset powerOn) := by
  unfold State.coldReset
  extract_lets s0 esc s1 s2 s3
  have h3 : Kept s s3 := kept_of_blank (by simp [s3, s2, s1, s0])
  exact h3.trans (kept_of_same rfl rfl rfl fun i h => nomatch h)

@[simp ↓] theorem State.enterBootHold_blank_unwatched (s : State) : s.enterBootHold.blank unwatched = s.blank unwatched := by
  simp [State.enterBootHold]

theorem State.bootStart_kept (s : State) (cause : Nat) : Kept s (s.bootStart cause) := by
  unfold State.bootStart
  extract_lets s1 train s2
  have h2 : Kept s s2 := kept_of_blank (by simp [s2, s1])
  split
  · exact h2.trans (kept_of_blank (by simp))
  · have chosen := s2.boot.choose_usable
    rcases hc : s2.boot.choose with ⟨b, slot⟩
    rw [hc] at chosen
    obtain ⟨⟨hf, hr, hi⟩, usable⟩ := chosen
    refine h2.trans ?_
    cases slot with
    | none =>
      have held : Kept s2 (s2.onBoot fun _ => b) := kept_of_same rfl hf hr fun i h => .inl (hi ▸ h)
      exact held.trans (kept_of_blank (by simp))
    | some n =>
      have runs : Kept s2 (s2.onBoot fun _ =>
          { b with running := n, image := b.slotImage n, cause := if n = s2.boot.first then cause else 4 }) :=
        kept_of_same rfl hf hr fun i h => .inr (imageValid_congr hf hr i ▸ Boot.valid_of_usable (usable n rfl) h)
      exact runs.trans (kept_of_blank (by simp))

section
variable {a : State} (s : State)

theorem Kept.lift {t : State} (k : Kept s t) (h : Kept a (s.blank unwatched)) : Kept a (t.blank unwatched) :=
  kept_blank.2 ((kept_blank.1 h).trans k)

@[simp] theorem State.coldReset_stays (powerOn : Bool) (h : Kept a (s.blank unwatched)) : Kept a ((s.coldReset powerOn).blank unwatched) :=
  (s.coldReset_kept powerOn).lift s h
@[simp] theorem State.bootStart_stays (cause : Nat) (h : Kept a (s.blank unwatched)) : Kept a ((s.bootStart cause).blank unwatched) :=
  (s.bootStart_kept cause).lift s h
@[simp] theorem State.afterDump_stays (h : Kept a (s.blank unwatched)) : Kept a (s.afterDump.blank unwatched) := by
  unfold State.afterDump; split <;> simp [h]
/-- What follows a dump that may be needed. -/
theorem State.dumpStart_then_stays (dc : DumpCause) (done : State → State) (hd : ∀ t : State, Kept a (t.blank unwatched) → Kept a ((done t).blank unwatched))
    (h : Kept a (s.blank unwatched)) :
    Kept a ((match s.dumpStart dc with | (t, true) => done t | (t, false) => t.afterDump).blank unwatched) := by
  rcases hs : s.dumpStart dc with ⟨t, needed⟩
  have ht : Kept a (t.blank unwatched) := by rw [blank_fst (s := s) hs (by simp)]; exact h
  cases needed
  · exact State.afterDump_stays t ht
  · exact hd t ht
@[simp] theorem State.l4Reset_stays (i : Island) (cause : Nat) (dc : DumpCause) (h : Kept a (s.blank unwatched)) :
    Kept a ((s.l4Reset i cause dc).blank unwatched) := by
  unfold State.l4Reset
  split
  · exact State.dumpStart_then_stays _ dc id (fun _ => id) (by simp [h])
  · exact h
@[simp] theorem State.l3Reset_stays (i : Island) (cause : Nat) (h : Kept a (s.blank unwatched)) : Kept a ((s.l3Reset i cause).blank unwatched) := by
  unfold State.l3Reset; simp [h]
@[simp] theorem State.l2Reset_stays (i : Island) (unit cause : Nat) (h : Kept a (s.blank unwatched)) :
    Kept a ((s.l2Reset i unit cause).blank unwatched) := by
  unfold State.l2Reset; simp [h]
@[simp] theorem State.l1Reset_stays (cls : UnitClass) (cause : Nat) (timedOut : Option Nat) (h : Kept a (s.blank unwatched)) :
    Kept a ((s.l1Reset cls cause timedOut).blank unwatched) := by
  unfold State.l1Reset; simp [h]
@[simp] theorem State.l1Hart_stays (hart cause : Nat) (h : Kept a (s.blank unwatched)) : Kept a ((s.l1Hart hart cause).blank unwatched) := by
  unfold State.l1Hart; simp [h]
@[simp] theorem State.hartResetFails_stays (hart : Nat) (h : Kept a (s.blank unwatched)) : Kept a ((s.hartResetFails hart).blank unwatched) := by
  exact State.l2Reset_stays _ .compute hart 5 (by simp [h])
@[simp] theorem State.alarm_stays (c : AlarmCause) (h : Kept a (s.blank unwatched)) : Kept a ((s.alarm c).blank unwatched) := by
  unfold State.alarm; simp [h]
@[simp] theorem State.thermalRestart_stays (h : Kept a (s.blank unwatched)) : Kept a (s.thermalRestart.blank unwatched) := by
  unfold State.thermalRestart
  exact State.dumpStart_then_stays _ .thermalRestart id (fun _ => id) (by simp [h])
@[simp] theorem State.powerFail_stays (dc : DumpCause) (h : Kept a (s.blank unwatched)) : Kept a ((s.powerFail dc).blank unwatched) := by
  unfold State.powerFail
  extract_lets s0 s1
  have h1 : Kept a (s1.blank unwatched) := by
    simp only [s1]
    split
    · split <;> simp [s0, h]
    · simp [s0, h]
  exact State.dumpStart_then_stays s1 dc (fun t => t.addCnt (rPwrCount 5) 1) (fun t ht => by simp [ht]) h1
@[simp] theorem State.pfailSeen_stays (h : Kept a (s.blank unwatched)) : Kept a (s.pfailSeen.blank unwatched) := by
  unfold State.pfailSeen; simp [h]
@[simp] theorem State.holdBoot_stays (h : Kept a (s.blank unwatched)) : Kept a (s.holdBoot.blank unwatched) := by
  unfold State.holdBoot; simp [h]

/-! ## Bridges and losses of contents -/

@[simp ↓] theorem State.barMiss_blank_unwatched (r : Requester) (off : Nat) : (s.barMiss r off).blank unwatched = s.blank unwatched := by
  unfold State.barMiss; (repeat' split) <;> simp
@[simp ↓] theorem State.portMiss_blank_unwatched (r : PortReq) : (s.portMiss r).blank unwatched = s.blank unwatched := by
  unfold State.portMiss; simp
@[simp ↓] theorem State.dmaCtlWrite_blank_unwatched (r : Requester) (n : Nat) (v : W32) :
    (s.dmaCtlWrite r n v).blank unwatched = s.blank unwatched := by
  unfold State.dmaCtlWrite; simp
@[simp ↓] theorem State.passTime_blank_unwatched (n : Nat) : (s.passTime n).blank unwatched = s.blank unwatched := by
  unfold State.passTime; simp
@[simp ↓] theorem State.admitTrail_blank_unwatched (w : Who) (c : Checked) (exec : Bool) :
    (s.admitTrail w c exec).blank unwatched = s.blank unwatched := by
  unfold State.admitTrail
  split
  · simp
  · split
    · simp
    · split
      next bound => simp [blank_fst (s := s) bound]
@[simp ↓] theorem State.tableRead_blank_unwatched (p : Port) (m : Mem) (limit offset length : Nat) :
    (s.tableRead p m limit offset length).1.blank unwatched = s.blank unwatched := by
  unfold State.tableRead; split <;> simp
@[simp ↓] theorem State.opalMethod_blank_unwatched (p : Port) (m : OpalMethod) : (s.opalMethod p m).1.blank unwatched = s.blank unwatched := by
  cases m <;> simp only [State.opalMethod, apply_ite Prod.fst] <;> (repeat' split) <;> simp
@[simp ↓] theorem State.bridgeAnswer_blank_unwatched (target : Island) (r : BridgeReq) :
    (s.bridgeAnswer target r).blank unwatched = s.blank unwatched := by
  unfold State.bridgeAnswer; (repeat' split) <;> simp
@[simp] theorem State.bridgeEscalate_stays (target : Island) (h : Kept a (s.blank unwatched)) :
    Kept a ((s.bridgeEscalate target).blank unwatched) := by
  unfold State.bridgeEscalate; simp [h]
@[simp] theorem State.bridgeError_stays (target source : Island) (req : BridgeReq) (h : Kept a (s.blank unwatched)) :
    Kept a ((s.bridgeError target source req).blank unwatched) := by
  unfold State.bridgeError; simp [h]
@[simp] theorem State.escalateBridges_stays (h : Kept a (s.blank unwatched)) : Kept a (s.escalateBridges.blank unwatched) := by
  unfold State.escalateBridges
  exact kept_foldl (fun t i ht => State.bridgeEscalate_stays t i ht) _ s h
@[simp] theorem State.entryHeadLost_stays (flow stage cslot : Nat) (h : Kept a (s.blank unwatched)) :
    Kept a ((s.entryHeadLost flow stage cslot).blank unwatched) := by
  unfold State.entryHeadLost
  split
  · exact h
  · extract_lets s1
    have h1 : Kept a (s1.blank unwatched) := by simp [s1, h]
    split
    · simp [h1]
    · exact h1
@[simp] theorem State.contentLost_stays (held : Held) (h : Kept a (s.blank unwatched)) : Kept a ((s.contentLost held).blank unwatched) := by
  unfold State.contentLost; split <;> simp [h]
@[simp] theorem State.uncorrectable_stays (g at_ : Nat) (held : Held) (poison : Bool) (h : Kept a (s.blank unwatched)) :
    Kept a ((s.uncorrectable g at_ held poison).blank unwatched) := by
  unfold State.uncorrectable; simp [h]
@[simp] theorem State.classify_stays (g at_ : Nat) (seen : Syndrome) (held : Held) (h : Kept a (s.blank unwatched)) :
    Kept a ((s.classify g at_ seen held).blank unwatched) := by
  unfold State.classify; split <;> simp [h]
@[simp] theorem State.mergeReads_stays (line : Nat) (w : MemWrite) (h : Kept a (s.blank unwatched)) :
    Kept a ((s.mergeReads line w).blank unwatched) := by
  unfold State.mergeReads
  exact kept_foldl (fun t x ht => State.classify_stays t _ _ _ _ ht) _ s h
@[simp] theorem State.idle_stays (h : Kept a (s.blank unwatched)) : Kept a (s.idle.blank unwatched) := by
  unfold State.idle; simp [h]
@[simp ↓] theorem State.serveRead_blank_unwatched (r : MemReq) (seen : Syndrome) : (s.serveRead r seen).blank unwatched = s.blank unwatched := by
  unfold State.serveRead; simp
@[simp ↓] theorem State.readWord_blank_unwatched (r : Requester) (off : Nat) : (s.readWord r off).2.blank unwatched = s.blank unwatched := by
  unfold State.readWord; (repeat' split) <;> simp
@[simp ↓] theorem State.readBytes_blank_unwatched (r : Requester) (off width : Nat) :
    (s.readBytes r off width).2.blank unwatched = s.blank unwatched := by
  unfold State.readBytes
  split
  · split
    next hi s1 h1 =>
      split
      next lo s2 h2 =>
        have e1 : s1.blank unwatched = s.blank unwatched := blank_snd h1 (by simp)
        exact (blank_snd h2 (by simp)).trans e1
  · split
    · split
      next v s1 h1 => exact blank_snd h1 (by simp)
    · rfl
@[simp ↓] theorem State.regAccess_blank_unwatched (r : Requester) (off width : Nat) :
    (s.regAccess r off width).blank unwatched = s.blank unwatched := by
  unfold State.regAccess; simp

end

/-! ## Commands -/

@[simp] theorem stateAfter_ite (s : State) (c : Prop) [Decidable c] (x y : Host.Outcome State Fault Refusal) :
    stateAfter s (if c then x else y) = if c then stateAfter s x else stateAfter s y := by
  split <;> rfl

/-! ### The digest engine -/

@[simp ↓] theorem execClaim_blank_unwatched (r : PortReq) (s : State) :
    (stateAfter s (execClaim r s)).blank unwatched = s.blank unwatched := by
  simp [execClaim]
theorem execClaim_kept (r : PortReq) (s : State) : Kept s (stateAfter s (execClaim r s)) :=
  kept_of_blank (by simp)
@[simp ↓] theorem execRelease_blank_unwatched (r : PortReq) (s : State) :
    (stateAfter s (execRelease r s)).blank unwatched = s.blank unwatched := by
  simp [execRelease]
theorem execRelease_kept (r : PortReq) (s : State) : Kept s (stateAfter s (execRelease r s)) :=
  kept_of_blank (by simp)
theorem execPortOwnerTimeout_kept (s : State) : Kept s (stateAfter s (execPortOwnerTimeout s)) :=
  kept_of_blank (by simp [execPortOwnerTimeout])
@[simp ↓] theorem execPortStart_blank_unwatched (r : PortReq) (value : W32) (s : State) :
    (stateAfter s (execPortStart r value s)).blank unwatched = s.blank unwatched := by
  simp [execPortStart]
theorem execPortStart_kept (r : PortReq) (value : W32) (s : State) : Kept s (stateAfter s (execPortStart r value s)) :=
  kept_of_blank (by simp)
@[simp ↓] theorem execPortData_blank_unwatched (r : PortReq) (word : W32) (s : State) :
    (stateAfter s (execPortData r word s)).blank unwatched = s.blank unwatched := by
  simp [execPortData]
theorem execPortData_kept (r : PortReq) (word : W32) (s : State) : Kept s (stateAfter s (execPortData r word s)) :=
  kept_of_blank (by simp)
theorem execPortBlockAbsorbed_kept (s : State) : Kept s (stateAfter s (execPortBlockAbsorbed s)) :=
  kept_of_blank (by simp [execPortBlockAbsorbed])
@[simp ↓] theorem execPortFinish_blank_unwatched (r : PortReq) (value : W32) (seen : Comparators) (s : State) :
    (stateAfter s (execPortFinish r value seen s)).blank unwatched = s.blank unwatched := by
  simp [execPortFinish]
theorem execPortFinish_kept (r : PortReq) (value : W32) (seen : Comparators) (s : State) : Kept s (stateAfter s (execPortFinish r value seen s)) :=
  kept_of_blank (by simp)
@[simp ↓] theorem execHmacLoad_blank_unwatched (r : Requester) (value : W32) (s : State) :
    (stateAfter s (execHmacLoad r value s)).blank unwatched = s.blank unwatched := by
  unfold execHmacLoad; dsimp only; (repeat' split) <;> simp
theorem execHmacLoad_kept (r : Requester) (value : W32) (s : State) : Kept s (stateAfter s (execHmacLoad r value s)) :=
  kept_of_blank (by simp)
theorem execHmacLoadDone_kept (s : State) : Kept s (stateAfter s (execHmacLoadDone s)) :=
  kept_of_blank (by unfold execHmacLoadDone; (repeat' split) <;> simp)
@[simp ↓] theorem execHmacClear_blank_unwatched (r : Requester) (value : W32) (s : State) :
    (stateAfter s (execHmacClear r value s)).blank unwatched = s.blank unwatched := by
  simp [execHmacClear]
theorem execHmacClear_kept (r : Requester) (value : W32) (s : State) : Kept s (stateAfter s (execHmacClear r value s)) :=
  kept_of_blank (by simp)
theorem execHmacReloadDone_kept (slot : Nat) (s : State) : Kept s (stateAfter s (execHmacReloadDone slot s)) :=
  kept_of_blank (by simp [execHmacReloadDone])

/-! ### DMA -/

theorem execDmaDescriptorDone_kept (channel : Nat) (hv : HostView) (s : State) :
    Kept s (stateAfter s (execDmaDescriptorDone channel hv s)) :=
  kept_of_blank (by unfold execDmaDescriptorDone; dsimp only; (repeat' split) <;> simp)
theorem execArm_kept (r : Requester) (channel : Nat) (value : W32) (s : State) : Kept s (stateAfter s (execArm r channel value s)) :=
  kept_of_blank (by simp [execArm])
theorem execDmaPause_kept (r : Requester) (channel : Nat) (value : W32) (s : State) :
    Kept s (stateAfter s (execDmaPause r channel value s)) :=
  kept_of_blank (by simp [execDmaPause])
theorem execDmaResume_kept (r : Requester) (channel : Nat) (value : W32) (s : State) :
    Kept s (stateAfter s (execDmaResume r channel value s)) :=
  kept_of_blank (by simp [execDmaResume])
theorem execDmaOwnerWrite_kept (r : Requester) (channel : Nat) (value : W32) (s : State) :
    Kept s (stateAfter s (execDmaOwnerWrite r channel value s)) :=
  kept_of_blank (by simp [execDmaOwnerWrite])
theorem execDmaPauseDrained_kept (channel moved : Nat) (hv : HostView) (s : State) :
    Kept s (stateAfter s (execDmaPauseDrained channel moved hv s)) :=
  kept_of_blank (by unfold execDmaPauseDrained; dsimp only; (repeat' split) <;> simp)
theorem execDmaDescPtrWrite_kept (r : Requester) (channel : Nat) (value : W32) (s : State) :
    Kept s (stateAfter s (execDmaDescPtrWrite r channel value s)) :=
  kept_of_blank (by simp [execDmaDescPtrWrite])
theorem execDmaPaceResume_kept (channel : Nat) (s : State) : Kept s (stateAfter s (execDmaPaceResume channel s)) :=
  kept_of_blank (by simp [execDmaPaceResume])
theorem execDmaBusError_kept (channel code : Nat) (addr : W64) (moved : Nat) (hv : HostView) (s : State) :
    Kept s (stateAfter s (execDmaBusError channel code addr moved hv s)) :=
  kept_of_blank (by unfold execDmaBusError; dsimp only; (repeat' split) <;> simp)
theorem execDescFetchError_kept (failing : Option Nat) (lastGrant : Nat) (addr : W64) (s : State) :
    Kept s (stateAfter s (execDescFetchError failing lastGrant addr s)) :=
  kept_of_blank (by simp [execDescFetchError])
@[simp ↓] theorem execDmaErrClear_blank_unwatched (r : Requester) (value : W32) (s : State) :
    (stateAfter s (execDmaErrClear r value s)).blank unwatched = s.blank unwatched := by
  simp [execDmaErrClear]
theorem execDmaErrClear_kept (r : Requester) (value : W32) (s : State) : Kept s (stateAfter s (execDmaErrClear r value s)) :=
  kept_of_blank (by simp)

/-! ### Lynx -/

@[simp ↓] theorem execDefine_blank_unwatched (r : Requester) (value : W32) (s : State) :
    (stateAfter s (execDefine r value s)).blank unwatched = s.blank unwatched := by
  unfold execDefine; (repeat' split) <;> simp
theorem execDefine_kept (r : Requester) (value : W32) (s : State) : Kept s (stateAfter s (execDefine r value s)) :=
  kept_of_blank (by simp)
@[simp ↓] theorem execUndefine_blank_unwatched (r : Requester) (value : W32) (s : State) :
    (stateAfter s (execUndefine r value s)).blank unwatched = s.blank unwatched := by
  unfold execUndefine; (repeat' split) <;> simp
theorem execUndefine_kept (r : Requester) (value : W32) (s : State) : Kept s (stateAfter s (execUndefine r value s)) :=
  kept_of_blank (by simp)
@[simp ↓] theorem execLnxTblSelWrite_blank_unwatched (r : Requester) (value : W32) (s : State) :
    (stateAfter s (execLnxTblSelWrite r value s)).blank unwatched = s.blank unwatched := by
  simp [execLnxTblSelWrite]
theorem execLnxTblSelWrite_kept (r : Requester) (value : W32) (s : State) : Kept s (stateAfter s (execLnxTblSelWrite r value s)) :=
  kept_of_blank (by simp)
@[simp ↓] theorem execLnxEntRead_blank_unwatched (r : Requester) (value : W32) (s : State) :
    (stateAfter s (execLnxEntRead r value s)).blank unwatched = s.blank unwatched := by
  unfold execLnxEntRead; (repeat' split) <;> simp
theorem execLnxEntRead_kept (r : Requester) (value : W32) (s : State) : Kept s (stateAfter s (execLnxEntRead r value s)) :=
  kept_of_blank (by simp)
@[simp ↓] theorem execLnxEntWrite_blank_unwatched (r : Requester) (value : W32) (s : State) :
    (stateAfter s (execLnxEntWrite r value s)).blank unwatched = s.blank unwatched := by
  unfold execLnxEntWrite
  split
  · split
    · simp
    · dsimp only; split <;> rw [stateAfter_next] <;> simp
  · simp
theorem execLnxEntWrite_kept (r : Requester) (value : W32) (s : State) : Kept s (stateAfter s (execLnxEntWrite r value s)) :=
  kept_of_blank (by simp)
@[simp ↓] theorem execLnxEntDelete_blank_unwatched (r : Requester) (value : W32) (s : State) :
    (stateAfter s (execLnxEntDelete r value s)).blank unwatched = s.blank unwatched := by
  unfold execLnxEntDelete; (repeat' split) <;> simp
theorem execLnxEntDelete_kept (r : Requester) (value : W32) (s : State) : Kept s (stateAfter s (execLnxEntDelete r value s)) :=
  kept_of_blank (by simp)
theorem execLynxCompareStep_kept (table index : Nat) (seen : CompareSeen) (s : State) :
    Kept s (stateAfter s (execLynxCompareStep table index seen s)) :=
  kept_of_blank (by unfold execLynxCompareStep; (repeat' split) <;> simp)
theorem execLynxLapComplete_kept (durationUs : Nat) (s : State) : Kept s (stateAfter s (execLynxLapComplete durationUs s)) :=
  kept_of_blank (by simp [execLynxLapComplete])
theorem execLapTargetExceeded_kept (s : State) : Kept s (stateAfter s (execLapTargetExceeded s)) :=
  kept_of_blank (by simp [execLapTargetExceeded])
@[simp ↓] theorem execLnxErrClear_blank_unwatched (r : Requester) (value : W32) (s : State) :
    (stateAfter s (execLnxErrClear r value s)).blank unwatched = s.blank unwatched := by
  unfold execLnxErrClear; dsimp only; (repeat' split) <;> simp
theorem execLnxErrClear_kept (r : Requester) (value : W32) (s : State) : Kept s (stateAfter s (execLnxErrClear r value s)) :=
  kept_of_blank (by simp)

/-! ### The flash translation layer -/

theorem execNvmWrite_kept (w : Who) (nsid slba nlb : Nat) (s : State) : Kept s (stateAfter s (execNvmWrite w nsid slba nlb s)) :=
  kept_of_blank (by simp [execNvmWrite])
theorem execWriteZeroes_kept (w : Who) (nsid slba nlb : Nat) (s : State) : Kept s (stateAfter s (execWriteZeroes w nsid slba nlb s)) :=
  kept_of_blank (by simp [execWriteZeroes])
theorem execNvmRead_kept (w : Who) (nsid slba nlb : Nat) (s : State) : Kept s (stateAfter s (execNvmRead w nsid slba nlb s)) :=
  kept_of_blank (by simp [execNvmRead])
theorem execCompare_kept (w : Who) (nsid slba nlb : Nat) (data : Option (List Byte)) (s : State) :
    Kept s (stateAfter s (execCompare w nsid slba nlb data s)) :=
  kept_of_blank (by unfold execCompare; (repeat' split) <;> simp)
theorem execVerify_kept (w : Who) (nsid slba nlb : Nat) (s : State) : Kept s (stateAfter s (execVerify w nsid slba nlb s)) :=
  kept_of_blank (by simp [execVerify])
theorem execDatasetManagement_kept (w : Who) (nsid : Nat) (deallocate : Bool) (ranges : List LbaRange) (s : State) :
    Kept s (stateAfter s (execDatasetManagement w nsid deallocate ranges s)) :=
  kept_of_blank (by unfold execDatasetManagement; (repeat' split) <;> simp)
theorem execFlush_kept (w : Who) (nsid : Nat) (s : State) : Kept s (stateAfter s (execFlush w nsid s)) :=
  kept_of_blank (by unfold execFlush; (repeat' split) <;> simp)
theorem execWriteAdmit_kept (s : State) : Kept s (stateAfter s (execWriteAdmit s)) :=
  kept_of_blank (by unfold execWriteAdmit; (repeat' split) <;> simp)
theorem execWriteDataDone_kept (w : Who) (data : Option (List Byte)) (s : State) : Kept s (stateAfter s (execWriteDataDone w data s)) :=
  kept_of_blank (by unfold execWriteDataDone; (repeat' split) <;> simp)
theorem execSlotFlushStart_kept (slot : Nat) (s : State) : Kept s (stateAfter s (execSlotFlushStart slot s)) :=
  kept_of_blank (by unfold execSlotFlushStart; (repeat' split) <;> simp)
theorem execStripeCloseTimeout_kept (band stripe : Nat) (s : State) : Kept s (stateAfter s (execStripeCloseTimeout band stripe s)) :=
  kept_of_blank (by unfold execStripeCloseTimeout; (repeat' split) <;> simp)
theorem execBadgerVictimSelect_kept (s : State) : Kept s (stateAfter s (execBadgerVictimSelect s)) :=
  kept_of_blank (by unfold execBadgerVictimSelect; (repeat' split) <;> simp)
theorem execJournalPageTimeout_kept (s : State) : Kept s (stateAfter s (execJournalPageTimeout s)) :=
  kept_of_blank (by simp [execJournalPageTimeout])
theorem execMapSegmentTimeout_kept (segment : Nat) (s : State) : Kept s (stateAfter s (execMapSegmentTimeout segment s)) :=
  kept_of_blank (by simp [execMapSegmentTimeout])
theorem execMapSegmentRebuildDone_kept (segment : Nat) (s : State) : Kept s (stateAfter s (execMapSegmentRebuildDone segment s)) :=
  kept_of_blank (by simp [execMapSegmentRebuildDone])

/-! ### Redundancy -/

theorem execRebuildBandStart_kept (s : State) : Kept s (stateAfter s (execRebuildBandStart s)) :=
  kept_of_blank (by unfold execRebuildBandStart; (repeat' split) <;> simp)
theorem execDumpComplete_kept (s : State) : Kept s (stateAfter s (execDumpComplete s)) :=
  kept_blank.1 (by simp [execDumpComplete, kept_blank.2 (Kept.refl s)])
theorem execReshapeStart_kept (r : Requester) (value : W32) (s : State) : Kept s (stateAfter s (execReshapeStart r value s)) :=
  kept_of_blank (by simp)
theorem execReshapeAbort_kept (r : Requester) (value : W32) (s : State) : Kept s (stateAfter s (execReshapeAbort r value s)) :=
  kept_of_blank (by simp)
theorem execReshapeRegionBegin_kept (s : State) : Kept s (stateAfter s (execReshapeRegionBegin s)) :=
  kept_of_blank (by unfold execReshapeRegionBegin; (repeat' split) <;> simp)

/-! ### Power -/

theorem execLifetimeWriteTimer_kept (s : State) : Kept s (stateAfter s (execLifetimeWriteTimer s)) :=
  kept_of_blank (by simp [execLifetimeWriteTimer])
theorem execFlushLifetime_kept (r : Requester) (value : W32) (s : State) : Kept s (stateAfter s (execFlushLifetime r value s)) :=
  kept_of_blank (by simp [execFlushLifetime])
theorem execLifetimeWriteDone_kept (s : State) : Kept s (stateAfter s (execLifetimeWriteDone s)) :=
  kept_of_blank (by simp [execLifetimeWriteDone])
theorem execConfigAreaWriteDone_kept (s : State) : Kept s (stateAfter s (execConfigAreaWriteDone s)) :=
  kept_of_blank (by unfold execConfigAreaWriteDone; (repeat' split) <;> simp)
theorem execSetFeaturesMode_kept (w : Who) (save : Bool) (cdw11 : W32) (s : State) :
    Kept s (stateAfter s (execSetFeaturesMode w save cdw11 s)) :=
  kept_of_blank (by simp [execSetFeaturesMode])
theorem execGetFeaturesMode_kept (w : Who) (select : Nat) (s : State) : Kept s (stateAfter s (execGetFeaturesMode w select s)) :=
  kept_of_blank (by unfold execGetFeaturesMode; (repeat' split) <;> simp)
theorem execModeTransitionDone_kept (s : State) : Kept s (stateAfter s (execModeTransitionDone s)) :=
  kept_of_blank (by unfold execModeTransitionDone; (repeat' split) <;> simp)
theorem execSprintTick_kept (ilimN : Bool) (s : State) : Kept s (stateAfter s (execSprintTick ilimN s)) :=
  kept_of_blank (by simp [execSprintTick])
theorem execSprintLimit_kept (s : State) : Kept s (stateAfter s (execSprintLimit s)) :=
  kept_of_blank (by simp [execSprintLimit])
theorem execIlimNAssert_kept (s : State) : Kept s (stateAfter s (execIlimNAssert s)) :=
  kept_of_blank (by simp [execIlimNAssert])
theorem execThermalSample_kept (raw : List Int) (s : State) : Kept s (stateAfter s (execThermalSample raw s)) :=
  kept_blank.1 (by simp [execThermalSample, kept_blank.2 (Kept.refl s)])
theorem execHibernateEntryDone_kept (s : State) : Kept s (stateAfter s (execHibernateEntryDone s)) :=
  kept_of_blank (by unfold execHibernateEntryDone; (repeat' split) <;> simp)
theorem execWakeEvent_kept (cause : WakeCause) (s : State) : Kept s (stateAfter s (execWakeEvent cause s)) :=
  kept_of_blank (by unfold execWakeEvent; (repeat' split) <;> simp)
theorem execLynxReloadDone_kept (s : State) : Kept s (stateAfter s (execLynxReloadDone s)) :=
  kept_of_blank (by simp [execLynxReloadDone])
theorem execWakeReady_kept (s : State) : Kept s (stateAfter s (execWakeReady s)) :=
  kept_of_blank (by unfold execWakeReady; (repeat' split) <;> simp)
theorem execPfailNFall_kept (s : State) : Kept s (stateAfter s (execPfailNFall s)) :=
  kept_blank.1 (by simp [execPfailNFall, kept_blank.2 (Kept.refl s)])
theorem execPfailHoldExpiry_kept (s : State) : Kept s (stateAfter s (execPfailHoldExpiry s)) :=
  kept_blank.1 (by simp [execPfailHoldExpiry, kept_blank.2 (Kept.refl s)])
theorem execRailDroop_kept (rail : Rail) (s : State) : Kept s (stateAfter s (execRailDroop rail s)) :=
  kept_blank.1 (by simp [execRailDroop, kept_blank.2 (Kept.refl s)])
theorem execResetNFall_kept (s : State) : Kept s (stateAfter s (execResetNFall s)) :=
  kept_blank.1 (by simp [execResetNFall, kept_blank.2 (Kept.refl s)])
theorem execResetNRiseReboot_kept (portSplit : Bool) (s : State) : Kept s (stateAfter s (execResetNRiseReboot portSplit s)) :=
  kept_blank.1 (by simp [execResetNRiseReboot, kept_blank.2 (Kept.refl s)])
theorem execRailsFall_kept (rails : List Rail) (s : State) : Kept s (stateAfter s (execRailsFall rails s)) :=
  kept_of_blank (by simp [execRailsFall])
theorem execTempHistoryTick_kept (s : State) : Kept s (stateAfter s (execTempHistoryTick s)) :=
  kept_of_blank (by unfold execTempHistoryTick; (repeat' split) <;> simp)

/-! ### Modules -/

theorem execModuleLoad_kept (w : Who) (cdw10 cdw11 : W32) (received : List Byte) (s : State) :
    Kept s (stateAfter s (execModuleLoad w cdw10 cdw11 received s)) :=
  kept_of_blank (by simp [execModuleLoad])
theorem execEnroll_kept (w : Who) (cdw10 : W32) (data : List Byte) (s : State) : Kept s (stateAfter s (execEnroll w cdw10 data s)) :=
  kept_of_blank (by simp [execEnroll])
theorem execModuleMeasureDone_kept (s : State) : Kept s (stateAfter s (execModuleMeasureDone s)) :=
  kept_of_blank (by unfold execModuleMeasureDone; (repeat' split) <;> simp)
theorem execModuleSignatureDone_kept (s : State) : Kept s (stateAfter s (execModuleSignatureDone s)) :=
  kept_of_blank (by unfold execModuleSignatureDone; (repeat' split) <;> simp)
theorem execModuleUnload_kept (w : Who) (module : Nat) (force : Bool) (s : State) :
    Kept s (stateAfter s (execModuleUnload w module force s)) :=
  kept_of_blank (by unfold execModuleUnload; (repeat' split) <;> simp)
theorem execModuleRemove_kept (module : Nat) (s : State) : Kept s (stateAfter s (execModuleRemove module s)) :=
  kept_of_blank (by unfold execModuleRemove; (repeat' split) <;> simp)
theorem execClusterEnWrite_kept (r : Requester) (value : W32) (s : State) : Kept s (stateAfter s (execClusterEnWrite r value s)) :=
  kept_of_blank (by simp [execClusterEnWrite])

/-! ### Trails -/

theorem execTrailSubmit_kept (w : Who) (descLen : Nat) (slm : Option (Nat × Nat)) (addr : Nat) (hv : HostView) (s : State) :
    Kept s (stateAfter s (execTrailSubmit w descLen slm addr hv s)) :=
  kept_of_blank (by unfold execTrailSubmit; dsimp only; (repeat' split) <;> simp)
theorem execTrailAdmissionResume_kept (w : Who) (s : State) : Kept s (stateAfter s (execTrailAdmissionResume w s)) :=
  kept_of_blank (by unfold execTrailAdmissionResume; (repeat' split) <;> simp)
theorem execTrailQuery_kept (w : Who) (trailId : W32) (wait : Bool) (s : State) : Kept s (stateAfter s (execTrailQuery w trailId wait s)) :=
  kept_of_blank (by unfold execTrailQuery; (repeat' split) <;> simp)
theorem execTrailQueryWaitExpiry_kept (w : Who) (s : State) : Kept s (stateAfter s (execTrailQueryWaitExpiry w s)) :=
  kept_of_blank (by unfold execTrailQueryWaitExpiry; (repeat' split) <;> simp)
theorem execTrailCancel_kept (w : Who) (trailId : W32) (s : State) : Kept s (stateAfter s (execTrailCancel w trailId s)) :=
  kept_of_blank (by unfold execTrailCancel; (repeat' split) <;> simp)
theorem execChunkIssue_kept (flow : Nat) (hv : HostView) (s : State) : Kept s (stateAfter s (execChunkIssue flow hv s)) :=
  kept_of_blank (by unfold execChunkIssue; (repeat' split) <;> simp)
theorem execTrailEnd_kept (flow : Nat) (seen : List Comparators) (s : State) : Kept s (stateAfter s (execTrailEnd flow seen s)) :=
  kept_of_blank (by unfold execTrailEnd; (repeat' split) <;> simp)

/-! ### The host -/

theorem execPortReset_kept (port : Port) (s : State) : Kept s (stateAfter s (execPortReset port s)) :=
  kept_of_blank (by simp [execPortReset])
theorem execPerstAssert_kept (port : Port) (s : State) : Kept s (stateAfter s (execPerstAssert port s)) :=
  kept_of_blank (by simp [execPerstAssert])
theorem execPerstDeassert_kept (port : Port) (s : State) : Kept s (stateAfter s (execPerstDeassert port s)) :=
  kept_of_blank (by simp [execPerstDeassert])
theorem execLinkTrained_kept (port : Port) (rate width credits : Nat) (s : State) :
    Kept s (stateAfter s (execLinkTrained port rate width credits s)) :=
  kept_of_blank (by simp [execLinkTrained])
theorem execFlowControlCreditReturn_kept (port : Port) (credits : Nat) (s : State) :
    Kept s (stateAfter s (execFlowControlCreditReturn port credits s)) :=
  kept_of_blank (by simp [execFlowControlCreditReturn])
theorem execPcieCompletionTimeout_kept (req : BridgeReq) (s : State) : Kept s (stateAfter s (execPcieCompletionTimeout req s)) :=
  kept_of_blank (by simp [execPcieCompletionTimeout])
theorem execMsiXUnmask_kept (port : Port) (fn : Fn) (vector : Nat) (s : State) : Kept s (stateAfter s (execMsiXUnmask port fn vector s)) :=
  kept_of_blank (by simp [execMsiXUnmask])
theorem execDoorbellWrite_kept (fn : Fn) (qid : Nat) (isCq : Bool) (value : Nat) (s : State) :
    Kept s (stateAfter s (execDoorbellWrite fn qid isCq value s)) :=
  kept_of_blank (by simp [execDoorbellWrite])
theorem execCommandFetch_kept (fn : Fn) (sq cid : Nat) (s : State) : Kept s (stateAfter s (execCommandFetch fn sq cid s)) :=
  kept_of_blank (by simp [execCommandFetch])
theorem execControllerEnable_kept (fn : Fn) (cc aqa : W32) (asq acq : W64) (s : State) :
    Kept s (stateAfter s (execControllerEnable fn cc aqa asq acq s)) :=
  kept_of_blank (by simp [execControllerEnable])
theorem execControllerDisable_kept (fn : Fn) (s : State) : Kept s (stateAfter s (execControllerDisable fn s)) :=
  kept_of_blank (by simp [execControllerDisable])
theorem execShutdownNotification_kept (fn : Fn) (abrupt : Bool) (s : State) :
    Kept s (stateAfter s (execShutdownNotification fn abrupt s)) :=
  kept_of_blank (by simp [execShutdownNotification])
theorem execNvmSubsystemReset_kept (by_ : Option Fn) (s : State) : Kept s (stateAfter s (execNvmSubsystemReset by_ s)) :=
  kept_blank.1 (by simp [execNvmSubsystemReset, kept_blank.2 (Kept.refl s)])
theorem execKeepAlive_kept (w : Who) (s : State) : Kept s (stateAfter s (execKeepAlive w s)) :=
  kept_of_blank (by simp [execKeepAlive])
theorem execKeepAliveTimerExpiry_kept (fn : Fn) (s : State) : Kept s (stateAfter s (execKeepAliveTimerExpiry fn s)) :=
  kept_of_blank (by simp [execKeepAliveTimerExpiry])
theorem execFunctionLevelReset_kept (fn : Fn) (s : State) : Kept s (stateAfter s (execFunctionLevelReset fn s)) :=
  kept_of_blank (by simp [execFunctionLevelReset])
theorem execFlrAbortDeadline_kept (fn : Fn) (s : State) : Kept s (stateAfter s (execFlrAbortDeadline fn s)) :=
  kept_of_blank (by simp [execFlrAbortDeadline])
theorem execFlrComplete_kept (fn : Fn) (s : State) : Kept s (stateAfter s (execFlrComplete fn s)) :=
  kept_of_blank (by simp [execFlrComplete])
theorem execCreateIoQueue_kept (w : Who) (isCq : Bool) (qid size base cqid vector prio : Nat) (contiguous ien : Bool) (s : State) :
    Kept s (stateAfter s (execCreateIoQueue w isCq qid size base cqid vector prio contiguous ien s)) :=
  kept_of_blank (by unfold execCreateIoQueue; (repeat' split) <;> simp)
theorem execDeleteIoQueue_kept (w : Who) (isCq : Bool) (qid : Nat) (s : State) : Kept s (stateAfter s (execDeleteIoQueue w isCq qid s)) :=
  kept_of_blank (by simp [execDeleteIoQueue])
theorem execAbort_kept (w : Who) (sq cid : Nat) (s : State) : Kept s (stateAfter s (execAbort w sq cid s)) :=
  kept_of_blank (by simp [execAbort])
theorem execAsynchronousEventRequest_kept (w : Who) (s : State) : Kept s (stateAfter s (execAsynchronousEventRequest w s)) :=
  kept_of_blank (by unfold execAsynchronousEventRequest; dsimp only; (repeat' split) <;> simp)
theorem execSetFeatures_kept (w : Who) (fid nsid : Nat) (save : Bool) (cdw11 : W32) (data : List Byte) (s : State) :
    Kept s (stateAfter s (execSetFeatures w fid nsid save cdw11 data s)) :=
  kept_of_blank (by simp [execSetFeatures])
theorem execGetFeatures_kept (w : Who) (fid nsid select : Nat) (cdw11 : W32) (s : State) :
    Kept s (stateAfter s (execGetFeatures w fid nsid select cdw11 s)) := by
  unfold execGetFeatures
  split
  · exact execGetFeaturesMode_kept w select s
  · exact kept_of_blank (by simp)
theorem execFormatNvm_kept (w : Who) (nsid ses lbaSize : Nat) (s : State) : Kept s (stateAfter s (execFormatNvm w nsid ses lbaSize s)) :=
  kept_of_blank (by unfold execFormatNvm; (repeat' split) <;> simp)
theorem execSanitize_kept (w : Who) (crypto : Bool) (s : State) : Kept s (stateAfter s (execSanitize w crypto s)) :=
  kept_of_blank (by simp [execSanitize])
theorem execSanitizeComplete_kept (nsid : Nat) (s : State) : Kept s (stateAfter s (execSanitizeComplete nsid s)) :=
  kept_of_blank (by unfold execSanitizeComplete; dsimp only; (repeat' split) <;> simp)

/-! ### Security -/

theorem execGetImportKey_kept (w : Who) (s : State) : Kept s (stateAfter s (execGetImportKey w s)) :=
  kept_of_blank (by simp [execGetImportKey])
theorem execImportKeyExpiry_kept (importId : Nat) (s : State) : Kept s (stateAfter s (execImportKeyExpiry importId s)) :=
  kept_of_blank (by simp [execImportKeyExpiry])
theorem execImportKey_kept (w : Who) (data : List Byte) (s : State) : Kept s (stateAfter s (execImportKey w data s)) :=
  kept_of_blank (by simp [execImportKey])
theorem execGenerate_kept (w : Who) (slot use : Nat) (s : State) : Kept s (stateAfter s (execGenerate w slot use s)) :=
  kept_of_blank (by simp [execGenerate])
theorem execClear_kept (w : Who) (slot use : Nat) (s : State) : Kept s (stateAfter s (execClear w slot use s)) :=
  kept_of_blank (by simp [execClear])
theorem execRestore_kept (w : Who) (s : State) : Kept s (stateAfter s (execRestore w s)) :=
  kept_of_blank (by unfold execRestore; (repeat' split) <;> simp)
theorem execSlotStatus_kept (w : Who) (s : State) : Kept s (stateAfter s (execSlotStatus w s)) :=
  kept_of_blank (by simp [execSlotStatus])
theorem execNonceLogWriteDone_kept (slot : Nat) (s : State) : Kept s (stateAfter s (execNonceLogWriteDone slot s)) :=
  kept_of_blank (by unfold execNonceLogWriteDone; (repeat' split) <;> simp)
theorem execOpalSecuritySend_kept (w : Who) (protocol : Nat) (method : OpalMethod) (s : State) :
    Kept s (stateAfter s (execOpalSecuritySend w protocol method s)) :=
  kept_of_blank (by simp [execOpalSecuritySend])
theorem execOpalSecurityReceive_kept (w : Who) (protocol : Nat) (s : State) :
    Kept s (stateAfter s (execOpalSecurityReceive w protocol s)) :=
  kept_of_blank (by simp [execOpalSecurityReceive])
theorem execGenkey_kept (nsid range : Nat) (s : State) : Kept s (stateAfter s (execGenkey nsid range s)) :=
  kept_of_blank (by unfold execGenkey; (repeat' split) <;> simp)
theorem execDeallocationComplete_kept (nsid range : Nat) (s : State) : Kept s (stateAfter s (execDeallocationComplete nsid range s)) :=
  kept_of_blank (by simp [execDeallocationComplete])
theorem execAlarm_kept (cause : AlarmCause) (s : State) : Kept s (stateAfter s (execAlarm cause s)) :=
  kept_blank.1 (by simp [execAlarm, kept_blank.2 (Kept.refl s)])

/-! ### Boot and firmware -/

theorem execLedgerAppendDone_kept (ok : Bool) (s : State) : Kept s (stateAfter s (execLedgerAppendDone ok s)) := by
  unfold execLedgerAppendDone
  split
  · exact Kept.refl s
  · split
    · exact Kept.refl s
    · split
      · exact kept_of_blank (by simp)
      · have stored : ∀ (t : State) r rest, (t.onBoot fun b => { b with appends := rest, appendFail := false, nextSeq := b.nextSeq + 1, ledger := lastN 65536 (b.ledger ++ [r]) }).blank unwatched = t.blank unwatched := fun t r rest => State.onBoot_blank t _ (by simp) rfl rfl rfl
        exact kept_of_blank (by simp [stored])
theorem execPowerOn_kept (portSplit : Bool) (s : State) : Kept s (stateAfter s (execPowerOn portSplit s)) := by
  unfold execPowerOn
  split
  · extract_lets s0 s1 s2
    have h2 : Kept s (s2.blank unwatched) := by
      simp [s2, s1, s0, kept_blank.2 (Kept.refl s)]
    split <;> exact kept_blank.1 (by simp [h2])
  · exact Kept.refl s
theorem execBootHoldXspiRelease_kept (s : State) : Kept s (stateAfter s (execBootHoldXspiRelease s)) :=
  kept_of_blank (by simp [execBootHoldXspiRelease])
/-- Confirming a trial raises the counter to no more than the version that runs, and spares its authority (R506). -/
theorem confirmTrial_kept (s : State) : Kept s (s.onBoot confirmTrial) := by
  cases hi : s.boot.image with
  | none => exact kept_of_same rfl (by simp [confirmTrial, hi]) (by simp [confirmTrial, hi]) fun i h => by simp [confirmTrial, hi] at h
  | some i =>
    have image : (confirmTrial s.boot).image = some i := by simp [confirmTrial, hi]
    have svn : (confirmTrial s.boot).fuseSvn = if i.raiseSvn then Nat.max s.boot.fuseSvn i.svn else s.boot.fuseSvn := by
      simp [confirmTrial, hi]
    have revoked : (confirmTrial s.boot).revoked =
        s.boot.revoked ||| if i.revoke.getLsbD i.authority then i.revoke &&& ~~~(1#4 <<< i.authority) else i.revoke := by
      simp [confirmTrial, hi]
    refine ⟨rfl, fun secure j hj => ?_, ?_, fun n hn => ?_⟩
    · obtain rfl : i = j := Option.some.inj (image.symm.trans hj)
      have valid := secure i hi
      simp only [imageValid, Bool.and_eq_true, Bool.not_eq_true', decide_eq_true_eq] at valid
      obtain ⟨⟨⟨signed, unrevoked⟩, authority⟩, high⟩ := valid
      simp only [imageValid, Bool.and_eq_true, Bool.not_eq_true', decide_eq_true_eq, State.onBoot_boot, svn, revoked]
      refine ⟨⟨⟨signed, ?_⟩, authority⟩, ?_⟩
      · rw [BitVec.getLsbD_or, unrevoked, Bool.false_or]
        split
        · simp [authority]
        · next spared => simpa using spared
      · split
        · exact Nat.max_le.2 ⟨high, le_rfl⟩
        · exact high
    · rw [State.onBoot_boot, svn]
      split
      · exact Nat.le_max_left ..
      · exact le_rfl
    · rw [State.onBoot_boot, revoked, BitVec.getLsbD_or, hn, Bool.true_or]
theorem execTrialConfirm_kept (s : State) : Kept s (stateAfter s (execTrialConfirm s)) := by
  unfold execTrialConfirm
  split
  · exact confirmTrial_kept s
  · exact Kept.refl s
theorem execTrialReadyTimeout_kept (s : State) : Kept s (stateAfter s (execTrialReadyTimeout s)) := by
  unfold execTrialReadyTimeout
  split
  · rw [stateAfter_next]
    exact kept_of_blank (State.onBoot_blank s _ (by simp) rfl rfl rfl)
  · exact Kept.refl s
theorem execFirmwareImageDownload_kept (w : Who) (offset : Nat) (data : List Byte) (s : State) :
    Kept s (stateAfter s (execFirmwareImageDownload w offset data s)) :=
  kept_of_blank (by simp [execFirmwareImageDownload])
theorem execFirmwareCommitWrite_kept (w : Who) (slot : Nat) (mldsaOk ecdsaOk : Bool) (s : State) :
    Kept s (stateAfter s (execFirmwareCommitWrite w slot mldsaOk ecdsaOk s)) :=
  kept_of_blank (by simp [execFirmwareCommitWrite])
theorem execFirmwareCommitWritePending_kept (w : Who) (slot : Nat) (mldsaOk ecdsaOk : Bool) (s : State) :
    Kept s (stateAfter s (execFirmwareCommitWritePending w slot mldsaOk ecdsaOk s)) :=
  kept_of_blank (by simp [execFirmwareCommitWritePending])
theorem execFirmwareCommitPending_kept (w : Who) (slot0 : Nat) (s : State) : Kept s (stateAfter s (execFirmwareCommitPending w slot0 s)) :=
  kept_of_blank (by unfold execFirmwareCommitPending; dsimp only; (repeat' split) <;> simp)
theorem execMgmtHartWatchdogExpiry_kept (s : State) : Kept s (stateAfter s (execMgmtHartWatchdogExpiry s)) :=
  kept_blank.1 (by simp [execMgmtHartWatchdogExpiry, kept_blank.2 (Kept.refl s)])
theorem execRootWatchdogExpiry_kept (s : State) : Kept s (stateAfter s (execRootWatchdogExpiry s)) :=
  kept_blank.1 (by simp [execRootWatchdogExpiry, kept_blank.2 (Kept.refl s)])
theorem execEscalationBoundExpiry_kept (level : Nat) (island : Island) (unit : Nat) (s : State) :
    Kept s (stateAfter s (execEscalationBoundExpiry level island unit s)) :=
  kept_blank.1 (by unfold execEscalationBoundExpiry; (repeat' split) <;> simp [kept_blank.2 (Kept.refl s)])
theorem execResetDone_kept (level : Nat) (island : Island) (s : State) : Kept s (stateAfter s (execResetDone level island s)) :=
  kept_of_blank (by unfold execResetDone; (repeat' split) <;> simp)
theorem execBridgeTimeout_kept (target source : Island) (req : BridgeReq) (s : State) :
    Kept s (stateAfter s (execBridgeTimeout target source req s)) :=
  kept_blank.1 (by simp [execBridgeTimeout, kept_blank.2 (Kept.refl s)])

/-! ### Media -/

theorem execChannelTrainDone_kept (channel : Nat) (pass : Bool) (s : State) : Kept s (stateAfter s (execChannelTrainDone channel pass s)) :=
  kept_of_blank (by unfold execChannelTrainDone; dsimp only; (repeat' split) <;> simp)
theorem execTargetTempPoll_kept (channel : Nat) (temps : List Int) (s : State) :
    Kept s (stateAfter s (execTargetTempPoll channel temps s)) :=
  kept_of_blank (by unfold execTargetTempPoll; (repeat' split) <;> simp)
theorem execChannelRetrainDone_kept (channel : Nat) (pass : Bool) (s : State) :
    Kept s (stateAfter s (execChannelRetrainDone channel pass s)) :=
  kept_of_blank (by simp [execChannelRetrainDone])
theorem execSuspendDone_kept (lun : Nat) (s : State) : Kept s (stateAfter s (execSuspendDone lun s)) :=
  kept_of_blank (by simp [execSuspendDone])
theorem execSuspendBudgetExpiry_kept (lun : Nat) (s : State) : Kept s (stateAfter s (execSuspendBudgetExpiry lun s)) :=
  kept_of_blank (by simp [execSuspendBudgetExpiry])
theorem execWriteAgeExpiry_kept (lun : Nat) (internalRead : Bool) (s : State) :
    Kept s (stateAfter s (execWriteAgeExpiry lun internalRead s)) :=
  kept_of_blank (by simp [execWriteAgeExpiry])
theorem execSenseDone_kept (lun : Nat) (s : State) : Kept s (stateAfter s (execSenseDone lun s)) :=
  kept_of_blank (by simp [execSenseDone])
theorem execCodewordDecodeDone_kept (lun cw : Nat) (res : DecodeResult) (s : State) :
    Kept s (stateAfter s (execCodewordDecodeDone lun cw res s)) :=
  kept_of_blank (by unfold execCodewordDecodeDone; (repeat' split) <;> simp)
theorem execLadderDeadlineExpiry_kept (lun cw : Nat) (s : State) : Kept s (stateAfter s (execLadderDeadlineExpiry lun cw s)) :=
  kept_of_blank (by unfold execLadderDeadlineExpiry; (repeat' split) <;> simp)
theorem execFirstSenseDeadlineExpiry_kept (lun : Nat) (s : State) : Kept s (stateAfter s (execFirstSenseDeadlineExpiry lun s)) :=
  kept_of_blank (by unfold execFirstSenseDeadlineExpiry; (repeat' split) <;> simp)
theorem execProgramDone_kept (lun : Nat) (ok : Bool) (s : State) : Kept s (stateAfter s (execProgramDone lun ok s)) :=
  kept_of_blank (by unfold execProgramDone; dsimp only; (repeat' split) <;> simp)
theorem execEraseDone_kept (lun : Nat) (ok : Bool) (s : State) : Kept s (stateAfter s (execEraseDone lun ok s)) :=
  kept_of_blank (by unfold execEraseDone; (repeat' split) <;> simp)
theorem execLunReadyTimeout_kept (lun : Nat) (s : State) : Kept s (stateAfter s (execLunReadyTimeout lun s)) :=
  kept_of_blank (by simp [execLunReadyTimeout])
@[simp ↓] theorem execUcalCommit_blank_unwatched (r : Requester) (island : Nat) (value : W32) (s : State) :
    (stateAfter s (execUcalCommit r island value s)).blank unwatched = s.blank unwatched := by
  simp [execUcalCommit]
theorem execUcalCommit_kept (r : Requester) (island : Nat) (value : W32) (s : State) : Kept s (stateAfter s (execUcalCommit r island value s)) :=
  kept_of_blank (by simp)
theorem execUcalCommitDone_kept (island : Nat) (ok : Bool) (s : State) : Kept s (stateAfter s (execUcalCommitDone island ok s)) :=
  kept_of_blank (by simp [execUcalCommitDone])
theorem execSystemAreaMoveDone_kept (copy : Nat) (s : State) : Kept s (stateAfter s (execSystemAreaMoveDone copy s)) :=
  kept_of_blank (by unfold execSystemAreaMoveDone; (repeat' split) <;> simp)

/-! ### DRAM and memory protection -/

theorem execDramTrainAttemptDone_kept (channel : Nat) (pass : Bool) (s : State) :
    Kept s (stateAfter s (execDramTrainAttemptDone channel pass s)) :=
  kept_of_blank (by simp [execDramTrainAttemptDone])
theorem execDqsRecentre_kept (channel sc : Nat) (s : State) : Kept s (stateAfter s (execDqsRecentre channel sc s)) :=
  kept_of_blank (by simp [execDqsRecentre])
theorem execZqCalibration_kept (channel sc : Nat) (s : State) : Kept s (stateAfter s (execZqCalibration channel sc s)) :=
  kept_of_blank (by simp [execZqCalibration])
theorem execRefresh_kept (channel sc : Nat) (s : State) : Kept s (stateAfter s (execRefresh channel sc s)) :=
  kept_of_blank (by simp [execRefresh])
theorem execMr4Poll_kept (channel rate : Nat) (overRange : Bool) (s : State) :
    Kept s (stateAfter s (execMr4Poll channel rate overRange s)) :=
  kept_of_blank (by simp [execMr4Poll])
theorem execMemRequest_kept (port line : Nat) (write : Option MemWrite) (s : State) :
    Kept s (stateAfter s (execMemRequest port line write s)) := by
  have h := kept_blank.2 (Kept.refl s)
  unfold execMemRequest
  dsimp only
  split
  · exact kept_of_blank (by simp)
  · split
    · split
      · exact kept_of_blank (by simp)
      · split
        · exact kept_blank.1 (kept_foldl (fun t l ht => by simp [ht]) _ s h)
        · exact Kept.refl s
    · exact Kept.refl s
theorem execMemReadDone_kept (port line word : Nat) (seen : Syndrome) (held : Held) (latencyNs : Nat) (s : State) :
    Kept s (stateAfter s (execMemReadDone port line word seen held latencyNs s)) :=
  kept_blank.1 (by unfold execMemReadDone; (repeat' split) <;> simp [kept_blank.2 (Kept.refl s)])
theorem execOwlRead_kept (group addr : Nat) (seen : Syndrome) (held : Held) (last : Bool) (s : State) :
    Kept s (stateAfter s (execOwlRead group addr seen held last s)) :=
  kept_blank.1 (by simp [execOwlRead, kept_blank.2 (Kept.refl s)])
theorem execPageRetireDone_kept (page : Nat) (s : State) : Kept s (stateAfter s (execPageRetireDone page s)) :=
  kept_of_blank (by unfold execPageRetireDone; (repeat' split) <;> simp)
theorem execOwlLapOverdue_kept (s : State) : Kept s (stateAfter s (execOwlLapOverdue s)) :=
  kept_of_blank (by simp [execOwlLapOverdue])
@[simp ↓] theorem execEccInjectArm_blank_unwatched (r : Requester) (value : W32) (s : State) :
    (stateAfter s (execEccInjectArm r value s)).blank unwatched = s.blank unwatched := by
  simp [execEccInjectArm]
theorem execEccInjectArm_kept (r : Requester) (value : W32) (s : State) : Kept s (stateAfter s (execEccInjectArm r value s)) :=
  kept_of_blank (by simp)

/-! ### Tasks -/

theorem execCreditGrant_kept (flow stage cslot : Nat) (s : State) : Kept s (stateAfter s (execCreditGrant flow stage cslot s)) :=
  kept_of_blank (by unfold execCreditGrant; (repeat' split) <;> simp)
theorem execSinkGrant_kept (flow cslot : Nat) (s : State) : Kept s (stateAfter s (execSinkGrant flow cslot s)) :=
  kept_of_blank (by unfold execSinkGrant; (repeat' split) <;> simp)
theorem execTaskFire_kept (flow stage cslot : Nat) (seen : EntrySeen) (s : State) :
    Kept s (stateAfter s (execTaskFire flow stage cslot seen s)) :=
  kept_blank.1 (by unfold execTaskFire; (repeat' split) <;> simp [kept_blank.2 (Kept.refl s)])
theorem execUnitTaskStart_kept (cls : UnitClass) (unit : Nat) (s : State) : Kept s (stateAfter s (execUnitTaskStart cls unit s)) :=
  kept_of_blank (by simp [execUnitTaskStart])
theorem execTaskComplete_kept (flow stage cslot : Nat) (hv : HostView) (seen : UnitSeen) (s : State) :
    Kept s (stateAfter s (execTaskComplete flow stage cslot hv seen s)) :=
  kept_of_blank (by unfold execTaskComplete; (repeat' split) <;> simp)
theorem execEngineWatchdogExpiry_kept (cls : UnitClass) (unit : Nat) (s : State) :
    Kept s (stateAfter s (execEngineWatchdogExpiry cls unit s)) :=
  kept_blank.1 (by unfold execEngineWatchdogExpiry; (repeat' split) <;> simp [kept_blank.2 (Kept.refl s)])
theorem execOrphanCheck_kept (s : State) : Kept s (stateAfter s (execOrphanCheck s)) :=
  kept_of_blank (by simp [execOrphanCheck])
theorem execSquirrelFill_kept (hart : Nat) (s : State) : Kept s (stateAfter s (execSquirrelFill hart s)) :=
  kept_of_blank (by unfold execSquirrelFill; (repeat' split) <;> simp)
theorem execHartTaskStart_kept (hart : Nat) (s : State) : Kept s (stateAfter s (execHartTaskStart hart s)) :=
  kept_of_blank (by unfold execHartTaskStart; (repeat' split) <;> simp)

/-! ### Namespaces -/

theorem execNamespaceCreate_kept (w : Who) (spec : NsSpec) (s : State) : Kept s (stateAfter s (execNamespaceCreate w spec s)) :=
  kept_of_blank (by simp [execNamespaceCreate])
theorem execNamespaceDelete_kept (w : Who) (nsid : Nat) (s : State) : Kept s (stateAfter s (execNamespaceDelete w nsid s)) :=
  kept_of_blank (by simp [execNamespaceDelete])
theorem execNamespaceResize_kept (w : Who) (nsid nsze ncap : Nat) (s : State) :
    Kept s (stateAfter s (execNamespaceResize w nsid nsze ncap s)) :=
  kept_of_blank (by unfold execNamespaceResize; (repeat' split) <;> simp)
theorem execNamespaceAttachment_kept (w : Who) (nsid : Nat) (attach : Bool) (controllers : List Nat) (s : State) :
    Kept s (stateAfter s (execNamespaceAttachment w nsid attach controllers s)) :=
  kept_of_blank (by unfold execNamespaceAttachment; (repeat' split) <;> simp)
theorem execReservationRegister_kept (w : Who) (nsid : Nat) (action : RegisterAction) (crkey nrkey : W64) (iekey : Bool) (cptpl : Nat) (s : State) :
    Kept s (stateAfter s (execReservationRegister w nsid action crkey nrkey iekey cptpl s)) :=
  kept_of_blank (by unfold execReservationRegister; (repeat' split) <;> simp)
theorem execReservationAcquire_kept (w : Who) (nsid : Nat) (action : AcquireAction) (type : ResType) (crkey prkey : W64) (s : State) :
    Kept s (stateAfter s (execReservationAcquire w nsid action type crkey prkey s)) :=
  kept_of_blank (by unfold execReservationAcquire; (repeat' split) <;> simp)
theorem execReservationRelease_kept (w : Who) (nsid : Nat) (clear : Bool) (type : ResType) (crkey : W64) (s : State) :
    Kept s (stateAfter s (execReservationRelease w nsid clear type crkey s)) :=
  kept_of_blank (by unfold execReservationRelease; (repeat' split) <;> simp)
theorem execReservationReport_kept (w : Who) (nsid : Nat) (s : State) : Kept s (stateAfter s (execReservationReport w nsid s)) :=
  kept_of_blank (by unfold execReservationReport; (repeat' split) <;> simp)

/-! ### Key values, programs and local memory -/

theorem execKvStore_kept (w : Who) (nsid : Nat) (key value : List Byte) (mustExist mustNotExist : Bool) (s : State) :
    Kept s (stateAfter s (execKvStore w nsid key value mustExist mustNotExist s)) :=
  kept_of_blank (by unfold execKvStore; dsimp only; (repeat' split) <;> simp)
theorem execKvRetrieve_kept (w : Who) (nsid : Nat) (key : List Byte) (bufferBytes : Nat) (s : State) :
    Kept s (stateAfter s (execKvRetrieve w nsid key bufferBytes s)) :=
  kept_of_blank (by unfold execKvRetrieve; dsimp only; (repeat' split) <;> simp)
theorem execKvDelete_kept (w : Who) (nsid : Nat) (key : List Byte) (s : State) : Kept s (stateAfter s (execKvDelete w nsid key s)) :=
  kept_of_blank (by unfold execKvDelete; (repeat' split) <;> simp)
theorem execKvExist_kept (w : Who) (nsid : Nat) (key : List Byte) (s : State) : Kept s (stateAfter s (execKvExist w nsid key s)) :=
  kept_of_blank (by unfold execKvExist; (repeat' split) <;> simp)
theorem execKvList_kept (w : Who) (nsid : Nat) (key : List Byte) (s : State) : Kept s (stateAfter s (execKvList w nsid key s)) :=
  kept_of_blank (by unfold execKvList; (repeat' split) <;> simp)
theorem execLoadProgram_kept (w : Who) (cdw10 cdw11 : W32) (received : List Byte) (s : State) :
    Kept s (stateAfter s (execLoadProgram w cdw10 cdw11 received s)) :=
  kept_of_blank (by simp [execLoadProgram])
theorem execProgramActivationManagement_kept (w : Who) (programId : Nat) (activate : Bool) (s : State) :
    Kept s (stateAfter s (execProgramActivationManagement w programId activate s)) :=
  kept_of_blank (by simp [execProgramActivationManagement])
theorem execMemoryRangeSetManagement_kept (w : Who) (create : Bool) (setId : Nat) (ranges : List MemRange) (s : State) :
    Kept s (stateAfter s (execMemoryRangeSetManagement w create setId ranges s)) :=
  kept_of_blank (by unfold execMemoryRangeSetManagement; dsimp only; (repeat' split) <;> simp)
theorem execExecuteProgram_kept (w : Who) (programId rangeSet : Nat) (args : List Byte) (s : State) :
    Kept s (stateAfter s (execExecuteProgram w programId rangeSet args s)) :=
  kept_of_blank (by unfold execExecuteProgram; dsimp only; (repeat' split) <;> simp)
theorem execMemoryRead_kept (w : Who) (nsid offset length : Nat) (s : State) :
    Kept s (stateAfter s (execMemoryRead w nsid offset length s)) :=
  kept_of_blank (by unfold execMemoryRead; (repeat' split) <;> simp)
theorem execMemoryWrite_kept (w : Who) (nsid offset : Nat) (data : Option (List Byte)) (s : State) :
    Kept s (stateAfter s (execMemoryWrite w nsid offset data s)) :=
  kept_of_blank (by unfold execMemoryWrite; (repeat' split) <;> simp)
theorem execMemoryCopy_kept (w : Who) (nsid offset : Nat) (sources : List (Nat × LbaRange)) (s : State) :
    Kept s (stateAfter s (execMemoryCopy w nsid offset sources s)) :=
  kept_of_blank (by unfold execMemoryCopy; (repeat' split) <;> simp)

/-! ### Virtual instances -/

theorem execLedgerRead_kept (w : Who) (seq count bufferBytes : Nat) (s : State) :
    Kept s (stateAfter s (execLedgerRead w seq count bufferBytes s)) :=
  kept_of_blank (by simp [execLedgerRead])
theorem execGetShare_kept (w : Who) (fn : Fn) (bytes : Nat) (s : State) : Kept s (stateAfter s (execGetShare w fn bytes s)) :=
  kept_of_blank (by unfold execGetShare; (repeat' split) <;> simp)
theorem execSetShare_kept (w : Who) (fn : Fn) (bytes : Nat) (share : Share) (s : State) :
    Kept s (stateAfter s (execSetShare w fn bytes share s)) :=
  kept_of_blank (by unfold execSetShare; (repeat' split) <;> simp)
theorem execAssign_kept (w : Who) (fn : Fn) (bytes : Nat) (entries : List AssignEntry) (s : State) :
    Kept s (stateAfter s (execAssign w fn bytes entries s)) := by
  unfold execAssign
  rw [stateAfter_next]
  split
  · split
    · exact kept_of_blank (by simp)
    · split
      · exact kept_of_blank (by simp)
      · split
        · exact kept_of_blank (by simp)
        · split
          · exact kept_of_blank (by simp)
          · next s1 as applied =>
            have e : s1.blank unwatched = s.blank unwatched := State.applyEntries_blank s fn entries [] (by simp) _ applied
            exact kept_of_blank (by simp [e])
  · exact Kept.refl s
theorem execGetStatus_kept (w : Who) (fn : Fn) (bytes : Nat) (s : State) : Kept s (stateAfter s (execGetStatus w fn bytes s)) :=
  kept_of_blank (by unfold execGetStatus; (repeat' split) <;> simp)
theorem execGetMigrationKey_kept (w : Who) (fn : Fn) (bytes : Nat) (s : State) : Kept s (stateAfter s (execGetMigrationKey w fn bytes s)) :=
  kept_of_blank (by unfold execGetMigrationKey; dsimp only; (repeat' split) <;> simp)
theorem execMigrationKeyExpiry_kept (fn : Fn) (s : State) : Kept s (stateAfter s (execMigrationKeyExpiry fn s)) :=
  kept_of_blank (by simp [execMigrationKeyExpiry])
theorem execSetMigrationTarget_kept (w : Who) (fn : Fn) (record : List Byte) (s : State) :
    Kept s (stateAfter s (execSetMigrationTarget w fn record s)) :=
  kept_of_blank (by unfold execSetMigrationTarget; (repeat' split) <;> simp)
theorem execMigrateFreeze_kept (w : Who) (fn : Fn) (s : State) : Kept s (stateAfter s (execMigrateFreeze w fn s)) :=
  kept_of_blank (by unfold execMigrateFreeze; (repeat' split) <;> simp)
theorem execThaw_kept (w : Who) (fn : Fn) (s : State) : Kept s (stateAfter s (execThaw w fn s)) :=
  kept_of_blank (by simp [execThaw])
theorem execMigrateSave_kept (w : Who) (fn : Fn) (bufferBytes : Nat) (s : State) :
    Kept s (stateAfter s (execMigrateSave w fn bufferBytes s)) :=
  kept_of_blank (by unfold execMigrateSave; dsimp only; (repeat' split) <;> simp)
theorem execMigrateRestore_kept (w : Who) (fn : Fn) (bytes : Nat) (blob : List Byte) (s : State) :
    Kept s (stateAfter s (execMigrateRestore w fn bytes blob s)) :=
  kept_of_blank (by unfold execMigrateRestore; dsimp only; (repeat' split) <;> simp)
theorem execSend_kept (fn : Fn) (fromManager : Bool) (value : W32) (s : State) : Kept s (stateAfter s (execSend fn fromManager value s)) :=
  kept_of_blank (by simp)
theorem execPop_kept (fn : Fn) (fromManager : Bool) (value : W32) (s : State) : Kept s (stateAfter s (execPop fn fromManager value s)) :=
  kept_of_blank (by simp)

/-! ### Identify and log pages -/

theorem execIdentify_kept (w : Who) (cns nsid : Nat) (s : State) : Kept s (stateAfter s (execIdentify w cns nsid s)) :=
  kept_of_blank (by unfold execIdentify; (repeat' split) <;> simp)
theorem execGetLogPage_kept (w : Who) (lid nsid offset bytes : Nat) (rae : Bool) (lsp uuid : Nat) (s : State) :
    Kept s (stateAfter s (execGetLogPage w lid nsid offset bytes rae lsp uuid s)) :=
  kept_of_blank (by unfold execGetLogPage; (repeat' split) <;> simp)

/-! ### Sideband -/

theorem execReadNvmeMiDataStructure_kept (transport kind : Nat) (s : State) :
    Kept s (stateAfter s (execReadNvmeMiDataStructure transport kind s)) :=
  kept_of_blank (by simp [execReadNvmeMiDataStructure])
theorem execNvmSubsystemHealthStatusPoll_kept (transport : Nat) (s : State) :
    Kept s (stateAfter s (execNvmSubsystemHealthStatusPoll transport s)) :=
  kept_of_blank (by simp [execNvmSubsystemHealthStatusPoll])
theorem execControllerHealthStatusPoll_kept (transport controller : Nat) (s : State) :
    Kept s (stateAfter s (execControllerHealthStatusPoll transport controller s)) :=
  kept_of_blank (by simp [execControllerHealthStatusPoll])
theorem execConfigurationSet_kept (transport : Nat) (smbusFrequency mtu : Option Nat) (s : State) :
    Kept s (stateAfter s (execConfigurationSet transport smbusFrequency mtu s)) :=
  kept_of_blank (by simp [execConfigurationSet])
theorem execConfigurationGet_kept (transport : Nat) (mtu : Bool) (s : State) :
    Kept s (stateAfter s (execConfigurationGet transport mtu s)) :=
  kept_of_blank (by simp [execConfigurationGet])
theorem execVpdRead_kept (transport offset length : Nat) (s : State) : Kept s (stateAfter s (execVpdRead transport offset length s)) :=
  kept_of_blank (by simp [execVpdRead])
theorem execVpdWrite_kept (transport offset : Nat) (data : List Byte) (s : State) :
    Kept s (stateAfter s (execVpdWrite transport offset data s)) :=
  kept_of_blank (by simp [execVpdWrite])
theorem execTunnelledAdminCommand_kept (transport opcode arg : Nat) (s : State) :
    Kept s (stateAfter s (execTunnelledAdminCommand transport opcode arg s)) :=
  kept_of_blank (by simp [execTunnelledAdminCommand])
theorem execBasicManagementCommand_kept (s : State) : Kept s (stateAfter s (execBasicManagementCommand s)) :=
  kept_of_blank (by simp [execBasicManagementCommand])
theorem execMiResponseTimeout_kept (transport : Nat) (s : State) : Kept s (stateAfter s (execMiResponseTimeout transport s)) :=
  kept_of_blank (by unfold execMiResponseTimeout; (repeat' split) <;> simp)
theorem execSmbusTimeout_kept (s : State) : Kept s (stateAfter s (execSmbusTimeout s)) :=
  kept_of_blank (by simp [execSmbusTimeout])
theorem execSpdmRequest_kept (transport code : Nat) (nonce : List Byte) (s : State) :
    Kept s (stateAfter s (execSpdmRequest transport code nonce s)) :=
  kept_of_blank (by simp [execSpdmRequest])
theorem execLedgerGet_kept (transport seq count : Nat) (s : State) : Kept s (stateAfter s (execLedgerGet transport seq count s)) :=
  kept_of_blank (by simp [execLedgerGet])
theorem execCertMldsa_kept (transport : Nat) (s : State) : Kept s (stateAfter s (execCertMldsa transport s)) :=
  kept_of_blank (by simp [execCertMldsa])

/-! ### The clock -/

theorem execEpochBoundary_kept (s : State) : Kept s (stateAfter s (execEpochBoundary s)) :=
  kept_of_blank (by simp [execEpochBoundary])

/-! ### Harts -/

theorem execKernelFault_kept (hart : Nat) (run : KernelRun) (trap : KernelTrap) (s : State) :
    Kept s (stateAfter s (execKernelFault hart run trap s)) :=
  kept_of_blank (by unfold execKernelFault; (repeat' split) <;> simp)
theorem execFail_kept (hart : Nat) (run : KernelRun) (s : State) : Kept s (stateAfter s (execFail hart run s)) :=
  kept_of_blank (by unfold execFail; (repeat' split) <;> simp)
theorem execExit_kept (hart : Nat) (run : KernelRun) (s : State) : Kept s (stateAfter s (execExit hart run s)) :=
  kept_of_blank (by unfold execExit; dsimp only; (repeat' split) <;> simp)
theorem execKernelWritebackDone_kept (hart : Nat) (lost : Option Nat) (s : State) :
    Kept s (stateAfter s (execKernelWritebackDone hart lost s)) :=
  kept_of_blank (by unfold execKernelWritebackDone; (repeat' split) <;> simp)
theorem execBudgetLeft_kept (hart : Nat) (run : KernelRun) (s : State) : Kept s (stateAfter s (execBudgetLeft hart run s)) :=
  kept_of_blank (by unfold execBudgetLeft; (repeat' split) <;> simp)
theorem execLynxSearch_kept (hart : Nat) (run : KernelRun) (s : State) : Kept s (stateAfter s (execLynxSearch hart run s)) :=
  kept_of_blank (by unfold execLynxSearch; dsimp only; (repeat' split) <;> simp)
theorem execLynxSearchReturn_kept (hart : Nat) (seen : UnitSeen) (s : State) : Kept s (stateAfter s (execLynxSearchReturn hart seen s)) :=
  kept_of_blank (by unfold execLynxSearchReturn; dsimp only; (repeat' split) <;> simp)
theorem execKernelTrailSubmit_kept (hart : Nat) (run : KernelRun) (hv : HostView) (s : State) :
    Kept s (stateAfter s (execKernelTrailSubmit hart run hv s)) :=
  kept_of_blank (by unfold execKernelTrailSubmit; dsimp only; (repeat' split) <;> simp)
theorem execBudgetExpiry_kept (hart : Nat) (run : KernelRun) (s : State) : Kept s (stateAfter s (execBudgetExpiry hart run s)) :=
  kept_of_blank (by unfold execBudgetExpiry; (repeat' split) <;> simp)
theorem execHartStopTimeout_kept (hart : Nat) (s : State) : Kept s (stateAfter s (execHartStopTimeout hart s)) :=
  kept_blank.1 (by unfold execHartStopTimeout; (repeat' split) <;> simp [kept_blank.2 (Kept.refl s)])
theorem execHartResetTimeout_kept (hart : Nat) (s : State) : Kept s (stateAfter s (execHartResetTimeout hart s)) :=
  kept_blank.1 (by simp [execHartResetTimeout, kept_blank.2 (Kept.refl s)])

/-! ### Registers -/

theorem execLoRegisterRead_kept (r : Requester) (offset width : Nat) (s : State) :
    Kept s (stateAfter s (execLoRegisterRead r offset width s)) :=
  kept_of_blank (by simp [execLoRegisterRead])
theorem execBldEscLastRead_kept (r : Requester) (width : Nat) (s : State) : Kept s (stateAfter s (execBldEscLastRead r width s)) :=
  kept_of_blank (by simp [execBldEscLastRead])
theorem execClrCounters_kept (r : Requester) (offset : Nat) (value : W32) (s : State) :
    Kept s (stateAfter s (execClrCounters r offset value s)) :=
  kept_of_blank (by unfold execClrCounters; (repeat' split) <;> simp)
theorem execLock_kept (r : Requester) (offset : Nat) (value : W32) (s : State) : Kept s (stateAfter s (execLock r offset value s)) :=
  kept_of_blank (by simp [execLock])
@[simp ↓] theorem execBridgeErrClear_blank_unwatched (r : Requester) (value : W32) (s : State) :
    (stateAfter s (execBridgeErrClear r value s)).blank unwatched = s.blank unwatched := by
  simp [execBridgeErrClear]
theorem execBridgeErrClear_kept (r : Requester) (value : W32) (s : State) : Kept s (stateAfter s (execBridgeErrClear r value s)) :=
  kept_of_blank (by simp)
@[simp ↓] theorem execRleErrClear_blank_unwatched (r : Requester) (value : W32) (s : State) :
    (stateAfter s (execRleErrClear r value s)).blank unwatched = s.blank unwatched := by
  simp [execRleErrClear]
theorem execRleErrClear_kept (r : Requester) (value : W32) (s : State) : Kept s (stateAfter s (execRleErrClear r value s)) :=
  kept_of_blank (by simp)
@[simp ↓] theorem execEccUeClear_blank_unwatched (r : Requester) (value : W32) (s : State) :
    (stateAfter s (execEccUeClear r value s)).blank unwatched = s.blank unwatched := by
  simp [execEccUeClear]
theorem execEccUeClear_kept (r : Requester) (value : W32) (s : State) : Kept s (stateAfter s (execEccUeClear r value s)) :=
  kept_of_blank (by simp)
theorem execTopIrqCfgWrite_kept (r : Requester) (port : Port) (value : W32) (s : State) :
    Kept s (stateAfter s (execTopIrqCfgWrite r port value s)) :=
  kept_of_blank (by simp [execTopIrqCfgWrite])
@[simp ↓] theorem State.portWrite_blank_unwatched (s : State) (p : PortReq) (off : Nat) (v : W32) :
    (s.portWrite p off v).blank unwatched = s.blank unwatched := by
  unfold State.portWrite; (repeat' split) <;> simp
@[simp ↓] theorem State.entryWrite_blank_unwatched (s : State) (r : Requester) (v : W32) :
    (s.entryWrite r v).blank unwatched = s.blank unwatched := by
  unfold State.entryWrite; (repeat' split) <;> simp
@[simp ↓] theorem State.fieldsWrite_blank_unwatched (s : State) (r : Requester) (off : Nat) (v : W32) :
    (s.fieldsWrite r off v).blank unwatched = s.blank unwatched := by
  unfold State.fieldsWrite; dsimp only
  (repeat' with_reducible refine blank_of_ite ?_ ?_) <;> (repeat' split) <;> simp
@[simp ↓] theorem State.barWrite_blank_unwatched (s : State) (r : Requester) (off : Nat) (v : W32) :
    (s.barWrite r off v).blank unwatched = s.blank unwatched := by
  unfold State.barWrite; (repeat' split) <;> simp
theorem execRegisterWrite_kept (r : Requester) (offset width : Nat) (value : W64) (s : State) :
    Kept s (stateAfter s (execRegisterWrite r offset width value s)) :=
  kept_of_blank (by simp [execRegisterWrite])

/-- Every command keeps the queue and the firmware as secure as it was. -/
theorem exec_kept (s : State) : ∀ c : Instr, Kept s (stateAfter s (exec c s))
  | .bridgeTimeout .. => execBridgeTimeout_kept ..
  | .setFeaturesMode .. => execSetFeaturesMode_kept ..
  | .getFeaturesMode .. => execGetFeaturesMode_kept ..
  | .modeTransitionDone => execModeTransitionDone_kept ..
  | .thermalSample .. => execThermalSample_kept ..
  | .sprintTick .. => execSprintTick_kept ..
  | .sprintLimit => execSprintLimit_kept ..
  | .ilimNAssert => execIlimNAssert_kept ..
  | .hibernateEntryDone => execHibernateEntryDone_kept ..
  | .wakeEvent .. => execWakeEvent_kept ..
  | .wakeReady => execWakeReady_kept ..
  | .trailSubmit .. => execTrailSubmit_kept ..
  | .trailAdmissionResume .. => execTrailAdmissionResume_kept ..
  | .trailQuery .. => execTrailQuery_kept ..
  | .trailQueryWaitExpiry .. => execTrailQueryWaitExpiry_kept ..
  | .trailCancel .. => execTrailCancel_kept ..
  | .chunkIssue .. => execChunkIssue_kept ..
  | .trailEnd .. => execTrailEnd_kept ..
  | .creditGrant .. => execCreditGrant_kept ..
  | .sinkGrant .. => execSinkGrant_kept ..
  | .taskFire .. => execTaskFire_kept ..
  | .unitTaskStart .. => execUnitTaskStart_kept ..
  | .taskComplete .. => execTaskComplete_kept ..
  | .engineWatchdogExpiry .. => execEngineWatchdogExpiry_kept ..
  | .orphanCheck => execOrphanCheck_kept ..
  | .squirrelFill .. => execSquirrelFill_kept ..
  | .hartTaskStart .. => execHartTaskStart_kept ..
  | .exit .. => execExit_kept ..
  | .kernelWritebackDone .. => execKernelWritebackDone_kept ..
  | .fail .. => execFail_kept ..
  | .budgetLeft .. => execBudgetLeft_kept ..
  | .lynxSearch .. => execLynxSearch_kept ..
  | .lynxSearchReturn .. => execLynxSearchReturn_kept ..
  | .kernelTrailSubmit .. => execKernelTrailSubmit_kept ..
  | .kernelFault .. => execKernelFault_kept ..
  | .budgetExpiry .. => execBudgetExpiry_kept ..
  | .hartStopTimeout .. => execHartStopTimeout_kept ..
  | .hartResetTimeout .. => execHartResetTimeout_kept ..
  | .moduleLoad .. => execModuleLoad_kept ..
  | .enroll .. => execEnroll_kept ..
  | .moduleMeasureDone => execModuleMeasureDone_kept ..
  | .moduleSignatureDone => execModuleSignatureDone_kept ..
  | .moduleUnload .. => execModuleUnload_kept ..
  | .moduleRemove .. => execModuleRemove_kept ..
  | .clusterEnWrite .. => execClusterEnWrite_kept ..
  | .channelTrainDone .. => execChannelTrainDone_kept ..
  | .targetTempPoll .. => execTargetTempPoll_kept ..
  | .channelRetrainDone .. => execChannelRetrainDone_kept ..
  | .suspendDone .. => execSuspendDone_kept ..
  | .suspendBudgetExpiry .. => execSuspendBudgetExpiry_kept ..
  | .writeAgeExpiry .. => execWriteAgeExpiry_kept ..
  | .senseDone .. => execSenseDone_kept ..
  | .codewordDecodeDone .. => execCodewordDecodeDone_kept ..
  | .ladderDeadlineExpiry .. => execLadderDeadlineExpiry_kept ..
  | .firstSenseDeadlineExpiry .. => execFirstSenseDeadlineExpiry_kept ..
  | .programDone .. => execProgramDone_kept ..
  | .eraseDone .. => execEraseDone_kept ..
  | .lunReadyTimeout .. => execLunReadyTimeout_kept ..
  | .ucalCommit .. => execUcalCommit_kept ..
  | .ucalCommitDone .. => execUcalCommitDone_kept ..
  | .systemAreaMoveDone .. => execSystemAreaMoveDone_kept ..
  | .nvmWrite .. => execNvmWrite_kept ..
  | .writeZeroes .. => execWriteZeroes_kept ..
  | .nvmRead .. => execNvmRead_kept ..
  | .datasetManagement .. => execDatasetManagement_kept ..
  | .flush .. => execFlush_kept ..
  | .compare .. => execCompare_kept ..
  | .verify .. => execVerify_kept ..
  | .writeAdmit => execWriteAdmit_kept ..
  | .writeDataDone .. => execWriteDataDone_kept ..
  | .slotFlushStart .. => execSlotFlushStart_kept ..
  | .stripeCloseTimeout .. => execStripeCloseTimeout_kept ..
  | .badgerVictimSelect => execBadgerVictimSelect_kept ..
  | .epochBoundary => execEpochBoundary_kept ..
  | .journalPageTimeout => execJournalPageTimeout_kept ..
  | .mapSegmentTimeout .. => execMapSegmentTimeout_kept ..
  | .mapSegmentRebuildDone .. => execMapSegmentRebuildDone_kept ..
  | .rebuildBandStart => execRebuildBandStart_kept ..
  | .dumpComplete => execDumpComplete_kept ..
  | .reshapeStart .. => execReshapeStart_kept ..
  | .reshapeAbort .. => execReshapeAbort_kept ..
  | .reshapeRegionBegin => execReshapeRegionBegin_kept ..
  | .getImportKey .. => execGetImportKey_kept ..
  | .importKeyExpiry .. => execImportKeyExpiry_kept ..
  | .importKey .. => execImportKey_kept ..
  | .generate .. => execGenerate_kept ..
  | .clear .. => execClear_kept ..
  | .restore .. => execRestore_kept ..
  | .slotStatus .. => execSlotStatus_kept ..
  | .opalSecuritySend .. => execOpalSecuritySend_kept ..
  | .opalSecurityReceive .. => execOpalSecurityReceive_kept ..
  | .genkey .. => execGenkey_kept ..
  | .nonceLogWriteDone .. => execNonceLogWriteDone_kept ..
  | .alarm .. => execAlarm_kept ..
  | .claim .. => execClaim_kept ..
  | .release .. => execRelease_kept ..
  | .portOwnerTimeout => execPortOwnerTimeout_kept ..
  | .portStart .. => execPortStart_kept ..
  | .portData .. => execPortData_kept ..
  | .portBlockAbsorbed => execPortBlockAbsorbed_kept ..
  | .portFinish .. => execPortFinish_kept ..
  | .hmacLoad .. => execHmacLoad_kept ..
  | .hmacLoadDone => execHmacLoadDone_kept ..
  | .hmacClear .. => execHmacClear_kept ..
  | .hmacReloadDone .. => execHmacReloadDone_kept ..
  | .define .. => execDefine_kept ..
  | .undefine .. => execUndefine_kept ..
  | .lnxTblSelWrite .. => execLnxTblSelWrite_kept ..
  | .lnxEntRead .. => execLnxEntRead_kept ..
  | .lnxEntWrite .. => execLnxEntWrite_kept ..
  | .lnxEntDelete .. => execLnxEntDelete_kept ..
  | .lynxCompareStep .. => execLynxCompareStep_kept ..
  | .lynxLapComplete .. => execLynxLapComplete_kept ..
  | .lapTargetExceeded => execLapTargetExceeded_kept ..
  | .lynxReloadDone => execLynxReloadDone_kept ..
  | .arm .. => execArm_kept ..
  | .dmaPause .. => execDmaPause_kept ..
  | .dmaResume .. => execDmaResume_kept ..
  | .dmaPauseDrained .. => execDmaPauseDrained_kept ..
  | .dmaOwnerWrite .. => execDmaOwnerWrite_kept ..
  | .dmaDescPtrWrite .. => execDmaDescPtrWrite_kept ..
  | .dmaDescriptorDone .. => execDmaDescriptorDone_kept ..
  | .dmaPaceResume .. => execDmaPaceResume_kept ..
  | .dmaBusError .. => execDmaBusError_kept ..
  | .descFetchError .. => execDescFetchError_kept ..
  | .dramTrainAttemptDone .. => execDramTrainAttemptDone_kept ..
  | .dqsRecentre .. => execDqsRecentre_kept ..
  | .zqCalibration .. => execZqCalibration_kept ..
  | .mr4Poll .. => execMr4Poll_kept ..
  | .refresh .. => execRefresh_kept ..
  | .memRequest .. => execMemRequest_kept ..
  | .memReadDone .. => execMemReadDone_kept ..
  | .owlRead .. => execOwlRead_kept ..
  | .pageRetireDone .. => execPageRetireDone_kept ..
  | .owlLapOverdue => execOwlLapOverdue_kept ..
  | .eccInjectArm .. => execEccInjectArm_kept ..
  | .portReset .. => execPortReset_kept ..
  | .perstAssert .. => execPerstAssert_kept ..
  | .perstDeassert .. => execPerstDeassert_kept ..
  | .linkTrained .. => execLinkTrained_kept ..
  | .pcieCompletionTimeout .. => execPcieCompletionTimeout_kept ..
  | .doorbellWrite .. => execDoorbellWrite_kept ..
  | .commandFetch .. => execCommandFetch_kept ..
  | .controllerEnable .. => execControllerEnable_kept ..
  | .controllerDisable .. => execControllerDisable_kept ..
  | .shutdownNotification .. => execShutdownNotification_kept ..
  | .nvmSubsystemReset .. => execNvmSubsystemReset_kept ..
  | .identify .. => execIdentify_kept ..
  | .getLogPage .. => execGetLogPage_kept ..
  | .setFeatures .. => execSetFeatures_kept ..
  | .getFeatures .. => execGetFeatures_kept ..
  | .createIoQueue .. => execCreateIoQueue_kept ..
  | .deleteIoQueue .. => execDeleteIoQueue_kept ..
  | .abort .. => execAbort_kept ..
  | .asynchronousEventRequest .. => execAsynchronousEventRequest_kept ..
  | .formatNvm .. => execFormatNvm_kept ..
  | .sanitize .. => execSanitize_kept ..
  | .firmwareImageDownload .. => execFirmwareImageDownload_kept ..
  | .firmwareCommitWrite .. => execFirmwareCommitWrite_kept ..
  | .firmwareCommitWritePending .. => execFirmwareCommitWritePending_kept ..
  | .firmwareCommitPending .. => execFirmwareCommitPending_kept ..
  | .namespaceCreate .. => execNamespaceCreate_kept ..
  | .namespaceDelete .. => execNamespaceDelete_kept ..
  | .namespaceResize .. => execNamespaceResize_kept ..
  | .namespaceAttachment .. => execNamespaceAttachment_kept ..
  | .reservationRegister .. => execReservationRegister_kept ..
  | .reservationAcquire .. => execReservationAcquire_kept ..
  | .reservationRelease .. => execReservationRelease_kept ..
  | .reservationReport .. => execReservationReport_kept ..
  | .kvStore .. => execKvStore_kept ..
  | .kvRetrieve .. => execKvRetrieve_kept ..
  | .kvDelete .. => execKvDelete_kept ..
  | .kvExist .. => execKvExist_kept ..
  | .kvList .. => execKvList_kept ..
  | .loadProgram .. => execLoadProgram_kept ..
  | .programActivationManagement .. => execProgramActivationManagement_kept ..
  | .executeProgram .. => execExecuteProgram_kept ..
  | .memoryRangeSetManagement .. => execMemoryRangeSetManagement_kept ..
  | .memoryRead .. => execMemoryRead_kept ..
  | .memoryWrite .. => execMemoryWrite_kept ..
  | .memoryCopy .. => execMemoryCopy_kept ..
  | .ledgerRead .. => execLedgerRead_kept ..
  | .getShare .. => execGetShare_kept ..
  | .setShare .. => execSetShare_kept ..
  | .assign .. => execAssign_kept ..
  | .getStatus .. => execGetStatus_kept ..
  | .getMigrationKey .. => execGetMigrationKey_kept ..
  | .migrationKeyExpiry .. => execMigrationKeyExpiry_kept ..
  | .setMigrationTarget .. => execSetMigrationTarget_kept ..
  | .migrateFreeze .. => execMigrateFreeze_kept ..
  | .thaw .. => execThaw_kept ..
  | .migrateSave .. => execMigrateSave_kept ..
  | .migrateRestore .. => execMigrateRestore_kept ..
  | .send .. => execSend_kept ..
  | .pop .. => execPop_kept ..
  | .functionLevelReset .. => execFunctionLevelReset_kept ..
  | .flrAbortDeadline .. => execFlrAbortDeadline_kept ..
  | .flrComplete .. => execFlrComplete_kept ..
  | .readNvmeMiDataStructure .. => execReadNvmeMiDataStructure_kept ..
  | .nvmSubsystemHealthStatusPoll .. => execNvmSubsystemHealthStatusPoll_kept ..
  | .controllerHealthStatusPoll .. => execControllerHealthStatusPoll_kept ..
  | .configurationSet .. => execConfigurationSet_kept ..
  | .configurationGet .. => execConfigurationGet_kept ..
  | .vpdRead .. => execVpdRead_kept ..
  | .vpdWrite .. => execVpdWrite_kept ..
  | .tunnelledAdminCommand .. => execTunnelledAdminCommand_kept ..
  | .basicManagementCommand => execBasicManagementCommand_kept ..
  | .miResponseTimeout .. => execMiResponseTimeout_kept ..
  | .smbusTimeout => execSmbusTimeout_kept ..
  | .spdmRequest .. => execSpdmRequest_kept ..
  | .ledgerGet .. => execLedgerGet_kept ..
  | .certMldsa .. => execCertMldsa_kept ..
  | .powerOn .. => execPowerOn_kept ..
  | .bootHoldXspiRelease => execBootHoldXspiRelease_kept ..
  | .trialConfirm => execTrialConfirm_kept ..
  | .trialReadyTimeout => execTrialReadyTimeout_kept ..
  | .ledgerAppendDone .. => execLedgerAppendDone_kept ..
  | .mgmtHartWatchdogExpiry => execMgmtHartWatchdogExpiry_kept ..
  | .rootWatchdogExpiry => execRootWatchdogExpiry_kept ..
  | .escalationBoundExpiry .. => execEscalationBoundExpiry_kept ..
  | .resetDone .. => execResetDone_kept ..
  | .pfailNFall => execPfailNFall_kept ..
  | .pfailHoldExpiry => execPfailHoldExpiry_kept ..
  | .railDroop .. => execRailDroop_kept ..
  | .resetNFall => execResetNFall_kept ..
  | .resetNRiseReboot .. => execResetNRiseReboot_kept ..
  | .tempHistoryTick => execTempHistoryTick_kept ..
  | .lifetimeWriteTimer => execLifetimeWriteTimer_kept ..
  | .flushLifetime .. => execFlushLifetime_kept ..
  | .lifetimeWriteDone => execLifetimeWriteDone_kept ..
  | .configAreaWriteDone => execConfigAreaWriteDone_kept ..
  | .clrCounters .. => execClrCounters_kept ..
  | .lock .. => execLock_kept ..
  | .bridgeErrClear .. => execBridgeErrClear_kept ..
  | .dmaErrClear .. => execDmaErrClear_kept ..
  | .rleErrClear .. => execRleErrClear_kept ..
  | .eccUeClear .. => execEccUeClear_kept ..
  | .lnxErrClear .. => execLnxErrClear_kept ..
  | .topIrqCfgWrite .. => execTopIrqCfgWrite_kept ..
  | .bldEscLastRead .. => execBldEscLastRead_kept ..
  | .loRegisterRead .. => execLoRegisterRead_kept ..
  | .registerWrite .. => execRegisterWrite_kept ..
  | .flowControlCreditReturn .. => execFlowControlCreditReturn_kept ..
  | .railsFall .. => execRailsFall_kept ..
  | .deallocationComplete .. => execDeallocationComplete_kept ..
  | .sanitizeComplete .. => execSanitizeComplete_kept ..
  | .keepAlive .. => execKeepAlive_kept ..
  | .keepAliveTimerExpiry .. => execKeepAliveTimerExpiry_kept ..
  | .msiXUnmask .. => execMsiXUnmask_kept ..

theorem exec_next_kept {c : Instr} {s t : State} (h : exec c s = .next t) : Kept s t := by
  have k := exec_kept s c
  rwa [h] at k

/-! ## The statements -/

/-- Settles O57: by the definition of a step, and no word is decoded. -/
theorem stepRunsTheFrontCommand : Obligations.StepRunsTheFrontCommand := by
  unfold Obligations.StepRunsTheFrontCommand
  refine ⟨fun c s rest h => ?_, fun s h => ?_, fun s nbits w => ?_⟩
  · rw [step, h]
  · rw [step, h]
  · rfl

/-- Settles O58: what every command keeps. -/
theorem commandsLeaveTheQueue : Obligations.CommandsLeaveTheQueue := by
  unfold Obligations.CommandsLeaveTheQueue
  exact fun c s t h => (exec_next_kept h).pending

/-- Settles O60: a step runs a command over the rest of the queue, or lets a tick pass, and each keeps the firmware secure. -/
theorem firmwareStaysSecure : Obligations.FirmwareStaysSecure := by
  unfold Obligations.FirmwareStaysSecure
  intro s t secure h
  cases hq : s.pending with
  | cons c rest =>
    rw [step, hq] at h
    have k := exec_next_kept h
    exact ⟨k.secure secure, k.svn, k.revoked⟩
  | nil =>
    rw [step, hq] at h
    obtain rfl := Host.Outcome.next.inj h
    have k : Kept s s.idle := kept_blank.1 (State.idle_stays s (kept_blank.2 (Kept.refl s)))
    exact ⟨k.secure secure, k.svn, k.revoked⟩

end Sys2Proof.Machine
end
section
/-! PROOFS. The statement on Lynx tables and their entries (O30). -/

namespace Sys2Proof.Machine

/-! ## Tables of the array -/

theorem State.lynxTable_congr {s t : State} (h : t.lynx = s.lynx) (k : Nat) : t.lynxTable k = s.lynxTable k := by
  rw [State.lynxTable, h, State.lynxTable]

theorem State.lynxTable_onLynxTable (s : State) (k j : Nat) (g : LynxTable → LynxTable) :
    (s.onLynxTable k g).lynxTable j = if j = k then (s.lynxTable k).map g else s.lynxTable j := by
  simp [State.onLynxTable, State.lynxTable, Tbl.find_modify]

@[simp] theorem State.setReg_lynx (s : State) (off : Nat) (v : W32) : (s.setReg off v).lynx = s.lynx := rfl
@[simp] theorem State.lynxStageCfg_lynx (s : State) (v : W32) : (s.lynxStageCfg v).lynx = s.lynx := by
  unfold State.lynxStageCfg; split <;> rfl
@[simp] theorem State.lynxStage_lynx (s : State) : s.lynxStage.lynx = s.lynx := by
  unfold State.lynxStage; split <;> rfl
@[simp] theorem State.lynxRefused_lynx (s : State) (b : Bool) : (s.lynxRefused b).lynx = s.lynx := rfl
@[simp] theorem State.lynxResult_lynx (s : State) (n : Nat) : (s.lynxResult n).lynx = s.lynx := rfl
@[simp] theorem State.reg_lynxResult (s : State) (n : Nat) : (s.lynxResult n).reg rLnxEntCmd = w32 n := State.reg_setReg_self ..

/-- Staging a definition writes its two registers. -/
theorem State.reg_lynxStage (s : State) {off : Nat} (hc : off ≠ rLnxTblCfg) (hb : off ≠ rLnxTblBanks) : s.lynxStage.reg off = s.reg off := by
  unfold State.lynxStage; split <;> simp [State.reg_setReg, hc, hb]

/-- Nothing was refused. -/
theorem State.regBit_lynxStage_lynxRefused (s : State) : ((s.lynxRefused false).lynxStage).regBit rLnxTblInfo 29 = false := by
  rw [State.regBit, State.reg_lynxStage _ (by decide) (by decide), State.lynxRefused, State.reg_setReg_self]
  decide

/-! ## Definitions (R352, R372) -/

theorem define_defines {s : State} {r : Requester} {v : W32} {m : Fn} (hm : requesterFn r = some m) (hr : s.barReaches r rLnxTblCfg = true)
    (hd : bitAt v 31 = true) (hfree : lynxHeld (s.lynxStageCfg v) m (lynxSel (s.lynxStageCfg v)) = false)
    (hok : lynxBadDefinition (s.lynxStageCfg v) m (lynxSel (s.lynxStageCfg v)) (lynxStaged (s.lynxStageCfg v)) = false) :
    Completes (.define r v) s fun t =>
      t.lynxTable (lynxSel (s.lynxStageCfg v)) = some (lynxStaged (s.lynxStageCfg v)) ∧ t.regBit rLnxTblInfo 29 = false ∧
      (∀ i, i ≠ lynxSel (s.lynxStageCfg v) → t.lynxTable i = s.lynxTable i) ∧ OnlyChanges [.regs, .lynx] s t := by
  have run : exec (.define r v) s = .next ((((s.lynxStageCfg v).onLynx fun l =>
      { l with tables := l.tables.set (lynxSel (s.lynxStageCfg v)) (lynxStaged (s.lynxStageCfg v)) }).lynxRefused false).lynxStage) := by
    show execDefine r v s = _
    simp [execDefine, hm, hr, hd, hfree, hok]
  refine ⟨_, run, ?_, State.regBit_lynxStage_lynxRefused _, fun i hi => ?_, only_of_blank (by simp)⟩
  · simp [State.lynxTable]
  · simp [State.lynxTable, hi]

theorem undefine_undefines {s : State} {r : Requester} {v : W32} {m : Fn} (hm : requesterFn r = some m)
    (hr : s.barReaches r rLnxTblCfg = true) (hd : bitAt v 31 = false) (hu : bitAt v 30 = true)
    (hfree : lynxHeld (s.lynxStageCfg v) m (lynxSel (s.lynxStageCfg v)) = false) :
    Completes (.undefine r v) s fun t =>
      t.lynxTable (lynxSel (s.lynxStageCfg v)) = none ∧ t.regBit rLnxTblInfo 29 = false ∧ OnlyChanges [.regs, .lynx] s t := by
  have run : exec (.undefine r v) s = .next ((((s.lynxStageCfg v).onLynx fun l =>
      { l with tables := l.tables.erase (lynxSel (s.lynxStageCfg v)) }).lynxRefused false).lynxStage) := by
    show execUndefine r v s = _
    simp [execUndefine, hm, hr, hd, hu, hfree]
  exact ⟨_, run, by simp [State.lynxTable], State.regBit_lynxStage_lynxRefused _, only_of_blank (by simp)⟩

/-- The field written is the field read. -/
theorem fld_w32_fld (v : W32) : fld (w32 (fld v 3 0)) 3 0 = fld v 3 0 := by
  simp only [fld, bitsOf, w32, BitVec.toNat_ofNat]
  omega

theorem lnxTblSelWrite_selects {s : State} {r : Requester} (v : W32) (hr : s.barReaches r rLnxTblSel = true) :
    Completes (.lnxTblSelWrite r v) s fun t => lynxSel t = fld v 3 0 ∧ OnlyChanges [.regs] s t := by
  have run : exec (.lnxTblSelWrite r v) s = .next ((s.setReg rLnxTblSel (w32 (fld v 3 0))).lynxStage) := by
    show execLnxTblSelWrite r v s = _
    simp [execLnxTblSelWrite, hr]
  refine ⟨_, run, ?_, only_of_blank (by simp)⟩
  rw [lynxSel, State.regFld, State.reg_lynxStage _ (by decide) (by decide), State.reg_setReg_self, fld_w32_fld]

/-! ## Entries (R360, R373) -/

/-- What LNX_ENT_ATTR shows of an entry (R360). -/
def LynxEntry.shown (e : LynxEntry) : W32 := w32 (bitIf e.valid 31 + e.prio % 8 * 2 ^ 24 + e.value % 2 ^ 24)

theorem LynxEntry.shown_toNat (e : LynxEntry) :
    e.shown.toNat = bitIf e.valid 31 + e.prio % 8 * 2 ^ 24 + e.value % 2 ^ 24 := by
  rw [LynxEntry.shown, w32, BitVec.toNat_ofNat, Nat.mod_eq_of_lt]
  unfold bitIf; split <;> omega

theorem LynxEntry.shown_valid (e : LynxEntry) : bitAt e.shown 31 = e.valid := by
  rw [bitAt, BitVec.getLsbD, LynxEntry.shown_toNat, Nat.testBit_eq_decide_div_mod_eq]
  cases e.valid <;> simp [bitIf] <;> omega

theorem LynxEntry.shown_value (e : LynxEntry) : fld e.shown 23 0 = e.value % 2 ^ 24 := by
  rw [fld, bitsOf, LynxEntry.shown_toNat]
  unfold bitIf; split <;> omega

/-- Writing the KEY registers leaves the others. -/
theorem State.reg_entKeys (s : State) (v : Nat → W32) {off : Nat} (h : ∀ n, off ≠ rLnxEntKey n) (n : Nat) :
    (iterate (fun n x => x.setReg (rLnxEntKey n) (v n)) n s).reg off = s.reg off := by
  induction n with
  | zero => rfl
  | succ n ih => rw [iterate, State.reg_setReg, if_neg (h n), ih]

theorem lnxEntRead_reads {s : State} {r : Requester} {v : W32} {x : LynxTable} {i : Nat} (hr : s.barReaches r rLnxEntCmd = true)
    (hv : lynxOnly v 31 = true) (hx : lynxEntTarget s = .ok (x, i)) :
    Completes (.lnxEntRead r v) s fun t =>
      t.regBit rLnxEntAttr 31 = (x.entries.getD i ⟨false, 0, 0, [], 0⟩).valid ∧
      t.regFld rLnxEntAttr 23 0 = (x.entries.getD i ⟨false, 0, 0, [], 0⟩).value % 2 ^ 24 ∧ t.reg rLnxEntCmd = 0 ∧
      OnlyChanges [.regs] s t := by
  have run : exec (.lnxEntRead r v) s = .next ((iterate (fun n y => y.setReg (rLnxEntKey n)
      (w32 (leAt (x.entries.getD i ⟨false, 0, 0, [], 0⟩).key (4 * n) 4))) 8
      (s.setReg rLnxEntAttr (x.entries.getD i ⟨false, 0, 0, [], 0⟩).shown)).lynxResult 0) := by
    show execLnxEntRead r v s = _
    simp [execLnxEntRead, hr, hv, hx]
    rfl
  have attr : ∀ n, rLnxEntAttr ≠ rLnxEntKey n := fun n => by simp only [rLnxEntAttr, rLnxEntKey]; omega
  have read : ((iterate (fun n y => y.setReg (rLnxEntKey n)
      (w32 (leAt (x.entries.getD i ⟨false, 0, 0, [], 0⟩).key (4 * n) 4))) 8
      (s.setReg rLnxEntAttr (x.entries.getD i ⟨false, 0, 0, [], 0⟩).shown)).lynxResult 0).reg rLnxEntAttr =
      (x.entries.getD i ⟨false, 0, 0, [], 0⟩).shown := by
    rw [State.lynxResult, State.reg_setReg, if_neg (by decide), State.reg_entKeys _ _ attr, State.reg_setReg_self]
  refine ⟨_, run, ?_, ?_, by simp [w32], only_of_blank (by simp)⟩
  · rw [State.regBit, read, LynxEntry.shown_valid]
  · rw [State.regFld, read, LynxEntry.shown_value]

/-- The table that an entry command names. -/
theorem lynxTable_of_entTarget {s : State} {x : LynxTable} {i : Nat} (hx : lynxEntTarget s = .ok (x, i)) :
    s.lynxTable (lynxSel s) = some x := by
  unfold lynxEntTarget at hx
  split at hx
  · cases hx
  · next t ht =>
    dsimp only at hx
    split at hx
    · cases hx
    · split at hx
      · cases hx
      · cases hx; exact ht

theorem lnxEntWrite_invalidates {s : State} {r : Requester} {v : W32} {x : LynxTable} {i : Nat} (hr : s.barReaches r rLnxEntCmd = true)
    (hv : lynxOnly v 30 = true) (hx : lynxEntTarget s = .ok (x, i)) (hinv : s.regBit rLnxEntAttr 31 = false) :
    Completes (.lnxEntWrite r v) s fun t =>
      (∃ y, t.lynxTable (lynxSel s) = some y ∧ ∃ e, y.entries.find i = some e ∧ e.valid = false ∧ e.key = lynxEntKey s x) ∧
      t.reg rLnxEntCmd = 0 ∧ OnlyChanges [.regs, .lynx] s t := by
  have run : exec (.lnxEntWrite r v) s = .next ((s.onLynxTable (lynxSel s) fun t => (t.mend i).put i
      ⟨false, s.regFld rLnxEntAttr 26 24, s.regFld rLnxEntAttr 23 0, lynxEntKey s x, s.now / tMs⟩).lynxResult 0) := by
    show execLnxEntWrite r v s = _
    simp [execLnxEntWrite, hr, hv, hx, hinv]
  refine ⟨_, run, ⟨(x.mend i).put i ⟨false, s.regFld rLnxEntAttr 26 24, s.regFld rLnxEntAttr 23 0, lynxEntKey s x, s.now / tMs⟩,
    ?_, _, Tbl.find_set_self .., rfl, rfl⟩, by simp [w32], only_of_blank (by simp)⟩
  rw [State.lynxTable_congr (State.lynxResult_lynx ..), State.lynxTable_onLynxTable, if_pos rfl, lynxTable_of_entTarget hx]
  rfl

theorem lnxEntDelete_deletes {s : State} {r : Requester} {v : W32} {x : LynxTable} {i : Nat} (hr : s.barReaches r rLnxEntCmd = true)
    (hv : lynxOnly v 29 = true) (hx : lynxEntTarget s = .ok (x, i)) :
    Completes (.lnxEntDelete r v) s fun t =>
      (∃ y, t.lynxTable (lynxSel s) = some y ∧ y.entries.find i = none) ∧ t.reg rLnxEntCmd = 0 ∧ OnlyChanges [.regs, .lynx] s t := by
  have run : exec (.lnxEntDelete r v) s = .next ((s.onLynxTable (lynxSel s) fun t => (t.mend i).drop i).lynxResult 0) := by
    show execLnxEntDelete r v s = _
    simp [execLnxEntDelete, hr, hv, hx]
  refine ⟨_, run, ⟨(x.mend i).drop i, ?_, Tbl.find_erase_self ..⟩, by simp [w32], only_of_blank (by simp)⟩
  rw [State.lynxTable_congr (State.lynxResult_lynx ..), State.lynxTable_onLynxTable, if_pos rfl, lynxTable_of_entTarget hx]
  rfl

theorem lnxEntWrite_refusesDuplicate {s : State} {r : Requester} {v : W32} {x : LynxTable} {i j : Nat} {e : LynxEntry}
    (hr : s.barReaches r rLnxEntCmd = true) (hv : lynxOnly v 30 = true) (hx : lynxEntTarget s = .ok (x, i))
    (hval : s.regBit rLnxEntAttr 31 = true) (hmem : (j, e) ∈ x.entries) (hj : j ≠ i) (he : e.valid = true)
    (hkey : e.key = lynxEntKey s x) :
    Completes (.lnxEntWrite r v) s fun t => t.lynx = s.lynx ∧ t.reg rLnxEntCmd = 2 ∧ OnlyChanges [.regs] s t := by
  have dup : ((x.hits (lynxEntKey s x)).any fun y => decide (y.1 ≠ i)) = true :=
    List.any_eq_true.2 ⟨(j, e), by simp [LynxTable.hits, hmem, he, hkey], by simpa using hj⟩
  have run : exec (.lnxEntWrite r v) s = .next (s.lynxResult 2) := by
    show execLnxEntWrite r v s = _
    simp only [execLnxEntWrite, hr, hv, hx, hval, dup, and_self, if_true, Bool.true_and]
  exact ⟨_, run, rfl, by simp [w32], only_of_blank (by simp)⟩

/-- Settles O30: what each write of the table and entry registers leaves, clause by clause. -/
theorem lynxTables : Obligations.LynxTables := by
  unfold Obligations.LynxTables
  exact ⟨fun _ _ _ _ hm hr hd hfree hok => define_defines hm hr hd hfree hok,
    fun _ _ _ _ hm hr hd hu hfree => undefine_undefines hm hr hd hu hfree,
    fun _ _ v hr => lnxTblSelWrite_selects v hr,
    fun _ _ _ _ _ hr hv hx => lnxEntRead_reads hr hv hx,
    fun _ _ _ _ _ hr hv hx hinv => lnxEntWrite_invalidates hr hv hx hinv,
    fun _ _ _ _ _ hr hv hx => lnxEntDelete_deletes hr hv hx,
    fun _ _ _ _ _ _ _ hr hv hx hval hmem hj he hkey => lnxEntWrite_refusesDuplicate hr hv hx hval hmem hj he hkey⟩

end Sys2Proof.Machine
end
section
/-! PROOFS. The statement on the background compare of Lynx, its laps and reloads, and on verified searches (O31). -/

namespace Sys2Proof.Machine

/-! ## The compare (R362, R363) -/

section
variable {s : State} {table i : Nat} {x : LynxTable}

/-- A step of the compare at an entry of a table. -/
theorem exec_lynxCompareStep (hx : s.lynxTable table = some x) (hc : lynxCompares s = true) (hi : i < x.capacity) (seen : CompareSeen) :
    exec (.lynxCompareStep table i seen) s = .next (s.lynxCompared table i x.copies seen) := by
  show execLynxCompareStep table i seen s = _
  simp [execLynxCompareStep, hx, hc, hi]

theorem State.addLife_lynx (s : State) (key n : Nat) : (s.addLife key n).lynx = s.lynx := s.addLife_only key n .lynx (by decide)

theorem State.lynxTable_addLife (s : State) (key n k : Nat) : (s.addLife key n).lynxTable k = s.lynxTable k :=
  State.lynxTable_congr (s.addLife_lynx key n) k
theorem State.lynxTable_addCnt (s : State) (off n k : Nat) : (s.addCnt off n).lynxTable k = s.lynxTable k := rfl

theorem lynxCompareStep_rewrites (hx : s.lynxTable table = some x) (hc : lynxCompares s = true) (hi : i < x.capacity) :
    Completes (.lynxCompareStep table i .differsShadowGood) s fun t =>
      t.lynxTable table = some { x with diffs := x.diffs.filter fun d => d.2.index ≠ i } ∧
      (∀ k, k ≠ table → t.lynxTable k = s.lynxTable k) ∧
      t.cnt (rLnxCount 5) = (s.cnt (rLnxCount 5) + 1) % 2 ^ 64 ∧ OnlyChanges [.regs, .lynx, .health] s t := by
  have at_ : ∀ k, (((s.addLife (lifeErr 10 false) 1).onLynxTable table fun t => t.rewrite i).addCnt (rLnxCount 5) 1).lynxTable k =
      if k = table then (s.lynxTable table).map fun t => t.rewrite i else s.lynxTable k := fun k => by
    rw [State.lynxTable_addCnt, State.lynxTable_onLynxTable, State.lynxTable_addLife, State.lynxTable_addLife]
  refine ⟨_, exec_lynxCompareStep hx hc hi .differsShadowGood, ?_, fun k hk => ?_, ?_, only_of_blank (by simp [State.lynxCompared])⟩
  · rw [State.lynxCompared, at_, if_pos rfl, hx]; rfl
  · rw [State.lynxCompared, at_, if_neg hk]
  · rw [State.lynxCompared, State.cnt_addCnt_self]; rfl

theorem LynxTable.shadowTakes_sound (x : LynxTable) (i : Nat) : i ∉ (x.shadowTakes i).shadowBad := by
  unfold LynxTable.shadowTakes
  dsimp only
  split <;> simp [LynxTable.put]

theorem lynxCompareStep_restores_shadow (hx : s.lynxTable table = some x) (hc : lynxCompares s = true) (hi : i < x.capacity) :
    Completes (.lynxCompareStep table i .shadowBadParityGood) s fun t =>
      t.lynxTable table = some (x.shadowTakes i) ∧ i ∉ (x.shadowTakes i).shadowBad ∧ OnlyChanges [.lynx, .health] s t := by
  refine ⟨_, exec_lynxCompareStep hx hc hi .shadowBadParityGood, ?_, x.shadowTakes_sound i, only_of_blank (by simp [State.lynxCompared])⟩
  rw [State.lynxCompared, State.lynxTable_onLynxTable, if_pos rfl, State.lynxTable_addLife, hx]; rfl

theorem State.onLynxTable_of_none (h : s.lynxTable table = none) (g : LynxTable → LynxTable) : s.onLynxTable table g = s := by
  unfold State.lynxTable at h
  simp [State.onLynxTable, State.onLynx, Tbl.modify, h]

theorem lynxCompareStep_free_unit (hx : s.lynxTable table = none) (hc : lynxCompares s = true) (hf : freeUnit s i = true) :
    Completes (.lynxCompareStep table i .differsShadowGood) s fun t =>
      t.cnt (rLnxCount 5) = (s.cnt (rLnxCount 5) + 1) % 2 ^ 64 ∧ t.lynx = s.lynx ∧ OnlyChanges [.regs, .health] s t := by
  have run : exec (.lynxCompareStep table i .differsShadowGood) s =
      .next ((s.addLife (lifeErr 10 false) 1).addCnt (rLnxCount 5) 1) := by
    show execLynxCompareStep table i .differsShadowGood s = _
    rw [execLynxCompareStep, if_pos hc]
    simp only [hx, hf, if_true, State.lynxCompared]
    rw [State.onLynxTable_of_none ((s.lynxTable_addLife _ _ table).trans hx)]
  exact ⟨_, run, State.cnt_addCnt_self .., s.addLife_lynx .., only_of_blank (by simp)⟩

theorem lynxCompareStep_loses (hx : s.lynxTable table = some x) (hc : lynxCompares s = true) (hi : i < x.capacity) (hkv : x.kv = false) :
    ∃ u : State, exec (.lynxCompareStep table i .bothBadNoCopy) s = .next (u.lynxRecord table i).irq ∧
      (∃ y, u.lynxTable table = some y ∧ y.entries.find i = none ∧ y.faulted = true ∧ i ∈ y.lost) ∧ OnlyChanges [.lynx, .health] s u := by
  refine ⟨(s.onLynxTable table fun t =>
    { t.drop i with faulted := t.faulted || !t.kv, lost := if t.kv then t.lost else addOnce t.lost i }).addLife (lifeErr 10 true) 1,
    ?_, ⟨{ x.drop i with faulted := true, lost := addOnce x.lost i }, ?_, Tbl.find_erase_self .., rfl, ?_⟩, only_of_blank (by simp)⟩
  · rw [exec_lynxCompareStep hx hc hi]
    simp [State.lynxCompared, State.lynxLose, hx, hkv]
  · rw [State.lynxTable_addLife, State.lynxTable_onLynxTable, if_pos rfl, hx]
    simp [hkv]
  · simp only [addOnce]; split <;> simp_all

end

/-! ## Laps and reloads (R362, R365, R366, R371) -/

theorem lynxLapComplete_ends {s : State} (us : Nat) (hc : lynxCompares s = true) :
    Completes (.lynxLapComplete us) s fun t =>
      t.reg rLnxLapLast = w32 (Nat.min 0xFFFFFFFF us) ∧ t.lynx.lapOver = false ∧ (lapTargetUs s < us → t.lynx.autoVerify = true) ∧
      t.lynx.tables = s.lynx.tables ∧ OnlyChanges [.regs, .lynx] s t := by
  have run := show exec (.lynxLapComplete us) s = _ from if_pos hc
  refine ⟨_, run, State.reg_setReg_self .., rfl, fun late => ?_, rfl, only_of_blank (by simp)⟩
  simp [late]

theorem lapTargetExceeded_verifies {s : State} (hc : lynxCompares s = true) :
    Completes .lapTargetExceeded s fun t => t.lynx = { s.lynx with autoVerify := true, lapOver := true } ∧ OnlyChanges [.lynx] s t :=
  ⟨_, if_pos hc, rfl, only_of_blank (by simp)⟩

theorem lynxReloadDone_reloads {s : State} (hr : s.lynx.restoring = true) (he : s.up .engine = true) (hm : s.up .mem = true)
    (hh : s.power.effective ≠ .hibernate) :
    ∃ u : State, exec .lynxReloadDone s = .next u.ringKept ∧ u.lynx.restoring = false ∧ u.lynx.lapStart = s.now ∧
      u.lynx.lapOver = false ∧ (∀ e ∈ u.lynx.tables, e.2.diffs = []) ∧
      (∀ k, (u.lynxTable k).map (·.entries) = (s.lynxTable k).map (·.entries)) ∧ OnlyChanges [.lynx] s u := by
  refine ⟨s.lynxReloaded, ?_, rfl, rfl, rfl, fun e he => ?_, fun k => ?_, only_of_blank (by simp)⟩
  · show execLynxReloadDone s = _
    simp [execLynxReloadDone, hr, he, hm, hh]
  · obtain ⟨x, _, rfl⟩ := List.mem_map.1 he; rfl
  · simp [State.lynxReloaded, State.lynxTable, Tbl.find_mapVals, Function.comp_def]

/-! ## Searches of a copy (R355, R364) -/

theorem LynxTable.search_unverified (t : LynxTable) (copy : Nat) (key : List Byte) :
    (t.search copy false key).word = some ((t.held copy).result key false) := by
  unfold LynxTable.search
  cases h : (t.held copy).winner key with
  | none => rw [LynxTable.result_of_none false h]
  | some w => rfl

/-- A copy that no soft error has changed holds the table. -/
theorem LynxTable.held_of_sound {t : LynxTable} {copy : Nat} (h : ∀ x ∈ t.diffs, x.1 ≠ copy) : t.held copy = t := by
  have none : t.softIn copy = [] := by
    simp only [LynxTable.softIn, List.map_eq_nil_iff, List.filter_eq_nil_iff, decide_eq_true_eq]
    exact h
  rw [LynxTable.held, none]; rfl

/-- Verification repeats the search of a sound copy with the same answer. -/
theorem LynxTable.search_verified {t : LynxTable} {copy : Nat} {key : List Byte} {w : Nat} (h : ∀ x ∈ t.diffs, x.1 ≠ copy)
    (hs : t.shadowBad = []) (hw : (t.search copy true key).word = some w) : w = t.result key true := by
  unfold LynxTable.search at hw
  rw [LynxTable.held_of_sound h] at hw
  cases hwin : t.winner key with
  | none =>
    rw [hwin] at hw
    rw [LynxTable.result_of_none true hwin]
    exact (Option.some.inj hw).symm
  | some win =>
    obtain ⟨i, e⟩ := win
    have again : (t.rewrite i).held copy = t.rewrite i := LynxTable.held_of_sound fun x hx => h x (List.mem_of_mem_filter hx)
    have same : (t.rewrite i).winner key = some (i, e) := hwin
    have shadow : t.shadowHas i key = true ∨ t.shadowHas i key = false := by cases t.shadowHas i key <;> simp
    rcases shadow with has | has <;> simp [hwin, again, same, hs, has] at hw
    exact hw.symm

/-- Settles O31: what a step of the compare, a lap, a reload and a search leave, clause by clause. -/
theorem lynxCompare : Obligations.LynxCompare := by
  unfold Obligations.LynxCompare
  refine ⟨fun _ _ _ _ hx hc hi => lynxCompareStep_rewrites hx hc hi,
    fun _ _ _ _ hx hc hi => lynxCompareStep_restores_shadow hx hc hi,
    fun _ _ _ _ hx hc hi hone => ?_,
    fun _ _ _ hx hc hf => lynxCompareStep_free_unit hx hc hf,
    fun _ _ _ _ hx hc hi hkv => lynxCompareStep_loses hx hc hi hkv,
    fun _ us hc => lynxLapComplete_ends us hc,
    fun _ hc => lapTargetExceeded_verifies hc,
    fun _ hr he hm hh => lynxReloadDone_reloads hr he hm hh,
    fun t copy key => t.search_unverified copy key,
    fun _ _ _ _ h hs hw => LynxTable.search_verified h hs hw⟩
  rw [exec_lynxCompareStep hx hc hi, State.lynxCompared, if_pos hone]

end Sys2Proof.Machine
end
section
/-! PROOFS. The statement on the DMA channel registers and the start of a list (O32). -/

namespace Sys2Proof.Machine

/-! ## Channels -/

theorem State.chan_onChan (s : State) (n m : Nat) (g : DmaChan → DmaChan) :
    (s.onChan n g).chan m = if m = n then g (s.chan n) else s.chan m :=
  Tbl.getD_put DmaChan.reset s.dma n m _
@[simp] theorem State.chan_onChan_self (s : State) (n : Nat) (g : DmaChan → DmaChan) : (s.onChan n g).chan n = g (s.chan n) := by
  simp [State.chan_onChan]
theorem State.onChan_only (s : State) (n : Nat) (g : DmaChan → DmaChan) : OnlyChanges [.dma] s (s.onChan n g) :=
  only_of_blank (by simp)
theorem State.chan_congr {s t : State} (h : t.dma = s.dma) (n : Nat) : t.chan n = s.chan n := by rw [State.chan, h, State.chan]

theorem requesterOwner_ne_dispatch (r : Requester) : requesterOwner r ≠ .dispatch := by cases r <;> simp [requesterOwner]

/-- A task runs on a channel or not, whatever the channel's registers. -/
theorem dmaTask_onChan (s : State) (n m : Nat) (g : DmaChan → DmaChan) : dmaTask (s.onChan n g) m = dmaTask s m := rfl

theorem dmaMayDrive_owner {s : State} {r : Requester} {n : Nat} (h : (s.chan n).owner = requesterOwner r) : dmaMayDrive s r n = true := by
  simp [dmaMayDrive, h, requesterOwner_ne_dispatch]

/-- A write that names the owner it has claims nothing. -/
theorem State.dmaOwner_of_mine {s : State} {r : Requester} {n : Nat} (h : (s.chan n).owner = requesterOwner r) :
    s.dmaOwner r n (requesterOwner r) = s := by
  simp [State.dmaOwner, h, requesterOwner_ne_dispatch]

theorem State.dmaPauseBit_of_owned {s : State} {n : Nat} (h : (s.chan n).owner ≠ .dispatch) (on : Bool) :
    s.dmaPauseBit n on = s.onChan n fun c =>
      if on then { c with pause := true } else { c with pause := false, paused := false, held := false } := by
  simp [State.dmaPauseBit, State.onChan, h]

section
variable {s : State} {r : Requester} {n : Nat} {v : W32}

/-- A write of DMA_CTL_n by the owner of the channel. -/
theorem State.dmaCtlWrite_of_mine (hr : s.barReaches r (rDmaChan n) = true) (hn : n < 64) (ho : (s.chan n).owner = requesterOwner r)
    (hw : dmaOwnerOf (fld v 29 28) = requesterOwner r) :
    s.dmaCtlWrite r n v = if bitAt v 31 then (s.dmaPauseBit n (bitAt v 30)).dmaArm n else s.dmaPauseBit n (bitAt v 30) := by
  simp [State.dmaCtlWrite, hr, hn, hw, requesterOwner_ne_dispatch, State.dmaOwner_of_mine ho, dmaMayDrive_owner ho]

/-! ## The registers of a channel (R377, R383, R384, R400) -/

theorem dmaOwnerWrite_claims (hr : s.barReaches r (rDmaChan n) = true) (hn : n < 64) (ho : (s.chan n).owner = .dispatch)
    (hw : dmaOwnerOf (fld v 29 28) = requesterOwner r) (hfree : dmaTaken s < 8) (hglb : s.regBit rDmaGlbCtl 31 = false)
    (hpause : bitAt v 30 = false) (harm : bitAt v 31 = false) :
    Completes (.dmaOwnerWrite r n v) s fun t =>
      t.chan n = { s.chan n with owner := requesterOwner r, pause := false, paused := false, held := false } ∧ OnlyChanges [.dma] s t := by
  have claimed : s.dmaOwner r n (requesterOwner r) = s.onChan n fun c => { c with owner := requesterOwner r } := by
    simp [State.dmaOwner, hglb, ho, hfree, State.onChan]
  have drives : dmaMayDrive (s.onChan n fun c => { c with owner := requesterOwner r }) r n = true := dmaMayDrive_owner (by simp)
  have run : exec (.dmaOwnerWrite r n v) s =
      .next ((s.onChan n fun c => { c with owner := requesterOwner r }).dmaPauseBit n false) := by
    show execDmaOwnerWrite r n v s = _
    simp [execDmaOwnerWrite, State.dmaCtlWrite, hr, hn, hw, ho, requesterOwner_ne_dispatch, claimed, drives, hpause, harm]
  refine ⟨_, run, ?_, only_of_blank (by simp)⟩
  rw [State.dmaPauseBit_of_owned (by simp [requesterOwner_ne_dispatch])]
  simp

theorem dmaPause_pauses (hr : s.barReaches r (rDmaChan n) = true) (hn : n < 64) (ho : (s.chan n).owner = requesterOwner r)
    (hw : dmaOwnerOf (fld v 29 28) = requesterOwner r) (hpause : bitAt v 30 = true) (harm : bitAt v 31 = false) :
    Completes (.dmaPause r n v) s fun t => t.chan n = { s.chan n with pause := true } ∧ OnlyChanges [.dma] s t := by
  have run : exec (.dmaPause r n v) s = .next (s.dmaPauseBit n true) := by
    show execDmaPause r n v s = _
    simp [execDmaPause, hpause, harm, State.dmaCtlWrite_of_mine hr hn ho hw]
  refine ⟨_, run, ?_, only_of_blank (by simp)⟩
  rw [State.dmaPauseBit_of_owned (by simp [ho, requesterOwner_ne_dispatch])]
  simp

theorem dmaResume_resumes (hr : s.barReaches r (rDmaChan n) = true) (hn : n < 64) (ho : (s.chan n).owner = requesterOwner r)
    (hw : dmaOwnerOf (fld v 29 28) = requesterOwner r) (hpause : bitAt v 30 = false) (harm : bitAt v 31 = false) :
    Completes (.dmaResume r n v) s fun t =>
      t.chan n = { s.chan n with pause := false, paused := false, held := false } ∧ OnlyChanges [.dma] s t := by
  have run : exec (.dmaResume r n v) s = .next (s.dmaPauseBit n false) := by
    show execDmaResume r n v s = _
    simp [execDmaResume, hpause, harm, State.dmaCtlWrite_of_mine hr hn ho hw]
  refine ⟨_, run, ?_, only_of_blank (by simp)⟩
  rw [State.dmaPauseBit_of_owned (by simp [ho, requesterOwner_ne_dispatch])]
  simp

theorem dmaDescPtrWrite_sets (hr : s.barReaches r (rDmaChan n) = true) (hn : n < 64) (hd : dmaMayDrive s r n = true)
    (hidle : dmaBusy s n = false) (hpause : (s.chan n).pause = false) :
    Completes (.dmaDescPtrWrite r n v) s fun t =>
      t.chan n = { s.chan n with ptr := fld (s.chan n).ptrHi 15 0 * 2 ^ 32 + v.toNat } ∧ (∀ m, m ≠ n → t.chan m = s.chan m) ∧
      OnlyChanges [.dma] s t := by
  have run : exec (.dmaDescPtrWrite r n v) s =
      .next (s.onChan n fun c => { c with ptr := fld c.ptrHi 15 0 * 2 ^ 32 + v.toNat }) := by
    show execDmaDescPtrWrite r n v s = _
    simp [execDmaDescPtrWrite, hr, hn, hd, hidle, hpause]
  exact ⟨_, run, s.chan_onChan_self n _, fun m hm => by rw [State.chan_onChan, if_neg hm], s.onChan_only n _⟩

/-! ## ARM and the start of a list (R380, R393) -/

theorem chanArm_starts (hr : s.barReaches r (rDmaChan n) = true) (hn : n < 64) (ho : (s.chan n).owner = requesterOwner r)
    (hw : dmaOwnerOf (fld v 29 28) = requesterOwner r) (hpause : bitAt v 30 = false) (harm : bitAt v 31 = true)
    (hidle : dmaBusy s n = false) (herr : s.regBit rDmaErrStatus 30 = false) :
    ∃ u : State, exec (.arm r n v) s = .next (u.dmaStart n) ∧ OnlyChanges [.dma] s u ∧
      u.chan n = { s.chan n with
        pause := false, paused := false, err := false, errCode := 0, done := false, mismatch := false, descDone := 0,
        declared := none, sum := 0, moved := 0, held := false, desc := none } := by
  have owned : (s.chan n).owner ≠ .dispatch := by simp [ho, requesterOwner_ne_dispatch]
  have resumed := State.dmaPauseBit_of_owned owned false
  have idle : dmaBusy (s.dmaPauseBit n false) n = false := by
    rw [resumed]
    simpa [dmaBusy, dmaTask_onChan] using hidle
  have unpaused : ((s.dmaPauseBit n false).chan n).pause = false := by rw [resumed]; simp
  have clear : (s.dmaPauseBit n false).regBit rDmaErrStatus 30 = false := herr
  refine ⟨(s.dmaPauseBit n false).onChan n fun c =>
      { c with err := false, errCode := 0, done := false, mismatch := false, descDone := 0,
               declared := none, sum := 0, moved := 0, held := false, desc := none }, ?_, only_of_blank (by simp), ?_⟩
  · show execArm r n v s = _
    simp [execArm, harm, hpause, State.dmaCtlWrite_of_mine hr hn ho hw, State.dmaArm, idle, unpaused, clear]
  · rw [resumed]; simp

theorem State.dmaStart_begins {b : List Byte} (hb : dmaFetch s (s.chan n).owner (s.chan n).ptr = some b) (hop : (dmaDescOf b).op ≠ 0x0F)
    (halign : (s.chan n).ptr % 32 = 0) (hres : dmaReservedOk b = true) (hok : dmaDataOk s (s.chan n).owner (dmaDescOf b) = true) :
    (s.dmaStart n).chan n = (s.chan n).begin_ (s.chan n).ptr (dmaDescOf b) (paceHigh s (dmaDescOf b).pace) := by
  simp [State.dmaStart, State.dmaData, hb, hop, halign, hres, hok]

@[simp] theorem State.setReg_dma (s : State) (off : Nat) (v : W32) : (s.setReg off v).dma = s.dma := rfl
@[simp] theorem State.dmaRecord_dma (s : State) (code channel : Nat) (addr : W64) (stopAll : Bool) :
    (s.dmaRecord code channel addr stopAll).dma = s.dma := by
  unfold State.dmaRecord; split <;> rfl
theorem State.irq_dma (s : State) : s.irq.dma = s.dma := s.irq_only .dma (by decide)

/-- A channel that fails is stopped with the code. -/
theorem State.chan_dmaFail (s : State) (n code : Nat) (addr : W64) : (s.dmaFail n code addr).chan n = (s.chan n).stop code := by
  rw [State.dmaFail, State.chan_congr (State.irq_dma _)]
  exact (State.chan_congr (State.dmaRecord_dma ..) n).trans (s.chan_onChan_self n _)

end

/-- Settles O32: what the writes of a channel's registers leave, and how a list starts, clause by clause. -/
theorem dmaChannelsStart : Obligations.DmaChannelsStart := by
  unfold Obligations.DmaChannelsStart
  refine ⟨fun _ _ _ _ hr hn ho hw hfree hglb hpause harm => dmaOwnerWrite_claims hr hn ho hw hfree hglb hpause harm,
    fun _ _ _ _ hr hn ho hw hpause harm => dmaPause_pauses hr hn ho hw hpause harm,
    fun _ _ _ _ hr hn ho hw hpause harm => dmaResume_resumes hr hn ho hw hpause harm,
    fun _ _ _ _ hr hn hd hidle hpause => dmaDescPtrWrite_sets hr hn hd hidle hpause,
    fun _ _ _ _ hr hn ho hw hpause harm hidle herr => chanArm_starts hr hn ho hw hpause harm hidle herr,
    fun _ _ _ hb hop halign hres hok => State.dmaStart_begins hb hop halign hres hok,
    fun s n hb => ?_⟩
  have fails : s.dmaStart n = s.dmaFail n 4 (BitVec.ofNat 64 (s.chan n).ptr) := by simp [State.dmaStart, hb]
  rw [fails, State.chan_dmaFail]
  exact ⟨rfl, rfl, rfl⟩

end Sys2Proof.Machine
end
section
/-! PROOFS. The statement on what DMA moves, and how its channels pause and stop (O33). -/

namespace Sys2Proof.Machine

/-! ## Bytes that were copied -/

@[simp] theorem Mem.length_readBytes (m : Mem) (a n : Nat) : (m.readBytes a n).length = n := by
  induction n generalizing a with
  | zero => rfl
  | succ n ih => rw [Mem.readBytes, List.length_cons, ih]

theorem Mem.readBytes_eq_iff (m m' : Mem) (a b n : Nat) : m'.readBytes b n = m.readBytes a n ↔ ∀ i < n, m'.read (b + i) = m.read (a + i) := by
  induction n generalizing a b with
  | zero => simp [Mem.readBytes]
  | succ n ih =>
    rw [Mem.readBytes, Mem.readBytes, List.cons.injEq, ih]
    constructor
    · rintro ⟨first, rest⟩ i hi
      cases i with
      | zero => exact first
      | succ i => simpa [Nat.add_assoc, Nat.add_comm 1 i] using rest i (by omega)
    · intro h
      exact ⟨h 0 (by omega), fun i hi => by simpa [Nat.add_assoc, Nat.add_comm 1 i] using h (i + 1) (by omega)⟩

/-- The second memory holds at `b` the `n` bytes that the first has at `a`, and is the first elsewhere. -/
structure Copied (m m' : Mem) (a b n : Nat) : Prop where
  moved : ∀ i < n, m'.read (b + i) = m.read (a + i)
  kept : ∀ x, x < b ∨ b + n ≤ x → m'.read x = m.read x

theorem Copied.writeBytes (m : Mem) (a b n : Nat) : Copied m (m.writeBytes b (m.readBytes a n)) a b n where
  moved := (Mem.readBytes_eq_iff ..).1 (by simpa using Mem.readBytes_writeBytes m b (m.readBytes a n))
  kept x hx := Mem.read_writeBytes_other m b x _ (by simpa using hx)

/-- A copy of a first piece and of the rest is a copy of the whole, where the ranges do not overlap. -/
theorem Copied.append {m m1 m2 : Mem} {a b k n : Nat} (h1 : Copied m m1 a b k) (h2 : Copied m1 m2 (a + k) (b + k) (n - k)) (hk : k ≤ n)
    (apart : a + n ≤ b ∨ b + n ≤ a) : Copied m m2 a b n where
  moved i hi := by
    by_cases first : i < k
    · rw [h2.kept _ (.inl (by omega)), h1.moved i first]
    · have rest := h2.moved (i - k) (by omega)
      rw [show b + k + (i - k) = b + i by omega, show a + k + (i - k) = a + i by omega] at rest
      rw [rest, h1.kept _ (by omega)]
  kept x hx := by rw [h2.kept x (by omega), h1.kept x (by omega)]

/-! ## Writes of DRAM -/

/-- Check bits change nothing of a word that is not poisoned. -/
theorem State.writeWord_unpoisoned {s : State} (h : s.memory.poison = []) (word : Nat) (whole : Bool) :
    (s.writeWord word whole).memory.poison = [] ∧ (s.writeWord word whole).memory.dram = s.memory.dram := by
  have rewritten : ∀ g a, (s.memory.rewritten g a).poison = [] ∧ (s.memory.rewritten g a).dram = s.memory.dram := fun g a => by
    unfold MemSide.rewritten; split <;> exact ⟨h, rfl⟩
  unfold State.writeWord
  dsimp only [State.onMem_memory]
  obtain ⟨hp, hd⟩ := rewritten (groupOfAddr s (8 * word)) (8 * word)
  (repeat' split) <;> simp_all

theorem State.dramWrite_unpoisoned {s : State} (h : s.memory.poison = []) (a : Nat) (bs : List Byte) :
    (s.dramWrite a bs).memory.poison = [] ∧ (s.dramWrite a bs).memory.dram = s.memory.dram.writeBytes a bs := by
  have words : ∀ (ws : List Nat) (t : State), t.memory.poison = [] →
      (ws.foldl (fun t w => t.writeWord w (wholeWord a bs.length w)) t).memory.poison = [] ∧
      (ws.foldl (fun t w => t.writeWord w (wholeWord a bs.length w)) t).memory.dram = t.memory.dram := by
    intro ws
    induction ws with
    | nil => exact fun t ht => ⟨ht, rfl⟩
    | cons w ws ih =>
      intro t ht
      obtain ⟨hp, hd⟩ := State.writeWord_unpoisoned ht w (wholeWord a bs.length w)
      obtain ⟨ip, id⟩ := ih _ hp
      exact ⟨ip, id.trans hd⟩
  unfold State.dramWrite
  split
  · exact ⟨h, rfl⟩
  · exact words _ (s.onMem fun m => { m with dram := m.dram.writeBytes a bs }) h

theorem State.up_congr {s t : State} (h : t.sys = s.sys) (i : Island) : t.up i = s.up i := by rw [State.up, h, State.up]

theorem State.dramWrite_only (s : State) (a : Nat) (bs : List Byte) : OnlyChanges [.memory] s (s.dramWrite a bs) :=
  only_of_blank (by simp [State.dramWrite, State.writeWord])

/-! ## A COPY within DRAM (R381) -/

section
variable {d : DmaDesc} (hop : d.op = 0) (hsrc : d.srcSpace = 0) (hdst : d.dstSpace = 0)
include hsrc hdst

/-- A piece of a copy within DRAM lands. -/
theorem dmaPiece_copies {s : State} (hup : s.up .mem = true) (hpoison : s.memory.poison = []) (hv : HostView) (a b left : Nat) {n : Nat}
    (hn : 0 < n) : ∃ t : State, dmaPiece s hv d id a b n left = ⟨t, hv, left - n, none⟩ ∧ t.up .mem = true ∧ t.memory.poison = [] ∧
      Copied s.memory.dram t.memory.dram a b n := by
  have some_bytes : (s.memory.dram.readBytes a n).isEmpty = false := by
    rw [List.isEmpty_eq_false_iff, ← List.length_pos_iff, Mem.length_readBytes]; exact hn
  obtain ⟨poison, dram⟩ := State.dramWrite_unpoisoned (s := s.addCnt (rDmaCount 0) n) hpoison b (s.memory.dram.readBytes a n)
  refine ⟨((s.addCnt (rDmaCount 0) n).dramWrite b (s.memory.dram.readBytes a n)).addCnt (rDmaCount 1) n, ?_, ?_, poison, ?_⟩
  · have up0 : (s.addCnt (rDmaCount 0) n).up .mem = true := hup
    simp [dmaPiece, dmaPoisoned, hsrc, hdst, hpoison, dmaRead, hup, up0, dmaWritable, dmaWrite, some_bytes]
  · have sys := State.dramWrite_only (s.addCnt (rDmaCount 0) n) b (s.memory.dram.readBytes a n) .sys (by decide)
    exact (State.up_congr (s := s) sys .mem).trans hup
  · exact dram ▸ Copied.writeBytes s.memory.dram a b n

theorem copyPieces_copies (fuel : Nat) (s : State) (hv : HostView) (a b left : Nat) (hfuel : left ≤ 4096 * fuel)
    (hup : s.up .mem = true) (hpoison : s.memory.poison = []) (apart : a + left ≤ b ∨ b + left ≤ a) :
    (copyPieces d fuel s hv a b left).left = 0 ∧ (copyPieces d fuel s hv a b left).code = none ∧
      Copied s.memory.dram (copyPieces d fuel s hv a b left).state.memory.dram a b left := by
  induction fuel generalizing s a b left with
  | zero =>
    obtain rfl : left = 0 := by omega
    exact ⟨rfl, rfl, ⟨fun i hi => by omega, fun _ _ => rfl⟩⟩
  | succ fuel ih =>
    rw [copyPieces]
    split
    · next none_left => exact ⟨rfl, rfl, ⟨fun i hi => by omega, fun _ _ => rfl⟩⟩
    · next some_left =>
      have piece_min : Nat.min 4096 left = min 4096 left := rfl
      obtain ⟨pos, le, less⟩ : 0 < Nat.min 4096 left ∧ Nat.min 4096 left ≤ left ∧ left - Nat.min 4096 left ≤ 4096 * fuel := by omega
      generalize Nat.min 4096 left = k at pos le less
      obtain ⟨t, piece, up, poison, first⟩ := dmaPiece_copies hsrc hdst hup hpoison hv a b left pos
      obtain ⟨zero, done, rest⟩ := ih t (a + k) (b + k) (left - k) less up poison (by omega)
      simp only [piece]
      exact ⟨zero, done, first.append rest le apart⟩

include hop

theorem State.dmaMove_copies {s : State} (hv : HostView) {a b n : Nat} (hup : s.up .mem = true) (hpoison : s.memory.poison = [])
    (apart : a + n ≤ b ∨ b + n ≤ a) :
    (s.dmaMove hv d a b n).2 = (0, none) ∧ (s.dmaMove hv d a b n).1.memory.dram.readBytes b n = s.memory.dram.readBytes a n ∧
    ∀ x, x < b ∨ b + n ≤ x → (s.dmaMove hv d a b n).1.memory.dram.read x = s.memory.dram.read x := by
  obtain ⟨zero, done, copied⟩ := copyPieces_copies hsrc hdst (n / 4096 + 1) s hv a b n (by omega) hup hpoison apart
  simp only [State.dmaMove, hop, if_true, zero, done]
  exact ⟨trivial, (Mem.readBytes_eq_iff ..).2 copied.moved, copied.kept⟩

end

/-! ## The end of a descriptor, pauses and pace (R380, R383 to R385) -/

theorem State.dmaMove_dma (s : State) (hv : HostView) (d : DmaDesc) (a b n : Nat) : (s.dmaMove hv d a b n).1.dma = s.dma :=
  only_of_blank (ps := [.regs, .sys, .host, .ns, .ftl, .media, .str, .sea, .disp, .hrt, .memory, .health]) (by simp) .dma (by decide)

theorem dmaDescriptorDone_finishes {s u : State} {n : Nat} {hv : HostView} {d : DmaDesc} (hd : (s.chan n).desc = some d)
    (hup : s.up .engine = true) (hbusy : (s.chan n).busy = true) (hpaused : (s.chan n).paused = false) (hheld : (s.chan n).held = false)
    (hwait : (s.chan n).paceWait = false) (hnext : d.next = 0) (hdecl : (s.chan n).declared = none)
    (hmove : s.dmaMove hv d (s.chan n).src (s.chan n).dst (s.chan n).remain = (u, 0, none)) :
    Completes (.dmaDescriptorDone n hv) s fun t =>
      (t.chan n).done = true ∧ (t.chan n).busy = false ∧ (t.chan n).remain = 0 ∧ (t.chan n).err = (s.chan n).err ∧
      (t.chan n).descDone = satAdd 0xFFFF (s.chan n).descDone 1 ∧ t.memory = u.memory := by
  have chan : u.chan n = s.chan n := State.chan_congr (by rw [← State.dmaMove_dma s hv d, hmove]) n
  have ran : s.dmaRun n d hv (s.chan n).remain = (u.onChan n fun c => c.advance ((s.chan n).remain - 0), true) := by
    simp [State.dmaRun, hmove]
  have run : exec (.dmaDescriptorDone n hv) s = .next ((((u.onChan n fun c => c.advance ((s.chan n).remain - 0)).onChan n fun c =>
      { c with sum := c.sum + d.length }).dmaCountDesc n).onChan n DmaChan.finish) := by
    show execDmaDescriptorDone n hv s = _
    simp [execDmaDescriptorDone, hd, hup, hbusy, hpaused, hheld, hwait, ran, hnext, State.dmaNext]
  have counted : ∀ t : State, (t.dmaCountDesc n).chan n = { t.chan n with descDone := satAdd 0xFFFF (t.chan n).descDone 1 } :=
    fun t => t.chan_onChan_self n fun c => { c with descDone := satAdd 0xFFFF c.descDone 1 }
  refine ⟨_, run, ?_⟩
  dsimp only
  rw [State.chan_onChan_self, counted, State.chan_onChan_self, State.chan_onChan_self, chan]
  simp [DmaChan.finish, DmaChan.advance, hdecl]
  rfl

theorem dmaPauseDrained_pauses {s : State} {n : Nat} (hv : HostView) (hup : s.up .engine = true) (hpause : (s.chan n).pause = true)
    (hpaused : (s.chan n).paused = false) (herr : (s.chan n).err = false) (htask : dmaTask s n = none) (hquiet : (s.chan n).quiet = true) :
    Completes (.dmaPauseDrained n 0 hv) s fun t => t.chan n = { s.chan n with paused := true } ∧ OnlyChanges [.dma] s t := by
  have run : exec (.dmaPauseDrained n 0 hv) s = .next (s.onChan n fun c => { c with paused := true }) := by
    show execDmaPauseDrained n 0 hv s = _
    simp [execDmaPauseDrained, hup, hpause, hpaused, herr, htask, hquiet]
  exact ⟨_, run, s.chan_onChan_self n _, s.onChan_only n _⟩

theorem dmaPaceResume_resumes {s : State} {n : Nat} (hwait : (s.chan n).paceWait = true) (hbusy : dmaBusy s n = true)
    (hlow : paceLow s (paceTarget s n) = true) :
    Completes (.dmaPaceResume n) s fun t => t.chan n = { s.chan n with paceWait := false } ∧ OnlyChanges [.dma] s t := by
  have run : exec (.dmaPaceResume n) s = .next (s.onChan n fun c => { c with paceWait := false }) := by
    show execDmaPaceResume n s = _
    simp [execDmaPaceResume, hwait, hbusy, hlow]
  exact ⟨_, run, s.chan_onChan_self n _, s.onChan_only n _⟩

/-! ## Errors (R390 to R392) -/

theorem State.cnt_irq (s : State) (off : Nat) : s.irq.cnt off = s.cnt off := State.cnt_of_regs (State.irq_regs s) off
theorem State.cnt_addCnt_other (s : State) {off j : Nat} (n : Nat) (h : j ≠ off) : (s.addCnt off n).cnt j = s.cnt j :=
  Tbl.getD_put_other 0 s.regs.count _ h
theorem State.cnt_noteBridge (s : State) (target source : Island) (off : Nat) : (s.noteBridge target source).cnt off = s.cnt off := by
  rw [State.noteBridge, State.cnt_irq]
  refine (State.cnt_addLife ..).trans ?_
  unfold State.recordBridge; dsimp only; split <;> rfl

theorem State.cnt_dmaBridge (s : State) (space off : Nat) : (s.dmaBridge space).cnt off = s.cnt off := by
  unfold State.dmaBridge; split
  · rfl
  · exact s.cnt_noteBridge ..

theorem cnt_dmaWrite (s : State) (hv : HostView) (space : Nat) (f : Fn) (a : Nat) (bs : List Byte) (off : Nat) :
    (dmaWrite s hv space f a bs).1.cnt off = s.cnt off := by
  unfold dmaWrite
  split
  · rfl
  · split
    · exact State.cnt_of_regs (s.dramWrite_only a bs .regs (by decide)) off
    · exact State.cnt_of_regs (only_of_blank (ps := [.host]) (by simp) .regs (by decide)) off
    · rfl
    · rfl

/-- A move counts the bytes that it reads and writes. -/
theorem cnt_dmaPiece (s : State) (hv : HostView) (d : DmaDesc) (f : List Byte → List Byte) (a b n left : Nat) {off : Nat}
    (h0 : off ≠ rDmaCount 0) (h1 : off ≠ rDmaCount 1) : (dmaPiece s hv d f a b n left).state.cnt off = s.cnt off := by
  unfold dmaPiece
  split
  · rfl
  · split
    · exact s.cnt_dmaBridge ..
    · dsimp only
      split
      · dsimp only
        rw [State.cnt_addCnt_other _ _ h1, cnt_dmaWrite, State.cnt_addCnt_other _ _ h0]
      · exact (State.cnt_dmaBridge ..).trans (State.cnt_addCnt_other _ _ h0)

theorem cnt_copyPieces (d : DmaDesc) (fuel : Nat) (s : State) (hv : HostView) (a b left : Nat) {off : Nat}
    (h0 : off ≠ rDmaCount 0) (h1 : off ≠ rDmaCount 1) : (copyPieces d fuel s hv a b left).state.cnt off = s.cnt off := by
  induction fuel generalizing s hv a b left with
  | zero => rfl
  | succ fuel ih =>
    rw [copyPieces]
    split
    · rfl
    · have piece := cnt_dmaPiece s hv d id a b (Nat.min 4096 left) left h0 h1
      dsimp only
      split
      · exact piece
      · rw [ih, piece]

theorem State.cnt_dmaMove (s : State) (hv : HostView) (d : DmaDesc) (a b n : Nat) {off : Nat}
    (h0 : off ≠ rDmaCount 0) (h1 : off ≠ rDmaCount 1) : (s.dmaMove hv d a b n).1.cnt off = s.cnt off := by
  unfold State.dmaMove
  dsimp only
  split
  · exact cnt_copyPieces d _ s hv a b n h0 h1
  · split
    · rfl
    · exact cnt_dmaPiece s hv d _ a b n n h0 h1

theorem State.dmaRecord_cnt (s : State) (code channel : Nat) (addr : W64) (stopAll : Bool) (off : Nat) :
    (s.dmaRecord code channel addr stopAll).cnt off = s.cnt off := by
  unfold State.dmaRecord; split <;> rfl

/-- An error of a data access is counted once. -/
theorem State.cnt_dmaFail (s : State) (n : Nat) {code : Nat} (addr : W64) (h : code = 2 ∨ code = 3 ∨ code = 5) :
    (s.dmaFail n code addr).cnt (rDmaCount 4) = (s.cnt (rDmaCount 4) + 1) % 2 ^ 64 := by
  have one : (if 2 ≤ code ∧ code ≤ 5 then 1 else 0) = 1 := if_pos (by omega)
  rw [State.dmaFail, State.cnt_irq, one, State.cnt_addCnt_self, State.dmaRecord_cnt]
  rfl

theorem dmaBusError_stops {s : State} {n code moved : Nat} {addr : W64} {hv : HostView} {d : DmaDesc} (hup : s.up .engine = true)
    (hcode : code = 2 ∨ code = 3 ∨ code = 5) (htask : dmaTask s n = none) (hd : (s.chan n).desc = some d) (hbusy : (s.chan n).busy = true)
    (hheld : (s.chan n).held = false) (hwait : (s.chan n).paceWait = false) (hmoved : moved ≤ (s.chan n).remain) :
    Completes (.dmaBusError n code addr moved hv) s fun t =>
      (t.chan n).err = true ∧ (t.chan n).errCode = code ∧ (t.chan n).busy = false ∧ (t.chan n).done = false ∧
      (t.chan n).remain = (s.chan n).remain - moved ∧ (t.chan n).owner = (s.chan n).owner ∧
      t.cnt (rDmaCount 4) = (s.cnt (rDmaCount 4) + 1) % 2 ^ 64 := by
  obtain ⟨k, run⟩ : ∃ k, exec (.dmaBusError n code addr moved hv) s =
      .next (((s.dmaMove hv d (s.chan n).src (s.chan n).dst k).1.onChan n fun c => c.advance moved).dmaFail n code addr) := by
    show ∃ k, execDmaBusError n code addr moved hv s = _
    simp only [execDmaBusError, hup, hcode, htask, hd, hbusy, hheld, hwait, hmoved, and_self, if_true, Bool.not_false]
    exact ⟨_, rfl⟩
  have chan : (s.dmaMove hv d (s.chan n).src (s.chan n).dst k).1.chan n = s.chan n := State.chan_congr (State.dmaMove_dma ..) n
  have cnt : ((s.dmaMove hv d (s.chan n).src (s.chan n).dst k).1.onChan n fun c => c.advance moved).cnt (rDmaCount 4) =
      s.cnt (rDmaCount 4) := State.cnt_dmaMove s hv d _ _ k (by decide) (by decide)
  refine ⟨_, run, ?_⟩
  dsimp only
  rw [State.chan_dmaFail, State.chan_onChan_self, chan, State.cnt_dmaFail _ _ _ hcode, cnt]
  exact ⟨rfl, rfl, rfl, rfl, rfl, rfl, rfl⟩

/-- What a failed descriptor fetch makes of a channel. -/
def DmaChan.fetchFailed (failing : Option Nat) (n : Nat) (c : DmaChan) : DmaChan :=
  if c.owner ≠ .dispatch ∧ (c.busy ∨ c.paused) then { c.stop (fetchCode failing n) with paused := c.paused } else c

theorem descFetchError_stops {s : State} (failing : Option Nat) (last : Nat) (addr : W64) (hup : s.up .engine = true) :
    ∃ u : State,
      exec (.descFetchError failing last addr) s =
        .next ((((u.dmaFailTasks stBusError).dmaRecord 1 last addr true).addCnt (rDmaCount 3) 1).irq) ∧
      OnlyChanges [.dma] s u ∧
      ∀ n, (s.chan n).owner ≠ .dispatch → (s.chan n).busy = true →
        (u.chan n).err = true ∧ (u.chan n).errCode = (if failing = some n then 1 else 7) ∧ (u.chan n).busy = false := by
  refine ⟨s.onDma fun t => t.mapVals (DmaChan.fetchFailed failing), ?_, only_of_blank (by simp), fun n hown hbusy => ?_⟩
  · show execDescFetchError failing last addr s = _
    rw [execDescFetchError, if_pos hup]
    rfl
  · have chan : (s.onDma fun t => t.mapVals (DmaChan.fetchFailed failing)).chan n = (s.chan n).fetchFailed failing n := by
      cases hf : s.dma.find n with
      | none => simp [State.chan, Tbl.getD, hf, DmaChan.reset] at hown
      | some c => simp [State.chan, Tbl.getD, Tbl.find_mapVals, hf]
    rw [chan, DmaChan.fetchFailed, if_pos ⟨hown, .inl hbusy⟩]
    exact ⟨rfl, rfl, rfl⟩

/-- Settles O33: the pieces of a copy land one after the other, and what the commands leave of a channel. -/
theorem dmaMovesData : Obligations.DmaMovesData := by
  unfold Obligations.DmaMovesData
  exact ⟨fun _ hv _ _ _ _ hup hop hsrc hdst hpoison apart => State.dmaMove_copies hop hsrc hdst hv hup hpoison apart,
    fun _ _ _ _ _ hd hup hbusy hpaused hheld hwait hnext hdecl hmove =>
      dmaDescriptorDone_finishes hd hup hbusy hpaused hheld hwait hnext hdecl hmove,
    fun _ _ hv hup hpause hpaused herr htask hquiet => dmaPauseDrained_pauses hv hup hpause hpaused herr htask hquiet,
    fun _ _ hwait hbusy hlow => dmaPaceResume_resumes hwait hbusy hlow,
    fun _ _ _ _ _ _ _ hup hcode htask hd hbusy hheld hwait hmoved => dmaBusError_stops hup hcode htask hd hbusy hheld hwait hmoved,
    fun _ failing last addr hup => descFetchError_stops failing last addr hup⟩

end Sys2Proof.Machine
end
section
/-! PROOFS. Three statements that fail: on memory requests (O34), on completions (O36) and on register reads (O55), each with the state
that shows it. -/

namespace Sys2Proof.Machine

/-! ## A read that misses its island (R15, R16) -/

/-- A G9 that runs while its ENGINE island is reset. -/
def engineDown : State :=
  { State.reset with sys := { Sys.reset with phase := .running, down := [.engine] } }

/-- A hart reads a register that ENGINE holds: it is told of the bridge error before its read returns ones. -/
theorem loRegisterRead_tells_bridgeError :
    ∃ t, exec (.loRegisterRead (.firmware 0) 0x100000 4) engineDown = .next t ∧
      t.host.sent = [.bridgeError .engine, .regData (.firmware 0) 0x100000 [0xFF, 0xFF, 0xFF, 0xFF]] :=
  ⟨_, rfl, by decide +kernel⟩

/-- Refutes O55: its first clause says that a read that arrives sends its data and nothing else, but the read of a hart whose island is
down sends the bridge error first. -/
theorem not_registersRead : ¬ Obligations.RegistersRead := by
  unfold Obligations.RegistersRead
  intro ⟨hread, _⟩
  obtain ⟨t, ht, bs, sent, _⟩ := hread engineDown (.firmware 0) 0x100000 4 (by decide)
  obtain ⟨u, hu, told⟩ := loRegisterRead_tells_bridgeError
  obtain rfl : t = u := Host.Outcome.next.inj (ht.symm.trans hu)
  rw [told, show engineDown.host.sent = [] from rfl, List.nil_append] at sent
  cases sent

/-! ## A completion that is counted (R559) -/

/-- The manager function's controller, with an I/O read outstanding whose completion queue raises no interrupt. -/
def readingCtrl : Ctrl :=
  { Ctrl.reset 0 with
    rdy := true, fetched := [⟨1, 2, 0, some 0⟩]
    queues := [{ Queue.admin with qid := 1, isCq := true, size := 16, ien := false }, { Queue.admin with qid := 1, size := 16, cqid := 1 }] }

/-- A G9 whose port A is up with credits, and that function's command. -/
def readingG9 : State :=
  { State.reset with
    sys := { Sys.reset with phase := .running, down := [] }
    host := { HostSide.reset with portA := { PortState.reset true with linkUp := true, credits := 16 }, ctrls := [(0, readingCtrl)] } }
def readingCmd : Who := ⟨0, 1, 2⟩

/-- Its completion adds to the lifetime counters: the reads that the host has asked for. -/
theorem complete_counts_life : (readingG9.complete readingCmd stOk 0 0).health.life ≠ readingG9.health.life := by decide +kernel

/-- Refutes O36: its first clause says that a completion changes the host part alone, but the completion of a command that has a class is
counted among the health records. -/
theorem not_completionsPost : ¬ Obligations.CompletionsPost := by
  unfold Obligations.CompletionsPost
  intro ⟨hpost, _⟩
  obtain ⟨_, _, only⟩ := hpost readingG9 readingCmd stOk 0 0 (by decide) (by decide) (by decide) (by decide) (by decide) (by decide)
    (by decide)
  have same : (readingG9.complete readingCmd stOk 0 0).health = readingG9.health := only .health (by decide)
  exact complete_counts_life (congrArg Health.life same)

/-! ## A write to part of a word that cannot be corrected (R417, R418) -/

/-- A G9 whose memory channels serve, with 9 at address 7 and two bits of that word flipped. -/
def flippedWord : State :=
  { State.reset with
    sys := { Sys.reset with phase := .running, down := [] }
    memory := { MemSide.reset with
      chans := [(0, { DramChan.reset with trained := true })], dram := Mem.write [] 7 9, flips := [(0, 0, 0), (0, 0, 1)] } }

/-- The write of its first four bytes. -/
def firstBytes : MemWrite := ⟨0, [1, 2, 3, 4], .unallocated⟩

/-- The word that the write reads first is lost, and its last byte with it. -/
theorem memRequest_loses_byte :
    (stateAfter flippedWord (exec (.memRequest 0 0 (some firstBytes)) flippedWord)).memory.dram.read 7 = 0 := by
  decide +kernel

/-- Refutes O34: its clause on writes says that a byte outside the write stays, but where the write covers part of a word with two flipped
bits, the word is uncorrectable and its other bytes are cleared. -/
theorem not_dramAndMemory : ¬ Obligations.DramAndMemory := by
  unfold Obligations.DramAndMemory
  intro ⟨_, _, _, _, _, hwrite, _⟩
  obtain ⟨t, ht, _, kept⟩ := hwrite flippedWord 0 0 firstBytes (by decide) (by decide) (by decide) (by decide) (by decide) rfl
  have lost := memRequest_loses_byte
  rw [ht, stateAfter_next, kept 7 (by decide)] at lost
  exact absurd lost (by decide)

end Sys2Proof.Machine
end
section
/-! PROOFS. The statement on memory protection (O35). -/

namespace Sys2Proof.Machine

/-! ## Owl and the correction log (R416 to R422) -/

/-- Owl reads a sound word: nothing but where it stands. -/
theorem owlRead_reads_on {s : State} {g a : Nat} (held : Held) (hr : owlReads s g a = true) (hg : g < 4) (hpoison : s.memory.poison = [])
    (hflips : s.memory.flips = []) (hrewrites : s.memory.rewrites = []) :
    Completes (.owlRead g a .good held false) s fun t =>
      t.memory = { s.memory with owlAt := a / 8 * 8 } ∧ OnlyChanges [.memory] s t := by
  have none_waits : s.owlRewrites g = s := by simp [State.owlRewrites, hrewrites]
  have sound : syndromeOf (s.onMem fun m => { m with owlAt := a / 8 * 8 }) g (a / 8 * 8) .good = .good := by
    simp [syndromeOf, hpoison, hflips]
  have run : exec (.owlRead g a .good held false) s = .next (s.onMem fun m => { m with owlAt := a / 8 * 8 }) := by
    show execOwlRead g a .good held false s = _
    simp [execOwlRead, hr, none_waits, hg, State.classify, sound, show g < 12 by omega]
  exact ⟨_, run, rfl, only_of_blank (by simp)⟩

theorem logRoom_pos (g : Nat) : 0 < logRoom g := by
  unfold logRoom; split <;> decide

theorem State.groupError_memory (s : State) (g : Nat) (ue : Bool) : (s.groupError g ue).memory = s.memory :=
  only_of_blank (ps := [.health]) (by simp) .memory (by decide)

/-- The first correction in a group is logged. -/
theorem State.corrected_logs {s : State} {g : Nat} (a bit : Nat) (hnone : (s.memory.logs.filter fun l => l.group = g) = []) :
    (s.corrected g a bit).memory.logs =
      s.memory.logs ++ [{ group := g, addr := a, bit := bit, count := 1, st := .counting, time := s.now }] ∧
    OnlyChanges [.regs, .memory, .health] s (s.corrected g a bit) := by
  have run : s.corrected g a bit = ((s.addReg (rEccCe g) 1).groupError g false).onMem fun m =>
      { m with logs := m.logs ++ [{ group := g, addr := a, bit := bit, count := 1, st := .counting, time := s.now }] } := by
    simp [State.corrected, hnone, logRoom_pos]
  rw [run]
  exact ⟨by simp [State.groupError_memory]; rfl, only_of_blank (by simp)⟩

/-! ## Retired pages, overdue laps and injections (R423, R435, R440) -/

theorem pageRetireDone_remaps {s : State} {page k : Nat} (hk : s.memory.retiring.find page = some k) (hup : s.up .mem = true) :
    Completes (.pageRetireDone page) s fun t =>
      t.memory.remap.find page = some k ∧ t.memory.retiring.find page = none ∧ OnlyChanges [.memory, .media, .health] s t := by
  obtain ⟨u, run, remap, retiring, only⟩ : ∃ u : State,
      exec (.pageRetireDone page) s = .next ((u.cfgWrite .note).logEvent 8 (channelOfAddr s (4096 * page)) 0xFFFF 0 (4096 * page)) ∧
      u.memory.remap = s.memory.remap.set page k ∧ u.memory.retiring = s.memory.retiring.erase page ∧ OnlyChanges [.memory] s u := by
    show ∃ u : State, execPageRetireDone page s = _ ∧ _
    simp only [execPageRetireDone, hk, hup]
    exact ⟨_, rfl, rfl, rfl, only_of_blank (by simp)⟩
  have memory : ((u.cfgWrite .note).logEvent 8 (channelOfAddr s (4096 * page)) 0xFFFF 0 (4096 * page)).memory = u.memory :=
    only_of_blank (ps := [.media, .health]) (by simp) .memory (by decide)
  refine ⟨_, run, by rw [memory, remap]; simp, by rw [memory, retiring]; simp, ?_⟩
  exact (only.mono (by decide)).trans (only_of_blank (by simp))

theorem owlLapOverdue_says {s : State} (hnot : s.memory.owlOverdue = false) (hruns : owlStopped s = false) :
    Completes .owlLapOverdue s fun t => t.memory = { s.memory with owlOverdue := true } ∧ OnlyChanges [.memory, .health] s t := by
  have run : exec .owlLapOverdue s = .next ((s.onMem fun m => { m with owlOverdue := true }).addLife (lifeEvent 8) 1) := by
    show execOwlLapOverdue s = _
    simp [execOwlLapOverdue, hnot, hruns]
  exact ⟨_, run, State.addLife_only _ _ _ .memory (by decide), only_of_blank (by simp)⟩

theorem eccInjectArm_arms {s : State} {r : Requester} {v : W32} (hr : s.barReaches r rEccInject = true) (hv : bitAt v 31 = true)
    (hfree : s.locked rEccInject = false) :
    Completes (.eccInjectArm r v) s fun t => t.memory.armed = true ∧ t.memory.injected = false := by
  have run : exec (.eccInjectArm r v) s =
      .next ((s.writeFields rEccInject v).onMem fun m => { m with armed := true, injected := false }) := by
    show execEccInjectArm r v s = _
    simp [execEccInjectArm, hr, hv, hfree]
  exact ⟨_, run, rfl, rfl⟩

/-- Settles O35: what each of its commands leaves, clause by clause. -/
theorem memoryProtection : Obligations.MemoryProtection := by
  unfold Obligations.MemoryProtection
  exact ⟨fun _ _ _ held hr hg hpoison hflips hrewrites => owlRead_reads_on held hr hg hpoison hflips hrewrites,
    fun _ _ a bit hnone => State.corrected_logs a bit hnone,
    fun _ _ _ hk hup => pageRetireDone_remaps hk hup,
    fun _ hnot hruns => owlLapOverdue_says hnot hruns,
    fun _ _ _ hr hv hfree => eccInjectArm_arms hr hv hfree⟩

end Sys2Proof.Machine
end
section
/-! PROOFS. The statement on ports and links (O37). -/

namespace Sys2Proof.Machine

/-! ## Ports -/

@[simp] theorem State.port_onPort_self (s : State) (p : Port) (g : PortState → PortState) : (s.onPort p g).port p = g (s.port p) := by
  cases p <;> rfl
@[simp] theorem State.port_onCtrl (s : State) (f : Fn) (g : Ctrl → Ctrl) (p : Port) : (s.onCtrl f g).port p = s.port p := by
  cases p <;> rfl
theorem State.ctrl_onCtrl_self (s : State) (f : Fn) (g : Ctrl → Ctrl) : (s.onCtrl f g).ctrl f = g (s.ctrl f) := by
  rw [State.ctrl_onCtrl, if_pos rfl]
theorem State.onCtrl_only (s : State) (f : Fn) (g : Ctrl → Ctrl) : OnlyChanges [.host] s (s.onCtrl f g) := only_of_blank (by simp)
theorem State.onPort_only (s : State) (p : Port) (g : PortState → PortState) : OnlyChanges [.host] s (s.onPort p g) :=
  only_of_blank (by simp)

/-- With a credit and nothing waiting, a posted write is sent. -/
theorem State.post_sends {s : State} {p : Port} (hup : (s.port p).linkUp = true) (hcr : 0 < (s.port p).credits)
    (hst : (s.port p).stalled = []) (o : Out) :
    s.post p o = (s.onPort p fun q => { q with credits := q.credits - 1 }).onHost fun h => { h with sent := h.sent ++ [o] } := by
  have some_credit : ¬((s.port p).credits = 0 ∨ (s.port p).stalled ≠ []) := fun h => h.elim (by omega) (· hst)
  simp only [State.post, hup, if_true, if_neg some_credit]

theorem State.sent_onPort (s : State) (p : Port) (g : PortState → PortState) : (s.onPort p g).host.sent = s.host.sent := by
  cases p <;> rfl
theorem State.ctrl_onPort (s : State) (p : Port) (g : PortState → PortState) (f : Fn) : (s.onPort p g).ctrl f = s.ctrl f := by
  cases p <;> rfl

theorem State.post_sent {s : State} {p : Port} (hup : (s.port p).linkUp = true) (hcr : 0 < (s.port p).credits)
    (hst : (s.port p).stalled = []) (o : Out) : (s.post p o).host.sent = s.host.sent ++ [o] := by
  rw [State.post_sends hup hcr hst]
  exact congrArg (· ++ [o]) (s.sent_onPort ..)

theorem State.ctrl_post (s : State) (p : Port) (o : Out) (f : Fn) : (s.post p o).ctrl f = s.ctrl f := by
  unfold State.post
  dsimp only
  split
  · split
    · exact s.ctrl_onPort ..
    · exact s.ctrl_onPort ..
  · rfl

/-! ## Links (R441, R444, R607) -/

section
variable {s : State} {p : Port}

theorem portReset_downs (hlive : portsLive s = true) (hp : (s.port p).present = true) :
    exec (.portReset p) s = .next (s.resetPort p) ∧
    ((s.portReset p).port p).linkUp = false ∧ ((s.portReset p).port p).credits = 0 ∧ ((s.portReset p).port p).stalled = [] := by
  refine ⟨?_, ?_⟩
  · show execPortReset p s = _
    simp [execPortReset, hlive, hp]
  · simp [State.portReset]

theorem perstAssert_resets (hlive : portsLive s = true) (hp : (s.port p).present = true) :
    ∃ u : State, exec (.perstAssert p) s = .next (u.resetPort p) ∧ u.port p = { s.port p with perstN := false } ∧ OnlyChanges [.host] s u := by
  refine ⟨s.onPort p fun q => { q with perstN := false }, ?_, s.port_onPort_self p _, s.onPort_only p _⟩
  show execPerstAssert p s = _
  simp [execPerstAssert, hlive, hp]

theorem perstDeassert_trains (hlive : portsLive s = true) (hp : (s.port p).present = true) (hdown : (s.port p).linkUp = false) :
    Completes (.perstDeassert p) s fun t =>
      t.port p = { s.port p with perstN := true, training := true } ∧ OnlyChanges [.host] s t := by
  refine ⟨_, rfl, ?_, s.onPort_only p _⟩
  simp [hlive, hp, hdown]

theorem linkTrained_ups {rate width : Nat} (credits : Nat) (hlive : portsLive s = true) (ht : (s.port p).training = true)
    (hfit : linkFits s rate width = true) :
    Completes (.linkTrained p rate width credits) s fun t =>
      t.port p = { s.port p with linkUp := true, l12 := false, training := false, rate := rate, width := width, credits := credits } ∧
      OnlyChanges [.host] s t := by
  have run : exec (.linkTrained p rate width credits) s = .next (s.onPort p fun q =>
      { q with linkUp := true, l12 := false, training := false, rate := rate, width := width, credits := credits }) := by
    show execLinkTrained p rate width credits s = _
    simp [execLinkTrained, hlive, ht, hfit]
  exact ⟨_, run, s.port_onPort_self p _, s.onPort_only p _⟩

end

/-! ## Timeouts and messages (R445, R585) -/

theorem pcieCompletionTimeout_ends {s : State} (w : Who) (hrun : s.running = true) :
    ∃ u : State, exec (.pcieCompletionTimeout (.nvm w)) s = .next ((u.dropNvm w).complete w stDataTransfer 0 0).rekeyAdvance ∧
      OnlyChanges [.health] s u := by
  refine ⟨s.addLife (lifeErr (if portOfFn w.fn = .a then 11 else 12) true) 1, ?_, s.addLife_only _ _⟩
  show execPcieCompletionTimeout (.nvm w) s = _
  rw [execPcieCompletionTimeout, if_pos hrun]
  rfl

section
variable {s : State} {f : Fn} {v : Nat}

/-- Both kinds of function have the vector. -/
theorem exec_msiXUnmask (hlive : portsLive s = true) (hf : s.fnExists f = true) (hv : v < 64) :
    exec (.msiXUnmask (portOfFn f) f v) s = .next (
      if v ∈ (s.ctrl f).msixHeld then
        (s.onCtrl f fun c => { c with unmasked := addOnce c.unmasked v, msixHeld := c.msixHeld.filter fun x => x ≠ v }).post
          (portOfFn f) (.msix f v)
      else s.onCtrl f fun c => { c with unmasked := addOnce c.unmasked v, msixHeld := c.msixHeld.filter fun x => x ≠ v }) := by
  have has : v < if isManager f then 2048 else 64 := by split <;> omega
  show execMsiXUnmask (portOfFn f) f v s = _
  simp [execMsiXUnmask, hlive, hf, has]

theorem msiXUnmask_unmasks (hlive : portsLive s = true) (hf : s.fnExists f = true) (hv : v < 64) (hnone : v ∉ (s.ctrl f).msixHeld) :
    Completes (.msiXUnmask (portOfFn f) f v) s fun t =>
      v ∈ (t.ctrl f).unmasked ∧ t.host.sent = s.host.sent ∧ OnlyChanges [.host] s t := by
  refine ⟨_, exec_msiXUnmask hlive hf hv, ?_⟩
  rw [if_neg hnone]
  exact ⟨by rw [State.ctrl_onCtrl_self]; exact mem_addOnce .., rfl, s.onCtrl_only f _⟩

theorem msiXUnmask_sends (hlive : portsLive s = true) (hf : s.fnExists f = true) (hv : v < 64) (hheld : v ∈ (s.ctrl f).msixHeld)
    (hup : (s.port (portOfFn f)).linkUp = true) (hcr : 0 < (s.port (portOfFn f)).credits) (hst : (s.port (portOfFn f)).stalled = []) :
    Completes (.msiXUnmask (portOfFn f) f v) s fun t =>
      v ∉ (t.ctrl f).msixHeld ∧ t.host.sent = s.host.sent ++ [.msix f v] ∧ OnlyChanges [.host] s t := by
  refine ⟨_, exec_msiXUnmask hlive hf hv, ?_⟩
  rw [if_pos hheld]
  refine ⟨?_, State.post_sent (by simpa using hup) (by simpa using hcr) (by simpa using hst) _, only_of_blank (by simp)⟩
  rw [State.ctrl_post, State.ctrl_onCtrl_self]
  simp

end

/-- Settles O37: what each event at a port leaves of it, clause by clause. -/
theorem portsAndLinks : Obligations.PortsAndLinks := by
  unfold Obligations.PortsAndLinks
  exact ⟨fun _ _ hlive hp => portReset_downs hlive hp, fun _ _ hlive hp => perstAssert_resets hlive hp,
    fun _ _ hlive hp hdown => perstDeassert_trains hlive hp hdown,
    fun _ _ _ _ credits hlive ht hfit => linkTrained_ups credits hlive ht hfit,
    fun _ w hrun => pcieCompletionTimeout_ends w hrun,
    fun _ _ _ hlive hf hv hnone => msiXUnmask_unmasks hlive hf hv hnone,
    fun _ _ _ hlive hf hv hheld hup hcr hst => msiXUnmask_sends hlive hf hv hheld hup hcr hst⟩

end Sys2Proof.Machine
end
section
/-! PROOFS. The statement on controllers (O38). -/

namespace Sys2Proof.Machine

section
variable {s : State} {f : Fn}

/-! ## Enable, disable and shutdown (R447, R448) -/

theorem controllerEnable_readies {cc : W32} (aqa : W32) (asq acq : W64) (hr : reachable s f = true) (hup : s.up .ctrl = true)
    (hfree : (s.ctrl f).freeze = .none) (hen : bitAt cc 0 = true) (hwas : bitAt (s.ctrl f).cc 0 = false) :
    Completes (.controllerEnable f cc aqa asq acq) s fun t =>
      (t.ctrl f).rdy = true ∧ (t.ctrl f).cfs = false ∧ (t.ctrl f).cc = cc &&& 0x00FFFFF1#32 ∧ (t.ctrl f).adminSq.size = fld aqa 11 0 + 1 ∧
      (t.ctrl f).adminSq.base = (asq &&& ~~~0xFFF#64).toNat ∧ (t.ctrl f).adminCq.size = fld aqa 27 16 + 1 ∧
      (t.ctrl f).adminCq.base = (acq &&& ~~~0xFFF#64).toNat ∧ (∀ g, g ≠ f → t.ctrl g = s.ctrl g) ∧ OnlyChanges [.host] s t := by
  have run : exec (.controllerEnable f cc aqa asq acq) s = .next (s.onCtrl f fun c =>
      { c with cc := cc &&& 0x00FFFFF1#32, rdy := true, cfs := false, shst := 0,
               adminSq := { Queue.admin with size := fld aqa 11 0 + 1, base := (asq &&& ~~~0xFFF#64).toNat },
               adminCq := { Queue.admin with isCq := true, size := fld aqa 27 16 + 1, base := (acq &&& ~~~0xFFF#64).toNat } }) := by
    show execControllerEnable f cc aqa asq acq s = _
    simp [execControllerEnable, hr, hup, hfree, hen, hwas]
  refine ⟨_, run, ?_⟩
  beta_reduce
  rw [State.ctrl_onCtrl_self]
  exact ⟨rfl, rfl, rfl, rfl, rfl, rfl, rfl, fun g hg => by rw [State.ctrl_onCtrl, if_neg hg], s.onCtrl_only f _⟩

theorem controllerDisable_empties (hr : reachable s f = true) (hfree : (s.ctrl f).freeze = .none) (hen : bitAt (s.ctrl f).cc 0 = true) :
    ∃ u : State, exec (.controllerDisable f) s = .next (u.forcedAll.rekeyAdvance) ∧
      (u.ctrl f).rdy = false ∧ (u.ctrl f).queues = [] ∧ (u.ctrl f).features = [] ∧ bitAt (u.ctrl f).cc 0 = false := by
  refine ⟨(s.resetController f).onCtrl f fun c => { c with cc := c.cc &&& 0xFFFFFFFE#32 }, ?_, ?_⟩
  · show execControllerDisable f s = _
    simp [execControllerDisable, hr, hfree, hen]
  · rw [State.ctrl_onCtrl_self, State.resetController, State.ctrl_onCtrl_self]
    exact ⟨rfl, rfl, rfl, by simp [bitAt]⟩

/-- Writing CC.SHN leaves the written value in bits 15:14. -/
theorem fld_shn (cc : W32) (abrupt : Bool) :
    fld ((cc &&& 0xFFFF3FFF#32) ||| (if abrupt then 0x8000#32 else 0x4000#32)) 15 14 = if abrupt then 2 else 1 := by
  have only_written : ∀ i, 14 ≤ i → i ≤ 15 → bitAt ((cc &&& 0xFFFF3FFF#32) ||| (if abrupt then 0x8000#32 else 0x4000#32)) i =
      bitAt (if abrupt then 0x8000#32 else 0x4000#32) i := by
    intro i hlo hhi
    obtain rfl | rfl : i = 14 ∨ i = 15 := by omega
    all_goals simp [bitAt]
  rw [fld_congr only_written]
  cases abrupt <;> decide

theorem shutdownNotification_quiesces (abrupt : Bool) (hr : reachable s f = true) (hfree : (s.ctrl f).freeze = .none)
    (hen : bitAt (s.ctrl f).cc 0 = true) (hvf : isManager f = false) :
    Completes (.shutdownNotification f abrupt) s fun t =>
      (t.ctrl f).shst = 2 ∧ fld (t.ctrl f).cc 15 14 = (if abrupt then 2 else 1) ∧ OnlyChanges [.host] s t := by
  have run : exec (.shutdownNotification f abrupt) s = .next (s.onCtrl f fun c =>
      { c with cc := (c.cc &&& 0xFFFF3FFF#32) ||| (if abrupt then 0x8000#32 else 0x4000#32), shst := 2 }) := by
    show execShutdownNotification f abrupt s = _
    simp [execShutdownNotification, hr, hfree, hen, hvf]
  refine ⟨_, run, ?_⟩
  beta_reduce
  rw [State.ctrl_onCtrl_self]
  exact ⟨rfl, fld_shn _ abrupt, s.onCtrl_only f _⟩

/-! ## Keep Alive (R451) -/

theorem keepAliveTimerExpiry_fails (hr : reachable s f = true) (hrdy : (s.ctrl f).rdy = true) (hka : (s.ctrl f).keepAlive = true)
    (hfree : (s.ctrl f).freeze = .none) :
    ∃ u : State, exec (.keepAliveTimerExpiry f) s = .next (u.forcedAll.rekeyAdvance) ∧ (u.ctrl f).cfs = true ∧
      (u.ctrl f).keepAlive = false := by
  refine ⟨((flowsOf s f).foldl State.releaseFlow (s.dropCommands f)).onCtrl f fun c => { c with cfs := true, keepAlive := false }, ?_, ?_⟩
  · show execKeepAliveTimerExpiry f s = _
    simp [execKeepAliveTimerExpiry, hr, hrdy, hka, hfree]
  · rw [State.ctrl_onCtrl_self]
    exact ⟨rfl, rfl⟩

/-! ## Function-level resets (R486, R487) -/

theorem functionLevelReset_begins (hrun : s.running = true) (hup : s.up .host = true) (hf : s.fnExists f = true) :
    exec (.functionLevelReset f) s = .next ((s.flrBegin f).forcedAll) := by
  show execFunctionLevelReset f s = _
  simp [execFunctionLevelReset, hrun, hup, hf]

theorem flrAbortDeadline_aborts (hrun : s.running = true) (hflr : (s.ctrl f).flr = some 1) :
    Completes (.flrAbortDeadline f) s fun t => (t.ctrl f).flr = some 2 := by
  refine ⟨s.flrAbort f, ?_, ?_⟩
  · show execFlrAbortDeadline f s = _
    simp [execFlrAbortDeadline, hrun, hflr]
  · beta_reduce
    rw [State.flrAbort, State.ctrl_onCtrl_self]

theorem flrComplete_resets {k : Nat} (hrun : s.running = true) (hflr : (s.ctrl f).flr = some k) :
    ∃ u : State, exec (.flrComplete f) s = .next (u.forcedAll.rekeyAdvance) ∧ u = s.flrEnd f ∧
      (u.ctrl f).flr = none ∧ (u.ctrl f).cc = 0 ∧ (u.ctrl f).mbxIn = [] ∧ (u.ctrl f).mbxOut = [] ∧ (u.ctrl f).freeze = .none := by
  refine ⟨s.flrEnd f, ?_, rfl, ?_⟩
  · show execFlrComplete f s = _
    simp [execFlrComplete, hrun, hflr]
  · rw [State.flrEnd, State.ctrl_onCtrl_self]
    exact ⟨rfl, rfl, rfl, rfl, rfl⟩

end

/-- Settles O38: what each event at a controller leaves of it, clause by clause. -/
theorem controllers : Obligations.Controllers :=
  ⟨fun _ _ _ aqa asq acq hr hup hfree hen hwas => controllerEnable_readies aqa asq acq hr hup hfree hen hwas,
   fun _ _ hr hfree hen => controllerDisable_empties hr hfree hen,
   fun _ _ abrupt hr hfree hen hvf => shutdownNotification_quiesces abrupt hr hfree hen hvf,
   fun _ => rfl,
   fun _ _ ha => congrArg Host.Outcome.next (if_pos ha),
   fun _ _ hr hrdy hka hfree => keepAliveTimerExpiry_fails hr hrdy hka hfree,
   fun _ _ hrun hup hf => functionLevelReset_begins hrun hup hf,
   fun _ _ hrun hflr => flrAbortDeadline_aborts hrun hflr,
   fun _ _ _ hrun hflr => flrComplete_resets hrun hflr⟩

end Sys2Proof.Machine
end

section
/-! PROOFS. The statement on doorbells, fetching, queues and event requests (O39). -/

namespace Sys2Proof.Machine

/-! ## Doorbells (R369, R449) -/

section
variable {s : State} {f : Fn} {v : Nat}

/-- A tail of the admin submission queue that lies in the queue is a doorbell. -/
theorem exec_adminDoorbell (hr : reachable s f = true) (hrdy : (s.ctrl f).rdy = true) (hv : v < (s.ctrl f).adminSq.size)
    (hpow : s.power.effective ≠ .hibernate) :
    exec (.doorbellWrite f 0 false v) s = .next (
      if s.lynx.restoring then s.onPower fun p => { p with keptDoorbells := p.keptDoorbells ++ [(f, 0, false, v)] }
      else s.ringDoorbell f 0 false v) := by
  show execDoorbellWrite f 0 false v s = _
  simp [execDoorbellWrite, State.doorbell, doorbellQueue, hr, hrdy, Nat.not_le.mpr hv, hpow]

theorem doorbellWrite_rings (hr : reachable s f = true) (hrdy : (s.ctrl f).rdy = true) (hv : v < (s.ctrl f).adminSq.size)
    (hpow : s.power.effective ≠ .hibernate) (hlynx : s.lynx.restoring = false) :
    Completes (.doorbellWrite f 0 false v) s fun t =>
      (t.ctrl f).adminSq = { (s.ctrl f).adminSq with tail := v } ∧ (∀ g, g ≠ f → t.ctrl g = s.ctrl g) ∧ OnlyChanges [.host] s t := by
  refine ⟨s.ringDoorbell f 0 false v, by rw [exec_adminDoorbell hr hrdy hv hpow, hlynx]; rfl, ?_⟩
  refine ⟨by rw [State.ringDoorbell, State.ctrl_onCtrl_self]; rfl, fun g hg => ?_, s.onCtrl_only f _⟩
  rw [State.ringDoorbell, State.ctrl_onCtrl, if_neg hg]

theorem doorbellWrite_kept (hr : reachable s f = true) (hrdy : (s.ctrl f).rdy = true) (hv : v < (s.ctrl f).adminSq.size)
    (hpow : s.power.effective ≠ .hibernate) (hlynx : s.lynx.restoring = true) :
    Completes (.doorbellWrite f 0 false v) s fun t =>
      t.power = { s.power with keptDoorbells := s.power.keptDoorbells ++ [(f, 0, false, v)] } ∧ OnlyChanges [.power] s t :=
  ⟨s.onPower fun p => { p with keptDoorbells := p.keptDoorbells ++ [(f, 0, false, v)] },
   by rw [exec_adminDoorbell hr hrdy hv hpow, hlynx]; rfl, rfl, only_of_blank (by simp)⟩

end

/-! ## Fetching (R449) -/

/-- The controller from which an entry was taken. -/
def fetchedCtrl (s : State) (f : Fn) (sq cid : Nat) : Ctrl :=
  let d := fetchFrom (arbServed s f sq) sq
  { d with fetched := d.fetched ++ [⟨sq, cid, s.now, none⟩] }

theorem fetchedCtrl_fetched (s : State) (f : Fn) (sq cid : Nat) :
    (fetchedCtrl s f sq cid).fetched = (s.ctrl f).fetched ++ [⟨sq, cid, s.now, none⟩] := by
  unfold fetchedCtrl fetchFrom
  by_cases h : sq = 0
  · simp [h, arbServed]
  · simp [h, arbServed]

section
variable {s : State} {f : Fn} {sq cid : Nat}

theorem exec_commandFetch (hm : mayFetch s f sq cid = true) :
    exec (.commandFetch f sq cid) s = .next (
      if sq = 0 then s.onCtrl f fun _ => fetchedCtrl s f sq cid
      else (s.onCtrl f fun _ => fetchedCtrl s f sq cid).onHealth fun h => { h with life := h.life.set (lifeSmart f 6) 1 }) :=
  congrArg Host.Outcome.next (if_pos hm)

theorem commandFetch_ctrl (hm : mayFetch s f sq cid = true) :
    Completes (.commandFetch f sq cid) s fun t => t.ctrl f = fetchedCtrl s f sq cid ∧ OnlyChanges [.host, .health] s t := by
  refine ⟨_, exec_commandFetch hm, ?_⟩
  split
  · exact ⟨s.ctrl_onCtrl_self f _, only_of_blank (by simp)⟩
  · exact ⟨s.ctrl_onCtrl_self f fun _ => fetchedCtrl s f sq cid, only_of_blank (by simp)⟩

theorem commandFetch_outstanding (hm : mayFetch s f sq cid = true) :
    Completes (.commandFetch f sq cid) s fun t =>
      (t.ctrl f).fetched = (s.ctrl f).fetched ++ [⟨sq, cid, s.now, none⟩] ∧ t.outstanding ⟨f, sq, cid⟩ = true ∧
      OnlyChanges [.host, .health] s t := by
  obtain ⟨t, run, fetches, frame⟩ := commandFetch_ctrl hm
  have last : (t.ctrl f).fetched = (s.ctrl f).fetched ++ [⟨sq, cid, s.now, none⟩] := by rw [fetches, fetchedCtrl_fetched]
  exact ⟨t, run, last, by simp [State.outstanding, last], frame⟩

theorem commandFetch_moves_head (hm : mayFetch s f 0 cid = true) :
    Completes (.commandFetch f 0 cid) s fun t =>
      (t.ctrl f).adminSq = { (s.ctrl f).adminSq with head := (s.ctrl f).adminSq.next (s.ctrl f).adminSq.head } ∧ OnlyChanges [.host] s t :=
  ⟨s.onCtrl f fun _ => fetchedCtrl s f 0 cid, exec_commandFetch hm, by rw [State.ctrl_onCtrl_self]; rfl, s.onCtrl_only f _⟩

end

/-! ## Queues (R446, R447) -/

section
variable {s : State} {w : Who} {qid : Nat}

theorem createIoQueue_adds {isCq : Bool} {size base cqid vector : Nat} (prio : Nat) (ien : Bool) (ha : s.adminReady w = true)
    (hok : queueRefused (s.ctrl w.fn) w.fn isCq qid size base cqid vector true = none) :
    ∃ (u : State) (q : Queue), exec (.createIoQueue w isCq qid size base cqid vector prio true ien) s = .next (u.admin w stOk 0) ∧
      (u.ctrl w.fn).queues = (s.ctrl w.fn).queues ++ [q] ∧ q.qid = qid ∧ q.isCq = isCq ∧ q.size = size ∧ q.base = base ∧ q.head = 0 ∧
      q.tail = 0 ∧ q.ien = ien ∧ OnlyChanges [.host] s u := by
  let q : Queue := { qid := qid, isCq := isCq, size := size, base := base, cqid := if isCq then 0 else cqid,
                     vector := if isCq then vector else 0, prio := if isCq then 0 else prio % 4, ien := ien, head := 0, tail := 0,
                     phase := true }
  refine ⟨s.onCtrl w.fn fun c => { c with queues := c.queues ++ [q] }, q, ?_, ?_, rfl, rfl, rfl, rfl, rfl, rfl, rfl, s.onCtrl_only w.fn _⟩
  · show execCreateIoQueue w isCq qid size base cqid vector prio true ien s = _
    rw [execCreateIoQueue, if_pos ha, hok]
  · rw [State.ctrl_onCtrl_self]

theorem deleteIoQueue_removes (ha : s.adminReady w = true) (hq : qid ≠ 0) (hhas : hasQueue (s.ctrl w.fn) true qid = true)
    (hfree : ∀ q ∈ (s.ctrl w.fn).queues, q.isCq = false → q.cqid ≠ qid) :
    ∃ u : State, exec (.deleteIoQueue w true qid) s = .next (u.admin w stOk 0).rekeyAdvance ∧
      hasQueue (u.ctrl w.fn) true qid = false ∧ OnlyChanges [.host] s u := by
  have unused : ((s.ctrl w.fn).queues.any fun q => !q.isCq && decide (q.cqid = qid)) = false := by simpa using hfree
  refine ⟨s.onCtrl w.fn fun c => { c with queues := c.queues.filter fun q => !(q.isCq = true && decide (q.qid = qid)) }, ?_, ?_,
    s.onCtrl_only w.fn _⟩
  · show execDeleteIoQueue w true qid s = _
    simp [execDeleteIoQueue, ha, hq, hhas, unused]
  · rw [State.ctrl_onCtrl_self]
    simpa [hasQueue] using fun q _ other hc => other.resolve_left (by simp [hc])

end

/-! ## Aborts and event requests (R447, R450) -/

section
variable {s : State} {w : Who} {sq cid : Nat}

theorem exec_abort (ha : s.adminReady w = true) :
    exec (.abort w sq cid) s =
      .next ((s.abortCommand ⟨w.fn, sq, cid⟩).1.admin w stOk (if (s.abortCommand ⟨w.fn, sq, cid⟩).2 then 0 else 1)) :=
  congrArg Host.Outcome.next (if_pos ha)

theorem abort_none (ha : s.adminReady w = true) (hwait : ∀ x ∈ s.disp.waiting, x.who ≠ ⟨w.fn, sq, cid⟩)
    (hquery : ∀ e ∈ s.disp.flows, (⟨w.fn, sq, cid⟩ : Who) ∉ e.2.queries) :
    exec (.abort w sq cid) s = .next (s.admin w stOk 1) := by
  have nothing : s.abortCommand ⟨w.fn, sq, cid⟩ = (s, false) := by
    rw [State.abortCommand, if_neg, if_neg]
    · simpa using hquery
    · simpa using fun x hx hw => absurd hw (hwait x hx)
  rw [exec_abort ha, nothing]
  rfl

theorem abort_waiting {x : WaitingTrail} (ha : s.adminReady w = true) (hx : x ∈ s.disp.waiting) (hw : x.who = ⟨w.fn, sq, cid⟩)
    (hby : x.execBy = false) :
    ∃ u : State, exec (.abort w sq cid) s = .next ((u.io ⟨w.fn, sq, cid⟩ stAbortRequested 0).admin w stOk 0) ∧
      (∀ y ∈ u.disp.waiting, y.who ≠ ⟨w.fn, sq, cid⟩) ∧ (∀ y ∈ s.disp.waiting, y.who ≠ ⟨w.fn, sq, cid⟩ → y ∈ u.disp.waiting) ∧
      OnlyChanges [.disp] s u := by
  have waits : (s.disp.waiting.any fun t => t.who = ⟨w.fn, sq, cid⟩ && !t.execBy) = true :=
    List.any_eq_true.mpr ⟨x, hx, by simp [hw, hby]⟩
  refine ⟨s.onDisp fun d => { d with waiting := d.waiting.filter fun t => t.who ≠ ⟨w.fn, sq, cid⟩ }, ?_, ?_, ?_, only_of_blank (by simp)⟩
  · rw [exec_abort ha, State.abortCommand, if_pos waits]
    rfl
  · simp
  · simp +contextual

theorem abort_query {e : Nat × Flow} (ha : s.adminReady w = true) (hwait : ∀ x ∈ s.disp.waiting, x.who ≠ ⟨w.fn, sq, cid⟩)
    (he : e ∈ s.disp.flows) (hq : (⟨w.fn, sq, cid⟩ : Who) ∈ e.2.queries) :
    ∃ u : State, exec (.abort w sq cid) s = .next ((u.io ⟨w.fn, sq, cid⟩ stAbortRequested 0).admin w stOk 0) ∧
      (∀ y ∈ u.disp.flows, (⟨w.fn, sq, cid⟩ : Who) ∉ y.2.queries) ∧ OnlyChanges [.disp] s u := by
  have none_waits : ¬(s.disp.waiting.any fun t => t.who = ⟨w.fn, sq, cid⟩ && !t.execBy) = true := by
    simpa using fun x hx hw => absurd hw (hwait x hx)
  have asks : (s.disp.flows.any fun e => (⟨w.fn, sq, cid⟩ : Who) ∈ e.2.queries) = true := List.any_eq_true.mpr ⟨e, he, by simpa using hq⟩
  refine ⟨s.onDisp fun d => { d with flows := Tbl.mapVals d.flows fun _ f =>
    { f with queries := f.queries.filter fun q => q ≠ ⟨w.fn, sq, cid⟩ } }, ?_, ?_, only_of_blank (by simp)⟩
  · rw [exec_abort ha, State.abortCommand, if_neg none_waits, if_pos asks]
    rfl
  · intro y hy
    obtain ⟨_, _, rfl⟩ := List.mem_map.mp hy
    simp

theorem exec_eventRequest (ha : s.adminReady w = true) (hno : (s.ctrl w.fn).events = []) :
    exec (.asynchronousEventRequest w) s = .next (
      if 16 ≤ (s.ctrl w.fn).aers.length then s.admin w stAerLimit 0 else s.onCtrl w.fn fun c => { c with aers := c.aers ++ [w.cid] }) := by
  show execAsynchronousEventRequest w s = _
  simp [execAsynchronousEventRequest, ha, hno]

theorem eventRequest_waits (ha : s.adminReady w = true) (hroom : (s.ctrl w.fn).aers.length < 16) (hno : (s.ctrl w.fn).events = []) :
    Completes (.asynchronousEventRequest w) s fun t =>
      (t.ctrl w.fn).aers = (s.ctrl w.fn).aers ++ [w.cid] ∧ OnlyChanges [.host] s t := by
  refine ⟨s.onCtrl w.fn fun c => { c with aers := c.aers ++ [w.cid] }, ?_, ?_, s.onCtrl_only w.fn _⟩
  · rw [exec_eventRequest ha hno, if_neg (Nat.not_le.mpr hroom)]
  · rw [State.ctrl_onCtrl_self]

theorem eventRequest_past_limit (ha : s.adminReady w = true) (hfull : 16 ≤ (s.ctrl w.fn).aers.length) :
    exec (.asynchronousEventRequest w) s = .next (s.admin w stAerLimit 0) := by
  show execAsynchronousEventRequest w s = _
  simp [execAsynchronousEventRequest, ha, hfull]

end

/-- Settles O39: what each command on a queue does, clause by clause. -/
theorem queuesAndFetching : Obligations.QueuesAndFetching :=
  ⟨fun _ _ _ hr hrdy hv hpow hlynx => doorbellWrite_rings hr hrdy hv hpow hlynx,
   fun _ _ _ hr hrdy hv hpow hlynx => doorbellWrite_kept hr hrdy hv hpow hlynx,
   fun _ _ _ _ hm => commandFetch_outstanding hm,
   fun _ _ _ hm => commandFetch_moves_head hm,
   fun _ _ _ _ _ _ _ _ prio ien ha hok => createIoQueue_adds prio ien ha hok,
   fun _ _ _ ha hq hhas hfree => deleteIoQueue_removes ha hq hhas hfree,
   fun _ _ _ _ ha hwait hquery => abort_none ha hwait hquery,
   fun _ _ _ _ _ ha hx hw hby => abort_waiting ha hx hw hby,
   fun _ _ _ _ _ ha hwait he hq => abort_query ha hwait he hq,
   fun _ _ ha hroom hno => eventRequest_waits ha hroom hno,
   fun _ _ ha hfull => eventRequest_past_limit ha hfull⟩

end Sys2Proof.Machine
end

section
/-! PROOFS. The statement on Identify, log pages and features (O40). -/

namespace Sys2Proof.Machine

section
variable {s : State} {w : Who}

theorem identify_answers {cns nsid : Nat} {bs : List Byte} (ha : s.adminReady w = true) (hd : identifyData s w.fn cns nsid = .ok bs) :
    exec (.identify w cns nsid) s = .next ((s.dataOut w bs).admin w stOk 0) := by
  show execIdentify w cns nsid s = _
  rw [execIdentify, if_pos ha, hd]

/-! ## Log pages (R451) -/

theorem getLogPage_answers {lid offset bytes : Nat} {page : List Byte} (rae : Bool) (lsp uuid : Nat) (ha : s.adminReady w = true)
    (hlid : lid < 0xC0) (hsmart : lid ≠ 2) (hp : standardPage s w.fn lid = some page) :
    exec (.getLogPage w lid 0 offset bytes rae lsp uuid) s = .next (s.pageOut w lid page offset bytes rae) := by
  show execGetLogPage w lid 0 offset bytes rae lsp uuid s = _
  rw [execGetLogPage, if_pos ha, if_neg (fun h => Nat.not_le.mpr hlid h.1), if_neg (fun h => hsmart h.1), hp]

theorem pageOut_slice {lid offset bytes : Nat} {page : List Byte} (rae : Bool) (halign : offset % 4 = 0) (hin : offset < page.length)
    (hmax : bytes ≤ 2097152) :
    s.pageOut w lid page offset bytes rae = ((s.pageRead w.fn lid rae).dataOut w (slice page offset bytes)).admin w stOk 0 := by
  rw [State.pageOut, if_neg (by omega)]

/-! ## Features (R451, R464) -/

section
variable {fid : Nat}

/-- A feature without an effect of its own is none of the features that Set Features and Get Features treat apart. -/
theorem plainFeature_known (hp : plainFeature fid = true) :
    knownFeature fid = true ∧ fid ≠ 0xC0 ∧ fid ≠ 0x82 ∧ fid ≠ 0x83 ∧ fid ≠ 0x07 ∧ fid ≠ 0x0E ∧ fid ≠ 0x81 := by
  simp only [plainFeature, Bool.or_eq_true, decide_eq_true_eq] at hp
  refine ⟨by simp [knownFeature, plainFeature, hp], ?_⟩
  omega

theorem exec_setPlain (nsid : Nat) (v : W32) (data : List Byte) (ha : s.adminReady w = true) (hp : plainFeature fid = true) :
    exec (.setFeatures w fid nsid false v data) s =
      .next ((s.onCtrl w.fn fun c => { c with features := c.features.set fid v }).admin w stOk 0) := by
  obtain ⟨known, hmode, -⟩ := plainFeature_known hp
  show execSetFeatures w fid nsid false v data s = _
  simp [execSetFeatures, State.setFeature, ha, hmode, known, hp]

theorem exec_getFeature (nsid select : Nat) (v : W32) (ha : s.adminReady w = true) (hk : knownFeature fid = true) (hmode : fid ≠ 0xC0)
    (hsel : select ≤ 3) : exec (.getFeatures w fid nsid select v) s = .next (s.getFeature w fid nsid select v) := by
  show execGetFeatures w fid nsid select v s = _
  simp [execGetFeatures, ha, hmode, hk, Nat.not_lt.mpr hsel]

theorem getFeature_plain (nsid select : Nat) (v : W32) (hp : plainFeature fid = true) :
    s.getFeature w fid nsid select v =
      if select = 3 then s.admin w stOk 4
      else s.admin w stOk (if select = 0 then (s.ctrl w.fn).features.getD fid (featureDefault fid v) else featureDefault fid v) := by
  obtain ⟨-, -, h82, h83, h07, h0e, h81⟩ := plainFeature_known hp
  simp [State.getFeature, h82, h83, h07, h0e, h81]

theorem getPlain_answers (nsid : Nat) (v : W32) (ha : s.adminReady w = true) (hp : plainFeature fid = true) :
    exec (.getFeatures w fid nsid 0 v) s = .next (s.admin w stOk ((s.ctrl w.fn).features.getD fid (featureDefault fid v))) ∧
    exec (.getFeatures w fid nsid 1 v) s = .next (s.admin w stOk (featureDefault fid v)) ∧
    exec (.getFeatures w fid nsid 3 v) s = .next (s.admin w stOk 4) := by
  obtain ⟨known, hmode, -⟩ := plainFeature_known hp
  refine ⟨?_, ?_, ?_⟩
  all_goals
    rw [exec_getFeature _ _ _ ha known hmode (by decide), getFeature_plain _ _ _ hp]
    rfl

/-- Setting a feature leaves the command's controller ready. -/
theorem adminReady_setFeature (v : W32) :
    (s.onCtrl w.fn fun c => { c with features := c.features.set fid v }).adminReady w = s.adminReady w := by
  simp only [State.adminReady, State.ready, State.outstanding, State.ctrl_onCtrl_self]
  rfl

theorem setFeatures_read_back (nsid : Nat) (v : W32) (data : List Byte) (ha : s.adminReady w = true) (hp : plainFeature fid = true) :
    ∃ u : State, exec (.setFeatures w fid nsid false v data) s = .next (u.admin w stOk 0) ∧ OnlyChanges [.host] s u ∧
      exec (.getFeatures w fid nsid 0 v) u = .next (u.admin w stOk v) := by
  refine ⟨_, exec_setPlain nsid v data ha hp, s.onCtrl_only w.fn _, ?_⟩
  rw [(getPlain_answers nsid v ((adminReady_setFeature v).trans ha) hp).1, State.ctrl_onCtrl_self]
  simp [Tbl.getD, Tbl.find_set_self]

theorem setFeatures_not_saved (nsid : Nat) (v : W32) (data : List Byte) (ha : s.adminReady w = true) (hk : knownFeature fid = true) :
    exec (.setFeatures w fid nsid true v data) s = .next (s.admin w stNotSaveable 0) := by
  have hmode : fid ≠ 0xC0 := by rintro rfl; exact absurd hk (by decide)
  show execSetFeatures w fid nsid true v data s = _
  simp [execSetFeatures, ha, hmode, hk]

end

theorem getSpecial_answers (nsid : Nat) (v : W32) (ha : s.adminReady w = true) :
    exec (.getFeatures w 0x07 nsid 0 v) s = .next (s.admin w stOk (queuesDw0 (s.ctrl w.fn))) ∧
    exec (.getFeatures w 0x0E nsid 0 v) s = .next ((s.dataOut w (timestampData s)).admin w stOk 0) ∧
    exec (.getFeatures w 0x81 nsid 0 v) s = .next ((s.dataOut w (padTo 16 (s.ctrl w.fn).hostId)).admin w stOk 1) := by
  refine ⟨?_, ?_, ?_⟩
  all_goals
    rw [exec_getFeature _ _ _ ha (by decide) (by decide) (by decide)]
    rfl

end

/-- Settles O40: what each command answers, clause by clause. -/
theorem identifyLogsAndFeatures : Obligations.IdentifyLogsAndFeatures :=
  ⟨fun _ _ _ _ _ ha hd => identify_answers ha hd,
   fun _ _ _ _ _ _ rae lsp uuid ha hlid hsmart hp =>
    ⟨getLogPage_answers rae lsp uuid ha hlid hsmart hp, fun halign hin hmax => pageOut_slice rae halign hin hmax⟩,
   fun _ _ _ nsid v data ha hp => setFeatures_read_back nsid v data ha hp,
   fun _ _ _ nsid v ha hp => getPlain_answers nsid v ha hp,
   fun _ _ nsid v ha => getSpecial_answers nsid v ha,
   fun _ _ _ nsid v data ha hk => setFeatures_not_saved nsid v data ha hk⟩

end Sys2Proof.Machine
end

section
/-! PROOFS. The statement on reservations (O42). -/

namespace Sys2Proof.Machine

/-! ## The actions on a reservation (R457) -/

section
variable {r q : Reservation} {host : List Byte}

/-- A host that is not the holder cannot acquire a reservation that another host holds alone. -/
theorem Reservation.acquire_refused {h : List Byte} (type : ResType) (crkey prkey : W64) (hh : r.holder = some h)
    (hone : heldByAll r.type = false) (hne : h ≠ host) : ∃ st, r.acquire host .acquire type crkey prkey = .error st := by
  have not_holder : r.holds host = false := by simp [Reservation.holds, hh, hone, hne]
  refine ⟨stReservation, ?_⟩
  unfold Reservation.acquire
  split
  · rfl
  · simp [hh, not_holder]

theorem Reservation.release_other {type : ResType} {crkey : W64} (hh : r.holds host = false)
    (hq : r.release host false type crkey = .ok q) : q = r := by
  unfold Reservation.release at hq
  split at hq
  · exact nomatch hq
  · simpa [hh, eq_comm] using hq

/-- The registrations of the other hosts are those that stood. -/
theorem Reservation.register_others {action : RegisterAction} {crkey nrkey : W64} {iekey : Bool}
    (hq : r.register host action crkey nrkey iekey = .ok q) {x : Registrant} (hx : x ∈ q.registrants) (hne : x.hostId ≠ host) :
    x ∈ r.registrants := by
  have from_appended (h : x ∈ r.registrants ++ [⟨host, nrkey⟩]) : x ∈ r.registrants := by
    rcases List.mem_append.mp h with old | new
    · exact old
    · exact absurd (congrArg Registrant.hostId (List.mem_singleton.mp new)) hne
  unfold Reservation.register at hq
  split at hq
  case h_1 =>
    obtain rfl := Except.ok.inj hq
    exact from_appended hx
  case h_2 =>
    split at hq
    · obtain rfl := Except.ok.inj hq
      exact hx
    · exact nomatch hq
  case h_3 =>
    split at hq
    · obtain rfl := Except.ok.inj hq
      exact List.mem_of_mem_filter hx
    · exact nomatch hq
  case h_4 =>
    split at hq
    · obtain rfl := Except.ok.inj hq
      obtain ⟨y, hy, rfl⟩ := List.mem_map.mp hx
      split at hne
      · exact absurd rfl hne
      · rwa [if_neg (by assumption)]
    · exact nomatch hq
  case h_5 =>
    split at hq
    · obtain rfl := Except.ok.inj hq
      exact from_appended hx
    · exact nomatch hq
  case h_6 => exact nomatch hq

end

/-! ## The commands (R457, R458) -/

section
variable {s : State} {w : Who} {nsid : Nat} {n : Ns}

theorem notifyHosts_only (s : State) (nsid type : Nat) (hosts : List (List Byte)) :
    OnlyChanges [.host, .health] s (s.notifyHosts nsid type hosts) := only_of_blank (by simp)

theorem reservationRegister_adds (crkey nrkey : W64) (hio : s.ioReady w = true) (hg : s.resGate w.fn nsid = .ok n)
    (hnew : n.reservation.entry (s.ctrl w.fn).hostId = none) :
    ∃ r : Reservation, exec (.reservationRegister w nsid .register crkey nrkey false 0) s = .next (s.putReservation w nsid r) ∧
      r.registrants = n.reservation.registrants ++ [⟨(s.ctrl w.fn).hostId, nrkey⟩] ∧ r.holder = n.reservation.holder ∧
      r.generation = (n.reservation.generation + 1) % 2 ^ 32 := by
  refine ⟨{ n.reservation with registrants := n.reservation.registrants ++ [⟨(s.ctrl w.fn).hostId, nrkey⟩],
                               generation := (n.reservation.generation + 1) % 2 ^ 32 }, ?_, rfl, rfl, rfl⟩
  show execReservationRegister w nsid .register crkey nrkey false 0 s = _
  simp [execReservationRegister, hio, hg, Reservation.register, hnew, Reservation.counted]

theorem reservationAcquire_holds (type : ResType) {crkey : W64} (prkey : W64) {x : Registrant} (hio : s.ioReady w = true)
    (hg : s.resGate w.fn nsid = .ok n) (hx : n.reservation.entry (s.ctrl w.fn).hostId = some x) (hk : x.key = crkey)
    (hfree : n.reservation.holder = none) :
    ∃ r : Reservation, exec (.reservationAcquire w nsid .acquire type crkey prkey) s = .next ((s.notifyHosts nsid 1 []).putReservation w nsid r) ∧
      r.holder = some (s.ctrl w.fn).hostId ∧ r.type = type ∧ r.registrants = n.reservation.registrants := by
  refine ⟨{ n.reservation with holder := some (s.ctrl w.fn).hostId, type := type }, ?_, rfl, rfl, rfl⟩
  show execReservationAcquire w nsid .acquire type crkey prkey s = _
  simp [execReservationAcquire, hio, hg, Reservation.acquire, hx, hk, hfree, Reservation.counted]

theorem reservationRelease_frees {type : ResType} {crkey : W64} {x : Registrant} (hio : s.ioReady w = true)
    (hg : s.resGate w.fn nsid = .ok n) (hx : n.reservation.entry (s.ctrl w.fn).hostId = some x) (hk : x.key = crkey)
    (hh : n.reservation.holds (s.ctrl w.fn).hostId = true) (ht : n.reservation.type = type) :
    ∃ (u : State) (r : Reservation), exec (.reservationRelease w nsid false type crkey) s = .next (u.putReservation w nsid r) ∧
      r.holder = none ∧ r.registrants = n.reservation.registrants ∧ OnlyChanges [.host, .health] s u := by
  have run : execReservationRelease w nsid false type crkey s = .next (State.putReservation
      (if n.reservation.holder.isSome && (resTypeCode n.reservation.type > 2 : Bool) then
        s.notifyHosts nsid 2 ((n.reservation.registrants.filter fun x => x.hostId ≠ (s.ctrl w.fn).hostId).map (·.hostId)) else s)
      w nsid { n.reservation with holder := none }) := by
    simp [execReservationRelease, hio, hg, Reservation.release, hx, hk, hh, ht, Reservation.counted]
  refine ⟨_, _, run, rfl, rfl, ?_⟩
  split
  · exact notifyHosts_only _ _ _ _
  · exact OnlyChanges.refl _ s

theorem reservationReport_answers (hio : s.ioReady w = true) (hn : s.anyNs w.fn nsid = .ok n) :
    exec (.reservationReport w nsid) s = .next ((s.dataOut w (reservationReport s n.reservation)).io w stOk 0) := by
  show execReservationReport w nsid s = _
  simp [execReservationReport, hio, hn]

theorem putReservation_durable (w : Who) (r : Reservation) (hn : s.ns.find nsid = some n) :
    (s.putReservation w nsid r).ns.find nsid = some { n with reservation := r } ∧
    (s.putReservation w nsid r).health.cfg = s.health.cfg ++ [.complete w stOk 0] ∧
    OnlyChanges [.ns, .media, .health] s (s.putReservation w nsid r) := by
  let u := s.onNs fun t => t.modify nsid fun n => { n with reservation := r }
  have kept : (u.cfgWrite (.complete w stOk 0)).ns = u.ns :=
    only_of_blank (u.cfgWrite_blank (ps := [.media, .health]) _ (by simp)) .ns (by decide)
  refine ⟨?_, u.cfgWrite_cfg _, only_of_blank (by simp [State.putReservation])⟩
  show (u.cfgWrite (.complete w stOk 0)).ns.find nsid = _
  rw [kept]
  simp [u, State.onNs, Tbl.find_modify, hn]

end

/-- Settles O42: what each action does to the reservation, clause by clause. -/
theorem reservations : Obligations.Reservations :=
  ⟨fun _ _ _ crkey nrkey _ hio hg hnew => reservationRegister_adds crkey nrkey hio hg hnew,
   fun _ _ _ type _ prkey _ _ hio hg hx hk hfree => reservationAcquire_holds type prkey hio hg hx hk hfree,
   fun _ _ _ _ _ _ _ hio hg hx hk hh ht => reservationRelease_frees hio hg hx hk hh ht,
   fun _ _ _ _ hio hn => reservationReport_answers hio hn,
   fun _ w _ r _ hn => putReservation_durable w r hn,
   fun _ _ _ type crkey prkey hh hone hne => Reservation.acquire_refused type crkey prkey hh hone hne,
   fun _ _ _ _ _ _ hh hc hq => Reservation.release_other hh (hc ▸ hq),
   fun _ _ _ _ _ _ _ hq _ hx hne => Reservation.register_others hq hx hne⟩

end Sys2Proof.Machine
end

section
/-! PROOFS. The statement on programs and local memory (O44). -/

namespace Sys2Proof.Machine

/-! ## What passes the checks -/

/-- A namespace that passes a gate is the one that stands. -/
theorem State.find_of_nsGate {s : State} {f : Fn} {nsid : Nat} {kind : NsKind} {n : Ns} (h : s.nsGate f nsid kind = .ok n) :
    s.ns.find nsid = some n := by
  unfold State.nsGate at h
  split at h
  · exact nomatch h
  case h_2 m hm =>
    split_ifs at h
    rw [hm, Except.ok.inj h]

theorem State.find_of_memGate {s : State} {f : Fn} {nsid off len : Nat} {write : Bool} {n : Ns} (h : s.memGate f nsid off len write = .ok n) :
    s.ns.find nsid = some n := by
  unfold State.memGate at h
  split at h
  · exact nomatch h
  case h_2 m hm =>
    split_ifs at h
    all_goals
      split at h
      · exact nomatch h
      · exact Except.ok.inj h ▸ State.find_of_nsGate hm

theorem State.rangeSets_onRangeSets (s : State) (p : Port) (g : Tbl (List MemRange) → Tbl (List MemRange)) :
    (s.onRangeSets p g).rangeSets p = g (s.rangeSets p) := by
  cases p <;> rfl
theorem State.onRangeSets_only (s : State) (p : Port) (g : Tbl (List MemRange) → Tbl (List MemRange)) :
    OnlyChanges [.host] s (s.onRangeSets p g) := only_of_blank (by simp)

section
variable {s : State} {w : Who}

/-! ## Programs (R453) -/

theorem loadProgram_loads (cdw10 : W32) {cdw11 : W32} (img : List Byte) (hr : s.ready w = true) (hsel : fld cdw11 3 0 = 0) :
    exec (.loadProgram w cdw10 cdw11 img) s = .next (s.moduleLoad w cdw10 cdw11 img) := by
  show execLoadProgram w cdw10 cdw11 img s = _
  simp [execLoadProgram, hr, hsel]

theorem programActivation_ok {id : Nat} (hr : s.ready w = true) (hk : (programKernel s w.fn id).isSome = true) :
    exec (.programActivationManagement w id true) s = .next (s.admin w stOk 0) := by
  show execProgramActivationManagement w id true s = _
  simp [execProgramActivationManagement, hr, hk]

theorem rangeSet_created {create : Nat} {rs : List MemRange} (hr : s.ready w = true) (hne : rs ≠ []) (hlen : rs.length ≤ 8)
    (hok : rs.all (memRangeOk s w.fn) = true) (hfree : (s.rangeSets (portOfFn w.fn)).lowestFree 1 256 = some create) :
    ∃ u : State, exec (.memoryRangeSetManagement w true 0 rs) s = .next (u.admin w stOk (w32 create)) ∧
      (u.rangeSets (portOfFn w.fn)).find create = some rs ∧ OnlyChanges [.host] s u := by
  refine ⟨s.onRangeSets (portOfFn w.fn) fun t => t.set create rs, ?_, ?_, s.onRangeSets_only _ _⟩
  · show execMemoryRangeSetManagement w true 0 rs s = _
    have fits : ¬(rs = [] ∨ 8 < rs.length ∨ (!rs.all (memRangeOk s w.fn)) = true) := by simp [hne, hok, hlen]
    simp only [execMemoryRangeSetManagement, hr, if_true, if_neg fits, hfree]
  · rw [State.rangeSets_onRangeSets, Tbl.find_set_self]

theorem rangeSet_deleted {set : Nat} {rs : List MemRange} (hr : s.ready w = true) (hset : (s.rangeSets (portOfFn w.fn)).find set = some rs) :
    ∃ u : State, exec (.memoryRangeSetManagement w false set []) s = .next (u.admin w stOk 0) ∧
      (u.rangeSets (portOfFn w.fn)).find set = none ∧ OnlyChanges [.host] s u := by
  refine ⟨s.onRangeSets (portOfFn w.fn) fun t => t.erase set, ?_, ?_, s.onRangeSets_only _ _⟩
  · show execMemoryRangeSetManagement w false set [] s = _
    simp [execMemoryRangeSetManagement, hr, hset]
  · rw [State.rangeSets_onRangeSets, Tbl.find_erase, if_pos rfl]

/-- The Trail of a program whose ranges exist goes to admission's checks. -/
theorem executeProgram_checks {id set : Nat} (args : List Byte) {a b : MemRange} {more : List MemRange} {k : KernelRec}
    (hio : s.ioReady w = true) (hset : (s.rangeSets (portOfFn w.fn)).find set = some (a :: b :: more))
    (hk : programKernel s w.fn id = some k) (hsrc : slmRunBad s a.nsid a.offset a.length = false)
    (hdst : slmRunBad s b.nsid b.offset b.length = false) :
    Completes (.executeProgram w id set args) s fun t =>
      (∀ c, checkTrail s w.fn [] (programTrail k id a b args) = .ok c → t = s.admitTrail w c true) ∧
      (∀ r, checkTrail s w.fn [] (programTrail k id a b args) = .error r → t = s.refuseTrail w r) := by
  refine ⟨_, rfl, ?_⟩
  beta_reduce
  simp only [hio, hset, hk, hsrc, hdst, if_true, Bool.false_eq_true, if_false]
  constructor
  · intro c hc
    rw [hc]
  · intro r hr
    rw [hr]

/-! ## Local memory (R452, R454) -/

section
variable {nsid off : Nat} {n : Ns}

theorem memoryWrite_writes {data : List Byte} (hio : s.ioReady w = true) (hup : s.up .mem = true)
    (hg : s.memGate w.fn nsid off data.length true = .ok n) :
    ∃ (u : State) (m : Ns), exec (.memoryWrite w nsid off (some data)) s = .next (u.io w stOk 0) ∧ OnlyChanges [.ns] s u ∧
      u.ns.find nsid = some m ∧ m.mem.readBytes off data.length = data ∧
      ∀ a, a < off ∨ off + data.length ≤ a → m.mem.read a = n.mem.read a := by
  refine ⟨s.slmWrite nsid off data, { n with mem := n.mem.writeBytes off data }, ?_, only_of_blank (by simp), ?_,
    n.mem.readBytes_writeBytes off data, fun a ha => n.mem.read_writeBytes_other off a data ha⟩
  · show execMemoryWrite w nsid off (some data) s = _
    simp [execMemoryWrite, hio, hup, hg]
  · simp [State.slmWrite, State.onNs, Tbl.find_modify, State.find_of_memGate hg]

theorem memoryRead_reads {len : Nat} (hio : s.ioReady w = true) (hup : s.up .mem = true) (hg : s.memGate w.fn nsid off len false = .ok n) :
    exec (.memoryRead w nsid off len) s = .next ((s.dataOut w (n.mem.readBytes off len)).io w stOk 0) := by
  show execMemoryRead w nsid off len s = _
  simp [execMemoryRead, hio, hup, hg]

theorem memoryCopy_reads {src : List (Nat × LbaRange)} (hio : s.ioReady w = true) (hup : s.up .mem = true)
    (hg : s.memGate w.fn nsid off 0 true = .ok n) (hne : src ≠ []) (hlen : src.length ≤ 128)
    (hok : src.findSome? (sourceFails s w.fn) = none) (hfits : s.slmFits nsid off (sourceLength s src) = true)
    (hidle : segBusy s ((copyNeeds s src).map (·.1)) = false) :
    exec (.memoryCopy w nsid off src) s =
      .next (s.runJob { client := .host w, kind := .memCopy nsid off src, nsid := nsid, slba := 0, nlb := 0, wait := 0, failed := none,
                        second := false, again := false } (mediaEntries s (copyNeeds s src))) := by
  have some_sources : ¬(src = [] ∨ 128 < src.length) := fun h => h.elim hne (by omega)
  show execMemoryCopy w nsid off src s = _
  simp only [execMemoryCopy, hio, hup, hg, hok, hfits, hidle, if_neg some_sources, if_true, Bool.not_true, Bool.false_eq_true, if_false]

end

end

/-- Settles O44: what each command of the two command sets does, clause by clause. -/
theorem computeAndLocalMemory : Obligations.ComputeAndLocalMemory :=
  ⟨fun _ _ cdw10 _ img hr hsel => loadProgram_loads cdw10 img hr hsel,
   fun _ _ _ hr hk => programActivation_ok hr hk,
   fun _ _ _ _ hr hne hlen hok hfree => rangeSet_created hr hne hlen hok hfree,
   fun _ _ _ _ hr hset => rangeSet_deleted hr hset,
   fun _ _ _ _ args _ _ _ _ hio hset hk hsrc hdst => executeProgram_checks args hio hset hk hsrc hdst,
   fun _ _ _ _ _ _ hio hup hg => memoryWrite_writes hio hup hg,
   fun _ _ _ _ _ _ hio hup hg => memoryRead_reads hio hup hg,
   fun _ _ _ _ _ _ hio hup hg hne hlen hok hfits hidle => memoryCopy_reads hio hup hg hne hlen hok hfits hidle⟩

end Sys2Proof.Machine
end

section
/-! PROOFS. The statement on instances' shares, slots and mailboxes (O45). -/

namespace Sys2Proof.Machine

/-! ## Lengths of the records -/

@[simp] theorem length_zeros (n : Nat) : (zeros n).length = n := List.length_replicate

theorem fitRecords_sublist (room off : Nat) (rs : List LedgerRec) : (fitRecords room off rs).Sublist rs := by
  induction rs generalizing off with
  | nil => exact .slnil
  | cons r rs ih =>
    unfold fitRecords
    dsimp only
    split
    · exact (ih _).cons_cons r
    · exact List.nil_sublist _

theorem length_ledgerFrom_le (s : State) (f : Fn) (seq count room : Nat) : (ledgerFrom s f seq count room).length ≤ count :=
  (fitRecords_sublist ..).length_le.trans (List.length_take_le ..)

theorem mem_ledgerFrom {s : State} {f : Fn} {seq count room : Nat} {r : LedgerRec} (h : r ∈ ledgerFrom s f seq count room) :
    seq ≤ r.seq ∧ r.visible f = true := by
  have passes := List.of_mem_filter (List.mem_of_mem_take ((fitRecords_sublist ..).subset h))
  simpa using passes

theorem length_shareBytes (x : Share) : (shareBytes x).length = 16 := by
  simp [shareBytes, leBytes_length]

theorem length_statusOf (s : State) (f : Fn) : (statusOf s f).length = 32 := by
  simp [statusOf, leBytes_length]

/-! ## The ledger, shares, slots and status (R459, R461, R473, R478, R480, R481) -/

section
variable {s : State} {w : Who} {f : Fn}

theorem ledgerRead_answers {seq count room : Nat} (ha : s.adminReady w = true) (hlo : 1 ≤ count) (hhi : count ≤ 64)
    (hroom : 16384 ≤ room) (hmax : room ≤ 1048576) :
    Completes (.ledgerRead w seq count room) s fun t =>
      t = (s.dataOut w (recordBytes (ledgerFrom s w.fn seq count room))).admin2 w stOk
        (w32 ((ledgerFrom s w.fn seq count room).length + bitIf (ledgerGone s seq) 31))
        (match ledgerFrom s w.fn seq count room with | r :: _ => w32 r.seq | [] => 0) ∧
      (ledgerFrom s w.fn seq count room).length ≤ count ∧
      ∀ r ∈ ledgerFrom s w.fn seq count room, seq ≤ r.seq ∧ r.visible w.fn = true := by
  refine ⟨_, ?_, rfl, length_ledgerFrom_le .., fun r hr => mem_ledgerFrom hr⟩
  show execLedgerRead w seq count room s = _
  have sized : ¬(count < 1 ∨ 64 < count ∨ room < 16384 ∨ 1048576 < room) := by omega
  exact congrArg Host.Outcome.next ((if_pos ha).trans (if_neg sized))

theorem getShare_answers (ha : s.adminReady w = true) (hg : s.instanceGate w f 16 16 = none) :
    exec (.getShare w f 16) s = .next ((s.dataOut w (shareBytes (s.ctrl f).share)).admin w stOk 0) := by
  show execGetShare w f 16 s = _
  simp [execGetShare, ha, hg]

theorem setShare_waits {x : Share} (ha : s.adminReady w = true) (hg : s.instanceGate w f 16 16 = none) (hok : shareOk s f x = true)
    (hmade : queuePairs (s.ctrl f) ≤ x.queuePairs) :
    Completes (.setShare w f 16 x) s fun t =>
      (t.ctrl f).share = (s.ctrl f).share ∧ (t.ctrl f).pendShare = (s.ctrl f).pendShare ++ [(w, x)] ∧ (t.ctrl f).nextShare = x ∧
      OnlyChanges [.host] s t := by
  refine ⟨s.onCtrl f fun c => { c with pendShare := c.pendShare ++ [(w, x)] }, ?_, ?_⟩
  · show execSetShare w f 16 x s = _
    simp [execSetShare, ha, hg, hok, Nat.not_lt.mpr hmade]
  · beta_reduce
    rw [State.ctrl_onCtrl_self]
    exact ⟨rfl, rfl, by simp [Ctrl.nextShare], s.onCtrl_only f _⟩

theorem State.xts_setXts_other (s : State) {i j : Nat} (k : KeySlot) (h : j ≠ i) : (s.setXts i k).xts j = s.xts j :=
  Tbl.getD_put_other KeySlot.free s.sea.xts k h

/-- An entry that gives a free XTS slot is applied without a record of the ledger. -/
theorem applyEntries_assign {i : Nat} (hi : i < 1024) (hfree : (s.xts i).use = 0) :
    s.applyEntries f [⟨0, 0, i⟩] [] = some (s.setXts i { KeySlot.free with use := 3, owner := f }, []) := by
  simp [State.applyEntries, entryOk, hi, entryOwner, hfree, State.assignSlot]

theorem assign_gives {i : Nat} (ha : s.adminReady w = true) (hg : s.instanceGate w f 16 16 = none) (hi : i < 1024)
    (hfrozen : (s.ctrl f).freeze ≠ .frozen) (hfree : (s.xts i).use = 0) :
    ∃ u : State, exec (.assign w f 16 [⟨0, 0, i⟩]) s = .next ((u.cfgWrite .note).admin w stOk 1) ∧
      (u.xts i).use = 3 ∧ (u.xts i).owner = f ∧ (u.xts i).st = .empty ∧ (∀ j, j ≠ i → u.xts j = s.xts j) ∧ OnlyChanges [.sea] s u := by
  refine ⟨s.setXts i { KeySlot.free with use := 3, owner := f }, ?_, ?_⟩
  · show execAssign w f 16 [⟨0, 0, i⟩] s = _
    simp [execAssign, ha, hg, hfrozen, applyEntries_assign hi hfree, State.appendsThen, w32]
  · rw [State.xts_setXts_self]
    exact ⟨rfl, rfl, rfl, fun j hj => s.xts_setXts_other _ hj, only_of_blank (by simp)⟩

theorem getStatus_answers (ha : s.adminReady w = true) (hg : s.instanceGate w f 32 32 = none) :
    exec (.getStatus w f 32) s = .next ((s.dataOut w (statusOf s f)).admin w stOk 0) := by
  show execGetStatus w f 32 s = _
  simp [execGetStatus, ha, hg]

end

/-! ## Mailboxes (R482 to R485, R498) -/

/-- A message signalled or held changes at most what the controllers hold. -/
theorem State.ctrl_msix (s : State) (g : Fn) (v : Nat) (f : Fn) :
    ∃ held, (s.msix g v).ctrl f = { s.ctrl f with msixHeld := held } := by
  unfold State.msix
  split
  · rw [State.ctrl_onCtrl]
    split
    case isTrue h =>
      subst h
      exact ⟨_, rfl⟩
    · exact ⟨_, rfl⟩
  · exact ⟨_, State.ctrl_post ..⟩

section
variable {s : State} {f : Fn} {v : W32}

/-- The write of VIN_MBX_CTL sets the side's vector. -/
theorem ctrl_mailboxWrite (s : State) (f : Fn) (manager : Bool) (v : W32) :
    (s.mailboxWrite f manager 0x80 v).ctrl f = (s.ctrl f).onSide manager fun m => { m with vector := sideVector manager v } := by
  rw [State.mailboxWrite, State.ctrl_onCtrl_self]
  rfl

theorem mailboxWrite_only (s : State) (f : Fn) (manager : Bool) (o : Nat) (v : W32) : OnlyChanges [.host] s (s.mailboxWrite f manager o v) :=
  s.onCtrl_only f _

theorem mailboxSend_only (s : State) (f : Fn) : OnlyChanges [.host] s (s.mailboxSend f true) := by
  unfold State.mailboxSend
  dsimp only
  split
  · exact s.onCtrl_only f _
  · exact only_of_blank (by simp)

theorem mailboxSend_delivers (hflr : (s.ctrl f).flr = none) (hen : s.regBit rVinCtl 0 = true) (hroom : (s.ctrl f).mbxIn.length < 8) :
    ((s.mailboxSend f true).ctrl f).mbxIn = (s.ctrl f).mbxIn ++ [delivered (s.ctrl f).mbxMgr] ∧
    ((s.mailboxSend f true).ctrl f).mbxOut = (s.ctrl f).mbxOut ∧ ((s.mailboxSend f true).ctrl f).mbxMgr.refused = false ∧
    OnlyChanges [.host] s (s.mailboxSend f true) := by
  have taken : sendRefused s (s.ctrl f) true = none := by simp [sendRefused, hflr, hen, Nat.not_le.mpr hroom]
  suffices fields : _ ∧ _ ∧ _ from ⟨fields.1, fields.2.1, fields.2.2, mailboxSend_only s f⟩
  simp only [State.mailboxSend, taken, if_true]
  obtain ⟨held, signalled⟩ := State.ctrl_msix _ _ _ f
  rw [signalled, State.ctrl_onCtrl_self]
  exact ⟨rfl, rfl, rfl⟩

theorem mailboxSend_full (hflr : (s.ctrl f).flr = none) (hen : s.regBit rVinCtl 0 = true) (hfull : 8 ≤ (s.ctrl f).mbxIn.length) :
    ((s.mailboxSend f true).ctrl f).mbxIn = (s.ctrl f).mbxIn ∧ ((s.mailboxSend f true).ctrl f).mbxMgr.refused = true ∧
    ((s.mailboxSend f true).ctrl f).mbxMgr.reason = 1 ∧ OnlyChanges [.host] s (s.mailboxSend f true) := by
  have full : sendRefused s (s.ctrl f) true = some 1 := by simp [sendRefused, hflr, hen, hfull]
  suffices fields : _ ∧ _ ∧ _ from ⟨fields.1, fields.2.1, fields.2.2, mailboxSend_only s f⟩
  simp only [State.mailboxSend, full]
  rw [State.ctrl_onCtrl_self]
  exact ⟨rfl, rfl, rfl⟩

theorem exec_send (hr : mailboxReached s f true = true) (hsend : bitAt v 31 = true) (hpop : bitAt v 30 = false) :
    exec (.send f true v) s = .next ((s.mailboxWrite f true 0x80 v).mailboxSend f true) := by
  show execSend f true v s = _
  simp [execSend, hr, hsend, hpop]

theorem send_delivers (hr : mailboxReached s f true = true) (hsend : bitAt v 31 = true) (hpop : bitAt v 30 = false)
    (hflr : (s.ctrl f).flr = none) (hen : s.regBit rVinCtl 0 = true) (hroom : (s.ctrl f).mbxIn.length < 8) :
    Completes (.send f true v) s fun t =>
      (t.ctrl f).mbxIn = (s.ctrl f).mbxIn ++ [delivered (s.ctrl f).mbxMgr] ∧ (t.ctrl f).mbxOut = (s.ctrl f).mbxOut ∧
      (t.ctrl f).mbxMgr.refused = false ∧ OnlyChanges [.host] s t := by
  have written := ctrl_mailboxWrite s f true v
  obtain ⟨gets, keeps, accepted, frame⟩ := mailboxSend_delivers (s := s.mailboxWrite f true 0x80 v) (f := f)
    (by rw [written]; exact hflr) hen (by rw [written]; exact hroom)
  rw [written] at gets keeps
  exact ⟨_, exec_send hr hsend hpop, gets, keeps, accepted, OnlyChanges.trans (mailboxWrite_only _ _ _ _ _) frame⟩

theorem send_refused (hr : mailboxReached s f true = true) (hsend : bitAt v 31 = true) (hpop : bitAt v 30 = false)
    (hflr : (s.ctrl f).flr = none) (hen : s.regBit rVinCtl 0 = true) (hfull : 8 ≤ (s.ctrl f).mbxIn.length) :
    Completes (.send f true v) s fun t =>
      (t.ctrl f).mbxIn = (s.ctrl f).mbxIn ∧ (t.ctrl f).mbxMgr.refused = true ∧ (t.ctrl f).mbxMgr.reason = 1 ∧ OnlyChanges [.host] s t := by
  have written := ctrl_mailboxWrite s f true v
  obtain ⟨keeps, refused, reason, frame⟩ := mailboxSend_full (s := s.mailboxWrite f true 0x80 v) (f := f)
    (by rw [written]; exact hflr) hen (by rw [written]; exact hfull)
  rw [written] at keeps
  exact ⟨_, exec_send hr hsend hpop, keeps, refused, reason, OnlyChanges.trans (mailboxWrite_only _ _ _ _ _) frame⟩

theorem pop_takes_oldest (hr : mailboxReached s f false = true) (hpop : bitAt v 30 = true) (hsend : bitAt v 31 = false) :
    Completes (.pop f false v) s fun t =>
      (t.ctrl f).mbxIn = (s.ctrl f).mbxIn.drop 1 ∧ (t.ctrl f).mbxOut = (s.ctrl f).mbxOut ∧ (∀ g, g ≠ f → t.ctrl g = s.ctrl g) ∧
      OnlyChanges [.host] s t := by
  refine ⟨(s.mailboxWrite f false 0x80 v).mailboxPop f false, ?_, ?_⟩
  · show execPop f false v s = _
    simp [execPop, hr, hpop, hsend]
  · beta_reduce
    rw [State.mailboxPop, State.ctrl_onCtrl_self, ctrl_mailboxWrite]
    refine ⟨rfl, rfl, fun g hg => ?_, OnlyChanges.trans (mailboxWrite_only _ _ _ _ _) (State.onCtrl_only _ _ _)⟩
    rw [State.ctrl_onCtrl, if_neg hg, State.mailboxWrite, State.ctrl_onCtrl, if_neg hg]

end

/-- The shorter of the two lengths governs the copy, and a difference is said. -/
theorem delivered_lengths (m : MbxSide) :
    (delivered m).len ≤ declaredLen m ∧ (delivered m).len ≤ actualLen m ∧ ((delivered m).mismatch = true ↔ declaredLen m ≠ actualLen m) :=
  ⟨Nat.min_le_left .., Nat.min_le_right .., decide_eq_true_iff⟩

/-- Settles O45: what each command that configures a function does, clause by clause. -/
theorem instancesAreConfigured : Obligations.InstancesAreConfigured :=
  ⟨fun _ _ _ _ _ ha hlo hhi hroom hmax => ledgerRead_answers ha hlo hhi hroom hmax,
   fun _ _ _ ha hg => ⟨getShare_answers ha hg, length_shareBytes _⟩,
   fun _ _ _ _ ha hg hok hmade => setShare_waits ha hg hok hmade,
   fun _ _ _ _ ha hg hi hfrozen hfree => assign_gives ha hg hi hfrozen hfree,
   fun s _ f ha hg => ⟨getStatus_answers ha hg, length_statusOf s f⟩,
   fun _ _ _ hr hsend hpop hflr hen hroom => send_delivers hr hsend hpop hflr hen hroom,
   fun _ _ _ hr hsend hpop hflr hen hfull => send_refused hr hsend hpop hflr hen hfull,
   fun _ _ _ hr hpop hsend => pop_takes_oldest hr hpop hsend,
   delivered_lengths⟩

end Sys2Proof.Machine
end

section
/-! PROOFS. The statement on migration (O46). -/

namespace Sys2Proof.Machine

/-! ## What a completion leaves of the migration target -/

theorem State.ctrl_of_host {s t : State} (h : t.host = s.host) (f : Fn) : t.ctrl f = s.ctrl f := by rw [State.ctrl, h, State.ctrl]

theorem State.migTarget_onCtrl (s : State) (k : Fn) {g : Ctrl → Ctrl} (hg : ∀ c, (g c).migTarget = c.migTarget) (f : Fn) :
    ((s.onCtrl k g).ctrl f).migTarget = (s.ctrl f).migTarget := by
  rw [State.ctrl_onCtrl]
  split
  case isTrue h => rw [hg, h]
  · rfl

theorem State.migTarget_msix (s : State) (g : Fn) (v : Nat) (f : Fn) : ((s.msix g v).ctrl f).migTarget = (s.ctrl f).migTarget := by
  obtain ⟨held, signalled⟩ := s.ctrl_msix g v f
  rw [signalled]

theorem State.migTarget_addLife (s : State) (key n : Nat) (f : Fn) : ((s.addLife key n).ctrl f).migTarget = (s.ctrl f).migTarget :=
  congrArg Ctrl.migTarget (State.ctrl_of_host (s.addLife_only key n .host (by decide)) f)

theorem State.migTarget_countCmd (s : State) (w : Who) (f : Fn) : ((s.countCmd w).ctrl f).migTarget = (s.ctrl f).migTarget :=
  congrArg Ctrl.migTarget (State.ctrl_of_host (only_of_blank (ps := [.health]) (by simp) .host (by decide)) f)

theorem State.migTarget_retireCmd (s : State) (w : Who) (f : Fn) : ((s.retireCmd w).ctrl f).migTarget = (s.ctrl f).migTarget := by
  unfold State.retireCmd
  exact State.migTarget_onCtrl _ _ (by intro; rfl) f

theorem State.migTarget_logError (s : State) (w : Who) (st : Status) (f : Fn) :
    ((s.logError w st).ctrl f).migTarget = (s.ctrl f).migTarget := by
  unfold State.logError
  rw [State.migTarget_addLife]
  exact State.migTarget_onCtrl _ _ (by intro; rfl) f

theorem State.migTarget_complete (s : State) (w : Who) (st : Status) (a b : W32) (f : Fn) :
    ((s.complete w st a b).ctrl f).migTarget = (s.ctrl f).migTarget := by
  unfold State.complete
  split
  · rfl
  · extract_lets c cq s1 s2 s3 s4 s5
    have h1 : (s1.ctrl f).migTarget = (s.ctrl f).migTarget := (State.migTarget_retireCmd ..).trans (State.migTarget_countCmd ..)
    have h2 : (s2.ctrl f).migTarget = (s1.ctrl f).migTarget := by
      unfold s2
      split
      · exact State.migTarget_logError ..
      · rfl
    have h3 : (s3.ctrl f).migTarget = (s2.ctrl f).migTarget := by
      unfold s3
      split
      · exact State.migTarget_addLife ..
      · rfl
    have h4 : (s4.ctrl f).migTarget = (s3.ctrl f).migTarget := State.migTarget_onCtrl _ _ (by intro; split <;> rfl) f
    have h5 : (s5.ctrl f).migTarget = (s4.ctrl f).migTarget := congrArg Ctrl.migTarget (State.ctrl_post ..)
    have through : (s5.ctrl f).migTarget = (s.ctrl f).migTarget := h5.trans (h4.trans (h3.trans (h2.trans h1)))
    split
    · exact (State.migTarget_msix ..).trans through
    · exact through

section
variable {s : State} {w : Who} {f : Fn}

/-! ## Keys and targets (R491, R492) -/

/-- The function has drawn a migration key. -/
def State.withMigrationKey (s : State) (f : Fn) : State :=
  ((s.random 64).2.onHost fun h => { h with nextMigKey := h.nextMigKey + 1 }).onCtrl f fun c =>
    { c with migKey := some ⟨s.host.nextMigKey % 2 ^ 32, (s.random 64).1⟩ }

theorem getMigrationKey_makes (ha : s.adminReady w = true) (hg : s.instanceGate w f 6560 6560 = none) :
    ∃ (u : State) (bs : List Byte), exec (.getMigrationKey w f 6560) s = .next ((u.dataOut w bs).admin w stOk 0) ∧
      (∃ k, (u.ctrl f).migKey = some k ∧ k.keyId = s.host.nextMigKey % 2 ^ 32) ∧ OnlyChanges [.host, .sea] s u := by
  let u := s.withMigrationKey f
  let body := migrationKeyBody u (s.host.nextMigKey % 2 ^ 32) (s.random 64).1
  refine ⟨u, body ++ u.aliasSign body ++ zeros 3, ?_, ?_, ?_⟩
  · show execGetMigrationKey w f 6560 s = _
    rw [execGetMigrationKey, if_pos ha, hg]
    rfl
  · simp only [u, State.withMigrationKey, State.ctrl_onCtrl_self]
    exact ⟨_, rfl, rfl⟩
  · exact only_of_blank (by simp [u, State.withMigrationKey])

theorem migrationKeyExpiry_forgets (s : State) (f : Fn) :
    Completes (.migrationKeyExpiry f) s fun t =>
      (t.ctrl f).migKey = none ∧ (∀ g, g ≠ f → t.ctrl g = s.ctrl g) ∧ OnlyChanges [.host] s t := by
  refine ⟨s.onCtrl f fun c => { c with migKey := none }, rfl, ?_, fun g hg => ?_, s.onCtrl_only f _⟩
  · rw [State.ctrl_onCtrl_self]
  · rw [State.ctrl_onCtrl, if_neg hg]

theorem exec_setMigrationTarget {record : List Byte} (ha : s.adminReady w = true) (hg : s.instanceGate w f record.length 6560 = none)
    (hlo : leAt record 4 2 ≤ compatLevel s) (hhi : compatLevel s ≤ leAt record 6 2) :
    exec (.setMigrationTarget w f record) s = .next (
      if Config.mldsaVerify (slice record 0x510 1952) (record.take 0xCB0) (slice record 0xCB0 3309) = true then
        (s.onCtrl f fun c => { c with migTarget := some ⟨leAt record 0 4, slice record 8 1184, slice record 0x4A8 97⟩ }).admin w stOk 0
      else s.admin w stTagFail 0) := by
  have level_fits : ¬(compatLevel s < leAt record 4 2 ∨ leAt record 6 2 < compatLevel s) := by omega
  show execSetMigrationTarget w f record s = _
  rw [execSetMigrationTarget, if_pos ha, hg]
  simp only [if_neg level_fits]
  by_cases signed : Config.mldsaVerify (slice record 0x510 1952) (record.take 0xCB0) (slice record 0xCB0 3309) = true
  · simp only [signed, Bool.not_true, Bool.false_eq_true, if_false, if_true]
  · simp only [signed, Bool.not_false, if_true, Bool.false_eq_true, if_false]

theorem setMigrationTarget_verifies {record : List Byte} (ha : s.adminReady w = true) (hg : s.instanceGate w f record.length 6560 = none)
    (hlo : leAt record 4 2 ≤ compatLevel s) (hhi : compatLevel s ≤ leAt record 6 2) :
    Completes (.setMigrationTarget w f record) s fun t =>
      (Config.mldsaVerify (slice record 0x510 1952) (record.take 0xCB0) (slice record 0xCB0 3309) = true →
        (t.ctrl f).migTarget = some ⟨leAt record 0 4, slice record 8 1184, slice record 0x4A8 97⟩) ∧
      (Config.mldsaVerify (slice record 0x510 1952) (record.take 0xCB0) (slice record 0xCB0 3309) = false → t = s.admin w stTagFail 0) := by
  refine ⟨_, exec_setMigrationTarget ha hg hlo hhi, fun signed => ?_, fun unsigned => ?_⟩
  · rw [if_pos signed]
    exact (State.migTarget_complete ..).trans (congrArg Ctrl.migTarget (State.ctrl_onCtrl_self ..))
  · rw [if_neg (by rw [unsigned]; exact Bool.false_ne_true)]

/-! ## Freeze and thaw (R489, R490) -/

theorem migrateFreeze_begins (ha : s.adminReady w = true) (hg : s.migrateGate w f = true) (hflr : (s.ctrl f).flr = none)
    (hno : (s.ctrl f).freeze = .none) : exec (.migrateFreeze w f) s = .next (s.freezeBegin w f) := by
  show execMigrateFreeze w f s = _
  simp [execMigrateFreeze, ha, hg, hflr, hno]

/-- The state of a function that a freeze finds idle. -/
def State.frozenIdle (s : State) (w : Who) (f : Fn) : State :=
  (((s.onDisp fun d => { d with waiting := d.waiting.filter fun x => x.who.fn ≠ f }).onFtl fun t =>
    { t with waiting := t.waiting.filter fun x => !x.freezable f }).onCtrl f fun c => { c with held := [], freeze := .freezing w }).onCtrl f
    fun c => { c with freeze := .frozen }

/-- A freeze that finds nothing to wait for is done at once. -/
theorem freezeBegin_idle (hwait : ∀ x ∈ s.disp.waiting, x.who.fn ≠ f) (hflows : flowsOf s f = [])
    (hwrites : ∀ x ∈ s.ftl.waiting, x.freezable f = false) (hcmds : ∀ x ∈ (s.ctrl f).fetched, x.sq = 0 ∧ x.cid ∈ (s.ctrl f).aers) :
    s.freezeBegin w f = (s.frozenIdle w f).admin w stOk 0 := by
  have no_submits : s.disp.waiting.filter (fun x => x.who.fn = f) = [] := by simpa [List.filter_eq_nil_iff] using hwait
  have no_writes : s.ftl.waiting.filter (fun x => x.freezable f) = [] := by simpa [List.filter_eq_nil_iff] using hwrites
  let s1 := s.onDisp fun d => { d with waiting := d.waiting.filter fun x => x.who.fn ≠ f }
  let s2 := (s1.onFtl fun t => { t with waiting := t.waiting.filter fun x => !x.freezable f }).onCtrl f fun c =>
    { c with held := [], freeze := .freezing w }
  have ctrl2 : s2.ctrl f = { s.ctrl f with held := [], freeze := .freezing w } := State.ctrl_onCtrl_self _ f _
  have flows1 : flowsOf s1 f = [] := hflows
  have flows2 : flowsOf s2 f = [] := hflows
  have done : freezeDone s2 f = true := by
    simp only [freezeDone, flows2, ctrl2, List.isEmpty_nil, Bool.true_and, List.all_eq_true]
    intro x hx
    simp [hcmds x hx]
  have begun : s.freezeBegin w f = s2.freezeCheck f := by
    simp only [State.freezeBegin, no_submits, List.map_nil, List.foldl_nil]
    rw [show flowsOf (s.onDisp fun d => { d with waiting := d.waiting.filter fun x => x.who.fn ≠ f }) f = [] from flows1]
    show (State.onCtrl _ f fun c => { c with held := (s.ftl.waiting.filter fun x => x.freezable f).map WaitingWrite.heldCmd, freeze := .freezing w }).freezeCheck f = _
    rw [no_writes]
    rfl
  rw [begun, State.freezeCheck, ctrl2]
  simp only [done, if_true]
  rfl

theorem migrateFreeze_idle (ha : s.adminReady w = true) (hg : s.migrateGate w f = true) (hflr : (s.ctrl f).flr = none)
    (hno : (s.ctrl f).freeze = .none) (hwait : ∀ x ∈ s.disp.waiting, x.who.fn ≠ f) (hflows : flowsOf s f = [])
    (hwrites : ∀ x ∈ s.ftl.waiting, x.freezable f = false) (hcmds : ∀ x ∈ (s.ctrl f).fetched, x.sq = 0 ∧ x.cid ∈ (s.ctrl f).aers) :
    Completes (.migrateFreeze w f) s fun t =>
      ∃ u : State, t = u.admin w stOk 0 ∧ (u.ctrl f).freeze = .frozen ∧ (u.ctrl f).held = [] ∧ OnlyChanges [.host, .disp, .ftl] s u := by
  refine ⟨_, migrateFreeze_begins ha hg hflr hno, s.frozenIdle w f, freezeBegin_idle hwait hflows hwrites hcmds, ?_⟩
  rw [State.frozenIdle, State.ctrl_onCtrl_self, State.ctrl_onCtrl_self]
  exact ⟨rfl, rfl, only_of_blank (by simp)⟩

theorem thaw_idle (ha : s.adminReady w = true) (hg : s.migrateGate w f = true) (hflr : (s.ctrl f).flr = none)
    (hfrozen : (s.ctrl f).freeze = .frozen) (hheld : (s.ctrl f).held = []) :
    ∃ u : State, exec (.thaw w f) s = .next (u.admin w stOk 0) ∧ (u.ctrl f).freeze = .none ∧ (u.ctrl f).restored = false ∧
      (u.ctrl f).migTarget = none ∧ OnlyChanges [.host] s u := by
  refine ⟨s.onCtrl f fun c => { c with freeze := .none, restored := false, held := [], migTarget := none }, ?_, ?_⟩
  · show execThaw w f s = _
    simp [execThaw, ha, hg, hflr, hfrozen, hheld]
  · rw [State.ctrl_onCtrl_self]
    exact ⟨rfl, rfl, rfl, s.onCtrl_only f _⟩

/-! ## Save and restore (R493 to R495) -/

/-- A blob for a target: the header, and the body sealed under it. -/
def sealedBlob (s : State) (f : Fn) (k : MigTarget) (seed secret : List Byte) : List Byte :=
  let header := blobHeader s f k seed secret
  let key := blobKey k.keyId (bytesOf 32 (Config.mlkemShared k.mlkemEk seed)) (bytesOf 48 (Config.ecdhShared secret k.ecdhPub))
  header ++ gcmSeal key (zeros 12) header (blobBody s f)

theorem migrateSave_seals {room : Nat} {k : MigTarget} (ha : s.adminReady w = true) (hg : s.migrateGate w f = true)
    (hflr : (s.ctrl f).flr = none) (hfrozen : (s.ctrl f).freeze = .frozen) (hk : (s.ctrl f).migTarget = some k)
    (hmax : room ≤ 16777216) (hfits : blobLen s f ≤ room) :
    ∃ (u : State) (bs : List Byte), exec (.migrateSave w f room) s = .next ((u.dataOut w bs).admin w stOk (w32 (blobLen s f))) ∧
      u.host = s.host ∧ OnlyChanges [.sea] s u := by
  refine ⟨((s.random 32).2.random 64).2,
    sealedBlob ((s.random 32).2.random 64).2 f k (s.random 32).1 ((s.random 32).2.random 64).1, ?_, rfl, only_of_blank (by simp)⟩
  show execMigrateSave w f room s = _
  rw [execMigrateSave, if_pos ha, if_neg (by simp [hg, hmax])]
  simp only [hfrozen, hk, hflr, if_neg (Nat.not_lt.mpr hfits)]
  rfl

/-- The key of a migration goes with the first restore that gets past the checks that need none. -/
theorem migrateRestore_checks {blob : List Byte} {k : MigKey} (ha : s.adminReady w = true) (hg : s.migrateGate w f = true)
    (hmax : blob.length ≤ 16777216) (hk : (s.ctrl f).migKey = some k) :
    ∃ u : State, (u.ctrl f).migKey = none ∧ OnlyChanges [.host] s u ∧
      Completes (.migrateRestore w f blob.length blob) s fun t =>
        (∀ st a b, restoreRefused s f blob.length blob = some (st, a, b) → t = s.admin2 w st a b) ∧
        (restoreRefused s f blob.length blob = none →
          (∀ body, gcmOpen (blobKey k.keyId (bytesOf 32 (Config.mlkemDecap k.secret (slice blob 0x10 1088)))
            (bytesOf 48 (Config.ecdhShared k.secret (slice blob 0x450 97)))) (zeros 12) (blob.take 1232) (blob.drop 1232) = some body →
            bodyRefused u f blob body = none → (blobCounts blob).keys = 0 → t = u.applyBlob w f blob body) ∧
          (gcmOpen (blobKey k.keyId (bytesOf 32 (Config.mlkemDecap k.secret (slice blob 0x10 1088)))
            (bytesOf 48 (Config.ecdhShared k.secret (slice blob 0x450 97)))) (zeros 12) (blob.take 1232) (blob.drop 1232) = none →
            t = u.admin w stTagFail 0)) := by
  have past_gate : ¬((!s.migrateGate w f) = true ∨ 16777216 < blob.length) := by simp [hg, hmax]
  refine ⟨s.onCtrl f fun c => { c with migKey := none }, by rw [State.ctrl_onCtrl_self], s.onCtrl_only f _, _, rfl, ?_, ?_⟩
  · intro st a b refused
    simp only [ha, if_true, if_neg past_gate, refused]
  · intro admitted
    refine ⟨fun body opened hbody hkeys => ?_, fun shut => ?_⟩
    · simp only [ha, if_true, if_neg past_gate, admitted, hk, opened, hbody, hkeys, ne_eq, not_true, false_and, if_false]
    · simp only [ha, if_true, if_neg past_gate, admitted, hk, shut]

end

/-- Settles O46: what each step of a migration does, clause by clause. -/
theorem instancesMigrate : Obligations.InstancesMigrate :=
  ⟨fun _ _ _ ha hg => getMigrationKey_makes ha hg,
   migrationKeyExpiry_forgets,
   fun _ _ _ _ ha hg hlo hhi => setMigrationTarget_verifies ha hg hlo hhi,
   fun _ _ _ ha hg hflr hno => migrateFreeze_begins ha hg hflr hno,
   fun _ _ _ ha hg hflr hno hwait hflows hwrites _ hcmds => migrateFreeze_idle ha hg hflr hno hwait hflows hwrites hcmds,
   fun _ _ _ ha hg hflr hfrozen hheld => thaw_idle ha hg hflr hfrozen hheld,
   fun _ _ _ _ _ ha hg hflr hfrozen hk hmax hfits => migrateSave_seals ha hg hflr hfrozen hk hmax hfits,
   fun _ _ _ _ _ ha hg hmax hk => migrateRestore_checks ha hg hmax hk⟩

end Sys2Proof.Machine
end

section
/-! PROOFS. The statement on sideband requests (O47). -/

namespace Sys2Proof.Machine

/-- A request that changes nothing of what it asks about. -/
def SbCmd.reads : SbCmd → Bool
  | .configSet .. | .vpdWrite .. | .tunnel .. => false
  | _ => true

section
variable {s : State} {tr : Nat} {cmd : SbCmd}

/-! ## A request arrives (R469) -/

/-- Firmware that serves is not in HIBERNATE while the G9 runs. -/
theorem not_hibernate_of_sbServes (hs : sbServes s = true) : ¬(s.power.effective = .hibernate ∧ s.power.waking.isNone = true ∧ s.running = true) := by
  rintro ⟨asleep, -, run⟩
  have phase : s.sys.phase = .running := of_decide_eq_true run
  simp [sbServes, asleep, phase] at hs

theorem sbArrive_served (hup : transportUp s tr = true) (hs : sbServes s = true) (hheld : sbHeld s tr = []) :
    s.sbArrive tr cmd = s.sbServe tr cmd := by
  simp only [State.sbArrive, hup, if_true, if_neg (not_hibernate_of_sbServes hs), hs, hheld, List.length_nil, and_self]

theorem sbArrive_waits (hup : transportUp s tr = true) (hawake : s.power.effective ≠ .hibernate)
    (hbusy : sbServes s = false ∨ sbHeld s tr ≠ []) :
    s.sbArrive tr cmd =
      if (sbHeld s tr).length < 5 then s.onHealth fun h => { h with sideband := h.sideband ++ [⟨tr, false, cmd⟩] }
      else s.addLife (lifeEvent 9) 1 := by
  have not_now : ¬(sbServes s = true ∧ (sbHeld s tr).length = 0) := by
    rintro ⟨serves, free⟩
    exact hbusy.elim (fun h => by simp [h] at serves) (· (List.eq_nil_of_length_eq_zero free))
  simp only [State.sbArrive, hup, if_true, hawake, false_and, if_false, if_neg not_now]

theorem sbServe_reads (hc : cmd.reads = true) : s.sbServe tr cmd = s.answer tr (sbAnswer s tr cmd) := by
  have no_log : cmd ≠ .tunnel 0x02 0xC0 := by rintro rfl; exact nomatch hc
  have no_effect : s.sbEffect tr cmd = s := by
    unfold State.sbEffect
    split
    · rfl
    · split
      · exact nomatch hc
      · exact nomatch hc
      · rfl
  simp only [State.sbServe, if_neg no_log, no_effect]

/-- A reading request that firmware can answer is answered at once. -/
theorem sbArrive_reads (hup : transportUp s tr = true) (hs : sbServes s = true) (hheld : sbHeld s tr = []) (hc : cmd.reads = true) :
    s.sbArrive tr cmd = s.answer tr (sbAnswer s tr cmd) :=
  (sbArrive_served hup hs hheld).trans (sbServe_reads hc)

/-! ## NVMe-MI (R467, R468) -/

theorem State.answer_sent (s : State) (tr : Nat) (a : SbAnswer) : (s.answer tr a).host.sent = s.host.sent ++ [.sideband tr a] := rfl

theorem mem_fnsOf_of_valid {n : Nat} (hlt : n < 512) (hmod : n % 256 ≤ 127) : n ∈ fnsOf .a ++ fnsOf .b := by
  rcases Nat.lt_or_ge n 256 with low | high
  · exact List.mem_append_left _ (List.mem_map.mpr ⟨n, List.mem_range.mpr (by omega), rfl⟩)
  · exact List.mem_append_right _ (List.mem_map.mpr ⟨n - 256, List.mem_range.mpr (by omega), Nat.sub_add_cancel high⟩)

/-- Its controller identifier finds a function that exists. -/
theorem find_controllerId {f : Fn} (hf : s.fnExists f = true) (hlt : f < 512) :
    ((fnsOf .a ++ fnsOf .b).find? fun g => s.fnExists g && decide (controllerId g = controllerId f)) = some f := by
  have valid := (Bool.and_eq_true _ _ ▸ hf : fnValid f = true ∧ _).1
  simp only [fnValid, Bool.and_eq_true, decide_eq_true_eq] at valid
  have found : ((fnsOf .a ++ fnsOf .b).find? fun g => s.fnExists g && decide (controllerId g = controllerId f)).isSome = true :=
    List.find?_isSome.mpr ⟨f, mem_fnsOf_of_valid hlt valid.2, by simp [hf]⟩
  obtain ⟨g, hg⟩ := Option.isSome_iff_exists.mp found
  obtain ⟨-, same⟩ : s.fnExists g = true ∧ controllerId g = controllerId f := by simpa using List.find?_some hg
  rw [hg, Nat.succ.inj same]

theorem sbAnswer_controllerHealth {f : Fn} (hf : s.fnExists f = true) (hlt : f < 512) :
    sbAnswer s tr (.controllerHealth (controllerId f)) = .data (controllerHealth s f) := by
  rw [sbAnswer, find_controllerId hf hlt]

section
variable (hup : transportUp s tr = true) (hs : sbServes s = true) (hheld : sbHeld s tr = []) (hmi : tr < 3)
include hup hs hheld hmi

theorem miArrive_served : s.miArrive tr cmd = s.sbServe tr cmd := by
  rw [State.miArrive, if_pos hmi, sbArrive_served hup hs hheld]

theorem miArrive_reads (hc : cmd.reads = true) : s.miArrive tr cmd = s.answer tr (sbAnswer s tr cmd) :=
  (miArrive_served hup hs hheld hmi).trans (sbServe_reads hc)

theorem configurationSet_keeps {khz mtu : Nat} (hk : khz = 100 ∨ khz = 400 ∨ khz = 1000) (hm : mtuAllowed tr mtu = true) :
    Completes (.configurationSet tr (some khz) (some mtu)) s fun t =>
      t.health.smbusKhz = khz ∧ t.health.mtu.find tr = some mtu ∧ OnlyChanges [.health, .host] s t := by
  have done : s.sbServe tr (.configSet (some khz) (some mtu)) =
      (s.onHealth fun h => { h with smbusKhz := khz, mtu := h.mtu.set tr mtu }).answer tr (.data []) := by
    simp [State.sbServe, State.sbEffect, sbAnswer, hm, or_assoc, hk]
  exact ⟨_, congrArg Host.Outcome.next ((miArrive_served hup hs hheld hmi).trans done), rfl, Tbl.find_set_self _ _ _, only_of_blank (by simp)⟩

theorem vpdRead_answers {off len : Nat} (hin : off + len ≤ 256) :
    exec (.vpdRead tr off len) s = .next (s.answer tr (.data (Mem.readBytes s.health.vpd off len))) := by
  refine congrArg Host.Outcome.next ((miArrive_reads hup hs hheld hmi rfl).trans ?_)
  rw [sbAnswer, if_pos hin]

theorem vpdWrite_keeps {off : Nat} {data : List Byte} (hin : off + data.length ≤ 256) :
    Completes (.vpdWrite tr off data) s fun t =>
      Mem.readBytes t.health.vpd off data.length = data ∧
      (∀ a, a < off ∨ off + data.length ≤ a → t.health.vpd.read a = s.health.vpd.read a) ∧ OnlyChanges [.health, .host] s t := by
  have done : s.sbServe tr (.vpdWrite off data) =
      (s.onHealth fun h => { h with vpd := Mem.writeBytes h.vpd off data }).answer tr (.data []) := by
    simp [State.sbServe, State.sbEffect, sbAnswer, hin]
  exact ⟨_, congrArg Host.Outcome.next ((miArrive_served hup hs hheld hmi).trans done), Mem.readBytes_writeBytes _ off data,
    fun a ha => Mem.read_writeBytes_other _ off a data ha, only_of_blank (by simp)⟩

theorem tunnelled_answers (op arg : Nat) :
    Completes (.tunnelledAdminCommand tr op arg) s fun t => ∃ a, t.host.sent = s.host.sent ++ [.sideband tr a] ∧
      (op ≠ 0x02 ∧ op ≠ 0x06 ∧ op ≠ 0x0A → a = .invalidOpcode) ∧ OnlyChanges [.health, .host] s t := by
  let u := if SbCmd.tunnel op arg = .tunnel 0x02 0xC0 then s.noteSummary else s
  have only_health : OnlyChanges [.health] s u := by
    unfold u
    split
    · exact only_of_blank (by simp)
    · exact OnlyChanges.refl _ s
  have no_effect : u.sbEffect tr (.tunnel op arg) = u := by simp [State.sbEffect]
  have done : s.miArrive tr (.tunnel op arg) = u.answer tr (tunnelAnswer u (sidebandFn tr) op arg) := by
    rw [miArrive_served hup hs hheld hmi]
    show (u.sbEffect tr (.tunnel op arg)).answer tr (sbAnswer u tr (.tunnel op arg)) = _
    rw [no_effect]
    rfl
  refine ⟨_, congrArg Host.Outcome.next done, tunnelAnswer u (sidebandFn tr) op arg, ?_, fun other => ?_, ?_⟩
  · rw [State.answer_sent, only_health .host (by decide)]
  · unfold tunnelAnswer
    split <;> simp_all
  · exact OnlyChanges.trans (only_health.mono (by simp)) (only_of_blank (by simp))

end

theorem requests_answered (hup : transportUp s tr = true) (hs : sbServes s = true) (hheld : sbHeld s tr = []) :
    (tr < 3 →
      (∀ k, exec (.readNvmeMiDataStructure tr k) s = .next (s.answer tr (sbAnswer s tr (.structure_ k)))) ∧
      exec (.nvmSubsystemHealthStatusPoll tr) s = .next (s.answer tr (.data (subsystemHealth s))) ∧
      (∀ (f : Fn), s.fnExists f = true → f < 512 → exec (.controllerHealthStatusPoll tr (controllerId f)) s =
        .next (s.answer tr (.data (controllerHealth s f)))) ∧
      (∀ m, exec (.configurationGet tr m) s =
        .next (s.answer tr (.data (if m then leBytes 2 (s.health.mtu.getD tr 64) else leBytes 1 (smbusCode s.health.smbusKhz))))) ∧
      (∀ khz mtu, khz = 100 ∨ khz = 400 ∨ khz = 1000 → mtuAllowed tr mtu = true →
        Completes (.configurationSet tr (some khz) (some mtu)) s fun t =>
          t.health.smbusKhz = khz ∧ t.health.mtu.find tr = some mtu ∧ OnlyChanges [.health, .host] s t) ∧
      (∀ off len, off + len ≤ 256 → exec (.vpdRead tr off len) s =
        .next (s.answer tr (.data (Mem.readBytes s.health.vpd off len)))) ∧
      (∀ (off : Nat) (data : List Byte), off + data.length ≤ 256 → Completes (.vpdWrite tr off data) s fun t =>
        Mem.readBytes t.health.vpd off data.length = data ∧
        (∀ a, a < off ∨ off + data.length ≤ a → t.health.vpd.read a = s.health.vpd.read a) ∧ OnlyChanges [.health, .host] s t) ∧
      (∀ op arg, Completes (.tunnelledAdminCommand tr op arg) s fun t => ∃ a, t.host.sent = s.host.sent ++ [.sideband tr a] ∧
        (op ≠ 0x02 ∧ op ≠ 0x06 ∧ op ≠ 0x0A → a = .invalidOpcode) ∧ OnlyChanges [.health, .host] s t)) ∧
    (∀ code nonce, exec (.spdmRequest tr code nonce) s = .next (s.answer tr (spdmAnswer s code nonce))) ∧
    (∀ seq count, exec (.ledgerGet tr seq count) s = .next (s.answer tr (sbAnswer s tr (.ledgerGet seq count)))) ∧
    exec (.certMldsa tr) s = .next (s.answer tr (.data (Config.certificate 1 []))) :=
  ⟨fun hmi =>
    ⟨fun _ => congrArg Host.Outcome.next (miArrive_reads hup hs hheld hmi rfl),
     congrArg Host.Outcome.next (miArrive_reads hup hs hheld hmi rfl),
     fun _ hf hlt => congrArg Host.Outcome.next
      ((miArrive_reads hup hs hheld hmi rfl).trans (congrArg (s.answer tr) (sbAnswer_controllerHealth hf hlt))),
     fun _ => congrArg Host.Outcome.next (miArrive_reads hup hs hheld hmi rfl),
     fun _ _ hk hm => configurationSet_keeps hup hs hheld hmi hk hm,
     fun _ _ hin => vpdRead_answers hup hs hheld hmi hin,
     fun _ _ hin => vpdWrite_keeps hup hs hheld hmi hin,
     fun op arg => tunnelled_answers hup hs hheld hmi op arg⟩,
   fun _ _ => congrArg Host.Outcome.next (sbArrive_reads hup hs hheld rfl),
   fun _ _ => congrArg Host.Outcome.next (sbArrive_reads hup hs hheld rfl),
   congrArg Host.Outcome.next (sbArrive_reads hup hs hheld rfl)⟩

/-! ## Requests that wait (R469) -/

theorem certMldsa_held (hup : transportUp s tr = true) (hawake : s.power.effective ≠ .hibernate)
    (hbusy : sbServes s = false ∨ sbHeld s tr ≠ []) (hroom : (sbHeld s tr).length < 5) :
    Completes (.certMldsa tr) s fun t =>
      t.health = { s.health with sideband := s.health.sideband ++ [⟨tr, false, .certMldsa⟩] } ∧ OnlyChanges [.health] s t :=
  ⟨s.onHealth fun h => { h with sideband := h.sideband ++ [⟨tr, false, .certMldsa⟩] },
   congrArg Host.Outcome.next ((sbArrive_waits hup hawake hbusy).trans (if_pos hroom)), rfl, only_of_blank (by simp)⟩

theorem certMldsa_dropped (hup : transportUp s tr = true) (hawake : s.power.effective ≠ .hibernate)
    (hbusy : sbServes s = false ∨ sbHeld s tr ≠ []) (hfull : 5 ≤ (sbHeld s tr).length) :
    Completes (.certMldsa tr) s fun t =>
      t.health.sideband = s.health.sideband ∧ t.life (lifeEvent 9) = Nat.min (2 ^ 64 - 1) (s.life (lifeEvent 9) + 1) ∧
      OnlyChanges [.health] s t := by
  refine ⟨s.addLife (lifeEvent 9) 1,
    congrArg Host.Outcome.next ((sbArrive_waits hup hawake hbusy).trans (if_neg (Nat.not_lt.mpr hfull))), ?_,
    s.life_addLife_self _ _, s.addLife_only _ _⟩
  unfold State.addLife State.bumpGen
  split <;> rfl

/-- The oldest request that a transport holds is one of those held. -/
theorem mem_of_sbHeld {q : SbReq} {qs : List SbReq} (hq : sbHeld s tr = q :: qs) : q ∈ s.health.sideband :=
  List.mem_of_mem_filter (hq ▸ List.mem_cons_self : q ∈ sbHeld s tr)

theorem sbDrop_erases {q : SbReq} {qs : List SbReq} (hq : sbHeld s tr = q :: qs) :
    s.sbDrop tr = s.onHealth fun h => { h with sideband := h.sideband.erase q } := by
  simp only [State.sbDrop, hq]

theorem miResponseTimeout_tells {q : SbReq} {qs : List SbReq} (hq : sbHeld s tr = q :: qs) :
    Completes (.miResponseTimeout tr) s fun t =>
      t.host.sent = s.host.sent ++ [.sideband tr (if q.waited then .internalError else .moreProcessing)] ∧
      (q.waited = true → t.health.sideband = s.health.sideband.erase q) ∧
      (q.waited = false → { q with waited := true } ∈ t.health.sideband) ∧ OnlyChanges [.health, .host] s t := by
  have run : exec (.miResponseTimeout tr) s = .next (
      if q.waited then (s.onHealth fun h => { h with sideband := h.sideband.erase q }).answer tr .internalError
      else (s.onHealth fun h => { h with sideband := h.sideband.map fun x => if x = q then { q with waited := true } else x }).answer tr
        .moreProcessing) := by
    show execMiResponseTimeout tr s = _
    simp only [execMiResponseTimeout, hq, sbDrop_erases hq]
  refine ⟨_, run, ?_⟩
  cases hw : q.waited
  · refine ⟨rfl, nofun, fun _ => ?_, only_of_blank (by simp)⟩
    exact List.mem_map.mpr ⟨q, mem_of_sbHeld hq, if_pos rfl⟩
  · exact ⟨rfl, fun _ => rfl, nofun, only_of_blank (by simp)⟩

end

/-- Settles O47: what becomes of each request, clause by clause. -/
theorem sidebandRequests : Obligations.SidebandRequests :=
  ⟨fun _ _ hup hs hheld => requests_answered hup hs hheld,
   fun _ _ hup hawake hbusy => ⟨certMldsa_held hup hawake hbusy, certMldsa_dropped hup hawake hbusy⟩,
   fun _ hon => congrArg Host.Outcome.next (if_neg hon),
   fun _ _ _ _ hq => miResponseTimeout_tells hq,
   fun _ _ _ hq => congrArg Host.Outcome.next (sbDrop_erases hq)⟩

end Sys2Proof.Machine
end

section
/-! PROOFS. The statement on firmware that is downloaded and committed (O50). -/

namespace Sys2Proof.Machine

/-! ## Chunks, and tables that are filled in order -/

/-- Whole chunks, one after the other. -/
theorem chunksFuel_getElem? {α : Type} {n : Nat} (hn : 0 < n) (fuel k : Nat) (xs : List α) (hf : xs.length ≤ fuel) (hk : n * k < xs.length) :
    (chunksFuel n fuel xs)[k]? = some ((xs.drop (n * k)).take n) := by
  induction fuel generalizing k xs with
  | zero => omega
  | succ fuel ih =>
    cases xs with
    | nil => simp at hk
    | cons x xs =>
      cases k with
      | zero => simp [chunksFuel]
      | succ k =>
        have left : ((x :: xs).drop n).length ≤ fuel := by simp at hf ⊢; omega
        have more : n * k < ((x :: xs).drop n).length := by rw [List.length_drop]; rw [Nat.mul_succ] at hk; omega
        have next := ih k ((x :: xs).drop n) left more
        rw [List.drop_drop] at next
        simpa [chunksFuel, Nat.mul_succ, Nat.add_comm] using next

theorem chunksFuel_length {α : Type} {n : Nat} (hn : 0 < n) (fuel : Nat) (xs : List α) (hf : xs.length ≤ fuel) (hmod : xs.length % n = 0) :
    (chunksFuel n fuel xs).length = xs.length / n := by
  induction fuel generalizing xs with
  | zero => simp [chunksFuel, Nat.le_zero.mp hf]
  | succ fuel ih =>
    cases xs with
    | nil => simp [chunksFuel]
    | cons x xs =>
      have whole : n ≤ (x :: xs).length := Nat.le_of_dvd (by simp) (Nat.dvd_of_mod_eq_zero hmod)
      have left : ((x :: xs).drop n).length ≤ fuel := by simp at hf ⊢; omega
      have rest := ih ((x :: xs).drop n) left (by rw [List.length_drop, ← Nat.mod_eq_sub_mod whole, hmod])
      rw [List.length_drop] at rest
      rw [Nat.div_eq_sub_div hn whole, ← rest]
      rfl

theorem Tbl.find_foldl_set {α : Type} (t : Tbl α) (a : Nat) (g : Nat → α) (n p : Nat) :
    Tbl.find ((List.range n).foldl (fun t i => Tbl.set t (a + i) (g i)) t) p =
      if a ≤ p ∧ p < a + n then some (g (p - a)) else Tbl.find t p := by
  induction n with
  | zero => simp
  | succ n ih =>
    rw [List.range_succ, List.foldl_append, List.foldl_cons, List.foldl_nil, Tbl.find_set, ih]
    by_cases last : p = a + n
    · subst last
      simp
    · rw [if_neg last]
      exact if_congr (by omega) rfl rfl

/-! ## The slots -/

theorem Boot.slotImage_setSlot {b : Boot} {slot : Nat} (i : Option FwImage) (hslot : slot = 1 ∨ slot = 2) :
    (b.setSlot slot i).slotImage slot = i ∧ (b.setSlot slot i).slotImage (3 - slot) = b.slotImage (3 - slot) := by
  rcases hslot with rfl | rfl
  · exact ⟨rfl, rfl⟩
  · exact ⟨rfl, rfl⟩

theorem Boot.setSlot_selector (b : Boot) (slot : Nat) (i : Option FwImage) : (b.setSlot slot i).selector = b.selector := by
  unfold Boot.setSlot; split <;> rfl

theorem Boot.setSlot_download (b : Boot) (slot : Nat) (i : Option FwImage) : (b.setSlot slot i).download = b.download := by
  unfold Boot.setSlot; split <;> rfl

theorem Boot.setSlot_appends (b : Boot) (slot : Nat) (i : Option FwImage) : (b.setSlot slot i).appends = b.appends := by
  unfold Boot.setSlot; split <;> rfl

/-- An append that is requested waits behind the others. -/
theorem State.requestAppend_boot (s : State) (a : Append) :
    (s.requestAppend a).boot = { s.boot with appends := s.boot.appends ++ [a] } := by
  unfold State.requestAppend
  dsimp only
  split
  · exact State.sysBegin_only _ _ .boot (by decide)
  · rfl

theorem commitSlot_eq (b : Boot) {slot : Nat} (hslot : slot = 1 ∨ slot = 2) : commitSlot b slot = slot :=
  if_neg (by omega)

/-! ## Downloads and commits (R507, R508) -/

section
variable {s : State} {w : Who} {slot : Nat}

/-- The pages of a download, staged. -/
def Boot.stage (b : Boot) (off : Nat) (data : List Byte) : Boot :=
  let pages := chunksOf 4096 data
  { b with download := (List.range pages.length).foldl (fun t i => Tbl.set t (off / 4096 + i) (pages.getD i [])) b.download }

theorem firmwareImageDownload_stages {off : Nat} {data : List Byte} (ha : s.adminReady w = true) (hm : isManager w.fn = true)
    (hoff : off % 4096 = 0) (hlen : data.length % 4096 = 0) (hfits : off + data.length ≤ 12 * 2 ^ 20) :
    ∃ u : State, exec (.firmwareImageDownload w off data) s = .next (u.admin w stOk 0) ∧ OnlyChanges [.boot] s u ∧
      (∀ k, k < data.length / 4096 → Tbl.find u.boot.download (off / 4096 + k) = some (slice data (4096 * k) 4096)) ∧
      ∀ p, p < off / 4096 ∨ (off + data.length) / 4096 ≤ p → Tbl.find u.boot.download p = Tbl.find s.boot.download p := by
  have pages : (chunksOf 4096 data).length = data.length / 4096 := chunksFuel_length (by decide) _ _ (le_refl _) hlen
  have staged (p : Nat) : Tbl.find (s.boot.stage off data).download p =
      if off / 4096 ≤ p ∧ p < off / 4096 + data.length / 4096 then some ((chunksOf 4096 data).getD (p - off / 4096) []) else
        Tbl.find s.boot.download p := by
    rw [Boot.stage, Tbl.find_foldl_set, pages]
  refine ⟨s.onBoot fun b => b.stage off data, ?_, only_of_blank (by simp [Boot.stage]), fun k hk => ?_, fun p hp => ?_⟩
  · show execFirmwareImageDownload w off data s = _
    rw [execFirmwareImageDownload, if_neg (by simp [ha]), if_neg (by simp [hm]), if_neg (by omega)]
    rfl
  · refine (staged _).trans ?_
    have page := chunksFuel_getElem? (n := 4096) (by decide) data.length k data (le_refl _) (by omega)
    have whole : 4096 ≤ data.length - 4096 * k := by omega
    rw [if_pos (by omega), Nat.add_sub_cancel_left, List.getD_eq_getElem?_getD, chunksOf, page]
    simp [slice, padTo, zeros, Nat.sub_eq_zero_of_le whole]
  · exact (staged p).trans (if_neg (by omega))

/-- What a commit that names a slot does once the checks before the image are passed. -/
theorem commitWrite_eq {i : FwImage} (action : Nat) (hm : isManager w.fn = true) (hslot : slot = 1 ∨ slot = 2) (hrun : slot ≠ s.boot.running) :
    s.commitWrite w slot i action =
      if stagedReason s.boot i ≠ 0 then
        (s.onBoot fun b => { b with download := [] }).admin w stInvalidField (w32 (stagedReason s.boot i))
      else if !s.appendRoom then s.admin w Config.appendFailStatus 0
      else (s.onBoot fun b => { b with download := [] }).onBoot fun b =>
        { b.setSlot slot none with commits := b.commits ++ [{ who := w, action := action, slot := slot, image := i }] } := by
  have named : ¬(slot ≠ 1 ∧ slot ≠ 2) := by omega
  simp only [State.commitWrite, commitSlot_eq _ hslot, hm, Bool.not_true, Bool.false_eq_true, if_false, if_neg named, if_neg hrun]

/-- A commit of a valid staged image begins to write its slot. -/
theorem commitWrite_begins {i : FwImage} (action : Nat) (hm : isManager w.fn = true) (hslot : slot = 1 ∨ slot = 2)
    (hrun : slot ≠ s.boot.running) (hok : stagedReason s.boot i = 0) (hroom : s.appendRoom = true) :
    let t := s.commitWrite w slot i action
    t.boot.slotImage slot = none ∧ t.boot.slotImage (3 - slot) = s.boot.slotImage (3 - slot) ∧ t.boot.selector = s.boot.selector ∧
      t.boot.download = [] ∧ t.boot.commits = s.boot.commits ++ [⟨w, action, slot, i⟩] ∧ OnlyChanges [.boot] s t := by
  dsimp only
  rw [commitWrite_eq action hm hslot hrun, if_neg (by simp [hok]), if_neg (by simp [hroom])]
  have slots := Boot.slotImage_setSlot (b := { s.boot with download := [] }) none hslot
  have cleared : OnlyChanges [.boot] s (s.onBoot fun b => { b with download := [] }) := only_of_blank (by simp)
  exact ⟨slots.1, slots.2, Boot.setSlot_selector _ slot none, Boot.setSlot_download _ slot none, rfl,
    OnlyChanges.trans cleared (only_of_blank (State.onBoot_blank _ _ (by simp) (Boot.setSlot_image ..) (Boot.setSlot_fuseSvn ..) (Boot.setSlot_revoked ..)))⟩

theorem exec_firmwareCommitWrite (slot : Nat) (m e : Bool) (ha : s.adminReady w = true) :
    exec (.firmwareCommitWrite w slot m e) s = .next (s.commitWrite w slot (FwImage.read s.boot.staged m e) 0) := if_pos ha
theorem exec_firmwareCommitWritePending (slot : Nat) (m e : Bool) (ha : s.adminReady w = true) :
    exec (.firmwareCommitWritePending w slot m e) s = .next (s.commitWrite w slot (FwImage.read s.boot.staged m e) 1) := if_pos ha

theorem firmwareCommitWrite_refused (m e : Bool) (ha : s.adminReady w = true) (hm : isManager w.fn = true) (hslot : slot = 1 ∨ slot = 2)
    (hrun : slot ≠ s.boot.running) (hbad : stagedReason s.boot (FwImage.read s.boot.staged m e) ≠ 0) :
    ∃ u : State, exec (.firmwareCommitWrite w slot m e) s =
        .next (u.admin w stInvalidField (w32 (stagedReason s.boot (FwImage.read s.boot.staged m e)))) ∧
      u.boot = { s.boot with download := [] } ∧ OnlyChanges [.boot] s u :=
  ⟨s.onBoot fun b => { b with download := [] },
   (exec_firmwareCommitWrite slot m e ha).trans (congrArg Host.Outcome.next ((commitWrite_eq 0 hm hslot hrun).trans (if_pos hbad))), rfl,
   only_of_blank (by simp)⟩

/-- The selector that a written commit leaves. -/
def Selector.committed (x : Selector) (c : CommitJob) : Selector :=
  let y := if c.slot = 1 then { x with failedA := false } else { x with failedB := false }
  if c.action = 1 then { y with pending := c.slot, tries := 0 } else y

theorem Selector.committed_failed (x : Selector) {c : CommitJob} (hslot : c.slot = 1 ∨ c.slot = 2) :
    (x.committed c).failed c.slot = false := by
  rcases hslot with h | h
  · simp [Selector.committed, Selector.failed, h, apply_ite Selector.failedA]
  · simp [Selector.committed, Selector.failed, h, apply_ite Selector.failedB]

theorem Selector.committed_pending (x : Selector) (c : CommitJob) :
    (x.committed c).pending = if c.action = 1 then c.slot else x.pending := by
  simp [Selector.committed, apply_ite Selector.pending]

/-- The selector, with the next sequence number, is written with what a commit leaves. -/
theorem commitStep_boot {c : CommitJob} {rest : List CommitJob} (hrun : s.running = true) (hup : s.up .ctrl = true)
    (hc : s.boot.commits = c :: rest) :
    s.commitStep.boot = { ({ s.boot.setSlot c.slot (some c.image) with commits := rest } : Boot).select fun x => x.committed c with
      appends := s.boot.appends ++ [commitAppend c.who c.action c.slot c.image] } := by
  simp only [State.commitStep, hc, hrun, hup, and_self, if_true]
  rw [State.addLife_only _ _ _ .boot (by decide), State.requestAppend_boot]
  refine congrArg (fun a => { ({ s.boot.setSlot c.slot (some c.image) with commits := rest } : Boot).select fun x => x.committed c with appends := a }) ?_
  exact congrArg (· ++ _) (Boot.setSlot_appends _ _ _)

theorem commitStep_only {c : CommitJob} {rest : List CommitJob} (hrun : s.running = true) (hup : s.up .ctrl = true)
    (hc : s.boot.commits = c :: rest) : OnlyChanges [.boot, .media, .health] s s.commitStep := by
  simp only [State.commitStep, hc, hrun, hup, and_self, if_true]
  have written : OnlyChanges [.boot, .media, .health] s (s.onBoot fun b =>
      ({ b.setSlot c.slot (some c.image) with commits := rest }).select fun x => x.committed c) :=
    only_of_blank (State.onBoot_blank _ _ (by simp) (Boot.setSlot_image ..) (Boot.setSlot_fuseSvn ..) (Boot.setSlot_revoked ..))
  exact OnlyChanges.trans written (only_of_blank (by simp))

theorem commitStep_writes {c : CommitJob} {rest : List CommitJob} (hrun : s.running = true) (hup : s.up .ctrl = true)
    (hc : s.boot.commits = c :: rest) (hslot : c.slot = 1 ∨ c.slot = 2) :
    s.commitStep.boot.slotImage c.slot = some c.image ∧ s.commitStep.boot.slotImage (3 - c.slot) = s.boot.slotImage (3 - c.slot) ∧
    s.commitStep.boot.selector.failed c.slot = false ∧
    s.commitStep.boot.selector.pending = (if c.action = 1 then c.slot else s.boot.selector.pending) ∧
    s.commitStep.boot.commits = rest ∧
    s.commitStep.boot.appends = s.boot.appends ++ [commitAppend c.who c.action c.slot c.image] ∧
    OnlyChanges [.boot, .media, .health] s s.commitStep := by
  have slots := Boot.slotImage_setSlot (b := s.boot) (some c.image) hslot
  refine ⟨?_, ?_, ?_, ?_, ?_, ?_, commitStep_only hrun hup hc⟩
  all_goals rw [commitStep_boot hrun hup hc]
  · exact slots.1
  · exact slots.2
  · exact Selector.committed_failed _ hslot
  · exact (Selector.committed_pending _ c).trans (by rw [Boot.setSlot_selector])
  · rfl

/-- A slot with a valid image becomes the one to try next. -/
theorem firmwareCommitPending_sets {i : FwImage} (ha : s.adminReady w = true) (hm : isManager w.fn = true) (hslot : slot = 1 ∨ slot = 2)
    (hrun : slot ≠ s.boot.running) (hi : s.boot.slotImage slot = some i) (hok : imageValid s.boot i = true) (hroom : s.appendRoom = true) :
    Completes (.firmwareCommitPending w slot) s fun t =>
      t.boot.selector.pending = slot ∧ t.boot.slotA = s.boot.slotA ∧ t.boot.slotB = s.boot.slotB ∧
      t.boot.appends = s.boot.appends ++ [commitAppend w 2 slot i] ∧ OnlyChanges [.boot, .media, .health] s t := by
  have named : ¬(slot ≠ 1 ∧ slot ≠ 2) := by omega
  have run : exec (.firmwareCommitPending w slot) s = .next (((s.onBoot fun b =>
      { b.select (fun x => { x with pending := slot, tries := 0 }) with download := [] }).requestAppend
        (commitAppend w 2 slot i)).addLife (lifeEvent 11) 1) := by
    show execFirmwareCommitPending w slot s = _
    simp only [execFirmwareCommitPending, commitSlot_eq _ hslot, ha, hm, hi, hok, hroom, if_neg named, if_neg hrun, Bool.not_true,
      Bool.false_eq_true, if_false]
  refine ⟨_, run, ?_⟩
  beta_reduce
  rw [State.addLife_only _ _ _ .boot (by decide), State.requestAppend_boot]
  exact ⟨rfl, rfl, rfl, rfl, only_of_blank (by simp)⟩

end

/-- Settles O50: what a download and each commit leave, clause by clause. -/
theorem firmwareIsCommitted : Obligations.FirmwareIsCommitted :=
  ⟨fun _ _ _ _ ha hm hoff hlen hfits => firmwareImageDownload_stages ha hm hoff hlen hfits,
   fun _ _ slot m e _ ha hm hslot hrun hi hok hroom => by
    subst hi
    exact ⟨⟨_, exec_firmwareCommitWrite slot m e ha, commitWrite_begins 0 hm hslot hrun hok hroom⟩,
      ⟨_, exec_firmwareCommitWritePending slot m e ha, commitWrite_begins 1 hm hslot hrun hok hroom⟩⟩,
   fun _ _ _ hrun hup hc hslot => commitStep_writes hrun hup hc hslot,
   fun _ _ _ _ ha hm hslot hrun hi hok hroom => firmwareCommitPending_sets ha hm hslot hrun hi hok hroom,
   fun _ _ _ m e _ ha hm hslot hrun hi hbad => by
    subst hi
    exact firmwareCommitWrite_refused m e ha hm hslot hrun hbad⟩

end Sys2Proof.Machine
end

section
/-! PROOFS. What resets leave alone: tighter frames for the operations of the media, the band writer and the reshape. -/

namespace Sys2Proof.Machine

/-! ## Frames and blanks -/

theorem ite_same_of {α : Type} {c : Prop} [Decidable c] (d : α) {x y : α} (h : ¬c → x = y) : (if c then d else x) = if c then d else y := by
  split
  · rfl
  · exact h ‹_›

/-- Where only some parts differ, the blanks of those parts are equal. -/
theorem blank_of_only {ps : List Part} {s t : State} (h : OnlyChanges ps s t) : t.blank ps = s.blank ps := by
  have boots : (t.blank ps).boot = (s.blank ps).boot := by
    simp only [State.blank]
    split
    · by_cases hf : Part.firmware ∈ ps
      · simp [hf]
      · obtain ⟨image, svn, revoked⟩ := h .firmware hf
        simp [hf, image, svn, revoked]
    · exact h .boot ‹_›
  simp only [State.blank] at boots
  simp only [State.blank, State.mk.injEq]
  exact ⟨ite_same_of _ (h .regs), ite_same_of _ (h .sys), ite_same_of _ (h .power), ite_same_of _ (h .board), ite_same_of _ (h .host),
    ite_same_of _ (h .ns), ite_same_of _ (h .ftl), ite_same_of _ (h .media), ite_same_of _ (h .str), ite_same_of _ (h .sea),
    ite_same_of _ (h .dgs), ite_same_of _ (h .lynx), ite_same_of _ (h .dma), ite_same_of _ (h .disp), ite_same_of _ (h .hrt),
    ite_same_of _ (h .memory), boots, ite_same_of _ (h .health), ite_same_of _ (h .free), ite_same_of _ (h .queue)⟩

/-! ## LUNs and the reshape -/

theorem State.lunNext_only (s : State) (l : Nat) : OnlyChanges [.media, .str] s (s.lunNext l) := only_of_blank (s.lunNext_blank_media_str l)

theorem State.enqueue_only (s : State) (l : Nat) (c : MediaCmd) : OnlyChanges [.media, .str] s (s.enqueue l c) :=
  OnlyChanges.trans (only_of_blank (by simp)) (State.lunNext_only _ l)

theorem State.eraseBlocks_only (s : State) (ms : List (Nat × Nat)) : OnlyChanges [.media, .str] s (s.eraseBlocks ms) :=
  OnlyChanges.foldl (fun t _ => t.enqueue_only _ _) _ s

theorem State.reshapeDying_only (s : State) (k : Nat) (x : Band) (ms : List (Nat × Nat)) :
    OnlyChanges [.media, .ftl, .str] s (s.reshapeDying k x ms) := by
  unfold State.reshapeDying
  dsimp only
  split
  · exact OnlyChanges.refl _ s
  · exact OnlyChanges.trans (only_of_blank (by simp)) ((State.eraseBlocks_only _ _).mono (by simp))

theorem State.reshapeFresh_only (s : State) (k p pages : Nat) : OnlyChanges [.media, .ftl, .str] s (s.reshapeFresh k p pages) := by
  unfold State.reshapeFresh
  cases s.str.reshape.newBands.find k with
  | none => exact OnlyChanges.refl _ s
  | some x =>
    dsimp only
    cases x.members[p]? with
    | none => exact OnlyChanges.refl _ s
    | some m =>
      dsimp only
      cases pickBlock (s.reshapeDying k x [m]) m.1 with
      | some b => exact OnlyChanges.trans (s.reshapeDying_only k x [m]) (only_of_blank (by simp))
      | none => exact OnlyChanges.trans (s.reshapeDying_only k x [m]) (only_of_blank (by simp))

theorem State.rewindReshape_only (s : State) : OnlyChanges [.media, .ftl, .str, .health] s s.rewindReshape := by
  unfold State.rewindReshape
  dsimp only
  cases s.str.reshape.region with
  | none => exact OnlyChanges.refl _ s
  | some r =>
    have fresh (t : State) (k p pages : Nat) : OnlyChanges [.media, .ftl, .str, .health] t (t.reshapeFresh k p pages) :=
      (t.reshapeFresh_only k p pages).mono (by simp)
    dsimp only
    refine OnlyChanges.trans ?_ (only_of_blank (State.onStr_blank _ _ (by simp)))
    refine OnlyChanges.trans ?_ (OnlyChanges.foldl (fun t p => fresh t s.str.reshape.slotIx p _) _ _)
    refine OnlyChanges.trans ?_ (OnlyChanges.foldl (fun t (r : Redo) => fresh t r.slotIx r.slot r.pages) _ _)
    exact s.reshapeStop_only.mono (by simp)

/-! ## What is neither up nor down, nor the strap: everything but the system state -/

/-- Every part but the system state. -/
def notSys : List Part :=
  [.regs, .power, .board, .host, .ns, .ftl, .media, .str, .sea, .dgs, .lynx, .dma, .disp, .hrt, .memory, .boot, .firmware, .health, .free,
   .queue]
@[simp] theorem mem_notSys (p : Part) : p ∈ notSys ↔ p ≠ .sys := by cases p <;> decide

theorem State.sys_of_blank {s t : State} (h : t.blank notSys = s.blank notSys) : t.sys = s.sys := only_of_blank h .sys (by simp)

theorem blank_of_sys {s t : State} (h : t.sys = s.sys) : t.blank notSys = s.blank notSys :=
  blank_of_only fun p hp => by
    obtain rfl : p = .sys := by simpa using hp
    exact h

@[simp ↓] theorem State.enqueue_blank_notSys (s : State) (l : Nat) (c : MediaCmd) : (s.enqueue l c).blank notSys = s.blank notSys :=
  blank_of_sys (s.enqueue_only l c .sys (by decide))
@[simp ↓] theorem State.eraseBlocks_blank_notSys (s : State) (ms : List (Nat × Nat)) : (s.eraseBlocks ms).blank notSys = s.blank notSys :=
  blank_of_sys (s.eraseBlocks_only ms .sys (by decide))
@[simp ↓] theorem State.rewindReshape_blank_notSys (s : State) : s.rewindReshape.blank notSys = s.blank notSys :=
  blank_of_sys (s.rewindReshape_only .sys (by decide))

@[simp ↓] theorem State.failTask_blank_notSys (s : State) (t : Task) (st : Status) : (s.failTask t st).blank notSys = s.blank notSys :=
  blank_of_sys ((State.failFlow_sys _ _ _ _ _).trans (freeTask_sys s t))
@[simp ↓] theorem State.failSink_blank_notSys (s : State) (e : Task) (st : Status) : (s.failSink e st).blank notSys = s.blank notSys := by
  simp [State.failSink]
@[simp ↓] theorem State.failWaiting_blank_notSys (s : State) (st : Status) : (s.failWaiting st).blank notSys = s.blank notSys := by
  unfold State.failWaiting
  extract_lets ws s1
  refine (blank_foldl _ (fun t w => ?_) ws s1).trans (by simp [s1])
  cases w.kind with
  | sink flow cslot k =>
    dsimp only
    cases t.flow flow with
    | none => rfl
    | some f =>
      dsimp only
      cases t.entry flow (Trail.sinkIx f.trail) cslot with
      | none => rfl
      | some e => simp
  | _ => simp
@[simp ↓] theorem State.spareUpdate_blank_notSys (s : State) : s.spareUpdate.blank notSys = s.blank notSys := by
  simp [State.spareUpdate]

/-! ## The band writer -/

@[simp ↓] theorem State.noBand_blank_notSys (s : State) : s.noBand.blank notSys = s.blank notSys := by
  simp [State.noBand]
@[simp ↓] theorem State.openBand_blank_notSys (s : State) (kind : BandKind) : (s.openBand kind).1.blank notSys = s.blank notSys := by
  unfold State.openBand
  dsimp only
  split
  · rfl
  · split
    · simp
    · cases hslot : s.slotFor kind (writeGeom s) with
      | none => simp
      | some r =>
        have placed : r.1.blank notSys = s.blank notSys := State.slotFor_blank s kind _ (by simp) r hslot
        dsimp only
        cases findMembers r.1 (pool s) (writeGeom s) (64 * ((pool s).length / geomW (writeGeom s))) r.1.str.opened with
        | none => simp
        | some c => simp [placed]
@[simp ↓] theorem State.dropCopy_blank_notSys (s : State) (c : Copy) : (s.dropCopy c).blank notSys = s.blank notSys := by
  simp [State.dropCopy]
@[simp ↓] theorem State.flipCopy_blank_notSys (s : State) (c : Copy) : (s.flipCopy c).blank notSys = s.blank notSys := by
  unfold State.flipCopy
  cases c.dst with
  | none => rfl
  | some d => simp
@[simp ↓] theorem State.victimCheck_blank_notSys (s : State) : s.victimCheck.blank notSys = s.blank notSys := by
  unfold State.victimCheck
  cases s.ftl.victim with
  | none => rfl
  | some v =>
    dsimp only
    split
    · rfl
    · cases s.band v with
      | none => simp
      | some x => simp
@[simp ↓] theorem State.closeStripe_blank_notSys (s : State) (b j : Nat) : (s.closeStripe b j).blank notSys = s.blank notSys := by
  unfold State.closeStripe
  split
  · simp
  · rfl
@[simp ↓] theorem State.pageDone_blank_notSys (s : State) (b j p : Nat) : (s.pageDone b j p).blank notSys = s.blank notSys := by
  simp [State.pageDone]
@[simp ↓] theorem State.issueMember_blank_notSys (s : State) (b j p : Nat) : (s.issueMember b j p).blank notSys = s.blank notSys := by
  unfold State.issueMember
  extract_lets s1
  have begun : s1.blank notSys = s.blank notSys := by simp [s1]
  cases s1.band b with
  | none => exact begun
  | some x =>
    dsimp only
    cases x.members[p]? with
    | none => exact begun
    | some m => simp [begun]
@[simp ↓] theorem State.issuePage_blank_notSys (s : State) (b g q : Nat) : (s.issuePage b g q).blank notSys = s.blank notSys := by
  simp [State.issuePage]
@[simp ↓] theorem State.fillTo_blank_notSys (s : State) (b new : Nat) : (s.fillTo b new).blank notSys = s.blank notSys := by
  unfold State.fillTo
  cases s.band b with
  | none => rfl
  | some x => simp
@[simp ↓] theorem State.fillStripe_blank_notSys (s : State) (b : Nat) : (s.fillStripe b).blank notSys = s.blank notSys := by
  unfold State.fillStripe
  cases s.band b with
  | none => rfl
  | some x => simp
@[simp ↓] theorem State.fillBand_blank_notSys (s : State) (b : Nat) : (s.fillBand b).blank notSys = s.blank notSys := by
  unfold State.fillBand
  cases s.band b with
  | none => rfl
  | some x => simp
@[simp ↓] theorem State.shutBand_blank_notSys (s : State) (b : Nat) : (s.shutBand b).blank notSys = s.blank notSys := by
  unfold State.shutBand
  cases s.band b with
  | none => rfl
  | some x => simp
@[simp ↓] theorem State.takeUnits_blank_notSys (s : State) (kind : BandKind) (units fuel : Nat) :
    (s.takeUnits kind units fuel).1.blank notSys = s.blank notSys := by
  induction fuel generalizing s with
  | zero => rfl
  | succ n ih =>
    unfold State.takeUnits
    split
    · dsimp only
      split
      · rfl
      · split
        · simp [ih]
        · simp
    · split
      · rfl
      · obtain ⟨s1, r, hr⟩ : ∃ s1 r, s.openBand kind = (s1, r) := ⟨_, _, rfl⟩
        have opened : s1.blank notSys = s.blank notSys := by rw [← s.openBand_blank_notSys kind, hr]
        rw [hr]
        cases r with
        | none => exact opened
        | some b =>
          dsimp only
          cases s1.band b with
          | none => exact opened
          | some x => simp [opened]
@[simp ↓] theorem State.writeSegment_blank_notSys (s : State) (segment : Nat) : (s.writeSegment segment).blank notSys = s.blank notSys := by
  unfold State.writeSegment
  obtain ⟨s1, r, hr⟩ : ∃ s1 r, s.takeUnits .map 16 3 = (s1, r) := ⟨_, _, rfl⟩
  have taken : s1.blank notSys = s.blank notSys := by rw [← s.takeUnits_blank_notSys .map 16 3, hr]
  rw [hr]
  cases r with
  | none => exact taken
  | some a => simp [taken]

/-! ## The configuration area (R176) -/

@[simp ↓] theorem State.reshapeMaps_blank_notSys (s : State) : s.reshapeMaps.blank notSys = s.blank notSys := by
  simp [State.reshapeMaps]
@[simp ↓] theorem State.reshapeSwitch_blank_notSys (s : State) (r : Nat) : (s.reshapeSwitch r).blank notSys = s.blank notSys := by
  simp [State.reshapeSwitch]
@[simp ↓] theorem State.cfgDurable_blank_notSys (s : State) (c : CfgWrite) : (s.cfgDurable c).blank notSys = s.blank notSys := by
  unfold State.cfgDurable
  split <;> simp
@[simp ↓] theorem State.tearConfig_blank_notSys (s : State) : s.tearConfig.blank notSys = s.blank notSys := by
  unfold State.tearConfig
  cases s.health.cfg <;> simp
@[simp ↓] theorem State.tearAreas_blank_notSys (s : State) : s.tearAreas.blank notSys = s.blank notSys := by
  simp [State.tearAreas]

theorem State.tearAreas_sys (s : State) : s.tearAreas.sys = s.sys := State.sys_of_blank s.tearAreas_blank_notSys

end Sys2Proof.Machine
end

section
/-! PROOFS. Power-on and trials (O48): what a cold reset keeps, what the boot ROM chooses, and how the boot begins. -/

namespace Sys2Proof.Machine

/-! ## What a reset of the whole G9 keeps of the board's inputs and of the boot's choices -/

/-- The inputs from the board and the rails that are out of range. -/
def Power.pins (p : Power) : Bool × Bool × Bool × List Rail := (p.pfailN, p.ilimN, p.resetN, p.railsBad)

/-- What the boot ROM chooses by: the selector, the slots and the fuses. -/
def Boot.choices (b : Boot) : Selector × Option FwImage × Option FwImage × Nat × BitVec 4 :=
  (b.selector, b.slotA, b.slotB, b.fuseSvn, b.revoked)

theorem State.cfgDurable_pins (s : State) (c : CfgWrite) : (s.cfgDurable c).power.pins = s.power.pins := by
  cases c with
  | cursor r v => exact congrArg Power.pins (by simp only [State.cfgDurable]; split <;> rfl)
  | reshapeSwitch r => exact congrArg Power.pins (only_of_blank (State.reshapeSwitch_blank s r (List.Subset.refl _)) .power (by decide))
  | _ => rfl

theorem State.areaTorn_only (s : State) (area : Nat) : OnlyChanges [.media, .free] s (s.areaTorn area).1 :=
  only_of_blank (s.areaTorn_blank area (by simp))

theorem State.tearConfig_pins (s : State) : s.tearConfig.power.pins = s.power.pins := by
  have torn : (s.areaTorn areaConfig).1.power = s.power := s.areaTorn_only _ .power (by decide)
  unfold State.tearConfig
  split
  · rfl
  · split
    · rfl
    · split
      · rw [State.cfgDurable_pins, torn]
      · rw [torn]

theorem State.tearLedger_only (s : State) : OnlyChanges [.media, .boot, .free] s s.tearLedger := only_of_blank (s.tearLedger_blank (by simp))
theorem State.tearLifetime_only (s : State) : OnlyChanges [.media, .health, .free] s s.tearLifetime :=
  only_of_blank (s.tearLifetime_blank (by simp))
theorem State.tearNonces_only (s : State) (ks : Tbl KeySlot) :
    OnlyChanges [.media, .sea, .free] s (ks.foldl (fun t e => t.tearNonce e.1 e.2) s) :=
  OnlyChanges.foldl (fun t (e : Nat × KeySlot) => only_of_blank (t.tearNonce_blank e.1 e.2 (by simp))) _ s

theorem State.tearAreas_pins (s : State) : s.tearAreas.power.pins = s.power.pins := by
  rw [State.tearAreas, State.tearNonces_only _ _ .power (by decide), State.tearLifetime_only _ .power (by decide),
    State.tearLedger_only _ .power (by decide), State.tearConfig_pins]

theorem Boot.choices_of_ledger (b : Boot) (as : List Append) (n : Nat) (rs : List LedgerRec) :
    { b with appends := as, nextSeq := n, ledger := rs }.choices = b.choices := rfl

theorem State.tearLedger_choices (s : State) : s.tearLedger.boot.choices = s.boot.choices := by
  have torn : (s.areaTorn areaLedger).1.boot = s.boot := s.areaTorn_only _ .boot (by decide)
  unfold State.tearLedger
  split
  · rfl
  · split
    · rfl
    · split
      · exact (Boot.choices_of_ledger ..).trans (congrArg Boot.choices torn)
      · rw [torn]

theorem State.tearConfig_boot (s : State) : s.tearConfig.boot = s.boot :=
  only_of_blank (s.tearConfig_blank (List.Subset.refl _)) .boot (by decide)

theorem State.tearAreas_choices (s : State) : s.tearAreas.boot.choices = s.boot.choices := by
  rw [State.tearAreas, State.tearNonces_only _ _ .boot (by decide), State.tearLifetime_only _ .boot (by decide),
    State.tearLedger_choices, State.tearConfig_boot]

/-- What a cold reset does to the media and their bands before it clears the state. -/
def State.unwound (s : State) : State := (s.keepRecovered.tearAreas.dropRebuild).rewindReshape.clearRefused

theorem State.unwound_only (s : State) : OnlyChanges [.media, .ftl, .str, .health] s.keepRecovered.tearAreas s.unwound := by
  have dropped : OnlyChanges [.media, .ftl, .str, .health] s.keepRecovered.tearAreas s.keepRecovered.tearAreas.dropRebuild :=
    only_of_blank (by simp)
  exact OnlyChanges.trans dropped (OnlyChanges.trans (State.rewindReshape_only _) (only_of_blank (by simp [State.unwound])))

theorem State.unwound_keeps (s : State) : s.unwound.power.pins = s.power.pins ∧ s.unwound.sys = s.sys ∧
    s.unwound.boot.choices = s.boot.choices := by
  have recovered : OnlyChanges [.str] s s.keepRecovered := only_of_blank (by simp)
  rw [s.unwound_only .power (by decide), s.unwound_only .sys (by decide), s.unwound_only .boot (by decide), State.tearAreas_pins,
    State.tearAreas_sys, State.tearAreas_choices, recovered .power (by decide), recovered .sys (by decide), recovered .boot (by decide)]
  exact ⟨rfl, rfl, rfl⟩

theorem State.coldReset_keeps (s : State) (powerOn : Bool) : (s.coldReset powerOn).power.pins = s.power.pins ∧
    (s.coldReset powerOn).sys.portSplit = s.sys.portSplit ∧ (s.coldReset powerOn).boot.choices = s.boot.choices := by
  unfold State.coldReset
  extract_lets s0 esc s1 s2 s3
  obtain ⟨pins, sys, choices⟩ : s0.power.pins = s.power.pins ∧ s0.sys = s.sys ∧ s0.boot.choices = s.boot.choices := s.unwound_keeps
  have cleared : OnlyChanges [.regs, .memory] s0 s3 := only_of_blank (by simp [s3, s2, s1])
  have power : s3.power = s0.power := cleared .power (by decide)
  have boot : s3.boot = s0.boot := cleared .boot (by decide)
  have portSplit : s3.sys.portSplit = s.sys.portSplit := by rw [cleared .sys (by decide), sys]
  exact ⟨(congrArg Power.pins power).trans pins, portSplit, (congrArg Boot.choices boot).trans choices⟩

theorem State.coldReset_board (s : State) (powerOn : Bool) : (s.coldReset powerOn).board = s.board :=
  only_of_blank (s.coldReset_blank powerOn (List.Subset.refl _)) .board (by decide)

/-- What a cold reset leaves empty. -/
theorem State.coldReset_fresh (s : State) (powerOn : Bool) : (s.coldReset powerOn).power.effective = .balanced ∧
    (s.coldReset powerOn).power.k = 60000 ∧ (s.coldReset powerOn).ftl.map = [] ∧ (s.coldReset powerOn).disp = Disp.reset :=
  ⟨rfl, rfl, rfl, rfl⟩

/-! ## What the boot ROM chooses -/

/-- Boots with the same choices use the same slots and try the same one first. -/
theorem Boot.choices_congr {b b' : Boot} (h : b'.choices = b.choices) :
    (∀ n, b'.usable n = b.usable n) ∧ b'.first = b.first ∧ (∀ n, b'.slotImage n = b.slotImage n) ∧ b'.selector = b.selector := by
  simp only [Boot.choices, Prod.mk.injEq] at h
  obtain ⟨selector, slotA, slotB, fuseSvn, revoked⟩ := h
  have images (n : Nat) : b'.slotImage n = b.slotImage n := by simp [Boot.slotImage, slotA, slotB]
  have valid (i : FwImage) : imageValid b' i = imageValid b i := by simp [imageValid, fuseSvn, revoked]
  exact ⟨fun n => by simp [Boot.usable, selector, images, valid], by simp [Boot.first, selector], images, selector⟩

theorem Boot.choose_first {b : Boot} (usable : b.usable b.first = true) (tries : ¬(b.selector.pending ≠ 0 ∧ 2 ≤ b.selector.tries)) :
    b.choose = (b, some b.first) := by
  simp only [Boot.choose, if_neg tries, usable, ↓reduceIte]

/-- With no usable slot, none is chosen. -/
theorem Boot.choose_none {b : Boot} (h1 : b.usable 1 = false) (h2 : b.usable 2 = false)
    (hactive : b.selector.active = 1 ∨ b.selector.active = 2) (hpending : b.selector.pending ≤ 2) : b.choose.2 = none := by
  unfold Boot.choose
  extract_lets b1 c b2
  have active : b1.selector.active = b.selector.active := by simp only [b1]; split <;> rfl
  have pending : b1.selector.pending ≤ 2 := by simp only [b1]; split <;> simp [Boot.select, hpending]
  have slots : c = 1 ∨ c = 2 := by
    simp only [c, Boot.first]
    split
    · omega
    · omega
  have first (n : Nat) : b1.usable n = b.usable n := by simp only [b1]; split <;> rfl
  have second (n : Nat) : b2.usable n = b1.usable n := by simp only [b2]; split <;> rfl
  have unusable (n : Nat) (hn : n = 1 ∨ n = 2) : b.usable n = false := by
    rcases hn with rfl | rfl <;> assumption
  have other : 3 - c = 1 ∨ 3 - c = 2 := by omega
  simp [first, second, unusable c slots, unusable _ other]

/-! ## How the boot begins -/

theorem State.enterBootHold_only (s : State) : OnlyChanges [.sys, .host, .sea] s s.enterBootHold := by
  unfold State.enterBootHold
  exact OnlyChanges.trans (only_of_blank (by simp)) (OnlyChanges.foldl (fun t f => only_of_blank (by simp)) _ _)

theorem State.enterBootHold_sys (s : State) : s.enterBootHold.sys =
    { s.sys with phase := .bootHold, down := [.ctrl, .compute, .engine, .mem, .media0, .media1, .media2, .media3], bootStep := 0 } := by
  unfold State.enterBootHold
  exact (OnlyChanges.foldl (ps := [.host]) (fun t f => only_of_blank (by simp)) _ _) .sys (by decide)

theorem State.alarmReport_portSplit (s : State) : s.alarmReport.sys.portSplit = s.sys.portSplit := by
  have reported (e : Append) : (((s.logEvent 2 0 0xFFFF (w32 (alarmBits s)) 0).raiseManagers evAlarm).requestAppend e).sys = s.sys :=
    only_of_blank (ps := [.host, .media, .boot, .health]) (by simp) .sys (by decide)
  simp only [State.alarmReport, State.irq_sys, reported]

/-- The boot's first steps: the islands come up, and the ports that have a link to train begin it. -/
def State.bootUp (s : State) : State :=
  ((s.onSys fun y => { y with phase := .booting, bootStep := 2, down := [], gated := [] }).onPort .a fun q =>
    { q with training := q.present && q.perstN }).onPort .b fun q => { q with training := q.present && q.perstN }

theorem State.bootUp_only (s : State) : OnlyChanges [.sys, .host] s s.bootUp := only_of_blank (by simp [State.bootUp])

theorem State.bootStart_of_no_fuses (s : State) (cause : Nat) (h : s.board.fuseOk = false) :
    s.bootStart cause = ((s.bootUp.eraseKeys .fuse).alarmReport).enterBootHold := by
  simp [State.bootStart, State.bootUp, h]

theorem State.bootStart_of_choice {s : State} {b : Boot} {slot : Option Nat} (cause : Nat) (h : s.board.fuseOk = true)
    (hc : s.boot.choose = (b, slot)) : s.bootStart cause = match slot with
      | none => (s.bootUp.onBoot fun _ => b).enterBootHold
      | some n => ((s.bootUp.onBoot fun _ =>
          { b with running := n, image := b.slotImage n, cause := if n = s.boot.first then cause else 4 }).loadStored).onSys fun y =>
            { y with bootStep := 5 } := by
  unfold State.bootStart
  extract_lets s1 train s2
  have chosen : s2.boot.choose = (b, slot) := hc
  rw [if_neg (by simp [h]), chosen]
  cases slot <;> rfl

theorem State.bootStart_only (s : State) (cause : Nat) :
    OnlyChanges [.sys, .host, .media, .sea, .dgs, .boot, .firmware, .health] s (s.bootStart cause) := by
  have up : OnlyChanges [.sys, .host, .media, .sea, .dgs, .boot, .firmware, .health] s s.bootUp := s.bootUp_only.mono (by simp)
  cases h : s.board.fuseOk with
  | false =>
    rw [State.bootStart_of_no_fuses s cause h]
    exact OnlyChanges.trans up (OnlyChanges.trans ((State.eraseKeys_only _ _).mono (by simp))
      (OnlyChanges.trans ((State.alarmReport_only _).mono (by simp)) ((State.enterBootHold_only _).mono (by simp))))
  | true =>
    obtain ⟨b, slot, hc⟩ : ∃ b slot, s.boot.choose = (b, slot) := ⟨_, _, rfl⟩
    rw [State.bootStart_of_choice cause h hc]
    cases slot with
    | none => exact OnlyChanges.trans up (OnlyChanges.trans (only_of_blank (by simp)) ((State.enterBootHold_only _).mono (by simp)))
    | some n => exact OnlyChanges.trans up (only_of_blank (by simp))

/-- Where the boot ROM's first choice is usable, it runs. -/
theorem State.bootStart_first {s : State} (cause : Nat) (h : s.board.fuseOk = true) (usable : s.boot.usable s.boot.first = true)
    (tries : ¬(s.boot.selector.pending ≠ 0 ∧ 2 ≤ s.boot.selector.tries)) :
    (s.bootStart cause).sys.phase = .booting ∧ (s.bootStart cause).boot.running = s.boot.first ∧
      (s.bootStart cause).boot.image = s.boot.slotImage s.boot.first := by
  rw [State.bootStart_of_choice cause h (Boot.choose_first usable tries)]
  exact ⟨rfl, rfl, rfl⟩

/-- Without good fuses, or without a usable slot, the G9 waits in boot hold. -/
theorem State.bootStart_held {s : State} (cause : Nat) (h : s.board.fuseOk = false ∨ s.boot.choose.2 = none) :
    (s.bootStart cause).sys.phase = .bootHold := by
  cases hf : s.board.fuseOk with
  | false => rw [State.bootStart_of_no_fuses s cause hf, State.enterBootHold_sys]
  | true =>
    have none : s.boot.choose = (s.boot.choose.1, none) := Prod.ext rfl (h.resolve_left (by simp [hf]))
    rw [State.bootStart_of_choice cause hf none]
    exact congrArg Sys.phase (State.enterBootHold_sys _)

theorem State.bootStart_portSplit (s : State) (cause : Nat) : (s.bootStart cause).sys.portSplit = s.sys.portSplit := by
  have up : s.bootUp.sys.portSplit = s.sys.portSplit := rfl
  cases h : s.board.fuseOk with
  | false =>
    rw [State.bootStart_of_no_fuses s cause h, State.enterBootHold_sys]
    dsimp only
    rw [State.alarmReport_portSplit, State.eraseKeys_only _ _ .sys (by decide), up]
  | true =>
    obtain ⟨b, slot, hc⟩ : ∃ b slot, s.boot.choose = (b, slot) := ⟨_, _, rfl⟩
    rw [State.bootStart_of_choice cause h hc]
    cases slot with
    | none => exact (congrArg Sys.portSplit (State.enterBootHold_sys _)).trans up
    | some n => exact up

/-! ## The commands of power-on and of trials (R500, R510 to R514, R546) -/

/-- What boots: a cold reset with its power cycle counted. -/
def State.coldStart (s : State) (powerOn : Bool) : State := (s.coldReset powerOn).addLife (lifeDev 0) 1

theorem State.coldStart_keeps (s : State) (powerOn : Bool) : (s.coldStart powerOn).power.pins = s.power.pins ∧
    (s.coldStart powerOn).sys.portSplit = s.sys.portSplit ∧ (s.coldStart powerOn).boot.choices = s.boot.choices ∧
    (s.coldStart powerOn).board = s.board := by
  have counted : OnlyChanges [.health] (s.coldReset powerOn) (s.coldStart powerOn) := State.addLife_only _ _ _
  rw [counted .power (by decide), counted .sys (by decide), counted .boot (by decide), counted .board (by decide), State.coldReset_board]
  obtain ⟨pins, portSplit, choices⟩ := s.coldReset_keeps powerOn
  exact ⟨pins, portSplit, choices, rfl⟩

theorem State.enterHold_only (s : State) : OnlyChanges [.sys, .memory] s s.enterHold := only_of_blank (s.enterHold_blank (by simp))

/-- What R500 asks of the state after power-on, with `s` the state before it. -/
theorem State.coldStart_boots {s t : State} (split : Bool) (ht : t.sys.portSplit = split) (hb : t.boot = s.boot) (hd : t.board = s.board)
    (hp : t.power.pfailN = s.power.pfailN) :
    let u := if (t.coldStart true).power.pfailN then (t.coldStart true).bootStart 0 else (t.coldStart true).enterHold
    (s.power.pfailN = false → u.sys.phase = .hold) ∧
      (s.power.pfailN = true → s.board.fuseOk = true →
        (s.boot.usable s.boot.first = true → ¬(s.boot.selector.pending ≠ 0 ∧ 2 ≤ s.boot.selector.tries) →
          u.sys.phase = .booting ∧ u.boot.running = s.boot.first ∧ u.boot.image = s.boot.slotImage s.boot.first) ∧
        (s.boot.usable 1 = false → s.boot.usable 2 = false → s.boot.selector.active = 1 ∨ s.boot.selector.active = 2 →
          s.boot.selector.pending ≤ 2 → u.sys.phase = .bootHold)) ∧
      (s.power.pfailN = true → s.board.fuseOk = false → u.sys.phase = .bootHold) ∧
      u.sys.portSplit = split ∧ u.power.effective = .balanced ∧ u.power.k = 60000 ∧ u.ftl.map = [] ∧ u.disp = Disp.reset := by
  obtain ⟨pins, portSplit, choices, board⟩ := t.coldStart_keeps true
  rw [hb] at choices
  rw [hd] at board
  have pfailN : (t.coldStart true).power.pfailN = s.power.pfailN := (congrArg Prod.fst pins).trans hp
  obtain ⟨usable, first, images, selector⟩ := Boot.choices_congr choices
  have fresh : (t.coldStart true).power.effective = .balanced ∧ (t.coldStart true).power.k = 60000 ∧ (t.coldStart true).ftl.map = [] ∧
      (t.coldStart true).disp = Disp.reset := t.coldReset_fresh true
  intro u
  cases h : s.power.pfailN with
  | false =>
    have held : u = (t.coldStart true).enterHold := by simp [u, pfailN, h]
    rw [held]
    refine ⟨fun _ => rfl, nofun, nofun, portSplit.trans ht, ?_⟩
    rw [State.enterHold_only _ .power (by decide), State.enterHold_only _ .ftl (by decide), State.enterHold_only _ .disp (by decide)]
    exact fresh
  | true =>
    have boots : u = (t.coldStart true).bootStart 0 := by simp [u, pfailN, h]
    rw [boots]
    refine ⟨nofun, fun _ hf => ⟨fun hu ht => ?_, fun h1 h2 ha hp => ?_⟩, fun _ hf => State.bootStart_held 0 (.inl (board ▸ hf)), ?_, ?_⟩
    · obtain ⟨phase, running, image⟩ := State.bootStart_first (s := t.coldStart true) 0 (board ▸ hf) (by rwa [first, usable])
        (by rwa [selector])
      exact ⟨phase, running.trans first, by rw [image, images, first]⟩
    · refine State.bootStart_held 0 (.inr (Boot.choose_none ?_ ?_ ?_ ?_))
      · rw [usable, h1]
      · rw [usable, h2]
      · rwa [selector]
      · rwa [selector]
    · rw [State.bootStart_portSplit, portSplit, ht]
    · rw [State.bootStart_only _ _ .power (by decide), State.bootStart_only _ _ .ftl (by decide), State.bootStart_only _ _ .disp (by decide)]
      exact fresh

/-- What a confirmed trial leaves of the boot. -/
theorem confirmTrial_of_image {b : Boot} {i : FwImage} (hi : b.image = some i) : confirmTrial b =
    { b.select (fun x => { x with active := b.running, pending := 0, tries := 0 }) with
      trial := false
      fuseSvn := if i.raiseSvn then Nat.max b.fuseSvn i.svn else b.fuseSvn
      revoked := b.revoked ||| (if i.revoke.getLsbD i.authority then i.revoke &&& ~~~(1#4 <<< i.authority) else i.revoke) } := by
  unfold confirmTrial
  rw [hi]

/-- An image revokes every authority that it names but its own. -/
theorem revokes_other (r : BitVec 4) (n : Nat) {a : Nat} (ha : a < 4) :
    (if r.getLsbD n then r &&& ~~~(1#4 <<< n) else r).getLsbD a = (r.getLsbD a && decide (a ≠ n)) := by
  by_cases same : a = n
  · subst same
    have own : (1#4 <<< a).getLsbD a = true := by simp [ha]
    split
    · rw [BitVec.getLsbD_and, BitVec.getLsbD_not, own]
      simp
    · next h => rw [Bool.not_eq_true _ |>.mp h, Bool.false_and]
  · have apart : (1#4 <<< n).getLsbD a = false := by
      simp only [BitVec.getLsbD_shiftLeft, BitVec.getLsbD_one]
      by_cases below : a < n
      · simp [below]
      · have : a - n ≠ 0 := by omega
        simp [this]
    have masked : (r &&& ~~~(1#4 <<< n)).getLsbD a = r.getLsbD a := by
      rw [BitVec.getLsbD_and, BitVec.getLsbD_not, apart, decide_eq_true ha]
      exact Bool.and_true _
    rw [apply_ite (BitVec.getLsbD · a), masked, ite_self, decide_eq_true same, Bool.and_true]

/-- Settles O48, from what a cold reset keeps and how the boot begins. -/
theorem powerOnAndTrials : Obligations.PowerOnAndTrials := by
  unfold Obligations.PowerOnAndTrials
  refine ⟨?powerOn, ?release, ?confirm, ?timeout⟩
  case powerOn =>
    intro s split hphase
    let s0 := if s.sys.phase = .thermalShutdown then s.takeImage false false else s
    let s1 := (s0.onPower fun p => { p with resetN := true, railsBad := [] }).onSys fun y => { y with portSplit := split }
    have run : exec (.powerOn split) s =
        .next (if (s1.coldStart true).power.pfailN then (s1.coldStart true).bootStart 0 else (s1.coldStart true).enterHold) := by
      show execPowerOn split s = _
      rw [execPowerOn, if_pos hphase]
      exact (apply_ite _ _ _ _).symm
    have imaged : OnlyChanges [.str] s s0 := by
      simp only [s0]
      split
      · exact only_of_blank (by simp)
      · exact OnlyChanges.refl _ s
    have power : s0.power = s.power := imaged .power (by decide)
    exact ⟨_, run, State.coldStart_boots split rfl (imaged .boot (by decide)) (imaged .board (by decide)) (congrArg Power.pfailN power : s0.power.pfailN = s.power.pfailN)⟩
  case release =>
    intro s h
    show execBootHoldXspiRelease s = _
    rw [execBootHoldXspiRelease, if_pos h]
  case confirm =>
    intro s i hrun htrial hi
    have run : exec .trialConfirm s = .next (s.onBoot confirmTrial) := by
      show execTrialConfirm s = _
      rw [execTrialConfirm, if_pos ⟨htrial, hrun⟩]
    have boot : (s.onBoot confirmTrial).boot = _ := confirmTrial_of_image hi
    refine ⟨_, run, ?_⟩
    beta_reduce
    rw [boot]
    refine ⟨rfl, rfl, rfl, rfl, rfl, rfl, fun a ha => ?_, only_of_blank (by simp)⟩
    rw [BitVec.getLsbD_or, revokes_other _ _ ha]
  case timeout =>
    intro s hphase hrun hpending
    have run : exec .trialReadyTimeout s = .next (s.onBoot fun b => b.select fun x => { x with tries := Nat.min 2 (x.tries + 1) }) := by
      show execTrialReadyTimeout s = _
      rw [execTrialReadyTimeout, if_pos ⟨hphase, hrun, hpending⟩]
    exact ⟨_, run, rfl, only_of_blank (State.onBoot_blank _ _ (by simp) rfl rfl rfl)⟩

end Sys2Proof.Machine
end
section
/-! PROOFS. What it leaves alone to stop the hosts' commands and the engines: controllers that fail, flow contexts that are released, and
everything at the start of a dump. -/

namespace Sys2Proof.Machine

/-! ## The dump image's content -/

/-- What a dump image holds, apart from how far its copies are written. -/
def DumpImage.content (d : DumpImage) : Tbl Slot × List Stripe × Bool := (d.slots, d.stripes, d.trailer)

/-- The content of the dump image, if there is one. -/
def State.dumped (s : State) : Option (Tbl Slot × List Stripe × Bool) := s.str.dump.map DumpImage.content

theorem State.dumped_congr {s t : State} (h : t.str = s.str) : t.dumped = s.dumped := by rw [State.dumped, h, State.dumped]

theorem State.onRun_dumped (s : State) (copy : Nat) (g : DumpRun → DumpRun) : (s.onRun copy g).dumped = s.dumped := by
  have kept (d : DumpImage) : (d.onRun copy g).content = d.content := by unfold DumpImage.onRun; split <;> rfl
  show (s.str.dump.map fun d => d.onRun copy g).map DumpImage.content = _
  rw [Option.map_map]
  exact congrArg (Option.map · s.str.dump) (funext kept)

theorem State.dumpNext_dumped (s : State) (l : Nat) : (s.dumpNext l).dumped = s.dumped := by
  unfold State.dumpNext
  split
  · rfl
  · split
    · rfl
    · exact State.onRun_dumped ..

theorem State.lunNext_dumped (s : State) (l : Nat) : (s.lunNext l).dumped = s.dumped := by
  have begun (cs : List MediaCmd) (n : Nat) : OnlyChanges [.media] s (s.beginOp l cs n) := only_of_blank (by simp [State.beginOp])
  unfold State.lunNext
  extract_lets x
  split
  · rfl
  · split
    · exact s.dumpNext_dumped l
    · cases nextResense s l with
      | some c => rfl
      | none =>
        dsimp only
        split
        · split
          · split <;> rfl
          · split
            · exact State.dumped_congr (begun _ _ .str (by decide))
            · rfl
        · split
          · exact State.dumped_congr (begun _ _ .str (by decide))
          · rfl

theorem State.dumped_foldl {α : Type} (g : State → α → State) (h : ∀ s x, (g s x).dumped = s.dumped) (l : List α) (s : State) :
    (l.foldl g s).dumped = s.dumped := foldl_keeps State.dumped g h l s

theorem State.withdraw_dumped (s : State) (p : ReadClient → Bool) : (s.withdraw p).dumped = s.dumped := by
  rw [State.withdraw, State.wakeAll, State.dumped_foldl _ State.lunNext_dumped]
  rfl

theorem State.badAdd_dumped (s : State) (nsid slba nlb cause : Nat) : (s.badAdd nsid slba nlb cause).dumped = s.dumped := by
  have told (t : State) (f : Fn) : (t.raiseEvent f evBadLba).dumped = t.dumped :=
    State.dumped_congr ((only_of_blank (ps := [.host, .health]) (by simp)) .str (by decide))
  unfold State.badAdd
  exact (State.dumped_foldl _ told _ _).trans rfl

theorem State.setBad_dumped (s : State) (iu cause : Nat) : (s.setBad iu cause).dumped = s.dumped := by
  have mapped : OnlyChanges [.ftl] s (s.setMap iu ⟨.bad, 0, cause⟩) := only_of_blank (by simp)
  have same : (s.setMap iu ⟨.bad, 0, cause⟩).dumped = s.dumped := State.dumped_congr (mapped .str (by decide))
  unfold State.setBad
  extract_lets s1
  split
  · rw [State.badAdd_dumped, same]
  · exact same

theorem State.undoSlot_dumped (s : State) (iu : Nat) : (s.undoSlot iu).dumped = s.dumped := by
  unfold State.undoSlot
  split
  · split
    · rfl
    · dsimp only
      split
      · split
        · rw [State.setBad_dumped]
          rfl
        · exact State.dumped_congr ((only_of_blank (ps := [.ftl]) (by simp)) .str (by decide))
      · rfl
  · rfl

/-! ## Writes and loads that are dropped -/

theorem State.discardWrite_only (s : State) (a : AdmittedWrite) : OnlyChanges [.host, .ftl, .str, .health] s (s.discardWrite a) := by
  have begun : OnlyChanges [.host, .ftl, .str, .health] s (s.onFtl fun f => { f with admitted := f.admitted.erase a }) :=
    only_of_blank (by simp)
  unfold State.discardWrite
  split
  · exact OnlyChanges.trans begun (OnlyChanges.foldl (fun t iu => only_of_blank (t.undoSlot_blank_ftl iu (by simp))) _ _)
  · exact begun

theorem State.discardWrite_dumped (s : State) (a : AdmittedWrite) : (s.discardWrite a).dumped = s.dumped := by
  unfold State.discardWrite
  split
  · exact (State.dumped_foldl _ State.undoSlot_dumped _ _).trans rfl
  · rfl

theorem State.discardWrites_only (s : State) (as : List AdmittedWrite) :
    OnlyChanges [.host, .ftl, .str, .health] s (as.foldl State.discardWrite s) := OnlyChanges.foldl State.discardWrite_only as s

theorem State.loadNext_only (s : State) (n : Nat) : OnlyChanges [.hrt, .host, .health, .media] s (s.loadNext n) := by
  have ends (t : State) (l : Load) (st : Status) (a b : W32) : OnlyChanges [.hrt, .host, .health, .media] t (t.endLoad l st a b) :=
    only_of_blank (by simp [State.endLoad])
  have enrols (t : State) (l : Load) : OnlyChanges [.hrt, .host, .health, .media] t (t.enrol l) :=
    only_of_blank (by simp [State.enrol])
  induction n generalizing s with
  | zero => exact OnlyChanges.refl _ s
  | succ n ih =>
    unfold State.loadNext
    split
    · exact OnlyChanges.refl _ s
    · next l rest _ =>
      split
      · exact OnlyChanges.refl _ s
      · split
        · split
          · exact OnlyChanges.trans (ends _ _ _ _ _) (ih _)
          · exact OnlyChanges.trans (enrols s l) (only_of_blank (by simp))
        · split
          · exact OnlyChanges.trans (ends _ _ _ _ _) (ih _)
          · split
            · exact OnlyChanges.trans (ends _ _ _ _ _) (ih _)
            · exact only_of_blank (by simp)

theorem State.dropLoads_only (s : State) (f : Fn) : OnlyChanges [.boot, .hrt, .host, .health, .media] s (s.dropLoads f) := by
  unfold State.dropLoads State.loadServe
  extract_lets late s1
  have dropped : OnlyChanges [.boot, .hrt, .host, .health, .media] s s1 := by
    simp only [s1]
    split
    · exact only_of_blank (by simp)
    · exact OnlyChanges.refl _ s
  exact OnlyChanges.trans dropped (OnlyChanges.trans (only_of_blank (by simp)) ((State.loadNext_only _ _).mono (by simp)))

/-! ## Controllers that fail, and the host's side going down -/

/-- A power state with no request waiting. -/
def Power.settled (p : Power) : Power := { p with waiting := [] }

/-- The parts that a function's commands are in. -/
def commandParts : List Part := [.power, .host, .ftl, .media, .str, .disp, .hrt, .boot, .health]

/-- What an operation that drops commands may change: of the power state the requests that wait, of the dump image nothing that it holds. -/
structure Drops (s t : State) : Prop where
  only : OnlyChanges commandParts s t
  settled : t.power.settled = s.power.settled
  dumped : t.dumped = s.dumped

theorem Drops.refl (s : State) : Drops s s := ⟨OnlyChanges.refl _ s, rfl, rfl⟩
theorem Drops.trans {s t u : State} (h : Drops s t) (k : Drops t u) : Drops s u :=
  ⟨OnlyChanges.trans h.only k.only, k.settled.trans h.settled, k.dumped.trans h.dumped⟩
theorem Drops.foldl {α : Type} {g : State → α → State} (h : ∀ t x, Drops t (g t x)) (l : List α) (s : State) : Drops s (l.foldl g s) := by
  induction l generalizing s with
  | nil => exact Drops.refl s
  | cons x l ih => exact (h s x).trans (ih _)
/-- An operation that changes neither the power state nor the dump image. -/
theorem drops_of_only {ps : List Part} {s t : State} (h : OnlyChanges ps s t) (hps : ps ⊆ commandParts) (hp : .power ∉ ps)
    (hd : t.dumped = s.dumped) : Drops s t := ⟨h.mono hps, congrArg Power.settled (h .power hp), hd⟩
theorem drops_of_blank {ps : List Part} {s t : State} (h : t.blank ps = s.blank ps) (hps : ps ⊆ commandParts) (hp : .power ∉ ps)
    (hs : .str ∉ ps) : Drops s t :=
  drops_of_only (only_of_blank h) hps hp (State.dumped_congr (only_of_blank h .str hs))

theorem State.waiting_drops (s : State) (g : Hrt → Hrt) (h : Power → List ModeReq) :
    Drops s ((s.onHrt g).onPower fun p => { p with waiting := h p }) :=
  ⟨only_of_blank (by simp [commandParts]), rfl, rfl⟩

theorem State.dropCommands_drops (s : State) (f : Fn) : Drops s (s.dropCommands f) := by
  unfold State.dropCommands
  extract_lets s1 s2 s3 s4 s5
  have h1 : Drops s s1 := drops_of_only (s.withdraw_only _) (by decide) (by decide) (s.withdraw_dumped _)
  have h2 : Drops s1 s2 :=
    drops_of_only (s1.discardWrites_only _) (by decide) (by decide) (State.dumped_foldl _ State.discardWrite_dumped _ _)
  have h4 : Drops s2 s4 := drops_of_blank (ps := [.ftl, .disp]) (by simp [s4, s3]) (by decide) (by decide) (by decide)
  have loads : Drops s4 (s4.dropLoads f) := drops_of_only (s4.dropLoads_only f) (by decide) (by decide)
    (State.dumped_congr (s4.dropLoads_only f .str (by decide)))
  have h5 : Drops (s4.dropLoads f) s5 := State.waiting_drops _ _ _
  refine h1.trans (h2.trans (h4.trans (loads.trans (h5.trans ?_))))
  clear_value s5
  exact drops_of_blank (ps := [.host]) (by simp) (by decide) (by decide) (by decide)

theorem State.failController_drops (s : State) (f : Fn) : Drops s (s.failController f) :=
  (s.dropCommands_drops f).trans (drops_of_blank (ps := [.host]) (by simp [State.failController]) (by decide) (by decide) (by decide))

theorem State.hostDown_drops (s : State) : Drops s s.hostDown := by
  unfold State.hostDown
  extract_lets s1 down
  have h1 : Drops s s1 := Drops.foldl (fun t (e : Fn × Ctrl) => (t.dropCommands_drops e.1).trans
    (drops_of_blank (ps := [.host]) (by simp) (by decide) (by decide) (by decide))) _ s
  exact h1.trans (drops_of_blank (ps := [.host]) (by simp) (by decide) (by decide) (by decide))

/-! ## Everything stops -/

/-- The parts that stopping everything changes. -/
def stopParts : List Part := [.power, .host, .ftl, .media, .str, .dgs, .dma, .disp, .hrt, .boot, .health]

theorem State.stopEngines_only (s : State) : OnlyChanges [.ftl, .dgs, .dma, .disp, .hrt] s s.stopEngines :=
  only_of_blank (s.stopEngines_blank (List.Subset.refl _))

theorem State.lunsNext_only (s : State) (ls : List Nat) : OnlyChanges [.media, .str] s (ls.foldl State.lunNext s) :=
  OnlyChanges.foldl State.lunNext_only ls s

theorem State.drainLuns_only (s : State) : OnlyChanges [.media, .str] s s.drainLuns := by
  unfold State.drainLuns
  extract_lets s1
  have cleared : OnlyChanges [.media, .str] s s1 := only_of_blank (by simp [s1])
  exact OnlyChanges.trans cleared (s1.lunsNext_only _)

theorem State.drainLuns_dumped (s : State) : s.drainLuns.dumped = s.dumped :=
  (State.dumped_foldl _ State.lunNext_dumped _ _).trans rfl

theorem State.stopAll_only (s : State) : OnlyChanges stopParts s s.stopAll :=
  OnlyChanges.trans ((s.discardWrites_only _).mono (by decide)) (OnlyChanges.trans ((State.stopEngines_only _).mono (by decide))
    (OnlyChanges.trans ((State.hostDown_drops _).only.mono (by decide)) ((State.drainLuns_only _).mono (by decide))))

theorem State.stopAll_settled (s : State) : s.stopAll.power.settled = s.power.settled := by
  rw [State.stopAll, State.drainLuns_only _ .power (by decide), (State.hostDown_drops _).settled,
    State.stopEngines_only _ .power (by decide), State.discardWrites_only _ _ .power (by decide)]

theorem State.stopAll_dumped (s : State) : s.stopAll.dumped = s.dumped := by
  rw [State.stopAll, State.drainLuns_dumped, (State.hostDown_drops _).dumped,
    State.dumped_congr (State.stopEngines_only _ .str (by decide)), State.dumped_foldl _ State.discardWrite_dumped]

/-! ## Flow contexts that are released -/

theorem State.stopKernels_sys (s : State) (flow : Nat) : (s.stopKernels flow).sys = s.sys := by
  unfold State.stopKernels
  refine sys_foldl _ (fun t h => ?_) _ s
  split
  · split
    · rw [State.endKernel_sys, freeTask_sys]
    · rfl
  · rfl

theorem State.purgeFlow_sys (s : State) (flow : Nat) : (s.purgeFlow flow).sys = s.sys := by
  unfold State.purgeFlow
  extract_lets s1 mine s2 s3
  have h2 : s2.sys = s.sys := (freeTasks_sys _ _).trans (s.discardFlow_sys flow)
  clear_value s2
  exact (State.poolUpdate_sys _).trans h2

theorem State.releaseFlow_sys (s : State) (i : Nat) : (s.releaseFlow i).sys = s.sys := by
  unfold State.releaseFlow
  extract_lets s1 s2 s3 n
  have h1 : s1.sys = s.sys := by rw [State.withdraw_sys, State.purgeFlow_sys, State.stopKernels_sys]
  have h2 : s2.sys = s1.sys := s1.discardWrites_only _ .sys (by decide)
  clear_value s2
  exact h2.trans h1

end Sys2Proof.Machine
end
section
/-! PROOFS. The escalation ladder (O51): how a dump starts, what the resets of CTRL and of the whole G9 do, and how recoveries end. -/

namespace Sys2Proof.Machine

/-! ## How a dump starts (R523, R543) -/

theorem setServes_congr {s t : State} (k : Nat) (hdown : t.sys.down = s.sys.down) (hgated : t.sys.gated = s.sys.gated)
    (hmedia : t.media = s.media) (hboard : t.board = s.board) : setServes t k = setServes s k := by
  have populated : channelPopulated t = channelPopulated s := by funext c; simp only [channelPopulated, hboard, hmedia]
  simp only [setServes, pool, boardLuns, populated, State.up, State.lun, State.channel, hdown, hgated, hmedia, hboard]

theorem dumpNeeded_congr {s t : State} (hftl : t.ftl = s.ftl) (hstr : t.str = s.str) : dumpNeeded t = dumpNeeded s := by
  simp only [dumpNeeded, hftl, hstr]

/-- Whether a dump is written when one starts. -/
def dumpWrites (s : State) : Bool :=
  s.sys.phase ≠ .booting && dumpNeeded s && !s.power.writesStopped && (setServes s 0 || setServes s 1)

/-- The state at the start of a dump, once everything is stopped. -/
def State.dumpReady (s : State) : State :=
  ((if (!s.ftl.slots.isEmpty || !s.str.stripes.isEmpty) ∧ s.sys.phase ≠ .booting then s.addLife (lifeDev 1) 1 else s).takeImage
    (dumpWrites s && setServes s 0) (dumpWrites s && setServes s 1)).stopAll

/-- The parts that the start of a dump changes, apart from the system state. -/
theorem State.dumpReady_only (s : State) : OnlyChanges stopParts s s.dumpReady := by
  have imaged (a b : Bool) : OnlyChanges stopParts s
      ((if (!s.ftl.slots.isEmpty || !s.str.stripes.isEmpty) ∧ s.sys.phase ≠ .booting then s.addLife (lifeDev 1) 1 else s).takeImage a b) := by
    refine OnlyChanges.trans (t := if _ then _ else _) ?_ (only_of_blank (State.takeImage_blank _ _ _ (by decide)))
    split
    · exact (State.addLife_only _ _ _).mono (by decide)
    · exact OnlyChanges.refl _ s
  exact OnlyChanges.trans (imaged _ _) (State.stopAll_only _)

theorem State.dumpReady_settled (s : State) : s.dumpReady.power.settled = s.power.settled := by
  rw [State.dumpReady, State.stopAll_settled]
  refine congrArg Power.settled ?_
  refine (only_of_blank (State.takeImage_blank _ _ _ (List.Subset.refl _)) .power (by decide)).trans ?_
  split
  · exact State.addLife_only _ _ _ .power (by decide)
  · rfl

/-- The image that a dump writes holds the slots and the stripes of the moment. -/
theorem State.dumpReady_dumped {s : State} (hphase : s.sys.phase ≠ .booting) (hneeded : dumpNeeded s = true) :
    s.dumpReady.dumped = some (s.ftl.slots, s.str.stripes, false) := by
  have imaged (t : State) (h : OnlyChanges [.health] s t) (a b : Bool) :
      (t.takeImage a b).dumped = some (s.ftl.slots, s.str.stripes, false) := by
    have sys : t.sys = s.sys := h .sys (by decide)
    have ftl : t.ftl = s.ftl := h .ftl (by decide)
    have str : t.str = s.str := h .str (by decide)
    have needed : dumpNeeded t = true := (dumpNeeded_congr ftl str).trans hneeded
    rw [State.takeImage, sys, if_neg hphase, ← ftl, ← str]
    simp only [needed, Bool.not_true, Bool.false_eq_true, if_false]
    rfl
  rw [State.dumpReady, State.stopAll_dumped]
  refine imaged _ ?_ _ _
  split
  · exact State.addLife_only _ _ _
  · exact OnlyChanges.refl _ s

/-- The start of a dump: it is written, or what follows it comes at once. -/
theorem State.dumpStart_eq (s : State) (cause : DumpCause) : s.dumpStart cause =
    if dumpWrites s then
      let t := s.dumpReady.onSys fun y =>
        { y with phase := .dumping, dumpCause := cause, down := addOnce (addOnce y.down .host) .compute, recovering := [] }
      ((boardLuns t).foldl State.lunNext t, true)
    else (s.dumpReady.onSys fun y => { y with dumpCause := cause, recovering := [] }, false) := rfl

theorem State.onSys_dumped (s : State) (f : Sys → Sys) : (s.onSys f).dumped = s.dumped := rfl

/-- What holds at the start of a dump, whether it is written or not. -/
structure DumpBegun (cause : DumpCause) (s t : State) (written : Bool) : Prop where
  only : OnlyChanges (.sys :: stopParts) s t
  settled : t.power.settled = s.power.settled
  dumpCause : t.sys.dumpCause = cause
  phase : written = true → t.sys.phase = .dumping
  writes : written = dumpWrites s
  dumped : s.sys.phase ≠ .booting → dumpNeeded s = true → t.dumped = some (s.ftl.slots, s.str.stripes, false)

theorem State.dumpStart_begins (s : State) (cause : DumpCause) : DumpBegun cause s (s.dumpStart cause).1 (s.dumpStart cause).2 := by
  have ready : OnlyChanges (.sys :: stopParts) s s.dumpReady := s.dumpReady_only.mono (by decide)
  have begun (f : Sys → Sys) : OnlyChanges (.sys :: stopParts) s (s.dumpReady.onSys f) :=
    OnlyChanges.trans ready (only_of_blank (by simp))
  rw [State.dumpStart_eq]
  split
  · next hw =>
    extract_lets t
    have luns : OnlyChanges [.media, .str] t ((boardLuns t).foldl State.lunNext t) := t.lunsNext_only _
    refine ⟨OnlyChanges.trans (begun _) (luns.mono (by decide)), ?_, ?_, fun _ => ?_, hw.symm, fun hp hn => ?_⟩
    · rw [luns .power (by decide), State.onSys_power, State.dumpReady_settled]
    · exact congrArg Sys.dumpCause (luns .sys (by decide))
    · exact congrArg Sys.phase (luns .sys (by decide))
    · rw [State.dumped_foldl _ State.lunNext_dumped, State.onSys_dumped, State.dumpReady_dumped hp hn]
  · next hw =>
    dsimp only
    refine ⟨begun _, ?_, rfl, nofun, ((Bool.not_eq_true _).mp hw).symm, fun hp hn => ?_⟩
    · rw [State.onSys_power, State.dumpReady_settled]
    · rw [State.onSys_dumped, State.dumpReady_dumped hp hn]

/-! ## What an escalation records -/

theorem State.recordEsc_sys (s : State) (level : Nat) (i : Island) (unit cause : Nat) : ∃ e a b,
    (s.recordEsc level i unit cause).sys = { s.sys with escPending := e, irqSeenA := a, irqSeenB := b } := by
  unfold State.recordEsc
  extract_lets last s1 s2
  have noted : s2.sys = s.sys := only_of_blank (ps := [.regs, .health]) (by simp [s2, s1]) .sys (by decide)
  split
  · have logged (u : State) : (u.logEvent 3 level 0xFFFF last 0).sys = u.sys := only_of_blank (ps := [.health]) (by simp) .sys (by decide)
    rw [State.irq_sys, logged]
    simp only [State.onSys, noted]
    exact ⟨_, _, _, rfl⟩
  · exact ⟨_, _, _, noted⟩

theorem State.recordEsc_only (s : State) (level : Nat) (i : Island) (unit cause : Nat) :
    OnlyChanges [.regs, .sys, .host, .health] s (s.recordEsc level i unit cause) := only_of_blank (s.recordEsc_blank _ _ _ _ (by simp))

theorem State.failTrial_only (s : State) : OnlyChanges [.boot] s s.failTrial := only_of_blank (s.failTrial_blank (by simp))

theorem State.countL4_only (s : State) : OnlyChanges [.sys, .boot] s s.countL4 := only_of_blank (s.countL4_blank (by simp))

theorem State.countL4_sys (s : State) : ∃ times, s.countL4.sys = { s.sys with escL4Times := times } := by
  unfold State.countL4
  extract_lets kept times
  split
  · exact ⟨_, rfl⟩
  · exact ⟨_, rfl⟩

/-- The state in which an L4 reset starts its dump. -/
def State.escalated (s : State) (i : Island) (cause : Nat) (dc : DumpCause) : State :=
  (if dc = .escalation then (s.recordEsc 4 i 0xFF cause).countL4 else s.recordEsc 4 i 0xFF cause).failTrial

theorem State.escalated_only (s : State) (i : Island) (cause : Nat) (dc : DumpCause) :
    OnlyChanges [.regs, .sys, .host, .health, .boot] s (s.escalated i cause dc) := by
  have recorded : OnlyChanges [.regs, .sys, .host, .health, .boot] s (s.recordEsc 4 i 0xFF cause) :=
    (s.recordEsc_only _ _ _ _).mono (by simp)
  refine OnlyChanges.trans (t := if _ then _ else _) ?_ ((State.failTrial_only _).mono (by simp))
  split
  · exact OnlyChanges.trans recorded ((State.countL4_only _).mono (by simp))
  · exact recorded

theorem State.escalated_sys (s : State) (i : Island) (cause : Nat) (dc : DumpCause) :
    (s.escalated i cause dc).sys.phase = s.sys.phase ∧ (s.escalated i cause dc).sys.down = s.sys.down ∧
      (s.escalated i cause dc).sys.gated = s.sys.gated := by
  obtain ⟨e, a, b, recorded⟩ := s.recordEsc_sys 4 i 0xFF cause
  obtain ⟨times, counted⟩ := (s.recordEsc 4 i 0xFF cause).countL4_sys
  rw [State.escalated, State.failTrial_only _ .sys (by decide)]
  split
  · rw [counted, recorded]
    exact ⟨rfl, rfl, rfl⟩
  · rw [recorded]
    exact ⟨rfl, rfl, rfl⟩

/-- An L4 reset with something to dump, and a set of LUNs to write it, dumps. -/
theorem State.l4Reset_dumps {s : State} (i : Island) (cause : Nat) (dc : DumpCause) (hphase : s.sys.phase = .running)
    (hgo : s.power.writesStopped = false) (hneeded : dumpNeeded s = true) (hserves : setServes s 0 = true) :
    (s.l4Reset i cause dc).sys.phase = .dumping ∧ (s.l4Reset i cause dc).sys.dumpCause = dc ∧
      (s.l4Reset i cause dc).dumped = some (s.ftl.slots, s.str.stripes, false) := by
  have only := s.escalated_only i cause dc
  obtain ⟨phase, down, gated⟩ := s.escalated_sys i cause dc
  have ftl : (s.escalated i cause dc).ftl = s.ftl := only .ftl (by decide)
  have str : (s.escalated i cause dc).str = s.str := only .str (by decide)
  have power : (s.escalated i cause dc).power = s.power := only .power (by decide)
  have serves : setServes (s.escalated i cause dc) 0 = true :=
    (setServes_congr 0 down gated (only .media (by decide)) (only .board (by decide))).trans hserves
  have needed : dumpNeeded (s.escalated i cause dc) = true := (dumpNeeded_congr ftl str).trans hneeded
  have booted : (s.escalated i cause dc).sys.phase ≠ .booting := by rw [phase, hphase]; decide
  have begins := (s.escalated i cause dc).dumpStart_begins dc
  have writes : ((s.escalated i cause dc).dumpStart dc).2 = true := by
    rw [begins.writes, dumpWrites, needed, serves, power, hgo]
    simp [booted]
  have run : s.l4Reset i cause dc = ((s.escalated i cause dc).dumpStart dc).1 := by
    obtain ⟨t, b, hd⟩ : ∃ t b, (s.escalated i cause dc).dumpStart dc = (t, b) := ⟨_, _, rfl⟩
    have hb : b = true := by rw [← writes, hd]
    rw [State.l4Reset, if_pos (.inl hphase)]
    show (match (s.escalated i cause dc).dumpStart dc with | (s3, true) => s3 | (s3, false) => s3.afterDump) = _
    rw [hd, hb]
  rw [run]
  exact ⟨begins.phase writes, begins.dumpCause, by rw [begins.dumped booted needed, ftl, str]⟩

/-! ## The reset of CTRL (R523) -/

/-- The state in which an L3 reset begins, once it is recorded. -/
def State.ctrlFails (s : State) (i : Island) (cause : Nat) : State :=
  ((s.recordEsc 3 i 0xFF cause).beginReset 3 .ctrl 0xFF).failTrial

/-- The state in which an L3 reset has stopped the flow contexts and the controllers. -/
def State.ctrlStopped (s : State) (i : Island) (cause : Nat) : State :=
  let s1 := s.ctrlFails i cause
  let s2 := (s1.disp.flows.filter fun e => e.2.bound).foldl (fun t e => t.releaseFlow e.1) s1
  let s3 := (fnsOf .a ++ (if s2.host.portB.present then fnsOf .b else [])).foldl State.failController s2
  ((s3.clearRegs (heldBy .ctrl)).clearLocks).withdraw fun c => match c with | .copy _ => true | _ => false

theorem State.releaseFlows_sys (s : State) (es : List (Nat × Flow)) : (es.foldl (fun t e => t.releaseFlow e.1) s).sys = s.sys :=
  sys_foldl (fun t (e : Nat × Flow) => t.releaseFlow e.1) (fun t e => t.releaseFlow_sys e.1) es s

theorem State.releaseFlows_power (s : State) (es : List (Nat × Flow)) :
    (es.foldl (fun t e => t.releaseFlow e.1) s).power = s.power :=
  (OnlyChanges.foldl (fun t (e : Nat × Flow) => only_of_blank (t.releaseFlow_blank e.1 (List.Subset.refl _))) es s) .power (by decide)

/-- The clock's rate is not among what waits. -/
theorem Drops.clock {s t : State} (h : Drops s t) : t.power.k = s.power.k := by
  have clock : t.power.settled.k = s.power.settled.k := by rw [h.settled]
  exact clock

theorem State.failControllers_drops (s : State) (fs : List Fn) : Drops s (fs.foldl State.failController s) :=
  Drops.foldl State.failController_drops fs s

/-- What stops CTRL's work keeps the resets under way and the clock that the mode gives. -/
theorem State.ctrlStopped_keeps (s : State) (i : Island) (cause : Nat) :
    ⟨3, .ctrl, 0xFF⟩ ∈ (s.ctrlStopped i cause).sys.recovering ∧ (s.ctrlStopped i cause).power.k = s.power.k := by
  have begun : ⟨3, .ctrl, 0xFF⟩ ∈ (s.ctrlFails i cause).sys.recovering := by
    rw [State.ctrlFails, State.failTrial_only _ .sys (by decide)]
    exact List.mem_append_right _ (List.mem_singleton.mpr rfl)
  have power : (s.ctrlFails i cause).power = s.power := by
    rw [State.ctrlFails, State.failTrial_only _ .power (by decide)]
    exact s.recordEsc_only _ _ _ _ .power (by decide)
  unfold State.ctrlStopped
  extract_lets s1 s2 s3
  have h1 : s2.sys = s1.sys := State.releaseFlows_sys ..
  have p1 : s2.power = s1.power := State.releaseFlows_power ..
  have h3 : Drops s2 s3 := State.failControllers_drops ..
  have cleared : OnlyChanges [.regs] s3 (s3.clearRegs (heldBy .ctrl)).clearLocks := only_of_blank (by simp)
  rw [State.withdraw_only _ _ .sys (by decide), State.withdraw_only _ _ .power (by decide), cleared .sys (by decide),
    cleared .power (by decide), h3.only .sys (by decide), h1, h3.clock, p1]
  exact ⟨begun, by rw [power]⟩

theorem State.l3Reset_ctrl {s : State} (i : Island) (cause : Nat) (hphase : s.sys.phase = .running) (hctrl : .ctrl ∉ s.sys.down)
    (hresets : resetsWithin s 3 .ctrl 0xFF (3600 * tSec) < 2) :
    .ctrl ∈ (s.l3Reset i cause).sys.down ∧ ⟨3, .ctrl, 0xFF⟩ ∈ (s.l3Reset i cause).sys.recovering ∧
      (s.l3Reset i cause).power.effective = .balanced ∧ (s.l3Reset i cause).power.requested = .balanced ∧
      (s.l3Reset i cause).power.k = s.power.k ∧ (s.l3Reset i cause).boot.download = [] ∧ (s.l3Reset i cause).hrt.modules = [] := by
  obtain ⟨recovers, k⟩ := s.ctrlStopped_keeps i cause
  have few : ¬2 ≤ resetsWithin s 3 .ctrl 0xFF (3600 * tSec) := by omega
  unfold State.l3Reset
  rw [if_neg (by simp [hphase, hctrl]), if_neg few]
  extract_lets s1 s2 s3 s4 s5 s6 s7 s8
  change ⟨3, .ctrl, 0xFF⟩ ∈ s4.sys.recovering at recovers
  change s4.power.k = s.power.k at k
  clear_value s4
  have noted : OnlyChanges [.health] s5 (if s4.hrt.faults.isEmpty then s5 else s5.bumpGen 0xC5) := by
    split
    · exact OnlyChanges.refl _ s5
    · exact only_of_blank (by simp)
  have dropped : OnlyChanges [.health, .boot, .sea] s5 s6 := OnlyChanges.trans (noted.mono (by simp)) (only_of_blank (by simp [s6]))
  obtain ⟨sys5, power5, modules5⟩ : s5.sys = s4.sys ∧ s5.power = s4.power ∧ s5.hrt.modules = [] := ⟨rfl, rfl, rfl⟩
  have download6 : s6.boot.download = [] := rfl
  clear_value s6 s5
  obtain ⟨effective, requested, clock⟩ : s8.power.effective = .balanced ∧ s8.power.requested = .balanced ∧ s8.power.k = s6.power.k :=
    ⟨rfl, rfl, rfl⟩
  obtain ⟨sys8, boot8, hrt8⟩ : s8.sys = s6.sys ∧ s8.boot = s6.boot ∧ s8.hrt = s6.hrt := ⟨rfl, rfl, rfl⟩
  clear_value s8
  have back : OnlyChanges [.media, .ftl, .str, .health, .regs] s8 s8.rewindReshape.clearRefused.bufPeak :=
    OnlyChanges.trans (s8.rewindReshape_only.mono (by simp)) (only_of_blank (by simp))
  generalize s8.rewindReshape.clearRefused.bufPeak = w at back ⊢
  rw [State.onSys_power, State.onSys_boot, State.onSys_hrt, back .power (by decide), back .boot (by decide), back .hrt (by decide), boot8,
    hrt8, clock, dropped .power (by decide), dropped .hrt (by decide), power5]
  refine ⟨mem_addOnce w.sys.down _, ?_, effective, requested, k, download6, modules5⟩
  show _ ∈ w.sys.recovering
  rwa [back .sys (by decide), sys8, dropped .sys (by decide), sys5]

/-! ## Recoveries that end (R523, R524) -/

theorem resetDone_unit {s : State} {i : Island} {r : Recovery}
    (hr : s.sys.recovering.find? (fun r => r.level = 1 ∧ r.island = i) = some r) (hi : i ≠ .compute) :
    ∃ u : State, exec (.resetDone 1 i) s = .next (u.startHeldReads).irq ∧ (∀ x ∈ u.disp.resetting, clsCode x.cls ≠ r.unit) ∧
      OnlyChanges [.sys, .disp] s u := by
  refine ⟨(s.onSys fun y => { y with recovering := y.recovering.erase r }).onDisp fun d =>
    { d with resetting := d.resetting.filter fun u => clsCode u.cls ≠ r.unit }, ?_, fun x hx => ?_, only_of_blank (by simp)⟩
  · show execResetDone 1 i s = _
    simp only [execResetDone, hr, State.unitBack, if_neg hi]
  · exact of_decide_eq_true (List.mem_filter.mp hx).2

theorem State.islandBack_sys (s : State) (i : Island) :
    (s.islandBack i).sys = { s.sys with down := s.sys.down.filter fun x => x ≠ i } := by
  unfold State.islandBack
  extract_lets s1
  split
  · rfl
  · rfl

theorem resetDone_island {s : State} {i : Island} {r : Recovery}
    (hr : s.sys.recovering.find? (fun r => r.level = 2 ∧ r.island = i) = some r) : Completes (.resetDone 2 i) s fun t =>
      i ∉ t.sys.down ∧ t.sys.recovering = s.sys.recovering.erase r ∧ OnlyChanges [.sys, .memory, .host] s t := by
  have run : exec (.resetDone 2 i) s =
      .next ((s.onSys fun y => { y with recovering := y.recovering.erase r }).islandBack i).irq := by
    show execResetDone 2 i s = _
    simp only [execResetDone, hr]
  refine ⟨_, run, ?_⟩
  beta_reduce
  rw [State.irq_sys, State.islandBack_sys]
  refine ⟨by simp, rfl, OnlyChanges.trans (only_of_blank (by simp)) ((State.irq_only _).mono (by simp))⟩

/-- CTRL comes back: its boot is appended to the ledger and the lifetime counts are written. -/
theorem State.ctrlBack_restarts (s : State) : .ctrl ∉ s.ctrlBack.sys.down ∧
    (s.power.writesStopped = false → s.ctrlBack.health.writing = true) ∧
    ∃ a, s.ctrlBack.boot.appends = s.boot.appends ++ [a] ∧ a.kind = 0 ∧ a.cause = 3 := by
  unfold State.ctrlBack
  generalize hu : (s.onSys fun y => { y with down := y.down.filter fun x => x ≠ .ctrl }).bootAppend 3 = u
  have power : u.power = s.power := by rw [← hu]; rfl
  have sys : u.sys.down = s.sys.down.filter fun x => x ≠ .ctrl := by rw [← hu]; rfl
  have appended : ∃ a, u.boot.appends = s.boot.appends ++ [a] ∧ a.kind = 0 ∧ a.cause = 3 := by
    rw [← hu]
    exact ⟨_, rfl, rfl, rfl⟩
  refine ⟨?_, fun hgo => ?_, appended⟩
  · show .ctrl ∉ u.sys.down
    simp [sys]
  · show u.beginLife.health.writing = true
    cases hw : u.health.writing with
    | false => rw [State.beginLife_of_free hw (power ▸ hgo)]; rfl
    | true => rw [State.beginLife_of_busy (.inl hw)]; exact hw

theorem resetDone_ctrl {s : State} {r : Recovery} (hr : s.sys.recovering.find? (fun r => r.level = 3 ∧ r.island = .ctrl) = some r) :
    Completes (.resetDone 3 .ctrl) s fun t =>
      .ctrl ∉ t.sys.down ∧ (s.power.writesStopped = false → t.health.writing = true) ∧
      (∃ a, t.boot.appends = s.boot.appends ++ [a] ∧ a.kind = 0 ∧ a.cause = 3) ∧
      OnlyChanges [.sys, .boot, .health, .host] s t := by
  have run : exec (.resetDone 3 .ctrl) s = .next ((s.onSys fun y => { y with recovering := y.recovering.erase r }).ctrlBack).irq := by
    show execResetDone 3 .ctrl s = _
    simp only [execResetDone, hr]
  obtain ⟨down, writing, appended⟩ := (s.onSys fun y => { y with recovering := y.recovering.erase r }).ctrlBack_restarts
  refine ⟨_, run, ?_⟩
  beta_reduce
  rw [State.irq_sys, State.irq_only _ .health (by decide), State.irq_only _ .boot (by decide)]
  exact ⟨down, writing, appended, OnlyChanges.trans (only_of_blank (by simp)) ((State.irq_only _).mono (by simp))⟩

/-- Settles O51, from what the resets stop and keep and how a dump starts. -/
theorem ladderEscalates : Obligations.LadderEscalates := by
  unfold Obligations.LadderEscalates
  refine ⟨?mgmt, ?root, ?unit, ?island, ?ctrl, fun s i r hr hi => resetDone_unit hr hi, fun s i r hr => resetDone_island hr,
    fun s r hr => resetDone_ctrl hr⟩
  case mgmt =>
    intro s hrun hup hresets
    have phase : s.sys.phase = .running := of_decide_eq_true hrun
    have ctrl : .ctrl ∉ s.sys.down := by
      simp only [State.up, Bool.and_eq_true, Bool.not_eq_true', decide_eq_false_iff_not] at hup
      exact hup.1
    exact ⟨_, rfl, State.l3Reset_ctrl .ctrl 7 phase ctrl hresets⟩
  case root =>
    intro s hrun hgo hneeded hserves
    obtain ⟨phase, cause, dumped⟩ := State.l4Reset_dumps .aon 8 .escalation (of_decide_eq_true hrun) hgo hneeded hserves
    obtain ⟨d, hd, content⟩ := Option.map_eq_some_iff.mp dumped
    simp only [DumpImage.content, Prod.mk.injEq] at content
    exact ⟨_, rfl, phase, cause, d, hd, content.1, content.2.2⟩
  case unit =>
    intro s u i unit hr hu
    show execEscalationBoundExpiry 1 i unit s = _
    simp only [execEscalationBoundExpiry, hr, hu, Bool.not_true, Bool.false_eq_true, if_false]
  case island =>
    intro s i unit hr
    show execEscalationBoundExpiry 2 i unit s = _
    simp only [execEscalationBoundExpiry, hr, Bool.not_true, Bool.false_eq_true, if_false]
  case ctrl =>
    intro s i unit hr
    show execEscalationBoundExpiry 3 i unit s = _
    simp only [execEscalationBoundExpiry, hr, Bool.not_true, Bool.false_eq_true, if_false]

end Sys2Proof.Machine
end
section
/-! PROOFS. Heat and the loss of power (O53): what a sample of the sensors changes, an alarm of the temperature, and how a fall of power
starts the dump or the hold. -/

namespace Sys2Proof.Machine

/-! ## The sensors (R538) -/

theorem sensorF_range (i : Nat) : -128 ≤ sensorF i ∧ sensorF i ≤ 127 := by
  have small : (Config.sensorFactory i).toNat < 256 := (Config.sensorFactory i).isLt
  unfold sensorF signed
  split
  · omega
  · omega

theorem clampInt_range (v : Int) {lo hi : Int} (h : lo ≤ hi) : lo ≤ clampInt v lo hi ∧ clampInt v lo hi ≤ hi := by
  unfold clampInt
  split
  · omega
  · split
    · omega
    · omega

/-- The power state once a sample is taken. -/
def Power.sampled (p : Power) (readings untrimmed : List Int) (peak : Option Int) : Power :=
  { p with readings := readings, untrimmed := untrimmed, peak := peak }

theorem State.takeSample_only (s : State) (raw : List Int) : OnlyChanges [.power, .host, .health] s (s.takeSample raw) :=
  only_of_blank (by simp)

theorem State.takeSample_power (s : State) (raw : List Int) : ∃ peak, (s.takeSample raw).power =
    s.power.sampled (raw.mapIdx fun i r => r + sensorTrim s i) (raw.mapIdx fun i r => r + sensorF i) peak := by
  unfold State.takeSample
  extract_lets trimmed hot s1 cool
  have told : OnlyChanges [.host, .health] s1 (s1.raiseSmart evTemperature [1]) := only_of_blank (by simp)
  split
  · exact ⟨_, told .power (by decide)⟩
  · exact ⟨_, rfl⟩

/-! ## Modes leave the readings, and whether writes are stopped, alone -/

/-- The readings, and whether program and erase are stopped. -/
def Power.heat (p : Power) : List Int × Bool := (p.readings, p.writesStopped)

theorem State.heat_of_only {ps : List Part} {s t : State} (h : OnlyChanges ps s t) (hp : .power ∉ ps) : t.power.heat = s.power.heat :=
  congrArg Power.heat (h .power hp)

theorem State.admin_heat (s : State) (w : Who) (st : Status) (dw : W32) : (s.admin w st dw).power.heat = s.power.heat :=
  State.heat_of_only (ps := [.host, .health]) (only_of_blank (by simp)) (by decide)

theorem State.abandonTransition_heat (s : State) : s.abandonTransition.power.heat = s.power.heat := by
  unfold State.abandonTransition
  split
  · rfl
  · extract_lets s1
    split
    · exact State.admin_heat ..
    · rfl

theorem State.autoChange_heat (s : State) (m : Mode) (cause rank : Nat) : (s.autoChange m cause rank).power.heat = s.power.heat := by
  unfold State.autoChange
  split
  · split
    · rfl
    · exact s.abandonTransition_heat
  · rfl

theorem State.endSprint_heat (s : State) (cause rank : Nat) : (s.endSprint cause rank).power.heat = s.power.heat := by
  have changed := s.autoChange_heat .balanced cause rank
  unfold State.endSprint
  extract_lets s1
  split
  · split
    · exact changed
    · exact changed
  · exact changed

theorem State.hibernateBegin_heat (s : State) (w : Who) : (s.hibernateBegin w).power.heat = s.power.heat := by
  have flushed (u : State) : u.flushAll.power = u.power :=
    only_of_blank (u.flushAll_blank (List.Subset.refl _)) .power (by decide)
  unfold State.hibernateBegin
  extract_lets s1
  show s1.flushAll.power.heat = s.power.heat
  rw [flushed]
  rfl

theorem State.serveMode_heat (s : State) (w : Who) (m : Mode) : (s.serveMode w m).power.heat = s.power.heat := by
  unfold State.serveMode
  split
  · exact State.admin_heat ..
  · split
    · split
      · exact State.admin_heat ..
      · exact s.hibernateBegin_heat w
    · split
      · exact State.admin_heat ..
      · rfl

theorem serveWaiting_heat (rs : List ModeReq) (s : State) : (serveWaiting rs s).power.heat = s.power.heat := by
  induction rs generalizing s with
  | nil => rfl
  | cons r rs ih =>
    unfold serveWaiting
    split
    · rfl
    · rw [ih, State.serveMode_heat]

theorem State.leaveEmber_heat (s : State) : s.leaveEmber.power.heat = s.power.heat := by
  have abandoned := s.abandonTransition_heat
  unfold State.leaveEmber
  extract_lets s1 m s2
  split
  · exact (serveWaiting_heat ..).trans abandoned
  · exact (State.autoChange_heat ..).trans abandoned

theorem State.thermalModes_heat (s : State) (t : Int) : (s.thermalModes t).power.heat = s.power.heat := by
  unfold State.thermalModes
  split
  · rfl
  · split
    · exact s.endSprint_heat 2 3
    · split
      · exact s.autoChange_heat ..
      · split
        · exact s.leaveEmber_heat
        · rfl

/-! ## Program and erase stop and go on (R539) -/

theorem State.thermalWrites_power (s : State) (t : Int) : (s.thermalWrites t).power.heat =
    (s.power.readings, if 600 < t then true else if t ≤ 580 then false else s.power.writesStopped) := by
  unfold State.thermalWrites
  split
  · next h =>
    rw [if_pos h.1]
    exact State.heat_of_only (ps := [.regs, .health]) (s := s.onPower fun p => { p with writesStopped := true })
      (only_of_blank (by simp)) (by decide)
  · next h1 =>
    split
    · next h2 =>
      extract_lets s0 s1 s2
      have begun : OnlyChanges [.media] s s0 := by
        simp only [s0]
        split
        · exact only_of_blank (by simp)
        · exact OnlyChanges.refl _ s
      have goes : s1.power.heat = (s.power.readings, false) := by
        show (s0.power.readings, false) = _
        rw [begun .power (by decide)]
      have flushed : OnlyChanges [.health] s1 s2 := by
        simp only [s2]
        split
        · exact only_of_blank (by simp)
        · exact OnlyChanges.refl _ s1
      rw [State.lunsNext_only _ _ .power (by decide), flushed .power (by decide), goes, if_neg (by omega), if_pos h2.1]
    · next h2 =>
      show (s.power.readings, s.power.writesStopped) = _
      cases stopped : s.power.writesStopped with
      | false =>
        have cool : ¬600 < t := fun h => h1 ⟨h, by simp [stopped]⟩
        simp [cool]
      | true =>
        have hot : ¬t ≤ 580 := fun h => h2 ⟨h, stopped⟩
        simp [hot]

/-! ## An alarm of the temperature (R541) -/

/-- The parts that the erasure of flow contexts changes. -/
def flowParts : List Part := [.regs, .ftl, .media, .str, .disp, .hrt, .health]

theorem freeTask_only (s : State) (t : Task) : OnlyChanges [.disp] s (freeTask s t) := by
  unfold freeTask State.freeBuf
  cases t.buf with
  | none => cases t.out with
    | none => exact OnlyChanges.refl _ s
    | some _ => exact only_of_blank (by simp)
  | some _ => cases t.out with
    | none => exact only_of_blank (by simp)
    | some _ => exact only_of_blank (by simp)

theorem freeTasks_only (s : State) (ts : List Task) : OnlyChanges [.disp] s (freeTasks s ts) := OnlyChanges.foldl freeTask_only ts s

theorem State.discardFlow_only (s : State) (flow : Nat) : OnlyChanges flowParts s (s.discardFlow flow) := by
  unfold State.discardFlow
  extract_lets mine gone queued fetched squirrels held s1 s2 s3 s4
  have freed : OnlyChanges flowParts s s1 := (freeTasks_only _ _).mono (by decide)
  have changed : OnlyChanges flowParts s1 s4 := only_of_blank (by simp [s4, s3, s2, flowParts])
  exact OnlyChanges.trans freed (OnlyChanges.trans changed (only_of_blank (by simp [flowParts])))

theorem State.stopSource_only (s : State) (flow : Nat) : OnlyChanges flowParts s (s.stopSource flow) := by
  unfold State.stopSource
  extract_lets mine s1
  have freed : OnlyChanges flowParts s s1 := (freeTasks_only _ _).mono (by decide)
  have changed (f : Disp → Disp) : OnlyChanges flowParts s1 (s1.onDisp f) := only_of_blank (by simp [flowParts])
  exact OnlyChanges.trans freed (OnlyChanges.trans (changed _) ((State.withdraw_only _ _).mono (by decide)))

theorem State.failFlow_only (s : State) (flow chunk stage : Nat) (st : Status) : OnlyChanges flowParts s (s.failFlow flow chunk stage st) := by
  unfold State.failFlow
  extract_lets s1
  have counted : OnlyChanges flowParts s s1 := by
    simp only [s1]
    split
    · exact (State.addLife_only _ _ _).mono (by decide)
    · exact OnlyChanges.refl _ s
  have failed (g : Flow → Flow) : OnlyChanges flowParts s1 (s1.onFlow flow g) := only_of_blank (by simp [flowParts])
  exact OnlyChanges.trans counted (OnlyChanges.trans (failed _) (OnlyChanges.trans (State.stopSource_only _ _) (State.discardFlow_only _ _)))

theorem State.eraseFlow_only (s : State) (i : Nat) (p : Stage → Bool) : OnlyChanges flowParts s (s.eraseFlow i p) := by
  unfold State.eraseFlow
  split
  · exact OnlyChanges.refl _ s
  · next f _ =>
    dsimp only
    split
    · exact OnlyChanges.refl _ s
    · have erased (g : Flow → Flow) (d : Disp → Disp) : OnlyChanges flowParts s ((s.onFlow i g).onDisp d) :=
        only_of_blank (by simp [flowParts])
      have failed (t : State) (g : Flow → Flow) : OnlyChanges flowParts t (t.onFlow i g) := only_of_blank (by simp [flowParts])
      split
      · exact OnlyChanges.trans (erased _ _) (State.failFlow_only _ _ _ _ _)
      · exact OnlyChanges.trans (erased _ _) (OnlyChanges.trans ((freeTasks_only _ _).mono (by decide))
          (OnlyChanges.trans (failed _ _) (State.discardFlow_only _ _)))

/-- What an alarm leaves once it has erased the keys, failed what used them and reported. -/
def State.alarmed (s : State) (a : AlarmCause) : State :=
  let s1 := ((s.eraseKeys a).forgetKeys).failImports
  (((s1.disp.flows.map (·.1)).foldl (fun t i => t.eraseFlow i Stage.isCipher) s1).failReads).alarmReport

theorem State.alarmed_keeps (s : State) (a : AlarmCause) :
    (s.alarmed a).sys.phase = s.sys.phase ∧ (s.alarmed a).sea = (s.eraseKeys a).sea := by
  have forgot : OnlyChanges [.ftl, .disp] (s.eraseKeys a) (s.eraseKeys a).forgetKeys := only_of_blank (State.forgetKeys_blank _ (by simp))
  unfold State.alarmed
  extract_lets s1
  have failed : OnlyChanges [.host, .boot, .health] (s.eraseKeys a).forgetKeys s1 := State.failImports_only _
  have erased : OnlyChanges flowParts s1 ((s1.disp.flows.map (·.1)).foldl (fun t i => t.eraseFlow i Stage.isCipher) s1) :=
    OnlyChanges.foldl (fun t i => t.eraseFlow_only i _) _ _
  rw [State.alarmReport_phase, State.alarmReport_only _ .sea (by decide), State.failReads_only _ .sys (by decide),
    State.failReads_only _ .sea (by decide), erased .sys (by decide), erased .sea (by decide), failed .sys (by decide),
    failed .sea (by decide), forgot .sys (by decide), forgot .sea (by decide), State.eraseKeys_only _ _ .sys (by decide)]
  exact ⟨rfl, rfl⟩

theorem State.thermalShutdown_keeps (s : State) : s.thermalShutdown.sys.phase = .thermalShutdown ∧ s.thermalShutdown.sea = s.sea := by
  refine ⟨rfl, ?_⟩
  unfold State.thermalShutdown
  extract_lets times s1
  have stopped : s1.sea = s.sea := (State.stopAll_only _ .sea (by decide)).trans
    ((only_of_blank (ps := [.regs, .health]) (by simp)) .sea (by decide))
  exact stopped

/-- While the G9 runs, an alarm of the temperature shuts it down. -/
theorem State.overtemp_shuts_down {s : State} (h : s.sys.phase = .running) :
    (s.alarm .overtemp).sys.phase = .thermalShutdown ∧ AlarmCause.overtemp ∈ (s.alarm .overtemp).sea.alarms := by
  obtain ⟨phase, sea⟩ := s.alarmed_keeps .overtemp
  unfold State.alarm
  extract_lets s1 s2 s5 counted s6
  have same : s5 = s.alarmed .overtemp := rfl
  rw [← same] at phase sea
  clear_value s5
  have running : s5.sys.phase = .running := phase.trans h
  have kept : s6 = s5 := if_neg (by rw [running]; decide)
  obtain ⟨shut, seaKept⟩ := s5.thermalShutdown_keeps
  rw [kept, if_pos ⟨rfl, .inl running⟩, shut, seaKept, sea]
  exact ⟨rfl, mem_addOnce s.sea.alarms .overtemp⟩

/-! ## A sample of the sensors (R538 to R541) -/

theorem hottest_congr {s t : State} (h : t.power.readings = s.power.readings) : hottest t = hottest s := by
  rw [hottest, h, hottest]

/-- A sample of sixteen sensors has a hottest one. -/
theorem hottest_takeSample (s : State) {raw : List Int} (hlen : raw.length = 16) : ∃ t, hottest (s.takeSample raw) = some t := by
  obtain ⟨peak, power⟩ := s.takeSample_power raw
  have readings : (s.takeSample raw).power.readings = raw.mapIdx fun i r => r + sensorTrim s i := by rw [power]; rfl
  cases raw with
  | nil => simp at hlen
  | cons r rs =>
    rw [List.mapIdx_cons] at readings
    exact ⟨_, by rw [hottest, readings]⟩

/-- With no sensor at 155 °C, a sample while the G9 runs changes what may be written and the mode. -/
theorem thermalSample_below {s : State} {raw : List Int} (hlen : raw.length = 16) (hrun : s.running = true)
    (hcool : ∀ x, x ∈ raw.mapIdx (fun i r => r + sensorF i) → x < 620) {t : Int} (ht : hottest (s.takeSample raw) = some t) :
    exec (.thermalSample raw) s = .next (((s.takeSample raw).thermalWrites t).thermalModes t) := by
  have phase : s.sys.phase = .running := of_decide_eq_true hrun
  obtain ⟨peak, power⟩ := s.takeSample_power raw
  have under : ((s.takeSample raw).power.untrimmed.any fun r => decide ((620 : Int) ≤ r)) = false := by
    rw [power]
    refine List.any_eq_false.mpr fun x hx => ?_
    have := hcool x hx
    simp only [decide_eq_true_eq]
    omega
  show execThermalSample raw s = _
  unfold execThermalSample
  rw [if_neg (by simp [hlen, phase])]
  simp only [under, Bool.false_eq_true, false_and, if_false, hrun, if_true, ht]

theorem thermalSample_over {s : State} {raw : List Int} (hlen : raw.length = 16) (hphase : s.sys.phase = .running)
    (hhot : ∃ x, x ∈ raw.mapIdx (fun i r => r + sensorF i) ∧ 620 ≤ x) :
    exec (.thermalSample raw) s = .next ((s.takeSample raw).alarm .overtemp) := by
  obtain ⟨peak, power⟩ := s.takeSample_power raw
  obtain ⟨x, hx, hot⟩ := hhot
  have over_ : ((s.takeSample raw).power.untrimmed.any fun r => decide ((620 : Int) ≤ r)) = true := by
    rw [power]
    exact List.any_eq_true.mpr ⟨x, hx, decide_eq_true hot⟩
  show execThermalSample raw s = _
  unfold execThermalSample
  rw [if_neg (by simp [hlen, hphase])]
  simp only [over_, hphase, true_or, and_self, if_true]

/-- Below 118 °C, with writes going on and no automatic EMBER, a sample changes nothing but the readings. -/
theorem State.thermal_cool {s : State} {t : Int} (h : t < 472) (hgo : s.power.writesStopped = false) (hauto : s.power.emberAuto = false) :
    (s.thermalWrites t).thermalModes t = s := by
  have writes : s.thermalWrites t = s := by
    rw [State.thermalWrites, if_neg (by omega), if_neg (by simp [hgo])]
  rw [writes, State.thermalModes]
  split
  · rfl
  · rw [if_neg (by omega), if_neg (by omega), if_neg (by simp [hauto])]

/-! ## A fall of power (R534, R543 to R546) -/

/-- The state in which a fall of power starts the dump. -/
def State.failing (s : State) : State :=
  (s.onPower fun p => { p with lastCause := 8, transition := none, hibEntry := none, waking := none }).onMem fun m => { m with retiring := [] }

/-- What holds once power has failed while the G9 ran. -/
structure PowerFailed (dc : DumpCause) (s t : State) : Prop where
  settled : t.power.settled = s.failing.power.settled
  ends : (t.sys.phase = .dumping ∧ t.sys.dumpCause = dc) ∨ t.sys.phase = .hold
  counts : ∀ off, off ≠ rPwrCount 5 → t.cnt off = s.cnt off
  dumps : dumpNeeded s = true → s.power.writesStopped = false → setServes s 0 = true →
    t.sys.phase = .dumping ∧ t.dumped = some (s.ftl.slots, s.str.stripes, false)

theorem State.afterDump_holds {s : State} (h : s.sys.dumpCause = .pfail ∨ s.sys.dumpCause = .resetN) : s.afterDump = s.enterHold := by
  rcases h with h | h <;> simp only [State.afterDump, h]

theorem State.powerFail_of_running {s : State} {dc : DumpCause} (hphase : s.sys.phase = .running) (hdc : dc = .pfail ∨ dc = .resetN) :
    PowerFailed dc s (s.powerFail dc) := by
  have begins := s.failing.dumpStart_begins dc
  have run : s.powerFail dc = match s.failing.dumpStart dc with
      | (u, true) => u.addCnt (rPwrCount 5) 1
      | (u, false) => u.afterDump := by
    have awake : ¬s.sys.phase = .thermalShutdown := by rw [hphase]; decide
    rw [State.powerFail, if_neg awake]
    rfl
  have kept : OnlyChanges [.power, .memory] s s.failing := only_of_blank (by simp [State.failing])
  have sys : s.failing.sys = s.sys := kept .sys (by decide)
  have booted : s.failing.sys.phase ≠ .booting := by rw [sys, hphase]; decide
  rw [run]
  obtain ⟨u, written, hu⟩ : ∃ u written, s.failing.dumpStart dc = (u, written) := ⟨_, _, rfl⟩
  rw [hu] at begins ⊢
  have regs : u.regs = s.regs := (begins.only .regs (by decide)).trans (kept .regs (by decide))
  have needed (hn : dumpNeeded s = true) : dumpNeeded s.failing = true :=
    (dumpNeeded_congr (kept .ftl (by decide)) (kept .str (by decide))).trans hn
  cases written with
  | true =>
    have dumping : u.sys.phase = .dumping := begins.phase rfl
    exact {
      settled := begins.settled
      ends := .inl ⟨dumping, begins.dumpCause⟩
      counts := fun off hoff => (State.cnt_addCnt_other u 1 hoff).trans (State.cnt_of_regs regs off)
      dumps := fun hn _ _ => ⟨dumping, begins.dumped booted (needed hn)⟩ }
  | false =>
    have cause : u.sys.dumpCause = .pfail ∨ u.sys.dumpCause = .resetN := by rw [begins.dumpCause]; exact hdc
    have writes : dumpWrites s.failing = false := begins.writes.symm
    dsimp only
    rw [State.afterDump_holds cause]
    refine ⟨?_, .inr rfl, fun off _ => ?_, fun hn hgo hserves => ?_⟩
    · rw [u.enterHold_only .power (by decide)]
      exact begins.settled
    · rw [State.cnt_of_regs (u.enterHold_only .regs (by decide)), State.cnt_of_regs regs]
    · have serves : setServes s.failing 0 = true := hserves
      have go : s.failing.power.writesStopped = false := hgo
      simp [dumpWrites, booted, needed hn, go, serves] at writes

/-- What a fall of power leaves of the inputs, the transition and its cause. -/
theorem PowerFailed.power {dc : DumpCause} {s t : State} (h : PowerFailed dc s t) : t.power.pfailN = s.power.pfailN ∧
    t.power.resetN = s.power.resetN ∧ t.power.railsBad = s.power.railsBad ∧ t.power.transition = none ∧ t.power.lastCause = 8 := by
  have field {α : Type} (f : Power → α) (hf : ∀ p : Power, f p.settled = f p) : f t.power = f s.failing.power := by
    rw [← hf, h.settled, hf]
  exact ⟨field (·.pfailN) fun _ => rfl, field (·.resetN) fun _ => rfl, field (·.railsBad) fun _ => rfl,
    field (·.transition) fun _ => rfl, field (·.lastCause) fun _ => rfl⟩

theorem State.pfailSeen_of_running {s : State} (hphase : s.sys.phase = .running) : s.pfailSeen = s.powerFail .pfail := by
  rw [State.pfailSeen, if_pos (by simp [failsPower, hphase])]

/-! ## The hold (R546) -/

theorem State.holdBoot_boots {s : State} (hphase : s.sys.phase = .hold) (hpfail : s.power.pfailN = true) (hreset : s.power.resetN = true)
    (hrails : s.power.railsBad = []) (hf : s.board.fuseOk = true) (hu : s.boot.usable s.boot.first = true)
    (ht : s.boot.selector.tries < 2) : s.holdBoot.sys.phase = .booting ∧ s.holdBoot.boot.running = s.boot.first ∧
      s.holdBoot.sys.portSplit = s.sys.portSplit ∧ s.holdBoot.power.resetN = true := by
  obtain ⟨pins, portSplit, choices, board⟩ := s.coldStart_keeps true
  obtain ⟨usable, first, -, selector⟩ := Boot.choices_congr choices
  have run : s.holdBoot = (s.coldStart true).bootStart 0 := by
    rw [State.holdBoot, if_pos (by simp [hphase, hpfail, hreset, hrails])]
    rfl
  have tries : ¬((s.coldStart true).boot.selector.pending ≠ 0 ∧ 2 ≤ (s.coldStart true).boot.selector.tries) := by
    rw [selector]
    omega
  obtain ⟨phase, running, -⟩ := State.bootStart_first (s := s.coldStart true) 0 (board ▸ hf) (by rwa [first, usable]) tries
  have reset : (s.coldStart true).power.resetN = s.power.resetN := congrArg (fun x : Bool × Bool × Bool × List Rail => x.2.2.1) pins
  rw [run, State.bootStart_portSplit, portSplit, State.bootStart_only _ _ .power (by decide), reset]
  exact ⟨phase, running.trans first, rfl, hreset⟩

theorem mem_addOnce_of_mem {α : Type} [DecidableEq α] {x : α} {a : List α} (r : α) (h : x ∈ a) : x ∈ addOnce a r := by
  unfold addOnce
  split
  · exact h
  · exact List.mem_append_left _ h

theorem mem_foldl_addOnce {α : Type} [DecidableEq α] {x : α} (rs : List α) (a : List α) (h : x ∈ rs ∨ x ∈ a) :
    x ∈ rs.foldl (fun a r => addOnce a r) a := by
  induction rs generalizing a with
  | nil => exact h.resolve_left List.not_mem_nil
  | cons r rs ih =>
    refine ih _ ?_
    rcases h with h | h
    · rcases List.mem_cons.mp h with rfl | h
      · exact .inr (mem_addOnce a x)
      · exact .inl h
    · exact .inr (mem_addOnce_of_mem r h)

/-! ## The commands (R534, R538 to R546, R606) -/

/-- What a sample leaves while the G9 runs and no sensor is at 155 °C. -/
theorem thermalSample_cools {s t : State} {raw : List Int} (hlen : raw.length = 16) (ht : exec (.thermalSample raw) s = .next t)
    (hcool : ∀ x, x ∈ raw.mapIdx (fun i r => r + sensorF i) → x < 620) (hrun : s.running = true) :
    t.power.readings = raw.mapIdx (fun i r => r + sensorTrim s i) ∧
      (∀ x, hottest { s with power := { s.power with readings := raw.mapIdx fun i r => r + sensorTrim s i } } = some x →
        (600 < x → t.power.writesStopped = true) ∧ (x ≤ 580 → t.power.writesStopped = false) ∧
        (580 < x → x ≤ 600 → t.power.writesStopped = s.power.writesStopped)) ∧
      (∀ x, hottest { s with power := { s.power with readings := raw.mapIdx fun i r => r + sensorTrim s i } } = some x → x < 472 →
        s.power.writesStopped = false → s.power.emberAuto = false → t.sys = s.sys ∧ OnlyChanges [.power, .host, .health] s t) := by
  obtain ⟨x, hx⟩ := hottest_takeSample s hlen
  obtain ⟨peak, power⟩ := s.takeSample_power raw
  have readings : (s.takeSample raw).power.readings = raw.mapIdx fun i r => r + sensorTrim s i := by rw [power]; rfl
  have stopped : (s.takeSample raw).power.writesStopped = s.power.writesStopped := by rw [power]; rfl
  have auto : (s.takeSample raw).power.emberAuto = s.power.emberAuto := by rw [power]; rfl
  have hot {y : Int} (hy : hottest { s with power := { s.power with readings := raw.mapIdx fun i r => r + sensorTrim s i } } = some y) :
      y = x := Option.some.inj (hy.symm.trans ((hottest_congr readings.symm).trans hx))
  obtain rfl : t = _ := Host.Outcome.next.inj (ht.symm.trans (thermalSample_below hlen hrun hcool hx))
  have heat := (State.thermalModes_heat ((s.takeSample raw).thermalWrites x) x).trans (State.thermalWrites_power _ x)
  simp only [Power.heat, Prod.mk.injEq] at heat
  obtain ⟨kept, stops⟩ := heat
  refine ⟨kept.trans readings, fun y hy => ?_, fun y hy hlow hgo hauto => ?_⟩
  · rw [hot hy, stops, stopped]
    refine ⟨fun h => if_pos h, fun h => ?_, fun h h' => ?_⟩
    · rw [if_neg (by omega), if_pos h]
    · rw [if_neg (by omega), if_neg (by omega)]
  · rw [hot hy] at hlow
    rw [State.thermal_cool hlow (stopped.trans hgo) (auto.trans hauto)]
    exact ⟨s.takeSample_only raw .sys (by decide), s.takeSample_only raw⟩

theorem pfailNFall_fails {s : State} (hrun : s.running = true) : Completes .pfailNFall s fun t =>
    t.power.pfailN = false ∧ t.power.transition = none ∧
      ((t.sys.phase = .dumping ∧ t.sys.dumpCause = .pfail) ∨ t.sys.phase = .hold) ∧
      (s.power.transition.isSome = true → t.power.lastCause = 8) ∧
      (dumpNeeded s = true → s.power.writesStopped = false → setServes s 0 = true → t.sys.phase = .dumping ∧
        ∃ d, t.str.dump = some d ∧ d.slots = s.ftl.slots ∧ d.stripes = s.str.stripes ∧ d.trailer = false) := by
  have phase : s.sys.phase = .running := of_decide_eq_true hrun
  have on : ¬s.sys.phase = .off := by rw [phase]; decide
  have run : exec .pfailNFall s = .next ((s.onPower fun p => { p with pfailN := false }).powerFail .pfail) := by
    show execPfailNFall s = _
    rw [execPfailNFall, if_neg on]
    exact congrArg Host.Outcome.next (State.pfailSeen_of_running phase)
  have failed := State.powerFail_of_running (s := s.onPower fun p => { p with pfailN := false }) (dc := .pfail) phase (.inl rfl)
  obtain ⟨pfailN, -, -, transition, cause⟩ := failed.power
  refine ⟨_, run, pfailN, transition, failed.ends, fun _ => cause, fun hn hgo hserves => ?_⟩
  obtain ⟨dumping, dumped⟩ := failed.dumps hn hgo hserves
  obtain ⟨d, hd, content⟩ := Option.map_eq_some_iff.mp dumped
  simp only [DumpImage.content, Prod.mk.injEq] at content
  exact ⟨dumping, d, hd, content⟩

theorem resetNFall_fails {s : State} (hrun : s.running = true) (hreset : s.power.resetN = true) : Completes .resetNFall s fun t =>
    t.power.resetN = false ∧ t.power.transition = none ∧
      ((t.sys.phase = .dumping ∧ t.sys.dumpCause = .resetN) ∨ t.sys.phase = .hold) := by
  have phase : s.sys.phase = .running := of_decide_eq_true hrun
  have run : exec .resetNFall s = .next ((s.onPower fun p => { p with resetN := false }).powerFail .resetN) := by
    show execResetNFall s = _
    rw [execResetNFall, if_neg (by simp [phase, hreset])]
    exact congrArg Host.Outcome.next (if_pos (by simp [failsPower, phase]))
  have failed := State.powerFail_of_running (s := s.onPower fun p => { p with resetN := false }) (dc := .resetN) phase (.inr rfl)
  obtain ⟨-, resetN, -, transition, -⟩ := failed.power
  exact ⟨_, run, resetN, transition, failed.ends⟩

/-- The state in which a rail that droops is counted. -/
def State.droops (s : State) (r : Rail) : State :=
  ((s.onPower fun p => { p with railsBad := addOnce p.railsBad r }).addCnt (rPwrCount 6) 1).addLife (lifeC3 (0x9CC + 4 * railIndex r)) 1

theorem railDroop_fails {s : State} (r : Rail) (hrun : s.running = true) (hpfail : s.power.pfailN = true) :
    Completes (.railDroop r) s fun t => r ∈ t.power.railsBad ∧ t.cnt (rPwrCount 6) = (s.cnt (rPwrCount 6) + 1) % 2 ^ 64 ∧
      ((t.sys.phase = .dumping ∧ t.sys.dumpCause = .pfail) ∨ t.sys.phase = .hold) := by
  have phase : s.sys.phase = .running := of_decide_eq_true hrun
  have counted : OnlyChanges [.health] ((s.onPower fun p => { p with railsBad := addOnce p.railsBad r }).addCnt (rPwrCount 6) 1)
      (s.droops r) := State.addLife_only _ _ _
  have phaseKept : (s.droops r).sys.phase = .running := by
    rw [counted .sys (by decide)]
    exact phase
  have rails : (s.droops r).power.railsBad = addOnce s.power.railsBad r := by
    rw [counted .power (by decide)]
    rfl
  have count : (s.droops r).cnt (rPwrCount 6) = (s.cnt (rPwrCount 6) + 1) % 2 ^ 64 :=
    (State.cnt_of_regs (counted .regs (by decide)) _).trans (State.cnt_addCnt_self ..)
  have run : exec (.railDroop r) s = .next ((s.droops r).powerFail .pfail) := by
    show execRailDroop r s = _
    rw [execRailDroop, if_neg (by simp [phase, hpfail])]
    exact congrArg Host.Outcome.next (State.pfailSeen_of_running phaseKept)
  have failed := State.powerFail_of_running (dc := .pfail) phaseKept (.inl rfl)
  obtain ⟨-, -, railsKept, -, -⟩ := failed.power
  refine ⟨_, run, ?_, (failed.counts _ (by decide)).trans count, failed.ends⟩
  rw [railsKept, rails]
  exact mem_addOnce _ r

/-- The state in which each rail that fell has its count saved. -/
def State.railsCounted (s : State) (rs : List Rail) : State :=
  (rs.foldl (fun t r => t.addLife (lifeC3 (0x9CC + 4 * railIndex r)) 1) s).onHealth fun h =>
    { h with lifeSaved := rs.foldl (fun t r => t.set (lifeC3 (0x9CC + 4 * railIndex r)) (h.life.getD (lifeC3 (0x9CC + 4 * railIndex r)) 0)) h.lifeSaved }

theorem State.railsCounted_only (s : State) (rs : List Rail) : OnlyChanges [.health] s (s.railsCounted rs) :=
  only_of_blank (by simp [State.railsCounted])

/-- The state in which a dump that was not complete is noted, where the rails fell during one. -/
def State.railsNoted (s : State) (rs : List Rail) : State :=
  if s.sys.phase = .dumping then (s.railsCounted rs).onStr fun t => { t with railsFell := true } else s.railsCounted rs

theorem State.railsNoted_keeps (s : State) (rs : List Rail) : OnlyChanges [.str, .health] s (s.railsNoted rs) ∧
    (s.sys.phase = .dumping → (s.railsNoted rs).str.railsFell = true) ∧ (s.railsNoted rs).str.dump = s.str.dump := by
  have counted : OnlyChanges [.str, .health] s (s.railsCounted rs) := (s.railsCounted_only rs).mono (by simp)
  have dump : (s.railsCounted rs).str.dump = s.str.dump := by rw [s.railsCounted_only rs .str (by decide)]
  unfold State.railsNoted
  split
  · exact ⟨OnlyChanges.trans counted (only_of_blank (by simp)), fun _ => rfl, dump⟩
  · next h => exact ⟨counted, fun hd => absurd hd h, dump⟩

theorem railsFall_ends {s : State} (rs : List Rail) (hphase : s.sys.phase = .dumping ∨ s.sys.phase = .hold) :
    Completes (.railsFall rs) s fun t => t.sys.phase = .off ∧ (∀ r, r ∈ rs → r ∈ t.power.railsBad) ∧
      (s.sys.phase = .dumping → t.str.railsFell = true) ∧ t.str.dump = s.str.dump ∧ OnlyChanges [.sys, .power, .str, .health] s t := by
  have run : exec (.railsFall rs) s = .next (((s.railsNoted rs).onSys fun y =>
      { y with phase := .off, down := islandsButAon, gated := [] }).onPower fun p =>
        { p with railsBad := rs.foldl (fun a r => addOnce a r) p.railsBad }) := by
    show execRailsFall rs s = _
    rw [execRailsFall, if_pos hphase]
    rfl
  obtain ⟨noted, fell, dump⟩ := s.railsNoted_keeps rs
  exact ⟨_, run, rfl, fun r hr => mem_foldl_addOnce rs _ (.inl hr), fell, dump,
    OnlyChanges.trans (noted.mono (by simp)) (only_of_blank (by simp))⟩

/-- Settles O53, from what a sample changes, and from how a fall of power starts the dump or the hold. -/
theorem heatAndPowerLoss : Obligations.HeatAndPowerLoss := by
  unfold Obligations.HeatAndPowerLoss
  refine ⟨?sample, sensorF_range, fun s i => clampInt_range _ (by omega), ?fall, ?expiry, ?rise, fun s rs hp => railsFall_ends rs hp⟩
  case sample =>
    intro s raw hlen _
    obtain ⟨t, ht⟩ : ∃ t, exec (.thermalSample raw) s = .next t := ⟨_, rfl⟩
    refine ⟨t, ht, fun hcool hrun => thermalSample_cools hlen ht hcool hrun, fun hhot hrun => ?_⟩
    have phase : s.sys.phase = .running := of_decide_eq_true hrun
    obtain rfl : t = _ := Host.Outcome.next.inj (ht.symm.trans (thermalSample_over hlen phase hhot))
    exact State.overtemp_shuts_down ((congrArg Sys.phase (s.takeSample_only raw .sys (by decide))).trans phase)
  case fall =>
    exact fun s hrun => ⟨pfailNFall_fails hrun, fun hreset => resetNFall_fails hrun hreset,
      fun r hpfail => railDroop_fails r hrun hpfail⟩
  case expiry =>
    intro s hphase hreset hf hu ht
    obtain ⟨booting, running, -⟩ := State.holdBoot_boots (s := s.onPower fun p => { p with pfailN := true, railsBad := [] })
      hphase rfl hreset rfl hf hu ht
    have run : exec .pfailHoldExpiry s = .next (s.onPower fun p => { p with pfailN := true, railsBad := [] }).holdBoot := by
      show execPfailHoldExpiry s = _
      rw [execPfailHoldExpiry, if_pos hphase]
    exact ⟨_, run, booting, running⟩
  case rise =>
    intro s split hphase hreset hpfail hrails hf hu ht
    have run : exec (.resetNRiseReboot split) s =
        .next ((s.onPower fun p => { p with resetN := true }).onSys fun y => { y with portSplit := split }).holdBoot := by
      show execResetNRiseReboot split s = _
      rw [execResetNRiseReboot, if_pos ⟨hphase, by simp [hreset]⟩]
    exact ⟨_, run, State.holdBoot_boots (s := (s.onPower fun p => { p with resetN := true }).onSys fun y => { y with portSplit := split })
      hphase hpfail rfl hrails hf hu ht⟩

end Sys2Proof.Machine
end
